-- ==== Sys2Proof/Word.lean ====
section
/-! DEFINITION. The word types of the S840 model and their plainest arithmetic. -/

namespace Sys2Proof

/-- One byte of a memory or of a packet. -/
abbrev Byte := BitVec 8

/-- One 32-bit word: a register of BAR0 (R9), a shader register of one lane. -/
abbrev Word := BitVec 32

/-- One 64-bit word: a packet word, an address before its range check, a time stamp (R7). -/
abbrev DWord := BitVec 64

/-- Ceiling division on naturals, as the manual's ⌈a / b⌉. -/
def ceilDiv (a b : Nat) : Nat := (a + b - 1) / b

end Sys2Proof
end

