-- ==== Sys2Proof/Syntax.lean ====
section
/-! DEFINITION. The commands of the S840 block: one constructor of `Instr` for each row of the table of operations and
events (spec/opcode_table.json), with the operands the outside or the source unit gives. -/

namespace Sys2Proof

/-- The requester paths of BAR0 registers, each with its own shadow copy (R10). -/
inductive Path where
  | host | cc0 | cc1 | cc2 | cc3 | hearth | i2c | jtag
  deriving DecidableEq, Repr

/-- The ends of a mailbox (R449, R457). -/
inductive Agent where
  | host | cp | cc2 | cc3 | hearth | i2c
  deriving DecidableEq, Repr

/-- How a read that the S840 sent ends (R436): the data, an error completion, or poisoned data. -/
inductive ReadResult where
  | data (bytes : List Byte)
  | unsupported
  | abort
  | poisoned
  deriving DecidableEq, Repr

/-- One packet as the command processor reads it from a queue's stream (R341): the 32-bit header and the body words. -/
structure Pkt where
  q : Fin 64
  hdr : Word
  body : List Word
  deriving DecidableEq, Repr

/-- The fields of one shader instruction (R53, R54). CLASS is the row's, or one that no row has (0xE, 0xF). `long` false: the
short form, whose upper 64 bits do not exist. -/
structure Insn where
  long : Bool
  pair : Bool
  pg : BitVec 3
  pgn : Bool
  cls : BitVec 4
  op : BitVec 8
  dst : BitVec 8
  srca : BitVec 8
  srcb : BitVec 8
  srcc : BitVec 8
  mod : BitVec 4
  type : BitVec 4
  pd : BitVec 3
  bsel : BitVec 2
  rsv63 : Bool
  imm : BitVec 32
  srcd : BitVec 8
  ext : BitVec 8
  rsvHi : BitVec 16
  deriving DecidableEq, Repr

/-- One issue of an instruction (R60): the core, the group slot, the port, and whether the core already issued another
instruction in the same cycle. -/
structure Issue where
  core : Fin 48
  slot : Fin 64
  portB : Bool
  dual : Bool
  i : Insn
  deriving DecidableEq, Repr

/-- One 16-byte Tongs command (R151), as four 32-bit words. -/
structure TongsCmd where
  w0 : Word
  w1 : Word
  w2 : Word
  w3 : Word
  deriving DecidableEq, Repr

/-- What a scanned-out line meets (R249, R277, R279, R283): layer pixels whose data is late, line-buffer words with a parity
error (layer, pool unit, first output column, columns), taps whose write queue is full, pixels of work the Whisk lost. -/
structure LineEvents where
  late : List (Fin 8 × Nat)
  parity : List (Fin 8 × Nat × Nat × Nat)
  tapFull : List (Fin 2)
  stall : Nat
  deriving DecidableEq, Repr

/-- What the sink behind the transmitter answers to a training (R285, R295): HPD level, rates and lane codes its DPCD
offers, FEC, DSC and HDCP capability, the rates at which training succeeds, and the LTTPRs in the link. -/
structure SinkInfo where
  hpd : Bool
  rates : List (Fin 7)
  maxLanes : Fin 3
  fec : Bool
  dsc : Bool
  hdcp : Bool
  trains : List (Fin 7)
  lttprs : Nat
  deriving DecidableEq, Repr

/-- How an HDCP 2.3 authentication of the downstream receiver ends (R291): success of its exchanges, stream type, receiver
IDs, and the topology limits it reports exceeded. -/
structure HdcpResult where
  ok : Bool
  type : Fin 2
  ids : List (BitVec 40)
  tooBig : Bool
  deriving DecidableEq, Repr

/-- A stream a DisplayPort source sends (R289): active size, encoding (DPR_STATUS.FMT), pixel rate in kHz. -/
structure RxStream where
  w : BitVec 16
  h : BitVec 16
  fmt : Fin 8
  khz : Nat
  deriving DecidableEq, Repr

/-- A frame the DisplayPort receiver receives (R235, R290): whether its link reported an error within it, and the three codes
of each pixel by row. A subsampled chroma code stands at the pixel whose column, and for 4:2:0 whose row too, is even. -/
structure RxFrame where
  linkError : Bool
  px : List (List (Nat × Nat × Nat))
  deriving DecidableEq, Repr

/-- An AUX transaction of the upstream source: a DPCD access, or an I²C-over-AUX read. -/
inductive AuxRequest where
  | dpcdRead (a : BitVec 20) (n : Nat)
  | dpcdWrite (a : BitVec 20) (bytes : List Byte)
  | i2cRead (target : BitVec 7) (off : Nat) (n : Nat)
  deriving DecidableEq, Repr

/-- An entry of the Ladle (R164): queue, sequence number, status, unit ID, and which source of that ID posts it: a core's number in its
cluster, 4 for the raster back end, a channel, or a Tongs engine's cluster. The time stamp is the acceptance's. -/
structure LadleEntry where
  q : Nat
  seq : Nat
  status : Nat
  unit : Nat
  src : Nat
  deriving DecidableEq, Repr

/-- What a unit gives the error collector (R555); the collector adds SEQ and TIME. -/
structure ErrRecord where
  code : Nat
  unit : Nat
  sev : Nat
  ctx : Option (Fin 32)
  addrLo : Nat
  addrHi : Nat
  deriving DecidableEq, Repr

/-- What a read of the L2 meets (R163): sound data, a single-bit error, a double-bit error, or a failed tag copy (set and way) or
both. -/
inductive LineError where
  | sound
  | single
  | double
  | tagCopy (set : Fin 4096) (way : Fin 16)
  | tagBoth (set : Fin 4096) (way : Fin 16)
  deriving DecidableEq, Repr

/-- A bit error that has arisen in an on-chip memory: in an L2 line (R163), in the n-th line that a core's L1 holds or in a byte of a
block's shared memory (R158), or at a byte offset of a cluster's Griddle, correctable or not (R140). -/
inductive Upset where
  | l2 (line : Nat) (e : LineError)
  | l1 (core : Fin 48) (n : Nat)
  | shared (core : Fin 48) (bs : Fin 32) (off : Nat)
  | griddle (k : Fin 12) (off : BitVec 22) (double : Bool)
  deriving DecidableEq, Repr

/-- One I²C transaction (R454): request bytes, and whether the request PEC byte was right. -/
structure I2cRequest where
  bytes : List Byte
  pecOk : Bool
  deriving DecidableEq, Repr

/-- What the on-chip tests of a cold start find (R505): stores repaired from redundancy by unit ID, clusters with a core beyond
repair (one entry per core), clusters with a Griddle, Tongs engine or raster unit beyond repair, L2 ways beyond repair by slice,
control-core memory or the line-buffer pool beyond repair. -/
structure TestResult where
  repaired : List (BitVec 8)
  cores : List (Fin 12)
  parts : List (Fin 12)
  ways : List (Fin 4 × Fin 16)
  fatal : Bool
  deriving DecidableEq, Repr

/-- What CORE_DBG does to a core (R575): halt or release it, step it, or access a register or a byte of its memory. -/
inductive CoreDbgOp where
  | halt
  | release
  | step
  | readReg (n : Nat)
  | writeReg (n : Nat) (v : Word)
  | readMem (a : BitVec 20)
  | writeMem (a : BitVec 20) (b : Byte)
  deriving DecidableEq, Repr

/-- The commands of the S840: the rows of the table of operations and events, in its order. -/
inductive Instr where
  /-- REGISTER_WRITE (R11). -/
  | registerWrite (p : Path) (a : BitVec 25) (v : Word)
  /-- RC_FIELD_READ (R11). -/
  | rcFieldRead (p : Path) (a : BitVec 25)
  /-- LOW_WORD_SHADOW_READ (R10). -/
  | lowWordShadowRead (p : Path) (a : BitVec 25)
  /-- BAR0_BAD_SIZE_ACCESS (R438). -/
  | bar0BadSizeAccess (isWrite : Bool) (a : BitVec 25) (requester : BitVec 16)
  /-- TIME_BASE_TICK (R7). -/
  | timeBaseTick
  /-- FETCH_DEADLINE (R259). -/
  | fetchDeadline
  /-- SCANOUT_LINE (R259). -/
  | scanoutLine (e : LineEvents)
  /-- TAP_PUBLISH (R282). -/
  | tapPublish (t : Fin 2)
  /-- DSP_COMMIT (R260). -/
  | dspCommit
  /-- DSP_COEF_WRITE (R298). -/
  | dspCoefWrite (n : Fin 8) (bank : Fin 2) (w : Fin 512) (v : Word)
  /-- FF_START (R229). -/
  | ffStart
  /-- FF_STOP (R230). -/
  | ffStop
  /-- FF_UPDATE (R231). -/
  | ffUpdate
  /-- FF_CLEAR_STATS (R255). -/
  | ffClearStats
  /-- SOURCE_POST (R234). -/
  | sourcePost (v : Word)
  /-- DP_CAPTURE_FRAME (R235). -/
  | dpCaptureFrame (f : RxFrame)
  /-- SOURCE_HOLD_TIMEOUT (R233). -/
  | sourceHoldTimeout
  /-- SOURCE_TIMEOUT (R233). -/
  | sourceTimeout
  /-- GATE_TIMEOUT (R242). -/
  | gateTimeout
  /-- LDM_ENABLE (R316). -/
  | ldmEnable (v : Word)
  /-- LDM_DISABLE (R317). -/
  | ldmDisable (v : Word)
  /-- STATS_PUBLISH (R302). -/
  | statsPublish (failed : Option (BitVec 40))
  /-- DUTY_TAG_POLL (R308). -/
  | dutyTagPoll
  /-- DUTY_HELD (R308). -/
  | dutyHeld
  /-- DIAG_TRANSFER (R312). -/
  | diagTransfer (p : Fin 4)
  /-- STATUS_READ (R312). -/
  | statusRead (p : Fin 4)
  /-- STATUS_READ_COMPLETE (R313). -/
  | statusReadComplete (p : Fin 4) (codes : List (BitVec 2))
  /-- LD_FAULT (R315). -/
  | ldFault (low : Bool)
  /-- DPT_ENABLE (R285). -/
  | dptEnable (v : Word) (k : SinkInfo)
  /-- DPT_DISABLE (R285). -/
  | dptDisable (v : Word)
  /-- DPT_RETRAIN (R285). -/
  | dptRetrain (k : SinkInfo)
  /-- HDCP_AUTHENTICATE (R292). -/
  | hdcpAuthenticate (r : HdcpResult)
  /-- HDCP_RETRY (R292). -/
  | hdcpRetry (r : HdcpResult)
  /-- DPT_IRQ_HPD (R288). -/
  | dptIrqHpd (k : SinkInfo)
  /-- DPT_HPD_LOW_TIMEOUT (R288). -/
  | dptHpdLowTimeout
  /-- DPT_HPD_RETURN (R288). -/
  | dptHpdReturn (k : SinkInfo)
  /-- DPR_ENABLE (R283). -/
  | dprEnable (v : Word)
  /-- DPR_DISABLE (R299). -/
  | dprDisable (v : Word)
  /-- DPR_AUX_TRANSACTION (R289). -/
  | dprAuxTransaction (r : AuxRequest)
  /-- DOORBELL (R337). -/
  | doorbell (q : Fin 64) (w : Word)
  /-- NOP (R342). -/
  | nop (p : Pkt)
  /-- DISPATCH (R346). -/
  | dispatch (p : Pkt)
  /-- DISPATCH_START (R347). -/
  | dispatchStart (q : Fin 64)
  /-- COPY (R348). -/
  | copy (p : Pkt)
  /-- COPY_FILL (R348). -/
  | copyFill (p : Pkt)
  /-- EVENT_SIGNAL (R352). -/
  | eventSignal (p : Pkt)
  /-- EVENT_SIGNAL_RESET (R352). -/
  | eventSignalReset (p : Pkt)
  /-- EVENT_WAIT (R354). -/
  | eventWait (p : Pkt)
  /-- EVENT_WAIT_TIMEOUT (R354). -/
  | eventWaitTimeout (q : Fin 64)
  /-- COND (R356). -/
  | cond (p : Pkt)
  /-- LOOP (R357). -/
  | loop (p : Pkt)
  /-- LOOP_END (R357). -/
  | loopEnd (p : Pkt)
  /-- WAIT_MEM (R356). -/
  | waitMem (p : Pkt)
  /-- WAIT_MEM_POLL (R356). -/
  | waitMemPoll (q : Fin 64)
  /-- WAIT_MEM_TIMEOUT (R356). -/
  | waitMemTimeout (q : Fin 64)
  /-- WRITE_MEM (R356). -/
  | writeMem (p : Pkt)
  /-- INDIRECT (R358). -/
  | indirect (p : Pkt)
  /-- L2_MAINT (R349). -/
  | l2Maint (p : Pkt)
  /-- OBJ_SYNC (R333). -/
  | objSync (p : Pkt)
  /-- SLOT_DEFINE (R361). -/
  | slotDefine (p : Pkt)
  /-- SLOT_RELEASE (R361). -/
  | slotRelease (p : Pkt)
  /-- SEQ_SUBMIT (R363). -/
  | seqSubmit (p : Pkt)
  /-- SEQ_CANCEL (R363). -/
  | seqCancel (p : Pkt)
  /-- TOKEN_STEP (R364). -/
  | tokenStep (p : Pkt)
  /-- STEP_BOUNDARY (R395). -/
  | stepBoundary (q : Fin 64)
  /-- UNIT_RETIRE (R343). -/
  | unitRetire (q : Fin 64)
  /-- CTX_ENABLE (R327). -/
  | ctxEnable (c : Fin 32)
  /-- CTX_DISABLE (R328). -/
  | ctxDisable (c : Fin 32)
  /-- CTX_KILL (R331). -/
  | ctxKill (c : Fin 32)
  /-- Q_ENABLE (R336). -/
  | qEnable (q : Fin 64)
  /-- Q_DISABLE (R340). -/
  | qDisable (q : Fin 64)
  /-- EVT_REG_SIGNAL (R353). -/
  | evtRegSignal (e : Fin 4096)
  /-- EVT_REG_RESET (R353). -/
  | evtRegReset (e : Fin 4096)
  /-- FALU_ADD (R58). -/
  | faluAdd (i : Issue)
  /-- FALU_SUB (R58). -/
  | faluSub (i : Issue)
  /-- FALU_MUL (R58). -/
  | faluMul (i : Issue)
  /-- FALU_FMA (R58). -/
  | faluFma (i : Issue)
  /-- FALU_MIN (R58). -/
  | faluMin (i : Issue)
  /-- FALU_MAX (R58). -/
  | faluMax (i : Issue)
  /-- FALU_MOV (R57). -/
  | faluMov (i : Issue)
  /-- FALU_ABS (R57). -/
  | faluAbs (i : Issue)
  /-- FALU_NEG (R57). -/
  | faluNeg (i : Issue)
  /-- IALU_ADD (R606). -/
  | ialuAdd (i : Issue)
  /-- IALU_SUB (R606). -/
  | ialuSub (i : Issue)
  /-- IALU_MUL (R606). -/
  | ialuMul (i : Issue)
  /-- IALU_MULH (R606). -/
  | ialuMulh (i : Issue)
  /-- IALU_MAD (R606). -/
  | ialuMad (i : Issue)
  /-- IALU_AND (R606). -/
  | ialuAnd (i : Issue)
  /-- IALU_OR (R606). -/
  | ialuOr (i : Issue)
  /-- IALU_XOR (R606). -/
  | ialuXor (i : Issue)
  /-- IALU_NOT (R606). -/
  | ialuNot (i : Issue)
  /-- IALU_SHL (R607). -/
  | ialuShl (i : Issue)
  /-- IALU_SHR (R607). -/
  | ialuShr (i : Issue)
  /-- IALU_ONES (R606). -/
  | ialuOnes (i : Issue)
  /-- IALU_LZC (R606). -/
  | ialuLzc (i : Issue)
  /-- IALU_XBIT (R607). -/
  | ialuXbit (i : Issue)
  /-- CMPF (R57). -/
  | cmpf (i : Issue)
  /-- SEL (R606). -/
  | sel (i : Issue)
  /-- FLOG (R57). -/
  | flog (i : Issue)
  /-- CVT (R608). -/
  | cvt (i : Issue)
  /-- RCP (R58). -/
  | rcp (i : Issue)
  /-- RSQ (R58). -/
  | rsq (i : Issue)
  /-- SQRT (R58). -/
  | sqrt (i : Issue)
  /-- EX2 (R58). -/
  | ex2 (i : Issue)
  /-- LG2 (R58). -/
  | lg2 (i : Issue)
  /-- SIN (R58). -/
  | sin (i : Issue)
  /-- COS (R58). -/
  | cos (i : Issue)
  /-- PERM (R71). -/
  | perm (i : Issue)
  /-- TALLY (R71). -/
  | tally (i : Issue)
  /-- FOLD (R71). -/
  | fold (i : Issue)
  /-- MMA (R115). -/
  | mma (i : Issue)
  /-- MMA_X (R119). -/
  | mmaX (i : Issue)
  /-- MMA_P (R124). -/
  | mmaP (i : Issue)
  /-- OCVT (R126). -/
  | ocvt (i : Issue)
  /-- UNPK (R129). -/
  | unpk (i : Issue)
  /-- GMEM_LOAD (R78). -/
  | gmemLoad (i : Issue)
  /-- GMEM_STORE (R78). -/
  | gmemStore (i : Issue)
  /-- SMEM_LOAD (R80). -/
  | smemLoad (i : Issue)
  /-- SMEM_STORE (R80). -/
  | smemStore (i : Issue)
  /-- ATOM_ADD (R84). -/
  | atomAdd (i : Issue)
  /-- ATOM_MIN (R609). -/
  | atomMin (i : Issue)
  /-- ATOM_MAX (R609). -/
  | atomMax (i : Issue)
  /-- ATOM_AND (R609). -/
  | atomAnd (i : Issue)
  /-- ATOM_OR (R609). -/
  | atomOr (i : Issue)
  /-- ATOM_XOR (R609). -/
  | atomXor (i : Issue)
  /-- ATOM_EXCH (R84). -/
  | atomExch (i : Issue)
  /-- ATOM_CAS (R84). -/
  | atomCas (i : Issue)
  /-- WAITB (R72). -/
  | waitb (i : Issue)
  /-- MARKB (R72). -/
  | markb (i : Issue)
  /-- BARRIER_DEADLOCK (R76). -/
  | barrierDeadlock (core : Fin 48) (block : Fin 32)
  /-- FENCE (R86). -/
  | fence (i : Issue)
  /-- BRA (R66). -/
  | bra (i : Issue)
  /-- SPLIT (R66). -/
  | split (i : Issue)
  /-- JOIN (R66). -/
  | join (i : Issue)
  /-- CALL (R68). -/
  | call (i : Issue)
  /-- RET (R68). -/
  | ret (i : Issue)
  /-- EXIT (R69). -/
  | exit (i : Issue)
  /-- TRAP (R70). -/
  | trap (i : Issue)
  /-- YIELD (R70). -/
  | yield (i : Issue)
  /-- YIELD_EXPIRE (R70). -/
  | yieldExpire (core : Fin 48) (slot : Fin 64)
  /-- JVEC (R68). -/
  | jvec (i : Issue)
  /-- MOVS (R46). -/
  | movs (i : Issue)
  /-- PCV_H2D (R89). -/
  | pcvH2d (i : Issue)
  /-- PCV_D2H (R89). -/
  | pcvD2h (i : Issue)
  /-- GLD (R142). -/
  | gld (i : Issue) (e : List Upset)
  /-- GST (R142). -/
  | gst (i : Issue)
  /-- CWAIT (R147). -/
  | cwait (i : Issue)
  /-- CREL (R145). -/
  | crel (i : Issue)
  /-- CPOST (R146). -/
  | cpost (i : Issue)
  /-- CQRY (R141). -/
  | cqry (i : Issue)
  /-- LOAD_RESPONSE (R90). -/
  | loadResponse (core : Fin 48) (slot : Fin 64) (op : Nat) (e : List Upset)
  /-- STORE_ACK (R86). -/
  | storeAck (core : Fin 48) (slot : Fin 64) (op : Nat)
  /-- WALK_READ_RESPONSE (R405). -/
  | walkReadResponse (walk : Nat) (r : ReadResult)
  /-- TONGS_NOP (R151). -/
  | tongsNop (k : Fin 12) (rt : Bool) (cmd : TongsCmd)
  /-- TONGS_SETA (R151). -/
  | tongsSeta (k : Fin 12) (rt : Bool) (cmd : TongsCmd)
  /-- TONGS_ADDA (R151). -/
  | tongsAdda (k : Fin 12) (rt : Bool) (cmd : TongsCmd)
  /-- TONGS_ADDR (R151). -/
  | tongsAddr (k : Fin 12) (rt : Bool) (cmd : TongsCmd)
  /-- TONGS_LOOP (R151). -/
  | tongsLoop (k : Fin 12) (rt : Bool) (cmd : TongsCmd)
  /-- TONGS_ENDL (R151). -/
  | tongsEndl (k : Fin 12) (rt : Bool) (cmd : TongsCmd)
  /-- TONGS_FILL (R151). -/
  | tongsFill (k : Fin 12) (rt : Bool) (cmd : TongsCmd)
  /-- TONGS_DRAIN (R151). -/
  | tongsDrain (k : Fin 12) (rt : Bool) (cmd : TongsCmd)
  /-- TONGS_GLOAD (R151). -/
  | tongsGload (k : Fin 12) (rt : Bool) (cmd : TongsCmd)
  /-- TONGS_GSTORE (R151). -/
  | tongsGstore (k : Fin 12) (rt : Bool) (cmd : TongsCmd)
  /-- TONGS_FENCE (R151). -/
  | tongsFence (k : Fin 12) (rt : Bool) (cmd : TongsCmd)
  /-- TONGS_END (R154). -/
  | tongsEnd (k : Fin 12) (rt : Bool) (cmd : TongsCmd)
  /-- TONGS_COPY_COMPLETE (R149). -/
  | tongsCopyComplete (k : Fin 12) (rt : Bool) (id : Nat)
  /-- GRD_REGION_WRITE (R135). -/
  | grdRegionWrite (k : Fin 12) (v : Word)
  /-- GRD_REGION_APPLY (R135). -/
  | grdRegionApply (k : Fin 12)
  /-- LADLE_POST (R164). -/
  | ladlePost (e : LadleEntry)
  /-- LADLE_DRAIN (R164). -/
  | ladleDrain
  /-- L2_FLUSH_ALL (R161). -/
  | l2FlushAll (v : Word)
  /-- L2_FLUSH_INVAL_ALL (R161). -/
  | l2FlushInvalAll (v : Word)
  /-- L2_FLUSH_RANGE (R161). -/
  | l2FlushRange (v : Word)
  /-- L2_FLUSH_INVAL_RANGE (R161). -/
  | l2FlushInvalRange (v : Word)
  /-- L2_INVAL_RANGE (R161). -/
  | l2InvalRange (v : Word)
  /-- L2_ZERO_RANGE (R160). -/
  | l2ZeroRange (v : Word)
  /-- L2_MAINT_COMPLETE (R161). -/
  | l2MaintComplete
  /-- L2C_WAYMASK_WRITE (R162). -/
  | l2cWaymaskWrite (c : Fin 16) (v : Word)
  /-- CPY_COPY (R167). -/
  | cpyCopy (v : Word)
  /-- CPY_FILL (R167). -/
  | cpyFill (v : Word)
  /-- COPY_COMPLETE (R166). -/
  | copyComplete (ch : Fin 5)
  /-- COPY_SUSPEND (R378). -/
  | copySuspend (q : Fin 64)
  /-- GFX_PASS_BEGIN (R221). -/
  | gfxPassBegin (p : Pkt)
  /-- GFX_STATE (R220). -/
  | gfxState (p : Pkt)
  /-- GFX_DRAW (R184). -/
  | gfxDraw (p : Pkt)
  /-- GFX_DRAW_INDIRECT (R218). -/
  | gfxDrawIndirect (p : Pkt)
  /-- GFX_PASS_END (R175). -/
  | gfxPassEnd (p : Pkt)
  /-- TILE_STORE (R206). -/
  | tileStore (k : Fin 12) (tile : BitVec 18) (e : List Upset)
  /-- PASS_COMPLETE (R178). -/
  | passComplete
  /-- GFX_TRACK_CLAIM (R211). -/
  | gfxTrackClaim (p : Pkt)
  /-- GFX_TRACK_INVALIDATE (R211). -/
  | gfxTrackInvalidate (p : Pkt)
  /-- GFX_TRACK_RELEASE (R211). -/
  | gfxTrackRelease (p : Pkt)
  /-- GFX_SIGN_SURFACE (R216). -/
  | gfxSignSurface (p : Pkt)
  /-- GFX_RESOLVE_FLAGS (R218). -/
  | gfxResolveFlags (p : Pkt)
  /-- BLOCK_PLACE (R376). -/
  | blockPlace (core : Fin 48)
  /-- PREEMPT_ANSWER (R388). -/
  | preemptAnswer (k : Fin 12)
  /-- SLICE_PREEMPT (R387). -/
  | slicePreempt (q : Fin 64)
  /-- MODE_SWITCH_TO_GRAPHICS (R384). -/
  | modeSwitchToGraphics
  /-- MODE_SWITCH_COMPLETE (R33). -/
  | modeSwitchComplete (k : Fin 12)
  /-- GFX_IDLE_RETURN (R385). -/
  | gfxIdleReturn (k : Fin 12)
  /-- RESERVE_WINDOW_START (R381). -/
  | reserveWindowStart
  /-- RUN_LIMIT_EXPIRED (R391). -/
  | runLimitExpired (q : Fin 64)
  /-- HANG_DETECTED (R392). -/
  | hangDetected (k : Fin 12)
  /-- QUENCH_COMPLETE (R566). -/
  | quenchComplete
  /-- ERR_QUENCH (R568). -/
  | errQuench (v : Word)
  /-- LAYOUT_ENABLE (R403). -/
  | layoutEnable (n : Fin 4) (v : Word)
  /-- LAYOUT_DISABLE (R403). -/
  | layoutDisable (n : Fin 4) (v : Word)
  /-- APERTURE_ENABLE (R431). -/
  | apertureEnable (v : Word)
  /-- TLB_INVAL_RANGE (R418). -/
  | tlbInvalRange (p : Pkt)
  /-- TLB_INVAL_CONTEXT (R418). -/
  | tlbInvalContext (p : Pkt)
  /-- MMU_INVAL_REQUEST (R419). -/
  | mmuInvalRequest (v : Word)
  /-- WITHDRAWAL_COMPLETE (R421). -/
  | withdrawalComplete (packet : Bool)
  /-- PREFETCH_RANGE (R427). -/
  | prefetchRange (p : Pkt)
  /-- ADVISE_LOCATION (R426). -/
  | adviseLocation (p : Pkt)
  /-- ADVISE_SET_READ_MOSTLY (R426). -/
  | adviseSetReadMostly (p : Pkt)
  /-- ADVISE_CLEAR_READ_MOSTLY (R426). -/
  | adviseClearReadMostly (p : Pkt)
  /-- ADVISE_ACCESSED_BY (R426). -/
  | adviseAccessedBy (p : Pkt)
  /-- ADVISE_REMOVE (R426). -/
  | adviseRemove (p : Pkt)
  /-- BAR2_READ (R440). -/
  | bar2Read (off : BitVec 36) (n : Nat)
  /-- BAR2_WRITE (R440). -/
  | bar2Write (off : BitVec 36) (bytes : List (Option Byte))
  /-- HOST_READ_COMPLETION (R436). -/
  | hostReadCompletion (id : Nat) (r : ReadResult)
  /-- HOST_READ_TIMEOUT (R436). -/
  | hostReadTimeout (id : Nat)
  /-- MSIX_HOLDOFF_EXPIRE (R448). -/
  | msixHoldoffExpire (vec : Fin 64)
  /-- MSIX_UNMASK (R448). -/
  | msixUnmask (vec : Fin 64)
  /-- MAILBOX_WRITE (R450). -/
  | mailboxWrite (m : Fin 10) (from_ : Agent) (w : Word)
  /-- MAILBOX_READ (R450). -/
  | mailboxRead (m : Fin 10) (by_ : Agent)
  /-- LINK_DOWN (R459). -/
  | linkDown
  /-- LINK_RECOVERY (R458). -/
  | linkRecovery
  /-- PERST_ASSERT (R511). -/
  | perstAssert
  /-- LINK_L2_ENTRY (R527). -/
  | linkL2Entry
  /-- I2C_ADDRESS_MATCH (R455). -/
  | i2cAddressMatch (a : BitVec 7)
  /-- IDENT (R456). -/
  | ident (r : I2cRequest)
  /-- STATUS (R456). -/
  | status (r : I2cRequest)
  /-- POWER_REQ (R456). -/
  | powerReq (r : I2cRequest)
  /-- MSG_PUT (R457). -/
  | msgPut (r : I2cRequest)
  /-- MSG_GET (R457). -/
  | msgGet (r : I2cRequest)
  /-- REG_READ (R456). -/
  | regRead (r : I2cRequest)
  /-- I2C_SCL_TIMEOUT (R454). -/
  | i2cSclTimeout
  /-- RMP_ADD (R474). -/
  | rmpAdd (v : Word)
  /-- RMP_REMOVE (R474). -/
  | rmpRemove (v : Word)
  /-- MAP_COMMIT (R478). -/
  | mapCommit (v : Word)
  /-- SCRUB_VISIT (R476). -/
  | scrubVisit (upsets : List (Fin 4 × Bool))
  /-- MR4_POLL (R480). -/
  | mr4Poll (ch : Fin 16) (rate : BitVec 5) (beyond : Bool)
  /-- ZQ_CALIBRATION (R462). -/
  | zqCalibration
  /-- DRAM_POWER_DOWN (R481). -/
  | dramPowerDown (ch : Fin 16)
  /-- POWER_ON_RESET (R487). -/
  | powerOnReset (sramOk sfdp : Bool)
  /-- RAILS_READY (R487). -/
  | railsReady (dropped : List (Fin 8))
  /-- RAILS_TIMEOUT (R487). -/
  | railsTimeout
  /-- TRAINING_COMPLETE (R504). -/
  | trainingComplete (fails : List (BitVec 16)) (verified : Bool)
  /-- DRAM_SELFTEST_COMPLETE (R507). -/
  | dramSelftestComplete (lines : List (BitVec 40))
  /-- ONCHIP_TEST_COMPLETE (R505). -/
  | onchipTestComplete (r : TestResult)
  /-- WARM_RESET (R512). -/
  | warmReset
  /-- GLB_RST (R511). -/
  | glbRst (v : Word)
  /-- SYSRST (R591). -/
  | sysrst
  /-- FLASH_READ (R519). -/
  | flashRead (v : Word)
  /-- FLASH_PROGRAM (R519). -/
  | flashProgram (v : Word)
  /-- FLASH_ERASE_4K (R519). -/
  | flashErase4k (v : Word)
  /-- FLASH_ERASE_64K (R519). -/
  | flashErase64k (v : Word)
  /-- FLASH_OP_COMPLETE (R519). -/
  | flashOpComplete (failed : Bool)
  /-- A1_ENTRY (R526). -/
  | a1Entry
  /-- POWER_REQUEST (R527). -/
  | powerRequest (v : Word)
  /-- POWER_REQUEST_CANCEL (R527). -/
  | powerRequestCancel (v : Word)
  /-- POWER_LINK_TIMEOUT (R527). -/
  | powerLinkTimeout
  /-- ENTRY_STEP_COMPLETE (R529). -/
  | entryStepComplete
  /-- WAKE_EVENT (R539). -/
  | wakeEvent (source : Fin 6)
  /-- PERST_DEASSERT (R539). -/
  | perstDeassert
  /-- ALARM_EXPIRE (R539). -/
  | alarmExpire
  /-- EXIT_STEP_READY (R532). -/
  | exitStepReady (k : SinkInfo)
  /-- EXIT_TIMEOUT (R532). -/
  | exitTimeout (rail : BitVec 8)
  /-- PMBUS_ACK_POLL (R537). -/
  | pmbusAckPoll (word : BitVec 16) (mv : Nat) (busOk : Bool)
  /-- PMBUS_ALERT (R538). -/
  | pmbusAlert (words : List (Fin 8 × BitVec 16))
  /-- SUPPLY_HANDOVER (R544). -/
  | supplyHandover (mv : BitVec 16)
  /-- SUPPLY_RETURN (R544). -/
  | supplyReturn (mv : BitVec 16)
  /-- VBAK_LOW (R545). -/
  | vbakLow (mv : BitVec 16)
  /-- MAIN_SUPPLY_LOSS (R545). -/
  | mainSupplyLoss (domain : Fin 2) (rail : BitVec 32)
  /-- KWS_EVALUATION (R541). -/
  | kwsEvaluation (score : BitVec 8) (phrase : Nat)
  /-- POWER_ESTIMATE (R547). -/
  | powerEstimate (mw : BitVec 16) (board : BitVec 16)
  /-- THERMAL_SAMPLE (R549). -/
  | thermalSample (readings : List (BitVec 8))
  /-- ERROR_RECORD (R558). -/
  | errorRecord (r : ErrRecord)
  /-- ERR_RPTR_WRITE (R559). -/
  | errRptrWrite (v : Word)
  /-- FATAL_RESET_TIMER (R563). -/
  | fatalResetTimer
  /-- DEBUG_CHALLENGE (R576). -/
  | debugChallenge (p : Path) (v : Word)
  /-- DEBUG_OPEN (R576). -/
  | debugOpen (p : Path)
  /-- DEBUG_CLOSE (R578). -/
  | debugClose (p : Path)
  /-- CHALLENGE_EXPIRE (R576). -/
  | challengeExpire
  /-- OTP_PROGRAM (R581). -/
  | otpProgram (v : Word)
  /-- OTP_READ (R581). -/
  | otpRead (v : Word)
  /-- EXTEST (R575). -/
  | extest (pins : Nat)
  /-- IDCODE (R575). -/
  | idcode
  /-- SAMPLE_PRELOAD (R575). -/
  | samplePreload (pins preload : Nat)
  /-- DBGREG (R575). -/
  | dbgreg (off : BitVec 16) (read : Bool) (v : Word)
  /-- CORE_DBG (R575). -/
  | coreDbg (core : Fin 5) (op : CoreDbgOp)
  /-- BYPASS (R575). -/
  | bypass
  /-- LINK_TRAINING (R459). -/
  | linkTraining (gen : Fin 5) (width : Fin 5) (atomics : BitVec 6)
  /-- DPR_LINK_TRAINING (R289). -/
  | dprLinkTraining (rate : Fin 5) (lanes : Fin 3) (st : RxStream)
  /-- DPR_LINK_LOSS (R299). -/
  | dprLinkLoss (errors : Nat)
  /-- DPR_HDCP_AUTHENTICATION (R291). -/
  | dprHdcpAuthentication (type : Fin 2)
  /-- POR_N_LOW (R591). -/
  | porNLow
  /-- MAIN_SUPPLY_RETURN (R545). -/
  | mainSupplyReturn
  /-- BOOT_PART_LOADED (R497). -/
  | bootPartLoaded
  /-- DATA_SECTIONS_LOADED (R500). -/
  | dataSectionsLoaded (k : SinkInfo)
  /-- DRAIN_SLICE_EXPIRED (R384). -/
  | drainSliceExpired (k : Fin 12)
  /-- HEARTH_TIMEKEEPING_TICK (R25). -/
  | hearthTimekeepingTick
  /-- AUDIO_FRAME_SAMPLED (R540). -/
  | audioFrameSampled (in0 in1 : BitVec 16)
  deriving DecidableEq, Repr

end Sys2Proof
end

