-- ==== Sys2Proof/Decode.lean ====
section
/-! DEFINITION. Words of the table of operations and events: no row of it has a bit field, so no word spells a command. And the fields
of the words of shader instructions, which the fetch compares with memory (R53, R54). -/

namespace Sys2Proof

/-- The command that the table's bits spell: none, since the table gives no row any bits. -/
def decodeTableWord (_nbits _w : Nat) : Option Instr := none

/-- The bits of a word from `lo` on, as many as the field has. -/
def wordField (w lo n : Nat) : BitVec n := BitVec.ofNat n (w / 2 ^ lo)

/-- One bit of a word. -/
def wordBit (w k : Nat) : Bool := w / 2 ^ k % 2 == 1

/-- The instruction that a word spells (R53, R54): the lower 64 bits, and the upper 64 where bit 0 says long. -/
def Insn.ofWord (w : Nat) : Insn :=
  let hi := if wordBit w 0 then w / 2 ^ 64 else 0
  { long := wordBit w 0, pair := wordBit w 1, pg := wordField w 2 3, pgn := wordBit w 5, cls := wordField w 6 4, op := wordField w 10 8,
    dst := wordField w 18 8, srca := wordField w 26 8, srcb := wordField w 34 8, srcc := wordField w 42 8, mod := wordField w 50 4,
    type := wordField w 54 4, pd := wordField w 58 3, bsel := wordField w 61 2, rsv63 := wordBit w 63, imm := wordField hi 0 32,
    srcd := wordField hi 32 8, ext := wordField hi 40 8, rsvHi := wordField hi 48 16 }

end Sys2Proof
end

