-- ==== Sys2Proof/Config.lean ====
section
/-! DEFINITION. What a board, a device or an implementation fixes, and the free values: constants without a body, so that
no proof can lean on a value the spec leaves open. Each is named in a row of notes/assumptions. -/

namespace Sys2Proof.Config

/-- A byte of memory or of the Griddle whose content the spec leaves open (R481, R135): by draw and address. -/
opaque freeByte : Nat → Nat → Byte

/-- A number the spec leaves open, by draw; its user reduces it to its width. -/
opaque freeNat : Nat → Nat

/-- A choice the spec leaves open, by draw. -/
opaque freeBool : Nat → Bool

/-- Whether `a` counts as later than `b` where the two lie exactly 2^31 apart (R8). -/
opaque serialTie : Nat → Nat → Bool

/-- A number the spec leaves open for one lane of an instruction: by draw and lane. -/
opaque freeLane : Nat → Nat → Nat

/-- A byte of host memory as a device read finds it: the host's contents are not the device's (R444). -/
opaque hostByte : Nat → Nat → Byte

/-- The BAR0 offset of the capability table (R367), in units of 16 bytes. -/
opaque captab : Nat

/-- The device serial number (R573). -/
opaque serial : DWord

/-- DRAM ranks, density code, trained rate and trained channels of the board (DMC_CFG, R462). -/
opaque dramCfg : Word

/-- VBAK as first measured and VBAK_MV of the board (PWR_VBAK, R545). -/
opaque vbak : Word

/-- CFG_FL_INFO of the flash fitted (R523), and the flash's log2 density in bytes. -/
opaque flashInfo : Word

/-- The debug MAC of R576: HMAC-SHA-256 with DEVKEY over the challenge, the serial number and the DBG_REQ word. -/
opaque debugMac : Nat → Nat → Nat

/-- Production contents of one-time storage (R573): word `w` of field `f`. -/
opaque otp : Nat → Nat → Word

/-- Whether an image signature verifies under a key (R493), by the image's digest. -/
opaque signatureOk : Nat → Nat → Bool

/-- The SHA-256 digest of bytes (R492, R493). -/
opaque sha256 : List Byte → Nat

/-- Whether an SRM lists a receiver ID (R291): the SRM's layout is HDCP's. By the SRM's bytes and the ID. -/
opaque srmLists : List Byte → Nat → Bool

/-- A byte of the receiver's DPCD (R289), whose contents are DisplayPort's. -/
opaque dpcd : Nat → Byte

/-- A byte of the flash as the board was delivered (R489): what the host tool wrote, by flash offset. -/
opaque flashByte : Nat → Byte

/-- The voltage in mV at which the board first raises a rail (R551, R592). -/
opaque railMv : Nat → Nat

/-- Whether the board holds each DDRc_CS low and each DRAMp_RESET_N high while the pins have no supply (R595). -/
opaque dramHeld : Bool

/-- Yunawyn's JEDEC manufacturer identity in IDCODE (R575). -/
opaque jedecId : Nat

/-- Whether production has already used a cluster's spare core (R508). -/
opaque spareUsed : Nat → Bool

/-- A challenge of R576, by draw: 256 bits of entropy. -/
opaque entropy : Nat → Nat

end Sys2Proof.Config
end

