-- ==== Sys2Proof/Machine/Bits.lean ====
section
/-! DEFINITION. Bit fields, signed readings and byte order. The S840 is little-endian throughout (R6). -/

namespace Sys2Proof.Machine

/-- Bits `hi` to `lo` of a number, as the manual's `[hi:lo]`. -/
def bits (v hi lo : Nat) : Nat := v / 2 ^ lo % 2 ^ (hi + 1 - lo)

/-- One bit of a number. -/
def bit (v i : Nat) : Bool := v / 2 ^ i % 2 == 1

/-- A number with its bits `hi` to `lo` replaced. -/
def setBits (v hi lo w : Nat) : Nat :=
  v % 2 ^ lo + w % 2 ^ (hi + 1 - lo) * 2 ^ lo + v / 2 ^ (hi + 1) * 2 ^ (hi + 1)

/-- The low `n` bits of a number read as a signed value. -/
def signed (n v : Nat) : Int :=
  let m := v % 2 ^ n
  if m < 2 ^ (n - 1) then (m : Int) else (m : Int) - (2 ^ n : Nat)

/-- An integer in `n` bits of two's complement. -/
def wrapInt (n : Nat) (i : Int) : Nat := (i % (2 ^ n : Nat)).toNat

/-- The number that bytes hold, the first the least significant. -/
def leNat : List Byte → Nat
  | [] => 0
  | b :: t => b.toNat + 256 * leNat t

/-- The `n` bytes of a number, the least significant first. -/
def leBytes : Nat → Nat → List Byte
  | 0, _ => []
  | n + 1, v => BitVec.ofNat 8 v :: leBytes n (v / 256)

/-- The 1 bits of the low `n` bits. -/
def popcount : Nat → Nat → Nat
  | 0, _ => 0
  | n + 1, v => v % 2 + popcount n (v / 2)

/-- The bit numbers below `n` that are 1, ascending. -/
def setBitsOf (n v : Nat) : List Nat := (List.range n).filter (fun i => bit v i)

/-- Later than, in the serial arithmetic of R8: `a` is later than `b`. For values exactly 2^31 apart R8 leaves the answer undefined (free,
log entry 25). -/
def laterThan (a b : Nat) : Bool :=
  let d := (a + 2 ^ 32 - b % 2 ^ 32) % 2 ^ 32
  if d = 2 ^ 31 then Config.serialTie a b else decide (1 ≤ d) && decide (d < 2 ^ 31)

/-- `(a − b) mod 2³²`. -/
def diff32 (a b : Nat) : Nat := (a % 2 ^ 32 + 2 ^ 32 - b % 2 ^ 32) % 2 ^ 32

/-- A count that stops at its field's largest value. -/
def satAdd (max v n : Nat) : Nat := min max (v + n)

end Sys2Proof.Machine
end

