-- ==== Sys2Proof/Machine/Float.lean ====
section
/-! DEFINITION. Binary floating-point formats as exact values: decoding, and rounding of an exact quotient to nearest even
once. Every floating-point result of the model is an exact value rounded by one of these. -/

namespace Sys2Proof.Machine

/-- A decoded floating-point value: a NaN, an infinity, or `(−1)^neg × n × 2^e`. -/
inductive FVal where
  | nan
  | inf (neg : Bool)
  | fin (neg : Bool) (n : Nat) (e : Int)
  deriving DecidableEq, Repr

/-- Decode an IEEE-style format of `eb` exponent bits and `mb` mantissa bits. -/
def fdecode (eb mb w : Nat) : FVal :=
  let bias : Int := 2 ^ (eb - 1) - 1
  let neg := bit w (eb + mb)
  let ex := bits w (eb + mb - 1) mb
  let m := w % 2 ^ mb
  if ex + 1 = 2 ^ eb then (if m = 0 then .inf neg else .nan)
  else if ex = 0 then .fin neg m (1 - bias - mb)
  else .fin neg (2 ^ mb + m) (ex - bias - mb)

/-- A quotient of naturals rounded to nearest, ties to even. -/
def rneDiv (n d : Nat) : Nat :=
  let q := n / d
  let r := n % d
  if 2 * r < d then q else if d < 2 * r then q + 1 else q + q % 2

/-- A signed quotient rounded to nearest, ties to even. -/
def rneInt (n : Int) (d : Nat) : Int := if 0 ≤ n then (rneDiv n.toNat d : Nat) else -((rneDiv (-n).toNat d : Nat) : Int)

/-- `⌊log₂ (n / d)⌋` for positive `n` and `d`. -/
def floorLog2Div (n d : Nat) : Int :=
  let k : Int := (Nat.log2 n : Int) - Nat.log2 d
  let below : Bool := if 0 ≤ k then decide (n < d * 2 ^ k.toNat) else decide (n * 2 ^ (-k).toNat < d)
  if below then k - 1 else k

/-- The magnitude bits of `n / d` in a format of `eb` and `mb` bits, rounded to nearest even once; overflow gives the
infinity's bits. -/
def fencodeMag (eb mb n d : Nat) : Nat :=
  if n = 0 ∨ d = 0 then 0
  else
    let bias : Int := 2 ^ (eb - 1) - 1
    let umin : Int := 1 - bias - mb
    let u := max (floorLog2Div n d - mb) umin
    let q := if 0 ≤ u then rneDiv n (d * 2 ^ u.toNat) else rneDiv (n * 2 ^ (-u).toNat) d
    min ((u - umin).toNat * 2 ^ mb + q) ((2 ^ eb - 1) * 2 ^ mb)

/-- A sign and a magnitude's bits. -/
def fsign (eb mb : Nat) (neg : Bool) (mag : Nat) : Nat := (if neg then 2 ^ (eb + mb) else 0) + mag

/-- An exact dyadic value `n × 2^e` as a quotient. -/
def dyadic (n : Nat) (e : Int) : Nat × Nat := if 0 ≤ e then (n * 2 ^ e.toNat, 1) else (n, 2 ^ (-e).toNat)

/-- Round `(−1)^neg × n × 2^e` into a format. -/
def fround (eb mb : Nat) (neg : Bool) (n : Nat) (e : Int) : Nat :=
  let (a, b) := dyadic n e
  fsign eb mb neg (fencodeMag eb mb a b)

/-- Round a signed quotient into a format; zero is positive. -/
def froundQ (eb mb : Nat) (n : Int) (d : Nat) : Nat := fsign eb mb (decide (n < 0)) (fencodeMag eb mb n.natAbs d)

/-- The exact signed quotient of a finite value. -/
def FVal.quot : FVal → Int × Nat
  | .fin neg n e => let (a, b) := dyadic n e; (if neg then -(a : Int) else a, b)
  | _ => (0, 1)

/-- A value in units of `1/scale`, rounded to nearest even, and limited to `[lo, hi]`; NaN gives 0. -/
def FVal.fixed (v : FVal) (scale : Nat) (lo hi : Int) : Int :=
  match v with
  | .nan => 0
  | .inf neg => if neg then lo else hi
  | .fin .. => let (n, d) := v.quot; max lo (min hi (rneInt (n * scale) d))

/-- The single-precision value of a word, exactly. -/
def f32 (w : Nat) : FVal := fdecode 8 23 w

/-- A signed quotient rounded to single precision. -/
def toF32 (n : Int) (d : Nat) : Nat := froundQ 8 23 n d

/-! Exact rational numbers as a signed numerator over a positive denominator, for the units that compute exactly and round
once. -/

/-- A rational number; the denominator is positive in every value built here. -/
structure Q where
  n : Int
  d : Nat
  deriving DecidableEq, Repr

/-- Arithmetic of rationals, without normal form. -/
def Q.ofInt (i : Int) : Q := ⟨i, 1⟩
def Q.add (a b : Q) : Q := ⟨a.n * b.d + b.n * a.d, a.d * b.d⟩
def Q.neg (a : Q) : Q := ⟨-a.n, a.d⟩
def Q.sub (a b : Q) : Q := a.add b.neg
def Q.mul (a b : Q) : Q := ⟨a.n * b.n, a.d * b.d⟩
/-- Division; by zero gives 0. -/
def Q.div (a b : Q) : Q :=
  if b.n = 0 then ⟨0, 1⟩ else if b.n < 0 then ⟨-(a.n * b.d), a.d * b.n.natAbs⟩ else ⟨a.n * b.d, a.d * b.n.natAbs⟩
def Q.lt (a b : Q) : Bool := decide (a.n * b.d < b.n * a.d)
def Q.le (a b : Q) : Bool := decide (a.n * b.d ≤ b.n * a.d)
def Q.min (a b : Q) : Q := if a.le b then a else b
def Q.max (a b : Q) : Q := if a.le b then b else a
def Q.floor (a : Q) : Int := a.n / (a.d : Int)
def Q.ceil (a : Q) : Int := -(-a.n / (a.d : Int))
def Q.rne (a : Q) : Int := rneInt a.n a.d
def Q.ofF32 (w : Nat) : Q := let (n, d) := (f32 w).quot; ⟨n, d⟩
def Q.toF32 (a : Q) : Nat := froundQ 8 23 a.n a.d
/-- In lowest terms, so that long computations stay small. -/
def Q.norm (a : Q) : Q := let g := Nat.gcd a.n.natAbs a.d; if g = 0 then a else ⟨a.n / (g : Int), a.d / g⟩

end Sys2Proof.Machine
end

