-- ==== Sys2Proof/Machine/Regs.lean ====
section
/-! DEFINITION. The register map of BAR0 (R9, R11, R437): every register block's table, as the chapters of the spec give
it: R96, R132, R171, R172, R173, R222, R255, R297, R298, R299, R320, R371, R372, R398, R433, R447, R460, R484, R522, R523,
R553, R580, R581. An address constant `Reg.NAME` carries the manual's register name; an array register takes its indexes. -/

namespace Sys2Proof.Machine

/-- The access code of a field (R11), with the display's committed fields (R260) and the two trigger forms: a W1S field
reads 0 and starts what its chapter gives; `rwlGo` is such a trigger governed by a lock (R484). -/
inductive Access where
  | rw | ro | w1c | w1s | rc | wo1 | com
  | rwl (lockReg lockBit : Nat)
  | rwlGo (lockReg lockBit : Nat)
  deriving DecidableEq, Repr

/-- One field of a register: its bits and its access code. -/
structure RegField where
  hi : Nat
  lo : Nat
  acc : Access
  deriving DecidableEq, Repr

/-- One row of a register table: first address, array dimensions (count, stride) from the widest, reset word, fields. -/
structure RegRow where
  base : Nat
  dims : List (Nat × Nat)
  reset : Word
  fields : List RegField
  deriving DecidableEq, Repr

/-- Whether an offset from a row's base is one of its registers. -/
def dimsCover : List (Nat × Nat) → Nat → Bool
  | [], d => d == 0
  | (n, s) :: t, d => d / s < n && dimsCover t (d % s)

/-- Whether a row holds the register at an address. -/
def RegRow.covers (r : RegRow) (a : Nat) : Bool :=
  decide (r.base ≤ a) && dimsCover r.dims (a - r.base)

/-- R96. -/ def Reg.CLU_ID (k : Nat) : Nat := 0x400000 + k * 0x10000
/-- R96. -/ def Reg.CLU_SHADER_CTRL (k : Nat) : Nat := 0x400004 + k * 0x10000
/-- R96. -/ def Reg.CLU_EXC_STATUS (k n : Nat) : Nat := 0x400100 + k * 0x10000 + n * 0x40
/-- R96. -/ def Reg.CLU_EXC_INFO (k n : Nat) : Nat := 0x400104 + k * 0x10000 + n * 0x40
/-- R96. -/ def Reg.CLU_EXC_PC_LO (k n : Nat) : Nat := 0x400108 + k * 0x10000 + n * 0x40
/-- R96. -/ def Reg.CLU_EXC_PC_HI (k n : Nat) : Nat := 0x40010C + k * 0x10000 + n * 0x40
/-- R96. -/ def Reg.CLU_EXC_ADDR_LO (k n : Nat) : Nat := 0x400110 + k * 0x10000 + n * 0x40
/-- R96. -/ def Reg.CLU_EXC_ADDR_HI (k n : Nat) : Nat := 0x400114 + k * 0x10000 + n * 0x40
/-- R96. -/ def Reg.CLU_CORE_ISSUE_LO (k n : Nat) : Nat := 0x400118 + k * 0x10000 + n * 0x40
/-- R96. -/ def Reg.CLU_CORE_ISSUE_HI (k n : Nat) : Nat := 0x40011C + k * 0x10000 + n * 0x40
/-- R96. -/ def Reg.CLU_CORE_DUAL_LO (k n : Nat) : Nat := 0x400120 + k * 0x10000 + n * 0x40
/-- R96. -/ def Reg.CLU_CORE_DUAL_HI (k n : Nat) : Nat := 0x400124 + k * 0x10000 + n * 0x40
/-- R96. -/ def Reg.CLU_CORE_OCC (k n : Nat) : Nat := 0x400128 + k * 0x10000 + n * 0x40
/-- R132. -/ def Reg.CLU_ANV_CTRL (k : Nat) : Nat := 0x400200 + k * 0x10000
/-- R132. -/ def Reg.CLU_ANV_MAC_LO (k n : Nat) : Nat := 0x400240 + k * 0x10000 + n * 0x20
/-- R132. -/ def Reg.CLU_ANV_MAC_HI (k n : Nat) : Nat := 0x400244 + k * 0x10000 + n * 0x20
/-- R132. -/ def Reg.CLU_ANV_BUSY_LO (k n : Nat) : Nat := 0x400248 + k * 0x10000 + n * 0x20
/-- R132. -/ def Reg.CLU_ANV_BUSY_HI (k n : Nat) : Nat := 0x40024C + k * 0x10000 + n * 0x20
/-- R132. -/ def Reg.CLU_ANV_SAT (k n : Nat) : Nat := 0x400250 + k * 0x10000 + n * 0x20
/-- R132. -/ def Reg.CLU_ANV_NAN (k n : Nat) : Nat := 0x400254 + k * 0x10000 + n * 0x20
/-- R171. -/ def Reg.CLU_GRD_REGION (k : Nat) : Nat := 0x400300 + k * 0x10000
/-- R171. -/ def Reg.CLU_GRD_STATUS (k : Nat) : Nat := 0x400304 + k * 0x10000
/-- R171. -/ def Reg.CLU_GRD_ECC (k : Nat) : Nat := 0x400308 + k * 0x10000
/-- R171. -/ def Reg.CLU_TNG_CTRL (k : Nat) : Nat := 0x400310 + k * 0x10000
/-- R171. -/ def Reg.CLU_TNG_STATUS (k : Nat) : Nat := 0x400314 + k * 0x10000
/-- R171. -/ def Reg.CLU_TNG_PC_LO (k : Nat) : Nat := 0x400318 + k * 0x10000
/-- R171. -/ def Reg.CLU_TNG_PC_HI (k : Nat) : Nat := 0x40031C + k * 0x10000
/-- R171. -/ def Reg.CLU_TNG_BYTES_LO (k : Nat) : Nat := 0x400320 + k * 0x10000
/-- R171. -/ def Reg.CLU_TNG_BYTES_HI (k : Nat) : Nat := 0x400324 + k * 0x10000
/-- R171. -/ def Reg.CLU_TNG_WAIT_LO (k : Nat) : Nat := 0x400328 + k * 0x10000
/-- R171. -/ def Reg.CLU_TNG_WAIT_HI (k : Nat) : Nat := 0x40032C + k * 0x10000
/-- R171. -/ def Reg.CLU_RING_FILL (k n : Nat) : Nat := 0x400400 + k * 0x10000 + n * 0x8
/-- R171. -/ def Reg.CLU_RING_FREE (k n : Nat) : Nat := 0x400404 + k * 0x10000 + n * 0x8
/-- R222. -/ def Reg.CLU_RAS_STATUS (k : Nat) : Nat := 0x400500 + k * 0x10000
/-- R222. -/ def Reg.CLU_RAS_FAULT (k : Nat) : Nat := 0x400504 + k * 0x10000
/-- R222. -/ def Reg.CLU_RAS_PRIM_LO (k : Nat) : Nat := 0x400510 + k * 0x10000
/-- R222. -/ def Reg.CLU_RAS_PRIM_HI (k : Nat) : Nat := 0x400514 + k * 0x10000
/-- R222. -/ def Reg.CLU_RAS_SAMPLES_LO (k : Nat) : Nat := 0x400518 + k * 0x10000
/-- R222. -/ def Reg.CLU_RAS_SAMPLES_HI (k : Nat) : Nat := 0x40051C + k * 0x10000
/-- R222. -/ def Reg.CLU_RAS_STORED_LO (k : Nat) : Nat := 0x400520 + k * 0x10000
/-- R222. -/ def Reg.CLU_RAS_STORED_HI (k : Nat) : Nat := 0x400524 + k * 0x10000
/-- R222. -/ def Reg.CLU_RAS_SKIPPED_LO (k : Nat) : Nat := 0x400528 + k * 0x10000
/-- R222. -/ def Reg.CLU_RAS_SKIPPED_HI (k : Nat) : Nat := 0x40052C + k * 0x10000
/-- R522. -/ def Reg.GLB_ID : Nat := 0x000000
/-- R522. -/ def Reg.GLB_BOOT : Nat := 0x000004
/-- R522. -/ def Reg.GLB_BOOT_ERR : Nat := 0x000008
/-- R522. -/ def Reg.GLB_RST : Nat := 0x00000C
/-- R522. -/ def Reg.GLB_CAPTAB : Nat := 0x000010
/-- R522. -/ def Reg.GLB_REPAIR : Nat := 0x000014
/-- R522. -/ def Reg.GLB_FWRES : Nat := 0x000018
/-- R522. -/ def Reg.GLB_FWCTX : Nat := 0x00001C
/-- R522. -/ def Reg.GLB_TIME_LO : Nat := 0x000020
/-- R522. -/ def Reg.GLB_TIME_HI : Nat := 0x000024
/-- R522. -/ def Reg.GLB_BOOT_US : Nat := 0x000028
/-- R522. -/ def Reg.GLB_IMAGE_SEQ : Nat := 0x00002C
/-- R460. -/ def Reg.HIF_CTRL : Nat := 0x010000
/-- R460. -/ def Reg.HIF_STATUS : Nat := 0x010004
/-- R460. -/ def Reg.HIF_BAR2_BASE_LO : Nat := 0x010008
/-- R460. -/ def Reg.HIF_BAR2_BASE_HI : Nat := 0x01000C
/-- R460. -/ def Reg.HIF_VEC : Nat := 0x010010
/-- R460. -/ def Reg.HIF_VEC_EN : Nat := 0x010014
/-- R460. -/ def Reg.HIF_CPL_ERRS : Nat := 0x010018
/-- R460. -/ def Reg.HIF_LINK_EVENTS : Nat := 0x01001C
/-- R460. -/ def Reg.HIF_MB_DATA_IN (c : Nat) : Nat := 0x010100 + c * 0x8
/-- R460. -/ def Reg.HIF_MB_DATA_OUT (c : Nat) : Nat := 0x010120 + c * 0x8
/-- R460. -/ def Reg.HIF_MB_STAT (c : Nat) : Nat := 0x010104 + c * 0x8
/-- R460. -/ def Reg.MSIX_TABLE (c : Nat) : Nat := 0x018000 + c * 0x4
/-- R460. -/ def Reg.MSIX_PBA (c : Nat) : Nat := 0x019000 + c * 0x4
/-- R372. -/ def Reg.DB_WPTR (c : Nat) : Nat := 0x020000 + c * 0x1000
/-- R372. -/ def Reg.DB_RPTR (c : Nat) : Nat := 0x020004 + c * 0x1000
/-- R371. -/ def Reg.CPR_QUENCH_GEN : Nat := 0x060000
/-- R371. -/ def Reg.CPR_CTX_DESC_LO (c : Nat) : Nat := 0x060100 + c * 0x20
/-- R371. -/ def Reg.CPR_CTX_DESC_HI (c : Nat) : Nat := 0x060104 + c * 0x20
/-- R371. -/ def Reg.CPR_CTX_CTRL (c : Nat) : Nat := 0x060108 + c * 0x20
/-- R371. -/ def Reg.CPR_CTX_STATUS (c : Nat) : Nat := 0x06010C + c * 0x20
/-- R371. -/ def Reg.CPR_CTX_FAULT (c : Nat) : Nat := 0x060110 + c * 0x20
/-- R371. -/ def Reg.CPR_Q_DESC_LO (c : Nat) : Nat := 0x060800 + c * 0x10
/-- R371. -/ def Reg.CPR_Q_DESC_HI (c : Nat) : Nat := 0x060804 + c * 0x10
/-- R371. -/ def Reg.CPR_Q_CTRL (c : Nat) : Nat := 0x060808 + c * 0x10
/-- R371. -/ def Reg.CPR_Q_STATUS (c : Nat) : Nat := 0x06080C + c * 0x10
/-- R371. -/ def Reg.CPR_EVT_GEN (c : Nat) : Nat := 0x068000 + c * 0x8
/-- R371. -/ def Reg.CPR_EVT_CTRL (c : Nat) : Nat := 0x068004 + c * 0x8
/-- R398. -/ def Reg.SCH_WINDOW : Nat := 0x070000
/-- R398. -/ def Reg.SCH_SLICE : Nat := 0x070004
/-- R398. -/ def Reg.SCH_GFX_CTRL : Nat := 0x070008
/-- R398. -/ def Reg.SCH_STATUS : Nat := 0x07000C
/-- R398. -/ def Reg.SCH_HANG : Nat := 0x070010
/-- R398. -/ def Reg.SCH_Q_CTRL (c : Nat) : Nat := 0x070100 + c * 0x10
/-- R398. -/ def Reg.SCH_Q_STATUS (c : Nat) : Nat := 0x070104 + c * 0x10
/-- R398. -/ def Reg.SCH_Q_TIME_LO (c : Nat) : Nat := 0x070108 + c * 0x10
/-- R398. -/ def Reg.SCH_Q_TIME_HI (c : Nat) : Nat := 0x07010C + c * 0x10
/-- R398. -/ def Reg.SCH_CTX_CMP_LO (c : Nat) : Nat := 0x070800 + c * 0x20
/-- R398. -/ def Reg.SCH_CTX_CMP_HI (c : Nat) : Nat := 0x070804 + c * 0x20
/-- R398. -/ def Reg.SCH_CTX_GFX_LO (c : Nat) : Nat := 0x070808 + c * 0x20
/-- R398. -/ def Reg.SCH_CTX_GFX_HI (c : Nat) : Nat := 0x07080C + c * 0x20
/-- R398. -/ def Reg.SCH_CTX_CPY_LO (c : Nat) : Nat := 0x070810 + c * 0x20
/-- R398. -/ def Reg.SCH_CTX_CPY_HI (c : Nat) : Nat := 0x070814 + c * 0x20
/-- R398. -/ def Reg.SCH_CLU_PREEMPT (c : Nat) : Nat := 0x070C00 + c * 0x10
/-- R398. -/ def Reg.SCH_CLU_PLAT (c : Nat) : Nat := 0x070C04 + c * 0x10
/-- R398. -/ def Reg.SCH_CLU_RTLAT (c : Nat) : Nat := 0x070C08 + c * 0x10
/-- R398. -/ def Reg.SCH_CLU_SWITCH (c : Nat) : Nat := 0x070C0C + c * 0x10
/-- R398. -/ def Reg.SCH_SLOT_PAGES (c : Nat) : Nat := 0x070E00 + c * 0x10
/-- R398. -/ def Reg.SCH_SLOT_SEQS (c : Nat) : Nat := 0x070E04 + c * 0x10
/-- R398. -/ def Reg.SCH_SLOT_STALL (c : Nat) : Nat := 0x070E08 + c * 0x10
/-- R398. -/ def Reg.SCH_SLOT_CANCEL (c : Nat) : Nat := 0x070E0C + c * 0x10
/-- R433. -/ def Reg.MMU_CTRL : Nat := 0x080000
/-- R433. -/ def Reg.MMU_STATUS : Nat := 0x080004
/-- R433. -/ def Reg.MMU_LAYOUT_CTRL (c : Nat) : Nat := 0x080040 + c * 0x20
/-- R433. -/ def Reg.MMU_LAYOUT_FLAGS0 (c : Nat) : Nat := 0x080044 + c * 0x20
/-- R433. -/ def Reg.MMU_LAYOUT_FLAGS1 (c : Nat) : Nat := 0x080048 + c * 0x20
/-- R433. -/ def Reg.MMU_LAYOUT_REQ_LO (c : Nat) : Nat := 0x08004C + c * 0x20
/-- R433. -/ def Reg.MMU_LAYOUT_REQ_HI (c : Nat) : Nat := 0x080050 + c * 0x20
/-- R433. -/ def Reg.MMU_APER_BASE_LO (c : Nat) : Nat := 0x080100 + c * 0x10
/-- R433. -/ def Reg.MMU_APER_BASE_HI (c : Nat) : Nat := 0x080104 + c * 0x10
/-- R433. -/ def Reg.MMU_APER_LIMIT_LO (c : Nat) : Nat := 0x080108 + c * 0x10
/-- R433. -/ def Reg.MMU_APER_LIMIT_HI (c : Nat) : Nat := 0x08010C + c * 0x10
/-- R433. -/ def Reg.MMU_APER_EN : Nat := 0x080180
/-- R433. -/ def Reg.MMU_INVAL_CTRL : Nat := 0x080200
/-- R433. -/ def Reg.MMU_INVAL_ADDR_LO : Nat := 0x080204
/-- R433. -/ def Reg.MMU_INVAL_ADDR_HI : Nat := 0x080208
/-- R433. -/ def Reg.MMU_INVAL_PAGES : Nat := 0x08020C
/-- R433. -/ def Reg.MMU_INVAL_GEN : Nat := 0x080210
/-- R433. -/ def Reg.MMU_INVAL_DONE : Nat := 0x080214
/-- R433. -/ def Reg.MMU_FAULT_STATUS : Nat := 0x080300
/-- R433. -/ def Reg.MMU_FAULT_INFO : Nat := 0x080304
/-- R433. -/ def Reg.MMU_FAULT_VA_LO : Nat := 0x080308
/-- R433. -/ def Reg.MMU_FAULT_VA_HI : Nat := 0x08030C
/-- R433. -/ def Reg.MMU_FAULT_PA_LO : Nat := 0x080310
/-- R433. -/ def Reg.MMU_FAULT_PA_HI : Nat := 0x080314
/-- R433. -/ def Reg.MMU_WALKS_LO : Nat := 0x080400
/-- R433. -/ def Reg.MMU_WALKS_HI : Nat := 0x080404
/-- R433. -/ def Reg.MMU_MIG_STAT : Nat := 0x080408
/-- R172. -/ def Reg.L2C_MAINT_CMD : Nat := 0x090000
/-- R172. -/ def Reg.L2C_MAINT_STATUS : Nat := 0x090004
/-- R172. -/ def Reg.L2C_MAINT_ADDR_LO : Nat := 0x090008
/-- R172. -/ def Reg.L2C_MAINT_ADDR_HI : Nat := 0x09000C
/-- R172. -/ def Reg.L2C_MAINT_LINES : Nat := 0x090010
/-- R172. -/ def Reg.L2C_WAYMASK (c : Nat) : Nat := 0x090040 + c * 0x4
/-- R172. -/ def Reg.L2C_ECC_COUNT : Nat := 0x090080
/-- R172. -/ def Reg.L2C_SLICE_HIT_LO (c : Nat) : Nat := 0x090100 + c * 0x10
/-- R172. -/ def Reg.L2C_SLICE_HIT_HI (c : Nat) : Nat := 0x090104 + c * 0x10
/-- R172. -/ def Reg.L2C_SLICE_MISS_LO (c : Nat) : Nat := 0x090108 + c * 0x10
/-- R172. -/ def Reg.L2C_SLICE_MISS_HI (c : Nat) : Nat := 0x09010C + c * 0x10
/-- R172. -/ def Reg.L2C_LADLE_STATUS : Nat := 0x090800
/-- R172. -/ def Reg.L2C_LADLE_STALL_LO : Nat := 0x090808
/-- R172. -/ def Reg.L2C_LADLE_STALL_HI : Nat := 0x09080C
/-- R484. -/ def Reg.DMC_CFG : Nat := 0x0A0000
/-- R484. -/ def Reg.DMC_STATUS : Nat := 0x0A0004
/-- R484. -/ def Reg.DMC_LOCK : Nat := 0x0A0008
/-- R484. -/ def Reg.DMC_MAP_CMD : Nat := 0x0A000C
/-- R484. -/ def Reg.DMC_USABLE : Nat := 0x0A0010
/-- R484. -/ def Reg.DMC_RGN_CTRL (c : Nat) : Nat := 0x0A0040 + c * 0x8
/-- R484. -/ def Reg.DMC_RGN_BASE (c : Nat) : Nat := 0x0A0044 + c * 0x8
/-- R484. -/ def Reg.DMC_RMP_CMD : Nat := 0x0A0100
/-- R484. -/ def Reg.DMC_RMP_ADDR_LO : Nat := 0x0A0104
/-- R484. -/ def Reg.DMC_RMP_ADDR_HI : Nat := 0x0A0108
/-- R484. -/ def Reg.DMC_RMP_LO (c : Nat) : Nat := 0x0A0140 + c * 0x8
/-- R484. -/ def Reg.DMC_RMP_HI (c : Nat) : Nat := 0x0A0144 + c * 0x8
/-- R484. -/ def Reg.DMC_SCRUB_CTRL : Nat := 0x0A0200
/-- R484. -/ def Reg.DMC_SCRUB_POS_LO : Nat := 0x0A0204
/-- R484. -/ def Reg.DMC_SCRUB_POS_HI : Nat := 0x0A0208
/-- R484. -/ def Reg.DMC_SCRUB_PASSES : Nat := 0x0A020C
/-- R484. -/ def Reg.DMC_ECC_COUNT : Nat := 0x0A0210
/-- R484. -/ def Reg.DMC_TEMP : Nat := 0x0A0214
/-- R484. -/ def Reg.DMC_CH_BYTES_LO (c : Nat) : Nat := 0x0A0400 + c * 0x10
/-- R484. -/ def Reg.DMC_CH_BYTES_HI (c : Nat) : Nat := 0x0A0404 + c * 0x10
/-- R484. -/ def Reg.DMC_CH_CORR (c : Nat) : Nat := 0x0A0408 + c * 0x10
/-- R484. -/ def Reg.DMC_CH_INFLIGHT (c : Nat) : Nat := 0x0A040C + c * 0x10
/-- R173. -/ def Reg.CPY_CTRL : Nat := 0x0B0000
/-- R173. -/ def Reg.CPY_STATUS : Nat := 0x0B0004
/-- R173. -/ def Reg.CPY_SRC_LO : Nat := 0x0B0008
/-- R173. -/ def Reg.CPY_SRC_HI : Nat := 0x0B000C
/-- R173. -/ def Reg.CPY_DST_LO : Nat := 0x0B0010
/-- R173. -/ def Reg.CPY_DST_HI : Nat := 0x0B0014
/-- R173. -/ def Reg.CPY_SPITCH : Nat := 0x0B0018
/-- R173. -/ def Reg.CPY_DPITCH : Nat := 0x0B001C
/-- R173. -/ def Reg.CPY_WIDTH : Nat := 0x0B0020
/-- R173. -/ def Reg.CPY_HEIGHT : Nat := 0x0B0024
/-- R173. -/ def Reg.CPY_PAT_LO : Nat := 0x0B0028
/-- R173. -/ def Reg.CPY_PAT_HI : Nat := 0x0B002C
/-- R173. -/ def Reg.CPY_BYTES_LO : Nat := 0x0B0040
/-- R173. -/ def Reg.CPY_BYTES_HI : Nat := 0x0B0044
/-- R580. -/ def Reg.ERR_CTRL : Nat := 0x0C0000
/-- R580. -/ def Reg.ERR_STATUS : Nat := 0x0C0004
/-- R580. -/ def Reg.ERR_RING_WPTR : Nat := 0x0C0008
/-- R580. -/ def Reg.ERR_RING_RPTR : Nat := 0x0C000C
/-- R580. -/ def Reg.ERR_SEQ : Nat := 0x0C0010
/-- R580. -/ def Reg.ERR_OVF : Nat := 0x0C0014
/-- R580. -/ def Reg.ERR_VIOL0 : Nat := 0x0C0018
/-- R580. -/ def Reg.ERR_VIOL1 : Nat := 0x0C001C
/-- R580. -/ def Reg.ERR_QUENCH : Nat := 0x0C0020
/-- R580. -/ def Reg.ERR_LOCK : Nat := 0x0C0024
/-- R580. -/ def Reg.ERR_PROT_CTX : Nat := 0x0C0028
/-- R580. -/ def Reg.ERR_PROT_BASE (c : Nat) : Nat := 0x0C0040 + c * 0x8
/-- R580. -/ def Reg.ERR_PROT_LIMIT (c : Nat) : Nat := 0x0C0044 + c * 0x8
/-- R580. -/ def Reg.ERR_FIRST (c : Nat) : Nat := 0x0C0100 + c * 0x4
/-- R580. -/ def Reg.ERR_FATAL (c : Nat) : Nat := 0x0C0140 + c * 0x4
/-- R580. -/ def Reg.ERR_REC (c : Nat) : Nat := 0x0C1000 + c * 0x4
/-- R553. -/ def Reg.PWR_CTRL : Nat := 0x0D0000
/-- R553. -/ def Reg.PWR_REQ : Nat := 0x0D0004
/-- R553. -/ def Reg.PWR_STATUS : Nat := 0x0D0008
/-- R553. -/ def Reg.PWR_REFUSE : Nat := 0x0D000C
/-- R553. -/ def Reg.PWR_ABORT : Nat := 0x0D0010
/-- R553. -/ def Reg.PWR_WAKE : Nat := 0x0D0014
/-- R553. -/ def Reg.PWR_WAKE_TIME_LO : Nat := 0x0D0018
/-- R553. -/ def Reg.PWR_WAKE_TIME_HI : Nat := 0x0D001C
/-- R553. -/ def Reg.PWR_ALARM_LO : Nat := 0x0D0020
/-- R553. -/ def Reg.PWR_ALARM_HI : Nat := 0x0D0024
/-- R553. -/ def Reg.PWR_LIMIT : Nat := 0x0D0028
/-- R553. -/ def Reg.PWR_POWER : Nat := 0x0D002C
/-- R553. -/ def Reg.PWR_ENERGY_LO : Nat := 0x0D0030
/-- R553. -/ def Reg.PWR_ENERGY_HI : Nat := 0x0D0034
/-- R553. -/ def Reg.PWR_SUPPLY : Nat := 0x0D0038
/-- R553. -/ def Reg.PWR_VBAK : Nat := 0x0D003C
/-- R553. -/ def Reg.PWR_KWS_CTRL : Nat := 0x0D0040
/-- R553. -/ def Reg.PWR_KWS_DET : Nat := 0x0D0044
/-- R553. -/ def Reg.PWR_KWS_START_LO : Nat := 0x0D0048
/-- R553. -/ def Reg.PWR_KWS_START_HI : Nat := 0x0D004C
/-- R553. -/ def Reg.PWR_KWS_END_LO : Nat := 0x0D0050
/-- R553. -/ def Reg.PWR_KWS_END_HI : Nat := 0x0D0054
/-- R553. -/ def Reg.PWR_AUD_ADDR_LO : Nat := 0x0D0058
/-- R553. -/ def Reg.PWR_AUD_ADDR_HI : Nat := 0x0D005C
/-- R553. -/ def Reg.PWR_AUD_SIZE : Nat := 0x0D0060
/-- R553. -/ def Reg.PWR_AUD_COUNT : Nat := 0x0D0064
/-- R297. -/ def Reg.DSP_CTRL : Nat := 0x0E0000
/-- R297. -/ def Reg.DSP_COMMIT : Nat := 0x0E0004
/-- R297. -/ def Reg.DSP_STATUS : Nat := 0x0E0008
/-- R297. -/ def Reg.DSP_FRAME : Nat := 0x0E000C
/-- R297. -/ def Reg.DSP_LINE : Nat := 0x0E0010
/-- R297. -/ def Reg.DSP_HTIM0 : Nat := 0x0E0020
/-- R297. -/ def Reg.DSP_HTIM1 : Nat := 0x0E0024
/-- R297. -/ def Reg.DSP_VTIM0 : Nat := 0x0E0028
/-- R297. -/ def Reg.DSP_VTIM1 : Nat := 0x0E002C
/-- R297. -/ def Reg.DSP_PCLK : Nat := 0x0E0030
/-- R297. -/ def Reg.DSP_BG : Nat := 0x0E0034
/-- R297. -/ def Reg.DSP_OUT_CTRL : Nat := 0x0E0038
/-- R297. -/ def Reg.DSP_FETCH_BUDGET : Nat := 0x0E003C
/-- R297. -/ def Reg.DSP_LB_ALLOC0 : Nat := 0x0E0040
/-- R297. -/ def Reg.DSP_LB_ALLOC1 : Nat := 0x0E0044
/-- R297. -/ def Reg.DSP_OMAT_C (c : Nat) : Nat := 0x0E0060 + c * 0x4
/-- R297. -/ def Reg.DSP_OMAT_V (c : Nat) : Nat := 0x0E0074 + c * 0x4
/-- R297. -/ def Reg.DSP_TAP_CTRL (c : Nat) : Nat := 0x0E0200 + c * 0x40
/-- R297. -/ def Reg.DSP_TAP_STATUS (c : Nat) : Nat := 0x0E0204 + c * 0x40
/-- R297. -/ def Reg.DSP_TAP_FRAME (c : Nat) : Nat := 0x0E0208 + c * 0x40
/-- R297. -/ def Reg.DSP_TAP_DROP (c : Nat) : Nat := 0x0E020C + c * 0x40
/-- R297. -/ def Reg.DSP_TAP_PITCH (c : Nat) : Nat := 0x0E0210 + c * 0x40
/-- R297. -/ def Reg.DSP_TAP_ADDR_LO (c i : Nat) : Nat := 0x0E0220 + c * 0x40 + i * 0x8
/-- R297. -/ def Reg.DSP_TAP_ADDR_HI (c i : Nat) : Nat := 0x0E0224 + c * 0x40 + i * 0x8
/-- R297. -/ def Reg.DSP_LAY_CTRL (c : Nat) : Nat := 0x0E1000 + c * 0x100
/-- R297. -/ def Reg.DSP_LAY_STATUS (c : Nat) : Nat := 0x0E1004 + c * 0x100
/-- R297. -/ def Reg.DSP_LAY_ADDR0_LO (c : Nat) : Nat := 0x0E1008 + c * 0x100
/-- R297. -/ def Reg.DSP_LAY_ADDR0_HI (c : Nat) : Nat := 0x0E100C + c * 0x100
/-- R297. -/ def Reg.DSP_LAY_ADDR1_LO (c : Nat) : Nat := 0x0E1010 + c * 0x100
/-- R297. -/ def Reg.DSP_LAY_ADDR1_HI (c : Nat) : Nat := 0x0E1014 + c * 0x100
/-- R297. -/ def Reg.DSP_LAY_PITCH0 (c : Nat) : Nat := 0x0E1018 + c * 0x100
/-- R297. -/ def Reg.DSP_LAY_PITCH1 (c : Nat) : Nat := 0x0E101C + c * 0x100
/-- R297. -/ def Reg.DSP_LAY_SRC_SIZE (c : Nat) : Nat := 0x0E1020 + c * 0x100
/-- R297. -/ def Reg.DSP_LAY_CROP_XY (c : Nat) : Nat := 0x0E1024 + c * 0x100
/-- R297. -/ def Reg.DSP_LAY_CROP_WH (c : Nat) : Nat := 0x0E1028 + c * 0x100
/-- R297. -/ def Reg.DSP_LAY_DST_XY (c : Nat) : Nat := 0x0E102C + c * 0x100
/-- R297. -/ def Reg.DSP_LAY_DST_WH (c : Nat) : Nat := 0x0E1030 + c * 0x100
/-- R297. -/ def Reg.DSP_LAY_RES (c : Nat) : Nat := 0x0E1034 + c * 0x100
/-- R297. -/ def Reg.DSP_LAY_UNDER (c : Nat) : Nat := 0x0E1038 + c * 0x100
/-- R297. -/ def Reg.DSP_LAY_YMAT_C (c i : Nat) : Nat := 0x0E1040 + c * 0x100 + i * 0x4
/-- R297. -/ def Reg.DSP_LAY_YMAT_V (c i : Nat) : Nat := 0x0E1054 + c * 0x100 + i * 0x4
/-- R297. -/ def Reg.DSP_LAY_RMAT_C (c i : Nat) : Nat := 0x0E1070 + c * 0x100 + i * 0x4
/-- R297. -/ def Reg.DSP_LAY_RMAT_V (c i : Nat) : Nat := 0x0E1084 + c * 0x100 + i * 0x4
/-- R297. -/ def Reg.DSP_COEF (c : Nat) : Nat := 0x0E8000 + c * 0x4
/-- R299. -/ def Reg.DPR_CTRL : Nat := 0x110000
/-- R299. -/ def Reg.DPR_STATUS : Nat := 0x110004
/-- R299. -/ def Reg.DPR_MSA : Nat := 0x110008
/-- R299. -/ def Reg.DPR_ERRCNT : Nat := 0x11000C
/-- R299. -/ def Reg.DPT_CTRL : Nat := 0x120000
/-- R299. -/ def Reg.DPT_STATUS : Nat := 0x120004
/-- R299. -/ def Reg.DPT_DSC : Nat := 0x120008
/-- R299. -/ def Reg.DPT_RETRAINS : Nat := 0x12000C
/-- R299. -/ def Reg.DPT_SRM_LO : Nat := 0x120010
/-- R299. -/ def Reg.DPT_SRM_HI : Nat := 0x120014
/-- R255. -/ def Reg.WSK_FF_CMD : Nat := 0x0F0000
/-- R255. -/ def Reg.WSK_FF_STATUS : Nat := 0x0F0004
/-- R255. -/ def Reg.WSK_FF_DESC_LO : Nat := 0x0F0008
/-- R255. -/ def Reg.WSK_FF_DESC_HI : Nat := 0x0F000C
/-- R255. -/ def Reg.WSK_FF_SRC_POST : Nat := 0x0F0010
/-- R255. -/ def Reg.WSK_FF_SRC_FREE : Nat := 0x0F0014
/-- R255. -/ def Reg.WSK_FF_OUT_COUNT : Nat := 0x0F0018
/-- R255. -/ def Reg.WSK_FF_SRC_COUNT : Nat := 0x0F001C
/-- R255. -/ def Reg.WSK_FF_STAT (c : Nat) : Nat := 0x0F0020 + c * 0x4
/-- R255. -/ def Reg.WSK_FF_MARGIN : Nat := 0x0F0040
/-- R255. -/ def Reg.WSK_STATUS : Nat := 0x0F0080
/-- R255. -/ def Reg.WSK_LEAD : Nat := 0x0F0084
/-- R320. -/ def Reg.LDM_CTRL : Nat := 0x100000
/-- R320. -/ def Reg.LDM_STATUS : Nat := 0x100004
/-- R320. -/ def Reg.LDM_GRID : Nat := 0x100008
/-- R320. -/ def Reg.LDM_SYNC : Nat := 0x10000C
/-- R320. -/ def Reg.LDM_SPI : Nat := 0x100010
/-- R320. -/ def Reg.LDM_CMD : Nat := 0x100014
/-- R320. -/ def Reg.LDM_STATCMD : Nat := 0x100018
/-- R320. -/ def Reg.LDM_DIAG : Nat := 0x10001C
/-- R320. -/ def Reg.LDM_DIAG1 : Nat := 0x100020
/-- R320. -/ def Reg.LDM_PWM : Nat := 0x100024
/-- R320. -/ def Reg.LDM_MAP0 : Nat := 0x100028
/-- R320. -/ def Reg.LDM_MAP1 : Nat := 0x10002C
/-- R320. -/ def Reg.LDM_MAP2 : Nat := 0x100030
/-- R320. -/ def Reg.LDM_MAP3 : Nat := 0x100034
/-- R320. -/ def Reg.LDM_STATS_LO : Nat := 0x100040
/-- R320. -/ def Reg.LDM_STATS_HI : Nat := 0x100044
/-- R320. -/ def Reg.LDM_DUTY_LO : Nat := 0x100048
/-- R320. -/ def Reg.LDM_DUTY_HI : Nat := 0x10004C
/-- R320. -/ def Reg.LDM_FRAME : Nat := 0x100050
/-- R320. -/ def Reg.LDM_SENT : Nat := 0x100054
/-- R320. -/ def Reg.LDM_COUNT : Nat := 0x100058
/-- R320. -/ def Reg.LDM_UNDIAG (c : Nat) : Nat := 0x100100 + c * 0x4
/-- R320. -/ def Reg.LDM_OPEN (c : Nat) : Nat := 0x100400 + c * 0x4
/-- R320. -/ def Reg.LDM_SHORT (c : Nat) : Nat := 0x100700 + c * 0x4
/-- R523. -/ def Reg.CFG_STATUS : Nat := 0x130000
/-- R523. -/ def Reg.CFG_FL_CMD : Nat := 0x130004
/-- R523. -/ def Reg.CFG_FL_ADDR : Nat := 0x130008
/-- R523. -/ def Reg.CFG_FL_STATUS : Nat := 0x13000C
/-- R523. -/ def Reg.CFG_FL_LOCK : Nat := 0x130010
/-- R523. -/ def Reg.CFG_FL_INFO : Nat := 0x130014
/-- R523. -/ def Reg.CFG_FL_BUF (c : Nat) : Nat := 0x130100 + c * 0x4
/-- R523. -/ def Reg.CFG_CLAMP (c : Nat) : Nat := 0x131000 + c * 0x4
/-- R581. -/ def Reg.DBG_SERIAL_LO : Nat := 0x140000
/-- R581. -/ def Reg.DBG_SERIAL_HI : Nat := 0x140004
/-- R581. -/ def Reg.DBG_REQ : Nat := 0x140008
/-- R581. -/ def Reg.DBG_CTRL : Nat := 0x14000C
/-- R581. -/ def Reg.DBG_STATUS : Nat := 0x140010
/-- R581. -/ def Reg.DBG_CHAL (c : Nat) : Nat := 0x140020 + c * 0x4
/-- R581. -/ def Reg.DBG_RESP (c : Nat) : Nat := 0x140040 + c * 0x4
/-- R581. -/ def Reg.DBG_OTP_CMD : Nat := 0x140080
/-- R581. -/ def Reg.DBG_OTP_DATA : Nat := 0x140084

/-- The register rows of the CLU block, part 0. -/
def regRowsCLU0 : List RegRow := [
  ⟨0x400000, [(12, 0x10000)], 0, [⟨3, 0, .ro⟩, ⟨5, 4, .ro⟩, ⟨11, 8, .ro⟩]⟩,
  ⟨0x400004, [(12, 0x10000)], 0, [⟨0, 0, .rw⟩]⟩,
  ⟨0x400100, [(12, 0x10000), (4, 0x40)], 0, [⟨15, 0, .ro⟩, ⟨21, 16, .ro⟩, ⟨28, 22, .ro⟩, ⟨31, 31, .w1c⟩]⟩,
  ⟨0x400104, [(12, 0x10000), (4, 0x40)], 0, [⟨4, 0, .ro⟩, ⟨9, 5, .ro⟩, ⟨20, 16, .ro⟩]⟩,
  ⟨0x400108, [(12, 0x10000), (4, 0x40)], 0, [⟨31, 0, .ro⟩]⟩,
  ⟨0x40010C, [(12, 0x10000), (4, 0x40)], 0, [⟨15, 0, .ro⟩]⟩,
  ⟨0x400110, [(12, 0x10000), (4, 0x40)], 0, [⟨31, 0, .ro⟩]⟩,
  ⟨0x400114, [(12, 0x10000), (4, 0x40)], 0, [⟨31, 0, .ro⟩]⟩,
  ⟨0x400118, [(12, 0x10000), (4, 0x40)], 0, [⟨31, 0, .ro⟩]⟩,
  ⟨0x40011C, [(12, 0x10000), (4, 0x40)], 0, [⟨31, 0, .ro⟩]⟩,
  ⟨0x400120, [(12, 0x10000), (4, 0x40)], 0, [⟨31, 0, .ro⟩]⟩,
  ⟨0x400124, [(12, 0x10000), (4, 0x40)], 0, [⟨31, 0, .ro⟩]⟩,
  ⟨0x400128, [(12, 0x10000), (4, 0x40)], 0, [⟨6, 0, .ro⟩, ⟨21, 16, .ro⟩]⟩,
  ⟨0x400200, [(12, 0x10000)], 0, [⟨4, 0, .rw⟩, ⟨5, 5, .rw⟩]⟩,
  ⟨0x400240, [(12, 0x10000), (4, 0x20)], 0, [⟨31, 0, .ro⟩]⟩,
  ⟨0x400244, [(12, 0x10000), (4, 0x20)], 0, [⟨31, 0, .ro⟩]⟩,
  ⟨0x400248, [(12, 0x10000), (4, 0x20)], 0, [⟨31, 0, .ro⟩]⟩,
  ⟨0x40024C, [(12, 0x10000), (4, 0x20)], 0, [⟨31, 0, .ro⟩]⟩,
  ⟨0x400250, [(12, 0x10000), (4, 0x20)], 0, [⟨31, 0, .rc⟩]⟩,
  ⟨0x400254, [(12, 0x10000), (4, 0x20)], 0, [⟨31, 0, .rc⟩]⟩]
/-- The register rows of the CLU block, part 1. -/
def regRowsCLU1 : List RegRow := [
  ⟨0x400300, [(12, 0x10000)], 0x11C, [⟨4, 0, .rw⟩, ⟨10, 5, .rw⟩, ⟨16, 11, .rw⟩]⟩,
  ⟨0x400304, [(12, 0x10000)], 0, [⟨0, 0, .ro⟩, ⟨1, 1, .w1c⟩, ⟨13, 8, .ro⟩, ⟨22, 16, .ro⟩]⟩,
  ⟨0x400308, [(12, 0x10000)], 0, [⟨15, 0, .rc⟩, ⟨31, 16, .rc⟩]⟩,
  ⟨0x400310, [(12, 0x10000)], 0xFF, [⟨7, 0, .rw⟩]⟩,
  ⟨0x400314, [(12, 0x10000)], 0, [⟨2, 0, .ro⟩, ⟨12, 8, .ro⟩, ⟨19, 16, .ro⟩, ⟨20, 20, .ro⟩]⟩,
  ⟨0x400318, [(12, 0x10000)], 0, [⟨31, 0, .ro⟩]⟩,
  ⟨0x40031C, [(12, 0x10000)], 0, [⟨15, 0, .ro⟩]⟩,
  ⟨0x400320, [(12, 0x10000)], 0, [⟨31, 0, .ro⟩]⟩,
  ⟨0x400324, [(12, 0x10000)], 0, [⟨31, 0, .ro⟩]⟩,
  ⟨0x400328, [(12, 0x10000)], 0, [⟨31, 0, .ro⟩]⟩,
  ⟨0x40032C, [(12, 0x10000)], 0, [⟨31, 0, .ro⟩]⟩,
  ⟨0x400400, [(12, 0x10000), (32, 0x8)], 0, [⟨31, 0, .ro⟩]⟩,
  ⟨0x400404, [(12, 0x10000), (32, 0x8)], 0, [⟨31, 0, .ro⟩]⟩,
  ⟨0x400500, [(12, 0x10000)], 0, [⟨2, 0, .ro⟩, ⟨12, 8, .ro⟩, ⟨19, 16, .ro⟩]⟩,
  ⟨0x400504, [(12, 0x10000)], 0, [⟨8, 0, .ro⟩, ⟨24, 16, .ro⟩, ⟨28, 25, .ro⟩, ⟨30, 29, .ro⟩, ⟨31, 31, .w1c⟩]⟩,
  ⟨0x400510, [(12, 0x10000)], 0, [⟨31, 0, .ro⟩]⟩,
  ⟨0x400514, [(12, 0x10000)], 0, [⟨31, 0, .ro⟩]⟩,
  ⟨0x400518, [(12, 0x10000)], 0, [⟨31, 0, .ro⟩]⟩,
  ⟨0x40051C, [(12, 0x10000)], 0, [⟨31, 0, .ro⟩]⟩,
  ⟨0x400520, [(12, 0x10000)], 0, [⟨31, 0, .ro⟩]⟩]
/-- The register rows of the CLU block, part 2. -/
def regRowsCLU2 : List RegRow := [
  ⟨0x400524, [(12, 0x10000)], 0, [⟨31, 0, .ro⟩]⟩,
  ⟨0x400528, [(12, 0x10000)], 0, [⟨31, 0, .ro⟩]⟩,
  ⟨0x40052C, [(12, 0x10000)], 0, [⟨31, 0, .ro⟩]⟩]
/-- The register rows of the CLU block. -/
def regRowsCLU : List RegRow := regRowsCLU0 ++ regRowsCLU1 ++ regRowsCLU2
/-- The register rows of the GLB block. -/
def regRowsGLB : List RegRow := [
  ⟨0x000000, [], 0x420840, [⟨15, 0, .ro⟩, ⟨23, 16, .ro⟩, ⟨27, 24, .ro⟩]⟩,
  ⟨0x000004, [], 0, [⟨1, 0, .ro⟩, ⟨2, 2, .ro⟩, ⟨3, 3, .ro⟩, ⟨4, 4, .ro⟩, ⟨5, 5, .ro⟩, ⟨6, 6, .ro⟩]⟩,
  ⟨0x000008, [], 0, [⟨7, 0, .ro⟩]⟩,
  ⟨0x00000C, [], 0, [⟨0, 0, .w1s⟩, ⟨31, 16, .w1s⟩]⟩,
  ⟨0x000010, [], 0, [⟨23, 0, .ro⟩]⟩,
  ⟨0x000014, [], 0, [⟨11, 0, .ro⟩, ⟨15, 12, .ro⟩, ⟨23, 16, .ro⟩]⟩,
  ⟨0x000018, [], 0, [⟨4, 0, .ro⟩]⟩,
  ⟨0x00001C, [], 0, [⟨31, 0, .ro⟩]⟩,
  ⟨0x000020, [], 0, [⟨31, 0, .ro⟩]⟩,
  ⟨0x000024, [], 0, [⟨31, 0, .ro⟩]⟩,
  ⟨0x000028, [], 0, [⟨31, 0, .ro⟩]⟩,
  ⟨0x00002C, [], 0, [⟨31, 0, .ro⟩]⟩]
/-- The register rows of the HIF block. -/
def regRowsHIF : List RegRow := [
  ⟨0x010000, [], 0, [⟨0, 0, .rw⟩, ⟨15, 8, .rw⟩]⟩,
  ⟨0x010004, [], 0, [⟨0, 0, .ro⟩, ⟨3, 1, .ro⟩, ⟨6, 4, .ro⟩, ⟨8, 8, .w1c⟩, ⟨9, 9, .w1c⟩, ⟨10, 10, .w1c⟩, ⟨11, 11, .w1c⟩]⟩,
  ⟨0x010008, [], 0, [⟨31, 28, .rw⟩]⟩,
  ⟨0x01000C, [], 0, [⟨7, 0, .rw⟩]⟩,
  ⟨0x010010, [], 0, [⟨5, 0, .rw⟩, ⟨13, 8, .rw⟩, ⟨21, 16, .rw⟩, ⟨29, 24, .rw⟩]⟩,
  ⟨0x010014, [], 0, [⟨0, 0, .rw⟩, ⟨1, 1, .rw⟩, ⟨2, 2, .rw⟩, ⟨3, 3, .rw⟩]⟩,
  ⟨0x010018, [], 0, [⟨15, 0, .rc⟩, ⟨31, 16, .rc⟩]⟩,
  ⟨0x01001C, [], 0, [⟨15, 0, .rc⟩, ⟨31, 16, .rc⟩]⟩,
  ⟨0x010100, [(4, 0x8)], 0, [⟨31, 0, .rw⟩]⟩,
  ⟨0x010120, [(4, 0x8)], 0, [⟨31, 0, .ro⟩]⟩,
  ⟨0x010104, [(8, 0x8)], 0, [⟨0, 0, .ro⟩, ⟨31, 16, .ro⟩]⟩,
  ⟨0x018000, [(256, 0x4)], 0, [⟨31, 0, .rw⟩]⟩,
  ⟨0x019000, [(2, 0x4)], 0, [⟨31, 0, .ro⟩]⟩]
/-- The register rows of the DBL block. -/
def regRowsDBL : List RegRow := [
  ⟨0x020000, [(64, 0x1000)], 0, [⟨31, 0, .rw⟩]⟩,
  ⟨0x020004, [(64, 0x1000)], 0, [⟨31, 0, .ro⟩]⟩]
/-- The register rows of the CPR block. -/
def regRowsCPR : List RegRow := [
  ⟨0x060000, [], 0, [⟨31, 0, .ro⟩]⟩,
  ⟨0x060100, [(32, 0x20)], 0, [⟨31, 0, .rw⟩]⟩,
  ⟨0x060104, [(32, 0x20)], 0, [⟨7, 0, .rw⟩]⟩,
  ⟨0x060108, [(32, 0x20)], 0, [⟨0, 0, .rw⟩, ⟨1, 1, .w1s⟩]⟩,
  ⟨0x06010C, [(32, 0x20)], 0, [⟨1, 0, .ro⟩, ⟨2, 2, .w1c⟩, ⟨15, 8, .ro⟩]⟩,
  ⟨0x060110, [(32, 0x20)], 0, [⟨15, 0, .ro⟩, ⟨23, 16, .ro⟩]⟩,
  ⟨0x060800, [(64, 0x10)], 0, [⟨31, 0, .rw⟩]⟩,
  ⟨0x060804, [(64, 0x10)], 0, [⟨7, 0, .rw⟩]⟩,
  ⟨0x060808, [(64, 0x10)], 0, [⟨0, 0, .rw⟩]⟩,
  ⟨0x06080C, [(64, 0x10)], 0, [⟨2, 0, .ro⟩, ⟨3, 3, .w1c⟩, ⟨15, 8, .ro⟩, ⟨20, 16, .ro⟩]⟩,
  ⟨0x068000, [(4096, 0x8)], 0, [⟨31, 0, .ro⟩]⟩,
  ⟨0x068004, [(4096, 0x8)], 0, [⟨0, 0, .ro⟩, ⟨1, 1, .w1s⟩, ⟨2, 2, .w1s⟩, ⟨3, 3, .rw⟩, ⟨4, 4, .rw⟩, ⟨5, 5, .rw⟩, ⟨12, 8, .rw⟩, ⟨21, 16, .rw⟩]⟩]
/-- The register rows of the SCH block, part 0. -/
def regRowsSCH0 : List RegRow := [
  ⟨0x070000, [], 0x3E8, [⟨15, 0, .rw⟩]⟩,
  ⟨0x070004, [], 0xFA0, [⟨15, 0, .rw⟩]⟩,
  ⟨0x070008, [], 0x0A040FFF, [⟨11, 0, .rw⟩, ⟨19, 16, .rw⟩, ⟨31, 24, .rw⟩]⟩,
  ⟨0x07000C, [], 0, [⟨11, 0, .ro⟩, ⟨16, 16, .w1c⟩, ⟨17, 17, .ro⟩]⟩,
  ⟨0x070010, [], 0, [⟨3, 0, .ro⟩, ⟨13, 8, .ro⟩, ⟨20, 16, .ro⟩, ⟨31, 31, .w1c⟩]⟩,
  ⟨0x070100, [(64, 0x10)], 0x1910, [⟨7, 0, .rw⟩, ⟨14, 8, .rw⟩, ⟨31, 16, .rw⟩]⟩,
  ⟨0x070104, [(64, 0x10)], 0, [⟨5, 0, .ro⟩, ⟨8, 8, .ro⟩, ⟨9, 9, .ro⟩]⟩,
  ⟨0x070108, [(64, 0x10)], 0, [⟨31, 0, .ro⟩]⟩,
  ⟨0x07010C, [(64, 0x10)], 0, [⟨31, 0, .ro⟩]⟩,
  ⟨0x070800, [(32, 0x20)], 0, [⟨31, 0, .ro⟩]⟩,
  ⟨0x070804, [(32, 0x20)], 0, [⟨31, 0, .ro⟩]⟩,
  ⟨0x070808, [(32, 0x20)], 0, [⟨31, 0, .ro⟩]⟩,
  ⟨0x07080C, [(32, 0x20)], 0, [⟨31, 0, .ro⟩]⟩,
  ⟨0x070810, [(32, 0x20)], 0, [⟨31, 0, .ro⟩]⟩,
  ⟨0x070814, [(32, 0x20)], 0, [⟨31, 0, .ro⟩]⟩,
  ⟨0x070C00, [(12, 0x10)], 0, [⟨31, 0, .ro⟩]⟩,
  ⟨0x070C04, [(12, 0x10)], 0, [⟨15, 0, .rc⟩]⟩,
  ⟨0x070C08, [(12, 0x10)], 0, [⟨15, 0, .rc⟩]⟩,
  ⟨0x070C0C, [(12, 0x10)], 0, [⟨31, 0, .ro⟩]⟩,
  ⟨0x070E00, [(16, 0x10)], 0, [⟨16, 0, .ro⟩, ⟨31, 31, .ro⟩]⟩]
/-- The register rows of the SCH block, part 1. -/
def regRowsSCH1 : List RegRow := [
  ⟨0x070E04, [(16, 0x10)], 0, [⟨6, 0, .ro⟩, ⟨14, 8, .ro⟩, ⟨21, 16, .ro⟩]⟩,
  ⟨0x070E08, [(16, 0x10)], 0, [⟨31, 0, .rc⟩]⟩,
  ⟨0x070E0C, [(16, 0x10)], 0, [⟨31, 0, .rc⟩]⟩]
/-- The register rows of the SCH block. -/
def regRowsSCH : List RegRow := regRowsSCH0 ++ regRowsSCH1
/-- The register rows of the MMU block, part 0. -/
def regRowsMMU0 : List RegRow := [
  ⟨0x080000, [], 0, [⟨0, 0, .rw⟩, ⟨1, 1, .rw⟩, ⟨13, 8, .rw⟩, ⟨21, 16, .rw⟩]⟩,
  ⟨0x080004, [], 0, [⟨0, 0, .w1c⟩, ⟨1, 1, .w1c⟩, ⟨15, 8, .ro⟩, ⟨20, 16, .ro⟩]⟩,
  ⟨0x080040, [(4, 0x20)], 0, [⟨0, 0, .rw⟩, ⟨2, 1, .rw⟩, ⟨5, 3, .rw⟩, ⟨11, 6, .rw⟩, ⟨17, 12, .rw⟩, ⟨23, 18, .rw⟩, ⟨28, 24, .rw⟩, ⟨29, 29, .rw⟩, ⟨30, 30, .rw⟩]⟩,
  ⟨0x080044, [(4, 0x20)], 0, [⟨5, 0, .rw⟩, ⟨13, 8, .rw⟩, ⟨14, 14, .rw⟩, ⟨21, 16, .rw⟩, ⟨22, 22, .rw⟩]⟩,
  ⟨0x080048, [(4, 0x20)], 0, [⟨5, 0, .rw⟩, ⟨6, 6, .rw⟩, ⟨13, 8, .rw⟩, ⟨14, 14, .rw⟩, ⟨15, 15, .rw⟩]⟩,
  ⟨0x08004C, [(4, 0x20)], 0, [⟨31, 0, .rw⟩]⟩,
  ⟨0x080050, [(4, 0x20)], 0, [⟨31, 0, .rw⟩]⟩,
  ⟨0x080100, [(8, 0x10)], 0, [⟨31, 12, .rw⟩]⟩,
  ⟨0x080104, [(8, 0x10)], 0, [⟨31, 0, .rw⟩]⟩,
  ⟨0x080108, [(8, 0x10)], 0, [⟨31, 12, .rw⟩]⟩,
  ⟨0x08010C, [(8, 0x10)], 0, [⟨31, 0, .rw⟩]⟩,
  ⟨0x080180, [], 0, [⟨7, 0, .rw⟩]⟩,
  ⟨0x080200, [], 0, [⟨0, 0, .w1s⟩, ⟨2, 1, .rw⟩, ⟨3, 3, .rw⟩, ⟨4, 4, .rw⟩, ⟨12, 8, .rw⟩]⟩,
  ⟨0x080204, [], 0, [⟨31, 12, .rw⟩]⟩,
  ⟨0x080208, [], 0, [⟨24, 0, .rw⟩]⟩,
  ⟨0x08020C, [], 0, [⟨31, 0, .rw⟩]⟩,
  ⟨0x080210, [], 0, [⟨31, 0, .ro⟩]⟩,
  ⟨0x080214, [], 0, [⟨31, 0, .ro⟩]⟩,
  ⟨0x080300, [], 0, [⟨3, 0, .ro⟩, ⟨6, 4, .ro⟩, ⟨9, 8, .ro⟩, ⟨10, 10, .ro⟩, ⟨20, 16, .ro⟩, ⟨27, 21, .ro⟩, ⟨31, 31, .w1c⟩]⟩,
  ⟨0x080304, [], 0, [⟨7, 0, .ro⟩, ⟨11, 8, .ro⟩]⟩]
/-- The register rows of the MMU block, part 1. -/
def regRowsMMU1 : List RegRow := [
  ⟨0x080308, [], 0, [⟨31, 0, .ro⟩]⟩,
  ⟨0x08030C, [], 0, [⟨15, 0, .ro⟩]⟩,
  ⟨0x080310, [], 0, [⟨31, 0, .ro⟩]⟩,
  ⟨0x080314, [], 0, [⟨31, 0, .ro⟩]⟩,
  ⟨0x080400, [], 0, [⟨31, 0, .ro⟩]⟩,
  ⟨0x080404, [], 0, [⟨31, 0, .ro⟩]⟩,
  ⟨0x080408, [], 0, [⟨11, 0, .rc⟩, ⟨21, 12, .rc⟩, ⟨31, 22, .rc⟩]⟩]
/-- The register rows of the MMU block. -/
def regRowsMMU : List RegRow := regRowsMMU0 ++ regRowsMMU1
/-- The register rows of the L2C block. -/
def regRowsL2C : List RegRow := [
  ⟨0x090000, [], 0, [⟨0, 0, .w1s⟩, ⟨3, 1, .rw⟩]⟩,
  ⟨0x090004, [], 0, [⟨0, 0, .ro⟩, ⟨1, 1, .ro⟩, ⟨2, 2, .w1c⟩, ⟨3, 3, .ro⟩, ⟨4, 4, .w1c⟩]⟩,
  ⟨0x090008, [], 0, [⟨31, 0, .rw⟩]⟩,
  ⟨0x09000C, [], 0, [⟨7, 0, .rw⟩]⟩,
  ⟨0x090010, [], 0, [⟨31, 0, .rw⟩]⟩,
  ⟨0x090040, [(16, 0x4)], 0, [⟨15, 0, .rw⟩]⟩,
  ⟨0x090080, [], 0, [⟨15, 0, .rc⟩, ⟨31, 16, .rc⟩]⟩,
  ⟨0x090100, [(4, 0x10)], 0, [⟨31, 0, .ro⟩]⟩,
  ⟨0x090104, [(4, 0x10)], 0, [⟨31, 0, .ro⟩]⟩,
  ⟨0x090108, [(4, 0x10)], 0, [⟨31, 0, .ro⟩]⟩,
  ⟨0x09010C, [(4, 0x10)], 0, [⟨31, 0, .ro⟩]⟩,
  ⟨0x090800, [], 0, [⟨8, 0, .ro⟩, ⟨24, 16, .rc⟩]⟩,
  ⟨0x090808, [], 0, [⟨31, 0, .ro⟩]⟩,
  ⟨0x09080C, [], 0, [⟨31, 0, .ro⟩]⟩]
/-- The register rows of the DMC block, part 0. -/
def regRowsDMC0 : List RegRow := [
  ⟨0x0A0000, [], 0, [⟨2, 0, .ro⟩, ⟨3, 3, .ro⟩, ⟨5, 4, .ro⟩, ⟨31, 16, .ro⟩]⟩,
  ⟨0x0A0004, [], 0, [⟨0, 0, .ro⟩, ⟨1, 1, .ro⟩, ⟨2, 2, .ro⟩, ⟨3, 3, .w1c⟩, ⟨4, 4, .w1c⟩, ⟨5, 5, .w1c⟩, ⟨15, 8, .ro⟩, ⟨23, 16, .ro⟩]⟩,
  ⟨0x0A0008, [], 0, [⟨0, 0, .wo1⟩]⟩,
  ⟨0x0A000C, [], 0, [⟨0, 0, .rwlGo 0xA0008 0⟩]⟩,
  ⟨0x0A0010, [], 0, [⟨15, 0, .ro⟩]⟩,
  ⟨0x0A0040, [(16, 0x8)], 0, [⟨6, 0, .rwl 0xA0008 0⟩, ⟨8, 8, .rwl 0xA0008 0⟩]⟩,
  ⟨0x0A0044, [(16, 0x8)], 0, [⟨15, 0, .ro⟩, ⟨31, 16, .ro⟩]⟩,
  ⟨0x0A0100, [], 0, [⟨0, 0, .w1s⟩, ⟨2, 1, .rw⟩, ⟨11, 8, .rw⟩]⟩,
  ⟨0x0A0104, [], 0, [⟨31, 7, .rw⟩]⟩,
  ⟨0x0A0108, [], 0, [⟨7, 0, .rw⟩]⟩,
  ⟨0x0A0140, [(16, 0x8)], 0, [⟨0, 0, .ro⟩, ⟨31, 7, .ro⟩]⟩,
  ⟨0x0A0144, [(16, 0x8)], 0, [⟨7, 0, .ro⟩]⟩,
  ⟨0x0A0200, [], 0x1800, [⟨0, 0, .rw⟩, ⟨15, 8, .rw⟩]⟩,
  ⟨0x0A0204, [], 0, [⟨31, 7, .ro⟩]⟩,
  ⟨0x0A0208, [], 0, [⟨7, 0, .ro⟩]⟩,
  ⟨0x0A020C, [], 0, [⟨31, 0, .ro⟩]⟩,
  ⟨0x0A0210, [], 0, [⟨15, 0, .rc⟩, ⟨31, 16, .rc⟩]⟩,
  ⟨0x0A0214, [], 0, [⟨4, 0, .ro⟩, ⟨11, 8, .ro⟩, ⟨16, 16, .ro⟩]⟩,
  ⟨0x0A0400, [(16, 0x10)], 0, [⟨31, 0, .ro⟩]⟩,
  ⟨0x0A0404, [(16, 0x10)], 0, [⟨31, 0, .ro⟩]⟩]
/-- The register rows of the DMC block, part 1. -/
def regRowsDMC1 : List RegRow := [
  ⟨0x0A0408, [(16, 0x10)], 0, [⟨31, 0, .rc⟩]⟩,
  ⟨0x0A040C, [(16, 0x10)], 0, [⟨8, 0, .ro⟩, ⟨24, 16, .rc⟩]⟩]
/-- The register rows of the DMC block. -/
def regRowsDMC : List RegRow := regRowsDMC0 ++ regRowsDMC1
/-- The register rows of the CPY block. -/
def regRowsCPY : List RegRow := [
  ⟨0x0B0000, [], 0, [⟨0, 0, .w1s⟩, ⟨2, 1, .rw⟩, ⟨5, 4, .rw⟩]⟩,
  ⟨0x0B0004, [], 0, [⟨0, 0, .ro⟩, ⟨1, 1, .w1c⟩, ⟨2, 2, .w1c⟩, ⟨15, 8, .ro⟩]⟩,
  ⟨0x0B0008, [], 0, [⟨31, 0, .rw⟩]⟩,
  ⟨0x0B000C, [], 0, [⟨7, 0, .rw⟩]⟩,
  ⟨0x0B0010, [], 0, [⟨31, 0, .rw⟩]⟩,
  ⟨0x0B0014, [], 0, [⟨7, 0, .rw⟩]⟩,
  ⟨0x0B0018, [], 0, [⟨31, 0, .rw⟩]⟩,
  ⟨0x0B001C, [], 0, [⟨31, 0, .rw⟩]⟩,
  ⟨0x0B0020, [], 0, [⟨31, 0, .rw⟩]⟩,
  ⟨0x0B0024, [], 0, [⟨31, 0, .rw⟩]⟩,
  ⟨0x0B0028, [], 0, [⟨31, 0, .rw⟩]⟩,
  ⟨0x0B002C, [], 0, [⟨31, 0, .rw⟩]⟩,
  ⟨0x0B0040, [], 0, [⟨31, 0, .ro⟩]⟩,
  ⟨0x0B0044, [], 0, [⟨31, 0, .ro⟩]⟩]
/-- The register rows of the ERR block. -/
def regRowsERR : List RegRow := [
  ⟨0x0C0000, [], 1, [⟨1, 0, .rw⟩, ⟨2, 2, .rw⟩]⟩,
  ⟨0x0C0004, [], 0, [⟨0, 0, .w1c⟩, ⟨1, 1, .w1c⟩, ⟨2, 2, .w1c⟩, ⟨3, 3, .w1c⟩, ⟨15, 8, .ro⟩, ⟨23, 16, .ro⟩]⟩,
  ⟨0x0C0008, [], 0, [⟨31, 0, .ro⟩]⟩,
  ⟨0x0C000C, [], 0, [⟨31, 0, .rw⟩]⟩,
  ⟨0x0C0010, [], 0, [⟨31, 0, .ro⟩]⟩,
  ⟨0x0C0014, [], 0, [⟨7, 0, .rc⟩, ⟨15, 8, .rc⟩, ⟨23, 16, .rc⟩, ⟨31, 24, .rc⟩]⟩,
  ⟨0x0C0018, [], 0, [⟨20, 0, .w1c⟩]⟩,
  ⟨0x0C001C, [], 0, [⟨11, 0, .w1c⟩]⟩,
  ⟨0x0C0020, [], 0, [⟨0, 0, .w1s⟩, ⟨31, 16, .w1s⟩]⟩,
  ⟨0x0C0024, [], 0, [⟨0, 0, .wo1⟩]⟩,
  ⟨0x0C0028, [], 0, [⟨31, 0, .rwl 0xC0024 0⟩]⟩,
  ⟨0x0C0040, [(4, 0x8)], 0, [⟨18, 0, .rwl 0xC0024 0⟩, ⟨31, 31, .rwl 0xC0024 0⟩]⟩,
  ⟨0x0C0044, [(4, 0x8)], 0, [⟨18, 0, .rwl 0xC0024 0⟩]⟩,
  ⟨0x0C0100, [(8, 0x4)], 0, [⟨31, 0, .ro⟩]⟩,
  ⟨0x0C0140, [(8, 0x4)], 0, [⟨31, 0, .ro⟩]⟩,
  ⟨0x0C1000, [(256, 0x4)], 0, [⟨31, 0, .ro⟩]⟩]
/-- The register rows of the PWR block, part 0. -/
def regRowsPWR0 : List RegRow := [
  ⟨0x0D0000, [], 0x6401, [⟨0, 0, .rw⟩, ⟨1, 1, .rw⟩, ⟨15, 8, .rw⟩]⟩,
  ⟨0x0D0004, [], 0, [⟨0, 0, .w1s⟩, ⟨2, 1, .rw⟩, ⟨3, 3, .w1s⟩]⟩,
  ⟨0x0D0008, [], 0x00F00000, [⟨1, 0, .ro⟩, ⟨4, 2, .ro⟩, ⟨5, 5, .w1c⟩, ⟨6, 6, .w1c⟩, ⟨7, 7, .w1c⟩, ⟨15, 8, .ro⟩, ⟨16, 16, .w1c⟩, ⟨17, 17, .w1c⟩, ⟨18, 18, .ro⟩, ⟨19, 19, .ro⟩, ⟨21, 20, .ro⟩, ⟨23, 22, .ro⟩, ⟨26, 24, .ro⟩, ⟨27, 27, .ro⟩, ⟨28, 28, .ro⟩]⟩,
  ⟨0x0D000C, [], 0, [⟨15, 0, .rc⟩, ⟨23, 16, .ro⟩, ⟨31, 24, .ro⟩]⟩,
  ⟨0x0D0010, [], 0, [⟨15, 0, .rc⟩, ⟨18, 16, .ro⟩, ⟨27, 24, .ro⟩]⟩,
  ⟨0x0D0014, [], 0x3E, [⟨5, 3, .rw⟩, ⟨2, 1, .ro⟩, ⟨11, 8, .ro⟩, ⟨31, 16, .ro⟩]⟩,
  ⟨0x0D0018, [], 0, [⟨31, 0, .ro⟩]⟩,
  ⟨0x0D001C, [], 0, [⟨31, 0, .ro⟩]⟩,
  ⟨0x0D0020, [], 0, [⟨31, 0, .rw⟩]⟩,
  ⟨0x0D0024, [], 0, [⟨31, 0, .rw⟩]⟩,
  ⟨0x0D0028, [], 0x6428, [⟨5, 0, .rw⟩, ⟨15, 8, .rw⟩]⟩,
  ⟨0x0D002C, [], 0, [⟨15, 0, .ro⟩, ⟨23, 16, .ro⟩, ⟨26, 24, .ro⟩]⟩,
  ⟨0x0D0030, [], 0, [⟨31, 0, .ro⟩]⟩,
  ⟨0x0D0034, [], 0, [⟨31, 0, .ro⟩]⟩,
  ⟨0x0D0038, [], 0, [⟨15, 0, .rc⟩, ⟨31, 16, .rc⟩]⟩,
  ⟨0x0D003C, [], 0, [⟨15, 0, .ro⟩, ⟨31, 16, .ro⟩]⟩,
  ⟨0x0D0040, [], 0x00C88000, [⟨0, 0, .rw⟩, ⟨1, 1, .w1s⟩, ⟨15, 8, .rw⟩, ⟨24, 16, .rw⟩]⟩,
  ⟨0x0D0044, [], 0, [⟨7, 0, .ro⟩, ⟨15, 8, .ro⟩]⟩,
  ⟨0x0D0048, [], 0, [⟨31, 0, .ro⟩]⟩,
  ⟨0x0D004C, [], 0, [⟨31, 0, .ro⟩]⟩]
/-- The register rows of the PWR block, part 1. -/
def regRowsPWR1 : List RegRow := [
  ⟨0x0D0050, [], 0, [⟨31, 0, .ro⟩]⟩,
  ⟨0x0D0054, [], 0, [⟨31, 0, .ro⟩]⟩,
  ⟨0x0D0058, [], 0, [⟨31, 8, .rw⟩]⟩,
  ⟨0x0D005C, [], 0, [⟨7, 0, .rw⟩]⟩,
  ⟨0x0D0060, [], 0, [⟨31, 0, .rw⟩]⟩,
  ⟨0x0D0064, [], 0, [⟨31, 0, .ro⟩]⟩]
/-- The register rows of the PWR block. -/
def regRowsPWR : List RegRow := regRowsPWR0 ++ regRowsPWR1
/-- The register rows of the DSP block, part 0. -/
def regRowsDSP0 : List RegRow := [
  ⟨0x0E0000, [], 0, [⟨0, 0, .com⟩, ⟨1, 1, .rw⟩, ⟨2, 2, .rw⟩, ⟨3, 3, .rw⟩]⟩,
  ⟨0x0E0004, [], 0, [⟨0, 0, .w1s⟩]⟩,
  ⟨0x0E0008, [], 0, [⟨0, 0, .ro⟩, ⟨1, 1, .ro⟩, ⟨2, 2, .w1c⟩, ⟨3, 3, .w1c⟩, ⟨4, 4, .w1c⟩, ⟨5, 5, .w1c⟩, ⟨6, 6, .w1c⟩, ⟨7, 7, .w1c⟩, ⟨15, 8, .ro⟩, ⟨16, 16, .ro⟩, ⟨17, 17, .ro⟩]⟩,
  ⟨0x0E000C, [], 0, [⟨31, 0, .ro⟩]⟩,
  ⟨0x0E0010, [], 0, [⟨12, 0, .ro⟩]⟩,
  ⟨0x0E0020, [], 0x1F401E00, [⟨15, 0, .com⟩, ⟨31, 16, .com⟩]⟩,
  ⟨0x0E0024, [], 0x00200030, [⟨15, 0, .com⟩, ⟨30, 16, .com⟩, ⟨31, 31, .com⟩]⟩,
  ⟨0x0E0028, [], 0x113010E0, [⟨15, 0, .com⟩, ⟨31, 16, .com⟩]⟩,
  ⟨0x0E002C, [], 0x00080008, [⟨15, 0, .com⟩, ⟨30, 16, .com⟩, ⟨31, 31, .com⟩]⟩,
  ⟨0x0E0030, [], 0x00407400, [⟨22, 0, .com⟩]⟩,
  ⟨0x0E0034, [], 0, [⟨9, 0, .com⟩, ⟨19, 10, .com⟩, ⟨29, 20, .com⟩]⟩,
  ⟨0x0E0038, [], 0, [⟨1, 0, .com⟩, ⟨2, 2, .com⟩]⟩,
  ⟨0x0E003C, [], 0xBB80, [⟨16, 0, .com⟩]⟩,
  ⟨0x0E0040, [], 0x19191919, [⟨6, 0, .com⟩, ⟨14, 8, .com⟩, ⟨22, 16, .com⟩, ⟨30, 24, .com⟩]⟩,
  ⟨0x0E0044, [], 0x04040404, [⟨6, 0, .com⟩, ⟨14, 8, .com⟩, ⟨22, 16, .com⟩, ⟨30, 24, .com⟩]⟩,
  ⟨0x0E0060, [(4, 0x4)], 0, [⟨15, 0, .com⟩, ⟨31, 16, .com⟩]⟩,
  ⟨0x0E0070, [], 0x1000, [⟨15, 0, .com⟩]⟩,
  ⟨0x0E0074, [(6, 0x4)], 0, [⟨17, 0, .com⟩]⟩,
  ⟨0x0E0200, [(2, 0x40)], 0, [⟨0, 0, .com⟩, ⟨1, 1, .com⟩, ⟨3, 2, .com⟩, ⟨4, 4, .com⟩, ⟨6, 5, .com⟩, ⟨7, 7, .com⟩, ⟨9, 8, .com⟩, ⟨13, 10, .com⟩, ⟨20, 16, .com⟩]⟩,
  ⟨0x0E0204, [(2, 0x40)], 0, [⟨1, 0, .ro⟩, ⟨2, 2, .ro⟩, ⟨3, 3, .w1c⟩]⟩,
  ⟨0x0E0208, [(2, 0x40)], 0, [⟨31, 0, .ro⟩]⟩]
/-- The register rows of the DSP block, part 1. -/
def regRowsDSP1 : List RegRow := [
  ⟨0x0E020C, [(2, 0x40)], 0, [⟨31, 0, .rc⟩]⟩,
  ⟨0x0E0210, [(2, 0x40)], 0, [⟨31, 0, .com⟩]⟩,
  ⟨0x0E0220, [(2, 0x40), (4, 0x8)], 0, [⟨31, 0, .com⟩]⟩,
  ⟨0x0E0224, [(2, 0x40), (4, 0x8)], 0, [⟨15, 0, .com⟩]⟩,
  ⟨0x0E1000, [(8, 0x100)], 0, [⟨0, 0, .com⟩, ⟨2, 1, .com⟩, ⟨3, 3, .com⟩, ⟨6, 4, .com⟩, ⟨7, 7, .com⟩, ⟨15, 8, .com⟩, ⟨23, 16, .com⟩, ⟨28, 24, .com⟩, ⟨29, 29, .com⟩]⟩,
  ⟨0x0E1004, [(8, 0x100)], 0, [⟨0, 0, .w1c⟩, ⟨1, 1, .ro⟩, ⟨2, 2, .ro⟩]⟩,
  ⟨0x0E1008, [(8, 0x100)], 0, [⟨31, 0, .com⟩]⟩,
  ⟨0x0E100C, [(8, 0x100)], 0, [⟨15, 0, .com⟩]⟩,
  ⟨0x0E1010, [(8, 0x100)], 0, [⟨31, 0, .com⟩]⟩,
  ⟨0x0E1014, [(8, 0x100)], 0, [⟨15, 0, .com⟩]⟩,
  ⟨0x0E1018, [(8, 0x100)], 0, [⟨31, 0, .com⟩]⟩,
  ⟨0x0E101C, [(8, 0x100)], 0, [⟨31, 0, .com⟩]⟩,
  ⟨0x0E1020, [(8, 0x100)], 0, [⟨15, 0, .com⟩, ⟨31, 16, .com⟩]⟩,
  ⟨0x0E1024, [(8, 0x100)], 0, [⟨15, 0, .com⟩, ⟨31, 16, .com⟩]⟩,
  ⟨0x0E1028, [(8, 0x100)], 0, [⟨15, 0, .com⟩, ⟨31, 16, .com⟩]⟩,
  ⟨0x0E102C, [(8, 0x100)], 0, [⟨15, 0, .com⟩, ⟨31, 16, .com⟩]⟩,
  ⟨0x0E1030, [(8, 0x100)], 0, [⟨15, 0, .com⟩, ⟨31, 16, .com⟩]⟩,
  ⟨0x0E1034, [(8, 0x100)], 0, [⟨15, 0, .com⟩, ⟨31, 16, .com⟩]⟩,
  ⟨0x0E1038, [(8, 0x100)], 0, [⟨31, 0, .rc⟩]⟩,
  ⟨0x0E1040, [(8, 0x100), (4, 0x4)], 0, [⟨15, 0, .com⟩, ⟨31, 16, .com⟩]⟩,
  ⟨0x0E1050, [(8, 0x100)], 0x1000, [⟨15, 0, .com⟩]⟩]
/-- The register rows of the DSP block, part 2. -/
def regRowsDSP2 : List RegRow := [
  ⟨0x0E1054, [(8, 0x100), (6, 0x4)], 0, [⟨17, 0, .com⟩]⟩,
  ⟨0x0E1070, [(8, 0x100), (4, 0x4)], 0, [⟨15, 0, .com⟩, ⟨31, 16, .com⟩]⟩,
  ⟨0x0E1080, [(8, 0x100)], 0x1000, [⟨15, 0, .com⟩]⟩,
  ⟨0x0E1084, [(8, 0x100), (6, 0x4)], 0, [⟨17, 0, .com⟩]⟩,
  ⟨0x0E8000, [(8192, 0x4)], 0, [⟨11, 0, .rw⟩, ⟨27, 16, .rw⟩]⟩]
/-- The register rows of the DSP block. -/
def regRowsDSP : List RegRow := regRowsDSP0 ++ regRowsDSP1 ++ regRowsDSP2
/-- The register rows of the DPR block. -/
def regRowsDPR : List RegRow := [
  ⟨0x110000, [], 0x28, [⟨0, 0, .rw⟩, ⟨3, 1, .rw⟩, ⟨5, 4, .rw⟩, ⟨6, 6, .rw⟩]⟩,
  ⟨0x110004, [], 0, [⟨0, 0, .ro⟩, ⟨3, 1, .ro⟩, ⟨5, 4, .ro⟩, ⟨8, 6, .ro⟩, ⟨9, 9, .ro⟩, ⟨10, 10, .ro⟩, ⟨11, 11, .w1c⟩, ⟨23, 16, .ro⟩]⟩,
  ⟨0x110008, [], 0, [⟨15, 0, .ro⟩, ⟨31, 16, .ro⟩]⟩,
  ⟨0x11000C, [], 0, [⟨31, 0, .rc⟩]⟩]
/-- The register rows of the DPT block. -/
def regRowsDPT : List RegRow := [
  ⟨0x120000, [], 0x2C, [⟨0, 0, .rw⟩, ⟨3, 1, .rw⟩, ⟨5, 4, .rw⟩, ⟨6, 6, .rw⟩, ⟨7, 7, .rw⟩, ⟨8, 8, .w1s⟩]⟩,
  ⟨0x120004, [], 0, [⟨0, 0, .ro⟩, ⟨1, 1, .ro⟩, ⟨4, 2, .ro⟩, ⟨6, 5, .ro⟩, ⟨7, 7, .ro⟩, ⟨9, 8, .ro⟩, ⟨10, 10, .w1c⟩, ⟨23, 16, .ro⟩]⟩,
  ⟨0x120008, [], 0xC0, [⟨9, 0, .rw⟩, ⟨10, 10, .rw⟩, ⟨27, 16, .rw⟩]⟩,
  ⟨0x12000C, [], 0, [⟨31, 0, .rc⟩]⟩,
  ⟨0x120010, [], 0, [⟨31, 0, .rw⟩]⟩,
  ⟨0x120014, [], 0, [⟨7, 0, .rw⟩]⟩]
/-- The register rows of the WSK block. -/
def regRowsWSK : List RegRow := [
  ⟨0x0F0000, [], 0, [⟨0, 0, .w1s⟩, ⟨3, 1, .rw⟩]⟩,
  ⟨0x0F0004, [], 0, [⟨0, 0, .ro⟩, ⟨1, 1, .w1c⟩, ⟨4, 2, .ro⟩, ⟨5, 5, .w1c⟩, ⟨15, 8, .ro⟩, ⟨16, 16, .ro⟩, ⟨17, 17, .ro⟩]⟩,
  ⟨0x0F0008, [], 0, [⟨31, 0, .rw⟩]⟩,
  ⟨0x0F000C, [], 0, [⟨7, 0, .rw⟩]⟩,
  ⟨0x0F0010, [], 0, [⟨3, 0, .rw⟩]⟩,
  ⟨0x0F0014, [], 0xFFFF, [⟨15, 0, .ro⟩]⟩,
  ⟨0x0F0018, [], 0, [⟨31, 0, .ro⟩]⟩,
  ⟨0x0F001C, [], 0, [⟨31, 0, .ro⟩]⟩,
  ⟨0x0F0020, [(8, 0x4)], 0, [⟨31, 0, .ro⟩]⟩,
  ⟨0x0F0040, [], 0x7FFFFFFF, [⟨31, 0, .rc⟩]⟩,
  ⟨0x0F0080, [], 0, [⟨0, 0, .ro⟩, ⟨1, 1, .ro⟩, ⟨28, 16, .ro⟩]⟩,
  ⟨0x0F0084, [], 0xFFFF, [⟨15, 0, .rc⟩, ⟨31, 16, .rc⟩]⟩]
/-- The register rows of the LDM block, part 0. -/
def regRowsLDM0 : List RegRow := [
  ⟨0x100000, [], 0, [⟨0, 0, .rw⟩, ⟨4, 1, .rw⟩, ⟨6, 5, .rw⟩, ⟨7, 7, .rw⟩, ⟨8, 8, .rw⟩]⟩,
  ⟨0x100004, [], 0, [⟨0, 0, .ro⟩, ⟨1, 1, .w1c⟩, ⟨2, 2, .w1c⟩, ⟨3, 3, .w1c⟩, ⟨4, 4, .w1c⟩, ⟨5, 5, .w1c⟩, ⟨6, 6, .ro⟩, ⟨15, 8, .ro⟩]⟩,
  ⟨0x100008, [], 0x01360060, [⟨6, 0, .rw⟩, ⟨22, 16, .rw⟩, ⟨24, 24, .rw⟩, ⟨25, 25, .rw⟩]⟩,
  ⟨0x10000C, [], 0x01020200, [⟨12, 0, .rw⟩, ⟨20, 16, .rw⟩, ⟨24, 24, .rw⟩]⟩,
  ⟨0x100010, [], 0x402, [⟨7, 0, .rw⟩, ⟨9, 8, .rw⟩, ⟨10, 10, .rw⟩, ⟨11, 11, .rw⟩, ⟨12, 12, .rw⟩]⟩,
  ⟨0x100014, [], 0, [⟨15, 0, .rw⟩, ⟨31, 16, .rw⟩]⟩,
  ⟨0x100018, [], 0, [⟨15, 0, .rw⟩]⟩,
  ⟨0x10001C, [], 0x840, [⟨7, 0, .rw⟩, ⟨15, 8, .rw⟩]⟩,
  ⟨0x100020, [], 0x000410E4, [⟨12, 0, .rw⟩, ⟨23, 16, .rw⟩, ⟨24, 24, .rw⟩]⟩,
  ⟨0x100024, [], 0x3E8, [⟨15, 0, .rw⟩]⟩,
  ⟨0x100028, [], 0x00808080, [⟨7, 0, .rw⟩, ⟨15, 8, .rw⟩, ⟨23, 16, .rw⟩]⟩,
  ⟨0x10002C, [], 0x03E81000, [⟨15, 0, .rw⟩, ⟨25, 16, .rw⟩]⟩,
  ⟨0x100030, [], 0xFFFF0000, [⟨15, 0, .rw⟩, ⟨31, 16, .rw⟩]⟩,
  ⟨0x100034, [], 0x0000FFFF, [⟨15, 0, .rw⟩, ⟨27, 16, .rw⟩, ⟨31, 31, .rw⟩]⟩,
  ⟨0x100040, [], 0, [⟨31, 0, .rw⟩]⟩,
  ⟨0x100044, [], 0, [⟨7, 0, .rw⟩]⟩,
  ⟨0x100048, [], 0, [⟨31, 0, .rw⟩]⟩,
  ⟨0x10004C, [], 0, [⟨7, 0, .rw⟩]⟩,
  ⟨0x100050, [], 0, [⟨31, 0, .ro⟩]⟩,
  ⟨0x100054, [], 0, [⟨31, 0, .ro⟩]⟩]
/-- The register rows of the LDM block, part 1. -/
def regRowsLDM1 : List RegRow := [
  ⟨0x100058, [], 0, [⟨15, 0, .rc⟩, ⟨31, 16, .rc⟩]⟩,
  ⟨0x100100, [(162, 0x4)], 0xFFFFFFFF, [⟨31, 0, .ro⟩]⟩,
  ⟨0x100400, [(162, 0x4)], 0, [⟨31, 0, .w1c⟩]⟩,
  ⟨0x100700, [(162, 0x4)], 0, [⟨31, 0, .w1c⟩]⟩]
/-- The register rows of the LDM block. -/
def regRowsLDM : List RegRow := regRowsLDM0 ++ regRowsLDM1
/-- The register rows of the CFG block. -/
def regRowsCFG : List RegRow := [
  ⟨0x130000, [], 0, [⟨7, 0, .ro⟩, ⟨8, 8, .ro⟩, ⟨31, 16, .ro⟩]⟩,
  ⟨0x130004, [], 0, [⟨0, 0, .w1s⟩, ⟨3, 1, .rw⟩]⟩,
  ⟨0x130008, [], 0, [⟨31, 0, .rw⟩]⟩,
  ⟨0x13000C, [], 0, [⟨0, 0, .ro⟩, ⟨1, 1, .w1c⟩, ⟨2, 2, .w1c⟩, ⟨11, 8, .ro⟩]⟩,
  ⟨0x130010, [], 0, [⟨0, 0, .wo1⟩, ⟨1, 1, .wo1⟩]⟩,
  ⟨0x130014, [], 0, [⟨5, 0, .ro⟩, ⟨15, 8, .ro⟩, ⟨16, 16, .ro⟩]⟩,
  ⟨0x130100, [(64, 0x4)], 0, [⟨31, 0, .rw⟩]⟩,
  ⟨0x131000, [(512, 0x4)], 0, [⟨31, 0, .ro⟩]⟩]
/-- The register rows of the DBG block. -/
def regRowsDBG : List RegRow := [
  ⟨0x140000, [], 0, [⟨31, 0, .ro⟩]⟩,
  ⟨0x140004, [], 0, [⟨31, 0, .ro⟩]⟩,
  ⟨0x140008, [], 0, [⟨1, 0, .rw⟩, ⟨31, 31, .w1s⟩]⟩,
  ⟨0x14000C, [], 0, [⟨0, 0, .w1s⟩, ⟨1, 1, .w1s⟩]⟩,
  ⟨0x140010, [], 0, [⟨1, 0, .ro⟩, ⟨5, 4, .ro⟩, ⟨9, 8, .ro⟩, ⟨10, 10, .ro⟩, ⟨11, 11, .ro⟩, ⟨12, 12, .ro⟩, ⟨13, 13, .ro⟩]⟩,
  ⟨0x140020, [(8, 0x4)], 0, [⟨31, 0, .ro⟩]⟩,
  ⟨0x140040, [(8, 0x4)], 0, [⟨31, 0, .rw⟩]⟩,
  ⟨0x140080, [], 0, [⟨0, 0, .w1s⟩, ⟨1, 1, .rw⟩, ⟨11, 8, .rw⟩, ⟨14, 12, .rw⟩]⟩,
  ⟨0x140084, [], 0, [⟨31, 0, .rw⟩]⟩]

/-- The rows of the block at a BAR0 address, by the block map of R437. -/
def blockRows (a : Nat) : List RegRow :=
  if 0x400000 ≤ a then (if a < 0x4C0000 then regRowsCLU else [])
  else if 0x020000 ≤ a ∧ a < 0x060000 then regRowsDBL
  else match a / 0x10000 with
    | 0 => regRowsGLB
    | 1 => regRowsHIF
    | 6 => regRowsCPR
    | 7 => regRowsSCH
    | 8 => regRowsMMU
    | 9 => regRowsL2C
    | 10 => regRowsDMC
    | 11 => regRowsCPY
    | 12 => regRowsERR
    | 13 => regRowsPWR
    | 14 => regRowsDSP
    | 15 => regRowsWSK
    | 16 => regRowsLDM
    | 17 => regRowsDPR
    | 18 => regRowsDPT
    | 19 => regRowsCFG
    | 20 => regRowsDBG
    | _ => []

/-- The row of the register at a BAR0 address; none for a reserved offset (R14). -/
def regRow (a : Nat) : Option RegRow := (blockRows a).find? (fun r => r.covers a)


/-- The low words of the 64-bit registers (R10): first address and array dimensions. -/
def lowWords : List (Nat × List (Nat × Nat)) := [
  (0x400108, [(12, 0x10000), (4, 0x40)]),
  (0x400110, [(12, 0x10000), (4, 0x40)]),
  (0x400118, [(12, 0x10000), (4, 0x40)]),
  (0x400120, [(12, 0x10000), (4, 0x40)]),
  (0x400240, [(12, 0x10000), (4, 0x20)]),
  (0x400248, [(12, 0x10000), (4, 0x20)]),
  (0x400318, [(12, 0x10000)]),
  (0x400320, [(12, 0x10000)]),
  (0x400328, [(12, 0x10000)]),
  (0x400510, [(12, 0x10000)]),
  (0x400518, [(12, 0x10000)]),
  (0x400520, [(12, 0x10000)]),
  (0x400528, [(12, 0x10000)]),
  (0x000020, []),
  (0x010008, []),
  (0x060100, [(32, 0x20)]),
  (0x060800, [(64, 0x10)]),
  (0x070108, [(64, 0x10)]),
  (0x070800, [(32, 0x20)]),
  (0x070808, [(32, 0x20)]),
  (0x070810, [(32, 0x20)]),
  (0x08004C, [(4, 0x20)]),
  (0x080100, [(8, 0x10)]),
  (0x080108, [(8, 0x10)]),
  (0x080204, []),
  (0x080308, []),
  (0x080310, []),
  (0x080400, []),
  (0x090008, []),
  (0x090100, [(4, 0x10)]),
  (0x090108, [(4, 0x10)]),
  (0x090808, []),
  (0x0A0104, []),
  (0x0A0140, [(16, 0x8)]),
  (0x0A0204, []),
  (0x0A0400, [(16, 0x10)]),
  (0x0B0008, []),
  (0x0B0010, []),
  (0x0B0028, []),
  (0x0B0040, []),
  (0x0D0018, []),
  (0x0D0020, []),
  (0x0D0030, []),
  (0x0D0048, []),
  (0x0D0050, []),
  (0x0D0058, []),
  (0x0E0220, [(2, 0x40), (4, 0x8)]),
  (0x0E1008, [(8, 0x100)]),
  (0x0E1010, [(8, 0x100)]),
  (0x120010, []),
  (0x0F0008, []),
  (0x100040, []),
  (0x100048, []),
  (0x140000, [])]

/-- Whether an address is the low word of a 64-bit register. -/
def isLowWord (a : Nat) : Bool := lowWords.any (fun r => decide (r.1 ≤ a) && dimsCover r.2 (a - r.1))

end Sys2Proof.Machine
end

