-- ==== Sys2Proof/Machine/Sparse.lean ====
section
/-! DEFINITION. Sparse maps from natural keys: lists of key and value in rising key order. The one representation of
registers, memories and per-lane register files. What an unlisted key reads as is said where a map is used. -/

namespace Sys2Proof.Machine

/-- The value listed for a key, if any. -/
def Sparse.find {α : Type} : List (Nat × α) → Nat → Option α
  | [], _ => none
  | (k, v) :: t, a => if k = a then some v else Sparse.find t a

/-- List a value for a key, in key order, replacing an earlier one. -/
def Sparse.put {α : Type} : List (Nat × α) → Nat → α → List (Nat × α)
  | [], a, w => [(a, w)]
  | (k, v) :: t, a, w =>
    if a = k then (a, w) :: t
    else if a < k then (a, w) :: (k, v) :: t
    else (k, v) :: Sparse.put t a w

/-- Unlist a key. -/
def Sparse.drop {α : Type} (m : List (Nat × α)) (a : Nat) : List (Nat × α) :=
  m.filter (fun p => p.1 != a)

/-- The value of a key where an unlisted key reads as `d`. -/
def Sparse.get {α : Type} (m : List (Nat × α)) (d : α) (a : Nat) : α :=
  match Sparse.find m a with
  | some v => v
  | none => d

/-- Write a key's value where an unlisted key reads as `d`: writing `d` unlists the key. -/
def Sparse.set {α : Type} [DecidableEq α] (m : List (Nat × α)) (d : α) (a : Nat) (w : α) : List (Nat × α) :=
  if w = d then Sparse.drop m a else Sparse.put m a w

/-- Keys rise strictly. -/
def Sparse.sorted {α : Type} : List (Nat × α) → Bool
  | [] => true
  | [_] => true
  | (k, _) :: (k', v') :: t => decide (k < k') && Sparse.sorted ((k', v') :: t)

/-- The canonical form: strictly rising keys, and no entry equal to what its key reads as when unlisted. -/
def Sparse.canon {α : Type} [DecidableEq α] (d : Nat → α) (m : List (Nat × α)) : Bool :=
  Sparse.sorted m && m.all (fun p => decide (p.2 ≠ d p.1))

/-- Unlist every key of `[lo, lo + n)`. -/
def Sparse.dropRange {α : Type} (m : List (Nat × α)) (lo n : Nat) : List (Nat × α) :=
  m.filter (fun p => !(lo ≤ p.1 && p.1 < lo + n))

/-- The entries whose keys lie in `[lo, lo + n)`. -/
def Sparse.range {α : Type} (m : List (Nat × α)) (lo n : Nat) : List (Nat × α) :=
  m.filter (fun p => lo ≤ p.1 && p.1 < lo + n)

/-- List every entry of the second map over the first. -/
def Sparse.merge {α : Type} (m : List (Nat × α)) : List (Nat × α) → List (Nat × α)
  | [] => m
  | (k, v) :: t => Sparse.merge (Sparse.put m k v) t

end Sys2Proof.Machine
end

