-- ==== Sys2Proof/Machine/State.lean ====
section
/-! DEFINITION. The state of the S840: every register, memory, queue, counter, mode and pin the spec gives the block, the
queue of waiting commands, and the reset state. All of it is plain data. Registers of BAR0 live in one sparse map. -/

namespace Sys2Proof.Machine

/-- The reasons a command can stop the machine with a fault. No command of the model does: every error the spec gives
the S840 is an effect on its state. Safe. -/
inductive Fault where
  /-- No command raises it; the type needs a constructor. Safe. -/
  | none
  deriving DecidableEq, Repr

/-- The reasons a command can be refused. -/
inductive Refusal where
  /-- A command without a meaning yet. Raised by the dispatch alone. Safe. -/
  | notModelled (mnemonic : String)
  deriving DecidableEq, Repr

/-! ## Outputs -/

/-- How the DisplayPort transmitter carries a composed line (R284, R287, R292): not at all over an idle link, as its codes, or as
DSC-encoded bytes; encrypted or not. -/
inductive LinkLine where
  | idle
  | plain (encrypted : Bool)
  | dsc (bytes : List Byte) (encrypted : Bool)
  deriving DecidableEq, Repr

/-- What the S840 gives the outside: completions, posted writes, messages, bytes and levels on its interfaces. -/
inductive Output where
  | readData (p : Path) (v : Word)
  | bar2Data (bytes : List Byte) (poisoned : Bool)
  | hostWrite (addr : Nat) (bytes : List (Option Byte)) (noSnoop : Bool)
  | hostRead (addr : Nat) (len : Nat) (noSnoop : Bool)
  | hostAtomic (addr : Nat) (op : Nat) (bytes : List Byte)
  | msix (vec : Nat) (addr : Nat) (data : Word)
  | i2c (bytes : List Byte)
  | i2cNack
  | aux (bytes : List Byte)
  | spi (port mode : Nat) (words : List Nat)
  | ldSync (width : Nat) (high : Bool)
  | jtag (bits : Nat)
  | pixels (line : Nat) (codes : List Nat) (link : LinkLine)
  | msa (words : List Nat)
  | pps (words : List Nat)
  | pmbus (rail : Nat) (mv : Nat)
  | pmbusClear (rail : Nat)
  | firmware (cause : Nat) (value : Nat)
  deriving DecidableEq, Repr

/-! ## Error collector (chapter 16) -/

/-- A record waiting in Hearth SRAM while ERR is not running (R558), with its detection time. -/
structure HeldRecord where
  rec_ : ErrRecord
  time : Nat
  deriving DecidableEq, Repr

/-- The collector's state beside the ERR registers: drops not yet reported (R560), held records (R558), the fatal reset
timer (R563). -/
structure ErrState where
  dropCount : Nat
  dropFirst : Nat
  held : List HeldRecord
  heldDrops : List Nat
  fatalAt : Option Nat
  deriving DecidableEq, Repr

/-- The state of the debug port beside the DBG registers (R573 to R578); `coreRegs` are the registers of the cores that CORE_DBG has
written (core × 2¹⁶ + number), the others being free. -/
structure DbgState where
  scope : Nat
  challenge : Option Nat
  chalReq : Nat
  fails : Nat
  lockedOut : Bool
  coreOpened : Bool
  otp : List (Nat × Word)
  ir : Nat
  boundary : Nat
  halted : List Nat
  chalAt : Nat
  coreRegs : List (Nat × Word)
  deriving DecidableEq, Repr

/-! ## Host link (chapter 12) -/

/-- What a read of host memory is for: bytes of a line of a kernel's access from an offset in the line on (a lane's atomic names the
lane), a walk descriptor, the closing read of a system-scope release by a group or before a unit's Ladle entries (R86, R87), or a DMA
channel of the firmware. -/
inductive HostReadFor where
  | kernel (core slot op line off : Nat)
  | walk (id : Nat)
  | fence (core slot : Nat)
  | release (q seq : Nat)
  | dma (channel : Nat)
  deriving DecidableEq, Repr

/-- A non-posted request on the host link that has not completed (R435, R436). -/
structure HostRead where
  id : Nat
  unit : Nat
  ctx : Nat
  addr : Nat
  len : Nat
  since : Nat
  for_ : HostReadFor
  abandoned : Bool
  deriving DecidableEq, Repr

/-- The host interface beside the HIF registers: the fields of configuration space the S840 reads (R435, R436, R440),
outstanding reads, unsent posted writes, hold-off state per vector (R448), the I²C inbox and outbox (R457), the I²C
target (R454, R455) and PCIE_WAKE_N (R453). -/
structure HifState where
  bar0 : Option Nat
  bar2 : Option Nat
  bar2Log2 : Nat
  memDecode : Bool
  msixEnable : Bool
  funcMask : Bool
  ctv : Nat
  d3hot : Bool
  requesterId : Nat
  linkL2 : Bool
  reads : List HostRead
  nextRead : Nat
  unsent : List Output
  lastMsg : List (Nat × Nat)
  merged : List (Nat × Nat)
  hostAtomic : Nat
  inbox : Word
  inboxFull : Bool
  outbox : Word
  outboxFull : Bool
  i2cAddressed : Bool
  sclHeld : Bool
  wakeN : Bool
  deriving DecidableEq, Repr

/-! ## DRAM and L2 (chapters 13 and 4) -/

/-- The marks of one 32-byte code word of a protected region (R466, R467, R470): written, a stored single-bit error, a
stored uncorrectable error, poison. -/
structure CwMark where
  written : Bool
  single : Bool
  bad : Bool
  poison : Bool
  deriving DecidableEq, Repr

/-- The marks of a code word nothing has written. -/
def CwMark.clear : CwMark := ⟨false, false, false, false⟩

/-- One region of the active map (R465): raw size in 512 MiB units and protection. -/
structure Region where
  raw : Nat
  prot : Bool
  deriving DecidableEq, Repr

/-- External memory: the bytes by device physical address (a remapped line keeps its address, R473), the marks of
protected code words, the active map, and what the controllers keep beside their registers. -/
structure DramState where
  bytes : List Host.Cell
  marks : List (Nat × CwMark)
  map : List Region
  lastCorr : List (Nat × Nat)
  lastScrub : List (Nat × Nat)
  lastZq : Nat
  powerDown : List (Nat × Bool)
  selfRefresh : Bool
  mr4 : List (Nat × Nat)
  lastReq : List (Nat × Nat)
  deriving DecidableEq, Repr

/-- An L2 maintenance operation (R161) with its line range, and the packet unit that asked for it, if any. -/
structure L2Maint where
  op : Nat
  addr : Nat
  lines : Nat
  unit : Option (Nat × Nat)
  deriving DecidableEq, Repr

/-- The L2 (R157, R159 to R163): the bytes written and not yet written back, the resident lines (true: poisoned), the
maintenance operations running and waiting; while way-mask writes are held under R162, the masks that still apply, and how many of
the operations, from the oldest, they wait for; and the errors of resident lines that nothing has met yet (R163). -/
structure L2State where
  dirty : List Host.Cell
  lines : List (Nat × Bool)
  dirtyPoison : List (Nat × Bool)
  queue : List L2Maint
  oldMask : List (Nat × Nat)
  maskWait : Nat
  errs : List (Nat × LineError)
  deriving DecidableEq, Repr

/-! ## Address translation (chapter 11) -/

/-- The kinds of access the MMU distinguishes (MMU_FAULT_STATUS.ACCESS). -/
inductive AccessKind where
  | read | write | exec | atomic
  deriving DecidableEq, Repr

/-- The class of an output address (R407, R408). -/
inductive OutClass where
  | device | mmio | host | self
  deriving DecidableEq, Repr

/-- The TLB structures of R412. -/
inductive TlbId where
  | core (n : Nat)
  | cluster (k : Nat)
  | display
  | copy
  | command
  deriving DecidableEq, Repr

/-- A TLB entry (R412): tags, then output address, class, wr, ex, DV, the level of its leaf; `pinned` under R427. -/
structure TlbEntry where
  tlb : TlbId
  asid : Nat
  host : Bool
  va : Nat
  size : Nat
  out : Nat
  cls : OutClass
  wr : Bool
  ex : Bool
  dv : Bool
  level : Nat
  pinned : Bool
  deriving DecidableEq, Repr

/-- A cached table descriptor (R412): the table of one level for the input addresses that share its upper bits, with the
permissions gathered above it. -/
structure WalkCacheEntry where
  asid : Nat
  host : Bool
  level : Nat
  lo : Nat
  prefix_ : Nat
  table : Nat
  wr : Bool
  ex : Bool
  deriving DecidableEq, Repr

/-- A walk in progress (R405, R412): for one context, one regime and one input address, at a level, with the descriptor
address whose read is outstanding. `covered` under R420. -/
structure Walk where
  id : Nat
  ctx : Nat
  asid : Nat
  host : Bool
  ia : Nat
  va : Nat
  access : AccessKind
  unit : Nat
  tlb : TlbId
  level : Nat
  addr : Nat
  cls : OutClass
  wr : Bool
  ex : Bool
  covered : Bool
  deriving DecidableEq, Repr

/-- A withdrawal (R418 to R423): of the packet path (its queue and sequence number) or of the register path (its
generation); the reads and writes it waits for are counted when it takes effect. -/
structure Withdrawal where
  packet : Option (Nat × Nat)
  gen : Nat
  ctx : Nat
  whole : Bool
  host : Bool
  leaf : Bool
  addr : Nat
  pages : Nat
  effective : Bool
  waits : List (Nat × Nat × Nat)
  deriving DecidableEq, Repr

/-- One ADVISE range (R426) in pages: preferred location, read-mostly, accessed-by, each where the range sets it. -/
structure Advice where
  addr : Nat
  pages : Nat
  loc : Option Nat
  mostly : Option Bool
  clusters : Option Nat
  deriving DecidableEq, Repr

/-- A host page of a migrated block (R428): its address, and what the walk to it gave of execution and of its leaf's level. -/
structure MigPage where
  addr : Nat
  ex : Bool
  level : Nat
  deriving DecidableEq, Repr

/-- One block of the migration area that is in use (R428, R429): its number, the host-window address, the recorded host
pages, and whether it is a duplicate. -/
structure MigBlock where
  block : Nat
  va : Nat
  pages : List MigPage
  duplicate : Bool
  deriving DecidableEq, Repr

/-- The MMU beside its registers: TLBs, walk caches, walks, withdrawals of both paths. -/
structure MmuState where
  tlb : List TlbEntry
  wcache : List WalkCacheEntry
  walks : List Walk
  nextWalk : Nat
  inval : List Withdrawal
  pinval : List Withdrawal
  deriving DecidableEq, Repr

/-! ## Contexts, queues and units (chapter 9) -/

/-- The translation block (R401). -/
structure Xlat where
  asid : Nat
  dlayout : Nat
  hlayout : Nat
  hostEn : Bool
  dout : Bool
  root : Nat
  hostRoot : Nat
  hostBase : Nat
  devBase : Nat
  winGiB : Nat
  migBase : Nat
  migBlocks : Nat
  deriving DecidableEq, Repr

/-- One memory object (R332). -/
structure MemObject where
  base : Nat
  size : Nat
  noSnoop : Bool
  pref : Nat
  mostly : Bool
  ecc : Nat
  deriving DecidableEq, Repr

/-- What the command processor read at the enable of a context (R325, R327, R333), what the MMU keeps for it, and the part of a core-tick
that its compute counter carries (R374). -/
structure Ctx where
  save : Nat
  obj : Nat
  objCount : Nat
  lostEvent : Nat
  lostEn : Bool
  xlat : Xlat
  objects : List MemObject
  advice : List Advice
  blocks : List MigBlock
  cmpRem : Nat
  deriving DecidableEq, Repr

/-- One Griddle buffer descriptor (the layout table of chapter 4): KIND 0 unused, 1 plain, 2 inbound, 3 outbound. -/
structure GrdBuf where
  base : Nat
  kind : Nat
  units : Nat
  slots : Nat
  count : Nat
  deriving DecidableEq, Repr

/-- A kernel dispatch (R346) with its grid once known, its Griddle layout, the pointer window at its start (R89), the
blocks placed so far and the clusters on which a block has been placed. -/
structure Kernel where
  code : Nat
  args : Nat
  gx : Nat
  gy : Nat
  gz : Nat
  dx : Nat
  dy : Nat
  dz : Nat
  regs : Nat
  split : Nat
  shared : Nat
  griddle : Nat
  tongs : Nat
  tongsArg : Nat
  clusters : Nat
  indirect : Bool
  deadline : Nat
  gridAddr : Nat
  bufs : List GrdBuf
  hostBase : Nat
  devBase : Nat
  winGiB : Nat
  next : Nat
  live : Nat
  deriving DecidableEq, Repr

/-- The operands of a copy or fill (R166, R348). -/
structure CopyOp where
  fill : Bool
  patBytes : Nat
  src : Nat
  dst : Nat
  spitch : Nat
  dpitch : Nat
  width : Nat
  height : Nat
  pat : Nat
  deriving DecidableEq, Repr

/-- The kinds of units (R322). A maintenance unit carries its opcode and its body. -/
inductive UnitKind where
  | dispatch (k : Kernel)
  | copy (c : CopyOp)
  | maint (op : Nat) (body : List Word)
  | pass (id : Nat)
  | step (slot maxb program length batch event : Nat) (en : Bool)
  deriving DecidableEq, Repr

/-- A unit of work (R322, R323): order bit, the stream position after its packet, when it started, its pending Ladle
entries, its completion status once complete (R324), and MAX_RUN in ms at its start (R391). `inStep` marks a unit of a token
step's program. -/
structure WorkUnit where
  seq : Nat
  order : Bool
  startPtr : Nat
  endPtr : Nat
  kind : UnitKind
  started : Option Nat
  entries : Nat
  status : Option Nat
  inStep : Bool
  limit : Nat
  deriving DecidableEq, Repr

/-- One open loop level (R357): remaining count, the position after the LOOP packet, and whether it lies in the ring. -/
structure LoopLevel where
  count : Nat
  body : Nat
  inRing : Bool
  deriving DecidableEq, Repr

/-- What holds a queue (R354, R356): an event wait or a memory wait, with its deadline if any. -/
inductive QWait where
  | event (e mode g : Nat) (consume : Bool) (until_ : Option Nat)
  | mem (addr mask ref func poll : Nat) (nextPoll : Nat) (until_ : Option Nat)
  deriving DecidableEq, Repr

/-- An indirect buffer or step program being executed (R358, R364): address, length, position, whether it is a step program, and one whose
step is refused. -/
structure Stream where
  addr : Nat
  len : Nat
  pos : Nat
  step : Bool
  refused : Bool
  deriving DecidableEq, Repr

/-- A queue beside its registers (R334 to R345, R375, R378): its descriptor, the position of the next packet in the ring,
sequence counters, loops, buffer, wait, started and waiting units, the pass being built, the error words of the status
block, virtual time with its remainder, copy virtual time, the remainder of charged time, when it became placeable, the WPTR a Quench recorded,
and the sequence numbers and completion statuses of the units that retired last, together (R324, R343). -/
structure Queue where
  ctx : Nat
  rt : Bool
  ring : Nat
  log2 : Nat
  status : Nat
  errVec : Nat
  errIe : Bool
  fetch : Nat
  seq : Nat
  retired : Nat
  loops : List LoopLevel
  stream : Option Stream
  wait : Option QWait
  units : List WorkUnit
  pass : Option Nat
  errPtr : Nat
  errStatus : Nat
  errCount : Nat
  lostFirst : Nat
  lostLast : Nat
  lostGen : Nat
  v : Nat
  vRem : Nat
  copyV : Nat
  copyRem : Nat
  timeRem : Nat
  placeableSince : Option Nat
  quenchWptr : Nat
  ended : List (Nat × Nat)
  deriving DecidableEq, Repr

/-- One extent of a slot (R360). -/
structure Extent where
  addr : Nat
  dirty : Bool
  goff : Nat
  len : Nat
  deriving DecidableEq, Repr

/-- A defined model slot (R360, R361, R396): owner, descriptor, residency, free pages of the pool (by index, ascending),
step count, the step that runs on it (queue and sequence number). -/
structure Slot where
  ctx : Nat
  clusters : Nat
  cstride : Nat
  pool : Nat
  poolPages : Nat
  kvBytes : Nat
  extents : List Extent
  resident : Bool
  usedPages : List Nat
  steps : Nat
  running : Option (Nat × Nat)
  deriving DecidableEq, Repr

/-- A sequence (R362, R363, R395): owner, slot, record address, what the command processor owns, its pages, its place in
the orders of submission, admission and stepping, a cancel executed, its place in the running batch. -/
structure Sequence where
  ctx : Nat
  slot : Nat
  record : Nat
  active : Bool
  cancel : Bool
  tokens : Nat
  new : Nat
  maxTokens : Nat
  pagesAddr : Nat
  input : Nat
  out : Nat
  outSize : Nat
  outCount : Nat
  event : Nat
  eventEn : Bool
  pages : List Nat
  submitted : Nat
  admitNo : Nat
  lastStep : Nat
  first : Bool
  inBatch : Bool
  deriving DecidableEq, Repr

/-! ## Cores (chapters 2 and 3) -/

/-- An entry of the divergence stack (R66). -/
inductive DivEntry where
  | split (mask : Word)
  | path (pc : Nat) (mask : Word)
  deriving DecidableEq, Repr

/-- What keeps a group from issuing (R59): nothing, a barrier (with the lowest lane that arrived there), an arrival that waits for
the group's earlier accesses (R75: barrier, count, whether it then waits, lowest lane), a fence, a ring credit, a yield, or an
exception that stopped it (R95). -/
inductive GroupWait where
  | ready
  | barrier (b low : Nat)
  | arrive (b cnt : Nat) (waits : Bool) (low : Nat)
  | fence (acquire : Bool) (scope : Nat)
  | credit (buf : Nat) (slot : Nat)
  | yield
  | stopped
  deriving DecidableEq, Repr

/-- The kinds of memory operation a group has in flight. -/
inductive MemKind where
  | load | store | atomic (op : Nat) (cmp : Bool)
  deriving DecidableEq, Repr

/-- Where one line of a global access stands (R78): waiting for its walk, sent to an output address, arrived with its
bytes, or with poisoned data, a posted write that the host interface sends onto the link (R86), performed. -/
inductive LineState where
  | walk (id : Nat)
  | sent (cls : OutClass) (out : Nat) (dv : Bool)
  | arrived (cls : OutClass) (out : Nat) (bytes : List (Option Byte))
  | poisoned (out : Nat)
  | posted (o : Output)
  | performed
  deriving DecidableEq, Repr

/-- One line request; `fill` is false once the core has stored to the line or sent an atomic to it after the request: what then
arrives is older than that and does not enter the L1 (R81, R85). -/
structure LineReq where
  va : Nat
  st : LineState
  fill : Bool
  deriving DecidableEq, Repr

/-- One lane's part of an access: lane, address, store or operand value, swap value, and the value returned. -/
structure LaneAcc where
  lane : Nat
  addr : Nat
  val : Nat
  val2 : Nat
  got : Option Nat
  deriving DecidableEq, Repr

/-- A global memory operation in flight (R78 to R84): its instruction's address, width in bytes, sign
extension, policy, destination, lanes, lines, and the bytes that have arrived of lines whose requests are not all complete, by
address. -/
structure MemOp where
  id : Nat
  pc : Nat
  kind : MemKind
  width : Nat
  sext : Bool
  signed : Bool
  policy : Nat
  dst : Nat
  lanes : List LaneAcc
  lines : List LineReq
  part : List (Nat × Byte)
  deriving DecidableEq, Repr

/-- A resident group (R44, R66, R91): its block slot and number, program counter, masks, divergence stack (top first),
flags (flag to lane mask), registers (lane × 256 + index), wait state, operations in flight, the latest host write since
the last system release (R86), the captured high word of SR_TIME. -/
structure Group where
  block : Nat
  num : Nat
  pc : Nat
  active : Word
  live : Word
  stack : List DivEntry
  flags : List (Nat × Word)
  regs : List (Nat × Word)
  wait : GroupWait
  ops : List MemOp
  hostWrite : Option Nat
  timeHi : Option Word
  deriving DecidableEq, Repr

/-- A barrier phase (R72, R74): the count its first arrival fixed, the groups that have arrived, those that wait. -/
structure Barrier where
  count : Option Nat
  arrived : List Nat
  waiting : List Nat
  bad : Bool
  deriving DecidableEq, Repr

/-- What a stage group of a draw pass holds beside its registers (R180, R181): the stage (0 vertex, 1 hull, 2 domain, 3
fragment), the number of its work in the pass, the lanes active at its start, the sizes of its Griddle buffers, their place in the
stage pool, and their bytes (buffer × 2²⁴ + offset). A byte of buffer 14 that the group has not written is free, drawn under `free`. -/
structure StageRun where
  stage : Nat
  work : Nat
  start : Word
  sizes : List (Nat × Nat)
  pool : Nat
  data : List (Nat × Byte)
  free : Nat
  deriving DecidableEq, Repr

/-- A resident block: queue, unit, context, its index in the grid, its kernel, its shared memory (an unlisted byte is 0,
R51), the bytes of it with a parity error (R158), and its barriers. `stage` is what a stage group runs (R181). -/
structure Block where
  q : Nat
  seq : Nat
  ctx : Nat
  index : Nat
  kernel : Kernel
  groups : Nat
  smem : List (Nat × Byte)
  smemBad : List Nat
  bars : List (Nat × Barrier)
  stage : Option StageRun
  deriving DecidableEq, Repr

/-- An L1 line (R78, R81): its class and line number, its bytes as they were fetched or stored, and a parity error (R158). -/
structure L1Line where
  cls : OutClass
  line : Nat
  bytes : List (Option Byte)
  parity : Bool
  deriving DecidableEq, Repr

/-- The instruction that a core issued first in its latest cycle (R61): slot, port, PAIR, whether it is of class BR or SYNC, the
registers it names and those it writes, and the flags it reads and writes. -/
structure FirstIssue where
  slot : Nat
  portB : Bool
  pair : Bool
  alone : Bool
  regs : List (Nat × Nat)
  writes : List (Nat × Nat)
  flagsIn : List Nat
  flagsOut : List Nat
  deriving DecidableEq, Repr

/-- A core (R44, R60, R82, R157): blocks by block slot, groups by group slot, L1, port pointers, split, the units whose kernel has
started on it, and the instruction issued first in the latest cycle, with which a second one may pair (R61). The lines of its
micro-TLB live in the MMU. -/
structure Core where
  blocks : List (Nat × Block)
  groups : List (Nat × Group)
  l1 : List L1Line
  ptrA : Nat
  ptrB : Nat
  split : Nat
  nextOp : Nat
  kernels : List (Nat × Nat)
  first : Option FirstIssue
  deriving DecidableEq, Repr

/-- The core as every reset leaves it: nothing resident, both port pointers at slot 63 (R60). -/
def Core.empty : Core := ⟨[], [], [], 63, 63, 0, 0, [], none⟩

/-! ## Clusters: Griddle, Tongs, modes (chapters 4 and 10) -/

/-- A ring of a kernel on a cluster (R145, R146): FILL, FREE, the engine's next slot, release or post counts per slot. -/
structure Ring where
  fill : Nat
  free : Nat
  next : Nat
  counts : List (Nat × Nat)
  deriving DecidableEq, Repr

/-- A scratch allocation (R138): owner, region, place in the region and size in 256-byte units, its buffers, its rings by buffer number, its
bytes (an unlisted byte is 0). -/
structure Scratch where
  q : Nat
  seq : Nat
  ctx : Nat
  rt : Bool
  base : Nat
  size : Nat
  bufs : List GrdBuf
  rings : List (Nat × Ring)
  data : List (Nat × Byte)
  deriving DecidableEq, Repr

/-- A Tongs copy that has begun (R149, R153): direction, buffer, Griddle offset in the scratch, memory address, rows. -/
structure TongsCopy where
  id : Nat
  toGrd : Bool
  buf : Nat
  slot : Nat
  goff : Nat
  addr : Nat
  pitch : Nat
  len : Nat
  rows : Nat
  deriving DecidableEq, Repr

/-- The state of a Tongs program context (R151, R154): `ended` has stopped, `done` has also completed its copies and posted its
Ladle entry. -/
inductive TongsRun where
  | running | waitFree | waitFilled | waitFence | preempted | ended | done
  deriving DecidableEq, Repr

/-- A Tongs program context (R151): its kernel's unit, program counter, a0 to a7, open loop levels (remaining count and
body address), state, copies begun, and whether the kernel's last block has exited (R154). -/
structure Tongs where
  q : Nat
  seq : Nat
  ctx : Nat
  pc : Nat
  a : List Nat
  loops : List (Nat × Nat × Nat)
  run : TongsRun
  copies : List TongsCopy
  nextCopy : Nat
  buf : Nat
  lastExited : Bool
  deriving DecidableEq, Repr

/-- The modes of a cluster (R32, R33). -/
inductive Mode where
  | compute | graphics
  deriving DecidableEq, Repr

/-- What a preemption request takes off a cluster. -/
inductive PreemptScope where
  | normal
  | context (c : Nat)
  | aboveV (v : Nat)
  | noScratch
  deriving DecidableEq, Repr

/-- A preemption request not yet answered (R388, R389, R392): when it was made and everything it takes. -/
structure Preempt where
  since : Nat
  scopes : List PreemptScope
  deriving DecidableEq, Repr

/-- A preempted block: its block, its groups, the core it was taken off, whether it may resume only on that core's cluster,
whether it lies in the reserve (R91, R92, R136, R139, R157), and where its state begins there or in DRAM. -/
structure SavedBlock where
  block : Block
  groups : List Group
  core : Nat
  bound : Bool
  inReserve : Bool
  base : Nat
  deriving DecidableEq, Repr

/-- A cluster beside its registers (R134, R135, R381, R384 to R388): effective and pending Griddle regions, the Griddle bytes with an error
that nothing has met yet (true: uncorrectable, R140), scratch allocations, slot-region bytes, the two Tongs contexts, mode, drain for a switch, switch under way, unanswered preemption,
saved blocks, reserve usage in the window by queue, when it last had graphics work, its last slice preemption. -/
structure Cluster where
  region : Nat
  pendRegion : Option Nat
  errs : List (Nat × Bool)
  scratch : List Scratch
  slotData : List Host.Cell
  tongsN : Option Tongs
  tongsR : Option Tongs
  mode : Mode
  drain : Option Nat
  switchTo : Option Mode
  preempt : Option Preempt
  saved : List SavedBlock
  usage : List (Nat × Nat)
  idleSince : Nat
  lastSlice : Option Nat
  gfxUnit : Option (Nat × Nat)
  deriving DecidableEq, Repr

/-- The cluster after reset: the Griddle regions of CLU_GRD_REGION's reset value, compute mode, nothing held. -/
def Cluster.empty : Cluster :=
  ⟨0x11C, none, [], [], [], none, none, .compute, none, none, none, [], [], 0, none, none⟩

/-- A copy-engine channel (R166, R378): the copy of a queue's unit, or the direct path's on the fifth entry. -/
structure CopyRun where
  q : Nat
  seq : Nat
  ctx : Nat
  op : CopyOp
  suspended : Bool
  deriving DecidableEq, Repr

/-- A Ladle entry with the time stamp its acceptance gave it (R164). -/
structure LadleHeld where
  entry : LadleEntry
  time : Nat
  deriving DecidableEq, Repr

/-- A context whose running work is being stopped (R329, R331): the unit that faulted it, or a kill. -/
structure Losing where
  ctx : Nat
  unit : Option (Nat × Nat)
  kill : Bool
  deriving DecidableEq, Repr

/-- The scheduler and the command processor beside their registers: SCH_WINDOW held for the next window (R381), pending
SCH_GFX_CTRL (R386), a Quench under way with its cause (R566), faults
held during it (R568), the copy channels, the Ladle and its stalled sources, entries that wait for the closing read of their unit's
release with the latest host write of each unit since its last (R87), contexts whose work is being stopped, step and submission counters. -/
structure SchedState where
  windowPend : Option Nat
  windowLen : Nat
  gfxMask : Nat
  gfxMax : Nat
  quench : Option (Nat × Nat)
  heldFaults : List (Nat × Nat × Nat)
  heldKills : List Nat
  copies : List (Nat × CopyRun)
  copyWait : List (Nat × CopyRun)
  ladle : List LadleHeld
  stalled : List LadleEntry
  closing : List LadleEntry
  hostWrites : List (Nat × Nat × Option Nat)
  losing : List Losing
  order : Nat
  deriving DecidableEq, Repr

/-! ## Display, flow, dimming, DisplayPort (chapters 6 to 8) -/

/-- A writeback tap between registers (R281 to R283): the buffer the rotation takes next, and the frame it is writing:
its buffer, its DSP_FRAME, whether it was dropped, whether its last line is written, the sums of its partial block row. -/
structure TapRun where
  next : Nat
  cur : Option Nat
  frame : Nat
  dropped : Bool
  written : Bool
  acc : List Int
  deriving DecidableEq, Repr

/-- The composition beside its registers (R259 to R283, R292, R293): timing running, the accepted configuration that
waits and when it was accepted, layers transparent to the end of the frame, enables the next deadline clears, layers with
an underrun record in this frame, layers that show a protected frame (with its type), the taps, and the time of
the last fetch deadline (R232, R238). -/
structure DispState where
  running : Bool
  accepted : Option (List (Nat × Word))
  acceptedAt : Nat
  skip : List Nat
  layersOff : List Nat
  tapsOff : List Nat
  faultAtNext : List Nat
  tapFaultAtNext : List Nat
  underRec : List Nat
  prot : List (Nat × Nat)
  blocked : List Nat
  tap0 : TapRun
  tap1 : TapRun
  fetchAt : Int
  deriving DecidableEq, Repr

/-- A flow descriptor with its network set (R226, R227). -/
structure FlowDesc where
  addr : Nat
  mode : Nat
  input : Nat
  gate : Bool
  warp : Bool
  ctx : Nat
  queue : Nat
  p : Nat
  q : Nat
  nsrc : Nat
  nbuf : Nat
  srcW : Nat
  srcH : Nat
  fmt : Nat
  srcPitch : Nat
  outW : Nat
  outH : Nat
  outPitch : Nat
  leadUs : Nat
  alphaMax : Nat
  layer : Nat
  srcTimeout : Nat
  event : Nat
  eventEn : Bool
  logLog2 : Nat
  sigSlot : Nat
  log : Nat
  net : Nat
  motion : Nat
  gatemap : Nat
  sigExport : Nat
  rp0 : Nat
  rp1 : Nat
  src : List Nat
  out : List Nat
  sr : Nat
  mf : Nat
  fg : Nat
  argRing : Nat
  inW : Nat
  inH : Nat
  noutW : Nat
  noutH : Nat
  halo : Nat
  deriving DecidableEq, Repr

/-- A source frame the flow holds (R234 to R236): counter, buffer, protection (0 none, else HDCP type plus 1), and whether
QUEUE still holds its invocations for their gate maps (R242). -/
structure FlowSource where
  k : Nat
  buf : Nat
  prot : Nat
  held : Bool
  deriving DecidableEq, Repr

/-- The kinds of invocation of a flow (R237). -/
inductive InvKind where
  | sign | mf | sr | fg
  deriving DecidableEq, Repr

/-- The status of an invocation. -/
inductive InvStatus where
  | queued | done | cancelled
  deriving DecidableEq, Repr

/-- One invocation (R228, R237 to R242): source counter k (SR of k; MF and FG of the pair (k, k + 1); the signature
operation of k), output frame and phase of an FG, sequence number on QUEUE, output buffer, motion field's space or export
record, argument block, gate map, cancel deadline (0: none), gated tiles, when it was queued or completed, its status, the
cause the log gives when it is lost, the protection of what it makes, whether it is an SR whose previous result does not exist (R243). -/
structure Invocation where
  kind : InvKind
  k : Nat
  frame : Nat
  phase : Nat
  seq : Nat
  buf : Nat
  block : Option Nat
  map : Option Nat
  cancelAt : Nat
  gated : Nat
  at_ : Nat
  status : InvStatus
  cause : Nat
  prot : Nat
  fresh : Bool
  deriving DecidableEq, Repr

/-- A completed super-resolved frame that later invocations read (R239): its source, buffer and protection. -/
structure Anchor where
  k : Nat
  buf : Nat
  prot : Nat
  deriving DecidableEq, Repr

/-- The last completed frame (R239, R246): its position, the addresses it is read at, protection, and whether it is a source
shown directly. -/
structure ShownFrame where
  k : Nat
  phase : Nat
  buf : Nat
  addr : Nat
  prot : Nat
  direct : Bool
  deriving DecidableEq, Repr

/-- The Whisk at work (R248 to R250): the frame it reads, the field's address, α in sixteenths, the
re-projection buffer, lines written, pixels of progress, lines taken unwarped, whether it stopped on a fault. -/
structure WhiskRun where
  src : Nat
  field : Nat
  alphaN : Nat
  alphaD : Nat
  rp : Nat
  lines : Nat
  pix : Nat
  behind : Nat
  stopped : Bool
  deriving DecidableEq, Repr

/-- A flow (R225 to R254). STATE, the counters and the free bits are WSK registers. `mapped`: k0, J0 and the arrival of
k0 + 1; `old`: k0 and J0 before a slip; `next`: the descriptor of an update; `repeatOld`: the old flow's
descriptor and last frame; `noPrev`: the next SR has no previous result; `onlySr`: the next arrival queues no pair; `fields`: the pairs whose motion fields lie in the four spaces, true once complete; `fieldOrder`: completed
ones, the newest first. -/
structure Flow where
  d : FlowDesc
  first : Option Nat
  mapped : Option (Nat × Nat × Nat)
  old : Option (Nat × Nat)
  lastArrival : Nat
  fallback : Bool
  stopAtNext : Bool
  draining : Bool
  next : Option FlowDesc
  repeatOld : Option (FlowDesc × ShownFrame)
  sources : List FlowSource
  invs : List Invocation
  anchors : List Anchor
  noPrev : Bool
  onlySr : Bool
  last : Option ShownFrame
  fields : List (Nat × Nat × Bool)
  fieldOrder : List Nat
  nextField : Nat
  nextExport : Nat
  rpNext : Nat
  whisk : Option WhiskRun
  deriving DecidableEq, Repr

/-- Per-zone statistics of the frame being composed (R301). -/
structure ZoneAcc where
  max : Nat
  sum : Nat
  high : Nat
  n : Nat
  deriving DecidableEq, Repr

/-- The dimming controller beside its registers (R300 to R318): captured settings by register address, and those an enable has captured
for the next start; a stop at the next deadline, or one that waits for a running status read; the statistics being gathered (by zone),
HIGH_THR for them, whether the last line is in; the frame whose duties are awaited, whether its tag has been stored, the duty buffers
written outside their window (R311); the previous map in F32; duty codes in the drivers' shadow and output registers; whether this
frame and the one before are diagnostic frames; diagnostic transfers and status reads due and running by port; the LD_FAULT_N pin; the
frames of the assertions whose status reads are still to come. -/
structure LdmState where
  cap : List (Nat × Word)
  startNext : Option (List (Nat × Word))
  stopNext : Bool
  stopWait : Bool
  gathering : Option Nat
  acc : List (Nat × ZoneAcc)
  thr : Nat
  lastIn : Bool
  awaiting : Option Nat
  tagStored : Bool
  broken : List Nat
  prev : List Nat
  shadowDuty : List Nat
  latched : List Nat
  diagFrame : Bool
  diagPrev : Bool
  diagDue : List Nat
  readDue : List Nat
  readNow : List Nat
  faultPin : Bool
  readNext : List Nat
  deriving DecidableEq, Repr

/-- The DisplayPort ports beside their registers (R283 to R292): the downstream receiver IDs of the transmitter, those the
receiver reports, the EDID, whether the received stream is accepted, a retrain owed after a loss, an authentication to
retry; DPT_CTRL and DPT_DSC as the latest training used them, DPR_CTRL as the latest HPD assertion did (R299). -/
structure DpState where
  txIds : List Nat
  rxIds : List Nat
  edid : List Byte
  streamOk : Bool
  retrainDue : Bool
  hdcpRetry : Bool
  ctrl : Word
  dsc : Word
  rxCtrl : Word
  deriving DecidableEq, Repr

/-! ## Graphics (chapter 5) -/

/-- A claimed tracking slot (R211, R215): owner, first table entry, tile counts, exports so far. -/
structure TrackSlot where
  ctx : Nat
  base : Nat
  tilesX : Nat
  tilesY : Nat
  gen : Nat
  deriving DecidableEq, Repr

/-- One draw of a pass (R184): its state block's words and the draw's arguments. -/
structure GfxDraw where
  st : List Nat
  count : Nat
  instances : Nat
  first : Nat
  baseVertex : Nat
  firstInstance : Nat
  indexAddr : Nat
  indexSize : Nat
  deriving DecidableEq, Repr

/-- A stage group waiting to run or running (R180, R181): its number in the pass, stage (0 vertex, 1 hull, 2 domain, 3
fragment), draw, the cluster it runs on, the tile of a fragment group, the keys of its lanes' items, its input records as words
(empty: a lane inactive for the group's life), buffer 13 as words, sizes of an input and an output record in words, and the place of its buffers in the stage pool. -/
structure StageWork where
  id : Nat
  stage : Nat
  draw : Nat
  clu : Nat
  tile : Nat
  keys : List Nat
  input : List (List Nat)
  shared : List Nat
  inRec : Nat
  outRec : Nat
  pool : Nat
  deriving DecidableEq, Repr

/-- An assembled primitive or patch: instance, ordinal in the draw, the cluster its batch went to (R176), and its vertices'
keys. -/
structure AsmPrim where
  inst : Nat
  ord : Nat
  clu : Nat
  verts : List Nat
  deriving DecidableEq, Repr

/-- A vertex on the screen: position in 1/256 pixel, depth, 1/w, and varyings over w, exactly (none: not a finite number). -/
structure ScreenVert where
  x : Int
  y : Int
  z : Q
  iw : Q
  vars : List (Option Q)
  deriving DecidableEq, Repr

/-- A binned primitive or a piece of a clipped one (R192, R193): draw, ordinal, 1 point 2 line 3 triangle, facing, cluster that binned
it, size of a point or width of a line, vertices, the first vertex's varyings as words for FLAT_MASK. -/
structure BinPrim where
  draw : Nat
  ord : Nat
  kind : Nat
  front : Bool
  clu : Nat
  size : Q
  verts : List ScreenVert
  flat : List Nat
  deriving DecidableEq, Repr

/-- A pixel of a fragment group: position on the target and coverage, 0 for a helper. -/
structure Frag where
  x : Nat
  y : Nat
  cover : Nat
  deriving DecidableEq, Repr

/-- A tile in flight on a cluster (R176, R177): tile index, tile buffer, image bytes by attachment, attachments that started cleared and that no
fragment has written, primitives left, the primitive being shaded with its pixels by key and the outputs returned, groups not
yet returned. -/
structure TileRun where
  cluster : Nat
  tile : Nat
  buf : Nat
  data : List (Nat × List Byte)
  clean : List Nat
  prims : List Nat
  cur : Option Nat
  frags : List (Nat × Frag)
  outs : List (Nat × List Nat)
  left : Nat
  deriving DecidableEq, Repr

/-- Where a pass stands: between draws, in a stage of a draw, rendering, or all tiles stored. -/
inductive PassPhase where
  | bin | vertex | hull | domain | render | done
  deriving DecidableEq, Repr

/-- A draw pass (R175 to R221): owner, descriptor words, current state block, draws read so far, refusal code, whether its PASS_END
has been read, whether the sequencer runs it, phase, the next draw, primitives and stage outputs of the draw at work, stage
groups waiting and running, batches handed out, primitives to bin, binned primitives, heap bytes used, whether the spill area holds its tiles, whether a partial
render runs, next tile, tiles in flight, changed tiles by attachment, spilled tiles still clear by attachment, clusters it is suspended on, clusters that took part, and what each
tile buffer (cluster × 8 + buffer) holds of the pass's earlier tiles, by attachment (R204). -/
structure GfxPass where
  ctx : Nat
  q : Nat
  seq : Nat
  rt : Bool
  desc : List Nat
  cur : Option (List Nat)
  draws : List GfxDraw
  code : Nat
  ended : Bool
  run : Bool
  phase : PassPhase
  next : Nat
  asm : List AsmPrim
  outs : List (Nat × List Nat)
  hulls : List (Nat × List Nat)
  works : List StageWork
  busy : List StageWork
  nextWork : Nat
  batches : Nat
  toBin : List (List BinPrim)
  prims : List BinPrim
  heap : Nat
  spilled : Bool
  partial_ : Bool
  nextTile : Nat
  tiles : List TileRun
  changed : List (Nat × Nat)
  clean : List (Nat × Nat)
  suspended : List Nat
  took : List Nat
  left : List (Nat × List (Nat × List Byte))
  deriving DecidableEq, Repr

/-- A graphics unit that waits for the pass sequencer or runs (R379), in the order of arrival: opcode, body, and the tracking slots it
names (R214). -/
structure GfxUnit where
  q : Nat
  seq : Nat
  ctx : Nat
  rt : Bool
  op : Nat
  body : List Nat
  slots : List Nat
  deriving DecidableEq, Repr

/-- The graphics units beside their registers: tracking slots, valid signature-table entries, units waiting or running,
passes read, when a graphics unit last ran or waited. -/
structure GfxState where
  slots : List (Nat × TrackSlot)
  table : List (Nat × Nat)
  units : List GfxUnit
  passes : List GfxPass
  lastWork : Nat
  deriving DecidableEq, Repr


/-! ## Power states, start, Hearth (chapters 14 and 15) -/

/-- A rail of the rail table (R551): number, PMBus address and page, ROLE, S1_MV, S3_OFF, the voltage last acknowledged in mV
(0 off). -/
structure Rail where
  n : Nat
  addr : Nat
  page : Nat
  role : Nat
  s1mv : Nat
  s3off : Bool
  mv : Nat
  deriving DecidableEq, Repr

/-- Why the Bellows changes a rail: a power-state entry, an exit, the undoing of an entry, or an operating point. -/
inductive RailWhy where
  | entry | exit | undo | sop
  deriving DecidableEq, Repr

/-- A PMBus request (R535, R537): rail, target in mV (0 off), reason, and once it is sent when, and whether it is the
repeat. -/
structure RailReq where
  rail : Nat
  mv : Nat
  why : RailWhy
  sent : Option Nat
  repeated : Bool
  deriving DecidableEq, Repr

/-- An entry under way (R529 to R531): target, requester, steps complete, latched wakes with the time of each, whether its commit has
passed, the wake that came after it. -/
structure Entry where
  target : Nat
  requester : Nat
  step : Nat
  latched : List (Nat × Nat)
  committed : Bool
  woke : Option (Nat × Nat)
  deriving DecidableEq, Repr

/-- An exit under way (R532): from S1 (2), S3 (3), steps complete, when its wake came, its source. -/
structure ExitRun where
  source : Nat
  target : Nat
  step : Nat
  since : Nat
  deriving DecidableEq, Repr

/-- A keyword detection (R541): score, start and end. -/
structure Detection where
  score : Nat
  start : Nat
  stop : Nat
  deriving DecidableEq, Repr

/-- The Hearth's audio copy (R543): the number of the next frame, destination, bytes to write in all and written. -/
structure AudioCopy where
  frame : Nat
  addr : Nat
  size : Nat
  done : Nat
  deriving DecidableEq, Repr

/-- The Hearth and the Bellows beside the PWR registers: the PARAM values taken (R499, R551), the rails and outstanding requests,
RAIL_EN pins asserted, ticks of idleness towards A1, a host request pending since, entry, exit, what S3 entry saved of the DMC
registers, whether main supplies are lost, whether the entry has let the DRAM pins lose their supply on a board that does not hold them (R595), keyword spotter, audio ring (frame number mod 40,000 to frame; frames sampled), caps and estimates, a PWR_ALARM_LO that waits for
its high word, whether the alarm has not been reached yet, KWS_CTRL.EN as of the last evaluation (R553), the Hearth core's wake, its SRAM's firmware bytes. -/
structure PwrState where
  params : List (Nat × Nat)
  rails : List Rail
  reqs : List RailReq
  railEn : Nat
  idle : Nat
  pend : Option (Nat × Nat)
  heldReqs : List (Nat × Nat)
  entry : Option Entry
  exit : Option ExitRun
  saved : List (Nat × Word)
  mainLost : Bool
  pinsLost : Bool
  kwsRun : Nat
  kwsQuiet : Nat
  kwsHeld : List Detection
  audio : List (Nat × Word)
  frames : Nat
  copy : Option AudioCopy
  powerCap : Nat
  thermCap : Nat
  samples : List Nat
  energyRem : Nat
  belowSince : Option Nat
  powerStep : Nat
  thermStep : Nat
  coolSince : Option Nat
  missed : Bool
  tripped : Bool
  tripCool : Option Nat
  alarmLo : Option Word
  alarmSet : Bool
  kwsEn : Bool
  hearthAwake : Bool
  hearthMem : List Host.Cell
  deriving DecidableEq, Repr

/-- A section of the image in use (R490, R491). -/
structure Section where
  index : Nat
  type : Nat
  bcast : Nat
  off : Nat
  len : Nat
  load : Nat
  deriving DecidableEq, Repr

/-- The start and what outlives it (R486 to R520): kind (0 cold, 1 warm, 2 S3 exit), when it began, which of its parts have ended,
slots found invalid (with the section whose digest failed), the slot's sections, the digest of its header and table, FW_VERSION, failing DRAM lines, fenced clusters and those of them fenced for another part than a core, spares in
use, disabled L2 ways, trained rate, the flash as programmed, the operation the flash runs, control-core memories (core ×
2¹⁹ + byte), the words of the CONFIG sections by section index, and the EDID. -/
structure BootState where
  kind : Nat
  begun : Nat
  hearth : Bool
  rails : Bool
  trained : Bool
  tested : Bool
  selftest : Bool
  loaded : Bool
  badSlots : List (Nat × Nat)
  slot : Nat
  sections : List Section
  digest : Option Nat
  version : Nat
  failing : List Nat
  fence : Nat
  parts : Nat
  spares : List Nat
  ways : List (Nat × Nat)
  rate : Nat
  flash : List Host.Cell
  flashOp : Option (Nat × Nat)
  ccMem : List Host.Cell
  config : List (Nat × List Word)
  edid : List Byte
  deriving DecidableEq, Repr

/-- The Hearth as power-on reset leaves it; the caps at SOP3. -/
def PwrState.reset : PwrState :=
  ⟨[], [], [], 0, 0, none, [], none, none, [], false, false, 0, 0, [], [], 0, none, 3, 3, [], 0, none, 0, 0, none, false, false, none, none, false, false, false, []⟩

/-- No start under way. -/
def BootState.reset : BootState :=
  ⟨0, 0, false, false, false, false, false, false, [], 0, [], none, 0, [], 0, 0, [], [], 0, [], none, [], [], []⟩
/-! ## The whole state -/

/-- The state of the S840. -/
structure State where
  /-- The commands waiting, first in, first out. -/
  pending : List Instr
  /-- The model's own: the number of free values drawn so far. -/
  draws : Nat
  /-- Global time base in 10 ns ticks (R7), and the fraction the Hearth's crystal carries (R25). -/
  time : Nat
  timeFrac : Nat
  /-- BAR0 registers that differ from their reset value, by address. -/
  regs : List (Nat × Word)
  /-- The active copy of the display's committed registers (R260), as `regs`. -/
  active : List (Nat × Word)
  /-- Captured high words by requester path (R10): the low word's address and the value. -/
  shadows : List (Path × Nat × Word)
  /-- What the S840 has given the outside, oldest first. -/
  out : List Output
  /-- Whether the UNC, DISP and CLU domains are powered and out of reset (R23). -/
  uncOn : Bool
  dispOn : Bool
  cluOn : Bool
  err : ErrState
  dbg : DbgState
  hif : HifState
  dram : DramState
  l2 : L2State
  mmu : MmuState
  ctxs : List (Nat × Ctx)
  queues : List (Nat × Queue)
  slots : List (Nat × Slot)
  seqs : List (Nat × Sequence)
  cores : List (Nat × Core)
  clusters : List (Nat × Cluster)
  sched : SchedState
  disp : DispState
  flow : Option Flow
  ldm : LdmState
  dp : DpState
  gfx : GfxState
  pwr : PwrState
  boot : BootState
  deriving DecidableEq, Repr

/-- A tap that has published nothing. -/
def TapRun.idle : TapRun := ⟨0, none, 0, false, false, []⟩

/-- The composition after reset: timing stopped (R261). -/
def DispState.reset : DispState := ⟨false, none, 0, [], [], [], [], [], [], [], [], TapRun.idle, TapRun.idle, 0⟩

/-- The dimming controller after reset: not running. -/
def LdmState.reset : LdmState :=
  ⟨[], none, false, false, none, [], 0, false, none, false, [], [], [], [], false, false, [], [], [], false, []⟩

/-- The DisplayPort ports after reset. -/
def DpState.reset : DpState := ⟨[], [], [], false, false, false, 0x2C, 0xC0, 0x28⟩

/-- No slot claimed, no pass. -/
def GfxState.reset : GfxState := ⟨[], [], [], [], 0⟩

/-- Nothing outstanding in the collector. -/
def ErrState.reset : ErrState := ⟨0, 0, [], [], none⟩

/-- The debug port closed (R576), one-time storage as production left it. -/
def DbgState.reset : DbgState := ⟨0, none, 0, 0, false, false, [], 0, 0, [], 0, []⟩

/-- Configuration space after the fundamental reset of PCI Express: BARs unassigned, decode and MSI-X off. -/
def HifState.reset : HifState :=
  ⟨none, none, 28, false, false, false, 0, false, 0, false, [], 0, [], [], [], 0, 0, false, 0, false, false, false, true⟩

/-- DRAM with nothing written and no map. -/
def DramState.reset : DramState := ⟨[], [], [], [], [], 0, [], false, [], []⟩

/-- An empty L2. -/
def L2State.reset : L2State := ⟨[], [], [], [], [], 0, []⟩

/-- Empty TLBs and walk caches. -/
def MmuState.reset : MmuState := ⟨[], [], [], 0, [], []⟩

/-- The scheduler with nothing waiting; the window length of SCH_WINDOW's reset value. -/
def SchedState.reset : SchedState := ⟨none, 1000, 0xFFF, 4, none, [], [], [], [], [], [], [], [], [], 0⟩

/-- The S840 right after power-on reset (R487, R25): every register at its reset value, no domain but the Hearth's on,
nothing held anywhere. -/
def State.reset : State :=
  { pending := [], draws := 0, time := 0, timeFrac := 0, regs := [], active := [], shadows := [], out := [],
    uncOn := false, dispOn := false, cluOn := false, err := ErrState.reset, dbg := DbgState.reset, hif := HifState.reset,
    dram := DramState.reset, l2 := L2State.reset, mmu := MmuState.reset, ctxs := [], queues := [], slots := [], seqs := [],
    cores := [], clusters := [], sched := SchedState.reset, disp := DispState.reset, flow := none, ldm := LdmState.reset,
    dp := DpState.reset, gfx := GfxState.reset, pwr := PwrState.reset, boot := BootState.reset }

end Sys2Proof.Machine
end

