-- ==== Sys2Proof/Machine/Ops.lean ====
section
/-! DEFINITION. The named operations every command shares: registers and their fields, free values, outputs and posted
writes, interrupt messages, the error collector. -/

namespace Sys2Proof.Machine

/-- The answer of a meaning. -/
abbrev Ans := Host.Outcome State Fault Refusal

/-! ## Registers -/

/-- The default way mask of an L2 class (R159). -/
def wayMaskReset (c : Nat) : Word :=
  match c with
  | 3 => 0xFFFF | 4 => 0xFFFF | 5 => 0xFFFF | 9 => 0x00FF | 10 => 0x00FF | 11 => 0xC000 | 12 => 0xFFFF | 13 => 0xFFFF
  | 14 => 0x00FF | _ => 0

/-- The identity matrix of R297: words 0 and 2, and word 4 beside them, hold 1.0. -/
def matrixReset (w : Nat) : Word := if w = 0 ∨ w = 2 then 0x1000 else 0

/-- The bilinear coefficients of R298: tap 7 at 1,024 − 32 φ, tap 8 at 32 φ. -/
def coefReset (w : Nat) : Word :=
  let phase := w / 8 % 32
  if w % 8 = 3 then BitVec.ofNat 32 ((1024 - 32 * phase) * 65536)
  else if w % 8 = 4 then BitVec.ofNat 32 (32 * phase) else 0

/-- Records of the capability table (R367, R368): the 23 keys and the key 0 that ends it. -/
def capRecords : Nat := 24

/-- The BAR0 offset of the capability table, a multiple of 16 (R367): the implementation's, where it lies in BAR0 clear of every
register as the rule implies (DESIGN CHOICE, log entry 44). -/
def captabBase : Nat :=
  let c := Config.captab % 2 ^ 20 * 16
  if c + 16 * capRecords ≤ 2 ^ 24 ∧ (List.range (4 * capRecords)).all (fun i => (regRow (c + 4 * i)).isNone) then c else 0x150000

/-- Log2 of the flash's density in bytes, the board's: 1 MiB to 256 MiB (R488). -/
def flashLog2 : Nat := 20 + bits Config.flashInfo.toNat 5 0 % 9

/-- CFG_FL_INFO as the board's flash gives it (R523). -/
def flashInfoWord : Word := (Config.flashInfo &&& 0x0001FF00#32) ||| BitVec.ofNat 32 flashLog2

/-- DMC_CFG as the board gives it: a rate of R462, the ranks, a density of R462, the channels. -/
def dmcCfg : Word :=
  let c := Config.dramCfg.toNat
  BitVec.ofNat 32 (bits c 2 0 % 5 + bits c 4 3 * 8 + bits c 31 16 * 65536)

/-- DRAM of the board in 512 MiB units: 16 channels of 1 or 2 ranks of 4 or 8 Gb (R462). -/
def dramUnits : Nat := 16 * 2 ^ (bits dmcCfg.toNat 3 3 + bits dmcCfg.toNat 4 4)

/-- The reset word of the register at a BAR0 address: its row's, or what the spec gives per cluster, class or board. An
address no register has reads 0 (R14). -/
def regReset (a : Nat) : Word :=
  match regRow a with
  | none => 0
  | some r =>
    let d := a - r.base
    if r.base = 0x400000 then BitVec.ofNat 32 (d / 0x10000 + d / 0x10000 / 3 * 16 + 0x400)
    else if r.base = 0x010 then BitVec.ofNat 32 captabBase
    -- the vector-control word of an MSI-X entry starts masked, as PCI Express lays it out (PRESUMED, log entry 12)
    else if r.base = 0x018000 then (if d % 16 = 12 then 1 else 0)
    else if r.base = 0x090040 then wayMaskReset (d / 4)
    else if r.base = 0x0A0000 then dmcCfg
    else if r.base = 0x0D003C then Config.vbak
    else if r.base = 0x0E0060 then matrixReset (d / 4)
    else if r.base = 0x0E1040 ∨ r.base = 0x0E1070 then matrixReset (d % 0x100 / 4)
    else if r.base = 0x0E8000 then coefReset (d / 4 % 512)
    else if r.base = 0x130014 then flashInfoWord
    else if r.base = 0x140000 then Config.serial.setWidth 32
    else if r.base = 0x140004 then (Config.serial >>> 32).setWidth 32
    else r.reset

/-- The stored value of a register. -/
def State.reg (s : State) (a : Nat) : Word := Sparse.get s.regs (regReset a) a

/-- Store a register whole. -/
def State.setReg (s : State) (a : Nat) (v : Word) : State :=
  { s with regs := Sparse.set s.regs (regReset a) a v }

/-- The field `[hi:lo]` of a register. -/
def State.fld (s : State) (a hi lo : Nat) : Nat := bits (s.reg a).toNat hi lo

/-- Store the field `[hi:lo]` of a register. -/
def State.setFld (s : State) (a hi lo v : Nat) : State :=
  s.setReg a (BitVec.ofNat 32 (setBits (s.reg a).toNat hi lo v))

/-- One bit of a register. -/
def State.flag (s : State) (a i : Nat) : Bool := s.fld a i i == 1

/-- Set one bit of a register to 1. -/
def State.setFlag (s : State) (a i : Nat) : State := s.setFld a i i 1

/-- Clear one bit of a register. -/
def State.clearFlag (s : State) (a i : Nat) : State := s.setFld a i i 0

/-- The active copy of a committed register of the display (R260). -/
def State.act (s : State) (a : Nat) : Word := Sparse.get s.active (regReset a) a

/-- The field `[hi:lo]` of the active copy of a committed register. -/
def State.actFld (s : State) (a hi lo : Nat) : Nat := bits (s.act a).toNat hi lo

/-- Store the active copy of a committed register. -/
def State.setAct (s : State) (a : Nat) (v : Word) : State :=
  { s with active := Sparse.set s.active (regReset a) a v }

/-- A pair of registers, low word first, as one 64-bit number. -/
def State.reg64 (s : State) (lo : Nat) : Nat := (s.reg lo).toNat + (s.reg (lo + 4)).toNat * 2 ^ 32

/-- Store a pair of registers, modulo 2⁶⁴. -/
def State.setReg64 (s : State) (lo v : Nat) : State :=
  (s.setReg lo (BitVec.ofNat 32 v)).setReg (lo + 4) (BitVec.ofNat 32 (v / 2 ^ 32))

/-- Add to a 64-bit counter that wraps. -/
def State.count64 (s : State) (lo n : Nat) : State := s.setReg64 lo (s.reg64 lo + n)

/-- Add to a counting field that saturates. -/
def State.countSat (s : State) (a hi lo n : Nat) : State :=
  s.setFld a hi lo (satAdd (2 ^ (hi + 1 - lo) - 1) (s.fld a hi lo) n)

/-- Add to a counting field that wraps. -/
def State.countWrap (s : State) (a hi lo n : Nat) : State := s.setFld a hi lo (s.fld a hi lo + n)

/-- Raise a field to a value if that is larger. -/
def State.maxFld (s : State) (a hi lo n : Nat) : State :=
  s.setFld a hi lo (max (s.fld a hi lo) (min n (2 ^ (hi + 1 - lo) - 1)))

/-- Whether GLB_BOOT.STATE reads running (R517: until then every block but GLB, HIF, ERR and CFG reads 0 and ignores
writes). -/
def State.booted (s : State) : Bool := s.fld Reg.GLB_BOOT 1 0 == 1

/-- Whether the UNC domain is powered and the start has finished. -/
def State.uncRuns (s : State) : Bool := s.uncOn && s.booted

/-- Whether the DISP domain is powered and the start has finished. -/
def State.dispRuns (s : State) : Bool := s.dispOn && s.booted

/-- Whether the HDCP engines are denied their keys (R495, R574). -/
def State.keysHeld (s : State) : Bool := !s.flag Reg.GLB_BOOT 4 || s.dbg.coreOpened

/-- A PARAM value (R499, R551). -/
def State.param (s : State) (id default_ : Nat) : Nat := Sparse.get s.pwr.params default_ id

/-- Whether the Hearth keeps the time base (R25, R529 step 4, R532 step 4). -/
def State.hearthKeeps (s : State) : Bool :=
  match s.pwr.exit, s.pwr.entry with
  | some x, _ => x.step < 4
  | none, some e => 4 ≤ e.step
  | none, none => 2 ≤ s.fld Reg.PWR_STATUS 1 0

/-- Whether the control cores take work (R529): they stop in step 2 of an entry, until it is abandoned or undone by an exit. -/
def State.coresTake (s : State) : Bool := !s.pwr.entry.any (fun e => 1 ≤ e.step)

/-- Whether normal-queue work is gated now (R548): the last part of every 100 µs. -/
def State.dutyGate (s : State) : Bool := 1250 * (8 - s.fld Reg.PWR_STATUS 26 24) ≤ s.time % 10000

/-! ## Free values, outputs -/

/-- The next free number, and the state that has drawn it. -/
def State.drawNat (s : State) : Nat × State := (Config.freeNat s.draws, { s with draws := s.draws + 1 })

/-- Add to a 64-bit counter of clock cycles what it counts during one command: no rule ties the cycles to the command (free, log
entry 80). -/
def State.countCycles (s : State) (a : Nat) : State :=
  let (n, s) := s.drawNat
  s.count64 a (n % 64)

/-- The next free choice, and the state that has drawn it. -/
def State.drawBool (s : State) : Bool × State := (Config.freeBool s.draws, { s with draws := s.draws + 1 })

/-- Give something to the outside. -/
def State.emit (s : State) (o : Output) : State := { s with out := s.out ++ [o] }

/-- A posted write or message onto the host link (R446): sent at once while the link is up, otherwise kept unsent. -/
def State.post (s : State) (o : Output) : State :=
  if s.flag Reg.HIF_STATUS 0 then s.emit o else { s with hif := { s.hif with unsent := s.hif.unsent ++ [o] } }

/-- Ticks of the 100 MHz time base in a number of microseconds (R7). -/
def us (n : Nat) : Nat := n * 100

/-! ## Interrupt messages (R447, R448) -/

/-- Send a vector's message: the table entry's address and data, as a posted write. -/
def State.msixSend (s : State) (vec : Nat) : State :=
  let s := { s with hif := { s.hif with
    lastMsg := Sparse.put s.hif.lastMsg vec s.time, merged := Sparse.drop s.hif.merged vec } }
  s.post (.msix vec (s.reg64 (Reg.MSIX_TABLE (4 * vec))) (s.reg (Reg.MSIX_TABLE (4 * vec + 2))))

/-- Whether a vector or the function is masked. -/
def State.msixMasked (s : State) (vec : Nat) : Bool :=
  s.hif.funcMask || s.flag (Reg.MSIX_TABLE (4 * vec + 3)) 0

/-- A vector's message goes out, or within the hold-off since its last one waits, merged, for the hold-off's end (R448). -/
def State.msixGo (s : State) (vec : Nat) : State :=
  let due := match Sparse.find s.hif.lastMsg vec with
    | some t => if s.fld Reg.HIF_CTRL 15 8 = 0 then 0 else t + us (s.fld Reg.HIF_CTRL 15 8)
    | none => 0
  if s.time < due then
    { s with hif := { s.hif with merged := Sparse.put s.hif.merged vec (Sparse.get s.hif.merged due vec) } }
  else s.msixSend vec

/-- One raise of a vector (R448): discarded while MSI-X Enable is 0, pended while masked, merged within the hold-off,
sent otherwise. -/
def State.raiseVec (s : State) (vec : Nat) : State :=
  if !s.hif.msixEnable then s
  else if s.msixMasked vec then s.setFlag (Reg.MSIX_PBA (vec / 32)) (vec % 32)
  else s.msixGo vec

/-- A raise of one of the four sources of HIF_VEC, if HIF_VEC_EN enables it. -/
def State.raiseHif (s : State) (src : Nat) : State :=
  if s.flag Reg.HIF_VEC_EN src then s.raiseVec (s.fld Reg.HIF_VEC (8 * src + 5) (8 * src)) else s

/-! ## Error records (R555 to R563) -/

/-- The eight words of a record (R555). -/
def recordWords (r : ErrRecord) (seq time : Nat) : List Word :=
  let c := match r.ctx with
    | some c => 2 ^ 26 + c.val * 2 ^ 27
    | none => 0
  [BitVec.ofNat 32 (r.code % 2 ^ 16 + r.unit % 256 * 2 ^ 16 + r.sev % 4 * 2 ^ 24 + c), BitVec.ofNat 32 r.addrLo,
   BitVec.ofNat 32 r.addrHi, BitVec.ofNat 32 seq, BitVec.ofNat 32 time, BitVec.ofNat 32 (time / 2 ^ 32), 0, 0]

/-- Store consecutive registers. -/
def State.setRegs (s : State) (a : Nat) : List Word → State
  | [] => s
  | w :: t => (s.setReg a w).setRegs (a + 4) t

/-- One capture set (R562): FIRST at bit 0 with LATER in [15:8], FATAL at bit 1 with LATER in [23:16]. -/
def State.capture (s : State) (set : Nat) (ws : List Word) : State :=
  if s.flag Reg.ERR_STATUS set then s.countSat Reg.ERR_STATUS (15 + 8 * set) (8 + 8 * set) 1
  else (s.setFlag Reg.ERR_STATUS set).setRegs (if set = 0 then Reg.ERR_FIRST 0 else Reg.ERR_FATAL 0) ws

/-- Room in the ring (R559). -/
def State.ringRoom (s : State) : Bool :=
  diff32 (s.reg Reg.ERR_RING_WPTR).toNat (s.reg Reg.ERR_RING_RPTR).toNat < 32

/-- Write a record's words into the next ring entry (R559). -/
def State.ringWrite (s : State) (ws : List Word) : State :=
  let w := (s.reg Reg.ERR_RING_WPTR).toNat
  (s.setRegs (Reg.ERR_REC (w % 32 * 8)) ws).setReg Reg.ERR_RING_WPTR (BitVec.ofNat 32 (w + 1))

/-- Count a dropped record by severity (R558, R559), for the report of R560. -/
def State.dropRecord (s : State) (sev seq : Nat) : State :=
  let s := s.countSat Reg.ERR_OVF (8 * (sev % 4) + 7) (8 * (sev % 4)) 1
  { s with err := { s.err with
    dropFirst := if s.err.dropCount = 0 then seq else s.err.dropFirst, dropCount := s.err.dropCount + 1 } }

/-- What a record of severity fatal starts (R563); the codes 0x0F02 and 0x0F09 follow their own rules. -/
def State.fatalAction (s : State) (r : ErrRecord) : State :=
  if r.sev ≠ 3 ∨ r.code = 0x0F02 ∨ r.code = 0x0F09 then s
  else if s.flag Reg.ERR_CTRL 2 then s.setFlag Reg.ERR_STATUS 2
  else match s.err.fatalAt with
    | some _ => s
    | none => { s with err := { s.err with fatalAt := some (s.time + us 100) } }

/-- The collector takes a record (R557 to R563): it numbers it, captures it, writes it to the ring or drops and counts it,
and raises ERR_VEC. -/
def State.collect (s : State) (r : ErrRecord) (time : Nat) : State :=
  let seq := (s.reg Reg.ERR_SEQ).toNat
  let ws := recordWords r seq time
  let s := s.setReg Reg.ERR_SEQ (BitVec.ofNat 32 (seq + 1))
  let s := if s.fld Reg.ERR_CTRL 1 0 ≤ r.sev then s.capture 0 ws else s
  let s := if r.sev = 3 then s.capture 1 ws else s
  let s := if s.ringRoom && s.err.dropCount == 0 then s.ringWrite ws else s.dropRecord r.sev seq
  (s.fatalAction r).raiseHif 1

/-- A unit detects an error: the collector takes its record, or Hearth SRAM holds it while the UNC domain is off (R558). -/
def State.record (s : State) (r : ErrRecord) : State :=
  if s.uncOn then s.collect r s.time
  else if s.err.held.length < 16 then
    { s with err := { s.err with held := s.err.held ++ [⟨r, s.time⟩] } }
  else { s with err := { s.err with heldDrops := s.err.heldDrops ++ [r.sev] } }

/-- A record of a code without a context. -/
def State.rec0 (s : State) (code unit sev lo hi : Nat) : State := s.record ⟨code, unit, sev, none, lo, hi⟩

/-- A record that names a context. -/
def State.recC (s : State) (code unit sev ctx lo hi : Nat) : State :=
  s.record ⟨code, unit, sev, some (Fin.ofNat 32 ctx), lo, hi⟩

/-- Record 0x1007 once the ring has room after drops (R560): it takes the next SEQ and does not pass the intake. -/
def State.reportDrops (s : State) : State :=
  if s.err.dropCount ≠ 0 && s.ringRoom then
    let seq := (s.reg Reg.ERR_SEQ).toNat
    let r : ErrRecord := ⟨0x1007, 0x04, 1, none, s.err.dropCount, s.err.dropFirst⟩
    let ws := recordWords r seq s.time
    let s := s.setReg Reg.ERR_SEQ (BitVec.ofNat 32 (seq + 1))
    let s := { s with err := { s.err with dropCount := 0, dropFirst := 0 } }
    let s := if s.fld Reg.ERR_CTRL 1 0 ≤ 1 then s.capture 0 ws else s
    (s.ringWrite ws).raiseHif 1
  else s

/-- Number the held records once ERR runs, then the held drops (R558). -/
def State.collectHeld (s : State) : State :=
  let h := s.err.held
  let d := s.err.heldDrops
  let s := { s with err := { s.err with held := [], heldDrops := [] } }
  let s := h.foldl (fun s r => s.collect r.rec_ r.time) s
  let s := d.foldl (fun s sev =>
    let seq := (s.reg Reg.ERR_SEQ).toNat
    ((s.setReg Reg.ERR_SEQ (BitVec.ofNat 32 (seq + 1))).dropRecord sev seq).raiseHif 1) s
  s.reportDrops

/-! ## Small list helpers -/

/-- Replace the value of a key by a function of it, if listed. -/
def Sparse.update {α : Type} (m : List (Nat × α)) (a : Nat) (f : α → α) : List (Nat × α) :=
  match Sparse.find m a with
  | some v => Sparse.put m a (f v)
  | none => m

/-- Add to a listed count, absent counting as 0. -/
def Sparse.bump (m : List (Nat × Nat)) (a n : Nat) : List (Nat × Nat) :=
  Sparse.put m a (Sparse.get m 0 a + n)

end Sys2Proof.Machine
end

