-- ==== Sys2Proof/Machine/Memory.lean ====
section
/-! DEFINITION. Device memory as a requester sees it: interleaving (R464), regions and code words (R465 to R472), the L2 in
front of them (R159 to R163), protected ranges (R570), and posted writes and reads of host memory (R444, R446). -/

namespace Sys2Proof.Machine

/-! ## Addresses -/

/-- The channel of a device physical address (R464). -/
def channelOf (a : Nat) : Nat :=
  (bits a 11 8 ^^^ bits a 15 12 ^^^ bits a 19 16 ^^^ bits a 23 20)

/-- The home slice of an address (R18). -/
def sliceOf (a : Nat) : Nat := channelOf a / 4

/-- Bytes of 64 MiB. -/
def mib64 : Nat := 64 * 2 ^ 20

/-- Data bytes a region presents (R465). -/
def Region.dataBytes (r : Region) : Nat := if r.prot then r.raw * (7 * mib64) else r.raw * (8 * mib64)

/-- The region that holds an address: number and first address (R465). -/
def regionAt : List Region → Nat → Nat → Nat → Option (Nat × Nat × Region)
  | [], _, _, _ => none
  | r :: t, i, base, a =>
    if r.raw = 0 then none
    else if a < base + r.dataBytes then some (i, base, r)
    else regionAt t (i + 1) (base + r.dataBytes) a

/-- Bytes of usable DRAM (R465). -/
def usableBytes : List Region → Nat
  | [] => 0
  | r :: t => if r.raw = 0 then 0 else r.dataBytes + usableBytes t

/-- Usable DRAM of the active map. -/
def State.usable (s : State) : Nat := usableBytes s.dram.map

/-- Whether an address lies in a region with inline ECC. -/
def State.eccAt (s : State) (a : Nat) : Bool :=
  match regionAt s.dram.map 0 0 a with
  | some (_, _, r) => r.prot
  | none => false

/-- Whether an address lies in firmware-reserved DRAM: from 0, GLB_FWRES.SIZE units of 16 MiB (R522). -/
def State.inFirmware (s : State) (a : Nat) : Bool := a < s.fld Reg.GLB_FWRES 4 0 * 2 ^ 24

/-- Whether an address is device memory under R408. -/
def State.isDevMem (s : State) (a : Nat) : Bool := a < s.usable && !s.inFirmware a

/-- Whether an address lies in an enabled protected range (R570). -/
def State.inProtected (s : State) (a : Nat) : Bool :=
  (List.range 4).any (fun k =>
    s.flag (Reg.ERR_PROT_BASE k) 31 && s.fld (Reg.ERR_PROT_BASE k) 18 0 ≤ a / 65536
      && a / 65536 ≤ s.fld (Reg.ERR_PROT_LIMIT k) 18 0)

/-- Whether work of a context may access an address (R571). -/
def State.ctxMayAccess (s : State) (c a : Nat) : Bool := s.flag Reg.ERR_PROT_CTX c || !s.inProtected a

/-! ## DRAM controllers -/

/-- The mark of a code word, by its number (address divided by 32). -/
def State.cwMark (s : State) (n : Nat) : CwMark := Sparse.get s.dram.marks CwMark.clear n

/-- Store the mark of a code word. -/
def State.setMark (s : State) (n : Nat) (m : CwMark) : State :=
  { s with dram := { s.dram with marks := Sparse.set s.dram.marks CwMark.clear n m } }

/-- Transactions that a channel holds after a request, and the most since the last read of DMC_CHc_INFLIGHT: how many it holds is free
(R463, R484, log entry 80). -/
def State.noteInflight (s : State) (ch : Nat) : State :=
  let (n, s) := s.drawNat
  let a := Reg.DMC_CH_INFLIGHT ch
  (s.setFld a 8 0 (n % 257)).maxFld a 24 16 (n % 257)

/-- Count moved bytes on the channel of an address; a protected region adds check and map traffic that caches decide
(free, log entry 21). A request takes the channel out of power-down (R481). -/
def State.countBytes (s : State) (a n : Nat) : State :=
  let (extra, s) := if s.eccAt a then s.drawNat else (0, s)
  let s := { s with dram := { s.dram with
    lastReq := Sparse.put s.dram.lastReq (channelOf a) s.time, powerDown := Sparse.drop s.dram.powerDown (channelOf a) } }
  (s.count64 (Reg.DMC_CH_BYTES_LO (channelOf a)) (n + extra % 4096)).noteInflight (channelOf a)

/-- A corrected single-bit error: counts, and record 0x0D01 at most once per line in any 1 ms (R469, R471). -/
def State.correctCw (s : State) (n : Nat) : State :=
  let a := n * 32
  let line := n / 4
  let s := (s.countSat Reg.DMC_ECC_COUNT 15 0 1).countSat (Reg.DMC_CH_CORR (channelOf a)) 31 0 1
  let due := match Sparse.find s.dram.lastCorr line with
    | some t => decide (t + us 1000 ≤ s.time)
    | none => true
  if due then
    let s := { s with dram := { s.dram with lastCorr := Sparse.put s.dram.lastCorr line s.time } }
    s.rec0 0x0D01 0x21 0 (a % 2 ^ 32) (a / 2 ^ 32)
  else s

/-- Read one protected code word (R469, R470): whether its data is returned as poisoned. -/
def State.readCw (s : State) (n : Nat) : Bool × State :=
  let m := s.cwMark n
  let a := n * 32
  let bad (s : State) := s.countSat Reg.DMC_ECC_COUNT 31 16 1
  if m.poison then (true, bad s)
  else if !m.written then (true, (bad s).rec0 0x0D03 0x21 1 (a % 2 ^ 32) (a / 2 ^ 32))
  else if m.bad then (true, (bad s).rec0 0x0D02 0x21 1 (a % 2 ^ 32) (a / 2 ^ 32))
  else if m.single then (false, s.correctCw n)
  else (false, s)

/-- Read one 128-byte line from DRAM: whether any of its code words is returned as poisoned. -/
def State.readLine (s : State) (line : Nat) : Bool × State :=
  let s := s.countBytes (line * 128) 128
  if s.eccAt (line * 128) then
    (List.range 4).foldl (fun (p, s) i => let (q, s) := s.readCw (line * 4 + i); (p || q, s)) (false, s)
  else (false, s)

/-- Bytes that are all written. -/
def full (bs : List Byte) : List (Option Byte) := bs.map some

/-- The bytes of a list with their addresses, byte enables applied. -/
def enabled : Nat → List (Option Byte) → List Host.Cell
  | _, [] => []
  | a, some b :: t => (a, b) :: enabled (a + 1) t
  | a, none :: t => enabled (a + 1) t

/-- Store cells in DRAM. -/
def State.putCells (s : State) (cs : List Host.Cell) : State :=
  { s with dram := { s.dram with bytes := Sparse.merge s.dram.bytes cs } }

/-- One write of the bytes of one code word (R467, R471): whole, or an indivisible read-modify-write. -/
def State.writeCw (s : State) (n : Nat) (cs : List Host.Cell) : State :=
  if cs.length = 32 then (s.putCells cs).setMark n ⟨true, false, false, false⟩
  else
    let m := s.cwMark n
    let a := n * 32
    if m.poison then s.putCells cs
    else if !m.written then
      (s.putCells (Sparse.merge ((List.range 32).map (fun i => (a + i, (0 : Byte)))) cs)).setMark n ⟨true, false, false, false⟩
    else if m.bad then
      (((s.putCells cs).setMark n ⟨true, false, false, true⟩).countSat Reg.DMC_ECC_COUNT 31 16 1).rec0
        0x0D06 0x21 1 (a % 2 ^ 32) (a / 2 ^ 32)
    else if m.single then ((s.correctCw n).putCells cs).setMark n ⟨true, false, false, false⟩
    else s.putCells cs

/-- The numbers `lo` to `hi`. -/
def span (lo hi : Nat) : List Nat := (List.range (hi + 1 - lo)).map (fun i => lo + i)

/-- The code words or lines (of `size` bytes) that a byte range touches. -/
def unitsOf (size a n : Nat) : List Nat := if n = 0 then [] else span (a / size) ((a + n - 1) / size)

/-- A write that reaches the DRAM controllers. -/
def State.dramWrite (s : State) (a : Nat) (bs : List (Option Byte)) : State :=
  let cs := enabled a bs
  let s := s.countBytes a cs.length
  (unitsOf 32 a bs.length).foldl (fun s n =>
    let part := Sparse.range cs (n * 32) 32
    if part.isEmpty then s else if s.eccAt (n * 32) then s.writeCw n part else s.putCells part) s

/-! ## L2 -/

/-- What an error of the L2 that a request to a line meets does (R163): correction, invalidation of a clean line, poison of a dirty line,
repair of a tag, or a fatal record. -/
def State.lineError (s : State) (line : Nat) (e : LineError) : State :=
  let a := line * 128
  let corr (s : State) := s.countSat Reg.L2C_ECC_COUNT 15 0 1
  let tag (set : Fin 4096) := sliceOf a * 4096 + set.val
  match e with
  | .sound => s
  | .single => (corr s).rec0 0x0301 0x20 0 (a % 2 ^ 32) (a / 2 ^ 32)
  | .double =>
    if (Sparse.range s.l2.dirty a 128).isEmpty then
      (corr { s with l2 := { s.l2 with lines := Sparse.drop s.l2.lines line } }).rec0 0x0301 0x20 0 (a % 2 ^ 32) (a / 2 ^ 32)
    else { s with l2 := { s.l2 with
      lines := Sparse.put s.l2.lines line true, dirtyPoison := Sparse.put s.l2.dirtyPoison line true } }
  | .tagCopy set way => (corr s).rec0 0x0304 0x20 0 (tag set) way.val
  | .tagBoth set way => (s.countSat Reg.L2C_ECC_COUNT 31 16 1).rec0 0x0305 0x20 3 (tag set) way.val

/-- A request to a line meets the errors that have arisen in it, whoever makes it (R163). -/
def State.lineCheck (s : State) (line : Nat) : State :=
  match Sparse.find s.l2.errs line with
  | none => s
  | some e => { s with l2 := { s.l2 with errs := Sparse.drop s.l2.errs line } }.lineError line e

/-- The ways in which an L2 class allocates now (R159): those of its register, or those before a write that is held (R162). -/
def State.wayMask (s : State) (cls : Nat) : Nat := (Sparse.find s.l2.oldMask cls).getD (s.reg (Reg.L2C_WAYMASK cls)).toNat

/-- Whether an L2 class allocates a line (R159): its mask has a way that is not disabled in the line's slice (R510). -/
def State.allocates (s : State) (cls line : Nat) : Bool :=
  (setBitsOf 16 (s.wayMask cls)).any (fun w => !s.boot.ways.contains (sliceOf (line * 128), w))

/-- Whether an operation is a full flush. -/
def fullFlush (op : Nat) : Bool := op == 1 || op == 2

/-- How many operations, from the oldest, the last full flush of the queue needs to complete. -/
def flushDepth (q : List L2Maint) : Nat := ((q.zipIdx).filter (fun x => fullFlush x.1.op)).getLast?.elim 0 (fun x => x.2 + 1)

/-- Operations have left the queue, and `n` are left of those that the held way-mask writes wait for: with none the writes take effect
(R162). -/
def State.maskLeft (s : State) (n : Nat) : State :=
  if n ≠ 0 then { s with l2 := { s.l2 with maskWait := n } }
  else if s.l2.maskWait = 0 then s
  else ({ s with l2 := { s.l2 with maskWait := 0, oldMask := [] } }).clearFlag Reg.L2C_MAINT_STATUS 3

/-- A hit or a miss counted at a line's home slice (R172). -/
def State.countHit (s : State) (line : Nat) (hit : Bool) : State :=
  let sl := sliceOf (line * 128)
  s.count64 (if hit then Reg.L2C_SLICE_HIT_LO sl else Reg.L2C_SLICE_MISS_LO sl) 1

/-- The line that a request finds in the L2 (R159), if any: whether it is poisoned. A resident line may have been replaced, which no rule
specifies (free): the count is then a miss, and a clean line is gone, so that DRAM is read again (R470; log entry 90 for a dirty one). -/
def State.l2Held (s : State) (line : Nat) : Option Bool × State :=
  let s := s.lineCheck line
  match Sparse.find s.l2.lines line with
  | some poison =>
    let (kept, s) := s.drawBool
    if kept then (some poison, s.countHit line true)
    else if (Sparse.range s.l2.dirty (line * 128) 128).isEmpty then
      (none, { s with l2 := { s.l2 with lines := Sparse.drop s.l2.lines line } }.countHit line false)
    else (some poison, s.countHit line false)
  | none => (none, s.countHit line false)

/-- One request of an L2 class to a line (R159): hit or miss counted at its home slice, the line allocated on a miss if
the class's mask allows. -/
def State.l2Look (s : State) (cls line : Nat) (noAlloc : Bool) : Bool × State :=
  match s.l2Held line with
  | (some poison, s) => (poison, s)
  | (none, s) =>
    let (poison, s) := s.readLine line
    if noAlloc || !s.allocates cls line then (poison, s)
    else (poison, { s with l2 := { s.l2 with lines := Sparse.put s.l2.lines line poison } })

/-- The byte of device memory at an address as the L2 and DRAM hold it; none if nothing has written it. -/
def State.devByte (s : State) (a : Nat) : Option Byte :=
  match Sparse.find s.l2.dirty a with
  | some b => some b
  | none => Sparse.find s.dram.bytes a

/-- The bytes of device memory from an address; a byte nothing has written is free (R481). -/
def State.devBytes (s : State) (a n : Nat) : List Byte :=
  (List.range n).map (fun i => match s.devByte (a + i) with
    | some b => b
    | none => Config.freeByte s.draws (a + i))

/-- A read of device memory through the home slices: the bytes, whether any is poisoned, and the state after. -/
def State.devRead (s : State) (cls a n : Nat) (noAlloc : Bool) : List Byte × Bool × State :=
  let (poison, s) := (unitsOf 128 a n).foldl
    (fun (p, s) line => let (q, s) := s.l2Look cls line noAlloc; (p || q, s)) (false, s)
  (s.devBytes a n, poison, { s with draws := s.draws + 1 })

/-- What a line that a write allocates takes from DRAM: of the code words that the write does not cover, those that have been written;
whether any is poisoned. One never written holds zeros beside the written bytes, as R471 merges them (DEDUCED, log entry 37). -/
def State.fillLine (s : State) (line : Nat) (part : List Host.Cell) : Bool × State :=
  if part.length = 128 then (false, s)
  else
    let s := s.countBytes (line * 128) 128
    if s.eccAt (line * 128) then
      (List.range 4).foldl (fun (p, s) i =>
        let n := line * 4 + i
        if (Sparse.range part (n * 32) 32).length = 32 || !(s.cwMark n).written then (p, s)
        else let (q, s) := s.readCw n; (p || q, s)) (false, s)
    else (false, s)

/-- A write of cells of one line held in the L2: poison stays with the line unless the write covers all of it. -/
def State.lineMerge (s : State) (line : Nat) (part : List Host.Cell) (poison : Bool) : State :=
  let bad := poison && part.length ≠ 128
  { s with l2 := { s.l2 with
    lines := Sparse.put s.l2.lines line bad, dirty := Sparse.merge s.l2.dirty part,
    dirtyPoison := if bad then Sparse.put s.l2.dirtyPoison line true else Sparse.drop s.l2.dirtyPoison line } }

/-- A write of an L2 class to one line (R159): into a resident or newly allocated line, or past the L2. -/
def State.lineWrite (s : State) (cls line : Nat) (part : List Host.Cell) (noAlloc : Bool) : State :=
  match s.l2Held line with
  | (some poison, s) => s.lineMerge line part poison
  | (none, s) =>
    if noAlloc || !s.allocates cls line then
      s.dramWrite (line * 128) ((List.range 128).map (fun i => Sparse.find part (line * 128 + i)))
    else
      let (poison, s) := s.fillLine line part
      s.lineMerge line part poison

/-- A write reaches the dimming controller's duty buffers under a kernel map (R311): outside the window from the publication of a
frame to the store of its tag, the next duties sent from that buffer are undefined. -/
def State.dutyNote (s : State) (a : Nat) (bs : List (Option Byte)) : State :=
  let c (r hi lo : Nat) : Nat := bits (Sparse.get s.ldm.cap 0 r).toNat hi lo
  if !s.flag Reg.LDM_STATUS 0 || c Reg.LDM_CTRL 6 5 ≠ 1 then s
  else
    let base (b : Nat) : Nat := c Reg.LDM_DUTY_LO 31 0 + c Reg.LDM_DUTY_HI 7 0 * 2 ^ 32 + b * 16384
    let open_ (b : Nat) : Bool := !s.ldm.tagStored && s.ldm.awaiting.any (fun f => f % 2 == b)
    let hit (b : Nat) : Bool :=
      decide (a < base b + 16 + 2 * (c Reg.LDM_GRID 6 0 * c Reg.LDM_GRID 22 16) ∧ base b + 16 < a + bs.length) && !open_ b
    let tag := s.ldm.awaiting.any (fun f => decide (a ≤ base (f % 2))
      && (bs.drop (base (f % 2) - a)).take 4 == full (leBytes 4 f))
    { s with ldm := { s.ldm with
      broken := s.ldm.broken ++ (List.range 2).filter hit, tagStored := s.ldm.tagStored || tag } }

/-- A write to device memory through the home slices. -/
def State.devWrite (s : State) (cls a : Nat) (bs : List (Option Byte)) (noAlloc : Bool) : State :=
  let s := s.dutyNote a bs
  let cs := enabled a bs
  (unitsOf 128 a bs.length).foldl (fun s line =>
    let part := Sparse.range cs (line * 128) 128
    if part.isEmpty then s else s.lineWrite cls line part noAlloc) s

/-- A whole line as its write-back stores it (R160, R467): its dirty bytes, else what DRAM holds, else zeros in a protected region; in an
unprotected one a byte that nothing has written stays so. -/
def State.wholeLine (s : State) (line : Nat) : List (Option Byte) :=
  (List.range 128).map (fun i => match s.devByte (line * 128 + i) with
    | some b => some b
    | none => if s.eccAt (line * 128) then some 0 else none)

/-- Write back one dirty line, as one whole line (R160, R161, R163, R472). A poisoned line sets the poison of its protected code words; in
an unprotected region it is stored as it is, with record 0x0303. -/
def State.writeBack (s : State) (line : Nat) : State :=
  if (Sparse.range s.l2.dirty (line * 128) 128).isEmpty then s
  else
    let s := s.lineCheck line
    let s := s.dramWrite (line * 128) (s.wholeLine line)
    let s := { s with l2 := { s.l2 with dirty := Sparse.dropRange s.l2.dirty (line * 128) 128 } }
    if Sparse.find s.l2.dirtyPoison line = some true then
      let s := { s with l2 := { s.l2 with dirtyPoison := Sparse.drop s.l2.dirtyPoison line } }
      if s.eccAt (line * 128) then
        (List.range 4).foldl (fun s i => s.setMark (line * 4 + i) ⟨true, false, false, true⟩) s
      else
        (s.countSat Reg.L2C_ECC_COUNT 31 16 1).rec0 0x0303 0x20 1 (line * 128 % 2 ^ 32) (line * 128 / 2 ^ 32)
    else s

/-- Distinct numbers of a rising list. -/
def dedup : List Nat → List Nat
  | [] => []
  | a :: t => if t.head? = some a then dedup t else a :: dedup t

/-- The dirty lines, ascending. -/
def State.dirtyLines (s : State) : List Nat := dedup (s.l2.dirty.map (fun p => p.1 / 128))

/-- Write back dirty lines that satisfy a test. -/
def State.flushLines (s : State) (f : Nat → Bool) : State :=
  (s.dirtyLines.filter f).foldl (fun s l => s.writeBack l) s

/-- Discard lines that satisfy a test, dirty or not. -/
def State.dropLines (s : State) (f : Nat → Bool) : State :=
  { s with l2 := { s.l2 with
    lines := s.l2.lines.filter (fun p => !f p.1), dirty := s.l2.dirty.filter (fun p => !f (p.1 / 128)),
    dirtyPoison := s.l2.dirtyPoison.filter (fun p => !f p.1), errs := s.l2.errs.filter (fun p => !f p.1) } }

/-- One line of a range of zeros (R160): zeroed in place where it is present, else allocated in the ways of class 14 and dirty, without
reading DRAM, or where the class has none written to DRAM (R159). -/
def State.zeroLine (s : State) (line : Nat) : State :=
  let zeros : List Host.Cell := (List.range 128).map (fun i => (line * 128 + i, (0 : Byte)))
  let present := (Sparse.find s.l2.lines line).isSome
  let s := s.countHit line present
  if !present && !s.allocates 14 line then s.dramWrite (line * 128) (List.replicate 128 (some 0))
  else { s with l2 := { s.l2 with errs := Sparse.drop s.l2.errs line } }.lineMerge line zeros false

/-- The effect of a maintenance operation (R161): 1 flush all, 2 flush and invalidate all, 3 flush range, 4 flush and
invalidate range, 5 invalidate range, 6 zero range. -/
def State.l2Do (s : State) (op addr lines : Nat) : State :=
  let inRange (l : Nat) : Bool := addr / 128 ≤ l && l < addr / 128 + lines
  match op with
  | 1 => s.flushLines (fun _ => true)
  | 2 => (s.flushLines (fun _ => true)).dropLines (fun _ => true)
  | 3 => s.flushLines inRange
  | 4 => (s.flushLines inRange).dropLines inRange
  | 5 => s.dropLines inRange
  | 6 => (List.range lines).foldl (fun s i => s.zeroLine (addr / 128 + i)) s
  | _ => s

/-- A device consumer uses a poisoned line (R163): record 0x0302 and a count. Its context's fault is the caller's. -/
def State.poisonUsed (s : State) (c a : Nat) : State :=
  (s.countSat Reg.L2C_ECC_COUNT 31 16 1).recC 0x0302 0x20 2 c (a % 2 ^ 32) (a / 2 ^ 32)

/-! ## Host memory -/

/-- Bytes of host memory as a device read finds them now: the host's, so free (R444). The request goes onto the link behind every write
posted before it (R446), with the No Snoop attribute where its object has NOSNOOP (R445). -/
def State.hostBytes (s : State) (a n : Nat) (noSnoop : Bool) : List Byte × State :=
  ((List.range n).map (fun i => Config.hostByte s.draws (a + i)), { s.post (.hostRead a n noSnoop) with draws := s.draws + 1 })

/-- A refused access to protected memory (R571): record 0x1003, uncorrected, under the MMU's ID. -/
def State.protRefused (s : State) (c a : Nat) : State :=
  s.recC 0x1003 0x22 2 c (a % 2 ^ 32) (a / 2 ^ 32)

end Sys2Proof.Machine
end

