-- ==== Sys2Proof/Machine/Translate.lean ====
section
/-! DEFINITION. Address translation (chapter 11): layouts, walks, TLBs and walk caches, the classes of output addresses,
faults and their capture. -/

namespace Sys2Proof.Machine

/-! ## Layouts (R403, R404) -/

/-- A descriptor layout, decoded from its registers. -/
structure Layout where
  g : Nat
  sBits : Nat
  levels : Nat
  iabits : Nat
  addrLo : Nat
  addrHi : Nat
  blockLv : Nat
  hier : Bool
  reqTable : Bool
  valid : Nat
  type : Nat
  tpol : Bool
  write : Nat
  wpol : Bool
  nx : Nat
  nxEn : Bool
  dev : Nat
  dpol : Bool
  devEn : Bool
  req : Nat
  deriving DecidableEq, Repr

/-- The granule exponent of a GRAN code. -/
def granBits (gran : Nat) : Nat := 12 + 2 * gran

/-- Layout `n` as its registers give it. -/
def State.layout (s : State) (n : Nat) : Layout :=
  let c := Reg.MMU_LAYOUT_CTRL n
  let f0 := Reg.MMU_LAYOUT_FLAGS0 n
  let f1 := Reg.MMU_LAYOUT_FLAGS1 n
  { g := granBits (s.fld c 2 1), sBits := granBits (s.fld c 2 1) - 3, levels := s.fld c 5 3, iabits := s.fld c 11 6,
    addrLo := s.fld c 17 12, addrHi := s.fld c 23 18, blockLv := s.fld c 28 24, hier := s.flag c 29,
    reqTable := s.flag c 30, valid := s.fld f0 5 0, type := s.fld f0 13 8, tpol := s.flag f0 14,
    write := s.fld f0 21 16, wpol := s.flag f0 22, nx := s.fld f1 5 0, nxEn := s.flag f1 6, dev := s.fld f1 13 8,
    dpol := s.flag f1 14, devEn := s.flag f1 15, req := s.reg64 (Reg.MMU_LAYOUT_REQ_LO n) }

/-- The input-address widths R404 accepts for a granule code and a number of levels. -/
def iabitsOk (gran levels ia : Nat) : Bool :=
  match gran, levels with
  | 0, 3 => 32 ≤ ia && ia ≤ 39
  | 0, 4 => 40 ≤ ia && ia ≤ 48
  | 0, 5 => 49 ≤ ia && ia ≤ 57
  | 1, 3 => 38 ≤ ia && ia ≤ 47
  | 1, 4 => 48 ≤ ia && ia ≤ 57
  | 2, 3 => 43 ≤ ia && ia ≤ 55
  | 2, 4 => 56 ≤ ia && ia ≤ 57
  | _, _ => false

/-- The lowest input bit a level resolves. -/
def Layout.lo (l : Layout) (level : Nat) : Nat := l.g + (l.levels - 1 - level) * l.sBits

/-- Number of entries of the root table (R404). -/
def Layout.rootEntries (l : Layout) : Nat := 2 ^ (l.iabits - l.lo 0)

/-- The descriptor address of a level (R405). -/
def Layout.entryAddr (l : Layout) (level table ia : Nat) : Nat :=
  let w := if level = 0 then l.iabits - l.lo 0 else l.sBits
  table + 8 * (ia / 2 ^ l.lo level % 2 ^ w)

/-- Bits ADDR_HI to ADDR_LO of a descriptor. -/
def Layout.addrOf (l : Layout) (d : Nat) : Nat := bits d l.addrHi l.addrLo * 2 ^ l.addrLo

/-- W(d), X(d) and DV(d) of R405. -/
def Layout.wOf (l : Layout) (d : Nat) : Bool := bit d l.write != l.wpol
def Layout.xOf (l : Layout) (d : Nat) : Bool := if l.nxEn then !bit d l.nx else true
def Layout.dvOf (l : Layout) (d : Nat) : Bool := if l.devEn then bit d l.dev != l.dpol else false

/-- What one descriptor leads to (R405). -/
inductive DescResult where
  | table (next : Nat) (wr ex : Bool)
  | leaf (out size : Nat) (wr ex dv : Bool)
  | notPresent
  deriving DecidableEq, Repr

/-- Decode one descriptor at a level (R405). -/
def Layout.decode (l : Layout) (level ia d : Nat) (wr ex : Bool) : DescResult :=
  if !bit d l.valid then .notPresent
  else
    let last := level + 1 == l.levels
    let leaf := last || bit d l.type != l.tpol
    if leaf && !last && !bit l.blockLv level then .notPresent
    else
      let req := if leaf || l.reqTable then l.req else 0
      if Nat.land d req ≠ req then .notPresent
      else
        let wr := if leaf || l.hier then wr && l.wOf d else wr
        let ex := if leaf || l.hier then ex && l.xOf d else ex
        if leaf then
          let lo := l.lo level
          .leaf (l.addrOf d / 2 ^ lo * 2 ^ lo + ia % 2 ^ lo) (2 ^ lo) wr ex (l.dvOf d)
        else .table (l.addrOf d / 2 ^ l.g * 2 ^ l.g) wr ex

/-! ## Where an output address leads (R407, R408) -/

/-- The device physical base of the BAR2 window. -/
def State.bar2Base (s : State) : Nat :=
  s.fld Reg.HIF_BAR2_BASE_LO 31 28 * 2 ^ 28 + s.fld Reg.HIF_BAR2_BASE_HI 7 0 * 2 ^ 32

/-- Whether an enabled aperture holds a host physical address. -/
def State.inAperture (s : State) (a : Nat) : Bool :=
  (List.range 8).any (fun i => s.flag Reg.MMU_APER_EN i
    && s.reg64 (Reg.MMU_APER_BASE_LO i) ≤ a && a < s.reg64 (Reg.MMU_APER_LIMIT_LO i) + 4096)

/-- Whether a BAR assigned at a base holds an address. -/
def inBar (base : Option Nat) (size a : Nat) : Bool :=
  match base with
  | some b => b ≤ a && a < b + size
  | none => false

/-- The class of a host physical address, with the device address behind BAR2 (R407). -/
def State.classify (s : State) (a : Nat) : OutClass × Nat :=
  if inBar s.hif.bar0 (2 ^ 25) a then (.self, a)
  else if inBar s.hif.bar2 (2 ^ s.hif.bar2Log2) a then (.device, s.bar2Base + (a - s.hif.bar2.getD 0))
  else if s.inAperture a then (.mmio, a)
  else (.host, a)

/-- The class of an output address of a regime: device physical when the device region says so (R408). -/
def State.outClass (s : State) (dout : Bool) (a : Nat) : OutClass × Nat := if dout then (.device, a) else s.classify a

/-! ## Contexts and regimes -/

/-- The enabled context `c`. -/
def State.ctx (s : State) (c : Nat) : Option Ctx := Sparse.find s.ctxs c

/-- Whether an address selects the host window (R400). -/
def Xlat.inWindow (x : Xlat) (va : Nat) : Bool :=
  x.hostEn && x.devBase ≤ va && va < x.devBase + x.winGiB * 2 ^ 30

/-- The memory object that holds an address. -/
def Ctx.objectAt (x : Ctx) (va : Nat) : Option MemObject := x.objects.find? (fun o => o.base ≤ va && va < o.base + o.size)

/-- Whether the object that holds an address has NOSNOOP (R445), which applies in the host window only (R332). -/
def State.noSnoopAt (s : State) (c va : Nat) : Bool := match s.ctx c with
  | some x => x.xlat.inWindow va && (x.objectAt va).any (fun o => o.noSnoop)
  | none => false

/-- Whether the tables and outputs of a regime are device physical. -/
def Xlat.devPhys (x : Xlat) (host : Bool) : Bool := !host && x.dout

/-- A failed translation: low nibble of the code, level, the physical address it concerns, cause. -/
structure XFault where
  code : Nat
  level : Nat
  pa : Nat
  cause : Nat
  host : Bool
  deriving DecidableEq, Repr

/-- A translated address: class, output address, DV, and of its leaf whether it allows execution, and the level. -/
structure XOut where
  cls : OutClass
  out : Nat
  dv : Bool
  ex : Bool
  level : Nat
  deriving DecidableEq, Repr

/-- The outcome of a lookup or a walk. -/
inductive XResult where
  | ok (o : XOut)
  | fault (f : XFault)
  deriving DecidableEq, Repr

/-- Check an installed or walked translation for an access (R405, R407, R408, R414); the class of the address comes before the
permissions (DESIGN CHOICE, log entry 83). -/
def State.checkOut (s : State) (access : AccessKind) (host : Bool) (level : Nat) (cls : OutClass) (out : Nat)
    (wr ex dv : Bool) : XResult :=
  match cls with
  | .self => .fault ⟨7, level, out, 0, host⟩
  | .device =>
    if !s.isDevMem out then .fault ⟨4, level, out, 0, host⟩
    else if (access = .write ∨ access = .atomic) ∧ !wr then .fault ⟨2, level, out, 0, host⟩
    else if access = .exec ∧ !ex then .fault ⟨3, level, out, 0, host⟩
    else .ok ⟨cls, out, dv, ex, level⟩
  | _ =>
    if (access = .write ∨ access = .atomic) ∧ !wr then .fault ⟨2, level, out, 0, host⟩
    else if access = .exec ∧ !ex then .fault ⟨3, level, out, 0, host⟩
    else .ok ⟨cls, out, dv, ex, level⟩

/-! ## TLBs and walk caches (R412, R413) -/

/-- The regime of an address and its input address. -/
def Xlat.input (x : Xlat) (va : Nat) : Bool × Nat :=
  if x.inWindow va then (true, va - x.devBase + x.hostBase) else (false, va)

/-- The TLB structures a lookup of a requester consults: a core's micro-TLB is backed by its cluster's TLB. -/
def TlbId.serves (asker held : TlbId) : Bool :=
  asker = held || match asker, held with
    | .core n, .cluster k => n / 4 == k
    | _, _ => false

/-- The entry that a lookup hits. -/
def State.tlbFind (s : State) (t : TlbId) (asid : Nat) (host : Bool) (ia : Nat) : Option TlbEntry :=
  s.mmu.tlb.find? (fun e => t.serves e.tlb && e.asid == asid && e.host == host && e.va ≤ ia && ia < e.va + e.size)

/-- Entries of each structure of R412. -/
def TlbId.capacity : TlbId → Nat
  | .core _ => 32
  | .cluster _ => 2048
  | .display => 256
  | .copy => 64
  | .command => 64

/-- Remove the `n`-th element of a list that satisfies a test. -/
def dropNth {α : Type} (f : α → Bool) : Nat → List α → List α
  | _, [] => []
  | n, a :: t => if !f a then a :: dropNth f n t else if n = 0 then t else a :: dropNth f (n - 1) t

/-- Room for one more entry in a TLB: where it is full an entry that is not pinned leaves it, which one no rule says (free, log entry
84). The sets of a cluster's TLB have 8 ways, so from 8 entries on one may leave it. -/
def State.tlbRoom (s : State) (t : TlbId) : State :=
  let mine (e : TlbEntry) : Bool := e.tlb == t && !e.pinned
  let held := (s.mmu.tlb.filter (fun e => e.tlb == t)).length
  let n := (s.mmu.tlb.filter mine).length
  let sets := match t with
    | .cluster _ => true
    | _ => false
  if n = 0 ∨ (held < t.capacity ∧ !(sets && 8 ≤ held)) then s
  else
    let (d, s) := s.drawNat
    let i := if t.capacity ≤ held then d % n else d % (n + 1)
    { s with mmu := { s.mmu with tlb := dropNth mine i s.mmu.tlb } }

/-- The addresses at which the class of a host physical address may change (R407). -/
def State.classEdges (s : State) : List Nat :=
  let bar (b : Option Nat) (n : Nat) : List Nat := match b with
    | some a => [a, a + n]
    | none => []
  bar s.hif.bar0 (2 ^ 25) ++ bar s.hif.bar2 (2 ^ s.hif.bar2Log2)
    ++ ((List.range 8).filter (fun i => s.flag Reg.MMU_APER_EN i)).flatMap (fun i =>
        [s.reg64 (Reg.MMU_APER_BASE_LO i), s.reg64 (Reg.MMU_APER_LIMIT_LO i) + 4096])

/-- The size of the piece of a page that one entry maps (R413): at most 1 GiB, and halved while addresses of two classes may lie in it
(DEDUCED, log entry 87). -/
def entrySize (edges : List Nat) (a : Nat) : Nat → Nat → Nat
  | 0, sz => sz
  | n + 1, sz =>
    if 4096 < sz ∧ edges.any (fun e => decide (a / sz * sz < e) && decide (e < a / sz * sz + sz)) then entrySize edges a n (sz / 2) else sz

/-- Install a translation (R413): at most 1 GiB an entry; a core's goes to its micro-TLB and its cluster's TLB. `phys` is the output
address before BAR2's mapping, `out` the one after it. -/
def State.install (s : State) (t : TlbId) (asid : Nat) (host : Bool) (ia phys out size : Nat) (cls : OutClass)
    (wr ex dv : Bool) (level : Nat) : State :=
  let sz := entrySize s.classEdges phys 18 (min size (2 ^ 30))
  let off := ia % sz
  let e : TlbEntry := ⟨t, asid, host, ia - off, sz, out - off, cls, wr, ex, dv, level, false⟩
  let es := match t with
    | .core n => [e, { e with tlb := .cluster (n / 4) }]
    | _ => [e]
  let s := es.foldl (fun s e => s.tlbRoom e.tlb) s
  { s with mmu := { s.mmu with tlb := es ++ s.mmu.tlb } }

/-- The deepest cached table descriptor for an input address. -/
def State.wcacheFind (s : State) (asid : Nat) (host : Bool) (ia : Nat) : Option WalkCacheEntry :=
  (s.mmu.wcache.filter (fun e => e.asid == asid && e.host == host && ia / 2 ^ e.lo == e.prefix_)).foldl
    (fun b e => match b with
      | some x => if x.level < e.level then some e else b
      | none => some e) none

/-- Remove TLB entries and cached descriptors that satisfy tests. -/
def State.tlbDrop (s : State) (f : TlbEntry → Bool) (g : WalkCacheEntry → Bool) : State :=
  { s with mmu := { s.mmu with
    tlb := s.mmu.tlb.filter (fun e => !f e), wcache := s.mmu.wcache.filter (fun e => !g e) } }

/-- Discard everything of an address space (R413). -/
def State.tlbDropAsid (s : State) (asid : Nat) : State :=
  s.tlbDrop (fun e => e.asid == asid) (fun e => e.asid == asid)

/-! ## Walks -/

/-- Where a walk goes next: a descriptor read at an address and class, or its end. -/
inductive WalkStep where
  | readAt (level addr : Nat) (cls : OutClass) (out : Nat) (wr ex : Bool)
  | done (out size : Nat) (wr ex dv : Bool) (level : Nat)
  | fault (f : XFault)
  deriving DecidableEq, Repr

/-- Classify a table address before its read (R405, R407, R408). -/
def State.walkRead (s : State) (c : Nat) (dout host : Bool) (level addr : Nat) (wr ex : Bool) : WalkStep :=
  match s.outClass dout addr with
  | (.self, _) => .fault ⟨6, level, addr, 0, host⟩
  | (.mmio, _) => .fault ⟨6, level, addr, 0, host⟩
  | (.device, out) =>
    if !s.isDevMem out then .fault ⟨5, level, addr, 2, host⟩
    else if !s.ctxMayAccess c out then .fault ⟨5, level, addr, 3, host⟩
    else .readAt level addr .device out wr ex
  | (.host, out) => .readAt level addr .host out wr ex

/-- The start of a walk (R400, R402, R405), from the deepest cached level. -/
def State.walkStart (s : State) (c : Nat) (x : Xlat) (host : Bool) (ia : Nat) : WalkStep :=
  let l := s.layout (if host then x.hlayout else x.dlayout)
  let root := if host then x.hostRoot else x.root
  if root = 0 then .fault ⟨1, 0, 0, 0, host⟩
  else if ia / 2 ^ l.iabits ≠ 0 then .fault ⟨4, 0, 0, 0, host⟩
  else match s.wcacheFind x.asid host ia with
    | some e => s.walkRead c (x.devPhys host) host e.level (l.entryAddr e.level e.table ia) e.wr e.ex
    | none => s.walkRead c (x.devPhys host) host 0 (l.entryAddr 0 root ia) true true

/-- One descriptor read of a walk returns its value (R405). The second part is the table descriptor to cache. -/
def State.walkFeed (s : State) (c : Nat) (x : Xlat) (host : Bool) (ia level addr d : Nat) (wr ex : Bool) :
    WalkStep × Option WalkCacheEntry :=
  let l := s.layout (if host then x.hlayout else x.dlayout)
  match l.decode level ia d wr ex with
  | .notPresent => (.fault ⟨1, level, addr, 0, host⟩, none)
  | .leaf out size wr ex dv => (.done out size wr ex dv level, none)
  | .table next wr ex =>
    (s.walkRead c (x.devPhys host) host (level + 1) (l.entryAddr (level + 1) next ia) wr ex,
     some ⟨x.asid, host, level + 1, l.lo level, ia / 2 ^ l.lo level, next, wr, ex⟩)

/-- Cache a table descriptor; of the 512 that are held one leaves, which one no rule says (R412; free, log entry 84). -/
def State.wcachePut (s : State) (e : Option WalkCacheEntry) : State :=
  match e with
  | some e =>
    let (l, s) := if s.mmu.wcache.length < 512 then (s.mmu.wcache, s)
      else let (d, s) := s.drawNat; (dropNth (fun _ => true) (d % s.mmu.wcache.length) s.mmu.wcache, s)
    { s with mmu := { s.mmu with wcache := e :: l } }
  | none => s

/-- Read one descriptor: from device memory at class 11, poisoned data failing it, or from the host (free). -/
def State.descRead (s : State) (cls : OutClass) (out : Nat) : Option Nat × State :=
  match cls with
  | .device =>
    let (bs, poison, s) := s.devRead 11 out 8 false
    (if poison then none else some (leNat bs), s)
  | _ => let (bs, s) := s.hostBytes out 8 false; (some (leNat bs), s)

/-- Run a whole walk within one step, for requesters other than the cores; `fuel` covers every level. -/
def State.walkRun (s : State) (c : Nat) (x : Xlat) (host : Bool) (ia : Nat) : Nat → WalkStep → WalkStep × State
  | 0, w => (w, s)
  | n + 1, w =>
    match w with
    | .readAt level addr cls out wr ex =>
      let (d, s) := s.descRead cls out
      match d with
      | none => (.fault ⟨5, level, addr, 1, host⟩, s)
      | some d =>
        let (w, e) := s.walkFeed c x host ia level addr d wr ex
        (s.wcachePut e).walkRun c x host ia n w
    | w => (w, s)

/-- The migrated block that holds a host-window address (R428). -/
def Ctx.migrated (x : Ctx) (va : Nat) : Option MigBlock := x.blocks.find? (fun b => b.va == va / 65536 * 65536)

/-- The device address of a byte of a migrated block. -/
def Ctx.migAddr (x : Ctx) (b : MigBlock) (va : Nat) : Nat := x.xlat.migBase + b.block * 65536 + va % 65536

/-- Whether a device write to a migrated block drops it: a duplicate (R429). -/
def MigBlock.drops (b : MigBlock) (access : AccessKind) : Bool := b.duplicate && (access = .write || access = .atomic)

/-- The redirected translation of an address in a migrated block, checked for an access: its pages are writable host memory (R428). -/
def State.migAnswer (s : State) (cx : Ctx) (b : MigBlock) (va : Nat) (access : AccessKind) : XResult :=
  let p := (b.pages[va % 65536 / 4096]?).getD ⟨0, false, 0⟩
  s.checkOut access true p.level .device (cx.migAddr b va) true p.ex false

/-- The answer of a TLB entry to an access: the permission is checked again at every lookup (R413). -/
def State.tlbAnswer (s : State) (e : TlbEntry) (ia : Nat) (access : AccessKind) : XResult :=
  s.checkOut access e.host e.level e.cls (e.out + (ia - e.va)) e.wr e.ex e.dv

/-- A walk has found its leaf (R413, R417): the answer to the access that caused it, and the entry installed, unless a withdrawal covers
the walk (R420) or the output address itself faults (DEDUCED, log entry 83). -/
def State.walkEnd (s : State) (t : TlbId) (x : Xlat) (host : Bool) (ia out size : Nat) (wr ex dv : Bool) (level : Nat)
    (access : AccessKind) (covered : Bool) : XResult × State :=
  let (cls, o) := s.outClass (x.devPhys host) out
  let keeps := !covered && (s.checkOut .read host level cls o true true dv == .ok ⟨cls, o, dv, true, level⟩)
  (s.checkOut access host level cls o wr ex dv, if keeps then s.install t x.asid host ia out o size cls wr ex dv level else s)

/-- Walk within one step, for requesters other than the cores (R405). -/
def State.walkNow (s : State) (t : TlbId) (c : Nat) (x : Xlat) (host : Bool) (ia : Nat) (access : AccessKind) : XResult × State :=
  let s := s.count64 Reg.MMU_WALKS_LO 1
  match s.walkRun c x host ia 6 (s.walkStart c x host ia) with
  | (.done out size wr ex dv level, s) => s.walkEnd t x host ia out size wr ex dv level access false
  | (.fault f, s) => (.fault f, s)
  | (.readAt level addr _ _ _ _, s) => (.fault ⟨5, level, addr, 1, host⟩, s)

/-- Translate one address within one step (R400 to R417): migrated block, TLB, or a walk that is installed. A device write to a duplicate
drops it and is performed in host memory (R429). -/
def State.xlate (s : State) (t : TlbId) (c : Nat) (va : Nat) (access : AccessKind) : XResult × State :=
  match s.ctx c with
  | none => (.fault ⟨1, 0, 0, 0, false⟩, s)
  | some cx =>
    let x := cx.xlat
    let (host, ia) := x.input va
    match (if host then cx.migrated va else none) with
    | some b =>
      if b.drops access then
        { s with ctxs := Sparse.put s.ctxs c { cx with blocks := cx.blocks.filter (fun y => y.block != b.block) } }.walkNow
          t c x host ia access
      else (s.migAnswer cx b va access, s)
    | none => match s.tlbFind t x.asid host ia with
      | some e => (s.tlbAnswer e ia access, s)
      | none => s.walkNow t c x host ia access

/-! ## Fault capture (R414 to R416) -/

/-- The ACCESS code of MMU_FAULT_STATUS. -/
def AccessKind.code : AccessKind → Nat
  | .read => 0 | .write => 1 | .exec => 2 | .atomic => 3

/-- Capture a fault, or count it while one is captured, and raise FAULT_VEC (R416). A walk read that a protected range
refused is recorded as R571 gives. -/
def State.mmuCapture (s : State) (c unit va : Nat) (access : AccessKind) (f : XFault) : State :=
  if s.flag Reg.MMU_FAULT_STATUS 31 then s.countSat Reg.MMU_FAULT_STATUS 27 21 1
  else
    let s := s.setReg Reg.MMU_FAULT_STATUS (BitVec.ofNat 32 (f.code + f.level * 16 + access.code * 256
      + (if f.host then 1024 else 0) + c * 65536 + 2 ^ 31))
    let s := s.setReg Reg.MMU_FAULT_INFO (BitVec.ofNat 32 (unit + (f.cause % 3) * 256))
    let s := s.setReg64 Reg.MMU_FAULT_VA_LO va
    let s := s.setReg64 Reg.MMU_FAULT_PA_LO f.pa
    if s.flag Reg.MMU_CTRL 0 then s.raiseVec (s.fld Reg.MMU_CTRL 13 8) else s

/-- The MMU's part of a fault whose requester has a record (R415): capture and record, of a severity. -/
def State.mmuFault (s : State) (c unit va : Nat) (access : AccessKind) (sev : Nat) (f : XFault) : State :=
  if f.code = 5 ∧ f.cause = 3 then s.protRefused c f.pa
  else (s.mmuCapture c unit va access f).recC (0x0B00 + f.code) 0x22 sev c (va % 2 ^ 32) (va / 2 ^ 32)

end Sys2Proof.Machine
end

