-- ==== Sys2Proof/Machine/Access.lean ====
section
/-! DEFINITION. Reads and writes of device virtual addresses by requesters other than the cores: translated in the step, split
at 4 KiB pages, performed in device memory or posted to the host. -/

namespace Sys2Proof.Machine

/-- The parts of a byte range that lie in one 4 KiB page each; `fuel` covers the pages. -/
def pageParts : Nat → Nat → Nat → List (Nat × Nat)
  | 0, _, _ => []
  | f + 1, a, n =>
    if n = 0 then []
    else
      let k := min n (4096 - a % 4096)
      (a, k) :: pageParts f (a + k) (n - k)

/-- The pages of a byte range. -/
def pagesOf (a n : Nat) : List (Nat × Nat) := pageParts (n / 4096 + 2) a n

/-- How a virtual access failed: its address and either a translation fault or a protected range's refusal. -/
inductive VFail where
  | xlate (va : Nat) (f : XFault)
  | prot (va pa : Nat)
  deriving DecidableEq, Repr

/-- The outcome of a virtual read. -/
inductive VRead where
  | ok (bytes : List Byte) (poisoned : Option Nat)
  | fail (f : VFail)
  deriving DecidableEq, Repr

/-- The failing address of a virtual access. -/
def VFail.va : VFail → Nat
  | .xlate va _ => va
  | .prot va _ => va

/-- Read one page's part at its translation. -/
def State.readOut (s : State) (c cls : Nat) (noAlloc protOk : Bool) (va : Nat) (o : XOut) (n : Nat) : VRead × State :=
  match o.cls with
  | .device =>
    if !protOk && !s.ctxMayAccess c o.out then (.fail (.prot va o.out), s)
    else
      let (bs, p, s) := s.devRead cls o.out n noAlloc
      (.ok bs (if p then some o.out else none), s)
  | _ => let (bs, s) := s.hostBytes o.out n (s.noSnoopAt c va); (.ok bs none, s)

/-- Read a range of virtual addresses of a context. -/
def State.vread (s : State) (t : TlbId) (c va n cls : Nat) (noAlloc protOk : Bool) : VRead × State :=
  (pagesOf va n).foldl (fun (r, s) (a, k) =>
    match r with
    | .fail f => (.fail f, s)
    | .ok bs p =>
      match s.xlate t c a .read with
      | (.fault f, s) => (.fail (.xlate a f), s)
      | (.ok o, s) =>
        match s.readOut c cls noAlloc protOk a o k with
        | (.fail f, s) => (.fail f, s)
        | (.ok b q, s) => (.ok (bs ++ b) (p <|> q), s)) (.ok [] none, s)

/-- Read what a program or packet stream holds: bytes of device memory, none for a byte of host memory, whose value the read
itself brings; with a poisoned address if any. -/
def State.rawRead (s : State) (t : TlbId) (cls c va n : Nat) : Option VFail × Option Nat × List (Option Byte) × State :=
  (pagesOf va n).foldl (fun (f, p, bs, s) (a, k) =>
    match f with
    | some f => (some f, p, bs, s)
    | none =>
      match s.xlate t c a .read with
      | (.fault f, s) => (some (.xlate a f), p, bs, s)
      | (.ok o, s) =>
        match o.cls with
        | .device =>
          if !s.ctxMayAccess c o.out then (some (.prot a o.out), p, bs, s)
          else
            let (b, q, s) := s.devRead cls o.out k false
            (none, p <|> (if q then some o.out else none), bs ++ b.map some, s)
        | _ => (none, p, bs ++ List.replicate k none, s)) (none, none, [], s)

/-- Write one page's part at its translation. -/
def State.writeOut (s : State) (c cls : Nat) (noAlloc protOk : Bool) (va : Nat) (o : XOut) (bs : List (Option Byte)) :
    Option VFail × State :=
  match o.cls with
  | .device =>
    if !protOk && !s.ctxMayAccess c o.out then (some (.prot va o.out), s)
    else (none, s.devWrite cls o.out bs noAlloc)
  | _ => (none, s.post (.hostWrite o.out bs (s.noSnoopAt c va)))

/-- Write a range of virtual addresses of a context, up to its first failing page. -/
def State.vwrite (s : State) (t : TlbId) (c va cls : Nat) (bs : List (Option Byte)) (noAlloc protOk : Bool) :
    Option VFail × State :=
  (pagesOf va bs.length).foldl (fun (r, s) (a, k) =>
    match r with
    | some f => (some f, s)
    | none =>
      match s.xlate t c a .write with
      | (.fault f, s) => (some (.xlate a f), s)
      | (.ok o, s) => s.writeOut c cls noAlloc protOk a o ((bs.drop (a - va)).take k)) (none, s)

/-- A unit has posted a write to the host: to host memory at an address, or to MMIO (R86, R87). -/
def State.unitWrote (s : State) (q seq : Nat) (addr : Option Nat) : State :=
  let w := s.sched.hostWrites
  let old := (w.find? (fun x => x.1 == q && x.2.1 == seq)).bind (fun x => x.2.2)
  { s with sched := { s.sched with
    hostWrites := w.filter (fun x => !(x.1 == q && x.2.1 == seq)) ++ [(q, seq, addr <|> old)] } }

/-- A unit's write of a range, as `vwrite`, with its writes to the host noted for the release at the unit's end (R87). -/
def State.vwriteBy (s : State) (q seq : Nat) (t : TlbId) (c va cls : Nat) (bs : List (Option Byte)) : Option VFail × State :=
  (pagesOf va bs.length).foldl (fun (r, s) (a, k) =>
    match r with
    | some f => (some f, s)
    | none =>
      match s.xlate t c a .write with
      | (.fault f, s) => (some (.xlate a f), s)
      | (.ok o, s) =>
        let (r, s) := s.writeOut c cls false false a o ((bs.drop (a - va)).take k)
        (r, if o.cls = .device then s else s.unitWrote q seq (if o.cls = .host then some (o.out + k - 1) else none))) (none, s)


/-- The MMU's capture of a failed access without its record (R415: display layers and taps, the tile store). -/
def State.captureFail (s : State) (c unit : Nat) (access : AccessKind) (f : VFail) : State :=
  match f with
  | .xlate va x => s.mmuCapture c unit va access x
  | .prot _ pa => s.protRefused c pa

/-- The MMU's capture and record of a failed access, of a severity (R415), or the refusal's record (R571). -/
def State.recordFail (s : State) (c unit sev : Nat) (access : AccessKind) (f : VFail) : State :=
  match f with
  | .xlate va x => s.mmuFault c unit va access sev x
  | .prot _ pa => s.protRefused c pa

/-- A little-endian word of a byte list, at a byte offset. -/
def wordAt (bs : List Byte) (off : Nat) : Nat := leNat ((bs.drop off).take 4)

/-- A little-endian 64-bit value of a byte list, at a byte offset. -/
def dwordAt (bs : List Byte) (off : Nat) : Nat := leNat ((bs.drop off).take 8)

/-- 32-bit words as bytes. -/
def wordBytes (ws : List Nat) : List Byte := ws.flatMap (leBytes 4)

end Sys2Proof.Machine
end

