-- ==== Sys2Proof/Machine/Arith.lean ====
section
/-! DEFINITION. Floating-point arithmetic of the cores: exact operations on decoded values, one rounding in the selected mode
(R57, R58, R103), the special functions within their accuracy, and the storage formats of the Anvil (R98 to R102). -/

namespace Sys2Proof.Machine

/-! ## Rounding modes (R57) -/

/-- RND: nearest even, toward zero, toward −∞, toward +∞; and the stochastic rounding of R128 with its number v. -/
inductive Rnd where
  | rne | rtz | rdn | rup
  | sto (v : Nat)
  deriving DecidableEq, Repr

/-- The mode of RND's two bits. -/
def rndOf (n : Nat) : Rnd := match n with
  | 0 => .rne | 1 => .rtz | 2 => .rdn | _ => .rup

/-- Whether a magnitude `q + r / d` moves up to `q + 1`. -/
def Rnd.up (m : Rnd) (neg : Bool) (q r d : Nat) : Bool := match m with
  | .rne => d < 2 * r || (d == 2 * r && q % 2 == 1)
  | .rtz => false
  | .rdn => neg && r ≠ 0
  | .rup => !neg && r ≠ 0
  | .sto v => r ≠ 0 && v < r * 65536 / d

/-- A quotient of naturals as a magnitude rounded in a mode. -/
def roundDiv (m : Rnd) (neg : Bool) (n d : Nat) : Nat :=
  if d = 0 then 0 else n / d + (if m.up neg (n / d) (n % d) d then 1 else 0)

/-- Whether an overflowing magnitude becomes the infinity. -/
def Rnd.overflowInf (m : Rnd) (neg : Bool) : Bool := match m with
  | .rne => true | .sto _ => true | .rtz => false | .rdn => neg | .rup => !neg

/-- The magnitude code of `n / d` in `eb` and `mb` bits, the exponent not limited above. -/
def magCode (m : Rnd) (eb mb : Nat) (neg : Bool) (n d : Nat) : Nat :=
  if n = 0 ∨ d = 0 then 0
  else
    let bias : Int := 2 ^ (eb - 1) - 1
    let umin : Int := 1 - bias - mb
    let u := max (floorLog2Div n d - mb) umin
    let q := if 0 ≤ u then roundDiv m neg n (d * 2 ^ u.toNat) else roundDiv m neg (n * 2 ^ (-u).toNat) d
    (u - umin).toNat * 2 ^ mb + q

/-- The canonical quiet NaN (R58, R100). -/
def qnan (eb mb : Nat) : Nat := (2 ^ eb - 1) * 2 ^ mb + 2 ^ (mb - 1)

/-- The code of the infinity. -/
def infCode (eb mb : Nat) : Nat := (2 ^ eb - 1) * 2 ^ mb

/-- Encode a value in an IEEE format. -/
def fenc (m : Rnd) (eb mb : Nat) (v : FVal) : Nat := match v with
  | .nan => qnan eb mb
  | .inf neg => fsign eb mb neg (infCode eb mb)
  | .fin neg n e =>
    let (a, b) := dyadic n e
    let c := magCode m eb mb neg a b
    fsign eb mb neg (if c < infCode eb mb then c else if m.overflowInf neg then infCode eb mb else infCode eb mb - 1)

/-! ## Exact operations -/

/-- The signed integer of a finite value at exponent `e0`, which does not exceed its own. -/
def sInt (neg : Bool) (n : Nat) (e e0 : Int) : Int :=
  let m : Int := n * 2 ^ (e - e0).toNat
  if neg then -m else m

/-- A signed dyadic number as a value; zero takes the sign given. -/
def ofDyadic (i : Int) (e : Int) (zneg : Bool) : FVal := if i = 0 then .fin zneg 0 0 else .fin (decide (i < 0)) i.natAbs e

/-- Negation; a NaN stays. -/
def FVal.negate : FVal → FVal
  | .nan => .nan
  | .inf n => .inf (!n)
  | .fin n m e => .fin (!n) m e

/-- Magnitude. -/
def FVal.abs : FVal → FVal
  | .nan => .nan
  | .inf _ => .inf false
  | .fin _ m e => .fin false m e

/-- The exact sum; an exact zero of opposite signs is −0 only toward −∞. -/
def FVal.plus (m : Rnd) (x y : FVal) : FVal := match x, y with
  | .nan, _ => .nan
  | _, .nan => .nan
  | .inf a, .inf b => if a = b then .inf a else .nan
  | .inf a, _ => .inf a
  | _, .inf b => .inf b
  | .fin a n e, .fin b k f =>
    let e0 := min e f
    ofDyadic (sInt a n e e0 + sInt b k f e0) e0 (if n = 0 ∧ k = 0 ∧ a = b then a else m = .rdn)

/-- The exact product. -/
def FVal.times (x y : FVal) : FVal := match x, y with
  | .nan, _ => .nan
  | _, .nan => .nan
  | .inf a, .inf b => .inf (a != b)
  | .inf a, .fin b k _ => if k = 0 then .nan else .inf (a != b)
  | .fin a n _, .inf b => if n = 0 then .nan else .inf (a != b)
  | .fin a n e, .fin b k f => .fin (a != b) (n * k) (e + f)

/-- Order of two values that are no NaN, zeros being equal. -/
def FVal.lt (x y : FVal) : Bool := match x, y with
  | .inf a, .inf b => a && !b
  | .inf a, _ => a
  | _, .inf b => !b
  | .fin a n e, .fin b k f => let e0 := min e f; sInt a n e e0 < sInt b k f e0
  | _, _ => false

/-- Whether a value is zero. -/
def FVal.isZero : FVal → Bool
  | .fin _ 0 _ => true
  | _ => false

/-- The sign. -/
def FVal.isNeg : FVal → Bool
  | .fin s _ _ => s
  | .inf s => s
  | .nan => false

/-- MIN and MAX of R58: one NaN gives the other operand, and −0 is below +0. -/
def FVal.minmax (isMax : Bool) (x y : FVal) : FVal := match x, y with
  | .nan, y => y
  | x, .nan => x
  | x, y =>
    let less := x.lt y || (x.isZero && y.isZero && x.isNeg && !y.isNeg)
    if isMax then (if less then y else x) else (if less then x else y)

/-- The correctly rounded square root's operand: the root with a sticky bit below it. -/
def FVal.sqrt : FVal → FVal
  | .nan => .nan
  | .inf neg => if neg then .nan else .inf false
  | .fin neg n e =>
    if n = 0 then .fin neg 0 e
    else if neg then .nan
    else
      let odd := e % 2 ≠ 0
      let n' := (if odd then 2 * n else n) * 2 ^ 128
      let e' := (if odd then e - 1 else e) / 2 - 64
      let r := Nat.sqrt n'
      .fin false (2 * r + (if r * r = n' then 0 else 1)) (e' - 1)

/-! ## Elements and packed types (R103) -/

/-- Flush a subnormal or zero-magnitude input of a format to a zero of its sign (R57, FTZ). -/
def ftzIn (eb mb w : Nat) (ftz : Bool) : FVal :=
  if ftz && bits w (eb + mb - 1) mb == 0 then .fin (bit w (eb + mb)) 0 0 else fdecode eb mb w

/-- Flush a subnormal result code (R57, FTZ). -/
def ftzOut (eb mb w : Nat) (ftz : Bool) : Nat := if ftz && bits w (eb + mb - 1) mb == 0 then w / 2 ^ (eb + mb) * 2 ^ (eb + mb) else w

/-- A free number as a code of a format, a NaN being the canonical one. -/
def freeCode (eb mb free : Nat) : Nat :=
  let w := free % 2 ^ (1 + eb + mb)
  match fdecode eb mb w with
  | .nan => qnan eb mb
  | _ => w

/-- SAT, RND and FTZ of MOD. -/
structure FMode where
  rnd : Rnd
  sat : Bool
  ftz : Bool

/-- The clamp of SAT to [0, 1]: below +0 gives +0. -/
def FVal.clamp01 (v : FVal) : FVal := (v.minmax true (.fin false 0 0)).minmax false (.fin false 1 0)

/-- Finish an element: SAT (a NaN's clamp is not stated: free), one rounding, FTZ. -/
def felemOut (eb mb : Nat) (fm : FMode) (free : Nat) (v : FVal) : Nat :=
  if fm.sat && v = .nan then freeCode eb mb free
  else ftzOut eb mb (fenc fm.rnd eb mb (if fm.sat then v.clamp01 else v)) fm.ftz

/-- One element of an operation. -/
def felem (eb mb : Nat) (fm : FMode) (free : Nat) (op : List FVal → FVal) (ws : List Nat) : Nat :=
  felemOut eb mb fm free (op (ws.map (fun w => ftzIn eb mb w fm.ftz)))

/-- Exponent and mantissa bits of a floating TYPE. -/
def typeFmt (t : Nat) : Nat × Nat := if t = 0 then (8, 23) else if t = 1 then (5, 10) else (8, 7)

/-- Apply an element function to a word, or to both halves of a packed word. -/
def packed (t : Nat) (f : Nat → List Nat → Nat) (ws : List Nat) : Nat :=
  if t = 0 then f 0 ws else f 0 (ws.map (· % 65536)) % 65536 + f 1 (ws.map (· / 65536 % 65536)) % 65536 * 65536

/-- A floating operation on the operand words of a lane. -/
def fapply (t : Nat) (fm : FMode) (free : Nat → Nat) (op : List FVal → FVal) (ws : List Nat) : Nat :=
  let (eb, mb) := typeFmt t
  packed t (fun h ws => felem eb mb fm (free h) op ws) ws

/-! ## Special functions (R58, R103): a value within the accuracy of the exact one -/

/-- A free code within the accuracy of an exact value: 2 units in the last place of F32, 1 of a packed element. A value between two
codes has as many codes within that distance below it as above it; one that is a code has itself too. -/
def near (eb mb : Nat) (v : FVal) (free : Nat) : Nat :=
  let k := if mb = 23 then 2 else 1
  let lo := fenc .rtz eb mb v.abs
  let hi := fenc .rup eb mb v.abs
  let m := if lo = hi then lo + free % (2 * k + 1) - k else lo + 1 + free % (2 * k) - k
  fsign eb mb v.isNeg (min (infCode eb mb) m)

/-- 2^x for a finite x, to about 60 bits. -/
def exp2Of (neg : Bool) (n : Nat) (e : Int) : FVal :=
  let (a, b) := dyadic n e
  if 200 * b < a then (if neg then .fin false 0 0 else .inf false)
  else
    let x : Int := if neg then -((a : Int) * 2 ^ 64) / b else (a : Int) * 2 ^ 64 / b
    let i := x / (2 ^ 64 : Nat)
    let f := (x % (2 ^ 64 : Nat)).toNat
    -- ln 2 scaled by 2^64
    let t := f * 12786308645202655660 / 2 ^ 64
    let (r, _) := (List.range 24).foldl (fun (acc, term) k =>
      let term := term * t / 2 ^ 64 / (k + 1)
      (acc + term, term)) (2 ^ 64, 2 ^ 64)
    .fin false r (i - 64)

/-- The bits of log2 of a number in [1, 2) scaled by 2^128, by repeated squaring. -/
def lg2Bits : Nat → Nat → Nat → Nat
  | 0, _, acc => acc
  | k + 1, y, acc =>
    let z := y * y / 2 ^ 128
    if 2 ^ 129 ≤ z then lg2Bits k (z / 2) (2 * acc + 1) else lg2Bits k z (2 * acc)

/-- log2 x for a positive finite x. -/
def lg2Of (n : Nat) (e : Int) : FVal :=
  let l := Nat.log2 n
  let y := n * 2 ^ 128 / 2 ^ l
  ofDyadic ((e + l) * (2 ^ 80 : Nat) + lg2Bits 80 y 0) (-80) false

/-- sin or cos of |x| at most π, in units of 2^-96. -/
def trigOf (cos : Bool) (neg : Bool) (n : Nat) (e : Int) : FVal :=
  let (a, b) := dyadic n e
  if !cos && a * 2 ^ 20 < b then .fin neg n e
  else
    let x : Int := (a * 2 ^ 96 / b : Nat)
    let one : Int := (2 ^ 96 : Nat)
    let t0 := if cos then one else x
    let (r, _) := (List.range 30).foldl (fun (acc, term) k =>
      let d : Int := if cos then (2 * k + 1) * (2 * k + 2) else (2 * k + 2) * (2 * k + 3)
      let term := -(term * x / one * x / one / d)
      (acc + term, term)) (t0, t0)
    let v := ofDyadic r (-96) false
    if neg && !cos then v.negate else v

/-- The exact value of an SFU opcode where the spec bounds the result; none where it states none. -/
def sfuExact (op : Nat) (x : FVal) : Option FVal := match x with
  | .fin neg n e =>
    match op with
    | 0 => if n = 0 then none else
      let k := 160 + Nat.log2 n
      some (.fin neg (2 ^ k / n) (-(k : Int) - e))
    | 1 => if n = 0 ∨ neg then none else
      let k := 160 + Nat.log2 n
      let odd := e % 2 ≠ 0
      let m := if odd then 2 * n else n
      let f := if odd then e - 1 else e
      some (.fin false (Nat.sqrt (2 ^ (2 * k) / m)) (-(k : Int) - f / 2))
    | 3 => some (exp2Of neg n e)
    | 4 => if n = 0 ∨ neg then none else some (lg2Of n e)
    | _ =>
      let (a, b) := dyadic n e
      if a * 10 ^ 20 ≤ 314159265358979323846 * b then some (trigOf (op == 6) neg n e) else none
  | _ => none

/-- One element of an SFU opcode other than SQRT, with SAT and FTZ. -/
def sfuElem (eb mb op : Nat) (fm : FMode) (free : Nat) (w : Nat) : Nat :=
  let c := match sfuExact op (ftzIn eb mb w fm.ftz) with
    | some v => near eb mb v free
    | none => freeCode eb mb free
  felemOut eb mb fm (free + 1) (fdecode eb mb c)

/-! ## Storage formats of the Anvil (R98 to R102) -/

/-- Width of a storage format. -/
def fmtBits (f : Nat) : Nat := match f with
  | 0 => 32 | 1 => 16 | 2 => 16 | 3 => 8 | 4 => 8 | 5 => 4 | 6 => 8 | 7 => 8 | 8 => 4 | _ => 2

/-- Whether a format holds integers. -/
def fmtInt (f : Nat) : Bool := 6 ≤ f

/-- An integer as a value. -/
def FVal.ofInt (i : Int) : FVal := .fin (decide (i < 0)) i.natAbs 0

/-- The value of a code of a storage format (R98, R100, R101). -/
def fmtDecode (f w : Nat) : FVal := match f with
  | 0 => fdecode 8 23 w
  | 1 => fdecode 5 10 w
  | 2 => fdecode 8 7 w
  | 3 => if w % 128 = 127 then .nan
    else if bits w 6 3 = 15 then .fin (bit w 7) (8 + w % 8) 5 else fdecode 4 3 w
  | 4 => fdecode 5 2 w
  | 5 => if bits w 2 1 = 3 then .fin (bit w 3) (2 + w % 2) 1 else fdecode 2 1 w
  | 6 => .ofInt (signed 8 w)
  | 7 => .ofInt (w % 256)
  | 8 => .ofInt (signed 4 w)
  | _ => .ofInt (signed 2 w)

/-- Exponent and mantissa bits of a floating storage format. -/
def fmtEM (f : Nat) : Nat × Nat := match f with
  | 0 => (8, 23) | 1 => (5, 10) | 2 => (8, 7) | 3 => (4, 3) | 4 => (5, 2) | _ => (2, 1)

/-- The code of a floating format's largest finite magnitude. -/
def fmtMax (f : Nat) : Nat := match f with
  | 0 => 0x7F7FFFFF | 1 => 0x7BFF | 2 => 0x7F7F | 3 => 0x7E | 4 => 0x7B | _ => 7

/-- A value in an integer format: code and whether the step saturated. -/
def toIntFmt (f : Nat) (m : Rnd) (v : FVal) : Nat × Bool :=
  let w := fmtBits f
  let lo : Int := if f = 7 then 0 else -(2 ^ (w - 1) : Nat)
  let hi : Int := if f = 7 then 255 else (2 ^ (w - 1) : Nat) - 1
  match v with
  | .nan => (0, false)
  | .inf neg => (wrapInt w (if neg then lo else hi), true)
  | .fin neg n e =>
    let (a, b) := dyadic n e
    let q := roundDiv m neg a b
    let i : Int := if neg then -(q : Int) else q
    (wrapInt w (max lo (min hi i)), i < lo || hi < i)

/-- Conversion into a storage format (R102): the code, and whether saturation changed the element. -/
def toFmt (f : Nat) (m : Rnd) (satf : Bool) (v : FVal) : Nat × Bool :=
  if fmtInt f then toIntFmt f m v
  else
    let (eb, mb) := fmtEM f
    let sat := satf || f = 3 || f = 5
    match v with
    | .nan => (if f = 3 then 0x7F else if f = 5 then 0 else qnan eb mb, false)
    | .inf neg => (fsign eb mb neg (if sat then fmtMax f else infCode eb mb), sat)
    | .fin neg n e =>
      let (a, b) := dyadic n e
      let c := magCode m eb mb neg a b
      if c ≤ fmtMax f then (fsign eb mb neg c, false)
      else if m = .rtz then (fsign eb mb neg (fmtMax f), false)
      else (fsign eb mb neg (if sat then fmtMax f else infCode eb mb), sat)

end Sys2Proof.Machine
end

