-- ==== Sys2Proof/Machine/Flags.lean ====
section
/-! DEFINITION. Flags and integer results of the cores: comparisons and their conditions (R57, R58, R606), flag logic, integer
arithmetic, shifts and bit operations (R606, R607), conversions (R104, R608). -/

namespace Sys2Proof.Machine

/-- Whether a TYPE is signed. -/
def typeSigned (t : Nat) : Bool := t == 3 || t == 5

/-- Operand width of an integer TYPE. -/
def typeBits (t : Nat) : Nat := if t == 5 || t == 6 then 64 else 32

/-- An integer operand's value (R606: B32 is unsigned). -/
def typeVal (t v : Nat) : Int := if typeSigned t then signed (typeBits t) v else (v % 2 ^ typeBits t : Nat)

/-! ## Conditions of CMPF (R57, R58) -/

/-- The condition of MOD on an ordered pair: 0 EQ, 1 NE, 2 LT, 3 LE, 4 GT, 5 GE. -/
def condHolds (c : Nat) (lt eq : Bool) : Bool := match c with
  | 0 => eq | 1 => !eq | 2 => lt | 3 => lt || eq | 4 => !lt && !eq | _ => !lt

/-- CMPF on F32: an ordered comparison with a NaN is false, an unordered one true. -/
def cmpFloat (mod a b : Nat) : Bool := match f32 a, f32 b with
  | .nan, _ => 8 ≤ mod
  | _, .nan => 8 ≤ mod
  | x, y => condHolds (mod % 8) (x.lt y) (!x.lt y && !y.lt x)

/-- CMPF on integers. -/
def cmpInt (t mod a b : Nat) : Bool := condHolds (mod % 8) (typeVal t a < typeVal t b) (typeVal t a == typeVal t b)

/-- FLOG: MOD[51:50] selects AND, OR, XOR, AND NOT. -/
def flagLogic (op : Nat) (a b : Bool) : Bool := match op with
  | 0 => a && b | 1 => a || b | 2 => a != b | _ => a && !b

/-! ## Integer results (R57, R606, R607) -/

/-- Leading zeros of a value of `n` bits. -/
def lzc (n v : Nat) : Nat := if v % 2 ^ n = 0 then n else n - 1 - Nat.log2 (v % 2 ^ n)

/-- SHL and SHR by an unsigned 32-bit count. -/
def shiftVal (right : Bool) (t v n : Nat) : Nat :=
  let w := typeBits t
  if right then (if typeSigned t then wrapInt w (signed w v / (2 ^ min n w : Nat)) else v % 2 ^ w / 2 ^ min n w)
  else v * 2 ^ min n w % 2 ^ w

/-- XBIT: the field of `B[12:8] + 1` bits from `B[4:0]`, extended by TYPE. -/
def xbit (t a b : Nat) : Nat :=
  let n := bits b 12 8 + 1
  let f := a % 2 ^ 32 / 2 ^ bits b 4 0 % 2 ^ n
  if typeSigned t then wrapInt 32 (signed n f) else f

/-- An IALU opcode on operand values. -/
def ialuVal (op t a b c : Nat) : Nat :=
  let w := typeBits t
  match op with
  | 0x0 => (a + b) % 2 ^ w
  | 0x1 => wrapInt w ((a : Int) - b)
  | 0x2 => a * b % 2 ^ w
  | 0x3 => wrapInt w (typeVal t a * typeVal t b / (2 ^ w : Nat))
  | 0x4 => (a * b + c) % 2 ^ w
  | 0x5 => Nat.land a b
  | 0x6 => Nat.lor a b
  | 0x7 => Nat.xor a b
  | 0x8 => 2 ^ w - 1 - a % 2 ^ w
  | 0x9 => shiftVal false t a b
  | 0xA => shiftVal true t a b
  | 0xB => popcount w a
  | 0xC => lzc w a
  | _ => xbit t a b

/-! ## Conversions (R104, R608) -/

/-- A float in an integer type: rounded by RND, saturated; a NaN gives 0. -/
def floatToInt (t : Nat) (m : Rnd) (v : FVal) : Nat :=
  let w := typeBits t
  let lo : Int := if typeSigned t then -(2 ^ (w - 1) : Nat) else 0
  let hi : Int := if typeSigned t then (2 ^ (w - 1) : Nat) - 1 else (2 ^ w : Nat) - 1
  match v with
  | .nan => 0
  | .inf neg => wrapInt w (if neg then lo else hi)
  | .fin neg n e =>
    let (a, b) := dyadic n e
    let q := roundDiv m neg a b
    wrapInt w (max lo (min hi (if neg then -(q : Int) else q)))

/-- An integer in another integer type: exact in range; otherwise clamped with SAT, else its low bits. -/
def intToInt (src dst : Nat) (sat : Bool) (v : Nat) : Nat :=
  let w := typeBits dst
  let lo : Int := if typeSigned dst then -(2 ^ (w - 1) : Nat) else 0
  let hi : Int := if typeSigned dst then (2 ^ (w - 1) : Nat) - 1 else (2 ^ w : Nat) - 1
  let i := typeVal src v
  wrapInt w (if sat then max lo (min hi i) else i)

/-- CVT: source words A and B, result as one or two words. -/
def cvtVal (src dst : Nat) (fm : FMode) (free : Nat → Nat) (a b : Nat) : Nat :=
  let float (t : Nat) := t ≤ 2
  if float src && float dst then
    let (se, sm) := typeFmt src
    let (de, dm) := typeFmt dst
    let one (h w : Nat) : Nat := felemOut de dm fm (free h) (ftzIn se sm w fm.ftz)
    if src = 0 ∧ dst = 0 then one 0 a
    else if src = 0 then one 0 a + one 1 b * 65536
    else if dst = 0 then one 0 (a % 65536) + one 1 (a / 65536 % 65536) * 2 ^ 32
    else one 0 (a % 65536) + one 1 (a / 65536 % 65536) * 65536
  else if float src then floatToInt dst fm.rnd (ftzIn 8 23 a fm.ftz)
  else if float dst then felemOut 8 23 fm (free 0) (.ofInt (typeVal src a))
  else intToInt src dst fm.sat a

end Sys2Proof.Machine
end

