-- ==== Sys2Proof/Machine/Compose.lean ====
section
/-! DEFINITION. The composition of one output line (chapter 7): layer settings, fetch and unpacking, polyphase scaling,
matrices, blending, output conversion, writeback taps. Channels are signed values in units of 2⁻¹⁵ (R257). -/

namespace Sys2Proof.Machine

/-! ## Fixed-point channels (R257) -/

/-- Limit a channel to `[−4, 4 − 2⁻¹⁵]`. -/
def chan (v : Int) : Int := max (-131072) (min 131071 v)

/-- One in channel units. -/
def chanOne : Int := 32768

/-- A product of two channels, rounded. -/
def chanMul (a b : Int) : Int := chan (rneInt (a * b) 32768)

/-- An `n`-bit UNORM code as a channel (R264). -/
def unormChan (n c : Nat) : Int := chan (rneInt ((c : Int) * 32768) (2 ^ n - 1))

/-- A half-precision value as a channel. -/
def halfChan (w : Nat) : Int := (fdecode 5 10 w).fixed 32768 (-131072) 131071

/-- One pixel in channels, with its alpha. -/
structure Px where
  c0 : Int
  c1 : Int
  c2 : Int
  a : Int
  deriving DecidableEq, Repr

/-! ## Layer settings -/

/-- What the composition reads of a layer's active registers. -/
structure LayCfg where
  n : Nat
  en : Bool
  alphaMode : Nat
  tiled : Bool
  zpos : Nat
  cbank : Nat
  format : Nat
  palpha : Nat
  ctx : Nat
  flow : Bool
  addr0 : Nat
  addr1 : Nat
  pitch0 : Nat
  pitch1 : Nat
  sw : Nat
  sh : Nat
  cx : Nat
  cy : Nat
  cw : Nat
  ch : Nat
  dx : Nat
  dy : Nat
  dw : Nat
  dh : Nat
  resW : Nat
  resH : Nat
  deriving DecidableEq, Repr

/-- A configuration of the committed registers: as `State.regs`. -/
abbrev DspCfg := List (Nat × Word)

/-- A word of a configuration. -/
def DspCfg.word (m : DspCfg) (a : Nat) : Nat := (Sparse.get m (regReset a) a).toNat

/-- A field of a configuration. -/
def DspCfg.fld (m : DspCfg) (a hi lo : Nat) : Nat := bits (m.word a) hi lo

/-- Layer `n` of a configuration. -/
def DspCfg.layer (m : DspCfg) (n : Nat) : LayCfg :=
  let c := m.word (Reg.DSP_LAY_CTRL n)
  let lo16 (a : Nat) := m.fld a 15 0
  let hi16 (a : Nat) := m.fld a 31 16
  let ad (lo hi : Nat) := m.word lo + m.fld hi 15 0 * 2 ^ 32
  { n := n, en := bit c 0, alphaMode := bits c 2 1, tiled := bit c 3, zpos := bits c 6 4, cbank := bits c 7 7,
    format := bits c 15 8, palpha := bits c 23 16, ctx := bits c 28 24, flow := bit c 29,
    addr0 := ad (Reg.DSP_LAY_ADDR0_LO n) (Reg.DSP_LAY_ADDR0_HI n),
    addr1 := ad (Reg.DSP_LAY_ADDR1_LO n) (Reg.DSP_LAY_ADDR1_HI n),
    pitch0 := m.word (Reg.DSP_LAY_PITCH0 n), pitch1 := m.word (Reg.DSP_LAY_PITCH1 n),
    sw := lo16 (Reg.DSP_LAY_SRC_SIZE n), sh := hi16 (Reg.DSP_LAY_SRC_SIZE n),
    cx := lo16 (Reg.DSP_LAY_CROP_XY n), cy := hi16 (Reg.DSP_LAY_CROP_XY n),
    cw := lo16 (Reg.DSP_LAY_CROP_WH n), ch := hi16 (Reg.DSP_LAY_CROP_WH n),
    dx := lo16 (Reg.DSP_LAY_DST_XY n), dy := hi16 (Reg.DSP_LAY_DST_XY n),
    dw := lo16 (Reg.DSP_LAY_DST_WH n), dh := hi16 (Reg.DSP_LAY_DST_WH n),
    resW := lo16 (Reg.DSP_LAY_RES n), resH := hi16 (Reg.DSP_LAY_RES n) }

/-- Whether a format is 4:2:0 (0x40, 0x41). -/
def is420 (f : Nat) : Bool := f = 0x40 || f = 0x41

/-- Whether a format code is one of the layer formats (R264). -/
def layerFormat (f : Nat) : Bool := f = 2 || f = 3 || f = 4 || f = 8 || is420 f

/-- Bytes of one sample of plane 0. -/
def formatBytes (f : Nat) : Nat := if f = 8 then 8 else if f = 0x40 then 1 else if f = 0x41 then 2 else 4

/-- Half bytes per pixel of every plane: twice the table's figure. -/
def formatBytes2 (f : Nat) : Nat := if f = 8 then 16 else if f = 0x40 then 3 else if f = 0x41 then 6 else 8

/-! ## Unpacking (R264) -/

/-- Unpack one pixel of plane 0 of an RGB format. -/
def unpackRgb (f : Nat) (bs : List Byte) : Px :=
  let w := leNat bs
  if f = 2 then ⟨unormChan 8 (bits w 7 0), unormChan 8 (bits w 15 8), unormChan 8 (bits w 23 16), unormChan 8 (bits w 31 24)⟩
  else if f = 3 then ⟨unormChan 8 (bits w 23 16), unormChan 8 (bits w 15 8), unormChan 8 (bits w 7 0), unormChan 8 (bits w 31 24)⟩
  else if f = 4 then ⟨unormChan 10 (bits w 9 0), unormChan 10 (bits w 19 10), unormChan 10 (bits w 29 20), unormChan 2 (bits w 31 30)⟩
  else ⟨halfChan (bits w 15 0), halfChan (bits w 31 16), halfChan (bits w 47 32), halfChan (bits w 63 48)⟩

/-- Unpack one sample of a YCbCr plane. -/
def unpackYcc (f : Nat) (bs : List Byte) : Int :=
  if f = 0x40 then unormChan 8 (leNat bs) else unormChan 10 (bits (leNat bs) 15 6)

/-- Cut a byte list into pieces of `k` bytes; `fuel` covers them. -/
def pieces : Nat → Nat → List Byte → List (List Byte)
  | 0, _, _ => []
  | f + 1, k, bs => if bs.isEmpty then [] else bs.take k :: pieces f k (bs.drop k)

/-- The pixels of a row of plane 0: for a 4:2:0 format only channel 0. -/
def unpackRow (f : Nat) (bs : List Byte) : List Px :=
  (pieces bs.length (formatBytes f) bs).map (fun b => if is420 f then ⟨unpackYcc f b, 0, 0, chanOne⟩ else unpackRgb f b)

/-- The chroma samples of a row of plane 1, in channels 1 and 2. -/
def unpackChroma (f : Nat) (bs : List Byte) : List Px :=
  let k := formatBytes f
  (pieces bs.length (2 * k) bs).map (fun b => ⟨0, unpackYcc f (b.take k), unpackYcc f (b.drop k), chanOne⟩)

/-! ## Fetch -/

/-- Read one row's crop span of plane 0 or 1 in the layer's context, L2 class 0. -/
def State.fetchRow (s : State) (l : LayCfg) (base : Nat) (plane row : Nat) : VRead × State :=
  let b := formatBytes l.format
  if l.tiled then
    let tilesX := ceilDiv l.sw 32
    let t0 := l.cx / 32
    let t1 := (l.cx + l.cw - 1) / 32
    let (r, s) := (span t0 t1).foldl (fun (r, s) tx =>
      match r with
      | .fail f => (.fail f, s)
      | .ok bs p =>
        match s.vread .display l.ctx (base + (row / 32 * tilesX + tx) * (1024 * b) + row % 32 * 32 * b) (32 * b) 0 false true with
        | (.ok b q, s) => (.ok (bs ++ b) (p <|> q), s)
        | r => r) ((.ok [] none : VRead), s)
    match r with
    | .ok bs p => (.ok ((bs.drop (l.cx % 32 * b)).take (l.cw * b)) p, s)
    | .fail f => (.fail f, s)
  else
    let pitch := if plane = 0 then l.pitch0 else l.pitch1
    s.vread .display l.ctx (base + row * pitch + l.cx * b) (l.cw * b) 0 false true

/-! ## Scaling (R267 to R269) -/

/-- STEP, INIT and N of a direction. -/
def scaleStep (nIn nOut : Nat) : Int := ((nIn * 65536 / nOut : Nat) : Int)
def scaleInit (nIn nOut : Nat) : Int := scaleStep nIn nOut / 2 - 32768
def scaleTaps (nIn nOut : Nat) : Nat := 4 * max 1 (ceilDiv nIn nOut)

/-- Position of output sample `i`. -/
def scalePos (nIn nOut i : Nat) : Int := scaleInit nIn nOut + (i : Int) * scaleStep nIn nOut

/-- An index clamped to `n` samples. -/
def clampIdx (n : Nat) (i : Int) : Nat := if i < 0 then 0 else min i.toNat (n - 1)

/-- The input samples a position takes, with their tap numbers. -/
def tapIndexes (n taps : Nat) (p : Int) : List (Nat × Nat) :=
  (List.range taps).map (fun j =>
    let t := 8 - taps / 2 + j
    (t, clampIdx n (p / 65536 - 7 + (t : Int))))

/-- The phase of a position. -/
def phaseOf (p : Int) : Nat := (p / 2048 % 32).toNat

/-- The coefficient of a layer's bank: direction, phase, tap (R298). -/
def State.coef (s : State) (layer bank dir phase tap : Nat) : Int :=
  let w := s.reg (Reg.DSP_COEF (layer * 1024 + bank * 512 + dir * 256 + phase * 8 + tap / 2))
  signed 12 (if tap % 2 = 0 then bits w.toNat 11 0 else bits w.toNat 27 16)

/-- One filtered sample. -/
def filt (coef : Nat → Nat → Int) (n taps : Nat) (p : Int) (x : Nat → Int) : Int :=
  chan (rneInt ((tapIndexes n taps p).foldl (fun a (t, i) => a + coef (phaseOf p) t * x i) 0) 1024)

/-- A row's sample. -/
def sampleAt (rows : List (Nat × List Px)) (row col : Nat) : Px :=
  ((Sparse.find rows row).getD []).getD col ⟨0, 0, 0, 0⟩

/-- Filter one channel at a position in both directions: horizontally first when CROP_W exceeds DST_W (R268). -/
def filt2 (cH cV : Nat → Nat → Int) (hFirst hPass vPass : Bool) (nx ny tx ty : Nat) (px py : Int) (u v : Nat)
    (x : Nat → Nat → Int) : Int :=
  let h (row : Nat) : Int := if hPass then x row u else filt cH nx tx px (fun c => x row c)
  let w (col : Nat) : Int := if vPass then x v col else filt cV ny ty py (fun r => x r col)
  if hFirst then (if vPass then h v else filt cV ny ty py h) else (if hPass then w u else filt cH nx tx px w)

/-- Rows of plane 0 (within the crop) that output row `v` takes. -/
def LayCfg.lumaRows (l : LayCfg) (v : Nat) : List Nat :=
  if l.ch = l.dh && !is420 l.format then [v]
  else ((tapIndexes l.ch (scaleTaps l.ch l.dh) (scalePos l.ch l.dh v)).map (fun p => p.2)).dedup

/-- Vertical chroma position of output row `v` (R269). -/
def LayCfg.chromaPos (l : LayCfg) (v : Nat) : Int := (scalePos l.ch l.dh v - 32768) / 2

/-- Rows of plane 1 (within the crop) that output row `v` takes. -/
def LayCfg.chromaRows (l : LayCfg) (v : Nat) : List Nat :=
  if is420 l.format then
    ((tapIndexes (l.ch / 2) (scaleTaps l.ch l.dh) (l.chromaPos v)).map (fun p => p.2)).dedup
  else []

/-- Fetch rows of a plane; the first failure ends it. Poisoned data is displayed as stored, with its record (R163). -/
def State.fetchRows (s : State) (l : LayCfg) (base plane : Nat) (rows : List Nat) :
    Option VFail × List (Nat × List Px) × State :=
  rows.foldl (fun (f, acc, s) r =>
    match f with
    | some f => (some f, acc, s)
    | none =>
      match s.fetchRow l base plane (r + (if plane = 0 then l.cy else l.cy / 2)) with
      | (.fail f, s) => (some f, acc, s)
      | (.ok bs p, s) =>
        let s := match p with
          | some a => (s.countSat Reg.L2C_ECC_COUNT 31 16 1).recC 0x0302 0x20 2 l.ctx (a % 2 ^ 32) (a / 2 ^ 32)
          | none => s
        (none, Sparse.put acc r (if plane = 0 then unpackRow l.format bs else unpackChroma l.format bs), s))
    (none, [], s)

/-- The scaled pixel at `(u, v)` of the destination rectangle. -/
def State.scaledPx (s : State) (l : LayCfg) (y c : List (Nat × List Px)) (u v : Nat) : Px :=
  let cf := s.coef l.n l.cbank
  let h0 := decide (l.dw < l.cw)
  let f420 := is420 l.format
  let hp := decide (l.cw = l.dw) && !f420
  let vp := decide (l.ch = l.dh) && !f420
  let tx := scaleTaps l.cw l.dw
  let ty := scaleTaps l.ch l.dh
  let px := scalePos l.cw l.dw u
  let py := scalePos l.ch l.dh v
  let luma (g : Px → Int) := filt2 (cf 0) (cf 1) h0 hp vp l.cw l.ch tx ty px py u v (fun r k => g (sampleAt y r k))
  let chroma (g : Px → Int) :=
    filt2 (cf 0) (cf 1) h0 false false (l.cw / 2) (l.ch / 2) tx ty (px / 2) (l.chromaPos v) u v (fun r k => g (sampleAt c r k))
  if f420 then ⟨luma (fun p => p.c0), chroma (fun p => p.c1), chroma (fun p => p.c2), chanOne⟩
  else ⟨luma (fun p => p.c0), luma (fun p => p.c1), luma (fun p => p.c2),
        max 0 (min chanOne (luma (fun p => p.a)))⟩

/-! ## Matrices (R273, R274) -/

/-- A matrix: nine coefficients and six offsets from its 12 words. -/
def matrixAt (w : Nat → Nat) : (Nat → Nat → Int) × (Nat → Int) × (Nat → Int) :=
  let c (i j : Nat) : Int :=
    let k := i * 3 + j
    signed 16 (if k % 2 = 0 then bits (w (k / 2)) 15 0 else bits (w (k / 2)) 31 16)
  (c, fun j => signed 18 (w (5 + j)), fun i => signed 18 (w (8 + i)))

/-- Apply a matrix, rounded once. -/
def applyMatrix (w : Nat → Nat) (p : Px) : Px :=
  let (c, pre, post) := matrixAt w
  let row (i : Nat) : Int :=
    chan (rneInt (c i 0 * (p.c0 + pre 0) + c i 1 * (p.c1 + pre 1) + c i 2 * (p.c2 + pre 2) + post i * 4096) 4096)
  ⟨row 0, row 1, row 2, p.a⟩

/-- The words of the active matrix at a register. -/
def State.matrixOf (s : State) (base k : Nat) : Nat := (s.act (base + 4 * k)).toNat

/-- A layer's matrix for its format, from the active registers. -/
def State.layMatrix (s : State) (l : LayCfg) : Nat → Nat :=
  s.matrixOf (if is420 l.format then Reg.DSP_LAY_YMAT_C l.n 0 else Reg.DSP_LAY_RMAT_C l.n 0)

/-! ## Blending (R275) -/

/-- Blend one pixel over a composed value. -/
def blendPx (mode palpha : Nat) (p d : Px) : Px :=
  let g := rneInt ((palpha : Int) * 32768) 255
  let k := chanMul p.a g
  let f (c dd : Int) : Int :=
    match mode with
    | 0 => chan (chanMul c g + chanMul dd (chanOne - g))
    | 1 => chan (chanMul c g + chanMul dd (chanOne - k))
    | _ => chan (chanMul c k + chanMul dd (chanOne - k))
  ⟨f p.c0 d.c0, f p.c1 d.c1, f p.c2 d.c2, d.a⟩

/-- The background (DSP_BG, B G R from bit 0). -/
def State.background (s : State) : Px :=
  let w := (s.act Reg.DSP_BG).toNat
  ⟨unormChan 10 (bits w 29 20), unormChan 10 (bits w 19 10), unormChan 10 (bits w 9 0), chanOne⟩

/-- A channel limited to `[0, 1]`. -/
def unit01 (v : Int) : Int := max 0 (min chanOne v)

/-- A pixel with its colour channels limited to `[0, 1]`. -/
def Px.clamp01 (p : Px) : Px := ⟨unit01 p.c0, unit01 p.c1, unit01 p.c2, p.a⟩

/-! ## Output conversion (R274) -/

/-- The codes of one line: three per pixel, or with FMT 2 the two chroma codes at even columns only. -/
def outputCodes (fmt : Nat) (bpc8 : Bool) (line : List Px) : List Nat :=
  let m : Int := if bpc8 then 255 else 1023
  let px := line.map Px.clamp01
  let q (v : Int) (d : Nat) : Nat := (rneInt (v * m) (d * 32768)).toNat
  if fmt = 2 then
    let at_ (i : Int) : Px := px.getD (clampIdx px.length i) ⟨0, 0, 0, 0⟩
    (List.range px.length).flatMap (fun x =>
      let p := at_ x
      if x % 2 = 0 then
        let l := at_ ((x : Int) - 1)
        let r := at_ ((x : Int) + 1)
        [q p.c0 1, q (l.c1 + 2 * p.c1 + r.c1) 4, q (l.c2 + 2 * p.c2 + r.c2) 4]
      else [q p.c0 1])
  else px.flatMap (fun p => [q p.c0 1, q p.c1 1, q p.c2 1])

/-! ## Taps (R281) -/

/-- The sums of a tap's partial block row, with one more line added. -/
def addTapLine (sc : Nat) (acc : List Int) (line : List Px) : List Int :=
  (List.range (line.length / sc * 3)).map (fun i =>
    let x := i / 3
    let sum := (List.range sc).foldl (fun a j =>
      let p := (line.getD (x * sc + j) ⟨0, 0, 0, 0⟩).clamp01
      a + (if i % 3 = 0 then p.c0 else if i % 3 = 1 then p.c1 else p.c2)) 0
    acc.getD i 0 + sum)

/-- The stored bytes of a tap row: RGB10A2 with alpha 3, or RGBA8 with alpha 255. -/
def tapRow (sc fmt : Nat) (acc : List Int) : List Byte :=
  let m : Int := if fmt = 0 then 1023 else 255
  let q (i : Nat) : Nat := (rneInt (acc.getD i 0 * m) (sc * sc * 32768)).toNat
  (List.range (acc.length / 3)).flatMap (fun x =>
    let r := q (3 * x)
    let g := q (3 * x + 1)
    let b := q (3 * x + 2)
    leBytes 4 (if fmt = 0 then r + g * 2 ^ 10 + b * 2 ^ 20 + 3 * 2 ^ 30 else r + g * 2 ^ 8 + b * 2 ^ 16 + 255 * 2 ^ 24))

end Sys2Proof.Machine
end

