-- ==== Sys2Proof/Machine/Display.lean ====
section
/-! DEFINITION. The display's configuration: the commit check (R258 to R294), activation at a fetch deadline (R259 to R265),
coefficient writes (R298), tap publication (R282). -/

namespace Sys2Proof.Machine

/-! ## Interrupts and the committed set -/

/-- Set a DSP_STATUS bit and raise the display vector if the bit's enable is 1 (FRAME 4 by bit 1, FAULT 5 by bit 2, DONE 2
by bit 3 of DSP_CTRL). -/
def State.dspEvent (s : State) (statusBit ieBit : Nat) : State :=
  let s := s.setFlag Reg.DSP_STATUS statusBit
  if s.flag Reg.DSP_CTRL ieBit then s.raiseHif 0 else s

/-- Whether a register is one of the display's committed registers. -/
def isCommitted (a : Nat) : Bool :=
  match regRow a with
  | some r => r.fields.any (fun f => f.acc == .com)
  | none => false

/-- The pending configuration as its registers hold it. -/
def State.dspPending (s : State) : DspCfg := s.regs.filter (fun p => isCommitted p.1)

/-- The layers of a configuration. -/
def DspCfg.layers (m : DspCfg) : List LayCfg := (List.range 8).map m.layer

/-- Output timing fields of a configuration. -/
def DspCfg.hActive (m : DspCfg) : Nat := m.fld Reg.DSP_HTIM0 15 0
def DspCfg.hTotal (m : DspCfg) : Nat := m.fld Reg.DSP_HTIM0 31 16
def DspCfg.vActive (m : DspCfg) : Nat := m.fld Reg.DSP_VTIM0 15 0
def DspCfg.vTotal (m : DspCfg) : Nat := m.fld Reg.DSP_VTIM0 31 16
def DspCfg.pclk (m : DspCfg) : Nat := m.fld Reg.DSP_PCLK 22 0
def DspCfg.outEn (m : DspCfg) : Bool := m.fld Reg.DSP_CTRL 0 0 == 1

/-- Layers whose cases count in the check of ratios, lines and bandwidth: enabled, or belonging to the flow, whose enable CC3 owns
(R262, R265). -/
def DspCfg.counted (m : DspCfg) : List LayCfg := m.layers.filter (fun l => l.en || l.flow)

/-- The enabled layers. -/
def DspCfg.shown (m : DspCfg) : List LayCfg := m.layers.filter (fun l => l.en)

/-- The limits of R258. -/
def DspCfg.timingOk (m : DspCfg) : Bool :=
  let ha := m.hActive
  let ht := m.hTotal
  let va := m.vActive
  let vt := m.vTotal
  decide (640 ≤ ha ∧ ha ≤ 7680 ∧ ha % 8 = 0 ∧ ht % 8 = 0 ∧ ha + 64 ≤ ht ∧ 480 ≤ va ∧ va ≤ 4320 ∧ va + 72 ≤ vt) &&
  decide (m.fld Reg.DSP_HTIM1 15 0 + m.fld Reg.DSP_HTIM1 30 16 ≤ ht - ha) &&
  decide (m.fld Reg.DSP_VTIM1 15 0 + m.fld Reg.DSP_VTIM1 30 16 ≤ vt - va) &&
  decide (m.pclk ≤ 4800000 ∧ m.pclk * 10000 ≤ 2405 * ht * vt)

/-- Whether an address or pitch of a layer breaks R203, or the plane rule of R294. -/
def LayCfg.addrBad (l : LayCfg) : Bool :=
  if is420 l.format then l.addr0 % 256 ≠ 0 || l.addr1 % 256 ≠ 0 || l.pitch0 % 256 ≠ 0 || l.pitch1 % 256 ≠ 0
    || l.pitch0 < l.sw * formatBytes l.format || l.pitch1 < l.sw * formatBytes l.format
  else if l.tiled then l.addr0 % 4096 ≠ 0 || l.pitch0 ≠ 0
  else l.addr0 % 256 ≠ 0 || l.pitch0 % 256 ≠ 0 || l.pitch0 < l.sw * formatBytes l.format

/-- CC_LAY_RECT. -/
def LayCfg.rectBad (l : LayCfg) (ha va : Nat) : Bool :=
  [l.sw, l.sh, l.cw, l.ch, l.dw, l.dh].any (fun x => x == 0) || l.sw < l.cx + l.cw || l.sh < l.cy + l.ch
    || ha < l.dx + l.dw || va < l.dy + l.dh || 16384 < l.sw || 16384 < l.sh
    || (is420 l.format && [l.cx, l.cy, l.cw, l.ch].any (fun x => x % 2 == 1))

/-- R270 for one crop and destination. -/
def ratioBad (cw ch dw dh ht : Nat) : Bool :=
  4 * dw < cw || 16 * cw < dw || 4 * dh < ch || 16 * ch < dh || 4 * ht < cw || 4 * ht * dh < cw * ch

/-- Whether a FLOW layer has a second case: RES is not 0 in either dimension (else CC_LAY_RES). -/
def LayCfg.hasRes (l : LayCfg) : Bool := l.flow && l.resW ≠ 0 && l.resH ≠ 0

/-- The ratio check of a layer as it stands, and for a FLOW layer at ratio 1 and with RES scaled to the active area. -/
def LayCfg.ratioFails (l : LayCfg) (m : DspCfg) : Bool :=
  (l.en && ratioBad l.cw l.ch l.dw l.dh m.hTotal)
    || (l.hasRes && (ratioBad m.hActive m.vActive m.hActive m.vActive m.hTotal || ratioBad l.resW l.resH m.hActive m.vActive m.hTotal))

/-- Line-buffer bytes of R271, in eighths of a byte. -/
def lineBytes8 (cw ch dw dh b8 : Nat) (pass : Bool) : Nat := if pass then 0 else scaleTaps ch dh * min cw dw * b8

/-- Units allocated to a layer (R272). -/
def DspCfg.units (m : DspCfg) (n : Nat) : Nat :=
  m.fld (if n < 4 then Reg.DSP_LB_ALLOC0 else Reg.DSP_LB_ALLOC1) (8 * (n % 4) + 6) (8 * (n % 4))

/-- The line-buffer requirement of a layer in eighths of a byte; of a FLOW layer the larger of its two cases. -/
def LayCfg.lines8 (l : LayCfg) (m : DspCfg) : Nat :=
  let own := lineBytes8 l.cw l.ch l.dw l.dh (if is420 l.format then 15 else 40) (decide (l.ch = l.dh) && !is420 l.format)
  let res := lineBytes8 l.resW l.resH m.hActive m.vActive 40 (decide (l.resH = m.vActive))
  if l.hasRes then max own res else own

/-- The line-buffer check of a layer. -/
def LayCfg.linesFail (l : LayCfg) (m : DspCfg) : Bool := m.units l.n * 12288 * 8 < l.lines8 m

/-- Fetch rate of one case in bytes per second (R276), `p2` in half bytes per pixel. -/
def fetchRate (m : DspCfg) (p2 cw ch dh : Nat) : Q := ⟨(p2 * cw * ch * m.pclk * 1000 : Nat), 2 * dh * m.hTotal⟩

/-- The fetch rate of a layer. -/
def LayCfg.rate (l : LayCfg) (m : DspCfg) : Q :=
  if l.flow then Q.max (fetchRate m 8 m.hActive 1 1) (fetchRate m 8 l.resW l.resH m.vActive)
  else fetchRate m (formatBytes2 l.format) l.cw l.ch l.dh

/-- SCALE of a tap as its factor; 0 for the reserved code. -/
def tapScale (code : Nat) : Nat := match code with
  | 0 => 1 | 1 => 2 | 2 => 4 | _ => 0

/-- CC_TAP_CONFIG for an enabled tap. -/
def DspCfg.tapBad (m : DspCfg) (t : Nat) : Bool :=
  let c := Reg.DSP_TAP_CTRL t
  let sc := tapScale (m.fld c 3 2)
  let pitch := m.word (Reg.DSP_TAP_PITCH t)
  let nbuf := m.fld c 6 5
  sc == 0 || m.hActive % sc ≠ 0 || m.vActive % sc ≠ 0 || pitch % 256 ≠ 0 || pitch < 4 * m.hActive / sc
    || (List.range (nbuf + 1)).any (fun i => m.word (Reg.DSP_TAP_ADDR_LO t i) % 256 ≠ 0) || nbuf < m.fld c 9 8

/-- Bytes per second of the display write port (R283): taps, the Whisk, capture. -/
def DspCfg.writeRate (m : DspCfg) (capture : Bool) : Q :=
  let line (n : Nat) : Q := ⟨(n * m.pclk * 1000 : Nat), m.hTotal⟩
  let tap (t : Nat) : Q :=
    if m.fld (Reg.DSP_TAP_CTRL t) 0 0 = 0 then ⟨0, 1⟩
    else
      let sc := tapScale (m.fld (Reg.DSP_TAP_CTRL t) 3 2)
      (line (4 * m.hActive)).mul ⟨1, sc * sc⟩
  let w : Q := if m.layers.any (fun l => l.en && l.flow) then Q.ofInt (4 * m.pclk * 1000) else ⟨0, 1⟩
  (((tap 0).add (tap 1)).add w).add (if capture then Q.ofInt 8000000000 else ⟨0, 1⟩)

/-- Whether the port's limit of 38.0 GB/s fails. -/
def DspCfg.writeFails (m : DspCfg) (capture : Bool) : Bool := Q.lt (Q.ofInt 38000000000) (m.writeRate capture)

/-- Whether a context exists and is not faulted. -/
def State.ctxLive (s : State) (c : Nat) : Bool := (s.ctx c).isSome && s.fld (Reg.CPR_CTX_STATUS c) 1 0 == 1

/-- The check of a configuration (R294): the first failing code, or 0. -/
def State.dspCheck (s : State) (m : DspCfg) : Nat :=
  let own := m.shown
  let cnt := m.counted
  let taps := (List.range 2).filter (fun t => m.fld (Reg.DSP_TAP_CTRL t) 0 0 == 1)
  if !m.timingOk then 0x20
  else if m.fld Reg.DSP_OUT_CTRL 1 0 = 3 ∨ (m.fld Reg.DSP_OUT_CTRL 1 0 = 2 ∧ m.hActive % 2 = 1) then 0x21
  else if own.any (fun l => !layerFormat l.format || (l.tiled && is420 l.format)) || cnt.any (fun l => l.alphaMode == 3) then 0x22
  else if own.any LayCfg.addrBad then 0x23
  else if own.any (fun l => l.rectBad m.hActive m.vActive) then 0x24
  else if cnt.any (fun l => l.ratioFails m) then 0x25
  else if cnt.any (fun l => l.linesFail m) then 0x26
  else if 116 < ((List.range 8).map m.units).sum then 0x27
  else if !(own.map LayCfg.zpos).Nodup then 0x28
  else if 55000 < m.fld Reg.DSP_FETCH_BUDGET 16 0
      || Q.lt (Q.ofInt (m.fld Reg.DSP_FETCH_BUDGET 16 0 * 1000000)) ((cnt.map (fun l => l.rate m)).foldl Q.add ⟨0, 1⟩) then 0x29
  else if own.any (fun l => !s.ctxLive l.ctx) || taps.any (fun t => !s.ctxLive (m.fld (Reg.DSP_TAP_CTRL t) 20 16)) then 0x2A
  else if cnt.any (fun l => l.flow && (l.resW == 0 || l.resH == 0 || 7680 < l.resW || 4320 < l.resH)) then 0x2B
  else if taps.any m.tapBad then 0x2C
  else if m.writeFails (s.flag Reg.DPR_CTRL 0) then 0x2D
  else 0

/-! ## Activation -/

/-- The bits of DSP_LAYn_CTRL that CC3 owns in a FLOW layer (R265): EN, LAYOUT, FORMAT, CTX. -/
def ownedCtrl : Nat := 0x1F00FF09

/-- A layer's registers that CC3 owns whole in a FLOW layer. -/
def ownedRegs (n : Nat) : List Nat :=
  [Reg.DSP_LAY_ADDR0_LO n, Reg.DSP_LAY_ADDR0_HI n, Reg.DSP_LAY_ADDR1_LO n, Reg.DSP_LAY_ADDR1_HI n, Reg.DSP_LAY_PITCH0 n,
   Reg.DSP_LAY_PITCH1 n, Reg.DSP_LAY_SRC_SIZE n, Reg.DSP_LAY_CROP_XY n, Reg.DSP_LAY_CROP_WH n, Reg.DSP_LAY_DST_XY n,
   Reg.DSP_LAY_DST_WH n]

/-- The active copy as a configuration. -/
def State.dspActive (s : State) : DspCfg := s.active

/-- Two words merged under a mask of the first. -/
def maskMerge (mask a b : Nat) : Word := BitVec.ofNat 32 a &&& BitVec.ofNat 32 mask ||| BitVec.ofNat 32 b &&& ~~~(BitVec.ofNat 32 mask)

/-- Make a configuration active as a whole; a FLOW layer keeps the fields CC3 owns as CC3 last set them. -/
def State.dspApply (s : State) (m : DspCfg) : State :=
  let old := s.dspActive
  let m' := m.layers.foldl (fun acc l =>
    if l.flow && (old.layer l.n).flow then
      let c := Reg.DSP_LAY_CTRL l.n
      let acc := Sparse.set acc (regReset c) c (maskMerge ownedCtrl (old.word c) (m.word c))
      (ownedRegs l.n).foldl (fun acc a => Sparse.set acc (regReset a) a (BitVec.ofNat 32 (old.word a))) acc
    else acc) m
  { s with active := m' }

/-- Clear the EN of a layer in the active and pending configurations, and in one that waits. -/
def State.layerOff (s : State) (n : Nat) : State :=
  let c := Reg.DSP_LAY_CTRL n
  let off (w : Word) : Word := w &&& ~~~(1 : Word)
  let s := (s.setAct c (off (s.act c))).setReg c (off (s.reg c))
  { s with disp := { s.disp with accepted := s.disp.accepted.map (fun m => Sparse.set m (regReset c) c (off (Sparse.get m (regReset c) c))) } }

/-- Clear the EN of a tap in the active and pending configurations, and in one that waits. -/
def State.tapOff (s : State) (t : Nat) : State :=
  let c := Reg.DSP_TAP_CTRL t
  let off (w : Word) : Word := w &&& ~~~(1 : Word)
  let s := (s.setAct c (off (s.act c))).setReg c (off (s.reg c))
  { s with disp := { s.disp with accepted := s.disp.accepted.map (fun m => Sparse.set m (regReset c) c (off (Sparse.get m (regReset c) c))) } }

/-- Whether two configurations differ in a timing field, DSP_OUT_CTRL or OUT_EN (R263). -/
def timingChanged (a b : DspCfg) : Bool :=
  [Reg.DSP_HTIM0, Reg.DSP_HTIM1, Reg.DSP_VTIM0, Reg.DSP_VTIM1, Reg.DSP_PCLK, Reg.DSP_OUT_CTRL].any (fun r => a.word r ≠ b.word r)
    || a.outEn ≠ b.outEn

/-- Start the timing at the first line of vertical blanking (R261): V_ACTIVE + 64 lines after the fetch deadline that a running
timing would have had. -/
def State.startTiming (s : State) : State :=
  let m := s.dspActive
  let s := s.setFld Reg.DSP_LINE 12 0 m.vActive
  { s with disp := { s.disp with
    running := true, fetchAt := (s.time : Int) - ((m.vActive + 64) * m.hTotal * 100000 / m.pclk : Nat) } }

/-- DSP_COMMIT (R260, R261): the check, and acceptance. With OUT_EN 0 in the active configuration the accepted one becomes
active at once. A write of GO while BUSY is 1 sets GO_LOST. -/
def execDspCommit (s : State) : Ans :=
  if !s.dispRuns then .next s
  else if s.flag Reg.DSP_STATUS 0 then .next (s.setFlag Reg.DSP_STATUS 3)
  else
    let m := s.dspPending
    let code := s.dspCheck m
    let s := (s.setFld Reg.DSP_STATUS 15 8 code).dspEvent 2 3
    if code ≠ 0 then .next s
    else if s.dspActive.outEn then
      .next { s.setFlag Reg.DSP_STATUS 1 with disp := { s.disp with accepted := some m, acceptedAt := s.time } }
    else
      let s := s.dspApply m
      .next (if m.outEn then s.startTiming else s)

/-- DSP_COEF_WRITE (R298): ignored with COEF_ERR for the bank that the active configuration of an enabled layer selects. -/
def execDspCoefWrite (n : Fin 8) (bank : Fin 2) (w : Fin 512) (v : Word) (s : State) : Ans :=
  if !s.dispRuns then .next s
  else
    let l := s.dspActive.layer n.val
    if l.en && l.cbank == bank.val then .next (s.setFlag Reg.DSP_STATUS 6)
    else .next (s.setReg (Reg.DSP_COEF (n.val * 1024 + bank.val * 512 + w.val)) (v &&& 0x0FFF0FFF))

/-! ## Taps -/

/-- The run state of a tap. -/
def State.tap (s : State) (t : Nat) : TapRun := if t = 0 then s.disp.tap0 else s.disp.tap1

/-- Store the run state of a tap. -/
def State.setTap (s : State) (t : Nat) (r : TapRun) : State :=
  if t = 0 then { s with disp := { s.disp with tap0 := r } } else { s with disp := { s.disp with tap1 := r } }

/-- The next buffer of a tap's rotation, skipping the locked one (R282). -/
def tapNext (nbuf next : Nat) (lock : Option Nat) : Option Nat :=
  ((List.range (nbuf + 1)).map (fun i => (next + i) % (nbuf + 1))).find? (fun b => lock ≠ some b)

/-- A tap at a fetch deadline (R281, R282, R293): it takes a buffer for every (DECIM + 1)-th frame; while a protected frame
is shown it writes nothing and counts the frame. -/
def State.tapStart (s : State) (t : Nat) : State :=
  let m := s.dspActive
  let c := Reg.DSP_TAP_CTRL t
  let f := (s.reg Reg.DSP_FRAME).toNat
  let r := { s.tap t with cur := none, acc := [], written := false, dropped := false }
  if m.fld c 0 0 = 0 ∨ f % (m.fld c 13 10 + 1) ≠ 0 then s.setTap t r
  else if !s.disp.prot.isEmpty then (s.setTap t r).countSat (Reg.DSP_TAP_DROP t) 31 0 1
  else
    let lock := if m.fld c 7 7 = 1 then some (m.fld c 9 8) else none
    match tapNext (m.fld c 6 5) r.next lock with
    | none => s.setTap t r
    | some b => s.setTap t { r with cur := some b, next := (b + 1) % (m.fld c 6 5 + 1), frame := f }

/-- One composed line enters a tap (R281, R283): block sums, and a stored row once the block's lines are in. -/
def State.tapLine (s : State) (t y : Nat) (blended out : List Px) : State :=
  let r := s.tap t
  match r.cur with
  | none => s
  | some b =>
    let m := s.dspActive
    let c := Reg.DSP_TAP_CTRL t
    if r.dropped || m.fld c 0 0 = 0 then s
    else
      let sc := tapScale (m.fld c 3 2)
      let acc := addTapLine sc r.acc (if m.fld c 1 1 = 0 then blended else out)
      if (y + 1) % sc ≠ 0 then s.setTap t { r with acc := acc }
      else
        let ctx := m.fld c 20 16
        let base := m.word (Reg.DSP_TAP_ADDR_LO t b) + m.fld (Reg.DSP_TAP_ADDR_HI t b) 15 0 * 2 ^ 32
        let (f, s) := s.vwrite .display ctx (base + y / sc * m.word (Reg.DSP_TAP_PITCH t)) 2
          (full (tapRow sc (m.fld c 4 4) acc)) false true
        match f with
        | some f =>
          let s := (s.captureFail ctx 0x30 .write f).rec0 0x0706 0x30 1 (f.va % 2 ^ 32) (f.va / 2 ^ 32)
          let s := ((s.tapOff t).setFlag (Reg.DSP_TAP_STATUS t) 3).dspEvent 5 2
          s.setTap t { r with cur := none, acc := [] }
        | none => s.setTap t { r with acc := [], written := decide (y + 1 = m.vActive) }

/-- A tap's write queue is full (R283): the rest of the frame is dropped, counted and recorded once. -/
def State.tapDrop (s : State) (t : Nat) : State :=
  let r := s.tap t
  if r.cur.isNone || r.dropped then s
  else
    ((s.setTap t { r with dropped := true }).countSat (Reg.DSP_TAP_DROP t) 31 0 1).rec0 0x0705 0x30 0 t (s.reg Reg.DSP_FRAME).toNat

/-- TAP_PUBLISH (R282): every write of the frame is acknowledged. -/
def execTapPublish (t : Fin 2) (s : State) : Ans :=
  let r := s.tap t.val
  match r.cur with
  | some b =>
    if r.written && !r.dropped then
      let s := ((s.setFld (Reg.DSP_TAP_STATUS t.val) 1 0 b).setFlag (Reg.DSP_TAP_STATUS t.val) 2).setReg
        (Reg.DSP_TAP_FRAME t.val) (BitVec.ofNat 32 r.frame)
      .next (s.setTap t.val { r with cur := none, written := false })
    else .next s
  | none => .next s

/-! ## Fetch deadline: the composition's part (R259) -/

/-- The accepted set, once it has been accepted for 256 pixel clocks (PCLK in kHz, R261). -/
def State.dspReady (s : State) : Option (List (Nat × Word)) :=
  match s.disp.accepted with
  | some m => if 25600000 ≤ (s.time - s.disp.acceptedAt) * s.dspActive.pclk then some m else none
  | none => none

/-- The accepted set takes effect, if it is ready; whether the timing changed. -/
def State.dspTake (s : State) : Bool × State :=
  match s.dspReady with
  | some m =>
    let t := (s.dspApply m).clearFlag Reg.DSP_STATUS 1
    (timingChanged s.dspActive m, { t with disp := { t.disp with accepted := none } })
  | none => (false, s)

/-- What the active configuration turned off, and the faults that waited for the frame's end. -/
def State.dspFrameEnd (s : State) : State :=
  let gone := s.disp.layersOff
  let goneTaps := s.disp.tapsOff
  let s := gone.foldl (fun s n => s.layerOff n) s
  let s := goneTaps.foldl (fun s t => s.tapOff t) s
  let s := s.disp.faultAtNext.foldl (fun s n => (s.setFlag (Reg.DSP_LAY_STATUS n) 0).dspEvent 5 2) s
  let s := s.disp.tapFaultAtNext.foldl (fun s t => (s.setFlag (Reg.DSP_TAP_STATUS t) 3).dspEvent 5 2) s
  { s with disp := { s.disp with
    layersOff := [], tapsOff := [], faultAtNext := [], tapFaultAtNext := [], skip := [], underRec := [], prot := [], blocked := [] } }

/-- Steps 1 to 4 of R259 without the flow and the dimming controller: the frame count, the pending configuration, the
enables that R278 and R280 clear. Answers whether the timing changed. -/
def State.dspDeadline (s : State) : Bool × State :=
  let s := s.countWrap Reg.DSP_FRAME 31 0 1
  let s := s.dspEvent 4 1
  let r := s.dspTake
  (r.1, r.2.dspFrameEnd)

/-- The layers and taps of a context that was killed or faulted lose their enable at the next deadline (R280). -/
def State.displayCtxGone (s : State) (c : Nat) : State :=
  let m := s.dspActive
  let ls := (m.layers.filter (fun l => l.en && l.ctx == c)).map LayCfg.n
  let ts := (List.range 2).filter (fun t => m.fld (Reg.DSP_TAP_CTRL t) 0 0 == 1 && m.fld (Reg.DSP_TAP_CTRL t) 20 16 == c)
  { s with disp := { s.disp with layersOff := s.disp.layersOff ++ ls, tapsOff := s.disp.tapsOff ++ ts,
                                 faultAtNext := s.disp.faultAtNext ++ ls, tapFaultAtNext := s.disp.tapFaultAtNext ++ ts } }

/-! ## One line (R259) -/

/-- A layer's fetch failed (R278): transparent to the end of the frame, record, FAULT, and for a layer outside the flow the
enable goes at the next deadline. -/
def State.layerFault (s : State) (l : LayCfg) (f : VFail) : State :=
  let s := (s.captureFail l.ctx 0x30 .read f).rec0 0x0703 0x30 1 (f.va % 2 ^ 32) (f.va / 2 ^ 32)
  let s := (s.setFlag (Reg.DSP_LAY_STATUS l.n) 0).dspEvent 5 2
  { s with disp := { s.disp with
    skip := l.n :: s.disp.skip, layersOff := if l.flow then s.disp.layersOff else l.n :: s.disp.layersOff } }

/-- Compose one layer of line `y` over the composed values so far. `base0` replaces the plane-0 address where the Whisk has
not published the line (R250). -/
def State.layLine (s : State) (l : LayCfg) (base0 y : Nat) (ev : LineEvents) (acc : List Px) : List Px × State :=
  if !l.en || s.disp.skip.contains l.n || y < l.dy || l.dy + l.dh ≤ y || l.dw = 0 || l.dh = 0 || l.cw = 0 || l.ch = 0 then (acc, s)
  else
    let v := y - l.dy
    let black := s.disp.blocked.contains l.n
    let (f, yr, s) := if black then (none, [], s) else s.fetchRows l base0 0 (l.lumaRows v)
    let (g, cr, s) := if black || f.isSome then (none, [], s) else s.fetchRows l l.addr1 1 (l.chromaRows v)
    match f <|> g with
    | some f => (acc, s.layerFault l f)
    | none =>
      let late (x : Nat) : Bool := ev.late.any (fun p => p.1.val == l.n && p.2 == x)
      let bad (x : Nat) : Bool := ev.parity.any (fun (q, _, x0, k) => q.val == l.n && x0 ≤ x && x < x0 + k)
      let mat := if black then s.matrixOf (Reg.DSP_LAY_RMAT_C l.n 0) else s.layMatrix l
      let out := (List.range acc.length).map (fun x =>
        let d := acc.getD x ⟨0, 0, 0, 0⟩
        if x < l.dx || l.dx + l.dw ≤ x || late x || bad x then d
        else
          let p := if black then ⟨0, 0, 0, chanOne⟩ else s.scaledPx l yr cr (x - l.dx) v
          blendPx (if black then 0 else l.alphaMode) (if black then 255 else l.palpha) (applyMatrix mat p) d)
      let under := (List.range acc.length).any (fun x => l.dx ≤ x && x < l.dx + l.dw && late x)
      let s := if under then s.countSat (Reg.DSP_LAY_UNDER l.n) 31 0 1 else s
      let s := if under && !s.disp.underRec.contains l.n then
          { s.rec0 0x0702 0x30 0 l.n (s.reg Reg.DSP_FRAME).toNat with
            disp := { s.disp with underRec := l.n :: s.disp.underRec } } else s
      (out, s)

/-- Insert a layer in ascending ZPOS. -/
def zInsert (l : LayCfg) : List LayCfg → List LayCfg
  | [] => [l]
  | h :: t => if l.zpos ≤ h.zpos then l :: h :: t else h :: zInsert l t

/-- The layers in ascending ZPOS. -/
def DspCfg.byZ (m : DspCfg) : List LayCfg := m.layers.foldr zInsert []

/-- Compose line `y` (stages 1 to 6): the blended picture, the output matrix's picture, and the state after. -/
def State.composeLine (s : State) (y : Nat) (base : LayCfg → Nat) (ev : LineEvents) : List Px × List Px × State :=
  let m := s.dspActive
  let bg := List.replicate m.hActive s.background
  let (line, s) := m.byZ.foldl (fun (acc, s) l => s.layLine l (base l) y ev acc) (bg, s)
  let omat (k : Nat) : Nat := (s.act (Reg.DSP_OMAT_C 0 + 4 * k)).toNat
  let s := ev.parity.foldl (fun s (_, u, _, _) => s.rec0 0x0704 0x30 0 u (s.reg Reg.DSP_FRAME).toNat) s
  (line, line.map (applyMatrix omat), s)

end Sys2Proof.Machine
end

