-- ==== Sys2Proof/Machine/Submit.lean ====
section
/-! DEFINITION. Events, queues, units of work and their completion, and the loss of work: refusals, context faults, kills
(chapter 9, R321 to R354). -/

namespace Sys2Proof.Machine

/-! ## Queues and units -/

/-- The state of queue `q` where it has been enabled. -/
def State.queue (s : State) (q : Nat) : Option Queue := Sparse.find s.queues q

/-- The number of units of a queue that are started and not retired; a unit of a step program is done with once it and those before
it in the program are complete. -/
def Queue.inflight (u : Queue) : Nat :=
  (u.units.filter (fun w => w.started.isSome && !w.inStep)).length
    + ((u.units.filter (fun w => w.started.isSome && w.inStep)).dropWhile (fun w => w.status.isSome)).length

/-- Store a queue; CPR_Qq_STATUS.INFLIGHT follows its units. -/
def State.setQueue (s : State) (q : Nat) (u : Queue) : State :=
  { s.setFld (Reg.CPR_Q_STATUS q) 20 16 u.inflight with queues := Sparse.put s.queues q u }

/-- STATE of a queue: 0 disabled, 1 enabled, 2 draining, 3 stopped by error, 4 stopped by context. -/
def State.qState (s : State) (q : Nat) : Nat := s.fld (Reg.CPR_Q_STATUS q) 2 0

/-- The pointers of a queue are its doorbell page's registers (R372). -/
def State.wptr (s : State) (q : Nat) : Nat := (s.reg (Reg.DB_WPTR q)).toNat
def State.rptr (s : State) (q : Nat) : Nat := (s.reg (Reg.DB_RPTR q)).toNat

/-- The L2 class of command-packet reads (R338). -/
def cpClass : Nat := 12

/-- The words of a queue's status block (R339). -/
def State.statusWords (s : State) (q : Nat) (u : Queue) : List Nat :=
  [s.rptr q, u.retired, u.errPtr, u.errStatus + u.errCount * 65536, u.lostFirst, u.lostLast, u.lostGen, s.qState q,
   0, 0, 0, 0, 0, 0, 0, 0]

/-- Write a queue's status block (R339): the failure, if any. -/
def State.putStatus (s : State) (q : Nat) : Option VFail × State :=
  match s.queue q with
  | none => (none, s)
  | some u => s.vwrite .command u.ctx u.status cpClass (full (wordBytes (s.statusWords q u))) false false

/-- Advance RPTR to a ring position, never back. -/
def State.advanceRptr (s : State) (q ptr : Nat) : State :=
  if laterThan ptr (s.rptr q) then s.setReg (Reg.DB_RPTR q) (BitVec.ofNat 32 ptr) else s

/-- Status blocks of queues, where their pages can be written; a failure is recorded (R415). -/
def State.putStatuses (s : State) (qs : List Nat) : State :=
  qs.foldl (fun s q =>
    match s.putStatus q with
    | (some f, s) => s.recordFail ((s.queue q).elim 0 (fun u => u.ctx)) 0x02 2 .write f
    | (none, s) => s) s

/-- Set a queue's STATE; a stop raises ERR_VEC where ERR_IE is 1 (R334). -/
def State.setQState (s : State) (q st : Nat) : State :=
  let s := s.setFld (Reg.CPR_Q_STATUS q) 2 0 st
  match s.queue q with
  | some u => if 3 ≤ st && u.errIe then s.raiseVec u.errVec else s
  | none => s

/-- A started unit's record, if it is not complete. -/
def Queue.unit (u : Queue) (seq : Nat) : Option WorkUnit := u.units.find? (fun w => w.seq == seq)

/-- Replace a unit of a queue. -/
def State.updUnit (s : State) (q seq : Nat) (f : WorkUnit → WorkUnit) : State :=
  match s.queue q with
  | none => s
  | some u => s.setQueue q { u with units := u.units.map (fun w => if w.seq = seq then f w else w) }

/-- Complete a unit with a status (R324): the outcome in [10:8], the reason in [7:0]. -/
def State.completeUnit (s : State) (q seq outcome reason : Nat) : State :=
  s.updUnit q seq (fun w => if w.status.isSome then w else { w with status := some (outcome * 256 + reason) })

/-! ## Events (R350 to R354) -/

/-- Whether a wait on an event is satisfied (R354). -/
def State.waitMet (s : State) (e mode g : Nat) : Bool :=
  if mode = 0 then s.flag (Reg.CPR_EVT_CTRL e) 0 else diff32 (s.reg (Reg.CPR_EVT_GEN e)).toNat g < 2 ^ 31

/-- Reset an event: the generation stays. -/
def State.evtReset (s : State) (e : Nat) : State := s.clearFlag (Reg.CPR_EVT_CTRL e) 0

/-- End every wait on an event that is satisfied, then the reset of a consuming one (R354). -/
def State.endWaits (s : State) (e : Nat) : State :=
  let hits := s.queues.filter (fun p => match p.2.wait with
    | some (.event e' mode g _ _) => e' == e && s.waitMet e mode g
    | _ => false)
  let consume := hits.any (fun p => match p.2.wait with
    | some (.event _ _ _ c _) => c
    | _ => false)
  let s := hits.foldl (fun s p =>
    let s := s.setQueue p.1 { p.2 with wait := none }
    (if p.2.stream.isNone then s.advanceRptr p.1 p.2.fetch else s).putStatuses [p.1]) s
  if consume then s.evtReset e else s

/-- A signal of an event: the bit, the generation, its vector, then the waits it satisfies (R352 to R354). What a queue then does at
the end of its buffer is in `evtSignal`. -/
def State.evtFire (s : State) (e : Nat) : State :=
  let s := (s.countWrap (Reg.CPR_EVT_GEN e) 31 0 1).setFlag (Reg.CPR_EVT_CTRL e) 0
  let s := if s.flag (Reg.CPR_EVT_CTRL e) 5 then s.raiseVec (s.fld (Reg.CPR_EVT_CTRL e) 21 16) else s
  s.endWaits e

/-- Whether a context may signal or reset an event, or (`wait`) wait on it (R351). -/
def State.evtAllowed (s : State) (c e : Nat) (wait : Bool) : Bool :=
  s.flag (Reg.CPR_EVT_CTRL e) 3
    && (s.fld (Reg.CPR_EVT_CTRL e) 12 8 == c || (wait && s.flag (Reg.CPR_EVT_CTRL e) 4))

/-! ## Work leaves the machine -/

/-- The flow loses its invocations and shows sources directly when its context faults (R241). -/
def State.flowCtxFault (s : State) (c : Nat) : State :=
  match s.flow with
  | none => s
  | some fl =>
    if fl.d.ctx ≠ c ∨ fl.fallback ∨ fl.d.mode = 0 then s
    else
      let lost := (fl.invs.filter (fun i => i.status == .queued)).length
      let invs := fl.invs.map (fun i => if i.status = .queued then { i with status := .cancelled, cause := 6 } else i)
      let s := { s with flow := some { fl with fallback := true, invs := invs, noPrev := true, onlySr := true } }
      let s := (s.setFlag Reg.WSK_FF_STATUS 17).countWrap (Reg.WSK_FF_STAT 2) 31 0 lost
      s.rec0 0x0602 0x05 1 (s.reg Reg.WSK_FF_OUT_COUNT).toNat (s.reg Reg.WSK_FF_SRC_COUNT).toNat

/-! ## Cores and clusters -/

/-- A core, empty unless something has touched it. -/
def State.core (s : State) (n : Nat) : Core := Sparse.get s.cores Core.empty n

/-- Store a core. -/
def State.setCore (s : State) (n : Nat) (k : Core) : State := { s with cores := Sparse.put s.cores n k }

/-- A cluster. -/
def State.cluster (s : State) (k : Nat) : Cluster := Sparse.get s.clusters Cluster.empty k

/-- Store a cluster. -/
def State.setCluster (s : State) (k : Nat) (c : Cluster) : State := { s with clusters := Sparse.put s.clusters k c }

/-- Request a preemption of a cluster; a later request joins an unanswered one (R389). -/
def State.preemptAsk (s : State) (k : Nat) (x : PreemptScope) : State :=
  let c := s.cluster k
  let p : Preempt := match c.preempt with
    | some p => { p with scopes := if p.scopes.contains x then p.scopes else p.scopes ++ [x] }
    | none => ⟨s.time, [x]⟩
  s.setCluster k { c with preempt := some p }

/-- The blocks on a cluster: core and block slot. -/
def State.clusterBlocks (s : State) (k : Nat) : List (Nat × Nat × Block) :=
  (List.range 4).flatMap (fun n => (s.core (4 * k + n)).blocks.map (fun b => (4 * k + n, b.1, b.2)))

/-- Everything that satisfies a test on queue, unit and context leaves the cores, clusters, copy channels, graphics units, the L2's queue
and the Ladle: blocks and their saved state are discarded, Tongs programs, passes, copies and maintenance stop, and nothing of a unit
that ends here completes later (R329, R331, R366). A withdrawal that has started goes on (R424). -/
def State.dropWork (s : State) (f : Nat → Nat → Nat → Bool) : State :=
  let cores := s.cores.map (fun (n, c) =>
    let gone := (c.blocks.filter (fun b => f b.2.q b.2.seq b.2.ctx)).map (fun b => b.1)
    (n, { c with
      blocks := c.blocks.filter (fun b => !gone.contains b.1), groups := c.groups.filter (fun g => !gone.contains g.2.block) }))
  let keepT (t : Option Tongs) : Option Tongs := match t with
    | some t => if f t.q t.seq t.ctx then none else some t
    | none => none
  let clusters := s.clusters.map (fun (k, c) =>
    (k, { c with
      scratch := c.scratch.filter (fun x => !f x.q x.seq x.ctx), tongsN := keepT c.tongsN, tongsR := keepT c.tongsR,
      saved := c.saved.filter (fun b => !f b.block.q b.block.seq b.block.ctx) }))
  let sc := s.sched
  let keepC (c : List (Nat × CopyRun)) := c.filter (fun p => !f p.2.q p.2.seq p.2.ctx)
  let goes (q seq : Nat) : Bool := match s.queue q with
    | some u => f q seq u.ctx
    | none => false
  let lostT (t : Option Tongs) : Bool := t.any (fun t => f t.q t.seq t.ctx && t.run ≠ .done)
  let idle := (s.clusters.filter (fun p => lostT p.2.tongsN || lostT p.2.tongsR)).map (fun p => p.1)
  let s := { s with
    cores := cores, clusters := clusters,
    sched := { sc with
      copies := keepC sc.copies, copyWait := keepC sc.copyWait, stalled := sc.stalled.filter (fun e => !goes e.q e.seq),
      closing := sc.closing.filter (fun e => !goes e.q e.seq), hostWrites := sc.hostWrites.filter (fun w => !goes w.1 w.2.1),
      ladle := sc.ladle.filter (fun h => !goes h.entry.q h.entry.seq) },
    l2 := { s.l2 with queue := s.l2.queue.filter (fun m => match m.unit with
      | some (q, seq) => !goes q seq
      | none => true) },
    gfx := { s.gfx with passes := s.gfx.passes.filter (fun p => !f p.q p.seq p.ctx),
                        units := s.gfx.units.filter (fun w => !f w.q w.seq w.ctx) } }
  let s := s.maskLeft (min s.l2.maskWait (flushDepth s.l2.queue))
  idle.foldl (fun s k => if s.fld (Reg.CLU_TNG_STATUS k) 2 0 = 5 then s else s.setFld (Reg.CLU_TNG_STATUS k) 2 0 0) s

/-- Whether a source stalls (R165): its entry waits while the Ladle is full. -/
def State.srcStalled (s : State) (unit src : Nat) : Bool :=
  256 ≤ s.sched.ladle.length && s.sched.stalled.any (fun e => e.unit == unit && e.src == src)

/-- The queues of a context that are not disabled. -/
def State.queuesOf (s : State) (c : Nat) : List Nat :=
  (s.queues.filter (fun p => p.2.ctx == c && s.qState p.1 ≠ 0)).map (fun p => p.1)

/-- The completion status that a started unit gets when its context's or all work is lost: its own where it is complete, else FAULTED
for the faulting unit (a step, by a unit of its program) and DISCARDED for the others (R324, R329). -/
def WorkUnit.lossStatus (w : WorkUnit) (faulting : Option Nat) : Nat :=
  w.status.getD (if faulting.any (fun n => n % 2 ^ 32 == w.seq) then 2 * 256 else 4 * 256)

/-- The stream position of a queue's first packet that has not been executed. -/
def Queue.resumeAt (u : Queue) : Nat := match u.units.find? (fun w => w.started.isNone && !w.inStep), u.wait, u.stream with
  | some w, _, _ => w.startPtr
  | none, some (.event ..), none => (u.fetch + 2 ^ 32 - 16) % 2 ^ 32
  | none, some (.mem ..), none => (u.fetch + 2 ^ 32 - 32) % 2 ^ 32
  | none, none, none => u.fetch
  | none, _, some st => if st.step then u.fetch else (u.fetch + 2 ^ 32 - 16) % 2 ^ 32

/-- End every started unit of a queue (R329, R331, R366): complete units keep their status, the faulting unit ends FAULTED,
the others DISCARDED; they retire in order, and LOST words name the discarded ones. Units that had not started stay in the
ring. `toPtr`: where RPTR is set, else it follows the last unit retired. -/
def State.endUnits (s : State) (q : Nat) (faulting : Option Nat) (toPtr : Option Nat) : State :=
  match s.queue q with
  | none => s
  | some u =>
    let started := (u.units.filter (fun w => w.started.isSome && !w.inStep)).map (fun w => (w.seq, w.lossStatus faulting))
    let lost := (started.filter (fun x => x.2 == 4 * 256)).map (fun x => x.1)
    let u' := { u with
      units := [], pass := none, wait := none, retired := (started.getLast?.map (fun x => x.1)).getD u.retired,
      lostFirst := lost.head?.getD u.lostFirst, lostLast := lost.getLast?.getD u.lostLast,
      lostGen := if lost.isEmpty then u.lostGen else (s.reg Reg.CPR_QUENCH_GEN).toNat,
      ended := if started.isEmpty then u.ended else started }
    let next := u.resumeAt
    let s := s.setReg (Reg.DB_RPTR q)
      (BitVec.ofNat 32 (toPtr.getD (if laterThan next (s.rptr q) then next else s.rptr q)))
    let s := { s with slots := s.slots.map (fun (p : Nat × Slot) =>
      if p.2.running.any (fun (r : Nat × Nat) => r.1 == q) then (p.1, { p.2 with running := none }) else p) }
    s.setQueue q u'

/-- Signal a context's LOST_EVENT where LOST_EN is 1. -/
def State.signalLost (s : State) (c : Nat) : State :=
  match s.ctx c with
  | some x => if x.lostEn then s.evtFire x.lostEvent else s
  | none => s

/-- Whether a cluster holds work of a context that a preemption must stop: resident blocks, a Tongs program, or a pass's tiles. -/
def State.ctxOn (s : State) (c k : Nat) : Bool :=
  let cl := s.cluster k
  (s.clusterBlocks k).any (fun b => b.2.2.ctx == c) || cl.tongsN.any (fun t => t.ctx == c) || cl.tongsR.any (fun t => t.ctx == c)
    || s.gfx.passes.any (fun p => p.ctx == c && p.tiles.any (fun t => t.cluster == k))

/-- Steps 4 and 5 of R329 once nothing of the context runs: its units complete in queue order, and the display and the flow learn of
it. -/
def State.faultEnd (s : State) (c : Nat) (fu : Option (Nat × Nat)) : State :=
  let qs := s.queuesOf c
  let s := s.dropWork (fun _ _ x => x == c)
  let s := qs.foldl (fun s q =>
    s.endUnits q (match fu with
      | some (q', n) => if q' = q then some n else none
      | none => none) none) s
  (((s.putStatuses qs).signalLost c).displayCtxGone c).flowCtxFault c

/-- The running work of a context is to stop (R329, R331): its copies at once, its blocks, Tongs programs and passes by a preemption
request of each cluster that holds any, whose answer discards them. -/
def State.loseStart (s : State) (l : Losing) : State :=
  let keepC (c : List (Nat × CopyRun)) := c.filter (fun p => p.2.ctx ≠ l.ctx || p.1 == 4)
  let s := { s with sched := { s.sched with
    copies := keepC s.sched.copies, copyWait := s.sched.copyWait.filter (fun p => p.2.ctx ≠ l.ctx),
    losing := s.sched.losing ++ [l] } }
  ((List.range 12).filter (fun k => s.ctxOn l.ctx k)).foldl (fun s k => s.preemptAsk k (.context l.ctx)) s

/-- A context faults (R329): first-fault capture and its queues stop; its work is to stop, and then `faultEnd` follows, at once where
nothing of it runs on a cluster. During a Quench the fault is held (R568). `fu`: the faulting unit's queue and sequence number. -/
def State.contextFault (s : State) (c code unit : Nat) (fu : Option (Nat × Nat)) : State :=
  if s.sched.quench.isSome then
    { s with sched := { s.sched with heldFaults := s.sched.heldFaults ++ [(c, code, unit)] } }
  else if s.fld (Reg.CPR_CTX_STATUS c) 1 0 ≠ 1 then s
  else
    let s := (s.setFld (Reg.CPR_CTX_STATUS c) 1 0 2).setReg (Reg.CPR_CTX_FAULT c) (BitVec.ofNat 32 (code + unit * 65536))
    let s := (s.queuesOf c).foldl (fun s q => s.setQState q 4) s
    if (List.range 12).any (fun k => s.ctxOn c k) then s.loseStart ⟨c, fu, false⟩ else s.faultEnd c fu

/-- Write a queue's status block; a failing write is a fault of the command processor in the queue's context (R415). -/
def State.updStatus (s : State) (q : Nat) : State :=
  match s.putStatus q with
  | (none, s) => s
  | (some f, s) =>
    let c := (s.queue q).elim 0 (fun u => u.ctx)
    (s.recordFail c 0x02 2 .write f).contextFault c (match f with
      | .xlate _ x => 0x0B00 + x.code
      | .prot .. => 0x1003) 0x22 none

/-- A failed access of a unit: the MMU's record and the context's fault (R415, R571). -/
def State.accessFault (s : State) (c unit : Nat) (access : AccessKind) (f : VFail) (fu : Option (Nat × Nat)) : State :=
  (s.recordFail c unit 2 access f).contextFault c (match f with
    | .xlate _ x => 0x0B00 + x.code
    | .prot .. => 0x1003) 0x22 fu

/-- Poisoned data consumed for a context: record 0x0302 and the context's fault (R163). -/
def State.poisonFault (s : State) (c pa : Nat) (fu : Option (Nat × Nat)) : State :=
  (s.poisonUsed c pa).contextFault c 0x0302 0x20 fu

/-! ## Refusals (R345) -/

/-- Count a refusal in the status block's words. -/
def Queue.refuse (u : Queue) (ptr status : Nat) : Queue :=
  { u with
    errPtr := if u.errCount = 0 then ptr else u.errPtr, errStatus := if u.errCount = 0 then status else u.errStatus,
    errCount := min 65535 (u.errCount + 1) }

/-- A structural refusal stops the queue (R345): STATE 3, RPTR at the packet, record 0x0902. -/
def State.stopQueue (s : State) (q ptr code : Nat) : State :=
  match s.queue q with
  | none => s
  | some u =>
    let s := s.setReg (Reg.DB_RPTR q) (BitVec.ofNat 32 ptr)
    let s := (s.setQueue q (u.refuse ptr (256 + code))).setQState q 3
    (s.recC 0x0902 0x02 2 u.ctx q ptr).updStatus q

/-! ## Retirement (R343) -/

/-- A timeout of a wait (R354, R356): outcome 5 where no refusal is held; the queue continues. -/
def State.waitTimeout (s : State) (q : Nat) : State :=
  match s.queue q with
  | none => s
  | some u =>
    let u := if u.errCount = 0 && u.errStatus == 0 then { u with errStatus := 5 * 256 } else u
    (s.setQueue q { u with wait := none }).updStatus q

/-- The units of a queue that come before another have all completed. -/
def Queue.allComplete (u : Queue) : Bool := u.units.all (fun w => w.status.isSome)

end Sys2Proof.Machine
end

