-- ==== Sys2Proof/Machine/Contexts.lean ====
section
/-! DEFINITION. Contexts (R325 to R333, R401, R431): enable, disable, kill, the object table. -/

namespace Sys2Proof.Machine

/-- Bytes of a context's save area (R326). -/
def saveBytes : Nat := 22806528

/-- Whether two ranges overlap. -/
def overlaps (a n b m : Nat) : Bool := decide (a < b + m) && decide (b < a + n) && n ≠ 0 && m ≠ 0

/-- Bytes of a migration area with its index (R401). -/
def Xlat.migBytes (x : Xlat) : Nat := x.migBlocks * 65536 + x.migBlocks * 128

/-- The enabled contexts other than `c`. -/
def State.otherCtxs (s : State) (c : Nat) : List Ctx := (s.ctxs.filter (fun p => p.1 ≠ c)).map (fun p => p.2)

/-- The translation block of a descriptor's bytes (R401). -/
def parseXlat (d : List Byte) : Xlat :=
  let w := dwordAt d 0x40
  { asid := bits w 15 0, dlayout := bits w 17 16, hlayout := bits w 19 18, hostEn := bit w 20, dout := bit w 21,
    root := dwordAt d 0x48, hostRoot := dwordAt d 0x50, hostBase := dwordAt d 0x58, devBase := dwordAt d 0x60 % 2 ^ 48,
    winGiB := dwordAt d 0x68 % 2 ^ 18, migBase := dwordAt d 0x70, migBlocks := dwordAt d 0x78 % 2 ^ 16 }

/-- Whether a root table's address breaks R401 or R431's CC_MMU_ROOT. -/
def State.rootBad (s : State) (dout : Bool) (layout a : Nat) : Bool :=
  let size := (s.layout layout).rootEntries * 8
  a % max 64 size ≠ 0 || match s.outClass dout a with
    | (.device, o) => !s.isDevMem o
    | (.host, _) => false
    | _ => true

/-- The MMU's check of a translation block (R431): the first failing code, or 0. -/
def State.xlatCheck (s : State) (c : Nat) (d : List Byte) : Nat :=
  let x := parseXlat d
  let others := s.otherCtxs c
  let reserved := dwordAt d 0x40 / 2 ^ 22 ≠ 0 || dwordAt d 0x60 / 2 ^ 48 ≠ 0 || dwordAt d 0x68 / 2 ^ 18 ≠ 0
    || dwordAt d 0x78 / 2 ^ 16 ≠ 0
  if reserved || (x.root ≠ 0 && !s.flag (Reg.MMU_LAYOUT_CTRL x.dlayout) 0)
      || (x.hostEn && !s.flag (Reg.MMU_LAYOUT_CTRL x.hlayout) 0) then 0x53
  else if others.any (fun o => o.xlat.asid == x.asid) then 0x54
  else if x.hostEn && (x.hostBase % 2 ^ 30 ≠ 0 || x.devBase % 2 ^ 30 ≠ 0 || x.winGiB == 0 || 131072 < x.winGiB
      || 2 ^ 48 < x.devBase + x.winGiB * 2 ^ 30 || 2 ^ (s.layout x.hlayout).iabits < x.hostBase + x.winGiB * 2 ^ 30
      || x.hostRoot == 0) then 0x55
  else if !x.hostEn && (x.hostBase ≠ 0 || x.devBase ≠ 0 || x.winGiB ≠ 0) then 0x55
  else if (x.root ≠ 0 && s.rootBad x.dout x.dlayout x.root) || (x.hostEn && s.rootBad false x.hlayout x.hostRoot) then 0x56
  else if x.migBase % 2 ^ 21 ≠ 0 || (x.migBlocks ≠ 0 && s.usable < x.migBase + x.migBytes)
      || others.any (fun o => overlaps x.migBase x.migBytes o.xlat.migBase o.xlat.migBytes
          || overlaps x.migBase x.migBytes o.save saveBytes)
      || (x.migBlocks ≠ 0 && !x.hostEn) then 0x57
  else 0

/-- One object record (R332), or none where it breaks the rule. -/
def parseObject (b : List Byte) : Option MemObject :=
  let base := dwordAt b 0
  let size := dwordAt b 8
  let f := wordAt b 16
  if base % 4096 ≠ 0 || 2 ^ 48 ≤ base || size % 4096 ≠ 0 || size == 0 || 2 ^ 48 ≤ size || 256 ≤ f || bits f 2 1 == 3
      || wordAt b 20 ≠ 0 || dwordAt b 24 ≠ 0 then none
  else some ⟨base, size, bit f 0, bits f 2 1, bit f 3, bits f 7 4⟩

/-- Whether no two objects of a list overlap. -/
def objectsApart : List MemObject → Bool
  | [] => true
  | o :: t => !t.any (fun p => overlaps o.base o.size p.base p.size) && objectsApart t

/-- Read and check an object table (R332, R333); none is CC_CTX_OBJECTS. -/
def State.readObjects (s : State) (c obj count : Nat) : Option (List MemObject) × State :=
  if obj = 0 ∨ count = 0 then (some [], s)
  else
    match s.vread .command c obj (32 * count) cpClass false false with
    | (.fail f, s) => (none, s.recordFail c 0x02 2 .read f)
    | (.ok bs p, s) =>
      let recs := (List.range count).map (fun i => parseObject ((bs.drop (32 * i)).take 32))
      let objs := recs.filterMap id
      if p.isSome || objs.length ≠ count || !objectsApart objs || 8 < (objs.filter MemObject.noSnoop).length then (none, s)
      else (some objs, s)

/-- Post a code in CPR_CTXc_STATUS.REASON. -/
def State.ctxReason (s : State) (c code : Nat) : State := s.setFld (Reg.CPR_CTX_STATUS c) 15 8 code

/-- A context becomes enabled, with its object table (R327, R329): no fault is held, and its work counters start at 0. -/
def State.ctxUp (s : State) (c : Nat) (x : Ctx) : State :=
  let s := { s with ctxs := Sparse.put s.ctxs c x }
  let s := ((s.setReg (Reg.CPR_CTX_FAULT c) 0).setFlag (Reg.CPR_CTX_CTRL c) 0).setFld (Reg.CPR_CTX_STATUS c) 1 0 1
  let s := ((s.setReg64 (Reg.SCH_CTX_CMP_LO c) 0).setReg64 (Reg.SCH_CTX_GFX_LO c) 0).setReg64 (Reg.SCH_CTX_CPY_LO c) 0
  s.ctxReason c 0

/-- CTX_ENABLE (R327): a write that sets CPR_CTXc_CTRL.EN from 0 to 1. -/
def execCtxEnable (c : Fin 32) (s : State) : Ans :=
  let c := c.val
  if !s.uncRuns || s.flag (Reg.CPR_CTX_CTRL c) 0 then .next s
  else if s.fld (Reg.CPR_CTX_STATUS c) 1 0 ≠ 0 then .next (s.ctxReason c 1)
  else
    let a := s.reg64 (Reg.CPR_CTX_DESC_LO c)
    if a % 128 ≠ 0 ∨ s.usable < a + 128 then .next (s.ctxReason c 2)
    else
      let (d, poison, s) := s.devRead cpClass a 128 false
      let save := dwordAt d 8
      let obj := dwordAt d 0x10
      let count := wordAt d 0x18 % 8192
      let lost := wordAt d 0x1C
      let others := s.otherCtxs c
      let reserved := dwordAt d 0 / 256 ≠ 0 || wordAt d 0x18 / 8192 ≠ 0 || bits lost 30 12 ≠ 0
        || ((d.drop 0x20).take 0x20).any (fun b => b ≠ 0)
      if poison || dwordAt d 0 % 256 ≠ 1 || reserved then .next (s.ctxReason c 2)
      else if save % 65536 ≠ 0 || s.usable < save + saveBytes
          || others.any (fun o => overlaps save saveBytes o.save saveBytes) then .next (s.ctxReason c 3)
      else if obj % 32 ≠ 0 || 4096 < count then .next (s.ctxReason c 4)
      else
        let code := s.xlatCheck c d
        if code ≠ 0 then .next (s.ctxReason c code)
        else
          let x := parseXlat d
          let s := s.tlbDropAsid x.asid
          let ctx : Ctx := ⟨save, obj, count, lost % 4096, bit lost 31, x, [], [], [], 0⟩
          let s := { s with ctxs := Sparse.put s.ctxs c ctx }
          match s.readObjects c obj count with
          | (none, s) => .next ({ s.tlbDropAsid x.asid with ctxs := Sparse.drop s.ctxs c }.ctxReason c 4)
          | (some objs, s) => .next (s.ctxUp c { ctx with objects := objs })

/-- A context becomes disabled (R328, R331, R413): its entries and walk-cache descriptors are discarded, and its migrated
blocks and advice go. -/
def State.ctxOff (s : State) (c : Nat) : State :=
  let s := match s.ctx c with
    | some x => s.tlbDropAsid x.xlat.asid
    | none => s
  let s := { s with ctxs := Sparse.drop s.ctxs c }
  (s.clearFlag (Reg.CPR_CTX_CTRL c) 0).setFld (Reg.CPR_CTX_STATUS c) 1 0 0

/-- CTX_DISABLE (R328): a write that sets CPR_CTXc_CTRL.EN from 1 to 0. -/
def execCtxDisable (c : Fin 32) (s : State) : Ans :=
  let c := c.val
  if !s.uncRuns || !s.flag (Reg.CPR_CTX_CTRL c) 0 then .next s
  else if !(s.queuesOf c).isEmpty then .next (s.ctxReason c 1)
  else .next (s.ctxOff c)

/-- A queue becomes disabled. -/
def State.queueOff (s : State) (q : Nat) : State :=
  let s := (s.clearFlag (Reg.CPR_Q_CTRL q) 0).setFld (Reg.CPR_Q_STATUS q) 2 0 0
  s.putStatuses [q]

/-- The sequences and slots of a context go, with their pages (R331). -/
def State.dropModels (s : State) (c : Nat) : State :=
  let slots := (s.slots.filter (fun p => p.2.ctx == c)).map (fun p => p.1)
  let s := { s with seqs := s.seqs.filter (fun p => p.2.ctx ≠ c), slots := s.slots.filter (fun p => p.2.ctx ≠ c) }
  slots.foldl (fun s n => (s.setReg (Reg.SCH_SLOT_PAGES n) 0).setFld (Reg.SCH_SLOT_SEQS n) 14 0 0) s

/-- Release the tracking slots of a context with their entries (R211). -/
def State.dropTracks (s : State) (c : Nat) : State :=
  let gone := (s.gfx.slots.filter (fun p => p.2.ctx == c)).map (fun p => p.2)
  { s with gfx := { s.gfx with
    slots := s.gfx.slots.filter (fun p => p.2.ctx ≠ c),
    table := s.gfx.table.filter (fun e => !gone.any (fun t => t.base ≤ e.1 && e.1 < t.base + t.tilesX * t.tilesY)) } }

/-- The enabled real-time queues. -/
def State.rtQueues (s : State) : List Nat :=
  (s.queues.filter (fun p => p.2.rt && (s.qState p.1 == 1 || s.qState p.1 ≥ 2))).map (fun p => p.1)

/-- Recompute EFF_RESV and RESV_SCALED (R380). -/
def State.reserves (s : State) : State :=
  let rt := s.rtQueues
  let sum := (rt.map (fun q => s.fld (Reg.SCH_Q_CTRL q) 14 8)).sum
  let s := s.setFld Reg.SCH_STATUS 17 17 (if 50 < sum then 1 else 0)
  (List.range 64).foldl (fun s q =>
    let r := s.fld (Reg.SCH_Q_CTRL q) 14 8
    let on := rt.contains q
    (s.setFld (Reg.SCH_Q_STATUS q) 5 0 (if !on then 0 else if 50 < sum then r * 50 / sum else r)).setFld
      (Reg.SCH_Q_STATUS q) 8 8 (if on then 1 else 0)) s

/-- The end of a kill (R331), once nothing of the context runs: every started unit ends DISCARDED, its queues, tracking slots, model
slots and sequences go, LOST_EVENT, and the context is disabled. -/
def State.killEnd (s : State) (c : Nat) : State :=
  let qs := s.queuesOf c
  let s := s.dropWork (fun _ _ x => x == c)
  let s := qs.foldl (fun s q => (s.endUnits q none none).queueOff q) s
  let s := (s.dropTracks c).dropModels c
  (((s.signalLost c).displayCtxGone c).flowCtxFault c |>.ctxOff c).reserves

/-- A kill (R331): STATE reads killing, the queues stop and the running work is to stop; then `killEnd` follows, at once where nothing
of the context runs on a cluster. -/
def State.ctxKill (s : State) (c : Nat) : State :=
  let s := s.setFld (Reg.CPR_CTX_STATUS c) 1 0 3
  let s := { s with sched := { s.sched with losing := s.sched.losing.filter (fun l => l.ctx ≠ c) } }
  if (List.range 12).any (fun k => s.ctxOn c k) then
    ((s.queuesOf c).foldl (fun s q => s.setQState q 4) s).loseStart ⟨c, none, true⟩
  else s.killEnd c

/-- A context whose work was being stopped loses it once no cluster holds any (R329, R331). -/
def State.loseCheck (s : State) : State :=
  let gone (s : State) (l : Losing) : Bool := !(List.range 12).any (fun k => s.ctxOn l.ctx k)
  s.sched.losing.foldl (fun s l =>
    if gone s l then
      let s := { s with sched := { s.sched with losing := s.sched.losing.filter (fun x => x.ctx ≠ l.ctx) } }
      if l.kill then s.killEnd l.ctx else s.faultEnd l.ctx l.unit
    else s) s

/-- CTX_KILL (R331): ignored while STATE is disabled; a context being killed goes on being killed; during a Quench it completes with
the Quench. -/
def execCtxKill (c : Fin 32) (s : State) : Ans :=
  let c := c.val
  if !s.uncRuns || s.fld (Reg.CPR_CTX_STATUS c) 1 0 == 0 then .next s
  else if s.sched.quench.isSome then
    .next { s.setFld (Reg.CPR_CTX_STATUS c) 1 0 3 with sched := { s.sched with heldKills := s.sched.heldKills ++ [c] } }
  else if s.sched.losing.any (fun l => l.ctx == c && l.kill) then .next s
  else .next (s.ctxKill c)

end Sys2Proof.Machine
end

