-- ==== Sys2Proof/Machine/CmdProc.lean ====
section
/-! DEFINITION. The command processor (chapter 9): queues and doorbells, the packet stream, control packets, retirement, and
the model slots, sequences and token steps of R360 to R365 and R394 to R396. -/

namespace Sys2Proof.Machine

/-! ## Packets (R341, R342) -/

/-- Body word `n` of a packet. -/
def pw (p : Pkt) (n : Nat) : Nat := (p.body.getD n 0).toNat

/-- Body words `n` and `n + 1` as one 64-bit value. -/
def pd (p : Pkt) (n : Nat) : Nat := pw p n + pw p (n + 1) * 2 ^ 32

/-- The opcode of a packet. -/
def pktOp (p : Pkt) : Nat := bits p.hdr.toNat 7 0

/-- The ORDER bit of a packet. -/
def pktOrder (p : Pkt) : Bool := bit p.hdr.toNat 18

/-- Bytes of a packet. -/
def pktLen (p : Pkt) : Nat := 4 + 4 * bits p.hdr.toNat 17 8

/-- NBODY of a listed opcode: least and most. -/
def opBody (op : Nat) : Option (Nat × Nat) :=
  match op with
  | 0x00 => some (0, 1023) | 0x01 => some (20, 20) | 0x08 => some (11, 11) | 0x10 => some (3, 3) | 0x11 => some (3, 3)
  | 0x18 => some (6, 6) | 0x19 => some (1, 1) | 0x1A => some (0, 0) | 0x1B => some (7, 7) | 0x1C => some (5, 5)
  | 0x1D => some (3, 3) | 0x20 => some (4, 4) | 0x21 => some (4, 4) | 0x22 => some (6, 6) | 0x23 => some (6, 6)
  | 0x24 => some (0, 0) | 0x28 => some (3, 3) | 0x29 => some (3, 3) | 0x2A => some (7, 7) | 0x40 => some (2, 2)
  | 0x41 => some (2, 2) | 0x42 => some (8, 8) | 0x43 => some (7, 7) | 0x44 => some (0, 0) | 0x45 => some (2, 2)
  | 0x46 => some (10, 10) | 0x47 => some (7, 7) | _ => none

/-- Whether a header's form is right (R341, R342). -/
def hdrOk (p : Pkt) : Bool :=
  p.hdr.toNat / 2 ^ 19 == 0 && match opBody (pktOp p) with
    | some (lo, hi) => lo ≤ bits p.hdr.toNat 17 8 && bits p.hdr.toNat 17 8 ≤ hi
    | none => false

/-- The opcodes a step program may contain (R364). -/
def stepOp (op : Nat) : Bool := [0x00, 0x01, 0x08, 0x10, 0x11, 0x1B, 0x1C, 0x20].contains op

/-- The bytes of a packet. -/
def pktBytes (p : Pkt) : List Byte := wordBytes (p.hdr.toNat :: p.body.map BitVec.toNat)

/-! ## Fetching (R337, R338) -/

/-- Read packet memory. -/
def State.cpRead (s : State) (c va n : Nat) : Option VFail × Option Nat × List (Option Byte) × State :=
  s.rawRead .command cpClass c va n

/-- Whether bytes agree with what memory gave, where it is device memory. -/
def bytesAgree : List (Option Byte) → List Byte → Bool
  | [], _ => true
  | some a :: t, b :: u => a == b && bytesAgree t u
  | none :: t, _ :: u => bytesAgree t u
  | _ :: _, [] => false

/-- What the command processor finds at a queue's position. -/
inductive Fetched where
  | notNow
  | fail (f : VFail)
  | poison (pa : Nat)
  | nest
  | ok
  deriving DecidableEq, Repr

/-- Whether a queue may execute its next packet: enabled, its context too, not waiting, no unit decoded and not started,
no Quench, no entry that has stopped the control cores (R529). -/
def State.qReady (s : State) (q : Nat) (u : Queue) : Bool :=
  s.uncRuns && s.coresTake && s.qState q == 1 && s.fld (Reg.CPR_CTX_STATUS u.ctx) 1 0 == 1 && s.sched.quench.isNone && u.wait.isNone
    && u.units.all (fun w => w.started.isSome)

/-- Fetch the packet at a queue's position and compare it with the operand (R337, R338); a header whose packet crosses the end of a
buffer is refused (R359). -/
def State.fetchPkt (s : State) (u : Queue) (p : Pkt) : Fetched × State :=
  let n := pktLen p
  let q := p.q.val
  if p.body.length ≠ bits p.hdr.toNat 17 8 || u.stream.any (fun st => st.len ≤ st.pos) then (.notNow, s)
  else
    let parts : Option (List (Nat × Nat)) :=
      match u.stream with
      | some st => if st.len < st.pos + n then none else some [(st.addr + st.pos, n)]
      | none =>
        let size := 2 ^ u.log2
        let off := u.fetch % size
        let k := min n (size - off)
        some (if k < n then [(u.ring + off, k), (u.ring, n - k)] else [(u.ring + off, n)])
    match parts with
    | none =>
      match u.stream with
      | none => (.notNow, s)
      | some st =>
        let (f, po, bs, s1) := s.cpRead u.ctx (st.addr + st.pos) 4
        match f, po with
        | some f, _ => (.fail f, s1)
        | none, some a => (.poison a, s1)
        | none, none => if bytesAgree bs (leBytes 4 p.hdr.toNat) then (.nest, s1) else (.notNow, s)
    | some parts =>
      let avail := diff32 (s.wptr q) u.fetch
      if u.stream.isNone && (avail < n || 2 ^ 31 ≤ avail) then (.notNow, s)
      else
        let (f, po, bs, s1) := parts.foldl (fun (f, po, bs, s) (a, k) =>
          match f with
          | some f => (some f, po, bs, s)
          | none =>
            let (f, q, b, s) := s.cpRead u.ctx a k
            (f, po <|> q, bs ++ b, s)) ((none : Option VFail), (none : Option Nat), ([] : List (Option Byte)), s)
        match f, po with
        | some f, _ => (.fail f, s1)
        | none, some a => (.poison a, s1)
        | none, none => if bytesAgree bs (pktBytes p) then (.ok, s1) else (.notNow, s)

/-- The step whose program a queue executes. -/
def Queue.stepUnit (u : Queue) : Option WorkUnit := u.units.find? (fun w => (match w.kind with
  | .step .. => true
  | _ => false) && w.started.isSome && w.status.isNone)

/-- The ring position of the packet being executed: the INDIRECT or TOKEN_STEP packet while a buffer is (R345). -/
def State.pktPtr (s : State) (q : Nat) (u : Queue) : Nat := match u.stream with
  | some st => if st.step then (u.stepUnit.map WorkUnit.startPtr).getD (s.rptr q) else (u.fetch + 2 ^ 32 - 16) % 2 ^ 32
  | none => u.fetch

/-- Move a queue past `n` bytes of its stream. -/
def Queue.pass_ (u : Queue) (n : Nat) : Queue :=
  match u.stream with
  | some st => { u with stream := some { st with pos := st.pos + n } }
  | none => { u with fetch := (u.fetch + n) % 2 ^ 32 }

/-! ## The end of buffers -/

/-- An indirect buffer or step program at its end returns to the ring (R358, R365); a level still open in it stops the queue
(R359). -/
def State.endStream (s : State) (q : Nat) : State :=
  match s.queue q with
  | none => s
  | some u =>
    match u.stream with
    | none => s
    | some st =>
      if st.pos < st.len then s
      else if u.loops.any (fun l => !l.inRing) then s.stopQueue q (s.pktPtr q u) 0x0F
      else if st.step then
        -- the step ends once its units are complete
        match u.stepUnit with
        | some w =>
          if u.units.all (fun x => !x.inStep || x.status.isSome) && u.wait.isNone then
            let s := s.setQueue q { u with stream := none, units := u.units.filter (fun x => !x.inStep) }
            s.completeUnit q w.seq (if st.refused then 1 else 0) (if st.refused then 0x12 else 0)
          else s
        | none => s.setQueue q { u with stream := none }
      else (s.setQueue q { u with stream := none }).advanceRptr q u.fetch

/-- A queue whose buffer is at its end leaves it. -/
def State.settleQ (s : State) (q : Nat) : State := match s.queue q with
  | some u => if u.stream.isSome && u.wait.isNone && s.qState q == 1 then s.endStream q else s
  | none => s

/-- Signal an event (R352 to R354); queues whose wait it ends go on, and leave a buffer that ended with the wait. -/
def State.evtSignal (s : State) (e : Nat) : State :=
  let was := (s.queues.filter (fun p => match p.2.wait with
    | some (.event e' ..) => e' == e
    | _ => false)).map (fun p => p.1)
  was.foldl (fun s q => if (s.queue q).any (fun u => u.wait.isNone) then (s.settleQ q).updStatus q else s) (s.evtFire e)

/-! ## Executing a packet -/

/-- Whether a queue skips to the GFX_PASS_END of a refused pass (R221). -/
def State.skipping (s : State) (q : Nat) (u : Queue) : Bool :=
  s.gfx.passes.any (fun p => p.q == q && u.pass == some p.seq && p.code ≠ 0)

/-- Whether every earlier unit of a queue is complete, for ORDER (R343): inside a step program, the step itself apart. -/
def Queue.earlierComplete (u : Queue) : Bool :=
  (u.units.filter (fun w => match w.kind with
    | .step .. => u.stream.isNone
    | _ => true)).all (fun w => w.status.isSome)

/-- Execute a packet: the meaning `k` gets the queue as it stands after the packet, and the packet's ring position. `sel`
says whether the packet is this row's where rows share an opcode. A packet that is not next changes nothing. ORDER does not
hold the packets inside a pass, whose unit they are part of; after a refused packet of a pass, packets are passed over up to its
GFX_PASS_END (R221). -/
def State.withPkt (s : State) (p : Pkt) (op : Nat) (sel : Bool) (k : Queue → Nat → State → State) : Ans :=
  let s := s.settleQ p.q.val
  match s.queue p.q.val with
  | none => .next s
  | some u =>
    if !s.qReady p.q.val u || (hdrOk p && (pktOp p != op || !sel)) then .next s
    else if pktOrder p && !(0x41 ≤ op && op ≤ 0x44) && !s.skipping p.q.val u && !u.earlierComplete then .next s
    else match s.fetchPkt u p with
      | (.notNow, s) => .next s
      | (.fail f, s) => .next (s.accessFault u.ctx 0x02 .read f none)
      | (.poison a, s) => .next (s.poisonFault u.ctx a none)
      | (.nest, s) => .next (s.stopQueue p.q.val (s.pktPtr p.q.val u) 0x0F)
      | (.ok, s) =>
        if !hdrOk p then .next (s.stopQueue p.q.val (s.pktPtr p.q.val u) 0x09)
        else if s.skipping p.q.val u && op ≠ 0x44 then .next ((s.setQueue p.q.val (u.pass_ (pktLen p))).endStream p.q.val)
        else .next (k (u.pass_ (pktLen p)) (s.pktPtr p.q.val u) s)

/-- A control packet has executed: the queue moves on, RPTR follows in the ring, the status block is updated. -/
def State.ctrlDone (s : State) (q : Nat) (u : Queue) : State :=
  let s := s.setQueue q u
  let s := if u.stream.isNone then s.advanceRptr q u.fetch else s
  (s.endStream q).updStatus q

/-- A refused packet inside a pass ends the pass (R221, R345): what ran of it is dropped, and it completes at its GFX_PASS_END. -/
def State.passMark (s : State) (q : Nat) (u : Queue) (code : Nat) : State :=
  match u.pass.bind (fun n => s.gfx.passes.find? (fun p => p.q == q && p.seq == n)) with
  | none => s
  | some p =>
    if p.code ≠ 0 then s
    else
      let s := s.dropWork (fun a b _ => a == q && b == p.seq)
      let gone : GfxPass := { p with code := code, works := [], busy := [], tiles := [], toBin := [] }
      { s with gfx := { s.gfx with passes := s.gfx.passes ++ [gone] } }

/-- Refuse a control packet (R345): it is skipped. -/
def State.refuseCtrl (s : State) (q : Nat) (u : Queue) (ptr code : Nat) : State :=
  (s.passMark q u code).ctrlDone q (u.refuse ptr (256 + code))

/-- A packet that a step program may not contain (R364): the step is refused, nothing further of its program is executed, and it completes
once its started units have (DEDUCED, log 69). -/
def State.refuseStep (s : State) (q : Nat) (u : Queue) (ptr : Nat) : State :=
  let u := { u.refuse ptr (256 + 0x12) with
    loops := u.loops.filter (fun l => l.inRing), stream := u.stream.map (fun st => { st with pos := st.len, refused := true }) }
  ((s.setQueue q u).endStream q).updStatus q

/-- The next unit of a queue (R323): its key; a unit of a step program carries its step's number. -/
def Queue.nextSeq (u : Queue) : Nat × Queue :=
  match u.stream with
  | some st =>
    if st.step then
      let n := (u.units.map (fun w => w.seq / 2 ^ 32)).foldl max 0 + 1
      (u.seq + n * 2 ^ 32, u)
    else ((u.seq + 1) % 2 ^ 32, { u with seq := (u.seq + 1) % 2 ^ 32 })
  | none => ((u.seq + 1) % 2 ^ 32, { u with seq := (u.seq + 1) % 2 ^ 32 })

/-- Whether a queue executes a step program. -/
def Queue.inProgram (u : Queue) : Bool := match u.stream with
  | some st => st.step
  | none => false

/-- Add a unit to a queue: started now, or (`dispatch`) decoded and not started. Answers its key. -/
def State.addUnit (s : State) (q : Nat) (u : Queue) (ptr : Nat) (order start : Bool) (kind : UnitKind) : Nat × State :=
  let (key, u) := u.nextSeq
  let endPtr := if u.stream.isNone then u.fetch else ptr
  let w : WorkUnit := ⟨key, order, ptr, endPtr, kind, if start then some s.time else none, 0, none, u.inProgram,
    s.fld (Reg.SCH_Q_CTRL q) 31 16⟩
  (key, s.setQueue q { u with units := u.units ++ [w] })

/-- Refuse a unit (R345): it completes with outcome REFUSED. -/
def State.refuseUnit (s : State) (q : Nat) (u : Queue) (ptr code : Nat) (order : Bool) (kind : UnitKind) : State :=
  let (key, s) := (s.passMark q u code).addUnit q (u.refuse ptr (256 + code)) ptr order true kind
  ((s.completeUnit q key 1 code).endStream q).updStatus q

/-- Run a unit packet: at most 16 started units (R343); in a step program only what R364 allows. -/
def State.withUnit (s : State) (p : Pkt) (op : Nat) (sel : Bool) (kind : UnitKind) (check : Queue → State → Nat × State)
    (start : Bool) (k : Queue → Nat → State → State) : Ans :=
  match s.queue p.q.val with
  | none => .next s
  | some u0 =>
    if 16 ≤ u0.inflight then .next s
    else s.withPkt p op sel (fun u ptr s =>
      if u.inProgram && !stepOp op then s.refuseStep p.q.val u ptr
      else
        let (code, s) := check u s
        if code ≠ 0 then s.refuseUnit p.q.val u ptr code (pktOrder p) kind
        else
          let (key, s) := s.addUnit p.q.val u ptr (pktOrder p) start kind
          k u key s)

/-- Whether an earlier unit of a queue has not retired (R344): inside a step program the step itself apart, whose own earlier units
need only be complete. -/
def Queue.earlierRuns (u : Queue) : Bool :=
  if u.inProgram then u.units.any (fun w => if w.inStep then w.status.isNone else u.stepUnit.all (fun x => x.seq != w.seq))
  else !u.units.isEmpty

/-- Run a control packet that acts only after every earlier unit has retired (R344). An INDIRECT in a step program is outside the ring
(R359); another packet that R364 does not list refuses the step. -/
def State.withCtrl (s : State) (p : Pkt) (op : Nat) (sel afterAll : Bool) (k : Queue → Nat → State → State) : Ans :=
  match s.queue p.q.val with
  | none => .next s
  | some u0 =>
    if afterAll && u0.earlierRuns && !s.skipping p.q.val u0 then .next s
    else s.withPkt p op sel (fun u ptr s =>
      if u.inProgram && !stepOp op && op ≠ 0x1D then s.refuseStep p.q.val u ptr else k u ptr s)

/-! ## Queues (R334 to R340, R380) -/

/-- Post a code in CPR_Qq_STATUS.REASON. -/
def State.qReason (s : State) (q code : Nat) : State := s.setFld (Reg.CPR_Q_STATUS q) 15 8 code

/-- Q_ENABLE (R336): a write that sets CPR_Qq_CTRL.EN from 0 to 1. -/
def execQEnable (q : Fin 64) (s : State) : Ans :=
  let q := q.val
  if !s.uncRuns || s.flag (Reg.CPR_Q_CTRL q) 0 then .next s
  else if s.qState q ≠ 0 then .next (s.qReason q 5)
  else
    let a := s.reg64 (Reg.CPR_Q_DESC_LO q)
    if a % 64 ≠ 0 ∨ s.usable < a + 64 then .next (s.qReason q 6)
    else
      let (d, poison, s) := s.devRead cpClass a 64 false
      let w0 := dwordAt d 0
      let ring := dwordAt d 8
      let log2 := dwordAt d 0x10
      let status := dwordAt d 0x18
      let err := dwordAt d 0x20
      let c := bits w0 12 8
      let reserved := bits w0 15 13 ≠ 0 || w0 / 2 ^ 17 ≠ 0 || log2 / 32 ≠ 0 || bits err 30 6 ≠ 0 || err / 2 ^ 32 ≠ 0
        || (d.drop 0x28).any (fun b => b ≠ 0)
      if poison || w0 % 256 ≠ 1 || reserved || log2 < 12 || 22 < log2 || ring % 4096 ≠ 0 || status % 64 ≠ 0 then
        .next (s.qReason q 6)
      else if s.fld (Reg.CPR_CTX_STATUS c) 1 0 ≠ 1 then .next (s.qReason q 7)
      else if bit w0 16 && 4 ≤ s.rtQueues.length then .next (s.qReason q 8)
      else
        -- V starts at 0 (DESIGN CHOICE, log entry 74)
        let u : Queue := ⟨c, bit w0 16, ring, log2, status, err % 64, bit err 31, 0, 0, 0, [], none, none, [], none, 0, 0, 0,
          0, 0, 0, 0, 0, 0, 0, 0, none, 0, []⟩
        let s := (((s.setFlag (Reg.CPR_Q_CTRL q) 0).setReg (Reg.DB_WPTR q) 0).setReg (Reg.DB_RPTR q) 0).setReg64
          (Reg.SCH_Q_TIME_LO q) 0
        let s := ((s.setQueue q u).setFld (Reg.CPR_Q_STATUS q) 2 0 1).qReason q 0
        .next (s.reserves.updStatus q)

/-- Draining ends once every started unit has retired (R340). -/
def State.drainDone (s : State) (q : Nat) : State :=
  match s.queue q with
  | some u => if s.qState q = 2 && u.units.isEmpty then (s.queueOff q).reserves else s
  | none => s

/-- Q_DISABLE (R340): a write that sets CPR_Qq_CTRL.EN from 1 to 0. -/
def execQDisable (q : Fin 64) (s : State) : Ans :=
  let q := q.val
  if !s.uncRuns || !s.flag (Reg.CPR_Q_CTRL q) 0 then .next s
  else
    let s := s.clearFlag (Reg.CPR_Q_CTRL q) 0
    if 3 ≤ s.qState q then .next (s.queueOff q).reserves
    else match s.queue q with
      | none => .next s
      | some u =>
        let u := { u with units := u.units.filter (fun w => w.started.isSome), wait := none }
        .next (((s.setQueue q u).setQState q 2).drainDone q |>.putStatuses [q])

/-- DOORBELL (R337): a write of DB_WPTR; a write of the current WPTR has no effect. -/
def execDoorbell (q : Fin 64) (w : Word) (s : State) : Ans :=
  let q := q.val
  if !s.uncRuns then .next s
  else
    let st := s.qState q
    let size := match s.queue q with
      | some u => 2 ^ u.log2
      | none => 0
    if w.toNat = s.wptr q then .next s
    else if st = 1 ∧ w.toNat % 4 = 0 ∧ diff32 w.toNat (s.rptr q) ≤ size ∧ diff32 w.toNat (s.wptr q) < 2 ^ 31 then
      .next (s.setReg (Reg.DB_WPTR q) w)
    else
      let s := s.setFlag (Reg.CPR_Q_STATUS q) 3
      if st = 0 then .next s
      else match s.queue q with
        | some u =>
          let s := if u.errIe then s.raiseVec u.errVec else s
          .next (s.recC 0x0901 0x02 1 u.ctx q w.toNat)
        | none => .next s

/-! ## Event registers (R350, R353) -/

/-- EVT_REG_SIGNAL: a write of 1 to CPR_EVTe_CTRL.SIGNAL. -/
def execEvtRegSignal (e : Fin 4096) (s : State) : Ans := if s.uncRuns then .next (s.evtSignal e.val) else .next s

/-- EVT_REG_RESET: a write of 1 to CPR_EVTe_CTRL.RESET. -/
def execEvtRegReset (e : Fin 4096) (s : State) : Ans := if s.uncRuns then .next (s.evtReset e.val) else .next s

/-! ## Control packets -/

/-- NOP (R342). -/
def execNop (p : Pkt) (s : State) : Ans := s.withCtrl p 0x00 true false (fun u _ s => s.ctrlDone p.q.val u)

/-- EVENT_SIGNAL with MODE 0, or a reserved MODE, which is refused (R351, R352). -/
def execEventSignal (p : Pkt) (s : State) : Ans :=
  s.withCtrl p 0x10 (bits (pw p 0) 13 12 ≠ 1) true (fun u ptr s =>
    let e := bits (pw p 0) 11 0
    if bits (pw p 0) 13 12 ≠ 0 || !s.evtAllowed u.ctx e false then s.refuseCtrl p.q.val u ptr 0x0E
    else
      let s := s.setQueue p.q.val u
      let s := s.evtSignal e
      let a := pd p 1
      if a = 0 then s.ctrlDone p.q.val u
      else
        match s.vwrite .command u.ctx a cpClass (full (leBytes 4 (s.reg (Reg.CPR_EVT_GEN e)).toNat)) false false with
        | (some f, s) => s.accessFault u.ctx 0x02 .write f none
        | (none, s) => s.ctrlDone p.q.val u)

/-- EVENT_SIGNAL with MODE 1: a reset (R352). -/
def execEventSignalReset (p : Pkt) (s : State) : Ans :=
  s.withCtrl p 0x10 (bits (pw p 0) 13 12 == 1) true (fun u ptr s =>
    let e := bits (pw p 0) 11 0
    if !s.evtAllowed u.ctx e false then s.refuseCtrl p.q.val u ptr 0x0E
    else (s.evtReset e).ctrlDone p.q.val u)

/-- A deadline `n` microseconds from now; 0 means none. -/
def State.deadline (s : State) (n : Nat) : Option Nat := if n = 0 then none else some (s.time + us n)

/-- EVENT_WAIT (R354). -/
def execEventWait (p : Pkt) (s : State) : Ans :=
  s.withCtrl p 0x11 true false (fun u ptr s =>
    let e := bits (pw p 0) 11 0
    let mode := bits (pw p 0) 13 12
    let consume := bit (pw p 0) 14
    if 2 ≤ mode || !s.evtAllowed u.ctx e true then s.refuseCtrl p.q.val u ptr 0x0E
    else if s.waitMet e mode (pw p 1) then (if consume then s.evtReset e else s).ctrlDone p.q.val u
    else s.setQueue p.q.val { u with wait := some (.event e mode (pw p 1) consume (s.deadline (pw p 2))) })

/-- EVENT_WAIT_TIMEOUT (R354). -/
def execEventWaitTimeout (q : Fin 64) (s : State) : Ans :=
  match s.queue q.val with
  | some u =>
    match u.wait with
    | some (.event _ _ _ _ (some t)) =>
      if t ≤ s.time then .next ((((s.waitTimeout q.val).advanceRptr q.val (if u.stream.isNone then u.fetch else s.rptr q.val))).endStream q.val) else .next s
    | _ => .next s
  | none => .next s

/-- The comparisons of R356. -/
def memCompare (func v mask ref : Nat) : Bool :=
  let x := Nat.land v mask
  match func with
  | 0 => x == ref | 1 => x ≠ ref | 2 => x < ref | 3 => x ≤ ref | 4 => ref < x | 5 => ref ≤ x
  | _ => diff32 x ref < 2 ^ 31

/-- Read a value for the command processor; a failure faults the queue's context. -/
def State.cpValue (s : State) (c a n : Nat) : Option Nat × State :=
  match s.vread .command c a n cpClass false false with
  | (.fail f, s) => (none, s.accessFault c 0x02 .read f none)
  | (.ok _ (some pa), s) => (none, s.poisonFault c pa none)
  | (.ok bs none, s) => (some (leNat bs), s)

/-- COND (R356, R359). -/
def execCond (p : Pkt) (s : State) : Ans :=
  s.withCtrl p 0x18 true true (fun u ptr s =>
    let a := pd p 0
    let func := bits (pw p 4) 2 0
    let skip := pw p 5
    if a % 4 ≠ 0 || func == 7 then s.refuseCtrl p.q.val u ptr 0x14
    else
      let past : Bool := match u.stream with
        | some st => decide (st.len < st.pos + skip)
        | none => false
      if past then s.stopQueue p.q.val ptr 0x0F
      else match s.cpValue u.ctx a 4 with
        | (none, s) => s
        | (some v, s) =>
          s.ctrlDone p.q.val (if memCompare func v (pw p 2) (pw p 3) then u else u.pass_ skip))

/-- LOOP (R357, R359). -/
def execLoop (p : Pkt) (s : State) : Ans :=
  s.withCtrl p 0x19 true false (fun u ptr s =>
    if 4 ≤ u.loops.length then s.stopQueue p.q.val ptr 0x0F
    else
      let (body, ring) := match u.stream with
        | some st => (st.pos, false)
        | none => (u.fetch, true)
      s.ctrlDone p.q.val { u with loops := ⟨pw p 0, body, ring⟩ :: u.loops })

/-- LOOP_END (R357, R359). -/
def execLoopEnd (p : Pkt) (s : State) : Ans :=
  s.withCtrl p 0x1A true false (fun u ptr s =>
    match u.loops with
    | [] => s.stopQueue p.q.val ptr 0x0F
    | l :: t =>
      if l.inRing ≠ u.stream.isNone then s.stopQueue p.q.val ptr 0x0F
      else
        let n := (l.count + 2 ^ 32 - 1) % 2 ^ 32
        if n = 0 then s.ctrlDone p.q.val { u with loops := t }
        else
          let u := { u with loops := { l with count := n } :: t }
          s.ctrlDone p.q.val (match u.stream with
            | some st => { u with stream := some { st with pos := l.body } }
            | none => { u with fetch := l.body }))

/-- WAIT_MEM (R356): the first read; the queue then polls. -/
def execWaitMem (p : Pkt) (s : State) : Ans :=
  s.withCtrl p 0x1B true true (fun u ptr s =>
    let a := pd p 0
    let func := bits (pw p 4) 2 0
    let poll := pw p 6 % 65536
    if a % 4 ≠ 0 || func == 7 || poll == 0 || 1000 < poll then s.refuseCtrl p.q.val u ptr 0x14
    else match s.cpValue u.ctx a 4 with
      | (none, s) => s
      | (some v, s) =>
        if memCompare func v (pw p 2) (pw p 3) then s.ctrlDone p.q.val u
        else s.setQueue p.q.val { u with
          wait := some (.mem a (pw p 2) (pw p 3) func poll (s.time + us poll) (s.deadline (pw p 5))) })

/-- WAIT_MEM_POLL (R356): a repeated read. -/
def execWaitMemPoll (q : Fin 64) (s : State) : Ans :=
  match s.queue q.val with
  | some u =>
    match u.wait with
    | some (.mem a mask ref func poll next until_) =>
      if s.time < next then .next s
      else match s.cpValue u.ctx a 4 with
        | (none, s) => .next s
        | (some v, s) =>
          if memCompare func v mask ref then .next (s.ctrlDone q.val { u with wait := none })
          else .next (s.setQueue q.val { u with wait := some (.mem a mask ref func poll (s.time + us poll) until_) })
    | _ => .next s
  | none => .next s

/-- WAIT_MEM_TIMEOUT (R356). -/
def execWaitMemTimeout (q : Fin 64) (s : State) : Ans :=
  match s.queue q.val with
  | some u =>
    match u.wait with
    | some (.mem _ _ _ _ _ _ (some t)) =>
      if t ≤ s.time then .next ((((s.waitTimeout q.val).advanceRptr q.val (if u.stream.isNone then u.fetch else s.rptr q.val))).endStream q.val) else .next s
    | _ => .next s
  | none => .next s

/-- WRITE_MEM (R356). -/
def execWriteMem (p : Pkt) (s : State) : Ans :=
  s.withCtrl p 0x1C true true (fun u ptr s =>
    let a := pd p 0
    let src := bits (pw p 2) 1 0
    let bytes := match src with
      | 0 => leBytes 4 (pw p 3)
      | 1 => leBytes 8 (pd p 3)
      | 2 => leBytes 8 s.time
      | _ => leBytes 4 u.retired
    if a % bytes.length ≠ 0 then s.refuseCtrl p.q.val u ptr 0x14
    else match s.vwrite .command u.ctx a cpClass (full bytes) false false with
      | (some f, s) => s.accessFault u.ctx 0x02 .write f none
      | (none, s) => s.ctrlDone p.q.val u)

/-- INDIRECT (R358, R359). -/
def execIndirect (p : Pkt) (s : State) : Ans :=
  s.withCtrl p 0x1D true false (fun u ptr s =>
    let a := pd p 0
    let len := pw p 2
    if u.stream.isSome then s.stopQueue p.q.val ptr 0x0F
    else if a % 4 ≠ 0 || len % 4 ≠ 0 || len < 4 || 16777216 < len then s.refuseCtrl p.q.val u ptr 0x14
    else s.setQueue p.q.val { u with stream := some ⟨a, len, 0, false, false⟩ })

/-- OBJ_SYNC (R333). -/
def execObjSync (p : Pkt) (s : State) : Ans :=
  s.withCtrl p 0x24 true false (fun u ptr s =>
    match s.ctx u.ctx with
    | none => s
    | some x =>
      match s.readObjects u.ctx x.obj x.objCount with
      | (none, s) => s.refuseCtrl p.q.val u ptr 0x04
      | (some objs, s) => { s with ctxs := Sparse.update s.ctxs u.ctx (fun x => { x with objects := objs }) }.ctrlDone p.q.val u)

/-! ## Model slots and sequences (R360 to R363) -/

/-- SLOT region size of a cluster's effective Griddle regions, in 256-byte units. -/
def State.slotUnits (s : State) (k : Nat) : Nat :=
  bits ((Sparse.get s.clusters Cluster.empty k).region) 16 11 * 256

/-- Read a slot descriptor's bytes (R360). -/
def State.parseSlot (s : State) (c : Nat) (d : List Byte) : Option Slot :=
  let w0 := wordAt d 0
  let n := bits w0 21 16
  let clusters := wordAt d 4
  let pool := dwordAt d 0x10
  let pages := wordAt d 0x18
  let kv := wordAt d 0x1C
  let ext (i : Nat) : Extent :=
    let a := dwordAt d (0x40 + 16 * i)
    ⟨a % 2 ^ 48, bit a 63, wordAt d (0x48 + 16 * i), wordAt d (0x4C + 16 * i)⟩
  let es := (List.range n).map ext
  let ks := setBitsOf 12 clusters
  let apart := (List.range n).all (fun i => (List.range n).all (fun j =>
    i == j || match es[i]?, es[j]? with
      | some a, some b => !overlaps a.goff a.len b.goff b.len
      | _, _ => true))
  let extOk (i : Nat) (e : Extent) : Bool :=
    bits (dwordAt d (0x40 + 16 * i)) 62 48 == 0 && e.goff < 65536 && e.len ≠ 0 && e.len < 65536
      && ks.all (fun k => e.goff + e.len ≤ s.slotUnits k)
  let reserved := bits w0 15 8 ≠ 0 || w0 / 2 ^ 22 ≠ 0 || 4096 ≤ clusters
    || ks.any (fun k => s.flag Reg.GLB_REPAIR k) || ((d.drop 0x20).take 0x20).any (fun b => b ≠ 0)
    || (d.drop (0x40 + 16 * n)).any (fun b => b ≠ 0)
  if w0 % 256 ≠ 1 || 32 < n || reserved || pool % 4096 ≠ 0 || pages == 0 || 65536 < pages || kv % 64 ≠ 0 || !apart
      || !((List.range n).zip es).all (fun (i, e) => extOk i e) then none
  else some ⟨c, clusters, dwordAt d 8, pool, pages, kv, es, false, [], 0, none⟩

/-- Free pages of a slot. -/
def Slot.free (x : Slot) : Nat := x.poolPages - x.usedPages.length

/-- SCH_SLOTs_PAGES and _SEQS follow the slot and its sequences. -/
def State.slotRegs (s : State) (n : Nat) : State :=
  let sq := (s.seqs.filter (fun p => p.2.slot == n)).map (fun p => p.2)
  let act := (sq.filter Sequence.active).length
  let s := (s.setFld (Reg.SCH_SLOT_SEQS n) 6 0 act).setFld (Reg.SCH_SLOT_SEQS n) 14 8 (sq.length - act)
  match Sparse.find s.slots n with
  | some x => s.setReg (Reg.SCH_SLOT_PAGES n) (BitVec.ofNat 32 (x.free + (if x.resident then 2 ^ 31 else 0)))
  | none => s.setReg (Reg.SCH_SLOT_PAGES n) 0

/-- SLOT_DEFINE with OP 0, or a reserved OP, which is refused (R361). -/
def execSlotDefine (p : Pkt) (s : State) : Ans :=
  s.withCtrl p 0x28 (bits (pw p 0) 5 4 ≠ 1) false (fun u ptr s =>
    let n := bits (pw p 0) 3 0
    let a := pd p 1
    if bits (pw p 0) 5 4 ≠ 0 || (Sparse.find s.slots n).isSome || a % 64 ≠ 0 then s.refuseCtrl p.q.val u ptr 0x10
    else match s.vread .command u.ctx a 576 cpClass false false with
      | (.fail f, s) => s.accessFault u.ctx 0x02 .read f none
      | (.ok _ (some pa), s) => s.poisonFault u.ctx pa none
      | (.ok d none, s) =>
        match s.parseSlot u.ctx d with
        | none => s.refuseCtrl p.q.val u ptr 0x10
        | some x => ({ s with slots := Sparse.put s.slots n x }.slotRegs n).ctrlDone p.q.val u)

/-- SLOT_RELEASE: SLOT_DEFINE with OP 1 (R361). -/
def execSlotRelease (p : Pkt) (s : State) : Ans :=
  s.withCtrl p 0x28 (bits (pw p 0) 5 4 == 1) false (fun u ptr s =>
    let n := bits (pw p 0) 3 0
    let named := s.queues.any (fun q => q.2.units.any (fun w => match w.kind with
      | .step slot .. => slot == n && w.started.isNone
      | _ => false))
    match Sparse.find s.slots n with
    | none => s.refuseCtrl p.q.val u ptr 0x10
    | some x =>
      if x.ctx ≠ u.ctx || s.seqs.any (fun q => q.2.slot == n) || named then s.refuseCtrl p.q.val u ptr 0x10
      else ({ s with slots := Sparse.drop s.slots n }.slotRegs n).ctrlDone p.q.val u)

/-- Write one 32-bit field of a sequence record; a failure faults the context. -/
def State.seqWrite (s : State) (c a v : Nat) : State :=
  match s.vwrite .command c a cpClass (full (leBytes 4 v)) false false with
  | (none, s) => s
  | (some f, s) => s.accessFault c 0x02 .write f none

/-- Whether a number is a power of two. -/
def isPow2 (n : Nat) : Bool := n ≠ 0 && 2 ^ Nat.log2 n == n

/-- Read a sequence record (R362). -/
def parseSeq (c slot record order : Nat) (d : List Byte) : Option Sequence :=
  let mx := wordAt d 0x0C
  let os := wordAt d 0x28
  let ev := wordAt d 0x34
  let reserved := 8 ≤ wordAt d 0 || bits ev 30 12 ≠ 0 || (d.drop 0x38).any (fun b => b ≠ 0)
  if reserved || mx == 0 || 2 ^ 24 < mx || !isPow2 os || 65536 < os then none
  else some ⟨c, slot, record, false, false, wordAt d 4, wordAt d 8, mx, dwordAt d 0x10, dwordAt d 0x18, dwordAt d 0x20, os,
    wordAt d 0x2C, ev % 4096, bit ev 31, [], order, 0, 0, true, false⟩

/-- SEQ_OP with OP 0, or a reserved OP, which is refused (R363). -/
def execSeqSubmit (p : Pkt) (s : State) : Ans :=
  s.withCtrl p 0x29 (bits (pw p 0) 9 8 ≠ 1) false (fun u ptr s =>
    let i := bits (pw p 0) 5 0
    let slot := bits (pw p 0) 15 12
    let a := pd p 1
    let owned := match Sparse.find s.slots slot with
      | some x => x.ctx == u.ctx
      | none => false
    if bits (pw p 0) 9 8 ≠ 0 || (Sparse.find s.seqs i).isSome || !owned || a % 64 ≠ 0 then s.refuseCtrl p.q.val u ptr 0x11
    else match s.vread .command u.ctx a 128 cpClass false false with
      | (.fail f, s) => s.accessFault u.ctx 0x02 .read f none
      | (.ok _ (some pa), s) => s.poisonFault u.ctx pa none
      | (.ok d none, s) =>
        match parseSeq u.ctx slot a s.sched.order d with
        | none => s.refuseCtrl p.q.val u ptr 0x11
        | some x =>
          let s := { s with seqs := Sparse.put s.seqs i x, sched := { s.sched with order := s.sched.order + 1 } }
          ((s.slotRegs slot).ctrlDone p.q.val u).seqWrite u.ctx a 1)

/-- SEQ_CANCEL: SEQ_OP with OP 1 (R363). -/
def execSeqCancel (p : Pkt) (s : State) : Ans :=
  s.withCtrl p 0x29 (bits (pw p 0) 9 8 == 1) false (fun u ptr s =>
    let i := bits (pw p 0) 5 0
    match Sparse.find s.seqs i with
    | some x =>
      if x.ctx ≠ u.ctx then s.refuseCtrl p.q.val u ptr 0x11
      else { s with seqs := Sparse.put s.seqs i { x with cancel := true } }.ctrlDone p.q.val u
    | none => s.refuseCtrl p.q.val u ptr 0x11)

/-! ## Token steps (R364, R365, R394 to R396) -/

/-- TOKEN_STEP (R364): decoded; it starts at its step boundary. -/
def execTokenStep (p : Pkt) (s : State) : Ans :=
  let slot := bits (pw p 0) 3 0
  let maxb := bits (pw p 0) 13 8
  let ev := pw p 6
  s.withUnit p 0x2A true (.step slot maxb (pd p 1) (pw p 3) (pd p 4) (ev % 4096) (bit ev 31)) (fun u s =>
    let owned := match Sparse.find s.slots slot with
      | some x => x.ctx == u.ctx
      | none => false
    (if !owned then 0x10 else if u.rt || maxb == 0 || 32 < maxb || pd p 4 % 64 ≠ 0 || pd p 1 % 4 ≠ 0 || pw p 3 % 4 ≠ 0
        || pw p 3 < 4 || 16777216 < pw p 3
      then 0x12 else 0, s)) false (fun _ _ s => s)

/-- Retire a sequence (R363): its pages and index are freed, its STATE written last. -/
def State.seqRetire (s : State) (i state : Nat) : State :=
  match Sparse.find s.seqs i with
  | none => s
  | some x =>
    let s := { s with
      seqs := Sparse.drop s.seqs i,
      slots := Sparse.update s.slots x.slot (fun y => { y with usedPages := y.usedPages.filter (fun g => !x.pages.contains g) }) }
    s.seqWrite x.ctx x.record state

/-- The lowest `n` free pages of a slot. -/
def Slot.lowest (x : Slot) (n : Nat) : List Nat :=
  ((List.range x.poolPages).filter (fun g => !x.usedPages.contains g)).take n

/-- Pages a sequence needs beyond those it holds. -/
def Sequence.need (x : Sequence) : Nat := ceilDiv (x.tokens + x.new) 64 - x.pages.length

/-- Give a sequence its pages and put it in the batch; the page indices are written to its PAGES list (R396). -/
def State.seqTake (s : State) (i need : Nat) (entering : Bool) : State :=
  match Sparse.find s.seqs i with
  | none => s
  | some x =>
    match Sparse.find s.slots x.slot with
    | none => s
    | some y =>
      let pages := y.lowest need
      let s := ((List.range pages.length).zip pages).foldl
        (fun s (j, g) => s.seqWrite x.ctx (x.pagesAddr + 4 * (x.pages.length + j)) g) s
      let s := { s with
        slots := Sparse.put s.slots x.slot { y with usedPages := y.usedPages ++ pages },
        seqs := Sparse.put s.seqs i { x with
          pages := x.pages ++ pages, inBatch := true, active := true,
          admitNo := if entering then s.sched.order else x.admitNo },
        sched := { s.sched with order := s.sched.order + 1 } }
      if entering then s.seqWrite x.ctx x.record 2 else s

/-- Insertion sort of sequences by a key. -/
def seqSort (f : Sequence → Nat) : List (Nat × Sequence) → List (Nat × Sequence)
  | [] => []
  | h :: t =>
    let rec ins (x : Nat × Sequence) : List (Nat × Sequence) → List (Nat × Sequence)
      | [] => [x]
      | y :: u => if f x.2 ≤ f y.2 then x :: y :: u else y :: ins x u
    ins h (seqSort f t)

/-- Waiting sequences in order of submission, until one does not fit (R395). -/
def State.letIn (s : State) (slot maxb : Nat) : List Nat → List Nat → List Nat × State
  | [], batch => (batch, s)
  | i :: t, batch =>
    if maxb ≤ batch.length then (batch, s)
    else
      match Sparse.find s.seqs i, Sparse.find s.slots slot with
      | some x, some y =>
        let need := ceilDiv (x.tokens + x.new) 64
        let act := (s.seqs.filter (fun p => p.2.slot == slot && p.2.active)).length
        if need + act + 1 ≤ y.free then (s.seqTake i need true).letIn slot maxb t (batch ++ [i]) else (batch, s)
      | _, _ => (batch, s)

/-- The select loop of R395; `fuel` covers the sequences a slot can lose. -/
def State.selectBatch (s : State) (slot maxb : Nat) : Nat → List Nat × State
  | 0 => ([], s)
  | fuel + 1 =>
    let mine := s.seqs.filter (fun p => p.2.slot == slot)
    let act := (seqSort Sequence.lastStep (mine.filter (fun p => p.2.active))).map (fun p => p.1)
    let (batch, stalled, s) := act.foldl (fun (batch, stalled, s) i =>
      if maxb ≤ batch.length then (batch, stalled, s)
      else match Sparse.find s.seqs i, Sparse.find s.slots slot with
        | some x, some y =>
          if x.need ≤ y.free then (batch ++ [i], stalled, s.seqTake i x.need false)
          else (batch, stalled ++ [i], s.countSat (Reg.SCH_SLOT_STALL slot) 31 0 1)
        | _, _ => (batch, stalled, s)) (([] : List Nat), ([] : List Nat), s)
    let wait := (seqSort Sequence.submitted (mine.filter (fun p => !p.2.active))).map (fun p => p.1)
    let (batch, s) := s.letIn slot maxb wait batch
    if batch.isEmpty && !stalled.isEmpty then
      let last := stalled.foldl (fun b i =>
        match Sparse.find s.seqs i, Sparse.find s.seqs b with
        | some x, some y => if y.admitNo < x.admitNo then i else b
        | _, _ => b) (stalled.headD 0)
      let c := match Sparse.find s.seqs last with
        | some x => x.ctx
        | none => 0
      let s := ((s.seqRetire last 4).countSat (Reg.SCH_SLOT_CANCEL slot) 31 0 1).recC 0x0A03 0x02 1 c last slot
      s.selectBatch slot maxb fuel
    else (batch, s)

/-- One batch entry (R365). -/
def batchEntry (i : Nat) (x : Sequence) : List Byte :=
  let out := x.out + 4 * (x.outCount % x.outSize)
  let input := if x.first then x.input else x.out + 4 * ((x.outCount + 2 ^ 32 - 1) % 2 ^ 32 % x.outSize)
  wordBytes [i, x.tokens, x.new, 0] ++ leBytes 8 x.pagesAddr ++ leBytes 8 input ++ leBytes 8 out ++ leBytes 8 (x.record + 0x30)
    ++ List.replicate 16 0

/-- The record of a sequence as retirement of a step changes it (R365). -/
def Sequence.stepped (x : Sequence) (order : Nat) : Sequence :=
  { x with tokens := x.tokens + x.new, new := 1, outCount := (x.outCount + 1) % 2 ^ 32, lastStep := order + 1, first := false,
           inBatch := false }

/-- STEP_BOUNDARY (R394 to R396): the queue's unstarted token step begins: sequences retire, are taken in and batched, BATCH
is written, and the step program starts once the slot's state is resident (the cluster's part is `swapIn`). -/
def State.stepBoundary (s : State) (q : Nat) (swapIn : Nat → State → State) : State :=
  match s.queue q with
  | none => s
  | some u =>
    match u.units.find? (fun w => w.started.isNone) with
    | none => s
    | some w =>
      match w.kind with
      | .step slot maxb prog len batchA _ _ =>
        let earlier := u.units.filter (fun x => x.seq ≠ w.seq)
        let okNow := s.qState q == 1 && s.fld (Reg.CPR_CTX_STATUS u.ctx) 1 0 == 1 && s.sched.quench.isNone
          && (!w.order || earlier.all (fun x => x.status.isSome)) && earlier.length < 16
        match Sparse.find s.slots slot with
        | none => s
        | some y =>
          if !okNow || y.running.isSome then s
          else
            -- retire
            let s := (List.range 64).foldl (fun s i =>
              match Sparse.find s.seqs i with
              | none => s
              | some x =>
                if x.slot ≠ slot then s
                else
                  let (done, s) := if x.active then s.cpValue u.ctx (x.record + 0x30) 4 else (some 0, s)
                  if x.active && (done.getD 0 ≠ 0 || x.maxTokens ≤ x.tokens) then s.seqRetire i 3
                  else if x.cancel then s.seqRetire i 4
                  else s) s
            let s := { s with seqs := s.seqs.map (fun (p : Nat × Sequence) => if p.2.slot = slot then (p.1, { p.2 with inBatch := false }) else p) }
            let (batch, s) := s.selectBatch slot maxb 65
            let entries := batch.filterMap (fun i => (Sparse.find s.seqs i).map (fun x => (i, x)))
            let hdr := wordBytes [y.steps, batch.length, slot, 0] ++ leBytes 8 s.time ++ List.replicate 40 0
            let area := hdr ++ entries.flatMap (fun (i, x) => batchEntry i x)
            let s := s.setFld (Reg.SCH_SLOT_SEQS slot) 21 16 batch.length
            if s.fld (Reg.CPR_CTX_STATUS u.ctx) 1 0 ≠ 1 then s
            else match s.vwrite .command u.ctx batchA cpClass
                (full (area ++ List.replicate (2112 - area.length) 0)) false false with
            | (some f, s) => s.accessFault u.ctx 0x02 .write f (some (q, w.seq))
            | (none, s) =>
              match s.queue q with
              | none => s
              | some u =>
                let u := { u with units := u.units.map (fun (x : WorkUnit) => if x.seq = w.seq then { x with started := some s.time, limit := s.fld (Reg.SCH_Q_CTRL q) 31 16 } else x) }
                let s := { s with slots := Sparse.update s.slots slot (fun y => { y with steps := (y.steps + 1) % 2 ^ 32 }) }
                if batch.isEmpty then ((s.setQueue q u).completeUnit q w.seq 0 0).slotRegs slot
                else
                  let s := { s with slots := Sparse.update s.slots slot (fun y => { y with running := some (q, w.seq) }) }
                  let s := s.setQueue q { u with stream := some ⟨prog, len, 0, true, false⟩ }
                  ((swapIn slot s).slotRegs slot).endStream q
      | _ => s

/-- A token step's retirement (R365): the batched sequences advance and signal, then EVENT. A step that ran no program has no batch. -/
def State.stepRetired (s : State) (q seq slot ev : Nat) (en done : Bool) : State :=
  let ran := (Sparse.find s.slots slot).any (fun y => y.running == some (q, seq))
  let batch := if ran then (s.seqs.filter (fun p => p.2.slot == slot && p.2.inBatch)).map (fun p => p.1) else []
  let s := if ran then { s with slots := Sparse.update s.slots slot (fun y => { y with running := none }) } else s
  let s := if !done then s else batch.foldl (fun s i =>
    match Sparse.find s.seqs i with
    | none => s
    | some x =>
      let x := x.stepped s.sched.order
      let s := { s with seqs := Sparse.put s.seqs i x, sched := { s.sched with order := s.sched.order + 1 } }
      let s := ((s.seqWrite x.ctx (x.record + 4) x.tokens).seqWrite x.ctx (x.record + 8) x.new).seqWrite x.ctx (x.record + 0x2C) x.outCount
      if x.eventEn then s.evtSignal x.event else s) s
  let s := { s with seqs := s.seqs.map (fun (p : Nat × Sequence) => if batch.contains p.1 then (p.1, { p.2 with inBatch := false }) else p) }
  (if done && en then s.evtSignal ev else s).slotRegs slot

/-! ## Retirement (R343) -/

/-- The oldest unit of a queue, complete, retires. -/
def State.unitRetire (s : State) (q : Fin 64) : Ans :=
  let q := q.val
  let s := s.settleQ q
  match s.queue q with
  | none => .next s
  | some u =>
    match u.units with
    | [] => .next s
    | w :: rest =>
      match w.status with
      | none => .next s
      | some st =>
        let s := (s.setQueue q { u with units := rest, retired := w.seq % 2 ^ 32, ended := [(w.seq % 2 ^ 32, st)] }).advanceRptr q w.endPtr
        let s := match w.kind with
          | .step slot _ _ _ _ ev en => s.stepRetired q w.seq slot ev en (st == 0)
          | _ => s
        .next ((s.updStatus q).drainDone q)

end Sys2Proof.Machine
end

