-- ==== Sys2Proof/Machine/Operands.lean ====
section
/-! DEFINITION. Shader instructions: lanes and registers, where an instruction issues (R59, R60), its fetch (R82), the checks
that every class shares (R52, R55, R56), operand B (R55), and the exceptions of R95 to R97. -/

namespace Sys2Proof

/-- Bytes of an instruction. -/
def Insn.size (i : Insn) : Nat := if i.long then 16 else 8

/-- An instruction's 128 (or 64) bits (R53, R54). -/
def Insn.word (i : Insn) : Nat :=
  let b (x : Bool) (k : Nat) : Nat := if x then 2 ^ k else 0
  b i.long 0 + b i.pair 1 + i.pg.toNat * 2 ^ 2 + b i.pgn 5 + i.cls.toNat * 2 ^ 6 + i.op.toNat * 2 ^ 10 + i.dst.toNat * 2 ^ 18
    + i.srca.toNat * 2 ^ 26 + i.srcb.toNat * 2 ^ 34 + i.srcc.toNat * 2 ^ 42 + i.mod.toNat * 2 ^ 50 + i.type.toNat * 2 ^ 54
    + i.pd.toNat * 2 ^ 58 + i.bsel.toNat * 2 ^ 61 + b i.rsv63 63
    + (if i.long then i.imm.toNat * 2 ^ 64 + i.srcd.toNat * 2 ^ 96 + i.ext.toNat * 2 ^ 104 + i.rsvHi.toNat * 2 ^ 112 else 0)

/-- IMM as a signed value. -/
def Insn.simm (i : Insn) : Int := i.imm.toInt

/-- Whether TYPE names a register pair. -/
def Insn.wide (i : Insn) : Bool := i.type == 5 || i.type == 6

/-- The register run of operand B, if it is a register. -/
def Insn.bRun (i : Insn) (n : Nat) : List (Nat × Nat) := if i.bsel = 0 then [(i.srcb.toNat, n)] else []

/-- A 64-bit argument operand names an even word (R55). -/
def Insn.argOk (i : Insn) (wide : Bool) : Bool := !(wide && i.bsel == 2 && i.srcb.toNat % 2 == 1)

end Sys2Proof

namespace Sys2Proof.Machine

/-! ## Lanes and registers -/

/-- The register allocation of a requested count (R47). -/
def allocOf (req : Nat) : Nat := max 16 (ceilDiv req 8 * 8)

/-- The lanes of a mask, ascending. -/
def lanesOf (m : Word) : List Nat := setBitsOf 32 m.toNat

/-- The mask of a list of lanes. -/
def maskOf (ls : List Nat) : Word := BitVec.ofNat 32 ((ls.map (fun l => 2 ^ l)).sum)

/-- Register `r` of a lane; every register is 0 at a group's first instruction (R51). -/
def Group.reg (g : Group) (lane r : Nat) : Nat := (Sparse.get g.regs 0 (lane * 256 + r)).toNat

/-- Write register `r` of a lane. -/
def Group.setReg (g : Group) (lane r v : Nat) : Group :=
  { g with regs := Sparse.set g.regs 0 (lane * 256 + r) (BitVec.ofNat 32 v) }

/-- A register, or a pair with the low word first. -/
def Group.val (g : Group) (wide : Bool) (lane r : Nat) : Nat :=
  if wide then g.reg lane r + g.reg lane (r + 1) * 2 ^ 32 else g.reg lane r

/-- Write a register or a pair. -/
def Group.setVal (g : Group) (wide : Bool) (lane r v : Nat) : Group :=
  if wide then (g.setReg lane r v).setReg lane (r + 1) (v / 2 ^ 32) else g.setReg lane r v

/-- Flag `f` of a lane; FON is always true (R65). -/
def Group.flag (g : Group) (f lane : Nat) : Bool := if 7 ≤ f then true else bit (Sparse.get g.flags 0 f).toNat lane

/-- Write flag `f` of a lane; 7 names none (R53). -/
def Group.setFlag (g : Group) (f lane : Nat) (v : Bool) : Group :=
  if 7 ≤ f then g
  else
    let w := setBits (Sparse.get g.flags 0 f).toNat lane lane (if v then 1 else 0)
    { g with flags := Sparse.set g.flags 0 f (BitVec.ofNat 32 w) }

/-- Whether a lane's guard is true (R65). -/
def Group.guard (g : Group) (i : Insn) (lane : Nat) : Bool := g.flag i.pg.toNat lane != i.pgn

/-- The active lanes. -/
def Group.lanes (g : Group) : List Nat := lanesOf g.active

/-- The active lanes whose guard is true. -/
def Group.run (g : Group) (i : Insn) : List Nat := g.lanes.filter (fun l => g.guard i l)

/-! ## Where an instruction issues -/

/-- An instruction at issue: core, group slot, group (its pc past the instruction), block, and the instruction with its
address. -/
structure At where
  core : Nat
  slot : Nat
  g : Group
  b : Block
  pc : Nat
  i : Insn

/-- Store the group of an issue. -/
def State.putGroup (s : State) (core slot : Nat) (g : Group) : State :=
  let k := s.core core
  s.setCore core { k with groups := Sparse.put k.groups slot g }

/-- Store a block of a core. -/
def State.putBlock (s : State) (core bs : Nat) (b : Block) : State :=
  let k := s.core core
  s.setCore core { k with blocks := Sparse.put k.blocks bs b }

/-- A bit error arises in an on-chip memory (R140, R158, R163): the next access to it meets it. A place that holds nothing has none. -/
def State.arise (s : State) : Upset → State
  | .l2 line e =>
    if (Sparse.find s.l2.lines line).isSome then { s with l2 := { s.l2 with errs := Sparse.put s.l2.errs line e } } else s
  | .l1 core n =>
    let k := s.core core.val
    match k.l1[n]? with
    | some l => s.setCore core.val { k with l1 := k.l1.set n { l with parity := true } }
    | none => s
  | .shared core bs off =>
    match Sparse.find (s.core core.val).blocks bs.val with
    | some b => if off < b.kernel.shared * 256 then s.putBlock core.val bs.val { b with smemBad := off :: b.smemBad } else s
    | none => s
  | .griddle k off double =>
    let c := s.cluster k.val
    s.setCluster k.val { c with errs := Sparse.put c.errs off.toNat double }

/-- The bit errors that a command brings have arisen before it (DEDUCED, log entry 10). -/
def State.ariseAll (s : State) (es : List Upset) : State := es.foldl State.arise s

/-- Whether a queue is a real-time queue. -/
def State.isRt (s : State) (q : Nat) : Bool := match s.queue q with
  | some u => u.rt
  | none => false

/-- Virtual time of a queue (R375). -/
def State.vOf (s : State) (q : Nat) : Nat := match s.queue q with
  | some u => u.v
  | none => 0

/-- Whether a unit holds scratch in the normal region of a cluster. -/
def Cluster.holdsNormal (c : Cluster) (q seq : Nat) : Bool := c.scratch.any (fun x => x.q == q && x.seq == seq && !x.rt)

/-- Whether a preemption takes a block off its cluster. -/
def State.takes (s : State) (c : Cluster) (b : Block) : PreemptScope → Bool
  | .normal => !s.isRt b.q
  | .context x => b.ctx == x
  | .aboveV v => b.stage.isNone && !s.isRt b.q && v < s.vOf b.q
  | .noScratch => !s.isRt b.q && !c.holdsNormal b.q b.seq

/-- Whether an unanswered preemption takes a block (R90). -/
def State.preempted (s : State) (k : Nat) (b : Block) : Bool :=
  let c := s.cluster k
  match c.preempt with
  | some p => p.scopes.any (fun x => s.takes c b x)
  | none => false

/-- The L2 class of a block's accesses (R159). -/
def State.blockClass (s : State) (b : Block) : Nat :=
  if b.stage.isSome then 5 else if s.isRt b.q then 3 else 4

/-- The unit ID of a cluster. -/
def cluUnit (core : Nat) : Nat := 0x10 + core / 4

/-! ## Exceptions (R95 to R97) -/

/-- Capture an exception in CLU_EXCn, or count it in LATER. -/
def State.excCapture (s : State) (a : At) (code lane addr : Nat) : State :=
  let k := a.core / 4
  let n := a.core % 4
  if s.flag (Reg.CLU_EXC_STATUS k n) 31 then s.countSat (Reg.CLU_EXC_STATUS k n) 28 22 1
  else
    let s := s.setReg (Reg.CLU_EXC_STATUS k n) (BitVec.ofNat 32 (code + a.slot * 2 ^ 16 + 2 ^ 31))
    let s := s.setReg (Reg.CLU_EXC_INFO k n) (BitVec.ofNat 32 (lane + a.b.ctx * 2 ^ 5 + a.g.block * 2 ^ 16))
    (s.setReg64 (Reg.CLU_EXC_PC_LO k n) a.pc).setReg64 (Reg.CLU_EXC_ADDR_LO k n) addr

/-- Capture and record an exception of one group (R95), without the context's fault. -/
def State.excNote (s : State) (a : At) (code lane addr : Nat) : State :=
  (s.excCapture a code lane addr).recC code (cluUnit a.core) 2 a.b.ctx a.core 0

/-- An exception: the group stops, the record is written, the context faults (R95). -/
def State.exc (s : State) (a : At) (code lane addr : Nat) : State :=
  let s := s.putGroup a.core a.slot { a.g with pc := a.pc, wait := .stopped }
  (s.excNote a code lane addr).contextFault a.b.ctx code (cluUnit a.core) (some (a.b.q, a.b.seq))

/-! ## L1 (R78, R81, R82) -/

/-- A line the L1 holds. -/
def Core.l1Find (k : Core) (cls : OutClass) (line : Nat) : Option L1Line :=
  k.l1.find? (fun l => l.cls = cls && l.line == line)

/-- The lines the L1 holds beside the shared portion of the core's split: 6 − p ways of 32 KiB (R49, R157). -/
def Core.l1Lines (k : Core) : Nat := (6 - k.split) * 256

/-- Put a line into the L1, in place of its own older copy, of nothing where there is room, or of a line that no rule names (R157). -/
def State.l1Put (s : State) (core : Nat) (l : L1Line) : State :=
  let k := s.core core
  let rest := k.l1.filter (fun x => !(x.cls = l.cls && x.line == l.line))
  if rest.length < k.l1Lines then s.setCore core { k with l1 := l :: rest }
  else
    let (v, s) := s.drawNat
    s.setCore core { k with l1 := l :: rest.eraseIdx (v % rest.length) }

/-- Drop a line from the L1. -/
def State.l1Drop (s : State) (core : Nat) (cls : OutClass) (line : Nat) : State :=
  let k := s.core core
  s.setCore core { k with l1 := k.l1.filter (fun x => !(x.cls = cls && x.line == line)) }

/-- Invalidate a core's L1 (R82). -/
def State.l1Clear (s : State) (core : Nat) : State := s.setCore core { s.core core with l1 := [] }

/-- The line an L1 lookup finds; one the L1 held may have been replaced, which no rule specifies (R157). A line with a parity error is
discarded with record 0x0203, and the caller fetches it again (R158). -/
def State.l1Look (s : State) (core : Nat) (cls : OutClass) (line : Nat) : Option L1Line × State :=
  let (kept, s) := s.drawBool
  match (if kept then (s.core core).l1Find cls line else none) with
  | none => (none, s)
  | some l =>
    if l.parity then
      (none, (s.l1Drop core cls line).rec0 0x0203 (cluUnit core) 0 (line * 128 % 2 ^ 32) (line * 128 / 2 ^ 32))
    else (some l, s)

/-- Read bytes within one line through the L1 with policy NEAR (R55, R78): a hit, or the whole line, which then enters the L1; of MMIO
and DV pages exactly the bytes, past the L1. The flag says that the data is poisoned. -/
def State.l1Read (s : State) (core c va cls : Nat) (x : XOut) (n : Nat) : List Byte × Bool × State :=
  let line := x.out / 128
  let part (bs : List Byte) := (bs.drop (x.out % 128)).take n
  if x.cls = .mmio ∨ (x.cls ≠ .device ∧ x.dv) then
    let (bs, s) := s.hostBytes x.out n (s.noSnoopAt c va)
    (bs, false, s)
  else match s.l1Look core x.cls line with
    | (some l, s) => (part (l.bytes.map (fun b => b.getD 0)), false, s)
    | (none, s) =>
      let (bs, p, s) := if x.cls = .device then s.devRead cls (line * 128) 128 false
        else
          let (bs, s) := s.hostBytes (line * 128) 128 (s.noSnoopAt c va)
          (bs, false, s)
      (part bs, p, if p then s else s.l1Put core ⟨x.cls, line, full bs, false⟩)

/-- The parts of a byte range that lie in one 128-byte line each; two parts at most. -/
def lineParts (a n : Nat) : List (Nat × Nat) :=
  let k := min n (128 - a % 128)
  if k < n then [(a, k), (a + k, n - k)] else [(a, n)]

/-! ## Fetch -/

/-- What the fetch of an instruction meets. -/
inductive InsnFetch where
  | agree
  | differ
  | fail (f : VFail)
  | poison (pa : Nat)
  deriving DecidableEq, Repr

/-- Fetch one part of an instruction, within one line, through the L1 (R82): what the L1's copy of the line holds, else what memory
holds. Host memory holds whatever it holds, and the line that then enters the L1 holds the part. -/
def State.fetchPart (s : State) (core c va cls : Nat) (x : XOut) (want : List Byte) : InsnFetch × State :=
  let line := x.out / 128
  let at_ := x.out % 128
  let same (bs : List (Option Byte)) : Bool := (bs.drop at_).take want.length == full want
  if x.cls = .device ∧ !s.ctxMayAccess c x.out then (.fail (.prot va x.out), s)
  else if x.cls = .mmio ∨ (x.cls ≠ .device ∧ x.dv) then
    (.agree, (s.hostBytes x.out want.length (s.noSnoopAt c va)).2)
  else match s.l1Look core x.cls line with
    | (some l, s1) => if same l.bytes then (.agree, s1) else (.differ, s)
    | (none, s1) =>
      if x.cls = .device then
        let (got, p, s2) := s1.devRead cls (line * 128) 128 false
        if p then (.poison x.out, s2)
        else if same (full got) then (.agree, s2.l1Put core ⟨.device, line, full got, false⟩)
        else (.differ, s)
      else
        let (got, s2) := s1.hostBytes (line * 128) 128 (s1.noSnoopAt c va)
        (.agree, s2.l1Put core ⟨x.cls, line, full (got.take at_ ++ want ++ got.drop (at_ + want.length)), false⟩)

/-- Fetch an instruction through the L1 (R82), with execute permission (R405), and compare it with the issued one. -/
def State.fetchInsn (s : State) (core c pc cls : Nat) (bs : List Byte) : InsnFetch × State :=
  (lineParts pc bs.length).foldl (fun (r, s) (a, k) =>
    match r with
    | .agree =>
      match s.xlate (.core core) c a .exec with
      | (.fault f, s) => (.fail (.xlate a f), s)
      | (.ok o, s) => s.fetchPart core c a cls o ((bs.drop (a - pc)).take k)
    | r => (r, s)) (.agree, s)

/-! ## Issue -/

/-- What a class asks of an instruction: ports, the listed opcodes, whether the long form is needed, its own encoding rules,
its register runs (first register and length), whether it acts whatever its guard (TALLY); of the runs the ones it writes, and the flags
beside its guard that it reads and writes (R61); and an encoding rule and runs that depend on the state (SRCC of GLD and GST, R141). -/
structure Form where
  mayA : Bool
  mayB : Bool
  listed : Nat → Bool
  long : Bool
  legal : Insn → Bool
  runs : Insn → List (Nat × Nat)
  always : Bool
  writes : Insn → List (Nat × Nat) := fun i => [(i.dst.toNat, 1)]
  flagsIn : Insn → List Nat := fun _ => []
  flagsOut : Insn → List Nat := fun _ => []
  bad : State → At → Bool := fun _ _ => false
  more : State → At → List (Nat × Nat) := fun _ _ => []

/-- The encoding rules every class shares (R55, R56). -/
def Form.ok (f : Form) (i : Insn) : Bool :=
  !i.rsv63 && (!i.long || i.rsvHi == 0) && i.bsel ≠ 3 && !(i.long && i.bsel == 1 && i.srcb ≠ 0) && (i.long || !f.long)
    && i.type.toNat < 8 && f.listed i.op.toNat && f.legal i && (f.runs i).all (fun r => r.1 % r.2 == 0)

/-- Whether two register runs share a register. -/
def runsMeet (a b : List (Nat × Nat)) : Bool := a.any (fun x => b.any (fun y => x.1 < y.1 + y.2 && y.1 < x.1 + x.2))

/-- Registers of a run with a write pending from a load or atomic of the group (R59). -/
def Group.pendingOn (g : Group) (runs : List (Nat × Nat)) : Bool :=
  g.ops.any (fun o => o.kind ≠ .store && runsMeet runs [(o.dst, max 1 (o.width / 4))])

/-- What an instruction reads and writes, and what R61 asks of it beside that. -/
def Form.footprint (f : Form) (x : Issue) : FirstIssue :=
  ⟨x.slot.val, x.portB, x.i.pair, x.i.cls == 10 || x.i.cls == 11, f.runs x.i, f.writes x.i,
   x.i.pg.toNat :: f.flagsIn x.i, f.flagsOut x.i⟩

/-- Whether a group's second instruction may pair with its first (R61): PAIR of the first, neither of class BR or SYNC, the second
names no register or flag that the first writes and writes none that the first reads. -/
def FirstIssue.pairs (a b : FirstIssue) : Bool :=
  a.pair && !a.portB && b.portB && !a.alone && !b.alone && !runsMeet b.regs a.writes && !runsMeet b.writes a.regs
    && a.flagsOut.all (fun f => 7 ≤ f || !(b.flagsIn ++ b.flagsOut).contains f)
    && b.flagsOut.all (fun f => 7 ≤ f || !a.flagsIn.contains f)

/-- Whether an issue may be the second one of the core's cycle (R60, R61, R64): not with DUAL_DIS, on the other port, of the same group
where it pairs, or of another group. The commands of one cycle come in ascending slot order, as R97 takes their exceptions. -/
def State.mayDual (s : State) (x : Issue) (f : Form) : Bool :=
  !s.flag (Reg.CLU_SHADER_CTRL (x.core.val / 4)) 0 && match (s.core x.core.val).first with
    | none => false
    | some a => a.portB ≠ x.portB && (if a.slot = x.slot.val then a.pairs (f.footprint x) else a.slot < x.slot.val)

/-- The group that can issue an instruction, with its block (R59, R60, R64): it is resident and ready, the port takes the
class, which under DUAL_DIS is port A where the class allows it, and no preemption, Quench, stall (R165) or duty of R548 stops it. The
second instruction of a cycle is not stopped by what the first one caused. -/
def State.ready (s : State) (x : Issue) (f : Form) : Option (Group × Block) :=
  let core := x.core.val
  let single := x.portB && f.mayA && s.flag (Reg.CLU_SHADER_CTRL (core / 4)) 0
  if !s.cluOn || s.sched.quench.isSome || s.srcStalled (cluUnit core) (core % 4) || !(if x.portB then f.mayB else f.mayA) || (if x.dual then !s.mayDual x f else single) then none
  else match Sparse.find (s.core core).groups x.slot.val with
    | none => none
    | some g =>
      match Sparse.find (s.core core).blocks g.block with
      | none => none
      | some b =>
        if g.wait ≠ .ready || g.pendingOn (f.runs x.i ++ f.more s ⟨core, x.slot.val, g, b, g.pc, x.i⟩)
          || (s.preempted (core / 4) b && !x.dual) || (s.dutyGate && !s.isRt b.q) then none
        else some (g, b)

/-- Count an issue and move the port's pointer (R60, R96). Of two instructions of one group in one cycle the second leaves port B's
pointer where it is, as R60's pseudocode does (DEDUCED, log entry 26). -/
def State.issued (s : State) (x : Issue) (f : Form) : State :=
  let n := x.core.val
  let k := s.core n
  let same := x.dual && k.first.any (fun a => a.slot == x.slot.val)
  let k := if x.portB then (if same then k else { k with ptrB := x.slot.val }) else { k with ptrA := x.slot.val }
  let k := { k with first := if x.dual then none else some (f.footprint x) }
  let s := (s.setCore n k).count64 (Reg.CLU_CORE_ISSUE_LO (n / 4) (n % 4)) 1
  if x.dual then s.count64 (Reg.CLU_CORE_DUAL_LO (n / 4) (n % 4)) 1 else s

/-- Whether an instruction is a row's: of its class with one of its opcodes. One with an opcode that its class does not list, or of a
class that no row has, is any row's: it raises ILLEGAL_ENCODING (R56). -/
def insnOfRow (i : Insn) (cls : Nat) (mine listed : Nat → Bool) : Bool :=
  if i.cls.toNat = cls then mine i.op.toNat || !listed i.op.toNat else 14 ≤ i.cls.toNat

/-- Run one instruction of a class: ready, fetched, checked (R52, R56: encoding first, then the registers, before what its effect
checks, MMA_LANES among it: DESIGN CHOICE, log entry 27), then its effect `k`. `mine` says which
opcodes are the row's; an issue that does not hold in the state changes nothing. An instruction whose guard is false in every
active lane does nothing and raises nothing (R65). -/
def State.withInsn (s : State) (x : Issue) (cls : Nat) (mine : Nat → Bool) (f : Form) (k : At → State → State) : Ans :=
  if !insnOfRow x.i cls mine f.listed then .next s
  else match s.ready x f with
    | none => .next s
    | some (g, b) =>
      match s.fetchInsn x.core.val b.ctx g.pc (s.blockClass b) (leBytes x.i.size x.i.word) with
      | (.differ, _) => .next s
      | (.fail e, s) =>
        .next (s.accessFault b.ctx (cluUnit x.core.val) .exec e (some (b.q, b.seq)))
      | (.poison pa, s) => .next (s.poisonFault b.ctx pa (some (b.q, b.seq)))
      | (.agree, s) =>
        let s := s.issued x f
        let a : At := ⟨x.core.val, x.slot.val, { g with pc := (g.pc + x.i.size) % 2 ^ 48 }, b, g.pc, x.i⟩
        let s := s.putGroup a.core a.slot a.g
        let lanes := if f.always && x.i.cls.toNat == cls && mine x.i.op.toNat then g.lanes else g.run x.i
        match lanes with
        | [] => .next s
        | l :: _ =>
          if x.i.cls.toNat ≠ cls || !f.ok x.i || f.bad s a then .next (s.exc a 0x0101 l 0)
          else if (f.runs x.i ++ f.more s a).any (fun r => allocOf b.kernel.regs < r.1 + r.2) then .next (s.exc a 0x0102 l 0)
          else .next (k a s)

/-! ## Operand B (R55) -/

/-- One 32-bit kernel-argument word, read through the L1; a failed read faults the context. -/
def State.argWord (s : State) (a : At) (n : Nat) : Option Nat × State :=
  let va := (a.b.kernel.args + 4 * n) % 2 ^ 48
  match s.xlate (.core a.core) a.b.ctx va .read with
  | (.fault e, s) => (none, s.accessFault a.b.ctx (cluUnit a.core) .read (.xlate va e) (some (a.b.q, a.b.seq)))
  | (.ok o, s) =>
    if o.cls = .device ∧ !s.ctxMayAccess a.b.ctx o.out then
      (none, s.accessFault a.b.ctx (cluUnit a.core) .read (.prot va o.out) (some (a.b.q, a.b.seq)))
    else
      let (bs, p, s) := s.l1Read a.core a.b.ctx va (s.blockClass a.b) o 4
      if p then (none, s.poisonFault a.b.ctx o.out (some (a.b.q, a.b.seq))) else (some (leNat bs), s)

/-- Consecutive kernel-argument words as one number, the first the low one. -/
def State.argWords (s : State) (a : At) (n : Nat) : Nat → Option Nat × State
  | 0 => (some 0, s)
  | m + 1 => match s.argWord a n with
    | (none, s) => (none, s)
    | (some lo, s) => match s.argWords a (n + 1) m with
      | (none, s) => (none, s)
      | (some hi, s) => (some (lo + hi * 2 ^ 32), s)

/-- Where operand B comes from once arguments are read. -/
inductive BSrc where
  | reg
  | const (v : Nat)
  deriving DecidableEq, Repr

/-- Read what an operand B of `n` 32-bit words needs beside registers (R55): an immediate, sign-extended to the operand's width, or
argument words; none after a fault. -/
def State.bwords (s : State) (a : At) (n : Nat) : Option BSrc × State :=
  if a.i.bsel = 0 then (some .reg, s)
  else if a.i.bsel = 1 then
    (some (.const (wrapInt (32 * n) (if a.i.long then a.i.simm else a.i.srcb.toInt))), s)
  else match s.argWords a a.i.srcb.toNat n with
    | (none, s) => (none, s)
    | (some v, s) => (some (.const v), s)

/-- Operand B of 32 or 64 bits. -/
def State.bsrc (s : State) (a : At) (wide : Bool) : Option BSrc × State := s.bwords a (if wide then 2 else 1)

/-- The value of operand B in a lane. -/
def At.bval (a : At) (b : BSrc) (wide : Bool) (lane : Nat) : Nat := match b with
  | .reg => a.g.val wide lane a.i.srcb.toNat
  | .const v => v

/-- Write a value to DST in each running lane. -/
def At.write (a : At) (wide : Bool) (f : Nat → Nat) : Group :=
  (a.g.run a.i).foldl (fun g l => g.setVal wide l a.i.dst.toNat (f l)) a.g

/-- Write a flag PD in each running lane. -/
def At.writeFlag (a : At) (f : Nat → Bool) : Group :=
  (a.g.run a.i).foldl (fun g l => g.setFlag a.i.pd.toNat l (f l)) a.g

/-- Put the group of an issue back. -/
def State.putAt (s : State) (a : At) (g : Group) : State := s.putGroup a.core a.slot g

end Sys2Proof.Machine
end

