-- ==== Sys2Proof/Machine/ShaderAlu.lean ====
section
/-! DEFINITION. Vector arithmetic of the cores (chapter 2): FALU, IALU, CMP, CVT, SFU, cross-lane instructions, MOVS and pointer
conversion. -/

namespace Sys2Proof.Machine

/-- MOD's fields of the arithmetic classes (R57). -/
def modeOf (i : Insn) : FMode :=
  ⟨rndOf (bits i.mod.toNat 1 0), bit i.mod.toNat 2, bit i.mod.toNat 3⟩

/-- The free numbers of a lane of an instruction. -/
def State.freeOf (s : State) (lane h : Nat) : Nat := Config.freeLane s.draws (lane * 4 + h)

/-- Run an arithmetic instruction: operand B read once, then DST written in each running lane from the lane and operand B. -/
def State.arith (s : State) (a : At) (useB wideB wideD : Bool) (f : State → (Nat → Nat) → Nat → Nat) : State :=
  let (b, s) := if useB then s.bsrc a wideB else (some .reg, s)
  match b with
  | none => s
  | some b =>
    let g := a.write wideD (fun l => f s (a.bval b wideB) l)
    { s.putAt a g with draws := s.draws + 1 }

/-! ## FALU (R57, R58, R103) -/

/-- A FALU opcode on decoded elements. -/
def faluOp (op : Nat) (m : Rnd) (xs : List FVal) : FVal :=
  let x := xs.getD 0 .nan
  let y := xs.getD 1 .nan
  match op with
  | 0 => x.plus m y
  | 1 => x.plus m y.negate
  | 2 => x.times y
  | 3 => (x.times y).plus m (xs.getD 2 .nan)
  | 4 => x.minmax false y
  | 5 => x.minmax true y
  | 6 => x
  | 7 => x.abs
  | _ => x.negate

/-- FALU's form: floating types; B read by ADD to MAX, C by FMA. -/
def faluForm : Form where
  mayA := true
  mayB := true
  listed := fun op => op ≤ 8
  long := false
  legal := fun i => i.type.toNat ≤ 2
  runs := fun i => [(i.dst.toNat, 1), (i.srca.toNat, 1)] ++ (if i.op.toNat ≤ 5 then i.bRun 1 else [])
    ++ (if i.op = 3 then [(i.srcc.toNat, 1)] else [])
  always := false

/-- A FALU instruction. -/
def State.falu (s : State) (x : Issue) (op : Nat) : Ans :=
  s.withInsn x 0 (· == op) faluForm (fun a s =>
    s.arith a (op ≤ 5) false false (fun s b l =>
      fapply a.i.type.toNat (modeOf a.i) (s.freeOf l) (faluOp op (modeOf a.i).rnd)
        [a.g.reg l a.i.srca.toNat, b l, a.g.reg l a.i.srcc.toNat]))

/-- FALU_ADD (R58). -/
def execFaluAdd (i : Issue) (s : State) : Ans := s.falu i 0
/-- FALU_SUB (R58). -/
def execFaluSub (i : Issue) (s : State) : Ans := s.falu i 1
/-- FALU_MUL (R58). -/
def execFaluMul (i : Issue) (s : State) : Ans := s.falu i 2
/-- FALU_FMA (R58). -/
def execFaluFma (i : Issue) (s : State) : Ans := s.falu i 3
/-- FALU_MIN (R58). -/
def execFaluMin (i : Issue) (s : State) : Ans := s.falu i 4
/-- FALU_MAX (R58). -/
def execFaluMax (i : Issue) (s : State) : Ans := s.falu i 5
/-- FALU_MOV (R57). -/
def execFaluMov (i : Issue) (s : State) : Ans := s.falu i 6
/-- FALU_ABS (R57). -/
def execFaluAbs (i : Issue) (s : State) : Ans := s.falu i 7
/-- FALU_NEG (R57). -/
def execFaluNeg (i : Issue) (s : State) : Ans := s.falu i 8

/-! ## IALU (R606, R607) -/

/-- Whether an IALU opcode is a shift, whose count is always 32 bits. -/
def isShift (op : Nat) : Bool := op == 9 || op == 10

/-- Whether an IALU opcode reads operand B. -/
def ialuUsesB (op : Nat) : Bool := !(op == 8 || op == 11 || op == 12)

/-- IALU's form. -/
def ialuForm : Form where
  mayA := true
  mayB := true
  listed := fun op => op ≤ 13
  long := false
  legal := fun i => (if i.op = 13 then [3, 4, 7] else [3, 4, 5, 6, 7]).contains i.type.toNat
    && (!ialuUsesB i.op.toNat || i.argOk (i.wide && !isShift i.op.toNat))
  runs := fun i =>
    let w := if i.wide then 2 else 1
    [(i.dst.toNat, w), (i.srca.toNat, w)]
      ++ (if ialuUsesB i.op.toNat then i.bRun (if isShift i.op.toNat then 1 else w) else [])
      ++ (if i.op = 4 then [(i.srcc.toNat, w)] else [])
  always := false
  writes := fun i => [(i.dst.toNat, if i.wide then 2 else 1)]

/-- An IALU instruction. -/
def State.ialu (s : State) (x : Issue) (op : Nat) : Ans :=
  s.withInsn x 1 (· == op) ialuForm (fun a s =>
    let w := a.i.wide
    s.arith a (ialuUsesB op) (w && !isShift op) w (fun _ b l =>
      ialuVal op a.i.type.toNat (a.g.val w l a.i.srca.toNat) (b l) (a.g.val w l a.i.srcc.toNat)))

/-- IALU_ADD (R606). -/
def execIaluAdd (i : Issue) (s : State) : Ans := s.ialu i 0
/-- IALU_SUB (R606). -/
def execIaluSub (i : Issue) (s : State) : Ans := s.ialu i 1
/-- IALU_MUL (R606). -/
def execIaluMul (i : Issue) (s : State) : Ans := s.ialu i 2
/-- IALU_MULH (R606). -/
def execIaluMulh (i : Issue) (s : State) : Ans := s.ialu i 3
/-- IALU_MAD (R606). -/
def execIaluMad (i : Issue) (s : State) : Ans := s.ialu i 4
/-- IALU_AND (R606). -/
def execIaluAnd (i : Issue) (s : State) : Ans := s.ialu i 5
/-- IALU_OR (R606). -/
def execIaluOr (i : Issue) (s : State) : Ans := s.ialu i 6
/-- IALU_XOR (R606). -/
def execIaluXor (i : Issue) (s : State) : Ans := s.ialu i 7
/-- IALU_NOT (R606). -/
def execIaluNot (i : Issue) (s : State) : Ans := s.ialu i 8
/-- IALU_SHL (R607). -/
def execIaluShl (i : Issue) (s : State) : Ans := s.ialu i 9
/-- IALU_SHR (R607). -/
def execIaluShr (i : Issue) (s : State) : Ans := s.ialu i 10
/-- IALU_ONES (R606). -/
def execIaluOnes (i : Issue) (s : State) : Ans := s.ialu i 11
/-- IALU_LZC (R606). -/
def execIaluLzc (i : Issue) (s : State) : Ans := s.ialu i 12
/-- IALU_XBIT (R607). -/
def execIaluXbit (i : Issue) (s : State) : Ans := s.ialu i 13

/-! ## CMP (R57, R606) -/

/-- The form of CMPF, SEL and FLOG. A comparison that R57 does not list is no instruction (DESIGN CHOICE, log entry 29); no row of
the TYPE table names FLOG, which takes every TYPE (DESIGN CHOICE, log entry 30). -/
def cmpForm : Form where
  mayA := true
  mayB := true
  listed := fun op => op ≤ 2
  long := false
  legal := fun i =>
    if i.op = 0 then !([1, 2].contains i.type.toNat) && i.mod.toNat % 8 ≤ 5 && i.argOk i.wide
    else if i.op = 1 then i.argOk i.wide else true
  runs := fun i =>
    let w := if i.wide then 2 else 1
    if i.op = 0 then (i.srca.toNat, w) :: i.bRun w
    else if i.op = 1 then [(i.dst.toNat, w), (i.srca.toNat, w)] ++ i.bRun w else []
  always := false
  writes := fun i => if i.op = 1 then [(i.dst.toNat, if i.wide then 2 else 1)] else []
  flagsIn := fun i => if i.op = 1 then [bits i.srcc.toNat 2 0]
    else if i.op = 2 then [bits i.srca.toNat 2 0, bits i.srcb.toNat 2 0] else []
  flagsOut := fun i => if i.op = 1 then [] else [i.pd.toNat]

/-- CMPF: compare SRCA with operand B, result to flag PD. -/
def execCmpf (i : Issue) (s : State) : Ans :=
  s.withInsn i 2 (· == 0) cmpForm (fun a s =>
    let w := a.i.wide
    match s.bsrc a w with
    | (none, s) => s
    | (some b, s) => s.putAt a (a.writeFlag (fun l =>
        let x := a.g.val w l a.i.srca.toNat
        let y := a.bval b w l
        if a.i.type = 0 then cmpFloat a.i.mod.toNat x y else cmpInt a.i.type.toNat a.i.mod.toNat x y)))

/-- What SEL makes of the selected value: its bits, with SAT and FTZ, which MOD gives the CMP class, applied to an element of a
floating-point type; of an integer or untyped one they name nothing (DEDUCED, log entry 28). -/
def selVal (t : Nat) (fm : FMode) (free : Nat → Nat) (v : Nat) : Nat :=
  if t ≤ 2 ∧ (fm.sat ∨ fm.ftz) then fapply t fm free (fun xs => xs.getD 0 .nan) [v] else v

/-- SEL: A if flag SRCC[2:0] is true, else B. -/
def execSel (i : Issue) (s : State) : Ans :=
  s.withInsn i 2 (· == 1) cmpForm (fun a s =>
    s.arith a true a.i.wide a.i.wide (fun s b l => selVal a.i.type.toNat (modeOf a.i) (s.freeOf l)
      (if a.g.flag (bits a.i.srcc.toNat 2 0) l then a.g.val a.i.wide l a.i.srca.toNat else b l)))

/-- FLOG: PD = flag SRCA[2:0] op flag SRCB[2:0]. -/
def execFlog (i : Issue) (s : State) : Ans :=
  s.withInsn i 2 (· == 2) cmpForm (fun a s =>
    s.putAt a (a.writeFlag (fun l => flagLogic (bits a.i.mod.toNat 1 0) (a.g.flag (bits a.i.srca.toNat 2 0) l)
      (a.g.flag (bits a.i.srcb.toNat 2 0) l))))

/-! ## CVT (R104, R608) -/

/-- The source type of CVT. -/
def cvtSrc (i : Insn) : Nat := bits i.srcc.toNat 3 0

/-- Whether CVT writes a pair. -/
def cvtPair (i : Insn) : Bool := i.wide || (i.type == 0 && (cvtSrc i == 1 || cvtSrc i == 2))

/-- CVT's form. -/
def cvtForm : Form where
  mayA := true
  mayB := true
  listed := fun op => op == 0
  long := false
  legal := fun i =>
    let p (t : Nat) := t == 1 || t == 2
    let n (t : Nat) := 3 ≤ t
    cvtSrc i < 8 && !(p (cvtSrc i) && n i.type.toNat) && !(n (cvtSrc i) && p i.type.toNat)
  runs := fun i => [(i.dst.toNat, if cvtPair i then 2 else 1), (i.srca.toNat, if typeBits (cvtSrc i) = 64 then 2 else 1)]
    ++ (if cvtSrc i = 0 ∧ (i.type = 1 ∨ i.type = 2) then i.bRun 1 else [])
  always := false
  writes := fun i => [(i.dst.toNat, if cvtPair i then 2 else 1)]

/-- CVT. -/
def execCvt (i : Issue) (s : State) : Ans :=
  s.withInsn i 3 (· == 0) cvtForm (fun a s =>
    let src := cvtSrc a.i
    let useB := src = 0 ∧ (a.i.type = 1 ∨ a.i.type = 2)
    s.arith a useB false (cvtPair a.i) (fun s b l =>
      cvtVal src a.i.type.toNat (modeOf a.i) (s.freeOf l) (a.g.val (typeBits src == 64) l a.i.srca.toNat) (b l)))

/-! ## SFU (R58, R103) -/

/-- SFU's form: port A; RND only for SQRT. -/
def sfuForm : Form where
  mayA := true
  mayB := false
  listed := fun op => op ≤ 6
  long := false
  legal := fun i => i.type.toNat ≤ 2 && (i.op == 2 || bits i.mod.toNat 1 0 == 0)
  runs := fun i => [(i.dst.toNat, 1), (i.srca.toNat, 1)]
  always := false

/-- An SFU instruction other than SQRT. -/
def State.sfu (s : State) (x : Issue) (op : Nat) : Ans :=
  s.withInsn x 4 (· == op) sfuForm (fun a s =>
    s.arith a false false false (fun s _ l =>
      let (eb, mb) := typeFmt a.i.type.toNat
      packed a.i.type.toNat (fun h ws => sfuElem eb mb op (modeOf a.i) (s.freeOf l h) (ws.getD 0 0)) [a.g.reg l a.i.srca.toNat]))

/-- RCP (R58). -/
def execRcp (i : Issue) (s : State) : Ans := s.sfu i 0
/-- RSQ (R58). -/
def execRsq (i : Issue) (s : State) : Ans := s.sfu i 1
/-- SQRT (R58): correctly rounded. -/
def execSqrt (i : Issue) (s : State) : Ans :=
  s.withInsn i 4 (· == 2) sfuForm (fun a s =>
    s.arith a false false false (fun s _ l =>
      fapply a.i.type.toNat (modeOf a.i) (s.freeOf l) (fun xs => (xs.getD 0 .nan).sqrt) [a.g.reg l a.i.srca.toNat]))
/-- EX2 (R58). -/
def execEx2 (i : Issue) (s : State) : Ans := s.sfu i 3
/-- LG2 (R58). -/
def execLg2 (i : Issue) (s : State) : Ans := s.sfu i 4
/-- SIN (R58). -/
def execSin (i : Issue) (s : State) : Ans := s.sfu i 5
/-- COS (R58). -/
def execCos (i : Issue) (s : State) : Ans := s.sfu i 6

/-! ## Cross-lane (R71, R103) -/

/-- The form of PERM, TALLY and FOLD. A MOD that R71 does not list is no instruction (DESIGN CHOICE, log entry 29). -/
def xlnForm (tally : Bool) : Form where
  mayA := false
  mayB := true
  listed := fun op => op ≤ 2
  long := false
  legal := fun i =>
    let p := i.type == 1 || i.type == 2
    if i.op = 0 then !p && i.mod.toNat ≤ 3 && i.argOk i.wide
    else if i.op = 1 then !p && i.mod.toNat ≤ 2
    else i.mod.toNat ≤ 5 && !(p && i.mod ≠ 0)
  runs := fun i =>
    let w := if i.wide then 2 else 1
    if i.op = 0 then [(i.dst.toNat, w), (i.srca.toNat, w)] ++ i.bRun w
    else if i.op = 1 then (if i.mod = 2 then [(i.dst.toNat, 1)] else [])
    else [(i.dst.toNat, w), (i.srca.toNat, w)]
  always := tally
  writes := fun i => if i.op = 1 then (if i.mod = 2 then [(i.dst.toNat, 1)] else []) else [(i.dst.toNat, if i.wide then 2 else 1)]
  flagsOut := fun i => if i.op = 1 && i.mod ≠ 2 then [i.pd.toNat] else []

/-- The lane PERM's MOD selects. -/
def permLane (mod l b : Nat) : Int := match mod with
  | 0 => b | 1 => (l : Int) - b | 2 => l + b | _ => Nat.xor l b

/-- PERM. -/
def execPerm (i : Issue) (s : State) : Ans :=
  s.withInsn i 5 (· == 0) (xlnForm false) (fun a s =>
    let w := a.i.wide
    s.arith a true w w (fun _ b l =>
      -- b is the lane number or distance, as an unsigned value of the operand's width, or the signed immediate
      let d : Int := if a.i.bsel = 1 then signed (if w then 64 else 32) (b l) else b l
      let k : Int := if a.i.mod = 0 then d else if a.i.mod = 1 then (l : Int) - d else if a.i.mod = 2 then l + d
        else permLane 3 l (b l)
      if 0 ≤ k ∧ k < 32 ∧ a.g.lanes.contains k.toNat then a.g.val w k.toNat a.i.srca.toNat
      else a.g.val w l a.i.srca.toNat))

/-- TALLY: the guard is its operand. -/
def execTally (i : Issue) (s : State) : Ans :=
  s.withInsn i 5 (· == 1) (xlnForm true) (fun a s =>
    let run := a.g.run a.i
    let g := if a.i.mod = 2 then
        a.g.lanes.foldl (fun g l => g.setReg l a.i.dst.toNat (maskOf run).toNat) a.g
      else
        let v := if a.i.mod = 0 then run.length == a.g.lanes.length else !run.isEmpty
        a.g.lanes.foldl (fun g l => g.setFlag a.i.pd.toNat l v) a.g
    s.putAt a g)

/-- One combination step of FOLD: a floating add rounds each partial sum to nearest even. -/
def foldStep (mod t x y : Nat) : Nat :=
  let fm : FMode := ⟨.rne, false, false⟩
  match mod with
  | 0 => if t ≤ 2 then fapply t fm (fun _ => 0) (faluOp 0 .rne) [x, y] else ialuVal 0 t x y 0
  | 1 => if t ≤ 2 then fapply t fm (fun _ => 0) (faluOp 4 .rne) [x, y] else if typeVal t y < typeVal t x then y else x
  | 2 => if t ≤ 2 then fapply t fm (fun _ => 0) (faluOp 5 .rne) [x, y] else if typeVal t x < typeVal t y then y else x
  | 3 => Nat.land x y
  | 4 => Nat.lor x y
  | _ => Nat.xor x y

/-- What FOLD starts from: the first lane's value, a NaN as the canonical one where the result is a floating-point one (R58). -/
def foldStart (mod t x : Nat) : Nat :=
  if t ≤ 2 ∧ mod ≤ 2 then fapply t ⟨.rne, false, false⟩ (fun _ => 0) (fun xs => xs.getD 0 .nan) [x] else x

/-- FOLD over the running lanes in ascending order. -/
def execFold (i : Issue) (s : State) : Ans :=
  s.withInsn i 5 (· == 2) (xlnForm false) (fun a s =>
    let w := a.i.wide
    match (a.g.run a.i).map (fun l => a.g.val w l a.i.srca.toNat) with
    | [] => s
    | v :: vs => s.putAt a (a.write w (fun _ =>
        vs.foldl (foldStep a.i.mod.toNat a.i.type.toNat) (foldStart a.i.mod.toNat a.i.type.toNat v))))

/-! ## MOVS (R46) -/

/-- The form of SPEC instructions. -/
def specForm : Form where
  mayA := false
  mayB := true
  listed := fun op => op ≤ 2
  long := true
  legal := fun i => i.op ≠ 0 || i.imm.toNat ≤ 0x11
  runs := fun i => if i.op = 0 then [(i.dst.toNat, 1)] else [(i.dst.toNat, 2), (i.srca.toNat, 2)]
  always := false
  writes := fun i => [(i.dst.toNat, if i.op = 0 then 1 else 2)]
  flagsOut := fun i => if i.op = 0 then [] else [i.pd.toNat]

/-- The value of a special register in a lane (the table of R46). -/
def specialVal (a : At) (time : Nat) (hi : Nat) (idx l : Nat) : Nat :=
  let k := a.b.kernel
  let t := a.g.num * 32 + l
  match idx with
  | 0x00 => l
  | 0x01 => t % k.dx
  | 0x02 => t / k.dx % k.dy
  | 0x03 => t / k.dx / k.dy
  | 0x04 => a.g.num
  | 0x05 => a.b.index % k.gx
  | 0x06 => a.b.index / k.gx % k.gy
  | 0x07 => a.b.index / k.gx / k.gy
  | 0x08 => k.dx
  | 0x09 => k.dy
  | 0x0A => k.dz
  | 0x0B => a.core
  | 0x0C => a.core / 4
  | 0x0D => a.slot
  | 0x0E => time % 2 ^ 32
  | 0x0F => hi
  | 0x10 => a.g.active.toNat
  | _ => a.b.ctx

/-- MOVS: a read of SR_TIME_LO captures SR_TIME_HI, which the next read of SR_TIME_HI takes (R10). -/
def execMovs (i : Issue) (s : State) : Ans :=
  s.withInsn i 13 (· == 0) specForm (fun a s =>
    let idx := a.i.imm.toNat
    let hi := match a.g.timeHi with
      | some v => v.toNat
      | none => s.time / 2 ^ 32 % 2 ^ 32
    let g := a.write false (fun l => specialVal a s.time hi idx l)
    let g := if idx = 0x0E then { g with timeHi := some (BitVec.ofNat 32 (s.time / 2 ^ 32)) }
      else if idx = 0x0F then { g with timeHi := none } else g
    s.putAt a g)

/-! ## Pointer conversion (R89) -/

/-- The conversion of one address: the result, and whether the lane is in the window or null. -/
def pcvVal (k : Kernel) (h2d : Bool) (v : Nat) : Option Nat :=
  let src := if h2d then k.hostBase else k.devBase
  let dst := if h2d then k.devBase else k.hostBase
  if v = 0 then some 0
  else if src ≤ v ∧ v < src + k.winGiB * 2 ^ 30 then some ((v - src + dst) % 2 ^ 64)
  else none

/-- PCV in either direction. -/
def State.pcv (s : State) (x : Issue) (op : Nat) : Ans :=
  s.withInsn x 13 (· == op) specForm (fun a s =>
    let conv (l : Nat) := pcvVal a.b.kernel (op == 1) (a.g.val true l a.i.srca.toNat)
    match (if bit a.i.mod.toNat 0 then (a.g.run a.i).find? (fun l => (conv l).isNone) else none) with
    | some l => s.exc a 0x010A l (a.g.val true l a.i.srca.toNat)
    | none =>
      let g := a.write true (fun l => (conv l).getD 0)
      s.putAt a ((a.g.run a.i).foldl (fun g l => g.setFlag a.i.pd.toNat l (conv l).isSome) g))

/-- PCV_H2D (R89). -/
def execPcvH2d (i : Issue) (s : State) : Ans := s.pcv i 1
/-- PCV_D2H (R89). -/
def execPcvD2h (i : Issue) (s : State) : Ans := s.pcv i 2

end Sys2Proof.Machine
end

