-- ==== Sys2Proof/Machine/Anvil.lean ====
section
/-! DEFINITION. The Anvil matrix unit (chapter 3): MMA on the native shapes, MMA.X with weight expansion, MMA.P in legacy pairing,
fused output conversion OCVT and UNPK. -/

namespace Sys2Proof.Machine

/-! ## Fields (R106) -/

/-- AFMT or IFMT, and BFMT or OFMT. -/
def aFmt (i : Insn) : Nat := bits i.ext.toNat 3 0
def bFmt (i : Insn) : Nat := bits i.ext.toNat 7 4

/-- CZ of IMM[0]. -/
def mmaCz (i : Insn) : Bool := bit i.imm.toNat 0

/-- Length in registers of a packed run of `e` elements of a format (R114). -/
def packedRun (e f : Nat) : Nat := max 1 (ceilDiv (e * fmtBits f) 32)

/-- K of a native shape by format combination and accumulator (R107); none where not listed. -/
def mmaShape (fa fb t : Nat) : Option Nat :=
  if fa = 0 ∧ fb = 0 ∧ t = 0 then some 8
  else if fa = fb ∧ (fa = 1 ∨ fa = 2) ∧ t = 0 then some 16
  else if (fa = 3 ∨ fa = 4) ∧ (fb = 3 ∨ fb = 4) ∧ t = 0 then some 32
  else if (fa = 6 ∨ fa = 7) ∧ (fb = 6 ∨ fb = 7) ∧ t = 3 then some 32
  else if fa = 5 ∧ fb = 5 ∧ t = 0 then some 64
  else if fa = 8 ∧ fb = 8 ∧ t = 3 then some 64
  else none

/-- XTGT's format: 0 E4M3, 1 E5M2, 2 FP16. -/
def xTgt (i : Insn) : Nat := match bits i.mod.toNat 1 0 with
  | 0 => 3 | 1 => 4 | _ => 1

/-- XMODE and XOP. -/
def xMode (i : Insn) : Bool := bit i.mod.toNat 2
def xOp (i : Insn) : Bool := bit i.mod.toNat 3

/-- The narrow operand's format and the other's. -/
def xNarrow (i : Insn) : Nat := if xOp i then aFmt i else bFmt i
def xWide (i : Insn) : Nat := if xOp i then bFmt i else aFmt i

/-- Elements per lane of the expansion target's native layout (R114). -/
def xElems (i : Insn) : Nat := if xTgt i = 1 then 8 else 16

/-- The C run: eight registers, or none with CZ (R110). -/
def cRun (i : Insn) : List (Nat × Nat) := if mmaCz i then [] else [(i.srcc.toNat, 8)]

/-- The form of the MMA class (R105 to R110). -/
def mmaForm : Form where
  mayA := true
  mayB := false
  listed := fun op => op ≤ 4
  long := true
  legal := fun i =>
    let m := i.mod.toNat
    let fixed := i.pd = 7 ∧ i.bsel = 0
    let cOk := i.imm.toNat ≤ 1 ∧ (!mmaCz i ∨ i.srcc = 0)
    decide fixed && match i.op.toNat with
    | 0 => decide (cOk ∧ i.srcd = 0 ∧ m ≤ 1 ∧ (m = 0 ∨ i.type = 3)) && (mmaShape (aFmt i) (bFmt i) i.type.toNat).isSome
    | 1 => decide (cOk ∧ i.type = 0 ∧ m % 4 ≠ 3 ∧ (xNarrow i = 8 ∨ xNarrow i = 9)
        ∧ (if xTgt i = 1 then xWide i = 1 else xWide i = 3 ∨ xWide i = 4))
    | 2 => decide (cOk ∧ i.srcd = 0 ∧ m = 0 ∧ i.type = 0 ∧ aFmt i ≤ 9 ∧ bFmt i ≤ 9)
    | 3 => decide (i.srcc = 0 ∧ m % 4 ≠ 3 ∧ (i.type = 0 ∨ i.type = 3) ∧ bits i.ext.toNat 3 2 = 0 ∧ bFmt i ≤ 9 ∧ i.imm = 0)
    | _ => decide (i.srcb = 0 ∧ i.srcc = 0 ∧ i.srcd = 0 ∧ m = 0 ∧ i.type = 0 ∧ aFmt i ≤ 9 ∧ bFmt i = 0 ∧ i.imm = 0)
  runs := fun i => match i.op.toNat with
    | 0 => [(i.dst.toNat, 8), (i.srca.toNat, 4), (i.srcb.toNat, 4)] ++ cRun i
    | 1 =>
      let n := packedRun (xElems i) (xNarrow i)
      [(i.dst.toNat, 8), (i.srca.toNat, if xOp i then n else 4), (i.srcb.toNat, if xOp i then 4 else n),
       (i.srcd.toNat, if xMode i then 4 else 1)] ++ cRun i
    | 2 => [(i.dst.toNat, 8), (i.srca.toNat, packedRun 8 (aFmt i)), (i.srcb.toNat, packedRun 8 (bFmt i))] ++ cRun i
    | 3 => [(i.dst.toNat, packedRun 8 (bFmt i)), (i.srca.toNat, 8), (i.srcb.toNat, 1), (i.srcd.toNat, 1)]
    | _ => [(i.dst.toNat, 8), (i.srca.toNat, packedRun 8 (aFmt i))]
  always := false
  writes := fun i => [(i.dst.toNat, if i.op = 3 then packedRun 8 (bFmt i) else 8)]

/-! ## Fragments (R112 to R114) -/

/-- Element `e` of width `w` of the sequence that starts at register `r` of a lane (R99). -/
def Group.elem (g : Group) (lane r w e : Nat) : Nat := g.reg lane (r + w * e / 32) / 2 ^ (w * e % 32) % 2 ^ w

/-- The lane and element that hold (row or column `m`, index `k`) in the native layout of element width `w` (R112): the lane,
and the element's number in the lane's run. -/
def nativeAt (w m k : Nat) : Nat × Nat :=
  let per := 32 / w
  let q := k / per
  (m % 8 * 4 + q / 2, (m / 8 * 2 + q % 2) * per + k % per)

/-- The lane and register offset of C or D element (m, n) (R113). -/
def accAt (m n : Nat) : Nat × Nat := (m % 8 * 4 + n / 4, m / 8 * 4 + n % 4)

/-- Store D: element (m, n) to its lane and register. -/
def storeD (g : Group) (dst : Nat) (d : Nat → Nat → Nat) : Group :=
  (List.range 16).foldl (fun g m => (List.range 16).foldl (fun g n =>
    let (l, j) := accAt m n
    g.setReg l (dst + j) (d m n)) g) g

/-! ## Accumulation (R115 to R117) -/

/-- The exact sum of finite values and a first one; zero is −0 only when all are −0. -/
def exactSum (vs : List FVal) : FVal :=
  let allNeg := vs.all (fun v => v.isZero && v.isNeg)
  vs.foldl (fun (acc v : FVal) => acc.plus .rne v) (.fin allNeg 0 0)

/-- The groups of R115 one after the other: each sum with the accumulator is rounded once. -/
def accGroups (gsz : Nat) : Nat → Nat → List FVal → Nat
  | 0, acc, _ => acc
  | n + 1, acc, ps =>
    if ps.isEmpty then acc
    else accGroups gsz n (fenc .rne 8 23 (exactSum (f32 acc :: ps.take gsz))) (ps.drop gsz)

/-- One output element in F32 (R115, R116): a NaN, an infinity among the products and c, and only then groups of `gsz` products. -/
def accF32 (gsz : Nat) (c : Nat) (prods : List FVal) : Nat :=
  let all := f32 c :: prods
  if all.any (· = .nan) || (all.any (· = .inf false) && all.any (· = .inf true)) then 0x7FC00000
  else if all.any (· = .inf false) then 0x7F800000
  else if all.any (· = .inf true) then 0xFF800000
  else accGroups gsz 64 c prods

/-- An MMA over element functions a (m, k) and b (k, n), with c. -/
def mmaF32 (k gsz : Nat) (fa fb : Nat → Nat → FVal) (c : Nat → Nat → Nat) (m n : Nat) : Nat :=
  accF32 gsz (c m n) ((List.range k).map (fun i => (fa m i).times (fb i n)))

/-- The value of an integer format's code. -/
def fmtIntVal (f w : Nat) : Int := match fmtDecode f w with
  | .fin neg n _ => if neg then -(n : Int) else n
  | _ => 0

/-- One S32 output element (R117). -/
def accS32 (sat : Bool) (c : Nat) (prods : List Int) : Nat :=
  let d := signed 32 c + prods.sum
  wrapInt 32 (if sat then max (-(2 ^ 31 : Nat)) (min ((2 ^ 31 : Nat) - 1) d) else d)

/-- C of an MMA: the register's word, or with CZ −0 for F32 and 0 for S32 (R106). -/
def mmaC (a : At) (m n : Nat) : Nat :=
  if mmaCz a.i then (if a.i.type = 0 then 0x80000000 else 0)
  else let (l, j) := accAt m n; a.g.reg l (a.i.srcc.toNat + j)

/-- MMA and its kinds combine all 32 lanes: an inactive or guarded-off lane raises MMA_LANES (R109). -/
def State.mmaRun (s : State) (a : At) (k : At → State → State) : State :=
  match (List.range 32).find? (fun l => !(a.g.run a.i).contains l) with
  | some _ => s.exc a 0x010E ((a.g.run a.i).headD 0) 0
  | none => k a s

/-- Count the MACs of one instruction of the array, and the cycles it adds to those in which the array held one (R132). -/
def State.macs (s : State) (core n : Nat) : State :=
  (s.count64 (Reg.CLU_ANV_MAC_LO (core / 4) (core % 4)) n).countCycles (Reg.CLU_ANV_BUSY_LO (core / 4) (core % 4))

/-- Whether the conversion counters count a context's instructions (R132). -/
def State.anvCounts (s : State) (a : At) : Bool :=
  s.flag (Reg.CLU_ANV_CTRL (a.core / 4)) 5 || s.fld (Reg.CLU_ANV_CTRL (a.core / 4)) 4 0 == a.b.ctx

/-- Add to CLU_ANVn_SAT and CLU_ANVn_NAN. -/
def State.anvCount (s : State) (a : At) (sat nan : Nat) : State :=
  if s.anvCounts a then
    (s.countSat (Reg.CLU_ANV_SAT (a.core / 4) (a.core % 4)) 31 0 sat).countSat (Reg.CLU_ANV_NAN (a.core / 4) (a.core % 4)) 31 0 nan
  else s

/-- MMA (R107, R112 to R117). -/
def execMma (i : Issue) (s : State) : Ans :=
  s.withInsn i 6 (· == 0) mmaForm (fun a s => s.mmaRun a (fun a s =>
    let fa := aFmt a.i
    let fb := bFmt a.i
    let k := (mmaShape fa fb a.i.type.toNat).getD 16
    let ra (m j : Nat) : Nat := let (l, e) := nativeAt (fmtBits fa) m j; a.g.elem l a.i.srca.toNat (fmtBits fa) e
    let rb (j n : Nat) : Nat := let (l, e) := nativeAt (fmtBits fb) n j; a.g.elem l a.i.srcb.toNat (fmtBits fb) e
    let d (m n : Nat) : Nat :=
      if a.i.type = 3 then
        accS32 (bit a.i.mod.toNat 0) (mmaC a m n) ((List.range k).map (fun j => fmtIntVal fa (ra m j) * fmtIntVal fb (rb j n)))
      else mmaF32 k (if k = 8 then 8 else 16) (fun m j => fmtDecode fa (ra m j)) (fun j n => fmtDecode fb (rb j n)) (mmaC a) m n
    (s.putAt a (storeD a.g a.i.dst.toNat d)).macs a.core (256 * k)))

/-! ## Weight expansion (R119 to R123) -/

/-- One expanded element: its code in the target, and whether it saturated and whether it is NaN. -/
def expand (tgt : Nat) (x : FVal) (bad : Bool) : Nat × Bool × Bool :=
  if bad || x = .nan then ((toFmt tgt .rne true .nan).1, false, true)
  else let (c, sat) := toFmt tgt .rne true x; (c, sat, false)

/-- Expand code `q` of channel `h` (R119 to R121). -/
def xExpand (a : At) (h q : Nat) : Nat × Bool × Bool :=
  let i := a.i
  let w := fmtBits (xNarrow i)
  if xMode i then
    let u := q % 2 ^ w
    let r := a.g.reg (2 * h + u / 8) (i.srcd.toNat + u % 8 / 2)
    expand (xTgt i) (fdecode 5 10 (if u % 2 = 0 then r % 65536 else r / 65536)) false
  else
    let r := a.g.reg h i.srcd.toNat
    let sc := fdecode 5 10 (r % 65536)
    let z := fdecode 5 10 (r / 65536)
    match sc, z with
    | .fin .., .fin .. => expand (xTgt i) (sc.times ((FVal.ofInt (signed w q)).plus .rne z.negate)) false
    | _, _ => expand (xTgt i) .nan true

/-- MMA_X (R119 to R123). -/
def execMmaX (i : Issue) (s : State) : Ans :=
  s.withInsn i 6 (· == 1) mmaForm (fun a s => s.mmaRun a (fun a s =>
    let i := a.i
    let t := xTgt i
    let tw := fmtBits t
    let k := if t = 1 then 16 else 32
    let nw := fmtBits (xNarrow i)
    let base := if xOp i then i.srca.toNat else i.srcb.toNat
    -- the narrow operand's element (channel h, index j) lies where the target's native layout has it
    let narrow (h j : Nat) : Nat × Bool × Bool :=
      let (l, e) := nativeAt tw h j
      xExpand a h (a.g.elem l base nw e)
    let wideF := xWide i
    let wbase := if xOp i then i.srcb.toNat else i.srca.toNat
    let wide (h j : Nat) : FVal :=
      let (l, e) := nativeAt (fmtBits wideF) h j
      fmtDecode wideF (a.g.elem l wbase (fmtBits wideF) e)
    let nv (h j : Nat) : FVal := fmtDecode t (narrow h j).1
    let fa (m j : Nat) : FVal := if xOp i then nv m j else wide m j
    let fb (j n : Nat) : FVal := if xOp i then wide n j else nv n j
    let all := (List.range 16).flatMap (fun h => (List.range k).map (fun j => narrow h j))
    let s := s.anvCount a (all.filter (fun x => x.2.1)).length (all.filter (fun x => x.2.2)).length
    (s.putAt a (storeD a.g i.dst.toNat (mmaF32 k 16 fa fb (mmaC a)))).macs a.core (256 * k)))

/-! ## Legacy pairing (R124, R125) -/

/-- A code decoded to E8M13 (R124). -/
def e8m13 (f w : Nat) : FVal :=
  if f = 0 then
    match f32 w with
    | .fin neg n e =>
      if bits w 30 23 = 0 then .fin neg 0 0
      else
        let q := rneDiv n (2 ^ 10)
        if bits w 30 23 = 254 ∧ q = 2 ^ 14 then .inf neg else .fin neg q (e + 10)
    | v => v
  else if f = 2 ∧ bits w 14 7 = 0 then .fin (bit w 15) 0 0
  else fmtDecode f w

/-- MMA_P (R124, R125): packed runs in the native FP16 layout of the K16 shape. -/
def execMmaP (i : Issue) (s : State) : Ans :=
  s.withInsn i 6 (· == 2) mmaForm (fun a s => s.mmaRun a (fun a s =>
    let get (f base h j : Nat) : FVal :=
      let (l, e) := nativeAt 16 h j
      e8m13 f (a.g.elem l base (fmtBits f) e)
    let fa (m j : Nat) := get (aFmt a.i) a.i.srca.toNat m j
    let fb (j n : Nat) := get (bFmt a.i) a.i.srcb.toNat n j
    (s.putAt a (storeD a.g a.i.dst.toNat (mmaF32 16 16 fa fb (mmaC a)))).macs a.core 4096))

/-! ## Output conversion (R126 to R129) -/

/-- The 16-bit number of stochastic rounding at (m, n) under a key (R128). -/
def stochastic (key m n : Nat) : Nat :=
  let w (x : Nat) : Nat := x % 2 ^ 32
  let u := w (key + 0x9E3779B9 * (16 * m + n + 1))
  let u := Nat.xor u (u / 2 ^ 16)
  let u := w (u * 0x85EBCA6B)
  let u := Nat.xor u (u / 2 ^ 13)
  let u := w (u * 0xC2B2AE35)
  let u := Nat.xor u (u / 2 ^ 16)
  u / 2 ^ 16

/-- One converted element of OCVT: its code, and whether it saturated and whether t was NaN (R126, R127). -/
def ocvtElem (a : At) (l e : Nat) : Nat × Bool × Bool :=
  let i := a.i
  let g := a.g
  let m := l / 4 + 8 * (e / 4)
  let n := 4 * (l % 4) + e % 4
  let h := if !bit i.mod.toNat 3 then 0 else if bit i.ext.toNat 0 then m else n
  let src := g.reg l (i.srca.toNat + e)
  let x := if i.type = 3 then FVal.ofInt (signed 32 src) else f32 src
  let sc := f32 (g.reg (2 * h) i.srcb.toNat)
  let b := f32 (g.reg (2 * h + 1) i.srcb.toNat)
  let t := f32 (fenc .rne 8 23 ((x.times sc).plus .rne b))
  let lo := f32 (g.reg 0 i.srcd.toNat)
  let hi := f32 (g.reg 1 i.srcd.toNat)
  let t := if bit i.ext.toNat 1 then t else (t.minmax true lo).minmax false hi
  let rnd := match bits i.mod.toNat 1 0 with
    | 0 => Rnd.rne
    | 1 => .rtz
    | _ => .sto (stochastic (g.reg 2 i.srcd.toNat) m n)
  let (c, sat) := toFmt (bFmt i) rnd (bit i.mod.toNat 2) t
  (c, sat, t = .nan)

/-- Write a packed run of elements to DST of a lane; unused high bits are 0 (R114). -/
def packRun (g : Group) (lane dst w : Nat) (es : List Nat) : Group :=
  let v := es.foldr (fun e acc => e % 2 ^ w + acc * 2 ^ w) 0
  (List.range (max 1 (ceilDiv (es.length * w) 32))).foldl (fun g j => g.setReg lane (dst + j) (v / 2 ^ (32 * j))) g

/-- OCVT (R126 to R128). -/
def execOcvt (i : Issue) (s : State) : Ans :=
  s.withInsn i 6 (· == 3) mmaForm (fun a s =>
    let rs := (a.g.run a.i).map (fun l => (l, (List.range 8).map (fun e => ocvtElem a l e)))
    let g := rs.foldl (fun g (l, es) => packRun g l a.i.dst.toNat (fmtBits (bFmt a.i)) (es.map (fun e => e.1))) a.g
    let all := rs.flatMap (fun r => r.2)
    (s.putAt a g).anvCount a (all.filter (fun e => e.2.1)).length (all.filter (fun e => e.2.2)).length)

/-- UNPK (R129). -/
def execUnpk (i : Issue) (s : State) : Ans :=
  s.withInsn i 6 (· == 4) mmaForm (fun a s =>
    let f := aFmt a.i
    let g := (a.g.run a.i).foldl (fun g l => (List.range 8).foldl (fun g e =>
      let w := a.g.elem l a.i.srca.toNat (fmtBits f) e
      g.setReg l (a.i.dst.toNat + e) (if f = 0 then w else fenc .rne 8 23 (fmtDecode f w))) g) a.g
    s.putAt a g)

end Sys2Proof.Machine
end

