-- ==== Sys2Proof/Machine/Rails.lean ====
section
/-! DEFINITION. What the Bellows does with rails: PMBus requests and their acknowledgement (R535 to R537), and the operating point
(R22, R546); the check of a power request (R527, R528). -/

namespace Sys2Proof.Machine

/-- Send the first request if it is not sent. -/
def State.railSend (s : State) : State :=
  match s.pwr.reqs with
  | r :: t => match r.sent with
    | none => { s.emit (.pmbus r.rail r.mv) with pwr := { s.pwr with reqs := { r with sent := some s.time } :: t } }
    | some _ => s
  | [] => s

/-- Queue a request; each starts when the one before it has been acknowledged (R535). -/
def State.railAsk (s : State) (rail mv : Nat) (why : RailWhy) : State :=
  let r : RailReq := ⟨rail, mv, why, none, false⟩
  { s with pwr := { s.pwr with reqs := s.pwr.reqs ++ [r] } }.railSend

/-- The shader rail's voltage at an operating point in mV (R22). -/
def sopMv (p : Nat) : Nat := 500 + 50 * p

/-- The rail of ROLE 1, if the table has one. -/
def State.shaderRail (s : State) : Option Rail := s.pwr.rails.find? (fun r => r.role == 1)

/-- Move to the lowest of the caps (R546): down SCLK first, then the rail; up the rail first, then SCLK. -/
def State.sopUpdate (s : State) : State :=
  let cap := min s.pwr.powerCap s.pwr.thermCap
  let s := s.setFld Reg.PWR_STATUS 23 22 cap
  let tgt := if s.flag Reg.DMC_TEMP 16 then min cap 1 else cap
  let cur := s.fld Reg.PWR_STATUS 21 20
  match s.shaderRail with
  | none => s.setFld Reg.PWR_STATUS 21 20 tgt
  | some r =>
    let last := (s.pwr.reqs.filter (fun x => x.rail == r.n)).getLast?
    let goal := match last with
      | some x => x.mv
      | none => r.mv
    let s := if tgt < cur then s.setFld Reg.PWR_STATUS 21 20 tgt else s
    if goal ≠ sopMv tgt then s.railAsk r.n (sopMv tgt) .sop
    else if cur < tgt ∧ last.isNone then s.setFld Reg.PWR_STATUS 21 20 tgt
    else s

/-- Whether a poll acknowledges a request (R537). -/
def railAck (mv word got : Nat) : Bool :=
  if mv = 0 then bit word 6
  else !bit word 11 && bits word 7 4 == 0 && decide (98 * mv ≤ 100 * got) && decide (100 * got ≤ 102 * mv)

/-- ACK_MS in ticks (R551). -/
def State.ackTicks (s : State) : Nat := us (1000 * s.param 0x0119 10)

/-- How a poll of the outstanding request ends: acknowledged, to be polled again, or failed. -/
inductive PollEnd where
  | acked (r : RailReq)
  | wait
  | failed (r : RailReq)
  deriving DecidableEq, Repr

/-- One poll (R537): an acknowledged request leaves and the next starts; a request unanswered for ACK_MS is repeated once. -/
def State.railPoll (s : State) (word mv : Nat) (busOk : Bool) : PollEnd × State :=
  match s.pwr.reqs with
  | [] => (.wait, s)
  | r :: t =>
    if busOk && railAck r.mv word mv then
      let s := { s with pwr := { s.pwr with
        reqs := t, rails := s.pwr.rails.map (fun (x : Rail) => if x.n = r.rail then { x with mv := r.mv } else x) } }
      (.acked r, s.railSend)
    else match r.sent with
      | none => (.wait, s)
      | some t0 =>
        if s.time < t0 + s.ackTicks then (.wait, s)
        else if r.repeated then (.failed r, { s with pwr := { s.pwr with reqs := t } })
        else (.wait, { s.emit (.pmbus r.rail r.mv) with pwr := { s.pwr with
          reqs := { r with sent := some s.time, repeated := true } :: t } })

/-! ## The check of a request (R527, R528) -/

/-- PWR_STATUS.PHASE. -/
def State.setPhase (s : State) (p : Nat) : State := s.setFld Reg.PWR_STATUS 4 2 p

/-- The lowest unit of those listed that fails. -/
def firstFail (l : List (Nat × Bool)) : Option Nat := (l.find? (fun x => x.2)).map (fun x => x.1)

/-- The first failing code of a request and its refuser (R528). -/
def State.pwrCode (s : State) (target : Nat) : Option (Nat × Nat) :=
  let q (code : Nat) (l : List (Nat × Bool)) : Option (Nat × Nat) := (firstFail l).map (fun u => (code, u))
  let work := s.queues.any (fun p => p.2.units.any (fun w => w.started.isSome)) || s.clusters.any (fun p => !p.2.saved.isEmpty)
  let others := (List.range 32).any (fun c => s.fld (Reg.CPR_CTX_STATUS c) 1 0 ≠ 0 && !s.flag Reg.GLB_FWCTX c)
  (q 0x70 [(0x01, (target != 2 && target != 3) || 2 ≤ s.fld Reg.PWR_STATUS 1 0)]).or <|
  (q 0x71 [(0x01, s.pwr.entry.isSome || s.pwr.exit.isSome || s.pwr.pend.isSome)]).or <|
  (q 0x72 [(0x00, s.flag Reg.PWR_STATUS 18)]).or <|
  (q 0x73 [(0x41, s.flag Reg.PWR_CTRL 1)]).or <|
  (q 0x74 [(0x40, !s.hif.linkL2)]).or <|
  (q 0x75 [(0x05, s.fld Reg.WSK_FF_STATUS 4 2 != 0), (0x30, bit (s.act Reg.DSP_CTRL).toNat 0), (0x32, s.flag Reg.LDM_CTRL 0),
    (0x33, s.flag Reg.DPR_CTRL 0), (0x34, s.flag Reg.DPT_CTRL 0)]).or <|
  (q 0x76 [(0x02, work || (target == 3 && others)), (0x23, s.flag Reg.CPY_STATUS 0)]).or <|
  (q 0x77 [(0x04, s.flag Reg.CFG_FL_STATUS 0), (0x20, !s.l2.queue.isEmpty), (0x21, s.fld Reg.DMC_STATUS 1 0 != 0),
    (0x22, !s.mmu.inval.isEmpty || !s.mmu.pinval.isEmpty)]).or <|
  q 0x78 [(0x04, !s.booted)]

/-- A refusal (R528): REASON, REFUSED, PWR_REFUSE. -/
def State.pwrRefuse (s : State) (code unit : Nat) : State :=
  let s := (s.setFld Reg.PWR_STATUS 15 8 code).setFlag Reg.PWR_STATUS 5
  ((s.countSat Reg.PWR_REFUSE 15 0 1).setFld Reg.PWR_REFUSE 23 16 unit).setFld Reg.PWR_REFUSE 31 24 code

/-- Check a request (R528): refused with its code, or entry begins (R529 step 1), with 0x00 posted; abort point 1 is evaluated when
that step completes. -/
def State.pwrCheck (s : State) (requester target : Nat) : Nat × State :=
  match s.pwrCode target with
  | some (code, unit) => (code, s.pwrRefuse code unit)
  | none =>
    let e : Entry := ⟨target, requester, 0, [], false, none⟩
    (0, { (s.setFld Reg.PWR_STATUS 15 8 0).setPhase 3 with pwr := { s.pwr with entry := some e } })

/-- The pending host request is checked (R527). -/
def State.pwrPending (s : State) : State :=
  match s.pwr.pend with
  | some (target, _) => (({ s with pwr := { s.pwr with pend := none } }.setPhase 0).pwrCheck 0x40 target).2
  | none => s

/-- Requests that waited for a Quench are checked (R568); the I²C port answers then. -/
def State.pwrHeld (s : State) : State :=
  let l := s.pwr.heldReqs
  let s := { s with pwr := { s.pwr with heldReqs := [] } }
  let s := l.foldl (fun s x =>
    let (code, s) := s.pwrCheck x.1 x.2
    if x.1 = 0x42 then
      { s.emit (.i2c (if code = 0 then [0, 0] else [3, BitVec.ofNat 8 code])) with
        hif := { s.hif with i2cAddressed := false, sclHeld := false } }
    else s) s
  if s.hif.linkL2 then s.pwrPending else s

end Sys2Proof.Machine
end

