-- ==== Sys2Proof/Machine/ShaderMem.lean ====
section
/-! DEFINITION. Memory instructions of the cores (R77 to R87): global loads, stores and atomics line by line, shared memory, the
responses of the memory system, fences. -/

namespace Sys2Proof.Machine

/-! ## Operands and checks (R77) -/

/-- Bytes of a GMEM or SMEM access. -/
def memBytes (i : Insn) : Nat := 2 ^ (i.op.toNat % 8)

/-- Registers of an access of `n` bytes. -/
def memRegs (n : Nat) : Nat := max 1 (n / 4)

/-- Consecutive registers of a lane as one number. -/
def Group.many (g : Group) (lane r n : Nat) : Nat := ((List.range n).map (fun j => g.reg lane (r + j) * 2 ^ (32 * j))).sum

/-- Write consecutive registers of a lane. -/
def Group.setMany (g : Group) (lane r n v : Nat) : Group :=
  (List.range n).foldl (fun g j => g.setReg lane (r + j) (v / 2 ^ (32 * j))) g

/-- The global address of a lane before its range check. -/
def At.gaddr (a : At) (l : Nat) : Int := (a.g.val true l a.i.srca.toNat : Int) + a.i.simm

/-- The exception of a lane's global access, if any: code and operand. For a sum outside the 48-bit space the captured operand is the sum
modulo 2^64 (DESIGN CHOICE, log entry 32). -/
def At.globalFault (a : At) (n l : Nat) : Option (Nat × Nat) :=
  let pair := a.g.val true l a.i.srca.toNat
  let ad := a.gaddr l
  if pair / 2 ^ 48 ≠ 0 ∨ ad < 0 ∨ (2 ^ 48 : Nat) ≤ ad then some (0x0104, wrapInt 64 ad)
  else if ad % n ≠ 0 then some (0x0103, ad.toNat)
  else none

/-- The shared offset of a lane before its range check. -/
def At.saddr (a : At) (l : Nat) : Int := (a.g.reg l a.i.srca.toNat : Int) + a.i.simm

/-- The exception of a lane's shared access, if any. -/
def At.sharedFault (a : At) (n l : Nat) : Option (Nat × Nat) :=
  let ad := a.saddr l
  if ad < 0 ∨ (a.b.kernel.shared * 256 : Nat) < ad + n then some (0x0105, wrapInt 32 ad)
  else if ad % n ≠ 0 then some (0x0103, ad.toNat)
  else none

/-- The exception of the lowest-numbered failing lane. -/
def At.firstFault (a : At) (f : Nat → Option (Nat × Nat)) : Option (Nat × Nat × Nat) :=
  (a.g.run a.i).findSome? (fun l => (f l).map (fun (c, x) => (l, c, x)))

/-- Raise the first failing lane's exception, or go on. -/
def State.checked (s : State) (a : At) (f : Nat → Option (Nat × Nat)) (k : State → State) : State :=
  match a.firstFault f with
  | some (l, code, x) => s.exc a code l x
  | none => k s

/-! ## Operations in flight -/

/-- A group on a core with its block. -/
def State.groupAt (s : State) (core slot : Nat) : Option (Group × Block) :=
  match Sparse.find (s.core core).groups slot with
  | none => none
  | some g => (Sparse.find (s.core core).blocks g.block).map (fun b => (g, b))

/-- A memory operation of a group. -/
def Group.op (g : Group) (id : Nat) : Option MemOp := g.ops.find? (fun o => o.id == id)

/-- Change a group. -/
def State.updGroup (s : State) (core slot : Nat) (f : Group → Group) : State :=
  match Sparse.find (s.core core).groups slot with
  | some g => s.putGroup core slot (f g)
  | none => s

/-- Change a memory operation. -/
def State.updOp (s : State) (core slot id : Nat) (f : MemOp → MemOp) : State :=
  s.updGroup core slot (fun g => { g with ops := g.ops.map (fun (o : MemOp) => if o.id = id then f o else o) })

/-- Set where a line of an operation stands. -/
def State.setLine (s : State) (core slot id va : Nat) (st : LineState) : State :=
  s.updOp core slot id (fun o => { o with lines := o.lines.map (fun (l : LineReq) => if l.va = va then { l with st := st } else l) })

/-- The lanes of an operation in a line. -/
def MemOp.inLine (o : MemOp) (va : Nat) : List LaneAcc := o.lanes.filter (fun x => x.addr / 128 * 128 == va)

/-- The bytes of a line that lanes touch, as offsets, ascending. -/
def MemOp.touched (o : MemOp) (va : Nat) : List Nat :=
  ((o.inLine va).foldl (fun m x => (List.range o.width).foldl (fun m i => Sparse.put m (x.addr - va + i) ()) m) []).map (fun p => p.1)

/-- The bytes a store writes in a line; of lanes writing one byte the highest wins (R79). -/
def MemOp.storeBytes (o : MemOp) (va : Nat) : List (Option Byte) :=
  let m := (o.inLine va).foldl (fun (m : List (Nat × Byte)) x =>
    (List.range o.width).foldl (fun m i => Sparse.put m (x.addr - va + i) (BitVec.ofNat 8 (x.val / 2 ^ (8 * i)))) m) []
  (List.range 128).map (fun i => Sparse.find m i)

/-- The access kind of an operation. -/
def MemKind.access : MemKind → AccessKind
  | .load => .read
  | .store => .write
  | .atomic _ _ => .atomic

/-- The issue record of a group's earlier instruction at `pc`, for its exceptions. -/
def atPc (core slot : Nat) (g : Group) (b : Block) (pc : Nat) : At :=
  ⟨core, slot, g, b, pc, ⟨true, false, 7, false, 7, 0, 0, 0, 0, 0, 0, 0, 7, 0, false, 0, 0, 0, 0⟩⟩

/-- An operation stops: the lines in `keep`, performed or requested, stay, the others are not performed, and a load's or atomic's
destination registers become undefined (R78). -/
def State.cutOp (s : State) (core slot id : Nat) (keep : LineReq → Bool) : State :=
  let free (l j : Nat) : Nat := leNat ((List.range 4).map (fun i => Config.freeByte s.draws ((l * 4 + j) * 4 + i)))
  let s := s.updGroup core slot (fun g => match g.op id with
    | none => g
    | some o =>
      let g := if o.kind = .store then g else o.lanes.foldl (fun g (x : LaneAcc) =>
        (List.range (memRegs o.width)).foldl (fun g j => g.setReg x.lane (o.dst + j) (free x.lane j)) g) g
      let kept := o.lines.filter keep
      let o' := { o with lines := kept, lanes := o.lanes.filter (fun x => kept.any (fun l => l.va == x.addr / 128 * 128)) }
      { g with ops := if kept.isEmpty then g.ops.filter (fun y => y.id != id)
                      else g.ops.map (fun (y : MemOp) => if y.id = id then o' else y) })
  { s with draws := s.draws + 1 }

/-- Whether a line has not been performed or requested. -/
def LineReq.waits (l : LineReq) : Bool := match l.st with
  | .walk _ => true
  | _ => false

/-! ## Translation of a core's line (R400, R412, R428, R429) -/

/-- A non-posted request is outstanding on the host link (R435). -/
def State.hostReadTrack (s : State) (unit ctx addr len : Nat) (f : HostReadFor) : State :=
  { s with hif := { s.hif with
    reads := s.hif.reads ++ [⟨s.hif.nextRead, unit, ctx, addr, len, s.time, f, false⟩], nextRead := s.hif.nextRead + 1 } }

/-- Begin a read on the host link (R435), behind every write posted before it (R446). -/
def State.hostReadStart (s : State) (unit ctx addr len : Nat) (noSnoop : Bool) (f : HostReadFor) : State :=
  (s.post (.hostRead addr len noSnoop)).hostReadTrack unit ctx addr len f

/-- Begin a walk for a line, whose first descriptor read is outstanding. -/
def State.walkBegin (s : State) (core c va : Nat) (x : Xlat) (host : Bool) (ia : Nat) (access : AccessKind)
    (level addr : Nat) (cls : OutClass) (out : Nat) (wr ex : Bool) : Nat × State :=
  let id := s.mmu.nextWalk + 1
  let w : Walk := ⟨id, c, x.asid, host, ia, va, access, cluUnit core, .core core, level, out, cls, wr, ex, false⟩
  let s := { s with mmu := { s.mmu with walks := s.mmu.walks ++ [w], nextWalk := id } }
  (id, if cls = .device then s else s.hostReadStart (cluUnit core) c addr 8 false (.walk id))

/-- Look a line's address up: its translation or fault, or the number of the walk it waits for. -/
def State.lookup (s : State) (core c va : Nat) (access : AccessKind) : Option XResult × Nat × State :=
  match s.ctx c with
  | none => (some (.fault ⟨1, 0, 0, 0, false⟩), 0, s)
  | some cx =>
    let x := cx.xlat
    let (host, ia) := x.input va
    match (if host then cx.migrated va else none) with
    | some b =>
      if b.drops access then let (r, s) := s.xlate (.core core) c va access; (some r, 0, s)
      else (some (s.migAnswer cx b va access), 0, s)
    | none =>
      match s.tlbFind (.core core) x.asid host ia with
      | some e => (some (s.tlbAnswer e ia access), 0, s)
      | none =>
        let s := s.count64 Reg.MMU_WALKS_LO 1
        match s.walkStart c x host ia with
        | .fault f => (some (.fault f), 0, s)
        | .done .. => (none, 0, s)
        | .readAt level addr cls out wr ex =>
          let (id, s) := s.walkBegin core c va x host ia access level addr cls out wr ex
          (none, id, s)

/-! ## Performing a line (R78 to R84) -/

/-- A load's device line has been read: the data is fixed, and with policy NEAR the line enters the L1 (R81); poisoned data is none. -/
def State.fixLine (s : State) (core slot : Nat) (b : Block) (o : MemOp) (l : LineReq) (x : Nat) : State :=
  let (bs, p, s) := s.devRead (s.blockClass b) (x / 128 * 128) 128 false
  if p then s.setLine core slot o.id l.va (.poisoned x)
  else
    let s := s.setLine core slot o.id l.va (.arrived .device x (full bs))
    if o.policy = 0 ∧ l.fill then s.l1Put core ⟨.device, x / 128, full bs, false⟩ else s

/-- The data of outstanding loads of a group from a device line is fixed before the group itself changes the line (R85). -/
def State.settle (s : State) (core slot out : Nat) : State :=
  match s.groupAt core slot with
  | none => s
  | some (g, b) =>
    g.ops.foldl (fun s o => o.lines.foldl (fun s l =>
      match l.st with
      | .sent .device x _ => if x / 128 = out / 128 then s.fixLine core slot b o l x else s
      | _ => s) s) s

/-- What the core's loads of a host line have requested before a store or atomic of the core to it is older than that, and does not enter
the L1 when it arrives (R81, R85). -/
def State.noFill (s : State) (core out : Nat) : State :=
  let k := s.core core
  let old (l : LineReq) : LineReq := match l.st with
    | .sent .host x _ => if x / 128 = out / 128 then { l with fill := false } else l
    | _ => l
  s.setCore core { k with groups := k.groups.map (fun p =>
    (p.1, { p.2 with ops := p.2.ops.map (fun (o : MemOp) => { o with lines := o.lines.map old }) })) }

/-- The value an atomic stores (R57, R609). -/
def atomVal (op width : Nat) (sgn : Bool) (old v v2 : Nat) : Nat :=
  let w := 8 * width
  let val (x : Nat) : Int := if sgn then signed w x else (x % 2 ^ w : Nat)
  match op with
  | 0 => (old + v) % 2 ^ w
  | 1 => if val v < val old then v else old
  | 2 => if val old < val v then v else old
  | 3 => Nat.land old v
  | 4 => Nat.lor old v
  | 5 => Nat.xor old v
  | 6 => v
  | _ => if old = v then v2 else old

/-- One lane's atomic on device memory; poisoned data answers none. -/
def State.atomLane (s : State) (cls out width op : Nat) (sgn : Bool) (v v2 : Nat) : Option Nat × State :=
  let (bs, p, s) := s.devRead cls out width false
  if p then (none, s)
  else (some (leNat bs), s.devWrite cls out (full (leBytes width (atomVal op width sgn (leNat bs) v v2))) false)

/-- Whether the root port completes an AtomicOp (HOST_ATOMIC of R368): FetchAdd, Swap, CAS at 32 and 64 bits. -/
def State.hostAtomicOk (s : State) (op width : Nat) : Bool :=
  let k := match op with
    | 0 => some 0 | 6 => some 2 | 7 => some 4 | _ => none
  match k with
  | some k => bit s.hif.hostAtomic (k + (if width = 8 then 1 else 0))
  | none => false

/-- The runs of consecutive numbers of an ascending list: first number and length. -/
def runsOf : List Nat → List (Nat × Nat)
  | [] => []
  | a :: t => match runsOf t with
    | (b, n) :: r => if b = a + 1 then (a, n + 1) :: r else (a, 1) :: (b, n) :: r
    | [] => [(a, 1)]

/-- The requests of a load for a line outside device DRAM (R78), as offset and length: the whole line with policy NEAR; of MMIO and DV
pages one request for each run of touched bytes; otherwise one from the first touched byte to the last. -/
def MemOp.hostParts (o : MemOp) (va : Nat) (x : XOut) : List (Nat × Nat) :=
  let t := o.touched va
  if x.cls = .mmio ∨ x.dv then runsOf t
  else if o.policy = 0 then [(0, 128)]
  else match t with
    | [] => []
    | a :: r => [(a, r.getLast?.getD a + 1 - a)]

/-- A store of a line: at the home slice, or posted; the L1's copy of the line follows (R81). Of a host line's bytes the last one counts
as the latest written for the closing read of R86 (DESIGN CHOICE, log entry 33). -/
def State.storeLine (s : State) (core slot : Nat) (b : Block) (o : MemOp) (va : Nat) (x : XOut) : State :=
  let bs := o.storeBytes va
  let s := if x.cls = .device then (s.settle core slot x.out).devWrite (s.blockClass b) x.out bs false else s.noFill core x.out
  let s := match (s.core core).l1Find x.cls (x.out / 128) with
    | some l => s.l1Put core { l with bytes := (l.bytes.zip bs).map (fun (a, n) => n <|> a) }
    | none => s
  if x.cls = .device then s.setLine core slot o.id va .performed
  else
    let w := Output.hostWrite x.out bs (s.noSnoopAt b.ctx va)
    let last := x.out + (o.touched va).getLast?.getD 0
    let s := ((s.post w).unitWrote b.q b.seq none).setLine core slot o.id va (.posted w)
    if x.cls = .host then s.updGroup core slot (fun g => { g with hostWrite := some last }) else s

/-- A load of a line: from the L1 with policy NEAR, else requested (R78, R81, R610). -/
def State.loadLine (s : State) (core slot : Nat) (b : Block) (o : MemOp) (va : Nat) (x : XOut) : State :=
  let near := o.policy = 0 ∧ (x.cls = .device ∨ (x.cls = .host ∧ !x.dv))
  let (hit, s) := if near then s.l1Look core x.cls (x.out / 128) else (none, s)
  match hit with
  | some l => s.setLine core slot o.id va (.arrived x.cls x.out l.bytes)
  | none =>
    let s := s.setLine core slot o.id va (.sent x.cls x.out x.dv)
    if x.cls = .device then s
    else (o.hostParts va x).foldl (fun (s : State) p =>
      s.hostReadStart (cluUnit core) b.ctx (x.out + p.1) p.2 (s.noSnoopAt b.ctx va) (.kernel core slot o.id va p.1)) s

/-- The lanes of an atomic in a line, performed at the home slice in ascending order (R79, R84); false where poisoned data stops them. -/
def State.atomDevice (s : State) (core slot : Nat) (b : Block) (o : MemOp) (op va : Nat) (x : XOut) : Bool × State :=
  (o.inLine va).foldl (fun (ok, s) (y : LaneAcc) =>
    if !ok then (false, s)
    else match s.atomLane (s.blockClass b) (x.out + (y.addr - va)) o.width op o.signed y.val y.val2 with
      | (none, s) => (false, s.poisonFault b.ctx (x.out + (y.addr - va)) (some (b.q, b.seq)))
      | (some v, s) => (true, s.updOp core slot o.id (fun o => { o with
          lanes := o.lanes.map (fun (z : LaneAcc) => if z.lane = y.lane then { z with got := some v } else z) }))) (true, s)

/-- The lanes of an atomic in a line of host memory or MMIO, sent as AtomicOp requests (R84). -/
def State.atomHost (s : State) (core slot : Nat) (b : Block) (o : MemOp) (op va : Nat) (x : XOut) : State :=
  (o.inLine va).foldl (fun s (y : LaneAcc) =>
    (s.post (.hostAtomic (x.out + (y.addr - va)) op
      (leBytes o.width y.val ++ (if op = 7 then leBytes o.width y.val2 else [])))).hostReadTrack
        (cluUnit core) b.ctx (x.out + (y.addr - va)) o.width (.kernel core slot o.id y.lane 0)) s

/-- Perform or send one translated line of an operation; the answer says whether the operation goes on. Where HOST_ATOMIC stops a line its
first lane is captured (DESIGN CHOICE, log entry 34). -/
def State.lineGo (s : State) (core slot : Nat) (o : MemOp) (va : Nat) (x : XOut) : Bool × State :=
  match s.groupAt core slot with
  | none => (false, s)
  | some (g, b) =>
    if x.cls = .device ∧ !s.ctxMayAccess b.ctx x.out then
      (false, s.accessFault b.ctx (cluUnit core) o.kind.access (.prot va x.out) (some (b.q, b.seq)))
    else match o.kind with
      | .store => (true, s.storeLine core slot b o va x)
      | .load => (true, s.loadLine core slot b o va x)
      | .atomic op _ =>
        if x.cls = .device then
          let s := (s.settle core slot x.out).l1Drop core x.cls (x.out / 128)
          let (ok, s) := s.atomDevice core slot b o op va x
          (ok, if ok then s.setLine core slot o.id va .performed else s)
        else if !s.hostAtomicOk op o.width then
          let l := (o.inLine va).headD ⟨0, 0, 0, 0, none⟩
          (false, s.exc (atPc core slot g b o.pc) 0x010B l.lane l.addr)
        else
          let s := (s.noFill core x.out).l1Drop core x.cls (x.out / 128)
          (true, (s.atomHost core slot b o op va x).setLine core slot o.id va (.sent x.cls x.out x.dv))

/-- Whether an operation before `id` still has this line to perform: accesses to one location go in program order (R85). -/
def Group.lineHeld (g : Group) (id va : Nat) : Bool :=
  (g.ops.takeWhile (fun o => o.id != id)).any (fun o => o.lines.any (fun l => l.va == va && match l.st with
    | .walk _ => true
    | _ => false))

/-- Translate and perform one line of an operation: whether the operation goes on, and whether it faulted. `given` is the outcome of the
walk that the line waited for; without it the line is looked up, or (`inStep`) walked in the step. -/
def State.lineStep (s : State) (core slot : Nat) (b : Block) (o : MemOp) (va : Nat) (given : Option XResult) (inStep : Bool) :
    Bool × Bool × State :=
  let (r, wid, s) := match given with
    | some r => (some r, 0, s)
    | none =>
      if inStep then let (r, s) := s.xlate (.core core) b.ctx va o.kind.access; (some r, 0, s)
      else s.lookup core b.ctx va o.kind.access
  match r with
  | none => (false, false, s.setLine core slot o.id va (.walk wid))
  | some (.fault f) => (false, true, s.accessFault b.ctx (cluUnit core) o.kind.access (.xlate va f) (some (b.q, b.seq)))
  | some (.ok x) => let (ok, s) := s.lineGo core slot o va x; (ok, !ok, s)

/-- Translate and perform the remaining lines of an operation in ascending order, as far as a walk or an earlier operation on the same
line allows; `given` is the outcome of the walk the first of them waits for. A fault stops the operation and faults the context
(R78). With `inStep` no line waits. -/
def State.advanceOp (s : State) (core slot id : Nat) (given : Option XResult) (inStep : Bool) : State :=
  match s.groupAt core slot with
  | none => s
  | some (g, b) =>
    match g.op id with
    | none => s
    | some o =>
      let (_, _, bad, s) := o.lines.foldl (fun (go, given, bad, s) l =>
        match go, l.st with
        | true, .walk w =>
          if !inStep ∧ ((w ≠ 0 ∧ given.isNone) ∨ g.lineHeld id l.va) then (false, none, bad, s)
          else let (go, bad, s) := s.lineStep core slot b o l.va given inStep; (go, none, bad, s)
        | go, _ => (go, given, bad, s)) (true, given, false, s)
      if bad then s.cutOp core slot id (fun l => !l.waits) else s

/-- Issue a global operation. -/
def State.startOp (s : State) (a : At) (kind : MemKind) (width : Nat) (sext sgn : Bool) (policy dst : Nat) (lanes : List LaneAcc) :
    State :=
  let k := s.core a.core
  let id := k.nextOp
  let lines := (lanes.foldl (fun (m : List (Nat × Unit)) x => Sparse.put m (x.addr / 128 * 128) ()) []).map
    (fun p => (⟨p.1, .walk 0, true⟩ : LineReq))
  let o : MemOp := ⟨id, a.pc, kind, width, sext, sgn, policy, dst, lanes, lines, []⟩
  let s := s.setCore a.core { k with nextOp := id + 1 }
  (s.updGroup a.core a.slot (fun g => { g with ops := g.ops ++ [o] })).advanceOp a.core a.slot id none false

/-! ## GMEM (R57, R78, R610) -/

/-- Whether an OP of GMEM or SMEM is listed (R610). -/
def memListed (op : Nat) : Bool := op < 32 && op % 8 ≤ 4 && !(bit op 4 && (bit op 3 || 2 ≤ op % 8))

/-- The form of GMEM and SMEM. A store's data is operand B (R53); a load has none and ignores BSEL (DEDUCED, log entry 31). -/
def memForm (shared : Bool) : Form where
  mayA := false
  mayB := true
  listed := memListed
  long := true
  legal := fun i => (shared || bits i.ext.toNat 1 0 ≠ 3) && (!bit i.op.toNat 3 || i.argOk (4 < memBytes i))
  runs := fun i =>
    let n := memRegs (memBytes i)
    (i.srca.toNat, if shared then 1 else 2) :: (if bit i.op.toNat 3 then i.bRun n else [(i.dst.toNat, n)])
  always := false
  writes := fun i => if bit i.op.toNat 3 then [] else [(i.dst.toNat, memRegs (memBytes i))]

/-- The data of a store in a lane: operand B in as many words as the access has. -/
def At.storeVal (a : At) (b : BSrc) (n l : Nat) : Nat := match b with
  | .reg => a.g.many l a.i.srcb.toNat (memRegs n) % 2 ^ (8 * n)
  | .const v => v % 2 ^ (8 * n)

/-- A store's checks after its operand B is read; a failed read of an argument word has faulted the context. -/
def State.storeData (s : State) (a : At) (n : Nat) (k : (Nat → Nat) → State → State) : State :=
  match s.bwords a (memRegs n) with
  | (none, s) => s
  | (some b, s) => k (fun l => a.storeVal b n l) s

/-- GMEM_LOAD (R78). -/
def execGmemLoad (i : Issue) (s : State) : Ans :=
  s.withInsn i 7 (fun op => !bit op 3) (memForm false) (fun a s =>
    let n := memBytes a.i
    s.checked a (a.globalFault n) (fun s =>
      s.startOp a .load n (bit a.i.op.toNat 4) false (bits a.i.ext.toNat 1 0) a.i.dst.toNat
        ((a.g.run a.i).map (fun l => ⟨l, (a.gaddr l).toNat, 0, 0, none⟩))))

/-- GMEM_STORE (R78). -/
def execGmemStore (i : Issue) (s : State) : Ans :=
  s.withInsn i 7 (fun op => bit op 3) (memForm false) (fun a s =>
    let n := memBytes a.i
    s.checked a (a.globalFault n) (fun s => s.storeData a n (fun v s =>
      s.startOp a .store n false false (bits a.i.ext.toNat 1 0) 0
        ((a.g.run a.i).map (fun l => ⟨l, (a.gaddr l).toNat, v l, 0, none⟩)))))

/-! ## SMEM (R80) -/

/-- Bytes of a block's shared memory; an unlisted byte is 0 (R51). -/
def Block.shared (b : Block) (off n : Nat) : Nat := leNat ((List.range n).map (fun i => Sparse.get b.smem 0 (off + i)))

/-- Store bytes in a block's shared memory, with their parity. -/
def Block.setShared (b : Block) (off n v : Nat) : Block :=
  { b with
    smem := (List.range n).foldl (fun m i => Sparse.set m 0 (off + i) (BitVec.ofNat 8 (v / 2 ^ (8 * i)))) b.smem
    smemBad := b.smemBad.filter (fun x => x < off || off + n ≤ x) }

/-- The first byte with a parity error that reads of `n` bytes at some offsets meet. -/
def Block.parityIn (b : Block) (offs : List Nat) (n : Nat) : Option Nat :=
  offs.findSome? (fun off => b.smemBad.find? (fun x => off ≤ x && x < off + n))

/-- A parity error in shared memory (R158): no data, record 0x0204 and the context's fault. -/
def State.smemParity (s : State) (a : At) (off : Nat) : State :=
  (s.recC 0x0204 (cluUnit a.core) 2 a.b.ctx a.core off).contextFault a.b.ctx 0x0204 (cluUnit a.core) (some (a.b.q, a.b.seq))

/-- A loaded value as its registers hold it: 8 and 16 bits extended. -/
def extendLoad (width : Nat) (sext : Bool) (v : Nat) : Nat :=
  if sext && width < 4 then wrapInt 32 (signed (8 * width) v) else v

/-- SMEM_LOAD (R80). -/
def execSmemLoad (i : Issue) (s : State) : Ans :=
  s.withInsn i 8 (fun op => !bit op 3) (memForm true) (fun a s =>
    let n := memBytes a.i
    s.checked a (a.sharedFault n) (fun s =>
      match a.b.parityIn ((a.g.run a.i).map (fun l => (a.saddr l).toNat)) n with
      | some off => s.smemParity a off
      | none => s.putAt a ((a.g.run a.i).foldl (fun g l =>
        g.setMany l a.i.dst.toNat (memRegs n) (extendLoad n (bit a.i.op.toNat 4) (a.b.shared (a.saddr l).toNat n))) a.g)))

/-- SMEM_STORE (R79, R80). -/
def execSmemStore (i : Issue) (s : State) : Ans :=
  s.withInsn i 8 (fun op => bit op 3) (memForm true) (fun a s =>
    let n := memBytes a.i
    s.checked a (a.sharedFault n) (fun s => s.storeData a n (fun v s =>
      s.putBlock a.core a.g.block ((a.g.run a.i).foldl (fun b l => b.setShared (a.saddr l).toNat n (v l)) a.b))))

/-! ## ATOM (R84, R609) -/

/-- ATOM's form. -/
def atomForm : Form where
  mayA := false
  mayB := true
  listed := fun op => op % 128 ≤ 7
  long := true
  legal := fun i => 3 ≤ i.type.toNat && i.argOk i.wide
  runs := fun i =>
    let w := if i.wide then 2 else 1
    [(i.srca.toNat, if bit i.op.toNat 7 then 1 else 2), (i.dst.toNat, w)] ++ i.bRun w
      ++ (if i.op.toNat % 128 = 7 then [(i.srcc.toNat, w)] else [])
  always := false
  writes := fun i => [(i.dst.toNat, if i.wide then 2 else 1)]

/-- An atomic: on global memory line by line, on shared memory at once, in ascending lane order (R79). -/
def State.atom (s : State) (x : Issue) (op : Nat) : Ans :=
  s.withInsn x 9 (fun o => o % 128 == op) atomForm (fun a s =>
    let w := a.i.wide
    let n := if w then 8 else 4
    let shared := bit a.i.op.toNat 7
    match s.bsrc a w with
    | (none, s) => s
    | (some b, s) =>
      s.checked a (if shared then a.sharedFault n else a.globalFault n) (fun s =>
        if shared then match a.b.parityIn ((a.g.run a.i).map (fun l => (a.saddr l).toNat)) n with
        | some off => s.smemParity a off
        | none =>
          let (blk, g) := (a.g.run a.i).foldl (fun (blk, g) l =>
            let off := (a.saddr l).toNat
            let old := blk.shared off n
            (blk.setShared off n (atomVal op n (typeSigned a.i.type.toNat) old (a.bval b w l) (a.g.val w l a.i.srcc.toNat)),
             g.setVal w l a.i.dst.toNat old)) (a.b, a.g)
          (s.putBlock a.core a.g.block blk).putAt a g
        else
          s.startOp a (.atomic op true) n false (typeSigned a.i.type.toNat) 1 a.i.dst.toNat
            ((a.g.run a.i).map (fun l => ⟨l, (a.gaddr l).toNat, a.bval b w l, a.g.val w l a.i.srcc.toNat, none⟩))))

/-- ATOM_ADD (R84). -/
def execAtomAdd (i : Issue) (s : State) : Ans := s.atom i 0
/-- ATOM_MIN (R609). -/
def execAtomMin (i : Issue) (s : State) : Ans := s.atom i 1
/-- ATOM_MAX (R609). -/
def execAtomMax (i : Issue) (s : State) : Ans := s.atom i 2
/-- ATOM_AND (R609). -/
def execAtomAnd (i : Issue) (s : State) : Ans := s.atom i 3
/-- ATOM_OR (R609). -/
def execAtomOr (i : Issue) (s : State) : Ans := s.atom i 4
/-- ATOM_XOR (R609). -/
def execAtomXor (i : Issue) (s : State) : Ans := s.atom i 5
/-- ATOM_EXCH (R84). -/
def execAtomExch (i : Issue) (s : State) : Ans := s.atom i 6
/-- ATOM_CAS (R84). -/
def execAtomCas (i : Issue) (s : State) : Ans := s.atom i 7

/-! ## Completion of accesses -/

/-- Perform what a group's operations still wait for, walking in the step: before a barrier, a block-scope fence, or the
group's end, its accesses are performed (R75, R86, R87), and what its loads return of device memory is fixed. -/
def State.settleAll (s : State) (core slot : Nat) : State :=
  let ops (s : State) : List MemOp := ((s.groupAt core slot).map (fun x => x.1.ops)).getD []
  let s := (ops s).foldl (fun s o => s.advanceOp core slot o.id none true) s
  match s.groupAt core slot with
  | none => s
  | some (_, b) =>
    (ops s).foldl (fun s o => o.lines.foldl (fun s l =>
      match l.st with
      | .sent .device x _ => s.fixLine core slot b o l x
      | _ => s) s) s

/-- Whether a group waits for data of host memory or MMIO. -/
def Group.hostPending (g : Group) : Bool :=
  g.ops.any (fun o => o.kind ≠ .store && o.lines.any (fun l => match l.st with
    | .sent .device _ _ => false
    | .sent .. => o.kind = .load || !o.lanes.all (fun x => x.got.isSome)
    | _ => false))

/-! ## Barriers (R72 to R76) -/

/-- The live groups of a block, by slot. -/
def Core.groupsOf (k : Core) (bs : Nat) : List (Nat × Group) := k.groups.filter (fun g => g.2.block == bs)

/-- Whether a barrier's phase is complete: count 0 needs every live group, exited ones counting as arrived (R73). -/
def Barrier.complete (b : Barrier) (live : List Nat) : Bool := match b.count with
  | none => false
  | some 0 => live.all (fun n => b.arrived.contains n)
  | some c => c ≤ b.arrived.length

/-- Complete every barrier of a block that can: waiting groups become ready, the barrier starts a new phase. -/
def State.barrierCheck (s : State) (core bs : Nat) : State :=
  let k := s.core core
  match Sparse.find k.blocks bs with
  | none => s
  | some b =>
    let live := (k.groupsOf bs).map (fun g => g.2.num)
    let done := b.bars.filter (fun p => p.2.complete live)
    let freed := done.map (fun p => p.1)
    let k := { k with
      blocks := Sparse.put k.blocks bs { b with bars := b.bars.filter (fun p => !freed.contains p.1) },
      groups := k.groups.map (fun (p : Nat × Group) => match p.2.wait with
        | .barrier n _ => if p.2.block = bs ∧ freed.contains n then (p.1, { p.2 with wait := .ready }) else p
        | _ => p) }
    s.setCore core k

/-- The address of the long instruction at which a group waits: its pc is past it. -/
def Group.waitPc (g : Group) : Nat := (g.pc + 2 ^ 48 - 16) % 2 ^ 48

/-- Exceptions of several waiting groups of a core at once (R97), each with a barrier and the lane it captures: captured and recorded in
the order given, then the context's fault. -/
def State.excMany (s : State) (core : Nat) (code : Nat) (es : List (Nat × Nat × Nat)) : State :=
  match es with
  | [] => s
  | (slot0, _) :: _ =>
    let owner := (s.groupAt core slot0).map (fun x => (x.2.ctx, x.2.q, x.2.seq))
    let s := es.foldl (fun s (slot, bar, lane) =>
      match s.groupAt core slot with
      | none => s
      | some (g, b) =>
        (s.putGroup core slot { g with pc := g.waitPc, wait := .stopped }).excNote (atPc core slot g b g.waitPc) code lane bar) s
    match owner with
    | some (c, q, seq) => s.contextFault c code (cluUnit core) (some (q, seq))
    | none => s

/-- A group arrives at barrier `n` once its earlier accesses are performed (R72, R74, R75); `low` is its lowest lane there. -/
def State.arriveNow (s : State) (core slot n cnt : Nat) (waits : Bool) (low : Nat) : State :=
  match s.groupAt core slot with
  | none => s
  | some (g, b) =>
    let bar := Sparse.get b.bars ⟨none, [], [], false⟩ n
    if bar.count ≠ none ∧ bar.count ≠ some cnt then s.excMany core 0x0109 [(slot, n, low)]
    else
      let arrived := if bar.arrived.contains g.num then bar.arrived else bar.arrived ++ [g.num]
      let nb : Barrier := ⟨some cnt, arrived, if waits then bar.waiting ++ [g.num] else bar.waiting, false⟩
      ((s.putBlock core g.block { b with bars := Sparse.put b.bars n nb }).putGroup core slot
        { g with wait := if waits then .barrier n low else .ready }).barrierCheck core g.block

/-! ## Fences (R86) -/

/-- What a waiting fence still needs: with release no operation outstanding, with acquire no load. -/
def Group.fenceOpen (g : Group) (acq : Bool) (scope : Nat) : Bool :=
  g.ops.any (fun o => (4 ≤ scope) || (acq && o.kind ≠ .store))

/-- End a group's fence once it is satisfied (R86): an acquire at device or system scope invalidates the L1; a system-scope
release after host writes first sends the closing zero-length read. The wait's scope holds 4 more for a release. A group that arrives
at a barrier does so once no data of host memory is outstanding for it (R75). -/
def State.fenceCheck (s : State) (core slot : Nat) : State :=
  match s.groupAt core slot with
  | none => s
  | some (g, b) =>
    match g.wait with
    | .fence acq scope =>
      if g.fenceOpen acq scope then s
      else if scope = 6 ∧ g.hostWrite.isSome then
        if s.hif.reads.any (fun r => r.for_ = .fence core slot && !r.abandoned) then s
        else s.hostReadStart (cluUnit core) b.ctx (g.hostWrite.getD 0) 0 false (.fence core slot)
      else
        let s := s.putGroup core slot { g with wait := .ready, hostWrite := if scope = 6 then none else g.hostWrite }
        if acq ∧ scope % 4 ≠ 0 then s.l1Clear core else s
    | .arrive n cnt waits low => if g.hostPending then s else s.arriveNow core slot n cnt waits low
    | _ => s

/-- The closing read of a system-scope release completed (R86). -/
def State.fenceRead (s : State) (core slot : Nat) : State :=
  (s.updGroup core slot (fun g => { g with hostWrite := none })).fenceCheck core slot

/-- FENCE's form: long or short. -/
def fenceForm : Form where
  mayA := false
  mayB := true
  listed := fun op => op ≤ 2
  long := false
  legal := fun i => bits i.mod.toNat 1 0 ≠ 3
  runs := fun _ => []
  always := false
  writes := fun _ => []

/-- A group's accesses are performed at block scope (R75, R86): those to device memory at once; while data of host memory or MMIO is
outstanding the group waits as at a fence. -/
def State.blockFence (s : State) (core slot : Nat) : State :=
  (s.settleAll core slot).updGroup core slot (fun g => if g.hostPending && g.wait = .ready then { g with wait := .fence true 0 } else g)

/-- FENCE (R86): at block scope the group's accesses are performed; otherwise the group waits. -/
def execFence (i : Issue) (s : State) : Ans :=
  s.withInsn i 10 (· == 2) fenceForm (fun a s =>
    let scope := bits a.i.mod.toNat 1 0
    let kind := bits a.i.mod.toNat 3 2
    if scope = 0 then s.blockFence a.core a.slot
    else
      let acq := kind ≠ 1
      let rel := kind ≠ 0
      (s.updGroup a.core a.slot (fun g => { g with wait := .fence acq (scope + (if rel then 4 else 0)) })).fenceCheck a.core a.slot)

/-- Bytes of a line, as a load finds them. -/
def lineBytes (bs : List (Option Byte)) : List Byte := bs.map (fun b => b.getD 0)

/-- A load's line, once every byte of it that the load needs has come: the whole line where it was requested whole, which then enters the
L1 unless the core has written to it since, else the touched bytes (R78, R81). -/
def State.hostLine (s : State) (core slot : Nat) (o : MemOp) (l : LineReq) (cls : OutClass) (out : Nat) (dv : Bool) : State :=
  let bs : List (Option Byte) := (List.range 128).map (fun i => Sparse.find o.part (l.va + i))
  if (o.touched l.va).all (fun i => (Sparse.find o.part (l.va + i)).isSome) then
    let s := s.setLine core slot o.id l.va (.arrived cls out bs)
    if o.policy = 0 ∧ cls = .host ∧ !dv ∧ l.fill then s.l1Put core ⟨cls, out / 128, bs, false⟩ else s
  else s

/-- Host data for a line (from offset `off`) or lane of an operation has arrived (R436): a load's bytes, or a lane's atomic result. -/
def State.kernelData (s : State) (core slot id key off : Nat) (data : List Byte) : State :=
  match (s.groupAt core slot).bind (fun x => x.1.op id) with
  | none => s
  | some o =>
    let s := match o.kind with
      | .load =>
        let part := ((List.range data.length).zip data).foldl (fun (m : List (Nat × Byte)) (x : Nat × Byte) => Sparse.put m (key + off + x.1) x.2) o.part
        let s := s.updOp core slot id (fun o => { o with part := part })
        match o.lines.find? (fun (l : LineReq) => l.va == key) with
        | some l => match l.st with
          | .sent cls out dv => s.hostLine core slot { o with part := part } l cls out dv
          | _ => s
        | none => s
      | .atomic _ _ => s.updOp core slot id (fun o => { o with
          lanes := o.lanes.map (fun (z : LaneAcc) => if z.lane = key then { z with got := some (leNat (data.take o.width)) } else z) })
      | .store => s
    s.fenceCheck core slot

/-- Write a load's or atomic's destination registers. -/
def Group.loaded (g : Group) (o : MemOp) (lines : List (Nat × List Byte)) : Group :=
  o.lanes.foldl (fun g (x : LaneAcc) =>
    let v := match o.kind with
      | .load =>
        let bs := Sparse.get lines [] (x.addr / 128 * 128)
        extendLoad o.width o.sext (leNat ((bs.drop (x.addr % 128)).take o.width))
      | _ => x.got.getD 0
    g.setMany x.lane o.dst (memRegs o.width) v) { g with ops := g.ops.filter (fun y => y.id != o.id) }

/-- Whether everything of a load or atomic can arrive now: device lines are read at the response. -/
def MemOp.answered (o : MemOp) : Bool :=
  o.kind ≠ .store && o.lines.all (fun l => match l.st with
    | .walk _ => false
    | .sent cls _ _ => cls = .device || (o.kind ≠ .load && o.lanes.all (fun x => x.got.isSome))
    | _ => true)

/-- What the lines of an operation have brought, by line address. -/
def MemOp.lineData (o : MemOp) : List (Nat × List Byte) :=
  o.lines.foldl (fun m (l : LineReq) => match l.st with
    | .arrived _ _ bs => Sparse.put m l.va (lineBytes bs)
    | _ => m) []

/-- The device address of the first poisoned line of an operation. -/
def MemOp.poisonAt (o : MemOp) : Option Nat := o.lines.findSome? (fun l => match l.st with
  | .poisoned out => some out
  | _ => none)

/-- The device lines that a response reads now fix what the group's other loads of them return (R85). -/
def State.settleLines (s : State) (core slot : Nat) (o : MemOp) : State :=
  o.lines.foldl (fun (s : State) l => match l.st with
    | .sent .device out _ => s.settle core slot out
    | _ => s) s

/-- LOAD_RESPONSE (R90): every line of a load or atomic has arrived, and the destination registers are written. A line read from the L2
now fixes what the group's other loads of it return (R85). Bit errors `es` have arisen before. -/
def execLoadResponse (core : Fin 48) (slot : Fin 64) (op : Nat) (es : List Upset) (s : State) : Ans :=
  let s := s.ariseAll es
  let at_ (s : State) : Option (MemOp × Block) :=
    (s.groupAt core.val slot.val).bind (fun x => (x.1.op op).map (fun o => (o, x.2)))
  match at_ s with
  | none => .next s
  | some (o, b) =>
    if !o.answered then .next s
    else
      let s := s.settleLines core.val slot.val o
      match at_ s with
      | none => .next s
      | some (o, _) =>
        match o.poisonAt with
        | some pa => .next ((s.cutOp core.val slot.val op (fun _ => false)).poisonFault b.ctx pa (some (b.q, b.seq)))
        | none => .next ((s.updGroup core.val slot.val (fun g => g.loaded o o.lineData)).fenceCheck core.val slot.val)

/-- Whether a line of a store is acknowledged (R86): by its home slice, or by being sent onto the link. -/
def State.acked (s : State) (l : LineReq) : Bool := match l.st with
  | .performed => true
  | .posted o => !s.hif.unsent.contains o
  | _ => false

/-- STORE_ACK (R86): every line of a store is acknowledged. -/
def execStoreAck (core : Fin 48) (slot : Fin 64) (op : Nat) (s : State) : Ans :=
  match s.groupAt core.val slot.val with
  | none => .next s
  | some (g, _) =>
    match g.op op with
    | none => .next s
    | some o =>
      if o.kind ≠ .store || !(o.lines.all (fun l => s.acked l)) then .next s
      else .next ((s.putGroup core.val slot.val { g with ops := g.ops.filter (fun y => y.id != op) }).fenceCheck core.val slot.val)

end Sys2Proof.Machine
end

