-- ==== Sys2Proof/Machine/Completion.lean ====
section
/-! DEFINITION. The end of kernels' blocks and of units: block exit, scratch and Tongs programs of a kernel, Ladle entries and
the completion of units (R138, R154, R164, R165, R343). -/

namespace Sys2Proof.Machine

/-! ## Units -/

/-- The dispatch a unit runs. -/
def WorkUnit.kernel (w : WorkUnit) : Option Kernel := match w.kind with
  | .dispatch k => some k
  | _ => none

/-- A unit of a queue. -/
def State.unitAt (s : State) (q seq : Nat) : Option WorkUnit := match s.queue q with
  | some u => u.unit seq
  | none => none

/-- Change the dispatch of a unit. -/
def State.updKernel (s : State) (q seq : Nat) (f : Kernel → Kernel) : State :=
  s.updUnit q seq (fun w => match w.kind with
    | .dispatch k => { w with kind := .dispatch (f k) }
    | _ => w)

/-- Blocks of a kernel's grid. -/
def Kernel.total (k : Kernel) : Nat := k.gx * k.gy * k.gz

/-- Groups of one of its blocks (R42, R43). -/
def Kernel.groups (k : Kernel) : Nat := ceilDiv (k.dx * k.dy * k.dz) 32

/-- Whether a Tongs context is a unit's and has not stopped with its copies completed (R154). -/
def tongsRuns (t : Option Tongs) (q seq : Nat) : Bool := match t with
  | some t => t.q == q && t.seq == seq && t.run ≠ .done
  | none => false

/-- Whether a kernel still holds a running Tongs program anywhere. -/
def State.kernelTongs (s : State) (q seq : Nat) : Bool :=
  s.clusters.any (fun p => tongsRuns p.2.tongsN q seq || tongsRuns p.2.tongsR q seq)

/-- Nothing is left to release of a unit that completes. -/
def State.unitReleased (s : State) (q seq : Nat) : State :=
  { s with sched := { s.sched with hostWrites := s.sched.hostWrites.filter (fun w => !(w.1 == q && w.2.1 == seq)) } }

/-- Complete a unit once everything of it has ended and its Ladle entries have left (R324, R154). -/
def State.unitCheck (s : State) (q seq : Nat) : State :=
  match s.unitAt q seq with
  | none => s
  | some w =>
    if w.entries ≠ 0 || w.started.isNone then s
    else match w.kind with
      | .dispatch k =>
        if k.next = k.total && k.live == 0 && !s.kernelTongs q seq then ((s.unitReleased q seq).completeUnit q seq 0 0).endStream q else s
      | .step .. => s
      | _ => ((s.unitReleased q seq).completeUnit q seq 0 0).endStream q

/-! ## The Ladle (R164, R165) -/

/-- An entry among the waiting ones of a full Ladle: sources in ascending unit ID and number, entries of one queue or source in the order
in which they came (R164). -/
def ladleInsert (e : LadleEntry) : List LadleEntry → List LadleEntry
  | [] => [e]
  | x :: t =>
    if (x :: t).all (fun y => decide (e.unit < y.unit ∨ (e.unit = y.unit ∧ e.src < y.src)) && y.q != e.q) then e :: x :: t
    else x :: ladleInsert e t

/-- An entry waits for the intake: behind those that came before it, or for room with the other stalled sources (R164, R165). -/
def State.ladleWait (s : State) (e : LadleEntry) : State :=
  { s with sched := { s.sched with
    stalled := if 256 ≤ s.sched.ladle.length then ladleInsert e s.sched.stalled else s.sched.stalled ++ [e] } }

/-- Whether a closing read of a unit is outstanding (R87). -/
def State.unitReading (s : State) (q seq : Nat) : Bool := s.hif.reads.any (fun r => r.for_ = .release q seq && !r.abandoned)

/-- The context of a queue. -/
def State.ctxOfQueue (s : State) (q : Nat) : Nat := (s.queue q).elim 0 (fun u => u.ctx)

/-- A source has an entry to post: it waits for the Ladle's intake. Where its unit has written to host memory, the zero-length read that
releases the writes at system scope comes first (R86, R87). -/
def State.ladleDue (s : State) (e : LadleEntry) : State :=
  let mine (w : Nat × Nat × Option Nat) : Bool := w.1 == e.q && w.2.1 == e.seq
  let s := match s.sched.hostWrites.find? mine with
    | some (_, _, some a) =>
      let w := s.sched.hostWrites.filter (fun w => !mine w) ++ [(e.q, e.seq, none)]
      { s with sched := { s.sched with hostWrites := w } }.hostReadStart e.unit (s.ctxOfQueue e.q) a 0 false (.release e.q e.seq)
    | _ => s
  let s := if s.unitReading e.q e.seq then { s with sched := { s.sched with closing := s.sched.closing ++ [e] } } else s.ladleWait e
  s.updUnit e.q e.seq (fun w => { w with entries := w.entries + 1 })

/-- A closing read of a unit has completed: with the last one its entries can be posted. -/
def State.releaseRead (s : State) (q seq : Nat) : State :=
  if s.unitReading q seq then s
  else
    let mine (e : LadleEntry) : Bool := e.q == q && e.seq == seq
    { s with sched := { s.sched with
      closing := s.sched.closing.filter (fun e => !mine e) } } |> (fun t => (s.sched.closing.filter mine).foldl State.ladleWait t)

/-- Whether a unit's writes to the host have all been sent (R86, R87). -/
def State.unitSent (s : State) (q seq : Nat) : Bool :=
  s.hif.unsent.isEmpty || !s.sched.hostWrites.any (fun w => w.1 == q && w.2.1 == seq)

/-- LADLE_POST (R164): the oldest waiting entry is accepted, with the time stamp of its acceptance, while the Ladle has room; one whose unit
has writes to the host that are not sent yet waits on (R87). -/
def execLadlePost (e : LadleEntry) (s : State) : Ans :=
  if 256 ≤ s.sched.ladle.length || s.sched.stalled.find? (fun x => s.unitSent x.q x.seq) ≠ some e then .next s
  else
    let occ := s.sched.ladle.length + 1
    let s := { s with sched := { s.sched with stalled := s.sched.stalled.erase e, ladle := s.sched.ladle ++ [(⟨e, s.time⟩ : LadleHeld)] } }
    .next ((s.setFld Reg.L2C_LADLE_STATUS 8 0 occ).maxFld Reg.L2C_LADLE_STATUS 24 16 occ)

/-! ## Scratch (R138, R154) -/

/-- Whether a cluster's cores or saved state hold a block of a unit. -/
def State.unitOnCluster (s : State) (k q seq : Nat) : Bool :=
  (List.range 4).any (fun n => (s.core (4 * k + n)).blocks.any (fun b => b.2.q == q && b.2.seq == seq))
    || (s.cluster k).saved.any (fun b => b.block.q == q && b.block.seq == seq)

/-- The Griddle status fields follow the allocations (R171). -/
def State.grdRegs (s : State) (k : Nat) : State :=
  let used (rt : Bool) := ((((s.cluster k).scratch.filter (fun x => x.rt == rt)).map (fun x => x.size)).sum)
  (s.setFld (Reg.CLU_GRD_STATUS k) 13 8 (ceilDiv (used true) 256)).setFld (Reg.CLU_GRD_STATUS k) 22 16 (ceilDiv (used false) 256)

/-- Free a unit's scratch on a cluster with its Tongs context. -/
def State.freeScratch (s : State) (k q seq : Nat) : State :=
  let c := s.cluster k
  let keep (t : Option Tongs) : Option Tongs := match t with
    | some t => if t.q = q ∧ t.seq = seq then none else some t
    | none => none
  (s.setCluster k { c with
    scratch := c.scratch.filter (fun x => !(x.q == q && x.seq == seq)), tongsN := keep c.tongsN, tongsR := keep c.tongsR }).grdRegs k

/-- A Tongs context of a cluster: the real-time one or the normal one. -/
def Cluster.tongs (c : Cluster) (rt : Bool) : Option Tongs := if rt then c.tongsR else c.tongsN

/-- Store a Tongs context. -/
def Cluster.setTongs (c : Cluster) (rt : Bool) (t : Option Tongs) : Cluster :=
  if rt then { c with tongsR := t } else { c with tongsN := t }

/-- STATE of CLU_TNG_STATUS. -/
def TongsRun.code : TongsRun → Nat
  | .running => 1
  | .waitFree => 2
  | .waitFilled => 3
  | .waitFence => 1
  | .preempted => 4
  | .ended => 0
  | .done => 0

/-- The status registers show the context last at work (R171). -/
def State.tongsRegs (s : State) (k : Nat) (rt : Bool) (t : Tongs) (state : Nat) : State :=
  (s.setReg (Reg.CLU_TNG_STATUS k) (BitVec.ofNat 32 (state + t.ctx * 2 ^ 8 + t.buf * 2 ^ 16 + (if rt then 2 ^ 20 else 0)))).setReg64
    (Reg.CLU_TNG_PC_LO k) t.pc

/-- A stopped Tongs program with no copy outstanding posts its entry (R154, R164). -/
def State.tongsSettle (s : State) (k : Nat) (rt : Bool) : State :=
  match (s.cluster k).tongs rt with
  | none => s
  | some t =>
    if t.run = .ended ∧ t.copies.isEmpty then
      (s.setCluster k ((s.cluster k).setTongs rt (some { t with run := .done }))).ladleDue ⟨t.q, t.seq, 0, 0x24, k⟩
    else s

/-- A Tongs context after its kernel's last block on the cluster has exited: waiting for a slot, it stops (R154). -/
def Tongs.exited (t : Tongs) : Tongs :=
  { t with lastExited := true,
           run := if t.run = .waitFree ∨ t.run = .waitFilled then .ended else t.run }

/-- Once no block of a kernel can come to a cluster any more, its Tongs program there runs out and its scratch is freed with
the Tongs context (R138, R154). -/
def State.kernelLeaves (s : State) (q seq : Nat) : State :=
  match (s.unitAt q seq).bind WorkUnit.kernel with
  | none => s
  | some kn =>
    if kn.next < kn.total then s
    else (List.range 12).foldl (fun s k =>
      if s.unitOnCluster k q seq || !((s.cluster k).scratch.any (fun x => x.q == q && x.seq == seq)) then s
      else
        let s := [true, false].foldl (fun s rt =>
          match (s.cluster k).tongs rt with
          | some t =>
            if t.q = q ∧ t.seq = seq then
              ((s.setCluster k ((s.cluster k).setTongs rt (some t.exited))).tongsRegs k rt t.exited t.exited.run.code).tongsSettle k rt
            else s
          | none => s) s
        let c := s.cluster k
        if tongsRuns c.tongsN q seq || tongsRuns c.tongsR q seq then s else s.freeScratch k q seq) s

/-- LADLE_DRAIN: the oldest entry leaves to the command processor; `toFlow` is CC3's part for the units of the flow. -/
def State.ladleDrain (s : State) (toFlow : LadleHeld → State → State) : State :=
  match s.sched.ladle with
  | [] => s
  | h :: rest =>
    let s := { s with sched := { s.sched with ladle := rest } }
    let s := s.setFld Reg.L2C_LADLE_STATUS 8 0 rest.length
    let s := s.updUnit h.entry.q h.entry.seq (fun w => { w with entries := w.entries - 1 })
    toFlow h (s.unitCheck h.entry.q h.entry.seq)

/-! ## Blocks -/

/-- A block's last group has exited: its slot is free, its dispatch counts it, and the last one of the dispatch on the core
posts a Ladle entry. A stage group's block only leaves its slot. -/
def State.blockExit (s : State) (core bs : Nat) : State :=
  let k := s.core core
  match Sparse.find k.blocks bs with
  | none => s
  | some b =>
    let blocks := Sparse.drop k.blocks bs
    let s := s.setCore core { k with blocks := blocks }
    if b.stage.isSome then s else
    let s := s.updKernel b.q b.seq (fun kn => { kn with live := kn.live - 1 })
    let s := if blocks.any (fun p => p.2.q == b.q && p.2.seq == b.seq) then s
      else s.ladleDue ⟨b.q, b.seq, 0, cluUnit core, core % 4⟩
    s.kernelLeaves b.q b.seq

end Sys2Proof.Machine
end

