-- ==== Sys2Proof/Machine/ShaderFlow.lean ====
section
/-! DEFINITION. Control flow and barriers of the cores (R65 to R76). -/

namespace Sys2Proof.Machine

/-! ## Divergence (R66 to R69) -/

/-- Capacity of the divergence stack. -/
def divDepth : Nat := 32

/-- The form of BR instructions. -/
def brForm : Form where
  mayA := false
  mayB := true
  listed := fun op => op ≤ 8
  long := true
  legal := fun _ => true
  runs := fun i => match i.op.toNat with
    | 3 => [(i.dst.toNat, 2)]
    | 4 => [(i.srca.toNat, 2)]
    | 8 => [(i.srca.toNat, 2)]
    | _ => []
  always := false
  writes := fun i => if i.op = 3 then [(i.dst.toNat, 2)] else []

/-- The target of a branch: IMM counts 8-byte words from the branch's address. A target outside the 48-bit space wraps (DESIGN CHOICE,
log entry 35). -/
def At.target (a : At) : Nat := wrapInt 48 ((a.pc : Int) + 8 * a.i.simm)

/-- BRA's effect on a group whose pc is past the branch; none is a full stack. -/
def Group.branch (g : Group) (taken : List Nat) (target : Nat) : Option Group :=
  let fall := g.lanes.filter (fun l => !taken.contains l)
  if taken.isEmpty then some g
  else if fall.isEmpty then some { g with pc := target }
  else if divDepth ≤ g.stack.length then none
  else some { g with stack := .path target (maskOf taken) :: g.stack, active := maskOf fall }

/-- JOIN's effect: entries with an empty mask are passed over; none is an empty stack. -/
def Group.joinFrom (g : Group) : List DivEntry → Option Group
  | [] => none
  | .split m :: t => if m = 0 then g.joinFrom t else some { g with stack := t, active := m }
  | .path pc m :: t => if m = 0 then g.joinFrom t else some { g with stack := t, active := m, pc := pc }

/-- The lowest running lane. -/
def At.low (a : At) : Nat := (a.g.run a.i).headD 0

/-- BRA (R66). -/
def execBra (i : Issue) (s : State) : Ans :=
  s.withInsn i 11 (· == 0) brForm (fun a s =>
    match a.g.branch (a.g.run a.i) a.target with
    | some g => s.putAt a g
    | none => s.exc a 0x0106 a.low 0)

/-- SPLIT (R66). -/
def execSplit (i : Issue) (s : State) : Ans :=
  s.withInsn i 11 (· == 1) brForm (fun a s =>
    if divDepth ≤ a.g.stack.length then s.exc a 0x0106 a.low 0
    else s.putAt a { a.g with stack := .split a.g.active :: a.g.stack })

/-- JOIN (R66). -/
def execJoin (i : Issue) (s : State) : Ans :=
  s.withInsn i 11 (· == 2) brForm (fun a s =>
    match a.g.joinFrom a.g.stack with
    | some g => s.putAt a g
    | none => s.exc a 0x0107 a.low 0)

/-- CALL (R68): the address of the following instruction to the pair at DST, then as BRA. -/
def execCall (i : Issue) (s : State) : Ans :=
  s.withInsn i 11 (· == 3) brForm (fun a s =>
    match a.g.branch (a.g.run a.i) a.target with
    | some g => s.putAt a ((a.g.run a.i).foldl (fun g l => g.setVal true l a.i.dst.toNat a.g.pc) g)
    | none => s.exc a 0x0106 a.low 0)

/-- Distinct targets in order of their lowest lane. -/
def targetsOf : List (Nat × Nat) → List Nat
  | [] => []
  | (_, t) :: r => t :: (targetsOf r).filter (fun x => x != t)

/-- JVEC's jump lane by lane (R68). -/
def State.jumpLanes (s : State) (a : At) : State :=
  let run := a.g.run a.i
  let tgt (l : Nat) : Nat := if run.contains l then a.g.val true l a.i.srca.toNat else a.g.pc
  let bad (l : Nat) : Option (Nat × Nat) :=
    if tgt l / 2 ^ 48 ≠ 0 then some (0x0104, tgt l) else if tgt l % 8 ≠ 0 then some (0x0103, tgt l) else none
  s.checked a bad (fun s =>
    match targetsOf (a.g.lanes.map (fun l => (l, tgt l))) with
    | [] => s
    | t :: rest =>
      if divDepth < a.g.stack.length + rest.length then s.exc a 0x0106 a.low 0
      else
        let mask (t : Nat) : Word := maskOf (a.g.lanes.filter (fun l => tgt l == t))
        s.putAt a { a.g with stack := rest.map (fun t => .path t (mask t)) ++ a.g.stack, active := mask t, pc := t })

/-- RET (R68). -/
def execRet (i : Issue) (s : State) : Ans := s.withInsn i 11 (· == 4) brForm (fun a s => s.jumpLanes a)

/-- JVEC (R68). -/
def execJvec (i : Issue) (s : State) : Ans := s.withInsn i 11 (· == 8) brForm (fun a s => s.jumpLanes a)

/-- TRAP (R70). -/
def execTrap (i : Issue) (s : State) : Ans :=
  s.withInsn i 11 (· == 6) brForm (fun a s => s.exc a 0x010D a.low (a.i.imm.toNat % 65536))

/-- YIELD (R70). -/
def execYield (i : Issue) (s : State) : Ans :=
  s.withInsn i 11 (· == 7) brForm (fun a s => s.putAt a { a.g with wait := .yield })

/-- YIELD_EXPIRE (R70): 16 cycles have passed. -/
def execYieldExpire (core : Fin 48) (slot : Fin 64) (s : State) : Ans :=
  .next (s.updGroup core.val slot.val (fun g => if g.wait = .yield then { g with wait := .ready } else g))

/-! ## Barriers (R72 to R76) -/

/-- Groups by ascending slot, with what each raises. -/
def insertSlot (x : Nat × Nat × Nat) : List (Nat × Nat × Nat) → List (Nat × Nat × Nat)
  | [] => [x]
  | y :: t => if x.1 ≤ y.1 then x :: y :: t else y :: insertSlot x t

/-- The barrier at which a group waits, or at which it is to arrive, and its lowest lane there. -/
def Group.atBarrier (g : Group) : Option (Nat × Nat) := match g.wait with
  | .barrier n low => some (n, low)
  | .arrive n _ _ low => some (n, low)
  | _ => none

/-- The form of WAITB and MARKB. -/
def barForm : Form where
  mayA := false
  mayB := true
  listed := fun op => op ≤ 2
  long := true
  legal := fun _ => true
  runs := fun _ => []
  always := false
  writes := fun _ => []

/-- WAITB and MARKB (R72, R74, R75): a count that no phase can have raises BARRIER_COUNT in every group at the barrier; otherwise the
group's accesses are performed, and it arrives once no data of host memory is outstanding for it. -/
def State.arrive (s : State) (x : Issue) (wait : Bool) : Ans :=
  s.withInsn x 10 (fun op => op == (if wait then 0 else 1)) barForm (fun a s =>
    let n := a.i.imm.toNat % 16
    let cnt := bits a.i.imm.toNat 9 4
    if 32 < cnt ∨ a.b.groups < cnt then
      let others := ((s.core a.core).groupsOf a.g.block).filterMap (fun g => match g.2.atBarrier with
        | some (m, low) => if m = n then some (g.1, n, low) else none
        | none => none)
      s.excMany a.core 0x0109 (insertSlot (a.slot, n, a.low) others)
    else
      ((s.putAt a { a.g with wait := .arrive n cnt wait a.low }).settleAll a.core a.slot).fenceCheck a.core a.slot)

/-- WAITB (R72). -/
def execWaitb (i : Issue) (s : State) : Ans := s.arrive i true

/-- MARKB (R72). -/
def execMarkb (i : Issue) (s : State) : Ans := s.arrive i false

/-- BARRIER_DEADLOCK (R76): every live group of a block waits at a WAITB and no barrier can complete. -/
def execBarrierDeadlock (core : Fin 48) (bs : Fin 32) (s : State) : Ans :=
  let k := s.core core.val
  let gs := k.groupsOf bs.val
  let waits := gs.filterMap (fun g => match g.2.wait with
    | .barrier n low => some (g.1, n, low)
    | _ => none)
  match Sparse.find k.blocks bs.val with
  | none => .next s
  | some b =>
    let live := gs.map (fun g => g.2.num)
    if gs.isEmpty || waits.length ≠ gs.length || b.bars.any (fun p => p.2.complete live) then .next s
    else .next (s.excMany core.val 0x0108 waits)

/-! ## EXIT (R69, R73) -/

/-- Remove lanes from the masks of a stack. -/
def dropLanes (m : Word) : List DivEntry → List DivEntry
  | [] => []
  | .split x :: t => .split (x &&& ~~~m) :: dropLanes m t
  | .path pc x :: t => .path pc (x &&& ~~~m) :: dropLanes m t

/-- A group ends: its accesses are performed (R87), its unit keeps its latest host write and waits for the data of host memory that is
outstanding for it, its registers are freed, barriers of count 0 count it, and the block ends with its last group. `onStage` is the
graphics pipeline's part for a stage group. -/
def State.groupEnd (s : State) (core slot : Nat) (onStage : Nat → Nat → State → State) : State :=
  let s := s.settleAll core slot
  match s.groupAt core slot with
  | none => s
  | some (g, b) =>
    let s := match g.hostWrite with
      | some a => s.unitWrote b.q b.seq (some a)
      | none => s
    let s := { s with hif := { s.hif with reads := s.hif.reads.map (fun (r : HostRead) => match r.for_ with
      | .kernel c n .. => if c = core ∧ n = slot then { r with for_ := .release b.q b.seq } else r
      | _ => r) } }
    let s := if b.stage.isSome then onStage core slot s else s
    let k := s.core core
    let s := s.setCore core { k with groups := Sparse.drop k.groups slot }
    if ((s.core core).groupsOf g.block).isEmpty then s.blockExit core g.block else s.barrierCheck core g.block

/-- EXIT's effect. Live lanes that are left, none of them active and none on an entry of the stack, raise DIV_STACK_UNDERFLOW as JOIN on
an empty stack does (DESIGN CHOICE, log entry 36). -/
def State.exitLanes (s : State) (a : At) (onStage : Nat → Nat → State → State) : State :=
  let m := maskOf (a.g.run a.i)
  let g := { a.g with live := a.g.live &&& ~~~m, active := a.g.active &&& ~~~m, stack := dropLanes m a.g.stack }
  if g.live = 0 then (s.putAt a g).groupEnd a.core a.slot onStage
  else if g.active ≠ 0 then s.putAt a g
  else match g.joinFrom g.stack with
    | some g => s.putAt a g
    | none => s.exc a 0x0107 a.low 0

end Sys2Proof.Machine
end

