-- ==== Sys2Proof/Machine/Griddle.lean ====
section
/-! DEFINITION. The Griddle as kernels see it: loads and stores of buffers, ring credits (R134 to R150), and the regions of a
cluster (R134, R135). -/

namespace Sys2Proof.Machine

/-! ## Regions and errors (R134, R140) -/

/-- RESV, RTS and SLOT of a region word, in 64 KiB units. -/
def grdResv (v : Nat) : Nat := bits v 4 0
def grdRts (v : Nat) : Nat := bits v 10 5
def grdSlot (v : Nat) : Nat := bits v 16 11
def grdNormal (v : Nat) : Nat := 64 - grdResv v - grdRts v - grdSlot v

/-- First bytes of the real-time, slot and normal regions: with the reserve at 0 they stand in ascending order (R134). -/
def grdRtBase (v : Nat) : Nat := grdResv v * 65536
def grdSlotBase (v : Nat) : Nat := (grdResv v + grdRts v) * 65536
def grdNormalBase (v : Nat) : Nat := (grdResv v + grdRts v + grdSlot v) * 65536

/-- A read of a cluster's Griddle, for a context, meets the errors of its bytes (R140): a single-bit error is corrected, rewritten and
counted, with record 0x0201; an uncorrectable one, counted with record 0x0202, makes the answer true, and its context's fault is the
caller's. -/
def State.grdMeet (s : State) (k c off n : Nat) : Bool × State :=
  let hit := Sparse.range (s.cluster k).errs off n
  let cl := s.cluster k
  let s := s.setCluster k { cl with errs := cl.errs.filter (fun p => p.2 || p.1 < off || off + n ≤ p.1) }
  let s := (hit.filter (fun p => !p.2)).foldl (fun s p => (s.countSat (Reg.CLU_GRD_ECC k) 15 0 1).rec0 0x0201 (0x10 + k) 0 p.1 k) s
  match hit.find? (fun p => p.2) with
  | some p => (true, (s.countSat (Reg.CLU_GRD_ECC k) 31 16 1).recC 0x0202 (0x10 + k) 2 c p.1 k)
  | none => (false, s)

/-- A write of a cluster's Griddle stores sound words. -/
def State.grdWipe (s : State) (k off n : Nat) : State :=
  let cl := s.cluster k
  if cl.errs.isEmpty then s else s.setCluster k { cl with errs := Sparse.dropRange cl.errs off n }

/-! ## Buffers -/

/-- What a GRD instruction names: nothing, a plain buffer or a ring of a scratch allocation, or a buffer of a stage group
(R180); with its base, in bytes, and the size of its span. -/
inductive GrdTarget where
  | unused
  | plain (base size : Nat)
  | ring (inbound : Bool) (base size n count : Nat) (r : Ring)
  | stage (buf size : Nat)
  deriving DecidableEq, Repr

/-- A kernel's scratch allocation on a cluster. -/
def Cluster.scratchOf (c : Cluster) (q seq : Nat) : Option Scratch := c.scratch.find? (fun x => x.q == q && x.seq == seq)

/-- Where a kernel's scratch begins in its cluster's Griddle. -/
def State.scratchAt (s : State) (k q seq : Nat) : Nat :=
  match (s.cluster k).scratchOf q seq with
  | some x => (if x.rt then grdRtBase (s.cluster k).region else grdNormalBase (s.cluster k).region) + x.base * 256
  | none => 0

/-- Where a byte of a stage group's buffers (buffer × 2²⁴ + offset) lies in its cluster's Griddle: in the stage pool, which begins the
normal region (R177), buffer 15 before 14 and 13 (DESIGN CHOICE, log entry 53). -/
def State.stageAt (s : State) (k : Nat) (r : StageRun) (off : Nat) : Nat :=
  let size (b : Nat) : Nat := (Sparse.find r.sizes b).getD 0
  grdNormalBase (s.cluster k).region + r.pool + off % 2 ^ 24
    + (if off / 2 ^ 24 = 14 then size 15 else if off / 2 ^ 24 = 13 then size 15 + size 14 else 0)

/-- Where a byte that a GRD instruction of a block names lies in its cluster's Griddle. -/
def State.grdAt (s : State) (k : Nat) (b : Block) (off : Nat) : Nat := match b.stage with
  | some r => s.stageAt k r off
  | none => s.scratchAt k b.q b.seq + off

/-- Change a kernel's scratch on a cluster. -/
def State.updScratch (s : State) (k q seq : Nat) (f : Scratch → Scratch) : State :=
  let c := s.cluster k
  s.setCluster k { c with scratch := c.scratch.map (fun (x : Scratch) => if x.q = q ∧ x.seq = seq then f x else x) }

/-- A ring of a scratch allocation. -/
def Scratch.ring (x : Scratch) (b : Nat) : Ring := Sparse.get x.rings ⟨0, 0, 0, []⟩ b

/-- A buffer descriptor of an allocation. -/
def Scratch.buf (x : Scratch) (b : Nat) : GrdBuf := x.bufs.getD b ⟨0, 0, 0, 0, 0⟩

/-- The buffer EXT names, for the issuing block. -/
def State.grdTarget (s : State) (a : At) : GrdTarget :=
  let b := a.i.ext.toNat % 16
  match a.b.stage with
  | some st =>
    match Sparse.find st.sizes b with
    | some n => if n = 0 then .unused else .stage b n
    | none => .unused
  | none =>
    match (s.cluster (a.core / 4)).scratchOf a.b.q a.b.seq with
    | none => .unused
    | some x =>
      let d := x.buf b
      match d.kind with
      | 1 => .plain (d.base * 256) (d.units * 256)
      | 2 => .ring true (d.base * 256) (d.units * 256) d.slots d.count (x.ring b)
      | 3 => .ring false (d.base * 256) (d.units * 256) d.slots d.count (x.ring b)
      | _ => .unused

/-- An inbound slot is filled when it is earlier than FILL (R145). -/
def Ring.filled (r : Ring) (s : Nat) : Bool := laterThan r.fill s

/-- A slot given up: earlier than FREE (inbound) or FILL (outbound) (R147). -/
def Ring.gone (r : Ring) (inbound : Bool) (s : Nat) : Bool := laterThan (if inbound then r.free else r.fill) s

/-- A slot a core may use: held (R145) or writable (R146). -/
def Ring.usable (r : Ring) (inbound : Bool) (n s : Nat) : Bool :=
  (if inbound then r.filled s else laterThan (r.free + n) s) && !r.gone inbound s

/-- Wake the groups of a unit on a cluster whose slot has become usable (R147, R150), and a Tongs program that waited. -/
def State.ringWake (s : State) (k q seq : Nat) : State :=
  match (s.cluster k).scratchOf q seq with
  | none => s
  | some x =>
    let s := (List.range 4).foldl (fun s n =>
      let core := s.core (4 * k + n)
      let mine (g : Group) : Bool := match Sparse.find core.blocks g.block with
        | some b => b.q == q && b.seq == seq
        | none => false
      let gs := core.groups.map (fun (p : Nat × Group) => match p.2.wait with
        | .credit b sl =>
          let d := x.buf b
          if mine p.2 && (x.ring b).usable (d.kind == 2) d.slots sl then (p.1, { p.2 with wait := .ready }) else p
        | _ => p)
      s.setCore (4 * k + n) { core with groups := gs }) s
    let c := s.cluster k
    match c.tongs x.rt with
    | none => s
    | some t =>
      let r := x.ring t.buf
      let go := (t.run = .waitFree && diff32 r.next r.free < (x.buf t.buf).slots) || (t.run = .waitFilled && laterThan r.fill r.next)
      if t.q = q ∧ t.seq = seq ∧ go then
        let t := { t with run := .running }
        (s.setCluster k (c.setTongs x.rt (some t))).tongsRegs k x.rt t 1
      else s

/-! ## GRD instructions (R141 to R148) -/

/-- Bytes of a GLD or GST. -/
def grdBytes (i : Insn) : Nat := 2 ^ (i.op.toNat % 8)

/-- The form of GRD instructions (R141): SRCC of GLD and GST names a register for a ring, and is 0 for a plain buffer. -/
def grdForm : Form where
  mayA := false
  mayB := true
  listed := fun op => [0x02, 0x03, 0x04, 0x0A, 0x0B, 0x0C, 0x10, 0x11, 0x12, 0x13].contains op
  long := true
  legal := fun i =>
    let op := i.op.toNat
    i.ext.toNat / 16 == 0 && i.mod == 0 && i.type == 0 && i.pd == 7 && i.bsel == 0
      && (op < 0x10 || (i.srcb == 0 && i.srcc == 0 && i.imm == 0 && (if op = 0x13 then i.srca == 0 else i.dst == 0)))
  runs := fun i =>
    let op := i.op.toNat
    if op = 0x13 then [(i.dst.toNat, 1)]
    else if 0x10 ≤ op then [(i.srca.toNat, 1)]
    else [(i.srca.toNat, 1), (if op < 8 then i.dst.toNat else i.srcb.toNat, memRegs (grdBytes i))]
  always := false
  writes := fun i =>
    let op := i.op.toNat
    if op = 0x13 then [(i.dst.toNat, 1)] else if op < 8 then [(i.dst.toNat, memRegs (grdBytes i))] else []
  bad := fun s a => a.i.op.toNat < 0x10 && a.i.srcc ≠ 0 && (match s.grdTarget a with
    | .plain .. | .stage .. => true
    | _ => false)
  more := fun s a => if a.i.op.toNat < 0x10 then (match s.grdTarget a with
    | .ring .. => [(a.i.srcc.toNat, 1)]
    | _ => []) else []

/-- A lane's slot number. -/
def At.lslot (a : At) (l : Nat) : Nat := a.g.reg l a.i.srcc.toNat

/-- Base and size of a lane's span, and whether its ring slot may be used (R142, R148). -/
def At.span (a : At) (t : GrdTarget) (l : Nat) : Nat × Nat × Bool := match t with
  | .unused => (0, 0, true)
  | .plain base size => (base, size, true)
  | .stage b size => (b * 2 ^ 24, size, true)
  | .ring inb base size n _ r => (base + a.lslot l % n * size, size, r.usable inb n (a.lslot l))

/-- The exception of a lane of a GLD or GST (R142, R148): range before alignment before the slot's state. -/
def At.grdFault (a : At) (t : GrdTarget) (n l : Nat) : Option (Nat × Nat) :=
  let (_, size, ok) := a.span t l
  let off := a.saddr l
  if off < 0 ∨ (size : Int) < off + n then some (0x010F, 0)
  else if off % n ≠ 0 then some (0x0103, 0)
  else if !ok then some (0x0110, 0)
  else none

/-- The bytes a GRD instruction reads: those of the kernel's scratch or of the stage group. -/
def State.grdByte (s : State) (a : At) (off : Nat) : Byte := match a.b.stage with
  | some st =>
    if off / 2 ^ 24 = 14 then Sparse.get st.data (Config.freeByte st.free off) off else Sparse.get st.data 0 off
  | none => match (s.cluster (a.core / 4)).scratchOf a.b.q a.b.seq with
    | some x => Sparse.get x.data 0 off
    | none => 0

/-- Write one byte. -/
def State.grdSet (s : State) (a : At) (off : Nat) (v : Byte) : State := match a.b.stage with
  | some _ =>
    match Sparse.find (s.core a.core).blocks a.g.block with
    | some b => s.putBlock a.core a.g.block
        { b with stage := b.stage.map (fun (st : StageRun) => { st with data := Sparse.put st.data off v }) }
    | none => s
  | none => s.updScratch (a.core / 4) a.b.q a.b.seq (fun x => { x with data := Sparse.set x.data 0 off v })

/-- The checks that GLD and GST share (R142, R148), then their effect. -/
def State.grdAccess (s : State) (a : At) (k : GrdTarget → State → State) : State :=
  match s.grdTarget a with
  | .unused => s.exc a 0x010F a.low 0
  | t => s.checked a (a.grdFault t (grdBytes a.i)) (k t)

/-- The errors that the lanes of a GLD meet (R140). -/
def State.grdLanes (s : State) (a : At) (t : GrdTarget) (n : Nat) : Bool × State :=
  let k := a.core / 4
  (a.g.run a.i).foldl (fun (bad, s) l =>
    if bad then (bad, s) else s.grdMeet k a.b.ctx (s.grdAt k a.b ((a.span t l).1 + (a.saddr l).toNat)) n) (false, s)

/-- GLD (R140, R142), after bit errors that have arisen. -/
def execGld (i : Issue) (es : List Upset) (s : State) : Ans :=
  (s.ariseAll es).withInsn i 12 (fun op => 2 ≤ op && op ≤ 4) grdForm (fun a s => s.grdAccess a (fun t s =>
    let n := grdBytes a.i
    match s.grdLanes a t n with
    | (true, s) => s.contextFault a.b.ctx 0x0202 (cluUnit a.core) (some (a.b.q, a.b.seq))
    | (false, s) => s.putAt a ((a.g.run a.i).foldl (fun g l =>
        let base := (a.span t l).1 + (a.saddr l).toNat
        g.setMany l a.i.dst.toNat (memRegs n) (leNat ((List.range n).map (fun j => s.grdByte a (base + j))))) a.g)))

/-- GST (R142): of lanes storing one byte the highest wins (R79, R143). -/
def execGst (i : Issue) (s : State) : Ans :=
  s.withInsn i 12 (fun op => 0xA ≤ op && op ≤ 0xC) grdForm (fun a s => s.grdAccess a (fun t s =>
    let n := grdBytes a.i
    (a.g.run a.i).foldl (fun s l =>
      let base := (a.span t l).1 + (a.saddr l).toNat
      let v := a.g.many l a.i.srcb.toNat (memRegs n)
      let s := (List.range n).foldl (fun s j => s.grdSet a (base + j) (BitVec.ofNat 8 (v / 2 ^ (8 * j)))) s
      s.grdWipe (a.core / 4) (s.grdAt (a.core / 4) a.b base) n) s))

/-- A credit instruction on a ring, with its slot: the value of SRCA in the lowest active lane (R141). -/
def State.credit (s : State) (a : At) (k : Bool → Nat → Nat → Ring → Nat → State → State) : State :=
  match s.grdTarget a with
  | .ring inb _ _ n count r => k inb n count r (a.g.reg (a.g.lanes.headD 0) a.i.srca.toNat) s
  | _ => s.exc a 0x010F a.low 0

/-- CWAIT (R147). -/
def execCwait (i : Issue) (s : State) : Ans :=
  s.withInsn i 12 (· == 0x10) grdForm (fun a s => s.credit a (fun inb n _ r sl s =>
    if r.gone inb sl then s.exc a 0x0110 a.low 0
    else if r.usable inb n sl then s
    else s.putAt a { a.g with wait := .credit (a.i.ext.toNat % 16) sl }))

/-- Advance FREE (inbound) or FILL (outbound) over the slots whose counts are complete (R145, R146); `fuel` is the ring's size. -/
def Ring.advance (r : Ring) (inbound : Bool) (count : Nat) : Nat → Ring
  | 0 => r
  | f + 1 =>
    let at_ := if inbound then r.free else r.fill
    if Sparse.get r.counts 0 at_ < count then r
    else
      let r := { r with counts := Sparse.drop r.counts at_ }
      let nx := (at_ + 1) % 2 ^ 32
      (if inbound then { r with free := nx } else { r with fill := nx }).advance inbound count f

/-- Store a ring of a unit's scratch on a cluster, with what its counters wake. -/
def State.putRing (s : State) (k q seq b : Nat) (r : Ring) : State :=
  (s.updScratch k q seq (fun x => { x with rings := Sparse.put x.rings b r })).ringWake k q seq

/-- Add a release or post to a slot. -/
def State.creditAdd (s : State) (a : At) (inb : Bool) (n count : Nat) (r : Ring) (sl : Nat) : State :=
  if !r.usable inb n sl then s.exc a 0x0110 a.low 0
  else
    let r := { r with counts := Sparse.bump r.counts sl 1 }
    s.putRing (a.core / 4) a.b.q a.b.seq (a.i.ext.toNat % 16) (r.advance inb count n)

/-- CREL (R145, R148): on an outbound ring no slot is held. -/
def execCrel (i : Issue) (s : State) : Ans :=
  s.withInsn i 12 (· == 0x11) grdForm (fun a s => s.credit a (fun inb n count r sl s =>
    if inb then s.creditAdd a true n count r sl else s.exc a 0x0110 a.low 0))

/-- CPOST (R146, R148): on an inbound ring it is out of range (R142). -/
def execCpost (i : Issue) (s : State) : Ans :=
  s.withInsn i 12 (· == 0x12) grdForm (fun a s => s.credit a (fun inb n count r sl s =>
    if inb then s.exc a 0x010F a.low 0 else s.creditAdd a false n count r sl))

/-- CQRY (R141): the FILL counter. -/
def execCqry (i : Issue) (s : State) : Ans :=
  s.withInsn i 12 (· == 0x13) grdForm (fun a s => s.credit a (fun _ _ _ r _ s => s.putAt a (a.write false (fun _ => r.fill))))

/-! ## Regions (R134, R135) -/

/-- Whether nothing on a cluster holds its regions (R135). -/
def State.regionIdle (s : State) (k : Nat) : Bool :=
  let c := s.cluster k
  let live (t : Option Tongs) : Bool := match t with
    | some t => t.run ≠ .done
    | none => false
  c.scratch.isEmpty && c.saved.isEmpty && !live c.tongsN && !live c.tongsR
    && (List.range 4).all (fun n => (s.core (4 * k + n)).blocks.isEmpty)

/-- A pending region change takes effect (R135): the contents of all regions become undefined. -/
def State.regionApply (s : State) (k : Nat) : State :=
  let c := s.cluster k
  match c.pendRegion with
  | none => s
  | some r =>
    if s.regionIdle k then
      (s.setCluster k { c with region := r, pendRegion := none, slotData := [] }).clearFlag (Reg.CLU_GRD_STATUS k) 0
    else s

/-- GRD_REGION_WRITE (R135). -/
def execGrdRegionWrite (k : Fin 12) (v : Word) (s : State) : Ans :=
  let r := v.toNat
  if !s.uncRuns then .next s
  else if 28 < grdResv r || 64 < grdResv r + grdRts r + grdSlot r then .next (s.setFlag (Reg.CLU_GRD_STATUS k.val) 1)
  else
    let s := s.setReg (Reg.CLU_GRD_REGION k.val) (BitVec.ofNat 32 (r % 2 ^ 17))
    .next ((s.setCluster k.val { s.cluster k.val with pendRegion := some (r % 2 ^ 17) }).setFlag (Reg.CLU_GRD_STATUS k.val) 0)

/-- GRD_REGION_APPLY (R135): the first moment at which nothing holds the regions. -/
def execGrdRegionApply (k : Fin 12) (s : State) : Ans := .next (s.regionApply k.val)

end Sys2Proof.Machine
end

