-- ==== Sys2Proof/Machine/Tongs.lean ====
section
/-! DEFINITION. The Tongs engines: address programs, copies between memory and the Griddle, ring counters (R149, R151 to R155),
and the swap of model-slot state (R156). -/

namespace Sys2Proof

/-- OP, RA, RB, BUF, LVL, POST of a Tongs command (R151). -/
def TongsCmd.op (c : TongsCmd) : Nat := c.w0.toNat % 256
def TongsCmd.ra (c : TongsCmd) : Nat := c.w0.toNat / 2 ^ 8 % 8
def TongsCmd.rb (c : TongsCmd) : Nat := c.w0.toNat / 2 ^ 12 % 8
def TongsCmd.buf (c : TongsCmd) : Nat := c.w0.toNat / 2 ^ 16 % 16
def TongsCmd.lvl (c : TongsCmd) : Nat := c.w0.toNat / 2 ^ 20 % 4
def TongsCmd.post (c : TongsCmd) : Bool := c.w0.toNat / 2 ^ 24 % 2 == 1

/-- LEN, PITCH, number of rows, OFF in bytes. -/
def TongsCmd.len (c : TongsCmd) : Nat := c.w1.toNat
def TongsCmd.rows (c : TongsCmd) : Nat := c.w3.toNat % 65536 + 1
def TongsCmd.off (c : TongsCmd) : Nat := c.w3.toNat / 65536 * 16

/-- Reserved fields of word 0 are 0. -/
def TongsCmd.clean (c : TongsCmd) : Bool :=
  c.w0.toNat / 2 ^ 11 % 2 == 0 && c.w0.toNat / 2 ^ 15 % 2 == 0 && c.w0.toNat / 2 ^ 22 % 4 == 0 && c.w0.toNat / 2 ^ 25 == 0

/-- The 16 bytes of a command. -/
def TongsCmd.words (c : TongsCmd) : List Nat := [c.w0.toNat, c.w1.toNat, c.w2.toNat, c.w3.toNat]

end Sys2Proof

namespace Sys2Proof.Machine

/-- The listed commands (R151). -/
def tongsListed (op : Nat) : Bool := [0, 1, 2, 3, 4, 5, 0x10, 0x11, 0x12, 0x13, 0x20, 0x3F].contains op

/-- L2 class of a program's accesses (R159). -/
def tongsClass (rt : Bool) : Nat := if rt then 6 else 7

/-- Whether a preemption request takes a Tongs program. -/
def State.takesTongs (s : State) (k : Nat) (p : Preempt) (t : Tongs) : Bool := p.scopes.any (fun x => match x with
  | .normal => !s.isRt t.q
  | .context c => t.ctx == c
  | .aboveV v => !s.isRt t.q && v < s.vOf t.q
  | .noScratch => !s.isRt t.q && !(s.cluster k).holdsNormal t.q t.seq)

/-- Whether an unanswered preemption stops a program at its next command boundary (R155). -/
def State.tongsHeld (s : State) (k : Nat) (t : Tongs) : Bool := match (s.cluster k).preempt with
  | some p => s.takesTongs k p t
  | none => false

/-- Store a Tongs context, show it, and settle it if it has stopped. -/
def State.putTongs (s : State) (k : Nat) (rt : Bool) (t : Tongs) : State :=
  let s := (s.setCluster k ((s.cluster k).setTongs rt (some t))).tongsRegs k rt t t.run.code
  if t.run = .ended then (s.tongsSettle k rt).kernelLeaves t.q t.seq else s

/-- The engine faults a program (R152): STATE 5, and the context faults. -/
def State.tongsFault (s : State) (k : Nat) (rt : Bool) (t : Tongs) : State :=
  let s := (s.tongsRegs k rt t 5).recC 0x0210 0x24 2 t.ctx k (t.pc % 2 ^ 32)
  s.contextFault t.ctx 0x0210 0x24 (some (t.q, t.seq))

/-- Whether a context can proceed: the real-time one goes first (R151). -/
def State.tongsTurn (s : State) (k : Nat) (rt : Bool) (t : Tongs) : Bool :=
  t.run = .running && s.cluOn && s.sched.quench.isNone && !s.tongsHeld k t && !s.srcStalled 0x24 k
    && (rt || match (s.cluster k).tongsR with
      | some r => r.run ≠ .running
      | none => true)

/-- Run one command of a program: it is the one at the program counter, and (`op`) the row's or an unlisted one. `f` gives the
context after it, none for a TONGS_PROGRAM fault. -/
def State.withTongs (s : State) (k : Nat) (rt : Bool) (cmd : TongsCmd) (op : Nat)
    (f : Tongs → State → Option (Tongs × State)) : Ans :=
  match (s.cluster k).tongs rt with
  | none => .next s
  | some t =>
    if !s.tongsTurn k rt t || (tongsListed cmd.op && cmd.op ≠ op) then .next s
    else
      let fu := some (t.q, t.seq)
      match s.rawRead (.cluster k) (tongsClass rt) t.ctx t.pc 16 with
      | (some e, _, _, s) => .next ((s.tongsRegs k rt t 5).accessFault t.ctx 0x24 .read e fu)
      | (none, some pa, _, s) => .next ((s.tongsRegs k rt t 5).poisonFault t.ctx pa fu)
      | (none, none, bs, s1) =>
        if !bytesAgree bs (wordBytes cmd.words) then .next s
        else
          let t := { t with buf := cmd.buf }
          if !tongsListed cmd.op || !cmd.clean then .next (s1.tongsFault k rt t)
          else match f t s1 with
            | none => .next (s1.tongsFault k rt t)
            | some (t, s) => .next (s.putTongs k rt t)

/-- The command after this one. -/
def Tongs.step (t : Tongs) : Tongs := { t with pc := (t.pc + 16) % 2 ^ 48 }

/-- Address register `r`. -/
def Tongs.addr (t : Tongs) (r : Nat) : Nat := t.a.getD r 0

/-- Set an address register, 48 bits wide. -/
def Tongs.setAddr (t : Tongs) (r v : Nat) : Tongs := { t with a := t.a.set r (v % 2 ^ 48) }

/-- TONGS_NOP (R151). -/
def execTongsNop (k : Fin 12) (rt : Bool) (cmd : TongsCmd) (s : State) : Ans :=
  s.withTongs k.val rt cmd 0x00 (fun t s => some (t.step, s))

/-- TONGS_SETA (R151). -/
def execTongsSeta (k : Fin 12) (rt : Bool) (cmd : TongsCmd) (s : State) : Ans :=
  s.withTongs k.val rt cmd 0x01 (fun t s => some ((t.setAddr cmd.ra (cmd.len + cmd.w2.toNat % 65536 * 2 ^ 32)).step, s))

/-- TONGS_ADDA (R151). -/
def execTongsAdda (k : Fin 12) (rt : Bool) (cmd : TongsCmd) (s : State) : Ans :=
  s.withTongs k.val rt cmd 0x02 (fun t s =>
    some ((t.setAddr cmd.ra (wrapInt 48 ((t.addr cmd.ra : Int) + cmd.w1.toInt))).step, s))

/-- TONGS_ADDR (R151). -/
def execTongsAddr (k : Fin 12) (rt : Bool) (cmd : TongsCmd) (s : State) : Ans :=
  s.withTongs k.val rt cmd 0x03 (fun t s => some ((t.setAddr cmd.ra (t.addr cmd.ra + t.addr cmd.rb)).step, s))

/-- TONGS_LOOP (R151, R152): counts 1 to 16,777,216. -/
def execTongsLoop (k : Fin 12) (rt : Bool) (cmd : TongsCmd) (s : State) : Ans :=
  s.withTongs k.val rt cmd 0x04 (fun t s =>
    if cmd.len = 0 ∨ 16777216 < cmd.len ∨ t.loops.any (fun l => l.1 == cmd.lvl) then none
    else
      let t := t.step
      some ({ t with loops := (cmd.lvl, cmd.len, t.pc) :: t.loops }, s))

/-- TONGS_ENDL (R151). -/
def execTongsEndl (k : Fin 12) (rt : Bool) (cmd : TongsCmd) (s : State) : Ans :=
  s.withTongs k.val rt cmd 0x05 (fun t s =>
    match t.loops.find? (fun l => l.1 == cmd.lvl) with
    | none => none
    | some (_, n, body) =>
      let rest := t.loops.filter (fun l => l.1 != cmd.lvl)
      if n ≤ 1 then some ({ t.step with loops := rest }, s)
      else some ({ t with pc := body, loops := (cmd.lvl, n - 1, body) :: rest }, s))

/-- Whether a copy's length is in range and its rows lie within its slot or buffer (R151, R152). -/
def copyFits (cmd : TongsCmd) (d : GrdBuf) : Bool :=
  16 ≤ cmd.len && cmd.len ≤ 1048576 && cmd.len % 16 == 0 && cmd.off + cmd.rows * cmd.len ≤ d.units * 256

/-- Begin a copy of a command at a place of the scratch. -/
def Tongs.begin (t : Tongs) (cmd : TongsCmd) (toGrd : Bool) (slot goff : Nat) : Tongs :=
  let c : TongsCopy := ⟨t.nextCopy, toGrd, cmd.buf, slot, goff, t.addr cmd.ra, cmd.w2.toNat, cmd.len, cmd.rows⟩
  { t.step with copies := t.copies ++ [c], nextCopy := t.nextCopy + 1 }

/-- The counters of a ring follow the slots whose copies are complete (R149): FILL (inbound) or FREE (outbound) advances to the
engine's next slot as far as no copy of the slot is outstanding; `fuel` is the ring's size. -/
def Ring.settle (r : Ring) (inbound : Bool) (busy : Nat → Bool) : Nat → Ring
  | 0 => r
  | f + 1 =>
    let at_ := if inbound then r.fill else r.free
    if at_ = r.next ∨ busy at_ then r
    else
      let nx := (at_ + 1) % 2 ^ 32
      (if inbound then { r with fill := nx } else { r with free := nx }).settle inbound busy f

/-- Settle a ring of the program's scratch and wake what waits for it. -/
def State.settleRing (s : State) (k : Nat) (t : Tongs) (b : Nat) : State :=
  match (s.cluster k).scratchOf t.q t.seq with
  | none => s
  | some x =>
    let d := x.buf b
    if d.kind ≠ 2 ∧ d.kind ≠ 3 then s
    else
      let r := (x.ring b).settle (d.kind == 2) (fun sl => t.copies.any (fun c => c.buf == b && c.slot == sl)) 17
      s.putRing k t.q t.seq b r

/-- FILL and DRAIN (R151): wait for the engine's next slot, or begin the copy; with POST the engine moves to the next slot. -/
def State.ringCopy (s : State) (k : Nat) (rt : Bool) (cmd : TongsCmd) (inbound : Bool) : Ans :=
  s.withTongs k rt cmd (if inbound then 0x10 else 0x11) (fun t s =>
    match (s.cluster k).scratchOf t.q t.seq with
    | none => none
    | some x =>
      let d := x.buf cmd.buf
      let r := x.ring cmd.buf
      if d.kind ≠ (if inbound then 2 else 3) ∨ !copyFits cmd d then none
      else
        let ready := if inbound then diff32 r.next r.free < d.slots else laterThan r.fill r.next
        if !ready then
          some ({ t with run := if t.lastExited then .ended else if inbound then .waitFree else .waitFilled }, s)
        else
          let t := t.begin cmd inbound r.next ((d.base + r.next % d.slots * d.units) * 256 + cmd.off)
          let r := if cmd.post then { r with next := (r.next + 1) % 2 ^ 32 } else r
          some (t, s.putRing k t.q t.seq cmd.buf r))

/-- TONGS_FILL (R151). -/
def execTongsFill (k : Fin 12) (rt : Bool) (cmd : TongsCmd) (s : State) : Ans := s.ringCopy k.val rt cmd true

/-- TONGS_DRAIN (R151). -/
def execTongsDrain (k : Fin 12) (rt : Bool) (cmd : TongsCmd) (s : State) : Ans := s.ringCopy k.val rt cmd false

/-- GLOAD and GSTORE (R151): a plain buffer, no wait. -/
def State.plainCopy (s : State) (k : Nat) (rt : Bool) (cmd : TongsCmd) (toGrd : Bool) : Ans :=
  s.withTongs k rt cmd (if toGrd then 0x12 else 0x13) (fun t s =>
    match (s.cluster k).scratchOf t.q t.seq with
    | none => none
    | some x =>
      let d := x.buf cmd.buf
      if d.kind ≠ 1 ∨ !copyFits cmd d then none
      else some (t.begin cmd toGrd 0 (d.base * 256 + cmd.off), s))

/-- TONGS_GLOAD (R151). -/
def execTongsGload (k : Fin 12) (rt : Bool) (cmd : TongsCmd) (s : State) : Ans := s.plainCopy k.val rt cmd true

/-- TONGS_GSTORE (R151). -/
def execTongsGstore (k : Fin 12) (rt : Bool) (cmd : TongsCmd) (s : State) : Ans := s.plainCopy k.val rt cmd false

/-- TONGS_FENCE (R151): the program goes on once every earlier copy has been performed. -/
def execTongsFence (k : Fin 12) (rt : Bool) (cmd : TongsCmd) (s : State) : Ans :=
  s.withTongs k.val rt cmd 0x20 (fun t s => some (if t.copies.isEmpty then t.step else { t with run := .waitFence }, s))

/-- TONGS_END (R151, R154). -/
def execTongsEnd (k : Fin 12) (rt : Bool) (cmd : TongsCmd) (s : State) : Ans :=
  s.withTongs k.val rt cmd 0x3F (fun t s => some ({ t with run := .ended }, s))

/-- Move one row of a copy; none after a fault. -/
def State.copyRow (s : State) (k : Nat) (rt : Bool) (t : Tongs) (c : TongsCopy) (i : Nat) : Option State × State :=
  let va := wrapInt 48 ((c.addr : Int) + (i : Int) * signed 32 c.pitch)
  let goff := c.goff + i * c.len
  let fu := some (t.q, t.seq)
  if c.toGrd then
    match s.vread (.cluster k) t.ctx va c.len (tongsClass rt) false false with
    | (.fail f, s) => (none, (s.tongsRegs k rt t 5).accessFault t.ctx 0x24 .read f fu)
    | (.ok _ (some pa), s) => (none, (s.tongsRegs k rt t 5).poisonFault t.ctx pa fu)
    | (.ok bs none, s) =>
      let s := (s.updScratch k t.q t.seq (fun x => { x with
        data := (bs.zipIdx).foldl (fun m (b, j) => Sparse.set m 0 (goff + j) b) x.data })).grdWipe k (s.scratchAt k t.q t.seq + goff) c.len
      (some s, s)
  else
    match s.grdMeet k t.ctx (s.scratchAt k t.q t.seq + goff) c.len with
    | (true, s) => (none, (s.tongsRegs k rt t 5).contextFault t.ctx 0x0202 (0x10 + k) fu)
    | (false, s) =>
      let bs := match (s.cluster k).scratchOf t.q t.seq with
        | some x => (List.range c.len).map (fun j => Sparse.get x.data 0 (goff + j))
        | none => []
      match s.vwriteBy t.q t.seq (.cluster k) t.ctx va (tongsClass rt) (full bs) with
      | (some f, s) => (none, (s.tongsRegs k rt t 5).accessFault t.ctx 0x24 .write f fu)
      | (none, s) => (some s, s)

/-- Move the rows of a copy in order, up to one that faults; whether all have been moved. -/
def State.copyRows (s : State) (k : Nat) (rt : Bool) (t : Tongs) (c : TongsCopy) : Bool × State :=
  (List.range c.rows).foldl (fun (ok, s) i =>
    if !ok then (false, s)
    else match s.copyRow k rt t c i with
      | (some s, _) => (true, s)
      | (none, s) => (false, s)) (true, s)

/-- TONGS_COPY_COMPLETE (R149): a copy that has begun has been performed; the counters and waits that it held follow. -/
def execTongsCopyComplete (k : Fin 12) (rt : Bool) (id : Nat) (s : State) : Ans :=
  let k := k.val
  match (s.cluster k).tongs rt with
  | none => .next s
  | some t =>
    match t.copies.find? (fun c => c.id == id) with
    | none => .next s
    | some c =>
      if !s.cluOn || s.sched.quench.isSome then .next s
      else
        let (ok, s) := s.copyRows k rt t c
        if !ok then .next s
        else
          let s := s.count64 (Reg.CLU_TNG_BYTES_LO k) (c.len * c.rows)
          let t := { t with copies := t.copies.filter (fun x => x.id != id) }
          let t := if t.run = .waitFence ∧ t.copies.isEmpty then { t.step with run := .running } else t
          let s := (s.setCluster k ((s.cluster k).setTongs rt (some t))).settleRing k t c.buf
          match (s.cluster k).tongs rt with
          | some t => .next (s.putTongs k rt t)
          | none => .next s

/-- A program begins when its kernel's scratch is allocated (R151). -/
def State.tongsStart (s : State) (k : Nat) (rt : Bool) (q seq ctx : Nat) (kn : Kernel) : State :=
  if kn.tongs = 0 then s
  else
    let ks := setBitsOf 12 kn.clusters
    let ord := (ks.filter (fun j => j < k)).length
    s.putTongs k rt ⟨q, seq, ctx, kn.tongs, [kn.tongsArg % 2 ^ 48, k, ord, ks.length, 0, 0, 0, 0], [], .running, [], 0, 0, false⟩

/-! ## Slot-state swap (R156) -/

/-- A byte of a cluster's slot region; one nothing has written is free (R135). -/
def State.slotByte (s : State) (k off : Nat) : Byte := Sparse.get (s.cluster k).slotData (Config.freeByte s.draws off) off

/-- One extent of a slot on one of its clusters: written out to memory, or read in, counted as moved by the engine (R171); none after a
fault. -/
def State.swapExtent (s : State) (x : Slot) (k ord : Nat) (e : Extent) (out : Bool) : Bool × State :=
  let va := (e.addr + ord * x.cstride) % 2 ^ 48
  let n := e.len * 256
  let off := e.goff * 256
  if out then
    match s.grdMeet k x.ctx (grdSlotBase (s.cluster k).region + off) n with
    | (true, s) => (false, s.contextFault x.ctx 0x0202 (0x10 + k) none)
    | (false, s) =>
      let bs := (List.range n).map (fun j => s.slotByte k (off + j))
      match s.vwrite (.cluster k) x.ctx va 8 (full bs) false false with
      | (some f, s) => (false, s.accessFault x.ctx 0x24 .write f none)
      | (none, s) => (true, { s with draws := s.draws + 1 }.count64 (Reg.CLU_TNG_BYTES_LO k) n)
  else
    match s.vread (.cluster k) x.ctx va n 8 false false with
    | (.fail f, s) => (false, s.accessFault x.ctx 0x24 .read f none)
    | (.ok _ (some pa), s) => (false, s.poisonFault x.ctx pa none)
    | (.ok bs none, s) =>
      let c := s.cluster k
      let s := s.setCluster k { c with slotData := (bs.zipIdx).foldl (fun m (b, j) => Sparse.put m (off + j) b) c.slotData }
      (true, (s.grdWipe k (grdSlotBase c.region + off) n).count64 (Reg.CLU_TNG_BYTES_LO k) n)

/-- A slot's extents on its clusters: its dirty ones out, or all of them in. -/
def State.swapSlot (s : State) (x : Slot) (out : Bool) : Bool × State :=
  ((setBitsOf 12 x.clusters).zipIdx).foldl (fun (r : Bool × State) (k, ord) =>
    (x.extents.filter (fun e => !out || e.dirty)).foldl (fun (r : Bool × State) e =>
      if r.1 then r.2.swapExtent x k ord e out else r) r) (true, s)

/-- Whether two slots use common Griddle bytes of a cluster. -/
def slotsClash (a b : Slot) : Bool :=
  Nat.land a.clusters b.clusters ≠ 0 && a.extents.any (fun e => b.extents.any (fun f => overlaps e.goff e.len f.goff f.len))

/-- Make a slot resident (R156): each resident slot whose bytes it takes is written out first, then its state is read in. -/
def State.swapIn (s : State) (slot : Nat) : State :=
  match Sparse.find s.slots slot with
  | none => s
  | some x =>
    if x.resident then s
    else
      let outs := s.slots.filter (fun p => p.2.resident && slotsClash p.2 x)
      let (ok, s) := outs.foldl (fun (r : Bool × State) p =>
        if !r.1 then r
        else
          let (ok, s) := r.2.swapSlot p.2 true
          (ok, ({ s with slots := Sparse.update s.slots p.1 (fun y => { y with resident := false }) }).slotRegs p.1)) (true, s)
      if !ok then s
      else
        let (ok, s) := s.swapSlot x false
        if ok then { s with slots := Sparse.update s.slots slot (fun y => { y with resident := true }) } else s

/-- STEP_BOUNDARY (R394 to R396). -/
def execStepBoundary (q : Fin 64) (s : State) : Ans := .next (s.stepBoundary q.val (fun slot s => s.swapIn slot))

end Sys2Proof.Machine
end

