-- ==== Sys2Proof/Machine/Copy.lean ====
section
/-! DEFINITION. L2 maintenance (R160 to R162, R349) and the copy engine (R166 to R169, R348, R378). -/

namespace Sys2Proof.Machine

/-! ## L2 maintenance -/

/-- Whether an operation works on a range. -/
def rangeOp (op : Nat) : Bool := 3 ≤ op && op ≤ 6

/-- BUSY while an operation runs; PEND while the register path holds one that waits (R172). -/
def State.maintRegs (s : State) : State :=
  let q := s.l2.queue
  let pend := (q.drop 1).any (fun m => m.unit.isNone)
  (s.setFld Reg.L2C_MAINT_STATUS 0 0 (if q.isEmpty then 0 else 1)).setFld Reg.L2C_MAINT_STATUS 1 1 (if pend then 1 else 0)

/-- Queue a maintenance operation (R161). -/
def State.maintAdd (s : State) (m : L2Maint) : State :=
  ({ s with l2 := { s.l2 with queue := s.l2.queue ++ [m] } }).maintRegs

/-- A write to L2C_MAINT_CMD (R161, R172): OP is replaced; GO queues the operation or sets REJECT. -/
def State.maintCmd (s : State) (v : Word) : State :=
  let op := bits v.toNat 3 1
  let s := s.setReg Reg.L2C_MAINT_CMD (BitVec.ofNat 32 (op * 2))
  if !bit v.toNat 0 then s
  else
    let a := (s.reg Reg.L2C_MAINT_ADDR_LO).toNat + s.fld Reg.L2C_MAINT_ADDR_HI 7 0 * 2 ^ 32
    let n := (s.reg Reg.L2C_MAINT_LINES).toNat
    if s.flag Reg.L2C_MAINT_STATUS 1 || op == 0 || op == 7 || (rangeOp op && (a % 128 ≠ 0 || n == 0)) then
      s.setFlag Reg.L2C_MAINT_STATUS 2
    else s.maintAdd ⟨op, a, n, none⟩

/-- One row of the register path: the write carries its OP and GO. -/
def State.maintRow (s : State) (v : Word) (op : Nat) : Ans :=
  if s.uncRuns && bit v.toNat 0 && bits v.toNat 3 1 == op then .next (s.maintCmd v) else .next s

/-- L2_FLUSH_ALL (R161). -/
def execL2FlushAll (v : Word) (s : State) : Ans := s.maintRow v 1
/-- L2_FLUSH_INVAL_ALL (R161). -/
def execL2FlushInvalAll (v : Word) (s : State) : Ans := s.maintRow v 2
/-- L2_FLUSH_RANGE (R161). -/
def execL2FlushRange (v : Word) (s : State) : Ans := s.maintRow v 3
/-- L2_FLUSH_INVAL_RANGE (R161). -/
def execL2FlushInvalRange (v : Word) (s : State) : Ans := s.maintRow v 4
/-- L2_INVAL_RANGE (R161). -/
def execL2InvalRange (v : Word) (s : State) : Ans := s.maintRow v 5
/-- L2_ZERO_RANGE (R160). -/
def execL2ZeroRange (v : Word) (s : State) : Ans := s.maintRow v 6

/-- L2C_WAYMASK_WRITE (R162): the register takes the value; while a full flush runs or waits, the ways in force stay those of before. -/
def execL2cWaymaskWrite (c : Fin 16) (v : Word) (s : State) : Ans :=
  if !s.uncRuns then .next s
  else
    let n := flushDepth s.l2.queue
    let old := s.wayMask c.val
    let s := s.setReg (Reg.L2C_WAYMASK c.val) (BitVec.ofNat 32 (v.toNat % 65536))
    if n = 0 then .next s
    else .next ({ s with l2 := { s.l2 with
      oldMask := Sparse.put s.l2.oldMask c.val old, maskWait := max n s.l2.maskWait } }.setFlag Reg.L2C_MAINT_STATUS 3)

/-- L2_MAINT_COMPLETE (R161): the operation at the head has its effect and completes; a unit's last page posts its entry. -/
def execL2MaintComplete (s : State) : Ans :=
  match s.l2.queue with
  | [] => .next s
  | m :: rest =>
    if !s.uncRuns || s.srcStalled 0x20 0 then .next s
    else
      let s := s.l2Do m.op m.addr m.lines
      let s := ({ s with l2 := { s.l2 with queue := rest } }).maintRegs
      let s := match m.unit with
        | none => s.setFlag Reg.L2C_MAINT_STATUS 4
        | some (q, seq) => if rest.any (fun x => x.unit = some (q, seq)) then s else s.ladleDue ⟨q, seq, 0, 0x20, 0⟩
      .next (s.maskLeft (s.l2.maskWait - 1))

/-- Translate a maintenance range page by page (R349): the operations on its pages' lines, or the failure. A page in host
memory has no lines in the L2 (R19). -/
def State.maintPages (s : State) (c op va lines q seq : Nat) : Option VFail × List L2Maint × State :=
  (pagesOf va (lines * 128)).foldl (fun (f, ms, s) (a, k) =>
    match f with
    | some f => (some f, ms, s)
    | none =>
      match s.xlate .command c a (if op = 6 then .write else .read) with
      | (.fault f, s) => (some (.xlate a f), ms, s)
      | (.ok o, s) =>
        match o.cls with
        | .device => if s.ctxMayAccess c o.out then (none, ms ++ [⟨op, o.out, k / 128, some (q, seq)⟩], s) else (some (.prot a o.out), ms, s)
        | _ => (none, ms, s)) (none, [], s)

/-- L2_MAINT (R349): CC_MAINT for a reserved OP, a range without lines or not line-aligned. -/
def execL2Maint (p : Pkt) (s : State) : Ans :=
  let op := pw p 0 % 8
  let a := pd p 1
  let n := pw p 3
  let bad := op == 0 || op == 7 || (rangeOp op && (a % 128 ≠ 0 || n == 0))
  s.withUnit p 0x20 true (.maint 0x20 p.body) (fun _ s => (if bad then 0x13 else 0, s)) true (fun u seq s =>
    let q := p.q.val
    if !rangeOp op then s.maintAdd ⟨op, 0, 0, some (q, seq)⟩
    else
      match s.maintPages u.ctx op a n q seq with
      | (some f, _, s) => s.accessFault u.ctx 0x02 .read f (some (q, seq))
      | (none, [], s) => s.ladleDue ⟨q, seq, 0, 0x20, 0⟩
      | (none, ms, s) => ms.foldl (fun s m => s.maintAdd m) s)

/-! ## Copies -/

/-- Bytes of a fill pattern. -/
def CopyOp.patSize (c : CopyOp) : Nat := c.patBytes

/-- Bytes from the start of a rectangle to its end (R167). -/
def CopyOp.extent (c : CopyOp) (pitch : Nat) : Nat := (c.height - 1) * pitch + c.width

/-- The operand check of R167 in its order; `op` is the OP field, `limit` the end of the address space. -/
def CopyOp.check (c : CopyOp) (op limit : Nat) (busy : Bool) : Nat :=
  let fill := op = 1
  if c.width = 0 ∨ c.height = 0 then 0x41
  else if 1048576 < c.width ∨ 65536 < c.height ∨ 16777216 < c.dpitch ∨ (!fill ∧ 16777216 < c.spitch) then 0x42
  else if 1 < c.height ∧ (c.dpitch < c.width ∨ (!fill ∧ c.spitch < c.width)) then 0x43
  else if !fill ∧ c.spitch ≠ c.dpitch ∧ overlaps c.src (c.extent c.spitch) c.dst (c.extent c.dpitch) then 0x44
  else if limit < c.dst + c.extent c.dpitch ∨ (!fill ∧ limit < c.src + c.extent c.spitch) then 0x45
  else if fill ∧ (c.dst % c.patBytes ≠ 0 ∨ c.width % c.patBytes ≠ 0) then 0x46
  else if busy then 0x47
  else if 1 < op then 0x48
  else 0

/-- Where copies read and write: the virtual addresses of a unit's context (queue, unit, context), or device physical ones. -/
def State.cpyRead (s : State) (c : Option (Nat × Nat × Nat)) (a n : Nat) : VRead × State :=
  match c with
  | some (_, _, c) => s.vread .copy c a n 9 false false
  | none => let (bs, p, s) := s.devRead 9 a n false; (.ok bs (if p then some a else none), s)

/-- Write one part of a row. -/
def State.cpyWrite (s : State) (c : Option (Nat × Nat × Nat)) (a : Nat) (bs : List Byte) : Option VFail × State :=
  match c with
  | some (q, seq, c) => s.vwriteBy q seq .copy c a 9 (full bs)
  | none => (none, s.devWrite 9 a (full bs) false)

/-- How a copy ends. -/
inductive CopyEnd where
  | ok
  | fail (access : AccessKind) (f : VFail)
  | poison (pa : Nat)
  deriving DecidableEq, Repr

/-- Write a row in traversal order, page by page; bytes after a failing one in that order are not written (R169). -/
def State.cpyRow (s : State) (c : Option (Nat × Nat × Nat)) (a : Nat) (bs : List Byte) (down : Bool) : CopyEnd × State :=
  let parts := pagesOf a bs.length
  (if down then parts.reverse else parts).foldl (fun (e, s) (x, k) =>
    match e with
    | .ok =>
      match s.cpyWrite c x ((bs.drop (x - a)).take k) with
      | (some f, s) => (.fail .write f, s)
      | (none, s) => (.ok, s.count64 Reg.CPY_BYTES_LO k)
    | e => (e, s)) (.ok, s)

/-- Perform a copy or fill (R166 to R169): rows upward, or downward and from the last byte where the destination overlaps the
source above it. -/
def State.cpyRun (s : State) (c : Option (Nat × Nat × Nat)) (o : CopyOp) : CopyEnd × State :=
  if o.fill then
    let pat := leBytes o.patBytes o.pat
    (List.range o.height).foldl (fun (e, s) i =>
      match e with
      | .ok => s.cpyRow c (o.dst + i * o.dpitch) ((List.range o.width).map (fun j => pat.getD (j % o.patBytes) 0)) false
      | e => (e, s)) (CopyEnd.ok, s)
  else if o.src = o.dst ∧ o.spitch = o.dpitch then (.ok, s)
  else
    let down := decide (o.src < o.dst) && overlaps o.src (o.extent o.spitch) o.dst (o.extent o.dpitch)
    let rows := List.range o.height
    (if down then rows.reverse else rows).foldl (fun (e, s) i =>
      match e with
      | .ok =>
        match s.cpyRead c (o.src + i * o.spitch) o.width with
        | (.fail f, s) => (.fail .read f, s)
        | (.ok _ (some pa), s) => (.poison pa, s)
        | (.ok bs none, s) => s.cpyRow c (o.dst + i * o.dpitch) bs down
      | e => (e, s)) (CopyEnd.ok, s)

/-! ## Channels (R378) -/

/-- Whether a queue holds a channel. -/
def State.hasChannel (s : State) (q : Nat) : Bool := s.sched.copies.any (fun p => p.1 ≠ 4 && p.2.q == q)

/-- The waiting copies that may take a channel: the oldest of each queue that holds none. -/
def State.copyReady (s : State) : List CopyRun :=
  (s.sched.copyWait.map (fun p => p.2)).foldl (fun out r =>
    if s.hasChannel r.q || out.any (fun x => x.q == r.q) then out else out ++ [r]) []

/-- Copy virtual time of a queue. -/
def State.copyV (s : State) (q : Nat) : Nat := match s.queue q with
  | some u => u.copyV
  | none => 0

/-- Whether a waiting copy goes before another: real-time queues by number, then least copy virtual time (ties by number). -/
def State.copyBefore (s : State) (a b : CopyRun) : Bool :=
  match s.isRt a.q, s.isRt b.q with
  | true, true => a.q < b.q
  | true, false => true
  | false, true => false
  | false, false => s.copyV a.q < s.copyV b.q || (s.copyV a.q == s.copyV b.q && a.q < b.q)

/-- The best of a list of waiting copies. -/
def State.bestCopy (s : State) : List CopyRun → Option CopyRun
  | [] => none
  | a :: t => match s.bestCopy t with
    | some b => if s.copyBefore b a then some b else some a
    | none => some a

/-- Give free channels to waiting copies (R378), not one whose entry the full Ladle has not accepted (R165); `fuel` is the number of
channels. -/
def State.copyArb (s : State) : Nat → State
  | 0 => s
  | n + 1 =>
    match (List.range 4).find? (fun c => (Sparse.find s.sched.copies c).isNone && !s.srcStalled 0x23 c), s.bestCopy s.copyReady with
    | some c, some r =>
      let r' : CopyRun := { r with suspended := false }
      ({ s with sched := { s.sched with
        copies := Sparse.put s.sched.copies c r',
        copyWait := s.sched.copyWait.filter (fun p => !(p.2.q == r.q && p.2.seq == r.seq)) } }).copyArb n
    | _, _ => s

/-- The operands of a COPY packet (R348). -/
def copyOf (p : Pkt) : CopyOp :=
  ⟨bits (pw p 8) 2 1 == 1, 2 ^ bits (pw p 8) 5 4, pd p 0, pd p 2, pw p 4, pw p 5, pw p 6, pw p 7, pd p 9⟩

/-- COPY and COPY_FILL (R348): checked, then the queue waits for a channel. -/
def State.copyPkt (s : State) (p : Pkt) (fill : Bool) : Ans :=
  let c := copyOf p
  s.withUnit p 0x08 (c.fill == fill) (.copy c)
    (fun _ s => (c.check (bits (pw p 8) 2 1) (2 ^ 48) false, s)) true
    (fun u seq s =>
      let r : CopyRun := ⟨p.q.val, seq, u.ctx, c, false⟩
      ({ s with sched := { s.sched with copyWait := s.sched.copyWait ++ [(p.q.val, r)] } }).copyArb 4)

/-- COPY (R348). -/
def execCopy (p : Pkt) (s : State) : Ans := s.copyPkt p false
/-- COPY_FILL (R348). -/
def execCopyFill (p : Pkt) (s : State) : Ans := s.copyPkt p true

/-- The operands of the direct path (R173). -/
def State.directCopy (s : State) (v : Nat) : CopyOp :=
  let a (lo : Nat) := (s.reg lo).toNat + s.fld (lo + 4) 7 0 * 2 ^ 32
  ⟨bits v 2 1 == 1, 2 ^ bits v 5 4, a Reg.CPY_SRC_LO, a Reg.CPY_DST_LO, (s.reg Reg.CPY_SPITCH).toNat, (s.reg Reg.CPY_DPITCH).toNat,
   (s.reg Reg.CPY_WIDTH).toNat, (s.reg Reg.CPY_HEIGHT).toNat, s.reg64 Reg.CPY_PAT_LO⟩

/-- Whether a byte range touches an enabled protected range (R571). -/
def State.touchesProt (s : State) (a n : Nat) : Bool :=
  (List.range 4).any (fun k =>
    s.flag (Reg.ERR_PROT_BASE k) 31
      && overlaps a n (s.fld (Reg.ERR_PROT_BASE k) 18 0 * 65536)
        ((s.fld (Reg.ERR_PROT_LIMIT k) 18 0 + 1 - s.fld (Reg.ERR_PROT_BASE k) 18 0) * 65536))

/-- A write to CPY_CTRL (R167, R173): OP and PATSZ are replaced; GO checks and starts a direct operation. A range in protected
memory is CC_CPY_RANGE (R571). -/
def State.cpyCmd (s : State) (v : Word) : State :=
  let v := v.toNat
  let s := s.setReg Reg.CPY_CTRL (BitVec.ofNat 32 (bits v 2 1 * 2 + bits v 5 4 * 16))
  if !bit v 0 then s
  else
    let c := s.directCopy v
    let op := bits v 2 1
    let prot := s.touchesProt c.dst (c.extent c.dpitch) || (!c.fill && s.touchesProt c.src (c.extent c.spitch))
    let code := c.check op (if prot then 0 else s.usable) (s.flag Reg.CPY_STATUS 0)
    let s := s.setFld Reg.CPY_STATUS 15 8 code
    if code ≠ 0 then s
    else ({ s with sched := { s.sched with copies := Sparse.put s.sched.copies 4 ⟨64, 0, 32, c, false⟩ } }).setFlag Reg.CPY_STATUS 0

/-- CPY_COPY (R167): a write of CPY_CTRL with GO and any OP but fill. -/
def execCpyCopy (v : Word) (s : State) : Ans :=
  if s.uncRuns && bit v.toNat 0 && bits v.toNat 2 1 ≠ 1 then .next (s.cpyCmd v) else .next s

/-- CPY_FILL (R167). -/
def execCpyFill (v : Word) (s : State) : Ans :=
  if s.uncRuns && bit v.toNat 0 && bits v.toNat 2 1 == 1 then .next (s.cpyCmd v) else .next s

/-- COPY_COMPLETE (R166, R169): the copy on a channel, 0 to 3 or the direct path's, has been performed. -/
def execCopyComplete (ch : Fin 5) (s : State) : Ans :=
  let s := s.copyArb 4
  match Sparse.find s.sched.copies ch.val with
  | none => .next s
  | some r =>
    if !s.uncRuns || s.sched.quench.isSome then .next s
    else
      let s := { s with sched := { s.sched with copies := Sparse.drop s.sched.copies ch.val } }
      if ch.val = 4 then
        let (e, s) := s.cpyRun none r.op
        let s := s.clearFlag Reg.CPY_STATUS 0
        match e with
        | .ok => .next (s.setFlag Reg.CPY_STATUS 1)
        | .poison pa =>
          let s := (s.setFlag Reg.CPY_STATUS 2).countSat Reg.L2C_ECC_COUNT 31 16 1
          .next (s.rec0 0x0302 0x20 2 (pa % 2 ^ 32) (pa / 2 ^ 32))
        | .fail .. => .next (s.setFlag Reg.CPY_STATUS 2)
      else
        let (e, s) := s.cpyRun (some (r.q, r.seq, r.ctx)) r.op
        let fu := some (r.q, r.seq)
        let s := match e with
          | .ok => s.ladleDue ⟨r.q, r.seq, 0, 0x23, ch.val⟩
          | .fail k f => s.accessFault r.ctx 0x23 k f fu
          | .poison pa => s.poisonFault r.ctx pa fu
        .next (s.copyArb 4)

/-- COPY_SUSPEND (R378): a waiting real-time copy takes the channel of the normal copy whose queue has the greatest copy virtual
time, all four channels being held by normal copies; the suspended copy stays before later ones of its queue (R166). -/
def execCopySuspend (q : Fin 64) (s : State) : Ans :=
  let s := s.copyArb 4
  let held := s.sched.copies.filter (fun p => p.1 ≠ 4)
  if !s.isRt q.val || !(s.copyReady.any (fun r => r.q == q.val)) || held.length ≠ 4 || held.any (fun p => s.isRt p.2.q) then .next s
  else
    match held.foldl (fun (b : Option (Nat × CopyRun)) p => match b with
        | some x => if s.copyV x.2.q < s.copyV p.2.q then some p else b
        | none => some p) none with
    | none => .next s
    | some (c, r) =>
      let r' : CopyRun := { r with suspended := true }
      .next (({ s with sched := { s.sched with
        copies := Sparse.drop s.sched.copies c, copyWait := (r.q, r') :: s.sched.copyWait } }).copyArb 4)

end Sys2Proof.Machine
end

