-- ==== Sys2Proof/Machine/Sched.lean ====
section
/-! DEFINITION. Scheduling (chapter 10): charged time, virtual time, the start of dispatches, placement of blocks, the real-time
reserve (R346, R347, R373 to R383). -/

namespace Sys2Proof.Machine

/-! ## Charged time (R373 to R375) -/

/-- Fractions of a core-tick and of virtual time are counted in units of one over this number: every share and every number of
groups divides it, so nothing is lost to rounding. -/
def chargeUnit : Nat :=
  (List.range 255).foldl (fun a i => Nat.lcm a (i + 1)) 1 * (List.range 64).foldl (fun a i => Nat.lcm a (i + 1)) 1

/-- A queue's SHARE, at least 1. -/
def State.share (s : State) (q : Nat) : Nat := max 1 (s.fld (Reg.SCH_Q_CTRL q) 7 0)

/-- Charge a part of a core-tick to a context's compute counter (R374); what is short of a whole tick is carried. -/
def State.chargeCtx (s : State) (c part : Nat) : State := match s.ctx c with
  | none => s
  | some x =>
    let t := x.cmpRem + part
    { s with ctxs := Sparse.put s.ctxs c { x with cmpRem := t % chargeUnit } }.count64 (Reg.SCH_CTX_CMP_LO c) (t / chargeUnit)

/-- Charge `num / den` of a core-tick to a queue on a cluster: its counters, its context's, its virtual time, its reserve usage. -/
def State.charge (s : State) (k q num den : Nat) (gfx : Bool) : State :=
  match s.queue q with
  | none => s
  | some u =>
    let part := chargeUnit * num / den
    let t := u.timeRem + part
    let v := u.vRem + 256 * chargeUnit * num / (s.share q * den)
    let s := s.setQueue q { u with
      timeRem := t % chargeUnit, v := u.v + v / chargeUnit, vRem := v % chargeUnit }
    let s := s.count64 (Reg.SCH_Q_TIME_LO q) (t / chargeUnit)
    let s := if gfx then s.count64 (Reg.SCH_CTX_GFX_LO u.ctx) (part / chargeUnit) else s.chargeCtx u.ctx part
    let c := s.cluster k
    s.setCluster k { c with usage := Sparse.bump c.usage q part }

/-- The queues whose groups a core holds, with their numbers of groups. -/
def Core.holders (c : Core) : List (Nat × Nat) :=
  c.groups.foldl (fun m g => match Sparse.find c.blocks g.2.block with
    | some b => Sparse.bump m b.q 1
    | none => m) []

/-- One tick of every core (R373). -/
def State.chargeCores (s : State) : State :=
  s.clusters.foldl (fun s p =>
    if p.2.mode = .graphics then
      match p.2.gfxUnit with
      | some (q, _) => s.charge p.1 q 4 1 true
      | none => s
    else s) (s.cores.foldl (fun s p =>
      if (s.cluster (p.1 / 4)).mode = .graphics then s
      else
        let hs := p.2.holders
        let n := (hs.map (fun h => h.2)).sum
        hs.foldl (fun s h => s.charge (p.1 / 4) h.1 h.2 n false) s) s)

/-- One tick of every channel that holds a queue's copy (R374, R378). -/
def State.chargeCopies (s : State) : State :=
  s.sched.copies.foldl (fun s p =>
    match s.queue p.2.q with
    | none => s
    | some u =>
      let v := u.copyRem + 256 * chargeUnit / s.share p.2.q
      (s.setQueue p.2.q { u with copyV := u.copyV + v / chargeUnit, copyRem := v % chargeUnit }).count64 (Reg.SCH_CTX_CPY_LO u.ctx) 1) s

/-- Whether nothing keeps the S840 from A1 (R526): no started unit, preempted block, copy, L2 maintenance, DMC commit, remap, Tongs
program or flash operation. -/
def State.a1Quiet (s : State) : Bool :=
  !s.queues.any (fun p => p.2.units.any (fun w => w.started.isSome)) && !s.clusters.any (fun p => !p.2.saved.isEmpty)
    && s.sched.copies.isEmpty && s.l2.queue.isEmpty && s.fld Reg.DMC_STATUS 1 0 == 0
    && !s.clusters.any (fun p => p.2.tongsN.isSome || p.2.tongsR.isSome) && !s.flag Reg.CFG_FL_STATUS 0

/-- A unit that can start returns the S840 from A1 to A0 (R526); the patrol scrub goes on where it is enabled (R477). -/
def State.a1Exit (s : State) : State :=
  if s.fld Reg.PWR_STATUS 1 0 = 1 then
    let s := s.setFld Reg.PWR_STATUS 1 0 0
    if s.flag Reg.DMC_SCRUB_CTRL 0 then s.clearFlag Reg.DMC_STATUS 2 else s
  else s

/-- In one tick a channel without a new request holds its transactions or completes some of them (R463, log entry 80). -/
def State.drainInflight (s : State) (ch : Nat) : State :=
  let a := Reg.DMC_CH_INFLIGHT ch
  if s.fld a 8 0 = 0 then s
  else
    let (n, s) := s.drawNat
    s.setFld a 8 0 (n % (s.fld a 8 0 + 1))

/-- One tick of the counters of clock cycles (R165, R171): the Ladle's stalls, and the waits of the Tongs engines; and of the channels'
transactions. -/
def State.tickCounters (s : State) : State :=
  let s := (List.range 16).foldl State.drainInflight s
  let s := if 256 ≤ s.sched.ladle.length && !s.sched.stalled.isEmpty then s.countCycles Reg.L2C_LADLE_STALL_LO else s
  let waits (t : Option Tongs) : Bool := t.any (fun t => t.run = .waitFree || t.run = .waitFilled)
  (s.clusters.filter (fun p => waits p.2.tongsN || waits p.2.tongsR)).foldl (fun s p => s.countCycles (Reg.CLU_TNG_WAIT_LO p.1)) s

/-- TIME_BASE_TICK (R7, R25, R373): in A0 and A1 the time base counts TBCLK. -/
def execTimeBaseTick (s : State) : Ans :=
  if s.hearthKeeps then .next s
  else
    let s := if s.a1Quiet then s else s.a1Exit
    .next ({ s with
    time := (s.time + 1) % 2 ^ 64,
    pwr := { s.pwr with idle := if s.a1Quiet then s.pwr.idle + 1 else 0 } }.chargeCores.chargeCopies.tickCounters)

/-! ## Placeable queues (R375) -/

/-- Clusters of a kernel's mask; a fenced one counts as absent (R509). -/
def State.kernelClusters (s : State) (kn : Kernel) : List Nat :=
  (setBitsOf 12 kn.clusters).filter (fun k => !s.flag Reg.GLB_REPAIR k)

/-- Whether a preempted block of a unit waits to resume. -/
def State.hasSaved (s : State) (q seq : Nat) : Bool :=
  s.clusters.any (fun p => p.2.saved.any (fun b => b.block.q == q && b.block.seq == seq && b.block.stage.isNone))

/-- Started dispatches of a queue with a block to place or to resume, oldest first. -/
def State.placeables (s : State) (q : Nat) : List (Nat × Kernel) := match s.queue q with
  | none => []
  | some u => u.units.filterMap (fun w => match w.kernel, w.started, w.status with
    | some kn, some _, none => if kn.next < kn.total || s.hasSaved q w.seq then some (w.seq, kn) else none
    | _, _, _ => none)

/-- Whether a queue is placeable. -/
def State.placeable (s : State) (q : Nat) : Bool := !(s.placeables q).isEmpty

/-- The least of a list. -/
def least : List Nat → Option Nat
  | [] => none
  | a :: t => match least t with
    | some b => some (min a b)
    | none => some a

/-- Queues that have become placeable have V raised to the least V of those that already were, and start waiting; others stop. -/
def State.placeSync (s : State) : State :=
  let old := s.queues.filter (fun p => p.2.placeableSince.isSome && s.placeable p.1)
  let floor := (least (old.map (fun p => p.2.v))).getD 0
  s.queues.foldl (fun s p =>
    match s.queue p.1 with
    | none => s
    | some u =>
      if s.placeable p.1 then
        if u.placeableSince.isSome then s
        else s.setQueue p.1 { u with placeableSince := some s.time, v := max u.v floor,
                                     vRem := if u.v < floor then 0 else u.vRem }
      else if u.placeableSince.isSome then s.setQueue p.1 { u with placeableSince := none } else s) s

/-! ## Dispatch (R346, R347) -/

/-- The operands of a DISPATCH packet (R346). A field that must be 0 and is not makes its words' check fail: those of word 7 with
the register count, those of word 15 with the cluster mask. -/
def kernelOf (p : Pkt) : Kernel :=
  let w7 := pw p 7
  { code := pd p 0, args := pd p 2, gx := pw p 4, gy := bits (pw p 5) 15 0, gz := bits (pw p 5) 31 16,
    dx := bits (pw p 6) 10 0, dy := bits (pw p 6) 21 11, dz := bits (pw p 6) 31 22,
    regs := bits w7 7 0 + (if bits w7 15 11 ≠ 0 ∨ bits w7 31 26 ≠ 0 then 256 else 0),
    split := bits w7 10 8, shared := bits w7 25 16, griddle := pd p 8, tongs := pd p 10, tongsArg := pd p 12,
    clusters := pw p 14 + (if pw p 15 / 2 ≠ 0 then 4096 else 0), indirect := bit (pw p 15) 0, deadline := pd p 16,
    gridAddr := pd p 18, bufs := [], hostBase := 0, devBase := 0, winGiB := 0, next := 0, live := 0 }

/-- DISPATCH (R346): decoded; it starts with DISPATCH_START. -/
def execDispatch (p : Pkt) (s : State) : Ans :=
  s.withUnit p 0x01 true (.dispatch (kernelOf p)) (fun _ s => (0, s)) false (fun _ _ s => s)

/-- Whether grid dimensions are in range. -/
def gridOk (x y z : Nat) : Bool := 1 ≤ x && x < 2 ^ 32 && 1 ≤ y && y ≤ 65535 && 1 ≤ z && z ≤ 65535

/-- CC_KRN_SHAPE: words 4 to 7, CODE and ARGS (R346). -/
def Kernel.shapeBad (k : Kernel) : Bool :=
  k.code % 8 ≠ 0 || 2 ^ 48 ≤ k.code || k.args % 64 ≠ 0 || 2 ^ 48 ≤ k.args || (!k.indirect && !gridOk k.gx k.gy k.gz)
    || k.dx == 0 || 1024 < k.dx || k.dy == 0 || 1024 < k.dy || k.dz == 0 || 64 < k.dz || 1024 < k.dx * k.dy * k.dz
    || k.regs == 0 || 255 < k.regs

/-- One Griddle buffer descriptor (R134's table), or none where a field is out of range. -/
def parseBuf (b : List Byte) : Option GrdBuf :=
  let w0 := wordAt b 0
  let w1 := wordAt b 4
  let w2 := wordAt b 8
  let kind := bits w0 17 16
  let slots := bits w1 20 16
  let count := bits w2 7 0
  let shape := if kind = 1 then slots == 0 && count == 0
    else if kind = 0 then true
    else 2 ≤ slots && slots ≤ 16 && 1 ≤ count && count ≤ 128
  if bits w0 31 18 ≠ 0 || bits w1 31 21 ≠ 0 || bits w2 31 8 ≠ 0 || wordAt b 12 ≠ 0 || !shape then none
  else some ⟨bits w0 15 0, kind, bits w1 15 0, slots, count⟩

/-- Size of a buffer in 256-byte units. -/
def GrdBuf.size (b : GrdBuf) : Nat := if b.kind = 0 then 0 else if b.kind = 1 then b.units else b.units * b.slots

/-- A kernel's scratch in 256-byte units. -/
def scratchUnits (bs : List GrdBuf) : Nat := (bs.map (fun b => if b.kind = 0 then 0 else b.base + b.size)).foldl max 0

/-- Whether no two buffers of a layout overlap. -/
def bufsApart : List GrdBuf → Bool
  | [] => true
  | b :: t => !t.any (fun c => overlaps b.base b.size c.base c.size) && bufsApart t

/-- Blocks of a kernel a core holds (R50). -/
def Kernel.blocksPerCore (k : Kernel) : Nat :=
  let byRegs := min 64 (2048 / allocOf k.regs) / k.groups
  min 32 (if k.shared = 0 then byRegs else min byRegs (k.split * 128 / k.shared))

/-- Units of 256 bytes in the region a queue's scratch lies in on a cluster. -/
def State.regionUnits (s : State) (k : Nat) (rt : Bool) : Nat :=
  let r := (s.cluster k).region
  (if rt then grdRts r else grdNormal r) * 256

/-- LAUNCH_RESOURCE (R50, R138): no cluster of the mask can ever hold a block. -/
def State.launchImpossible (s : State) (q : Nat) (kn : Kernel) : Bool :=
  kn.blocksPerCore == 0
    || (s.kernelClusters kn).all (fun k => s.regionUnits k (s.isRt q) < scratchUnits kn.bufs)

/-- The kernel's context faults before any block starts (R50). -/
def State.launchFault (s : State) (q seq c : Nat) : State :=
  (s.recC 0x010C 0x02 2 c q seq).contextFault c 0x010C 0x02 (some (q, seq))

/-- A unit that ends at its start: refused, cancelled or done (R345, R347). -/
def State.endAtStart (s : State) (q : Nat) (w : WorkUnit) (outcome code : Nat) : State :=
  match s.queue q with
  | none => s
  | some u =>
    let u := if outcome = 1 then u.refuse w.startPtr (256 + code) else u
    let s := (s.setQueue q u).updUnit q w.seq (fun w => { w with started := some s.time, limit := s.fld (Reg.SCH_Q_CTRL q) 31 16 })
    let s := if outcome = 1 then s.passMark q u code else s
    ((s.completeUnit q w.seq outcome code).endStream q).updStatus q

/-- What a failed read of the command processor does. -/
def State.cpFail (s : State) (c : Nat) (f : Option VFail) (pa : Option Nat) (fu : Option (Nat × Nat)) : State :=
  match f, pa with
  | some f, _ => s.accessFault c 0x02 .read f fu
  | none, some pa => s.poisonFault c pa fu
  | none, none => s

/-- Read bytes for the command processor; none after a fault. -/
def State.cpBytes (s : State) (c va n : Nat) (fu : Option (Nat × Nat)) : Option (List Byte) × State :=
  match s.vread .command c va n cpClass false false with
  | (.fail f, s) => (none, s.cpFail c (some f) none fu)
  | (.ok _ (some pa), s) => (none, s.cpFail c none (some pa) fu)
  | (.ok bs none, s) => (some bs, s)

/-- The Griddle layout of a kernel (R346): its buffers, none where CC_KRN_GRIDDLE, or a fault. -/
def State.readLayout (s : State) (c : Nat) (kn : Kernel) (fu : Option (Nat × Nat)) : Option (Option (List GrdBuf)) × State :=
  if kn.griddle % 64 ≠ 0 ∨ 2 ^ 48 ≤ kn.griddle ∨ kn.tongs % 16 ≠ 0 ∨ 2 ^ 48 ≤ kn.tongs ∨ 2 ^ 48 ≤ kn.tongsArg
      ∨ (kn.tongs ≠ 0 ∧ kn.griddle = 0) then (some none, s)
  else if kn.griddle = 0 then (some (some []), s)
  else match s.cpBytes c kn.griddle 256 fu with
    | (none, s) => (none, s)
    | (some bs, s) =>
      let ds := (List.range 16).map (fun i => parseBuf ((bs.drop (16 * i)).take 16))
      let ok := ds.filterMap id
      if ok.length = 16 ∧ bufsApart ok then (some (some ok), s) else (some none, s)

/-- The grid of a dispatch that starts: its own, or read from GRID_ADDR; none after a fault. -/
def State.readGrid (s : State) (c : Nat) (kn : Kernel) (fu : Option (Nat × Nat)) : Option (Nat × Nat × Nat) × State :=
  if !kn.indirect then (some (kn.gx, kn.gy, kn.gz), s)
  else match s.cpBytes c kn.gridAddr 12 fu with
    | (none, s) => (none, s)
    | (some bs, s) => (some (wordAt bs 0, wordAt bs 4, wordAt bs 8), s)

/-- Start a dispatch that has passed its checks. -/
def State.dispatchGo (s : State) (q : Nat) (w : WorkUnit) (c : Nat) (kn : Kernel) (x : Xlat) : State :=
  let kn := { kn with hostBase := x.hostBase, devBase := x.devBase, winGiB := if x.hostEn then x.winGiB else 0 }
  if s.launchImpossible q kn then s.launchFault q w.seq c
  else (s.updUnit q w.seq (fun w => { w with
    started := some s.time, limit := s.fld (Reg.SCH_Q_CTRL q) 31 16, kind := .dispatch kn })).placeSync

/-- The start of a dispatch (R343, R347): the dispatch of a queue that may start is checked, cancelled, or becomes placeable. -/
def State.dispatchStart (s : State) (q : Fin 64) : Ans :=
  let q := q.val
  match s.queue q with
  | none => .next s
  | some u =>
    match u.units.find? (fun w => w.started.isNone) with
    | none => .next s
    | some w =>
      match w.kernel, s.ctx u.ctx with
      | some kn, some cx =>
        let earlier := u.units.filter (fun x => x.seq ≠ w.seq && (!w.inStep || x.inStep))
        let may := s.uncRuns && s.coresTake && s.qState q == 1 && s.fld (Reg.CPR_CTX_STATUS u.ctx) 1 0 == 1 && s.sched.quench.isNone
          && (!w.order || earlier.all (fun x => x.status.isSome)) && u.inflight < 16
        if !may then .next s
        else
          let s := s.a1Exit
          let c := u.ctx
          let fu := some (q, w.seq)
          if kn.shapeBad then .next (s.endAtStart q w 1 0x0A)
          else if 5 < kn.split || kn.split * 128 < kn.shared then .next (s.endAtStart q w 1 0x0B)
          else match s.readLayout c kn fu with
            | (none, s) => .next s
            | (some none, s) => .next (s.endAtStart q w 1 0x0C)
            | (some (some bufs), s) =>
              let kn := { kn with bufs := bufs }
              if 4096 ≤ kn.clusters || (s.kernelClusters kn).isEmpty || (kn.indirect && (kn.gridAddr % 4 ≠ 0 || 2 ^ 48 ≤ kn.gridAddr)) then
                .next (s.endAtStart q w 1 0x0D)
              else match s.readGrid c kn fu with
                | (none, s) => .next s
                | (some (x, y, z), s) =>
                  if x = 0 ∨ y = 0 ∨ z = 0 then .next (s.endAtStart q w 0 0)
                  else if !gridOk x y z then .next (s.endAtStart q w 1 0x0A)
                  else if kn.deadline ≠ 0 ∧ kn.deadline < s.time then .next (s.endAtStart q w 3 0)
                  else .next (s.dispatchGo q w c { kn with gx := x, gy := y, gz := z } cx.xlat)
      | _, _ => .next s

/-! ## Placement (R44, R138, R157, R376) -/

/-- Whether a real-time queue is below its reserve on a cluster (R381). -/
def State.belowReserve (s : State) (k q : Nat) : Bool :=
  s.isRt q && s.qState q ≠ 0
    && Sparse.get (s.cluster k).usage 0 q * 100 < s.fld (Reg.SCH_Q_STATUS q) 5 0 * 4 * us s.sched.windowLen * chargeUnit

/-- The oldest started dispatch of a queue whose mask includes a cluster. -/
def State.candidate (s : State) (k q : Nat) : Option (Nat × Kernel) :=
  (s.placeables q).find? (fun p => (s.kernelClusters p.2).contains k)

/-- Insert a queue by a key. -/
def insertKey (x : Nat × Nat) : List (Nat × Nat) → List (Nat × Nat)
  | [] => [x]
  | y :: t => if x.1 < y.1 ∨ (x.1 = y.1 ∧ x.2 ≤ y.2) then x :: y :: t else y :: insertKey x t

/-- Queues sorted by a key, then by number. -/
def sortKey (l : List (Nat × Nat)) : List Nat := (l.foldr insertKey []).map (fun p => p.2)

/-- Real-time queues below their reserve on a cluster with a dispatch for it, by deadline. -/
def State.reserveOrder (s : State) (k : Nat) : List Nat :=
  sortKey (s.queues.filterMap (fun p =>
    if s.belowReserve k p.1 then (s.candidate k p.1).map (fun (x : Nat × Kernel) => (if x.2.deadline = 0 then 2 ^ 64 else x.2.deadline, p.1))
    else none))

/-- The order of candidate queues on a cluster (R376); the duty of R548 leaves real-time queues alone. -/
def State.placeOrder (s : State) (k : Nat) : List Nat :=
  (fun l => if s.dutyGate then l.filter (fun q => s.isRt q) else l) <| s.reserveOrder k ++ sortKey (s.queues.filterMap (fun p => if (s.candidate k p.1).isSome then some (p.2.v, p.1) else none))

/-- A core's registers, groups and shared memory in use, in R47's and R50's units. -/
def Core.regsUsed (c : Core) : Nat := (c.groups.map (fun g => match Sparse.find c.blocks g.2.block with
  | some b => allocOf b.kernel.regs
  | none => 0)).sum
def Core.sharedUsed (c : Core) : Nat := (c.blocks.map (fun b => b.2.kernel.shared)).sum

/-- Whether a block of a kernel fits a core under R44, R50 and R157. -/
def State.coreFits (s : State) (core : Nat) (kn : Kernel) : Bool :=
  let c := s.core core
  let free := c.blocks.isEmpty && !(s.cluster (core / 4)).saved.any (fun b => b.core == core)
  c.blocks.length < 32 && c.groups.length + kn.groups ≤ 64 && c.regsUsed + kn.groups * allocOf kn.regs ≤ 2048
    && (c.split == kn.split || free) && c.sharedUsed + kn.shared ≤ kn.split * 128

/-- The lowest place for `n` units in a region of `limit` units beside the ranges in use (first unit and size), if there is one. -/
def lowestHole (used : List (Nat × Nat)) (n limit : Nat) : Option Nat :=
  least ((0 :: used.map (fun r => r.1 + r.2)).filter (fun a =>
    decide (a + n ≤ limit) && !used.any (fun r => overlaps a n r.1 r.2)))

/-- Where a kernel's scratch would be allocated on a cluster: the lowest place in its region that is free for all of it (R138; DESIGN
CHOICE, log entry 40). -/
def State.scratchHole (s : State) (k : Nat) (rt : Bool) (n : Nat) : Option Nat :=
  lowestHole (((s.cluster k).scratch.filter (fun x => x.rt == rt)).map (fun x => (x.base, x.size))) n (s.regionUnits k rt)

/-- Whether a kernel's scratch is allocated on a cluster or fits its region now, its Tongs context free (R138, R151). -/
def State.scratchFits (s : State) (k q seq : Nat) (kn : Kernel) : Bool :=
  let c := s.cluster k
  let rt := s.isRt q
  (c.scratchOf q seq).isSome || kn.griddle == 0
    || ((s.scratchHole k rt (scratchUnits kn.bufs)).isSome
        && (kn.tongs == 0 || (c.tongs rt).isNone || match c.tongs rt with
          | some t => t.run = .done
          | none => true))

/-- Whether a pass that was preempted on a cluster keeps its tile buffers in the cluster's normal region (R179). -/
def State.holdsTiles (s : State) (k : Nat) : Bool := s.gfx.passes.any (fun p => p.suspended.contains k)

/-- Whether a cluster may take a block of a dispatch: in compute mode, no unanswered preemption, no switch; a cluster being
drained takes only dispatches with normal scratch on it (R384; DEDUCED for real-time ones, log entry 72), and one that holds a suspended pass only real-time kernels (R179). -/
def State.clusterTakes (s : State) (k q seq : Nat) : Bool :=
  let c := s.cluster k
  s.cluOn && !s.flag Reg.GLB_REPAIR k && s.sched.quench.isNone && c.mode = .compute && c.preempt.isNone && c.switchTo.isNone
    && (c.drain.isNone || c.holdsNormal q seq) && (s.isRt q || !s.holdsTiles k)

/-- Allocate a kernel's scratch on a cluster, all zero, with the start of its Tongs program (R138, R151). -/
def State.allocScratch (s : State) (k q seq ctx : Nat) (kn : Kernel) : State :=
  let c := s.cluster k
  if kn.griddle = 0 ∨ (c.scratchOf q seq).isSome then s
  else
    let rt := s.isRt q
    let n := scratchUnits kn.bufs
    let x : Scratch := ⟨q, seq, ctx, rt, (s.scratchHole k rt n).getD 0, n, kn.bufs, [], []⟩
    let s := s.setCluster k { c with scratch := c.scratch ++ [x] }
    ((s.grdWipe k (s.scratchAt k q seq) (n * 256)).grdRegs k).tongsStart k rt q seq ctx kn

/-- The lowest free keys below a bound. -/
def freeKeys {α : Type} (m : List (Nat × α)) (bound n : Nat) : List Nat :=
  ((List.range bound).filter (fun i => (Sparse.find m i).isNone)).take n

/-- The lanes of group `g` of a block (R42, R43). -/
def Kernel.laneMask (kn : Kernel) (g : Nat) : Word := maskOf (List.range (min 32 (kn.dx * kn.dy * kn.dz - 32 * g)))

/-- The kernel that a core runs as its latest, of those whose blocks it holds: a block of another one starts a kernel on the core. -/
def Core.newKernel (c : Core) (q seq : Nat) : Bool := !c.kernels.contains (q, seq)

/-- Put a block with its groups on a core in the lowest free block slot and the lowest free group slots, in order of group number (R44;
of a block that resumes, the groups still alive: DESIGN CHOICE, log entry 38), setting the core's split. The L1 is invalidated where the
split changes, where the block resumes and where its kernel starts on the core (R82, R87, R92, R157). -/
def State.putOnCore (s : State) (core : Nat) (b : Block) (gs : List Group) (resume : Bool) : State :=
  let c := s.core core
  let bs := (freeKeys c.blocks 32 1).headD 0
  let slots := freeKeys c.groups 64 gs.length
  let still := c.kernels.filter (fun k => c.blocks.any (fun x => x.2.q == k.1 && x.2.seq == k.2))
  let fresh := resume || c.split ≠ b.kernel.split || c.newKernel b.q b.seq
  let c := { c with
    blocks := Sparse.put c.blocks bs b, split := b.kernel.split,
    l1 := if fresh then [] else c.l1,
    kernels := if still.contains (b.q, b.seq) then still else (b.q, b.seq) :: still,
    groups := (slots.zip gs).foldl (fun m (i, (g : Group)) => Sparse.put m i { g with block := bs }) c.groups }
  let s := s.setCore core c
  if resume then slots.foldl (fun s i => s.fenceCheck core i) s else s

/-- A group at its first instruction (R51). -/
def newGroup (num pc : Nat) (mask : Word) : Group := ⟨0, num, pc, mask, mask, [], [], [], .ready, [], none, none⟩

/-- A preempted block of a dispatch that may resume on a cluster: the cluster's own, or one saved in DRAM anywhere (R92, R139). -/
def State.savedFor (s : State) (k q seq : Nat) : Option (Nat × SavedBlock) :=
  let mine (b : SavedBlock) : Bool := b.block.q == q && b.block.seq == seq && b.block.stage.isNone
  match (s.cluster k).saved.find? mine with
  | some b => some (k, b)
  | none => s.clusters.findSome? (fun p =>
      (p.2.saved.find? (fun b => mine b && !b.inReserve && !b.bound)).map (fun b => (p.1, b)))

/-- Remove the first entry of a list that satisfies a test. -/
def dropFirst {α : Type} (f : α → Bool) : List α → List α
  | [] => []
  | a :: t => if f a then t else a :: dropFirst f t

/-- Whether normal work waits behind real-time work on a cluster (R383). -/
def State.rtWaits (s : State) (k : Nat) : Bool := !(s.reserveOrder k).isEmpty

/-- Note a real-time dispatch's first block on a cluster (SCH_CLUk_RTLAT, R390; DESIGN CHOICE, log entry 79). -/
def State.noteRt (s : State) (k q seq : Nat) (first : Bool) : State :=
  if s.isRt q && first && s.belowReserve k q then
    match (s.unitAt q seq).bind (fun w => w.started) with
    | some t => s.maxFld (Reg.SCH_CLU_RTLAT k) 15 0 (ceilDiv (s.time - t) 100)
    | none => s
  else s

/-- Bytes of a block's state (R91). -/
def Block.stateBytes (b : Block) : Nat := b.groups * (allocOf b.kernel.regs * 128 + 512) + b.kernel.shared * 256

/-- A block's saved state is read back for its resumption (R92, R140): from the reserve or from its section in DRAM; false where an
uncorrectable error or poison faults its context. -/
def State.readSaved (s : State) (j : Nat) (b : SavedBlock) : Bool × State :=
  let fu := some (b.block.q, b.block.seq)
  if b.inReserve then match s.grdMeet j b.block.ctx b.base b.block.stateBytes with
    | (true, s) => (false, s.contextFault b.block.ctx 0x0202 (0x10 + j) fu)
    | (false, s) => (true, s)
  else match s.devRead (s.blockClass b.block) b.base b.block.stateBytes false with
    | (_, true, s) => (false, s.poisonFault b.block.ctx b.base fu)
    | (_, false, s) => (true, s)

/-- Place a block of a queue's candidate dispatch on a core, if it fits; the answer says whether one was placed. Blocks of a grid start
in ascending linear index (R45; DESIGN CHOICE, log entry 39). -/
def State.placeFrom (s : State) (core q : Nat) : Bool × State :=
  let k := core / 4
  match s.candidate k q, s.queue q with
  | some (seq, kn), some u =>
    if s.launchImpossible q kn then (true, s.launchFault q seq u.ctx)
    else if !s.clusterTakes k q seq || !s.coreFits core kn || !s.scratchFits k q seq kn then (false, s)
    else
      let here := s.unitOnCluster k q seq
      match (if s.rtWaits k && !s.isRt q then none else s.savedFor k q seq) with
      | some (j, b) =>
        let c := s.cluster j
        let s := s.setCluster j { c with saved := dropFirst (fun x => decide (x = b)) c.saved }
        match s.readSaved j b with
        | (false, s) => (true, s)
        | (true, s) => (true, (s.putOnCore core b.block b.groups true).ringWake k q seq)
      | none =>
        if kn.next < kn.total then
          let s := s.allocScratch k q seq u.ctx kn
          let s := s.updKernel q seq (fun kn => { kn with next := kn.next + 1, live := kn.live + 1 })
          let b : Block := ⟨q, seq, u.ctx, kn.next, kn, kn.groups, [], [], [], none⟩
          let gs := (List.range kn.groups).map (fun g => newGroup g kn.code (kn.laneMask g))
          (true, (s.putOnCore core b gs false).noteRt k q seq (!here))
        else (false, s)
  | _, _ => (false, s)

/-- A queue whose block has been placed waits anew if it has more (R387). -/
def State.placedNow (s : State) (q : Nat) : State := match s.queue q with
  | some u => if u.placeableSince.isSome then s.setQueue q { u with placeableSince := some s.time } else s
  | none => s

/-! ## Preemption requests (R382, R387 to R389) -/

/-- Whether a cluster holds work of a normal queue: blocks, or in graphics mode a pass (R382). -/
def State.holdsNormalWork (s : State) (k : Nat) : Bool :=
  (s.clusterBlocks k).any (fun b => !s.isRt b.2.2.q)
    || ((s.cluster k).mode = .graphics && match (s.cluster k).gfxUnit with
      | some (q, _) => !s.isRt q
      | none => false)

/-- RESERVE_PREEMPT (R382): a real-time queue below its reserve has a block for the cluster, and no core there has room. -/
def State.reservePreempt (s : State) (k : Nat) : State :=
  let c := s.cluster k
  let blocked (q : Nat) : Bool := match s.candidate k q with
    | some (_, kn) => c.mode = .graphics || !(List.range 4).any (fun n => s.coreFits (4 * k + n) kn)
    | none => false
  if s.cluOn && s.sched.quench.isNone && c.preempt.isNone && (s.reserveOrder k).any blocked && s.holdsNormalWork k then
    let s := s.preemptAsk k .normal
    if c.mode = .graphics then s.setCluster k { s.cluster k with switchTo := some .compute } else s
  else s

/-- A program that a preemption stopped continues from where it stopped (R155), once its kernel may run on the cluster again (R383) and
no block of the kernel waits there to resume. -/
def State.tongsResume (s : State) (k : Nat) : State :=
  [true, false].foldl (fun s rt => match (s.cluster k).tongs rt with
    | none => s
    | some t =>
      if t.run ≠ .preempted || !s.clusterTakes k t.q t.seq || (!rt && s.rtWaits k)
        || (s.cluster k).saved.any (fun b => b.block.q == t.q && b.block.seq == t.seq) then s
      else
        let t := { t with run := .running }
        ((s.setCluster k ((s.cluster k).setTongs rt (some t))).tongsRegs k rt t 1).ringWake k t.q t.seq) s

/-- One placement decision for a core of a compute-mode cluster (R376, R382). -/
def State.placeOn (s : State) (core : Nat) : State :=
  let k := core / 4
  let s := s.tongsResume k
  let (done, s) := (s.placeOrder k).foldl (fun (r : Bool × State) q =>
    if r.1 then r
    else match r.2.placeFrom core q with
      | (true, s) => (true, s.placedNow q)
      | (false, s) => (false, s)) (false, s)
  if done then s.placeSync else s.reservePreempt k

/-! ## Answers (R90 to R92, R136, R388) -/

/-- Whether a group's issued instructions have all completed (R90): loads and atomics have answered, stores are acknowledged. -/
def Group.quiet (g : Group) : Bool := g.ops.isEmpty

/-- The blocks on a cluster that a request takes. -/
def State.taken (s : State) (k : Nat) (p : Preempt) : List (Nat × Nat × Block) :=
  (s.clusterBlocks k).filter (fun b => p.scopes.any (fun x => s.takes (s.cluster k) b.2.2 x))

/-- Take a block off its core: its slots are free, and a closing read of one of its groups is abandoned. -/
def State.offCore (s : State) (b : Nat × Nat × Block) : List Group × State :=
  let core := s.core b.1
  let mine := core.groups.filter (fun g => g.2.block == b.2.1)
  let s := s.setCore b.1 { core with
    blocks := Sparse.drop core.blocks b.2.1, groups := core.groups.filter (fun g => g.2.block != b.2.1) }
  (mine.map (fun g => g.2), { s with hif := { s.hif with reads := s.hif.reads.map (fun (r : HostRead) => match r.for_ with
    | .fence c n => if c = b.1 ∧ mine.any (fun g => g.1 == n) then { r with abandoned := true } else r
    | _ => r) } })

/-- Bytes of a context's section of its save area for one cluster (R326). -/
def saveSection : Nat := 1856 * 1024

/-- Save one block off its core (R91), to `base` in the reserve, or in its context's section for the cluster in DRAM, whose bytes hold the
state in a form that no rule gives (free). Block and groups keep in the model what the saved state holds. -/
def State.saveBlock (s : State) (k : Nat) (inReserve : Bool) (base : Nat) (b : Nat × Nat × Block) : State :=
  let (gs, s) := s.offCore b
  let c := s.cluster k
  let bound := b.2.2.stage.isSome || (c.scratchOf b.2.2.q b.2.2.seq).isSome
  let n := b.2.2.stateBytes
  let at_ := if inReserve then base else ((s.ctx b.2.2.ctx).elim 0 (fun x => x.save)) + k * saveSection + base
  let s := s.setCluster k { c with saved := c.saved ++ [⟨b.2.2, gs, b.1, bound, inReserve, at_⟩] }
  if inReserve then s.grdWipe k at_ n
  else { s with draws := s.draws + 1 }.devWrite (s.blockClass b.2.2) at_ ((List.range n).map (fun i => some (Config.freeByte s.draws i))) false

/-- Bytes of the cluster's state that a request saves (R91, R155, R178): its blocks, and the raster or Tongs state beside them. -/
def State.answerBytes (s : State) (k : Nat) (bs : List (Nat × Nat × Block)) : Nat :=
  let c := s.cluster k
  (bs.map (fun b => b.2.2.stateBytes)).sum + (if c.mode = .graphics then 65536 else if c.tongsN.isSome || c.tongsR.isSome then 256 else 0)

/-- Save blocks one after another. -/
def State.saveAll (s : State) (k : Nat) (inReserve : Bool) (base : Nat) (bs : List (Nat × Nat × Block)) : State :=
  (bs.foldl (fun (at_, s) b => (at_ + b.2.2.stateBytes, s.saveBlock k inReserve at_ b)) (base, s)).2

/-- Whether a context's running work is being stopped for good (R329, R331). -/
def State.losing (s : State) (c : Nat) : Bool := s.sched.losing.any (fun l => l.ctx == c)

/-- What a cluster holds of contexts whose work is being stopped is discarded (R329): blocks, Tongs programs, and their passes' tiles. -/
def State.discardLosing (s : State) (k : Nat) : State :=
  let s := ((s.clusterBlocks k).filter (fun b => s.losing b.2.2.ctx)).foldl (fun s b => (s.offCore b).2) s
  let c := s.cluster k
  let keep (t : Option Tongs) : Option Tongs := t.filter (fun t => !s.losing t.ctx)
  let s := s.setCluster k { c with tongsN := keep c.tongsN, tongsR := keep c.tongsR }
  { s with gfx := { s.gfx with passes := s.gfx.passes.map (fun (p : GfxPass) =>
    if s.losing p.ctx then { p with tiles := p.tiles.filter (fun t => t.cluster != k) } else p) } }

/-- Stop the Tongs programs of a cluster that a request takes (R155). -/
def State.stopTongs (s : State) (k : Nat) (p : Preempt) : State :=
  [true, false].foldl (fun s rt => match (s.cluster k).tongs rt with
    | none => s
    | some t =>
      if s.takesTongs k p t && t.run ≠ .ended && t.run ≠ .done then
        let t := { t with run := .preempted }
        (s.setCluster k ((s.cluster k).setTongs rt (some t))).tongsRegs k rt t 4
      else s) s

/-- Suspend the pass of a cluster that a request takes (R179, R382). -/
def State.suspendPass (s : State) (k : Nat) (p : Preempt) : State :=
  let c := s.cluster k
  { s with gfx := { s.gfx with passes := s.gfx.passes.map (fun (g : GfxPass) =>
    let hit := decide (c.mode = Mode.graphics) && c.gfxUnit == some (g.q, g.seq) && p.scopes.any (fun x => match x with
      | .normal => !g.rt
      | .context y => y == g.ctx
      | _ => false)
    if hit && !g.suspended.contains k then { g with suspended := g.suspended ++ [k] } else g) } }

/-- PREEMPT_ANSWER (R388): every affected core has stopped and saved, the Tongs engine, whose begun copies have been performed (R155), and
the raster units too. What belongs to a context that faults or is killed is discarded instead (R329, R331). A block's saved state lists
its groups ascending, as its core held them. With RESV 28 every state fits the reserve (R136). -/
def execPreemptAnswer (k : Fin 12) (s : State) : Ans :=
  let k := k.val
  match (s.cluster k).preempt with
  | none => .next s
  | some p =>
    let bs := s.taken k p
    let quiet := bs.all (fun b => (s.core b.1).groups.all (fun g => g.2.block ≠ b.2.1 || g.2.quiet))
      && [true, false].all (fun rt => match (s.cluster k).tongs rt with
        | some t => !s.takesTongs k p t || t.copies.isEmpty
        | none => true)
    if !quiet || s.sched.quench.isSome then .next s
    else
      let s := s.discardLosing k
      let bs := s.taken k p
      let c := s.cluster k
      let held := (c.saved.filter (fun b => b.inReserve)).foldl (fun m b => max m (b.base + b.block.stateBytes)) 0
      let inReserve := decide (grdResv c.region = 28) || held + s.answerBytes k bs ≤ grdResv c.region * 65536
      let s := s.saveAll k inReserve (if inReserve then held else 0) bs
      let s := s.setCluster k { s.cluster k with preempt := none }
      let s := ((s.stopTongs k p).suspendPass k p).countWrap (Reg.SCH_CLU_PREEMPT k) 31 0 1
      let s := s.maxFld (Reg.SCH_CLU_PLAT k) 15 0 (ceilDiv (s.time - p.since) 100)
      .next s.loseCheck.placeSync

/-- Groups on a cluster in compute mode (log entry 73) of normal queues whose virtual time is larger than a queue's (R387). -/
def State.largerHeld (s : State) (u : Queue) (k : Nat) : Nat :=
  if (s.cluster k).mode = .graphics then 0
  else ((List.range 4).map (fun n => ((s.core (4 * k + n)).holders.filter
    (fun h => !s.isRt h.1 && u.v < s.vOf h.1)).map (fun h => h.2) |>.sum)).sum

/-- The cluster that a queue's slice asks (R387): of its kernel's clusters that hold such groups, and that no slice has asked for SLICE µs,
the one that holds the most, the lowest of equal ones. -/
def State.sliceTarget (s : State) (u : Queue) (kn : Kernel) : Option Nat :=
  let ready (k : Nat) : Bool := 0 < s.largerHeld u k && match (s.cluster k).lastSlice with
    | some t => t + us (s.fld Reg.SCH_SLICE 15 0) ≤ s.time
    | none => true
  ((s.kernelClusters kn).filter ready).foldl (fun (b : Option Nat) k => match b with
    | some j => if s.largerHeld u j < s.largerHeld u k then some k else b
    | none => some k) none

/-- SLICE_PREEMPT (R387), of a cluster in compute mode (log entry 73). -/
def execSlicePreempt (q : Fin 64) (s : State) : Ans :=
  let q := q.val
  let slice := us (s.fld Reg.SCH_SLICE 15 0)
  match s.queue q with
  | none => .next s
  | some u =>
    let waited := match u.placeableSince with
      | some t => decide (t + slice ≤ s.time)
      | none => false
    match (s.placeables q).head? with
    | none => .next s
    | some (_, kn) =>
      match s.sliceTarget u kn with
      | none => .next s
      | some k =>
        if u.rt || !waited || s.sched.quench.isSome then .next s
        else
          let s := s.setCluster k { s.cluster k with lastSlice := some s.time }
          .next (s.preemptAsk k (.aboveV u.v))

/-- RESERVE_WINDOW_START (R381): at each time stamp that is a multiple of WINDOW × 100 ticks. -/
def execReserveWindowStart (s : State) : Ans :=
  if s.time % us s.sched.windowLen ≠ 0 then .next s
  else .next { s with
    clusters := s.clusters.map (fun (p : Nat × Cluster) => (p.1, { p.2 with usage := [] })),
    sched := { s.sched with windowLen := s.sched.windowPend.getD s.sched.windowLen, windowPend := none } }

/-- RUN_LIMIT_EXPIRED (R391). -/
def execRunLimitExpired (q : Fin 64) (s : State) : Ans :=
  let q := q.val
  match s.queue q with
  | none => .next s
  | some u =>
    match u.units.find? (fun w => w.status.isNone && w.limit ≠ 0 && match w.started with
        | some t => t + us (1000 * w.limit) ≤ s.time
        | none => false) with
    | none => .next s
    | some w => .next ((s.recC 0x0A02 0x02 2 u.ctx q (w.seq % 2 ^ 32)).contextFault u.ctx 0x0A02 0x02 (some (q, w.seq)))

end Sys2Proof.Machine
end

