-- ==== Sys2Proof/Machine/Modes.lean ====
section
/-! DEFINITION. Modes of clusters (R33, R384 to R386), hangs and the Quench (R366, R392, R393, R566 to R568). -/

namespace Sys2Proof.Machine

/-! ## Graphics and compute modes -/

/-- Whether the pass sequencer holds a graphics unit that waits (R384): one that no cluster runs, or a pass that waits for a cluster
it was preempted on (R385; DEDUCED, log entry 70). -/
def State.gfxWaiting (s : State) : Bool :=
  s.gfx.units.any (fun u => !s.clusters.any (fun p => p.2.gfxUnit == some (u.q, u.seq))) || s.gfx.passes.any (fun p => !p.suspended.isEmpty)

/-- Whether a cluster of the graphics mask may be chosen: powered, in compute mode, not being drained. -/
def State.mayDrain (s : State) (k : Nat) : Bool :=
  let c := s.cluster k
  bit s.sched.gfxMask k && !s.flag Reg.GLB_REPAIR k && c.mode = .compute && c.drain.isNone && c.switchTo.isNone

/-- Clusters in graphics mode or on their way to it. -/
def State.gfxCount (s : State) : Nat :=
  ((List.range 12).filter (fun (k : Nat) => decide ((s.cluster k).mode = Mode.graphics) || (s.cluster k).drain.isSome)).length

/-- Begin the drain of a cluster for graphics (R384). -/
def State.drainStart (s : State) (k : Nat) : State := s.setCluster k { s.cluster k with drain := some s.time }

/-- The cluster the mode controller chooses: one a preempted pass waits on (R385; DEDUCED, log entry 71), else the highest-numbered
candidate below a bound. -/
def State.nextGraphics (s : State) (below : Nat) : Option Nat :=
  let can := ((List.range below).reverse).filter (fun k => s.mayDrain k)
  let owed := can.filter (fun k => s.gfx.passes.any (fun g => g.suspended.contains k))
  match owed.head? with
  | some k => some k
  | none => can.head?

/-- MODE_SWITCH_TO_GRAPHICS (R384). -/
def execModeSwitchToGraphics (s : State) : Ans :=
  if !s.cluOn || s.sched.quench.isSome || !s.gfxWaiting || s.sched.gfxMax ≤ s.gfxCount then .next s
  else match s.nextGraphics 12 with
    | some k => .next (s.drainStart k)
    | none => .next s

/-- Whether the normal region of a cluster holds scratch (R137). -/
def Cluster.normalScratch (c : Cluster) : Bool := c.scratch.any (fun x => !x.rt)

/-- DRAIN_SLICE_EXPIRED (R384): SLICE µs after the choice, normal blocks without normal scratch are preempted; with normal scratch
still on the cluster it is given up for the next candidate. -/
def execDrainSliceExpired (k : Fin 12) (s : State) : Ans :=
  let k := k.val
  let c := s.cluster k
  match c.drain with
  | none => .next s
  | some t =>
    if s.time < t + us (s.fld Reg.SCH_SLICE 15 0) || s.sched.quench.isSome then .next s
    else if c.normalScratch then
      let s := s.setCluster k { c with drain := none }
      match s.nextGraphics k with
      | some j => .next (s.drainStart j)
      | none => .next s
    else if (s.clusterBlocks k).any (fun b => !s.isRt b.2.2.q) then .next (s.preemptAsk k .noScratch)
    else .next s

/-- MODE_SWITCH_COMPLETE (R33, R384, R385): a drained cluster changes its mode. -/
def execModeSwitchComplete (k : Fin 12) (s : State) : Ans :=
  let k := k.val
  let c := s.cluster k
  let idle := (s.clusterBlocks k).isEmpty && c.preempt.isNone
  let count (s : State) := s.countWrap (Reg.SCH_CLU_SWITCH k) 31 0 1
  if !s.cluOn || s.sched.quench.isSome || !idle then .next s
  else if c.drain.isSome && !c.normalScratch then
    .next (count ((s.setCluster k { c with mode := .graphics, drain := none, idleSince := s.time, gfxUnit := none }).setFlag Reg.SCH_STATUS k))
  else if c.switchTo = some .compute then
    .next ((count ((s.setCluster k { c with mode := .compute, switchTo := none, gfxUnit := none }).clearFlag Reg.SCH_STATUS k)).placeSync)
  else .next s

/-- A graphics-mode cluster returns to compute mode once drained (R385). -/
def State.toCompute (s : State) (k : Nat) : State :=
  let c := s.cluster k
  if c.mode = .graphics then s.setCluster k { c with switchTo := some .compute } else s

/-- GFX_IDLE_RETURN (R385): at a pass boundary, no graphics unit has run or waited for IDLE × 10 µs. -/
def execGfxIdleReturn (k : Fin 12) (s : State) : Ans :=
  let idle := us (10 * s.fld Reg.SCH_GFX_CTRL 31 24)
  if !s.gfx.units.isEmpty || s.time < max s.gfx.lastWork (s.cluster k.val).idleSince + idle then .next s
  else .next (s.toCompute k.val)

/-- At a pass boundary MASK and MAX as last written take effect: clusters outside MASK and the lowest-numbered beyond MAX return
to compute mode (R386). -/
def State.gfxBoundary (s : State) : State :=
  let s := { s with sched := { s.sched with gfxMask := s.fld Reg.SCH_GFX_CTRL 11 0, gfxMax := s.fld Reg.SCH_GFX_CTRL 19 16 } }
  let s := (List.range 12).foldl (fun s k => if bit s.sched.gfxMask k then s else s.toCompute k) s
  let gs := (List.range 12).filter (fun (k : Nat) => decide ((s.cluster k).mode = Mode.graphics) && (s.cluster k).switchTo.isNone)
  (gs.take (gs.length - s.sched.gfxMax)).foldl (fun s k => s.toCompute k) s

/-! ## Hangs (R392) -/

/-- A Quench starts (R366, R566): no unit starts, and the WPTR of every enabled queue is recorded. -/
def State.quenchStart (s : State) (cause : Nat) : State :=
  { s with
    sched := { s.sched with quench := some (cause, s.time) },
    queues := s.queues.map (fun (p : Nat × Queue) => (p.1, { p.2 with quenchWptr := s.wptr p.1 })) }

/-- Whether a cluster's request has been unanswered for 200 µs. -/
def State.hung (s : State) (k : Nat) : Bool := match (s.cluster k).preempt with
  | some p => p.since + us 200 ≤ s.time
  | none => false

/-- Queue and context captured for a hung cluster: the group in the lowest slot with an instruction not completed, else the Tongs
program's or the pass's (R392; DESIGN CHOICE between the cores, log entry 75). -/
def State.hangOwner (s : State) (k : Nat) : Nat × Nat :=
  let gs := (List.range 4).flatMap (fun n => (s.core (4 * k + n)).groups.filterMap (fun g =>
    if g.2.quiet then none else (Sparse.find (s.core (4 * k + n)).blocks g.2.block).map (fun b => (g.1, b.q, b.ctx))))
  let low := gs.foldl (fun (m : Option (Nat × Nat × Nat)) x => match m with
    | some y => if x.1 < y.1 then some x else m
    | none => some x) none
  let c := s.cluster k
  match low, c.tongsN, c.tongsR, c.gfxUnit with
  | some x, _, _, _ => x.2
  | none, some t, _, _ => (t.q, t.ctx)
  | none, none, some t, _ => (t.q, t.ctx)
  | none, none, none, some (q, _) => (q, (s.queue q).elim 0 (fun u => u.ctx))
  | _, _, _, _ => (0, 0)

/-- HANG_DETECTED (R392): every hung cluster is recorded, the lowest-numbered captured, and one Quench starts. -/
def execHangDetected (k : Fin 12) (s : State) : Ans :=
  if !s.hung k.val || s.sched.quench.isSome then .next s
  else
    let ks := (List.range 12).filter (fun j => s.hung j)
    let s := match ks.head? with
      | some j =>
        let (q, c) := s.hangOwner j
        if s.flag Reg.SCH_HANG 31 then s else s.setReg Reg.SCH_HANG (BitVec.ofNat 32 (j + q * 2 ^ 8 + c * 2 ^ 16 + 2 ^ 31))
      | none => s
    let s := ks.foldl (fun s j => let (q, c) := s.hangOwner j; s.recC 0x0A01 (0x10 + j) 2 c q c) s
    .next (s.quenchStart 0)

/-- ERR_QUENCH (R568): GO with the key, while GLB_BOOT.STATE reads running and no Quench runs. -/
def State.errQuench (s : State) (v : Word) : State :=
  if bit v.toNat 0 && v.toNat / 65536 == 0x9E4C && s.fld Reg.GLB_BOOT 1 0 == 1 && s.sched.quench.isNone then s.quenchStart 1 else s

/-- ERR_QUENCH (R568). -/
def execErrQuench (v : Word) (s : State) : Ans := if s.uncRuns then .next (s.errQuench v) else .next s

/-! ## Quench (R366, R393, R566) -/

/-- What CC3 does with the flow after a Quench (R252): its invocations not completed are discarded and counted. -/
def State.flowQuench (s : State) : State := match s.flow with
  | none => s
  | some fl =>
    let n := (fl.invs.filter (fun i => i.status == .queued)).length
    let invs := fl.invs.map (fun (i : Invocation) => if i.status = .queued then { i with status := .cancelled, cause := 4 } else i)
    ({ s with flow := some { fl with invs := invs, noPrev := true, onlySr := true } }).countWrap
      (Reg.WSK_FF_STAT 2) 31 0 n

/-- A cluster after a Quench: compute mode, nothing resident, Griddle contents undefined, regions and usage kept (R393). -/
def Cluster.quenched (c : Cluster) : Cluster :=
  { Cluster.empty with region := c.region, pendRegion := c.pendRegion, usage := c.usage, lastSlice := c.lastSlice }

/-- The engines after a Quench: CLU domains reset, Tongs programs and passes discarded, queue copies dropped, the direct copy stopped
with ERR, Ladle entries dropped, reads that the cores left outstanding abandoned (R566, R567). -/
def State.quenchEngines (s : State) : State :=
  let direct := (Sparse.find s.sched.copies 4).isSome
  let s := { s with
    cores := [], clusters := s.clusters.map (fun (p : Nat × Cluster) => (p.1, p.2.quenched)),
    sched := { s.sched with copies := [], copyWait := [], ladle := [], stalled := [], closing := [], hostWrites := [] },
    gfx := { s.gfx with units := [], passes := [], table := [] },
    mmu := { s.mmu with walks := s.mmu.walks.filter (fun w => match w.tlb with
      | .core _ => false
      | _ => true) },
    hif := { s.hif with reads := s.hif.reads.map (fun (r : HostRead) => match r.for_ with
      | .dma _ => r
      | _ => { r with abandoned := true }) } }
  let s := (s.setFld Reg.SCH_STATUS 11 0 0).setFld Reg.L2C_LADLE_STATUS 8 0 0
  if direct then (s.clearFlag Reg.CPY_STATUS 0).setFlag Reg.CPY_STATUS 2 else s

/-- One queue after a Quench (R366, R393): its started units are discarded and its packets up to the recorded WPTR dropped; a
queue that a stop or a fault holds keeps its state. -/
def State.quenchQueue (s : State) (q : Nat) : State :=
  match s.queue q with
  | none => s
  | some u =>
    let run := s.qState q == 1 || s.qState q == 2
    let s := s.endUnits q none (if run then some u.quenchWptr else none)
    match s.queue q with
    | none => s
    | some u =>
      let u := { u with loops := [], stream := none, wait := none, pass := none, v := 0, vRem := 0, copyV := 0, copyRem := 0,
                        placeableSince := none, fetch := if run then u.quenchWptr else u.fetch }
      (s.setQueue q u).drainDone q

/-- The end of a Quench (R566): engines stopped and domains reset; queues, generation, lost events, slots (R366); record 0x1002; then the
faults and kills held during the Quench (R565, R568). -/
def State.quenchComplete (s : State) : Ans :=
  match s.sched.quench with
  | none => .next s
  | some (cause, _) =>
    let qs := (s.queues.filter (fun p => s.qState p.1 ≠ 0)).map (fun p => p.1)
    let s := s.quenchEngines
    let s := qs.foldl (fun s q => s.quenchQueue q) s
    let s := s.countWrap Reg.CPR_QUENCH_GEN 31 0 1
    let cs := s.ctxs.map (fun p => p.1)
    let s := cs.foldl (fun s c => (s.setFlag (Reg.CPR_CTX_STATUS c) 2).signalLost c) s
    let s := { s with
      slots := s.slots.map (fun (p : Nat × Slot) => (p.1, { p.2 with resident := false, running := none })),
      seqs := s.seqs.map (fun (p : Nat × Sequence) => (p.1, { p.2 with inBatch := false })) }
    let s := (s.slots.map (fun p => p.1)).foldl (fun s n => s.slotRegs n) s
    let s := (s.flowQuench).putStatuses qs
    let s := s.rec0 0x1002 0x02 1 (s.reg Reg.CPR_QUENCH_GEN).toNat cause
    let faults := s.sched.heldFaults
    let kills := s.sched.heldKills
    let s := { s with sched := { s.sched with quench := none, heldFaults := [], heldKills := [] } }
    let s := faults.foldl (fun s f => s.contextFault f.1 f.2.1 f.2.2 none) s.loseCheck
    .next (kills.foldl (fun s c => s.ctxKill c) s).pwrHeld

end Sys2Proof.Machine
end

