-- ==== Sys2Proof/Machine/GfxGeom.lean ====
section
/-! DEFINITION. The geometry of draw passes as pure functions: primitive assembly (R183), the tessellator (R186 to R191),
clipping and the viewport (R192), coverage and interpolation (R196 to R199). Positions are computed exactly and rounded where the
spec rounds them. -/

namespace Sys2Proof.Machine

/-! ## State block fields (R220) -/

/-- Word at a byte offset of a state block. -/
def stWord (st : List Nat) (off : Nat) : Nat := st.getD (off / 4) 0

/-- A field of the word at a byte offset. -/
def stFld (st : List Nat) (off hi lo : Nat) : Nat := bits (stWord st off) hi lo

/-- TOPOLOGY, CP_COUNT, NVAR, DOMAIN, TESS_OUT, PVEC. -/
def stTopology (st : List Nat) : Nat := stFld st 0x80 3 0
def stCp (st : List Nat) : Nat := stFld st 0x80 8 4
def stVars (st : List Nat) : Nat := stFld st 0x80 16 12
def stDomain (st : List Nat) : Nat := stFld st 0x80 18 17
def stTessOut (st : List Nat) : Nat := stFld st 0x80 22 21
def stPvec (st : List Nat) : Nat := stFld st 0x80 27 23

/-! ## Primitive assembly (R183, R184) -/

/-- A list cut at its restarts. -/
def cutRuns : List (Option Nat) → List (List Nat)
  | [] => [[]]
  | none :: t => [] :: cutRuns t
  | some v :: t => match cutRuns t with
    | [] => [[v]]
    | r :: rs => (v :: r) :: rs

/-- Groups of `n` consecutive elements; an incomplete one is dropped. -/
def chunks (n : Nat) : Nat → List Nat → List (List Nat)
  | 0, _ => []
  | f + 1, l => if l.length < n ∨ n = 0 then [] else l.take n :: chunks n f (l.drop n)

/-- The primitives of one run of vertices. An odd triangle of a strip is taken as (i, i + 2, i + 1), so that it keeps the winding of
the first and its first vertex (PRESUMED, log entry 47). -/
def assembleRun (topology cp : Nat) (l : List Nat) : List (List Nat) :=
  let at_ (i : Nat) : Nat := l.getD i 0
  match topology with
  | 0 => l.map (fun v => [v])
  | 1 => chunks 2 l.length l
  | 2 => (List.range (l.length - 1)).map (fun i => [at_ i, at_ (i + 1)])
  | 3 => chunks 3 l.length l
  | 4 => (List.range (l.length - 2)).map (fun i =>
      if i % 2 = 0 then [at_ i, at_ (i + 1), at_ (i + 2)] else [at_ i, at_ (i + 2), at_ (i + 1)])
  | 5 => (List.range (l.length - 2)).map (fun i => [at_ 0, at_ (i + 1), at_ (i + 2)])
  | 6 => chunks cp l.length l
  | _ => []

/-- The primitives of one instance, in order. -/
def assemble (topology cp : Nat) (l : List (Option Nat)) : List (List Nat) := (cutRuns l).flatMap (assembleRun topology cp)

/-! ## The tessellator (R186 to R191) -/

/-- A tessellation factor: none for NaN; an infinity is beyond every clamp. -/
def factorOf (w : Nat) : Option Q := match f32 w with
  | .nan => none
  | .inf neg => some ⟨if neg then -1000 else 1000, 1⟩
  | .fin .. => some (Q.ofF32 w)

/-- Whether a factor is usable: neither NaN nor 0 or less. -/
def factorOk (w : Nat) : Bool := match factorOf w with
  | some f => (Q.ofInt 0).lt f
  | none => false

/-- Clamped factor and segment count of a spacing (R187). -/
def segments (spacing : Nat) (f : Q) : Q × Nat :=
  let lo : Int := if spacing = 2 then 2 else 1
  let hi : Int := if spacing = 1 then 63 else 64
  let f := (f.max (Q.ofInt lo)).min (Q.ofInt hi)
  let n := f.ceil.toNat
  let parity := if spacing = 1 then 1 else 0
  (f, if spacing = 0 ∨ n % 2 = parity then n else n + 1)

/-- The least factor of a spacing, for an inner factor that is not usable (R186). -/
def innerFactor (spacing w : Nat) : Q :=
  if factorOk w then (factorOf w).getD (Q.ofInt 1) else Q.ofInt (if spacing = 2 then 2 else 1)

/-- The `n` segment lengths of an edge (R187, R188). -/
def segLengths (spacing : Nat) (f : Q) (n : Nat) : List Q :=
  if spacing = 0 ∨ f.n = (n : Int) * f.d then List.replicate n ⟨1, n⟩
  else
    let long := (Q.ofInt 1).div f
    let short := ((Q.ofInt 1).sub ((Q.ofInt (n - 2)).mul long)).div (Q.ofInt 2)
    if n % 2 = 1 then
      List.replicate ((n - 3) / 2) long ++ [short, long, short] ++ List.replicate ((n - 3) / 2) long
    else List.replicate ((n - 2) / 2) long ++ [short, short] ++ List.replicate ((n - 2) / 2) long

/-- Running sums. -/
def sumsFrom (a : Q) : List Q → List Q
  | [] => [a]
  | x :: t => a :: sumsFrom (a.add x).norm t

/-- The exact positions of an edge's points. -/
def segPositions (spacing : Nat) (f : Q) (n : Nat) : List Q := sumsFrom (Q.ofInt 0) (segLengths spacing f n)

/-- A point of a domain: u, v and w exactly. -/
structure TessPoint where
  u : Q
  v : Q
  w : Q
  deriving DecidableEq, Repr

/-- A coordinate in units of 2⁻¹⁶, rounded to nearest even (R188). -/
def coord16 (a : Q) : Nat := (rneInt (a.n * 65536) a.d).toNat

/-- The rounded coordinates of a point. -/
def TessPoint.key (p : TessPoint) : Nat × Nat × Nat := (coord16 p.u, coord16 p.v, coord16 p.w)

/-- One side of a ring: its points with their positions along it. -/
abbrev TessSide := List (Q × TessPoint)

/-- Join two facing sides (R190). `fuel` covers their points. -/
def joinSides : Nat → TessSide → TessSide → List (List TessPoint)
  | 0, _, _ => []
  | f + 1, p, q =>
    match p, q with
    | p0 :: p1 :: ps, q0 :: q1 :: qs =>
      if p1.1.le q1.1 then [p0.2, p1.2, q0.2] :: joinSides f (p1 :: ps) (q0 :: q1 :: qs)
      else [p0.2, q1.2, q0.2] :: joinSides f (p0 :: p1 :: ps) (q1 :: qs)
    | p0 :: p1 :: ps, [q0] => [p0.2, p1.2, q0.2] :: joinSides f (p1 :: ps) [q0]
    | [p0], q0 :: q1 :: qs => [p0.2, q1.2, q0.2] :: joinSides f [p0] (q1 :: qs)
    | _, _ => []

/-- Join two rings side by side. -/
def joinRings (a b : List TessSide) : List (List TessPoint) :=
  (a.zip b).flatMap (fun x => joinSides (x.1.length + x.2.length) x.1 x.2)

/-- Rings from the outermost inwards, joined in turn. -/
def joinAll : List (List TessSide) → List (List TessPoint)
  | a :: b :: t => joinRings a b ++ joinAll (b :: t)
  | _ => []

/-- Indices `k` to `n − k`. -/
def ringIndexes (n k : Nat) : List Nat := (List.range (n - 2 * k + 1)).map (fun i => k + i)

/-- Position of index `i` along a side of ring `k`, normalised to the side's length; 0 on a side of no length. -/
def normPos (t : List Q) (k n i : Nat) : Q :=
  let at_ (j : Nat) : Q := t.getD j (Q.ofInt 0)
  ((at_ i).sub (at_ k)).div ((at_ (n - k)).sub (at_ k))

/-- A side walked backwards, its positions counted from the other end. -/
def TessSide.back (s : TessSide) : TessSide := (s.map (fun p => ((Q.ofInt 1).sub p.1, p.2))).reverse

/-- One outer edge by its factor: its points by position. -/
def outerSide (spacing w : Nat) (pt : Q → TessPoint) : TessSide :=
  let (f, n) := segments spacing ((factorOf w).getD (Q.ofInt 1))
  (segPositions spacing f n).map (fun t => (t, pt t))

/-- Raise an inner count of 1 (R189). -/
def raiseInner (spacing n : Nat) (allOne : Bool) : Nat := if n = 1 ∧ !allOne then (if spacing = 1 then 3 else 2) else n

/-- A point of the quad domain. -/
def quadPt (u v : Q) : TessPoint := ⟨u, v, Q.ofInt 0⟩

/-- The four sides of ring `k` of the quad domain, in the order of its factors: u = 0 downwards, v = 0, u = 1, v = 1 (DESIGN CHOICE, log
entry 48). -/
def quadRing (tu tv : List Q) (nu nv k : Nat) : List TessSide :=
  let at_ (t : List Q) (j : Nat) : Q := t.getD j (Q.ofInt 0)
  let alongV (u : Q) : TessSide := (ringIndexes nv k).map (fun j => (normPos tv k nv j, quadPt u (at_ tv j)))
  let alongU (v : Q) : TessSide := (ringIndexes nu k).map (fun i => (normPos tu k nu i, quadPt (at_ tu i) v))
  [(alongV (at_ tu k)).back, alongU (at_ tv k), alongV (at_ tu (nu - k)), (alongU (at_ tv (nv - k))).back]

/-- The triangles of a quad patch (R189, R190). An innermost ring one segment wide has its two long sides joined (PRESUMED, log
entry 49). -/
def tessQuad (spacing : Nat) (fs : List Nat) : List (List TessPoint) :=
  let q (i : Nat) : Nat := fs.getD i 0
  let one := Q.ofInt 1
  let zero := Q.ofInt 0
  let (fu, nu) := segments spacing (innerFactor spacing (q 4))
  let (fv, nv) := segments spacing (innerFactor spacing (q 5))
  let outer (i : Nat) : Nat := (segments spacing ((factorOf (q i)).getD one)).2
  let allOne := nu == 1 && nv == 1 && (List.range 4).all (fun i => outer i == 1)
  if allOne then
    [[quadPt zero zero, quadPt one zero, quadPt one one], [quadPt zero zero, quadPt one one, quadPt zero one]]
  else
    let nu := raiseInner spacing nu false
    let nv := raiseInner spacing nv false
    let tu := segPositions spacing fu nu
    let tv := segPositions spacing fv nv
    let ring0 := [(outerSide spacing (q 0) (fun t => quadPt zero t)).back, outerSide spacing (q 1) (fun t => quadPt t zero),
      outerSide spacing (q 2) (fun t => quadPt one t), (outerSide spacing (q 3) (fun t => quadPt t one)).back]
    let m := min nu nv
    let inner := (List.range (m / 2)).map (fun k => quadRing tu tv nu nv (k + 1))
    let last := quadRing tu tv nu nv (m / 2)
    let core := if m % 2 = 0 then []
      else if nu ≤ nv then joinSides (2 * nv + 2) (last.getD 2 []) ((last.getD 0 []).back)
      else joinSides (2 * nu + 2) (last.getD 1 []) ((last.getD 3 []).back)
    joinAll (ring0 :: inner) ++ core

/-- A point of the triangle domain. -/
def triPt (u v : Q) : TessPoint := ⟨u, v, ((Q.ofInt 1).sub u).sub v⟩

/-- The three sides of ring `k ≥ 1` of the triangle domain, facing u = 0, v = 0 and w = 0 and walked V to W, W to U, U to V. The point
of index `i` on the side at distance k lies where the perpendiculars of the edge's points meet it (PRESUMED, log entry 50). -/
def triRing (t : List Q) (n k : Nat) : List TessSide :=
  let at_ (j : Nat) : Q := t.getD j (Q.ofInt 0)
  let third := (at_ k).div (Q.ofInt 3)
  let d := third.add third
  let side (pt : Q → Q → Q → TessPoint) : TessSide := (ringIndexes n k).map (fun i =>
    let b := (at_ i).sub third
    (normPos t k n i, pt d (((Q.ofInt 1).sub d).sub b) b))
  [side (fun c a b => ⟨c, a, b⟩), side (fun c a b => ⟨b, c, a⟩), side (fun c a b => ⟨a, b, c⟩)]

/-- The triangles of a triangle patch (R189, R190). -/
def tessTri (spacing : Nat) (fs : List Nat) : List (List TessPoint) :=
  let q (i : Nat) : Nat := fs.getD i 0
  let one := Q.ofInt 1
  let zero := Q.ofInt 0
  let corners := [triPt one zero, triPt zero one, triPt zero zero]
  let (f, n0) := segments spacing (innerFactor spacing (q 4))
  let outer (i : Nat) : Nat := (segments spacing ((factorOf (q i)).getD one)).2
  if n0 = 1 ∧ (List.range 3).all (fun i => outer i == 1) then [corners]
  else
    let n := raiseInner spacing n0 false
    let t := segPositions spacing f n
    let rev (x : Q) : Q := one.sub x
    let ring0 := [outerSide spacing (q 0) (fun x => triPt zero (rev x)), outerSide spacing (q 1) (fun x => triPt x zero),
      outerSide spacing (q 2) (fun x => triPt (rev x) x)]
    let inner := (List.range (n / 2)).map (fun k => triRing t n (k + 1))
    let last := triRing t n (n / 2)
    let core := if n % 2 = 0 then [] else [last.filterMap (fun s => (s.head?).map (fun p => p.2))]
    joinAll (ring0 :: inner) ++ core

/-- The segments of an isoline patch (R190). -/
def tessIso (spacing : Nat) (fs : List Nat) : List (List TessPoint) :=
  let (_, l) := segments 0 ((factorOf (fs.getD 0 0)).getD (Q.ofInt 1))
  let (f, n) := segments spacing ((factorOf (fs.getD 1 0)).getD (Q.ofInt 1))
  let t := segPositions spacing f n
  (List.range l).flatMap (fun i => (t.zip (t.drop 1)).map (fun p => [quadPt p.1 ⟨i, l⟩, quadPt p.2 ⟨i, l⟩]))

/-- Twice the signed area of a triangle in (u, v). -/
def uvArea (a b c : TessPoint) : Int :=
  let x (p q : TessPoint) : Int := (coord16 q.u : Int) - coord16 p.u
  let y (p q : TessPoint) : Int := (coord16 q.v : Int) - coord16 p.v
  x a b * y a c - x a c * y a b

/-- Give a triangle the winding of TESS_OUT: 0 clockwise, 1 counter-clockwise, u to the right and v upwards. -/
def windTri (tessOut : Nat) : List TessPoint → List TessPoint
  | [a, b, c] =>
    let area := uvArea a b c
    if (tessOut = 0 ∧ 0 < area) ∨ (tessOut = 1 ∧ area < 0) then [a, c, b] else [a, b, c]
  | l => l

/-- The distinct rounded points of a patch in the order of their first use. -/
def distinct : List (Nat × Nat × Nat) → List (Nat × Nat × Nat)
  | [] => []
  | a :: t => a :: (distinct t).filter (fun x => x != a)

/-- The primitives of a patch as rounded domain points (R186 to R191): none for a culled patch. -/
def tessellate (domain spacing tessOut : Nat) (fs : List Nat) : List (List (Nat × Nat × Nat)) :=
  let used := if domain = 1 then 3 else if domain = 2 then 4 else 2
  if !(fs.take used).all factorOk then []
  else
    let prims := match domain with
      | 1 => tessTri spacing fs
      | 2 => tessQuad spacing fs
      | _ => tessIso spacing fs
    let prims := prims.map (fun p => (windTri tessOut p).map (fun x => x.key))
    if tessOut = 2 then (distinct prims.flatten).map (fun p => [p]) else prims

/-! ## Clip space and screen (R192) -/

/-- A vertex in clip space: x, y, z, w and the varyings. -/
structure ClipVert where
  x : Q
  y : Q
  z : Q
  w : Q
  vars : List (Option Q)
  deriving DecidableEq, Repr

/-- The finite value of a word; a free one where it is NaN or infinite (the spec states nothing of such a position). -/
def finiteOr (free w : Nat) : Q := match f32 w with
  | .fin .. => Q.ofF32 w
  | _ => Q.ofF32 (free % 2 ^ 30)

/-- A varying word: none where it is not a finite number. -/
def varQ (w : Nat) : Option Q := match f32 w with
  | .fin .. => some (Q.ofF32 w)
  | _ => none

/-- A vertex output record in clip space. -/
def clipVertOf (free : Nat → Nat) (rec_ : List Nat) : ClipVert :=
  let p (i : Nat) : Q := finiteOr (free i) (rec_.getD i 0)
  ⟨p 0, p 1, p 2, p 3, (rec_.drop 4).map varQ⟩

/-- A point of an edge, at `t` from `a` to `b`. -/
def ClipVert.mix (a b : ClipVert) (t : Q) : ClipVert :=
  let m (x y : Q) : Q := (x.add (t.mul (y.sub x))).norm
  ⟨m a.x b.x, m a.y b.y, m a.z b.z, m a.w b.w, (a.vars.zip b.vars).map (fun p => match p.1, p.2 with
    | some x, some y => some (m x y)
    | _, _ => none)⟩

/-- Where an edge crosses a plane. -/
def ClipVert.cross (d : ClipVert → Q) (a b : ClipVert) : ClipVert := a.mix b ((d a).div ((d a).sub (d b)))

/-- The part of a closed polygon on the inner side of a plane. -/
def clipPoly (d : ClipVert → Q) (l : List ClipVert) : List ClipVert :=
  let inside (v : ClipVert) : Bool := (Q.ofInt 0).le (d v)
  (l.zip (l.drop 1 ++ l.take 1)).flatMap (fun p =>
    (if inside p.1 then [p.1] else []) ++ (if inside p.1 != inside p.2 then [ClipVert.cross d p.1 p.2] else []))

/-- The part of a point or a line on the inner side of a plane. -/
def clipOpen (d : ClipVert → Q) (l : List ClipVert) : List ClipVert :=
  let inside (v : ClipVert) : Bool := (Q.ofInt 0).le (d v)
  match l with
  | [a, b] =>
    if inside a && inside b then [a, b]
    else if inside a then [a, ClipVert.cross d a b]
    else if inside b then [ClipVert.cross d a b, b] else []
  | l => l.filter inside

/-- The planes of R192's first two steps. -/
def clipPlanes (st : List Nat) : List (ClipVert → Q) :=
  let ox := Q.ofF32 (stWord st 0x90)
  let oy := Q.ofF32 (stWord st 0x94)
  let px := (Q.ofF32 (stWord st 0x98)).div (Q.ofInt 2)
  let py := (Q.ofF32 (stWord st 0x9C)).div (Q.ofInt 2)
  let g := Q.ofInt 32768
  let sx (v : ClipVert) : Q := ((ox.mul v.w).add ((v.x.add v.w).mul px)).norm
  let sy (v : ClipVert) : Q := ((oy.mul v.w).add ((v.y.add v.w).mul py)).norm
  (if stFld st 0x84 3 3 = 1 then [fun v => v.w.sub ⟨1, 2 ^ 24⟩] else [fun v => v.z, fun v => v.w.sub v.z])
    ++ [fun v => (sx v).add (g.mul v.w), fun v => (g.mul v.w).sub (sx v), fun v => (sy v).add (g.mul v.w),
        fun v => (g.mul v.w).sub (sy v)]

/-- A clipped vertex on the screen (R192): snapped to 1/256 pixel. Where w is 0 the position is free. -/
def toScreen (st : List Nat) (free : Nat) (v : ClipVert) : ScreenVert :=
  let lo := Q.ofF32 (stWord st 0xA0)
  let hi := Q.ofF32 (stWord st 0xA4)
  let iw := ((Q.ofInt 1).div v.w).norm
  let place (o p x : Nat) (c : Q) : Int :=
    if v.w.n = 0 then (free / x % 2 ^ 24 : Nat) - 2 ^ 23
    else (((Q.ofF32 o).add ((((c.mul iw).add (Q.ofInt 1)).mul (Q.ofF32 p)).div (Q.ofInt 2))).mul (Q.ofInt 256)).rne
  ⟨place (stWord st 0x90) (stWord st 0x98) 1 v.x, place (stWord st 0x94) (stWord st 0x9C) (2 ^ 24) v.y,
   if v.w.n = 0 then ⟨(free % 2 ^ 24 : Nat), 2 ^ 24⟩ else (lo.add ((v.z.mul iw).mul (hi.sub lo))).norm, iw, v.vars.map (fun o => o.map (fun q => (q.mul iw).norm))⟩

/-- Twice the signed area on the screen, y downwards: positive is clockwise. -/
def screenArea (a b c : ScreenVert) : Int := (b.x - a.x) * (c.y - a.y) - (c.x - a.x) * (b.y - a.y)

/-- The triangles of a convex polygon. -/
def fanOf {α : Type} : List α → List (List α)
  | a :: t => (t.zip (t.drop 1)).map (fun p => [a, p.1, p.2])
  | [] => []

/-- A clamped size in pixels: POINT_SIZE or LINE_WIDTH. A NaN is free. -/
def sizeQ (free w : Nat) : Q := match f32 w with
  | .nan => Q.ofInt (1 + free % 64)
  | .inf neg => Q.ofInt (if neg then 1 else 64)
  | .fin .. => ((Q.ofF32 w).max (Q.ofInt 1)).min (Q.ofInt 64)

/-- Steps 1 to 5 of R192 on one primitive: what is left of it on the screen. -/
def clipPrim (st : List Nat) (free : Nat → Nat) (draw ord clu : Nat) (recs : List (List Nat)) : List BinPrim :=
  let vs := (recs.zip (List.range recs.length)).map (fun p => clipVertOf (fun i => free (8 * p.2 + i)) p.1)
  let flat := ((recs.headD []).drop 4)
  let size := sizeQ (free 2048) (stWord st (if recs.length = 1 then 0x88 else 0x8C))
  let screen (l : List ClipVert) : List ScreenVert := (l.zip (List.range l.length)).map (fun p => toScreen st (free (64 + p.2)) p.1)
  if recs.length < 3 then
    let l := screen ((clipPlanes st).foldl (fun l d => clipOpen d l) vs)
    if l.length = recs.length then [⟨draw, ord, recs.length, true, clu, size, l, flat⟩] else []
  else
    let l := screen ((clipPlanes st).foldl (fun l d => clipPoly d l) vs)
    (fanOf l).filterMap (fun t => match t with
      | [a, b, c] =>
        let area := screenArea a b c
        let front := if stFld st 0x84 2 2 = 1 then decide (area < 0) else decide (0 < area)
        let cull := stFld st 0x84 1 0
        if area = 0 ∨ cull = 3 ∨ (cull = 1 ∧ front) ∨ (cull = 2 ∧ !front) then none
        else some ⟨draw, ord, 3, front, clu, size, t, flat⟩
      | _ => none)

/-! ## Coverage (R196, R197) -/

/-- Sample positions in sixteenths of a pixel, by sample number. -/
def samplePos (log2 : Nat) : List (Nat × Nat) := match log2 with
  | 0 => [(8, 8)]
  | 1 => [(12, 12), (4, 4)]
  | 2 => [(6, 2), (14, 6), (2, 10), (10, 14)]
  | _ => [(9, 5), (7, 11), (13, 9), (5, 3), (3, 13), (1, 7), (11, 15), (15, 1)]

/-- Whether an edge with this outward normal is a top edge or a left edge (R196), y downwards. -/
def topLeft (nx ny : Int) : Bool := decide (nx < 0) || (decide (nx = 0) && decide (ny < 0))

/-- Whether `e` is inside an edge's half plane: positive, or zero on a top or left edge. -/
def insideEdge (e nx ny : Int) : Bool := decide (0 < e) || (decide (e = 0) && topLeft nx ny)

/-- Whether a primitive covers a point, in 1/256 pixel. -/
def BinPrim.covers (p : BinPrim) (x y : Int) : Bool :=
  let size := p.size
  match p.verts with
  | [a] =>
    -- |d| ≤ size · 128, the left and the top edge included
    let h := size.n * 128
    let dx := (x - a.x) * size.d
    let dy := (y - a.y) * size.d
    decide (-h ≤ dx) && decide (dx < h) && decide (-h ≤ dy) && decide (dy < h)
  | [a, b] =>
    let dx := b.x - a.x
    let dy := b.y - a.y
    let c := dx * (y - a.y) - dy * (x - a.x)
    let t := dx * (x - a.x) + dy * (y - a.y)
    let l2 := dx * dx + dy * dy
    -- half the width times the length, squared, against the cross product squared
    let e := size.n * size.n * 128 * 128 * l2 - c * c * size.d * size.d
    let side := if 0 ≤ c then insideEdge e (-dy) dx else insideEdge e dy (-dx)
    side && insideEdge t (-dx) (-dy) && insideEdge (l2 - t) dx dy
  | [a, b, c] =>
    let (b, c) := if screenArea a b c < 0 then (c, b) else (b, c)
    [(a, b), (b, c), (c, a)].all (fun (p, q) =>
      let dx := q.x - p.x
      let dy := q.y - p.y
      insideEdge (dx * (y - p.y) - dy * (x - p.x)) dy (-dx))
  | _ => false

/-- Whether a distance `v` is at most half a line's width along a direction that has the share g / √l2 of it: v ≤ size · 128 · g / √l2, by
squares. -/
def withinHalf (size : Q) (l2 v g : Int) : Bool :=
  decide (v ≤ 0) || decide (v * v * l2 * size.d * size.d ≤ size.n * size.n * 128 * 128 * g * g)

/-- Whether a line's rectangle (R196) meets a rectangle: no axis of the screen or of the line separates them. -/
def lineMeets (size : Q) (a b : ScreenVert) (x0 y0 x1 y1 : Int) : Bool :=
  let dx := b.x - a.x
  let dy := b.y - a.y
  let l2 := dx * dx + dy * dy
  let corners := [(x0, y0), (x1, y0), (x0, y1), (x1, y1)]
  let along := corners.map (fun p => dx * (p.1 - a.x) + dy * (p.2 - a.y))
  let across := corners.map (fun p => dx * (p.2 - a.y) - dy * (p.1 - a.x))
  decide (l2 ≠ 0) && along.any (fun t => decide (t ≤ l2)) && along.any (fun t => decide (0 ≤ t))
    && across.any (fun c => withinHalf size l2 c l2) && across.any (fun c => withinHalf size l2 (-c) l2)
    && withinHalf size l2 (x0 - max a.x b.x) dy && withinHalf size l2 (min a.x b.x - x1) dy
    && withinHalf size l2 (y0 - max a.y b.y) dx && withinHalf size l2 (min a.y b.y - y1) dx

/-- Whether a primitive's area meets the rectangle from (x0, y0) to (x1, y1) in 1/256 pixel (R192), edges included (DESIGN CHOICE, log
entry 54). -/
def BinPrim.meets (p : BinPrim) (x0 y0 x1 y1 : Int) : Bool :=
  match p.verts with
  | [a] =>
    let h := p.size.n * 128
    let d := p.size.d
    decide ((x0 - a.x) * d ≤ h) && decide ((a.x - x1) * d ≤ h) && decide ((y0 - a.y) * d ≤ h) && decide ((a.y - y1) * d ≤ h)
  | [a, b] => lineMeets p.size a b x0 y0 x1 y1
  | [a, b, c] =>
    let (b, c) := if screenArea a b c < 0 then (c, b) else (b, c)
    let l := [a, b, c]
    l.any (fun v => decide (x0 ≤ v.x)) && l.any (fun v => decide (v.x ≤ x1)) && l.any (fun v => decide (y0 ≤ v.y))
      && l.any (fun v => decide (v.y ≤ y1))
      && [(a, b), (b, c), (c, a)].all (fun (p, q) =>
        [(x0, y0), (x1, y0), (x0, y1), (x1, y1)].any (fun (x, y) =>
          decide (0 ≤ (q.x - p.x) * (y - p.y) - (q.y - p.y) * (x - p.x))))
  | _ => false

/-! ## Interpolation (R198) -/

/-- The weights of a primitive's vertices at a point in 1/256 pixel. -/
def BinPrim.weights (p : BinPrim) (x y : Int) : List Q :=
  match p.verts with
  | [a, b, c] =>
    let area := Q.ofInt (screenArea a b c)
    let at_ : ScreenVert := { a with x := x, y := y }
    [(Q.ofInt (screenArea at_ b c)).div area, (Q.ofInt (screenArea a at_ c)).div area, (Q.ofInt (screenArea a b at_)).div area]
  | [a, b] =>
    let dx := b.x - a.x
    let dy := b.y - a.y
    let t := (Q.ofInt (dx * (x - a.x) + dy * (y - a.y))).div (Q.ofInt (dx * dx + dy * dy))
    [(Q.ofInt 1).sub t, t]
  | _ => [Q.ofInt 1]

/-- A weighted sum. -/
def wsum (ws : List Q) (xs : List Q) : Q := ((ws.zip xs).foldl (fun a p => (a.add (p.1.mul p.2)).norm) (Q.ofInt 0))

/-- Depth at a point, clamped to [MINZ, MAXZ] with DEPTH_CLAMP (R192, R198), in F32. -/
def BinPrim.depth (p : BinPrim) (st : List Nat) (x y : Int) : Nat :=
  let z := wsum (p.weights x y) (p.verts.map (fun v => v.z))
  let lo := Q.ofF32 (stWord st 0xA0)
  let hi := Q.ofF32 (stWord st 0xA4)
  (if stFld st 0x84 3 3 = 1 then (z.max lo).min hi else z).toF32

/-- Varying words at a point: perspective-correct, in F32; flat ones the first vertex's; one with a vertex value that is not finite
is free. -/
def BinPrim.varyings (p : BinPrim) (st : List Nat) (free : Nat → Nat) (x y : Int) : List Nat :=
  let ws := p.weights x y
  let iw := wsum ws (p.verts.map (fun v => v.iw))
  (List.range (4 * stVars st)).map (fun i =>
    if bit (stWord st 0xF0) (i / 4) then p.flat.getD i 0
    else
      let vs := p.verts.map (fun v => (v.vars[i]?).bind id)
      if vs.all (fun o => o.isSome) && iw.n ≠ 0 then ((wsum ws (vs.filterMap id)).div iw).toF32 else free i % 2 ^ 32)

end Sys2Proof.Machine
end

