-- ==== Sys2Proof/Machine/GfxPass.lean ====
section
/-! DEFINITION. Draw passes: descriptors and their checks (R219 to R221), attachments and their bytes (R203, R204), depth, stencil and
blend (R200 to R202), signatures and tracking slots (R210 to R215), fast-clear flags (R217). -/

namespace Sys2Proof.Machine

/-! ## Descriptors (R219, R220) -/

/-- Bytes per sample of a colour format. -/
def colourBytes (f : Nat) : Option Nat := match f with
  | 0x01 => some 1 | 0x02 => some 4 | 0x03 => some 4 | 0x04 => some 4 | 0x05 => some 4 | 0x06 => some 2 | 0x07 => some 4
  | 0x08 => some 8 | 0x09 => some 4 | 0x0A => some 16 | 0x0B => some 4 | _ => none

/-- Bytes per sample of a depth or stencil format. -/
def depthBytes (f : Nat) : Option Nat := match f with
  | 0x20 => some 2 | 0x21 => some 4 | 0x22 => some 4 | 0x23 => some 8 | 0x24 => some 1 | _ => none

/-- An attachment descriptor. -/
structure Att where
  idx : Nat
  addr : Nat
  pitch : Nat
  fmt : Nat
  layout : Nat
  load : Nat
  store : Nat
  track : Nat
  slot : Nat
  clear : List Nat
  flags : Nat
  raddr : Nat
  rpitch : Nat
  exp : Nat
  deriving DecidableEq, Repr

/-- Word at a byte offset of a pass descriptor, and a 64-bit value. -/
def pdWord (d : List Nat) (off : Nat) : Nat := d.getD (off / 4) 0
def pd64 (d : List Nat) (off : Nat) : Nat := pdWord d off + pdWord d (off + 4) * 2 ^ 32

/-- Attachment `i` of a pass descriptor. -/
def attOf (d : List Nat) (i : Nat) : Att :=
  let b := 0x40 + 0x40 * i
  let m := pdWord d (b + 0x0C)
  ⟨i, pd64 d b, pdWord d (b + 8), bits m 7 0, bits m 9 8, bits m 11 10, bits m 13 12, bits m 15 14, bits m 17 16,
   [pdWord d (b + 0x10), pdWord d (b + 0x14), pdWord d (b + 0x18), pdWord d (b + 0x1C)], pd64 d (b + 0x20), pd64 d (b + 0x28),
   pdWord d (b + 0x30), pd64 d (b + 0x34)⟩

/-- Size, render area, samples and attachments of a pass. -/
def pdW (d : List Nat) : Nat := bits (pdWord d 0) 15 0
def pdH (d : List Nat) : Nat := bits (pdWord d 0) 31 16
def pdTilesX (d : List Nat) : Nat := ceilDiv (pdW d) 32
def pdTilesY (d : List Nat) : Nat := ceilDiv (pdH d) 32
def pdTx0 (d : List Nat) : Nat := bits (pdWord d 4) 8 0
def pdTy0 (d : List Nat) : Nat := bits (pdWord d 4) 24 16
def pdTx1 (d : List Nat) : Nat := bits (pdWord d 8) 9 0
def pdTy1 (d : List Nat) : Nat := bits (pdWord d 8) 25 16
def pdLog2 (d : List Nat) : Nat := bits (pdWord d 0xC) 1 0
def pdSamples (d : List Nat) : Nat := 2 ^ pdLog2 d
def pdPartial (d : List Nat) : Bool := bit (pdWord d 0xC) 4
def pdColors (d : List Nat) : Nat := bits (pdWord d 0xC) 11 8
def pdDs (d : List Nat) : Bool := bit (pdWord d 0xC) 12

/-- The attachments of a pass in order. -/
def pdAtts (d : List Nat) : List Att := (List.range (pdColors d)).map (attOf d) ++ (if pdDs d then [attOf d 8] else [])

/-- Bytes per sample of an attachment. -/
def Att.bytes (a : Att) : Nat := if a.idx = 8 then (depthBytes a.fmt).getD 0 else (colourBytes a.fmt).getD 0

/-- T of R177. -/
def pdTileBytes (d : List Nat) : Nat := 1024 * pdSamples d * ((pdAtts d).map Att.bytes).sum

/-- Tile indices of the render area, ascending. -/
def pdTiles (d : List Nat) : List Nat :=
  (List.range (pdTy1 d - pdTy0 d)).flatMap (fun y => (List.range (pdTx1 d - pdTx0 d)).map (fun x =>
    (pdTy0 d + y) * pdTilesX d + pdTx0 d + x))

/-- Whether a render area covers the whole target. -/
def pdWhole (d : List Nat) : Bool := pdTx0 d == 0 && pdTy0 d == 0 && pdTx1 d == pdTilesX d && pdTy1 d == pdTilesY d

/-! ## Tracking slots (R211, R214) -/

/-- The lowest first entry of a free run, trying 0 and the end of each claimed run (R211). -/
def GfxState.firstFit (g : GfxState) (n : Nat) : Option Nat :=
  let runs := g.slots.map (fun p => (p.2.base, p.2.tilesX * p.2.tilesY))
  let starts := 0 :: runs.map (fun r => r.1 + r.2)
  let ok (b : Nat) : Bool := b + n ≤ 65536 && runs.all (fun r => r.1 + r.2 ≤ b || b + n ≤ r.1)
  (starts.filter ok).foldl (fun (m : Option Nat) b => some (match m with
    | some a => min a b
    | none => b)) none

/-- Clear the valid bits of a slot. -/
def GfxState.invalidate (g : GfxState) (t : TrackSlot) : GfxState :=
  { g with table := Sparse.dropRange g.table t.base (t.tilesX * t.tilesY) }

/-- One GFX_TRACK: its code and the slots after it. A reserved OP is CC_GFX_PACKET. -/
def GfxState.track (g : GfxState) (op slot ctx tx ty : Nat) : Nat × GfxState :=
  match op, Sparse.find g.slots slot with
  | 0, some _ => (0x1D, g)
  | 0, none =>
    match g.firstFit (tx * ty) with
    | some b => let t : TrackSlot := ⟨ctx, b, tx, ty, 0⟩; (0, { g.invalidate t with slots := Sparse.put g.slots slot t })
    | none => (0x1D, g)
  | 3, _ => (0x1F, g)
  | _, none => (0x1C, g)
  | n, some t =>
    if t.ctx ≠ ctx then (0x1C, g)
    else if n = 1 then (0, g.invalidate t)
    else (0, { g.invalidate t with slots := Sparse.drop g.slots slot })

/-- Apply a waiting GFX_TRACK unit. -/
def GfxState.trackUnit (g : GfxState) (u : GfxUnit) : Nat × GfxState :=
  let w0 := u.body.getD 0 0
  let w1 := u.body.getD 1 0
  g.track (bits w0 1 0) (bits w0 5 4) u.ctx (bits w1 9 0) (bits w1 25 16)

/-- The slots as they stand once every waiting packet has taken effect (R214). -/
def GfxState.predicted (g : GfxState) : GfxState :=
  g.units.foldl (fun h u => if u.op = 0x45 then (h.trackUnit u).2 else h) g

/-- CC_GFX_SLOT for a named slot. -/
def GfxState.slotBad (g : GfxState) (slot ctx tx ty : Nat) : Bool := match Sparse.find g.predicted.slots slot with
  | some t => t.ctx ≠ ctx || t.tilesX ≠ tx || t.tilesY ≠ ty
  | none => true

/-! ## Checks (R221) -/

/-- Whether an address and a pitch break R203. -/
def layoutBad (layout addr pitch row : Nat) : Bool :=
  if layout = 0 then addr % 256 ≠ 0 || pitch % 256 ≠ 0 || pitch < row || 2 ^ 48 ≤ addr
  else addr % 4096 ≠ 0 || pitch ≠ 0 || 2 ^ 48 ≤ addr

/-- CC_GFX_FORMAT for one attachment. -/
def Att.formatBad (d : List Nat) (a : Att) : Bool :=
  let b := a.bytes
  b == 0 || 2 ≤ a.layout || a.load == 3 || a.store == 3 || a.track == 3
    || layoutBad a.layout a.addr a.pitch (pdW d * pdSamples d * b)
    || (a.store == 2 && (pdLog2 d == 0 || layoutBad a.layout a.raddr a.rpitch (pdW d * b)))

/-- Bytes of the normal region of a cluster. -/
def State.normalBytes (s : State) (k : Nat) : Nat := grdNormal (s.cluster k).region * 65536

/-- Tile buffers a cluster keeps in flight (R177). -/
def State.tileBuffers (s : State) (k : Nat) (d : List Nat) : Nat :=
  if pdTileBytes d = 0 then 8 else min 8 ((s.normalBytes k - 262144) / pdTileBytes d)

/-- Whether the fields of a pass descriptor that are not listed are 0. -/
def pdReserved (d : List Nat) : Bool :=
  let w (o : Nat) : Nat := pdWord d o
  bits (w 4) 15 9 ≠ 0 || bits (w 4) 31 25 ≠ 0 || bits (w 8) 15 10 ≠ 0 || bits (w 8) 31 26 ≠ 0 || bits (w 0xC) 3 2 ≠ 0
    || bits (w 0xC) 7 5 ≠ 0 || bits (w 0xC) 31 13 ≠ 0 || w 0x1C ≠ 0 || (List.range 6).any (fun i => w (0x28 + 4 * i) ≠ 0)
    || (pdAtts d).any (fun a => let b := 0x40 + 0x40 * a.idx; bits (w (b + 0xC)) 31 18 ≠ 0 || w (b + 0x3C) ≠ 0)

/-- The check of a pass descriptor in the order of R221: 0, or the code. -/
def State.passCode (s : State) (ctx : Nat) (d : List Nat) : Nat :=
  let atts := pdAtts d
  if pdW d = 0 ∨ pdH d = 0 ∨ 16384 < pdW d ∨ 16384 < pdH d ∨ pdTx1 d ≤ pdTx0 d ∨ pdTy1 d ≤ pdTy0 d ∨ pdTilesX d < pdTx1 d
      ∨ pdTilesY d < pdTy1 d ∨ 8 < pdColors d then 0x18
  else if atts.any (fun a => a.formatBad d) || 64 < ((List.range (pdColors d)).map (fun i => (attOf d i).bytes)).sum then 0x19
  else if (List.range 12).all (fun k => s.flag Reg.GLB_REPAIR k || s.tileBuffers k d == 0) then 0x1A
  else if pd64 d 0x10 % 4096 ≠ 0 ∨ pdWord d 0x18 < 16 ∨ pd64 d 0x20 % 4096 ≠ 0 ∨ (pdPartial d ∧ pd64 d 0x20 = 0)
      ∨ (!pdPartial d ∧ pd64 d 0x20 ≠ 0) then 0x1B
  else if atts.any (fun a => a.track == 1 && (a.store == 1 || s.gfx.slotBad a.slot ctx (pdTilesX d) (pdTilesY d))) then 0x1C
  else if atts.any (fun a => a.track == 2 && (a.flags == 0 || a.flags % 16 ≠ 0 || a.store == 1 || (a.load == 1 && !pdWhole d))) then 0x1E
  else if pdReserved d || atts.any (fun a => a.track == 1 && a.exp % 64 ≠ 0) then 0x1F
  else 0

/-- Whether a stage descriptor is out of range: REGS 0, or a field not listed. -/
def stageBad (st : List Nat) (o : Nat) : Bool :=
  stFld st (o + 0x10) 7 0 == 0 || stFld st (o + 0x10) 31 8 ≠ 0 || (List.range 3).any (fun i => stWord st (o + 0x14 + 4 * i) ≠ 0)

/-- Whether a state block has a reserved value (CC_GFX_PACKET). -/
def stateBad (d st : List Nat) : Bool :=
  let topo := stTopology st
  let dom := stDomain st
  let out := stTessOut st
  let in01 (o : Nat) : Bool := match f32 (stWord st o) with
    | .fin .. => (Q.ofInt 0).le (Q.ofF32 (stWord st o)) && (Q.ofF32 (stWord st o)).le (Q.ofInt 1)
    | _ => false
  let blend (i : Nat) : Bool :=
    let o := 0xC0 + 4 * i
    15 ≤ stFld st o 5 1 || 15 ≤ stFld st o 10 6 || 5 ≤ stFld st o 13 11 || 15 ≤ stFld st o 18 14 || 15 ≤ stFld st o 23 19
      || 5 ≤ stFld st o 26 24 || stFld st o 31 31 ≠ 0
      || (i < pdColors d && stFld st o 0 0 == 1 && (attOf d i).fmt == 0x0B)
  stageBad st 0 || stageBad st 0x60 || (dom ≠ 0 && (stageBad st 0x20 || stageBad st 0x40))
    || 7 ≤ topo || (topo == 6 && (stCp st == 0 || 16 < stCp st)) || (dom == 0) == (topo == 6) || 16 < stVars st
    || stFld st 0x80 20 19 == 3 || 16 < stPvec st || stFld st 0x80 31 28 ≠ 0 || (dom ≠ 0 && (dom == 3) != (out == 3))
    || stFld st 0x84 31 6 ≠ 0 || !in01 0xA0 || !in01 0xA4 || stFld st 0xB0 31 6 ≠ 0
    || stFld st 0xB4 15 12 ≠ 0 || stFld st 0xB4 31 24 ≠ 0 || stFld st 0xB8 15 12 ≠ 0 || stFld st 0xB8 31 24 ≠ 0
    || (List.range 8).any blend || stFld st 0xF0 31 16 ≠ 0 || (List.range 3).any (fun i => stWord st (0xF4 + 4 * i) ≠ 0)

/-! ## Colours (R202) -/

/-- The channels of a format: bit position, width and kind (0 UNORM, 1 float of the width, 2 F32), red to alpha; none where
the format lacks the channel. -/
def channelsOf (f : Nat) : List (Option (Nat × Nat × Nat)) := match f with
  | 0x01 => [some (0, 8, 0), none, none, none]
  | 0x02 => [some (0, 8, 0), some (8, 8, 0), some (16, 8, 0), some (24, 8, 0)]
  | 0x03 => [some (16, 8, 0), some (8, 8, 0), some (0, 8, 0), some (24, 8, 0)]
  | 0x04 => [some (0, 10, 0), some (10, 10, 0), some (20, 10, 0), some (30, 2, 0)]
  | 0x05 => [some (0, 11, 1), some (11, 11, 1), some (22, 10, 1), none]
  | 0x06 => [some (0, 16, 1), none, none, none]
  | 0x07 => [some (0, 16, 1), some (16, 16, 1), none, none]
  | 0x08 => [some (0, 16, 1), some (16, 16, 1), some (32, 16, 1), some (48, 16, 1)]
  | 0x09 => [some (0, 32, 2), none, none, none]
  | 0x0A => [some (0, 32, 2), some (32, 32, 2), some (64, 32, 2), some (96, 32, 2)]
  | _ => []

/-- Whether a format is UNORM. -/
def isUnorm (f : Nat) : Bool := 1 ≤ f && f ≤ 4

/-- The exact value of a channel's bits. -/
def chanValue (w kind c : Nat) : FVal :=
  if kind = 0 then f32 (toF32 c (2 ^ w - 1))
  else if kind = 2 then f32 c
  else if w = 16 then fdecode 5 10 c
  else fdecode 5 (w - 5) c

/-- A channel's bits of an F32 word, rounded to nearest even. NaN in UNORM and a negative number in an unsigned float are free: the
spec states no result. -/
def chanBits (w kind free word : Nat) : Nat :=
  let v := f32 word
  if kind = 0 then (if v = .nan then free % 2 ^ w else (v.fixed (2 ^ w - 1) 0 ((2 ^ w - 1 : Nat) : Int)).toNat)
  else if kind = 2 then word % 2 ^ 32
  else if w = 16 then fenc .rne 5 10 v
  else if v.isNeg && !v.isZero then free % 2 ^ w
  else fenc .rne 5 (w - 5) v % 2 ^ w

/-- The F32 channels of a stored sample: absent red to blue read 0, absent alpha 1. -/
def sampleColour (f v : Nat) : List Nat :=
  ((channelsOf f).zip [0, 0, 0, 0x3F800000]).map (fun (c, d) => match c with
    | some (lo, w, kind) => fenc .rne 8 23 (chanValue w kind (bits v (lo + w - 1) lo))
    | none => d)

/-- Replace the channels of a stored sample whose mask bit is set. -/
def putColour (f mask free old : Nat) (ws : List Nat) : Nat :=
  ((channelsOf f).zip (List.range 4)).foldl (fun v (c, i) => match c with
    | some (lo, w, kind) => if bit mask i then setBits v (lo + w - 1) lo (chanBits w kind (free + i) (ws.getD i 0)) else v
    | none => v) old

/-- One F32 operation, rounded once. -/
def fMul (a b : Nat) : Nat := fenc .rne 8 23 ((f32 a).times (f32 b))
def fAdd (a b : Nat) : Nat := fenc .rne 8 23 ((f32 a).plus .rne (f32 b))
def fNeg (a : Nat) : Nat := fenc .rne 8 23 (f32 a).negate
def fSub (a b : Nat) : Nat := fAdd a (fNeg b)
def fMin (isMax : Bool) (a b : Nat) : Nat := fenc .rne 8 23 ((f32 a).minmax isMax (f32 b))
def fOne : Nat := 0x3F800000

/-- Clamp to [0, 1]; NaN is free. -/
def fClamp (free a : Nat) : Nat := if f32 a = .nan then toF32 (free % 256 : Nat) 255 else fenc .rne 8 23 (f32 a).clamp01

/-- A blend factor for channel `i` (3 alpha). -/
def blendFactor (code i : Nat) (src dst const : List Nat) : Nat :=
  let c (l : List Nat) (j : Nat) : Nat := l.getD j 0
  match code with
  | 0 => 0 | 1 => fOne | 2 => c src i | 3 => fSub fOne (c src i) | 4 => c dst i | 5 => fSub fOne (c dst i) | 6 => c src 3
  | 7 => fSub fOne (c src 3) | 8 => c dst 3 | 9 => fSub fOne (c dst 3) | 10 => c const i | 11 => fSub fOne (c const i)
  | 12 => c const 3 | 13 => fSub fOne (c const 3)
  | _ => if i = 3 then fOne else fMin false (c src 3) (fSub fOne (c dst 3))

/-- One blended channel. -/
def blendChan (op fs fd i : Nat) (src dst const : List Nat) : Nat :=
  let s := src.getD i 0
  let d := dst.getD i 0
  let a := fMul s (blendFactor fs i src dst const)
  let b := fMul d (blendFactor fd i src dst const)
  match op with
  | 0 => fAdd a b | 1 => fSub a b | 2 => fSub b a | 3 => fMin false s d | _ => fMin true s d

/-- Whether WMASK lets a fragment write a channel of attachment `i` (R202). -/
def colourWrites (st : List Nat) (i f : Nat) : Bool :=
  let mask := stFld st (0xC0 + 4 * i) 30 27
  if f = 0x0B then bit mask 0 else ((channelsOf f).zip (List.range 4)).any (fun p => p.1.isSome && bit mask p.2)

/-- The stored value of a sample after a fragment's colour (R202). -/
def blendSample (st : List Nat) (i f free old : Nat) (colour : List Nat) : Nat :=
  let o := 0xC0 + 4 * i
  let mask := stFld st o 30 27
  if f = 0x0B then (if bit mask 0 then colour.getD 0 0 % 2 ^ 32 else old)
  else
    let cl (n : Nat) (l : List Nat) : List Nat :=
      if isUnorm f then (l.zip (List.range 4)).map (fun p => fClamp (free + n + p.2) p.1) else l
    let src := cl 0 colour
    let res := if stFld st o 0 0 = 0 then src
      else
        let dst := sampleColour f old
        let const := (List.range 4).map (fun j => stWord st (0xE0 + 4 * j))
        cl 4 ((List.range 4).map (fun j =>
          if j = 3 then blendChan (stFld st o 26 24) (stFld st o 18 14) (stFld st o 23 19) 3 src dst const
          else blendChan (stFld st o 13 11) (stFld st o 5 1) (stFld st o 10 6) j src dst const))
    putColour f mask (free + 8) old res

/-! ## Depth and stencil (R201) -/

/-- Whether a format has depth, and stencil. -/
def hasDepth (f : Nat) : Bool := f ≠ 0x24
def hasStencil (f : Nat) : Bool := f == 0x21 || f == 0x23 || f == 0x24

/-- Depth and stencil of a stored sample. -/
def depthPart (f v : Nat) : Nat := if f = 0x20 then v % 2 ^ 16 else if f = 0x21 then v % 2 ^ 24 else if f = 0x24 then 0 else v % 2 ^ 32
def stencilPart (f v : Nat) : Nat := if f = 0x21 then bits v 31 24 else if f = 0x23 then bits v 39 32 else if f = 0x24 then v % 256 else 0

/-- A stored sample of depth and stencil. -/
def packDs (f d s : Nat) : Nat := match f with
  | 0x20 => d | 0x21 => d % 2 ^ 24 + s % 256 * 2 ^ 24 | 0x22 => d | 0x23 => d + s % 256 * 2 ^ 32 | _ => s % 256

/-- A fragment's depth in the format; the clamp of a NaN in F32 is free. -/
def depthBits (f : Nat) (clamp : Bool) (free w : Nat) : Nat :=
  let unorm (n : Nat) : Nat := ((f32 w).fixed (2 ^ n - 1) 0 ((2 ^ n - 1 : Nat) : Int)).toNat
  if f = 0x20 then unorm 16 else if f = 0x21 then unorm 24
  else if clamp then (if f32 w = .nan then toF32 (free % 256 : Nat) 255 else fenc .rne 8 23 (f32 w).clamp01) else w

/-- A comparison of R201. -/
def compareFn (fn : Nat) (lt eq : Bool) : Bool := match fn with
  | 0 => false | 1 => lt | 2 => eq | 3 => lt || eq | 4 => !lt && !eq | 5 => !eq | 6 => !lt | _ => true

/-- The depth comparison: integers for UNORM, F32 otherwise; a NaN is neither less, equal nor greater. -/
def depthCompare (f fn a b : Nat) : Bool :=
  if f = 0x20 ∨ f = 0x21 then compareFn fn (decide (a < b)) (decide (a = b))
  else
    let x := f32 a
    let y := f32 b
    if x = .nan ∨ y = .nan then fn == 5 || fn == 7
    else compareFn fn (x.lt y) (!x.lt y && !y.lt x)

/-- A stencil operation. -/
def stencilOp (op ref v : Nat) : Nat := match op with
  | 0 => v | 1 => 0 | 2 => ref | 3 => min 255 (v + 1) | 4 => v - 1 | 5 => 255 - v | 6 => (v + 1) % 256 | _ => (v + 255) % 256

/-- The depth and stencil tests of one sample (R201): whether it passes, whether depth or stencil is written, and the stored value
after. DEPTH_WRITE acts without DEPTH_TEST too (DEDUCED, log entry 46). -/
def testSample (st : List Nat) (f : Nat) (front : Bool) (free depth old : Nat) : Bool × Bool × Nat :=
  let o := if front then 0xB4 else 0xB8
  let m := if front then 0 else 16
  let stencilOn := hasStencil f && stFld st 0xB0 5 5 == 1
  let rm := stFld st 0xBC (m + 7) m
  let wm := stFld st 0xBC (m + 15) (m + 8)
  let ref := stFld st o 23 16
  let sv := stencilPart f old
  let a := ref &&& rm
  let b := sv &&& rm
  let sPass := !stencilOn || compareFn (stFld st o 2 0) (decide (a < b)) (decide (a = b))
  let dv := depthPart f old
  let db := depthBits f (stFld st 0x84 3 3 == 1) free depth
  let dPass := !(hasDepth f && stFld st 0xB0 0 0 == 1) || depthCompare f (stFld st 0xB0 4 2) db dv
  let op := if !sPass then stFld st o 5 3 else if !dPass then stFld st o 8 6 else stFld st o 11 9
  let ns := if stencilOn then (stencilOp op ref sv &&& wm) ||| (sv &&& (255 - wm)) else sv
  let dWrite := sPass && dPass && hasDepth f && stFld st 0xB0 1 1 == 1
  let nd := if dWrite then db else dv
  (sPass && dPass, dWrite || (stencilOn && op ≠ 0 && wm ≠ 0), packDs f nd ns)

/-! ## Tile images (R203, R204) -/

/-- Bytes of a clear value in the format (R219). -/
def Att.clearBytes (a : Att) : List Byte :=
  if a.idx = 8 then leBytes a.bytes (packDs a.fmt (depthBits a.fmt false 0 (a.clear.getD 0 0)) (a.clear.getD 1 0 % 256))
  else (wordBytes a.clear).take a.bytes

/-- Offset of sample `k` of pixel (x, y) of a tile in its image. -/
def sampleOff (a : Att) (samples x y k : Nat) : Nat := ((y * 32 + x) * samples + k) * a.bytes

/-- Read and write a sample of an image. -/
def getSample (img : List Byte) (off n : Nat) : Nat := leNat ((img.drop off).take n)
def putSample (img : List Byte) (off n v : Nat) : List Byte := img.take off ++ leBytes n v ++ img.drop (off + n)

/-- Pixels of a tile that lie on the target: columns and rows. -/
def tileCols (d : List Nat) (t : Nat) : Nat := min 32 (pdW d - t % pdTilesX d * 32)
def tileRows (d : List Nat) (t : Nat) : Nat := min 32 (pdH d - t / pdTilesX d * 32)

/-- Where row `r` of a tile lies in memory in a layout of `b` bytes per pixel: address and bytes on the target. -/
def rowAddr (d : List Nat) (layout addr pitch b t r : Nat) : Nat × Nat :=
  if layout = 0 then (addr + (t / pdTilesX d * 32 + r) * pitch + t % pdTilesX d * 32 * b, tileCols d t * b)
  else (addr + t * 1024 * b + r * 32 * b, 32 * b)

/-- The first bytes of every row of an image, as it lies on the target (R210). -/
def targetBytes (d : List Nat) (b t : Nat) (img : List Byte) : List Byte :=
  (List.range (tileRows d t)).flatMap (fun r => (img.drop (r * 32 * b)).take (tileCols d t * b))

/-- An image with 0 beyond the target's edge. -/
def edgeZero (d : List Nat) (b t : Nat) (img : List Byte) : List Byte :=
  (List.range 32).flatMap (fun r =>
    let row := (img.drop (r * 32 * b)).take (32 * b)
    if r < tileRows d t then row.take (tileCols d t * b) ++ List.replicate ((32 - tileCols d t) * b) 0
    else List.replicate (32 * b) 0)

/-- The pieces a tile's image is written in: address and bytes, rows from top to bottom. -/
def imagePieces (d : List Nat) (layout addr pitch b t : Nat) (img : List Byte) : List (Nat × List Byte) :=
  let img := edgeZero d b t img
  (List.range (if layout = 0 then tileRows d t else 32)).map (fun r =>
    let (a, n) := rowAddr d layout addr pitch b t r
    (a, (img.drop (r * 32 * b)).take n))

/-- The average of a channel over samples, in F32: the sum's roundings in order of sample number, then the division's (DEDUCED, log
entry 51). -/
def averageF32 (l : List Nat) : Nat :=
  let sum := l.foldl fAdd 0
  fMul sum (toF32 1 l.length)

/-- The resolved image of an attachment (R204): one sample per pixel. -/
def resolveImage (a : Att) (samples free : Nat) (img : List Byte) : List Byte :=
  (List.range 1024).flatMap (fun p =>
    let vs := (List.range samples).map (fun k => getSample img ((p * samples + k) * a.bytes) a.bytes)
    if a.idx = 8 then leBytes a.bytes (vs.headD 0)
    else if a.fmt = 0x0B then
      leBytes 4 ((f32 (averageF32 (vs.map (fun v => toF32 (v : Nat) 1)))).fixed 1 0 ((2 ^ 32 - 1 : Nat) : Int)).toNat
    else
      let cs := vs.map (sampleColour a.fmt)
      leBytes a.bytes (putColour a.fmt 15 free 0 ((List.range 4).map (fun j => averageF32 (cs.map (fun c => c.getD j 0))))))

/-! ## Signatures (R210) -/

/-- One step of the CRC's register for a bit. -/
def crcBit (r : Nat) (b : Bool) : Nat :=
  let top := bit r 63 != b
  let r := r * 2 % 2 ^ 64
  if top then r ^^^ 0x42F0E1EBA9EA3693 else r

/-- One byte, most significant bit first. -/
def crcByte (r : Nat) (b : Byte) : Nat := (List.range 8).foldl (fun r i => crcBit r (bit b.toNat (7 - i))) r

/-- CRC-64 of R210. -/
def crc64 (bs : List Byte) : Nat := (bs.foldl crcByte (2 ^ 64 - 1)) ^^^ (2 ^ 64 - 1)

/-! ## Exports (R215) -/

/-- Words of a changed bitmap, padded to 64 bytes. -/
def changedWords (n : Nat) (changed : Nat → Bool) : List Nat :=
  (List.range (ceilDiv n 512 * 16)).map (fun w => ((List.range 32).map (fun i => if 32 * w + i < n && changed (32 * w + i) then 2 ^ i else 0)).sum)

/-- An export record. `inArea` says which tiles the operation covered, `changed` their changed bits. -/
def exportBytes (g : GfxState) (slot : Nat) (t : TrackSlot) (gen time : Nat) (inArea changed : Nat → Bool) : List Byte :=
  let n := t.tilesX * t.tilesY
  let entry (i : Nat) : Option Nat := Sparse.find g.table (t.base + i)
  let ch (i : Nat) : Bool := if inArea i then changed i else (entry i).isNone
  let sig (i : Nat) : Nat := (entry i).getD 0
  let words := changedWords n ch
  let count := ((List.range n).filter ch).length
  wordBytes [t.tilesX + t.tilesY * 65536, slot, gen, count] ++ leBytes 8 time ++ List.replicate 40 0 ++ wordBytes words
    ++ (List.range n).flatMap (fun i => leBytes 8 (sig i))

end Sys2Proof.Machine
end

