-- ==== Sys2Proof/Machine/Gfx.lean ====
section
/-! DEFINITION. The raster pipeline (chapter 5): graphics packets, the pass sequencer, stage groups, binning, tiles, tile store,
pass completion, tracking and flag operations (R175 to R224). -/

namespace Sys2Proof.Machine

/-- The L2 class of graphics accesses (R159). -/
def gfxClass : Nat := 5

/-- Lists of at most `n` elements; `f` covers the list. -/
def splitBy {α : Type} (n : Nat) : Nat → List α → List (List α)
  | 0, _ => []
  | f + 1, l => match l with
    | [] => []
    | a :: t => ((a :: t).take (max 1 n)) :: splitBy n f ((a :: t).drop (max 1 n))

/-! ## Passes -/

/-- The pass of a unit, and the pass that runs. -/
def State.passAt (s : State) (q seq : Nat) : Option GfxPass := s.gfx.passes.find? (fun p => p.q == q && p.seq == seq)
def State.runningPass (s : State) : Option GfxPass := s.gfx.passes.find? (fun p => p.run)

/-- Store a pass that is still there. -/
def State.setPass (s : State) (p : GfxPass) : State :=
  { s with gfx := { s.gfx with passes := s.gfx.passes.map (fun (x : GfxPass) => if x.q = p.q ∧ x.seq = p.seq then p else x) } }

/-- Remove a graphics unit from the sequencer, with its pass. -/
def State.dropPass (s : State) (q seq : Nat) : State :=
  { s with gfx := { s.gfx with
    passes := s.gfx.passes.filter (fun p => !(p.q == q && p.seq == seq)),
    units := s.gfx.units.filter (fun p => !(p.q == q && p.seq == seq)) } }

/-- Whether a cluster is in graphics mode and staying there. -/
def State.inGraphics (s : State) (k : Nat) : Bool :=
  let c := s.cluster k
  s.cluOn && decide (c.mode = Mode.graphics) && c.switchTo.isNone && c.preempt.isNone && !s.flag Reg.GLB_REPAIR k

/-- The clusters that can take part in a pass (R177) and are not suspended. -/
def State.passClusters (s : State) (p : GfxPass) : List Nat :=
  (List.range 12).filter (fun k => s.inGraphics k && 1 ≤ s.tileBuffers k p.desc && !p.suspended.contains k)

/-- A pass boundary (R386): clusters stop holding a unit, and MASK and MAX take effect. -/
def State.passBoundary (s : State) (q seq : Nat) : State :=
  let s := { s with
    clusters := s.clusters.map (fun (x : Nat × Cluster) => (x.1, if x.2.gfxUnit = some (q, seq) then { x.2 with gfxUnit := none } else x.2)),
    gfx := { s.gfx with lastWork := s.time } }
  s.gfxBoundary

/-! ## Stage groups (R180, R181) -/

/-- CODE, ARGS and REGS of a stage: 0 vertex, 1 hull, 2 domain, 3 fragment; with the pass's context's window as it stands at the start
(R89). -/
def State.stageKernel (s : State) (c : Nat) (st : List Nat) (stage : Nat) : Kernel :=
  let (hostBase, devBase, winGiB) := match s.ctx c with
    | some x => (x.xlat.hostBase, x.xlat.devBase, if x.xlat.hostEn then x.xlat.winGiB else 0)
    | none => (0, 0, 0)
  let o := 0x20 * stage
  { code := stWord st o + stWord st (o + 4) * 2 ^ 32, args := stWord st (o + 8) + stWord st (o + 12) * 2 ^ 32, gx := 1, gy := 1, gz := 1,
    dx := 32, dy := 1, dz := 1, regs := stFld st (o + 0x10) 7 0, split := 0, shared := 0, griddle := 0, tongs := 0, tongsArg := 0,
    clusters := 0, indirect := false, deadline := 0, gridAddr := 0, bufs := [], hostBase, devBase, winGiB, next := 1,
    live := 1 }

/-- Sizes of a vertex output and a hull output record in words. -/
def outRecWords (st : List Nat) : Nat := 4 * (1 + stVars st)
def hullRecWords (st : List Nat) : Nat := 8 + 4 * stPvec st

/-- Bytes of a stage group's buffers. -/
def StageWork.poolBytes (w : StageWork) : Nat := 128 * w.inRec + 128 * w.outRec + 4 * w.shared.length

/-- What a work's block holds: its lanes, its buffers and their contents. -/
def StageWork.run (w : StageWork) (free : Nat) : StageRun :=
  let put (m : List (Nat × Byte)) (base : Nat) (bs : List Byte) : List (Nat × Byte) :=
    ((List.range bs.length).zip bs).foldl (fun m p => Sparse.put m (base + p.1) p.2) m
  let m := ((List.range w.input.length).zip w.input).foldl (fun m p => put m (15 * 2 ^ 24 + p.1 * 4 * w.inRec) (wordBytes p.2)) []
  ⟨w.stage, w.id, maskOf (List.range w.input.length), [(13, 4 * w.shared.length), (14, 128 * w.outRec), (15, 128 * w.inRec)],
   w.pool, put m (13 * 2 ^ 24) (wordBytes w.shared), free⟩

/-- Bytes of the stage pool in use on a cluster. -/
def GfxPass.poolUsed (p : GfxPass) (k : Nat) : Nat :=
  ((p.busy.filter (fun w => w.clu == k)).map StageWork.poolBytes).sum

/-- Place one stage group of the running pass on a core (R181), a saved one first. -/
def State.stagePlace (s : State) (core : Nat) : State :=
  let k := core / 4
  let c := s.cluster k
  match s.runningPass with
  | none => s
  | some p =>
    if !(s.passClusters p).contains k || (s.dutyGate && !p.rt) then s
    else match c.saved.find? (fun b => b.block.stage.isSome) with
      | some b =>
        if s.coreFits core b.block.kernel || (s.core core).blocks.isEmpty then
          match (s.setCluster k { c with saved := dropFirst (fun x => decide (x = b)) c.saved }).readSaved k b with
          | (true, s) => s.putOnCore core b.block b.groups true
          | (false, s) => s
        else s
      | none =>
        match p.works.find? (fun w => w.clu == k && p.poolUsed k + w.poolBytes ≤ 262144) with
        | none => s
        | some w =>
          let w := { w with pool := (lowestHole ((p.busy.filter (fun x => x.clu == k)).map (fun x => (x.pool, x.poolBytes))) w.poolBytes 262144).getD 0 }
          let st := (p.draws[w.draw]?).elim [] (fun d => d.st)
          let kn := s.stageKernel p.ctx st w.stage
          if !s.coreFits core kn then s
          else
            let (free, s) := s.drawNat
            let s := s.setPass { p with works := p.works.filter (fun x => x.id ≠ w.id), busy := p.busy ++ [w] }
            let run := w.run free
            let s := s.grdWipe k (s.stageAt k run (15 * 2 ^ 24)) w.poolBytes
            s.putOnCore core ⟨p.q, p.seq, p.ctx, 0, kn, 1, [], [], [], some run⟩ [newGroup 0 kn.code run.start] false

/-- A stage group has ended: its output records are taken (R181), unless a word of them is beyond repair (R140). -/
def State.stageDone (s : State) (core slot : Nat) : State :=
  match s.groupAt core slot with
  | none => s
  | some (_, b) =>
    match b.stage, s.passAt b.q b.seq with
    | some r, some p =>
      match p.busy.find? (fun w => w.id == r.work), s.grdMeet (core / 4) b.ctx (s.stageAt (core / 4) r (14 * 2 ^ 24)) ((Sparse.find r.sizes 14).getD 0) with
      | none, _ => s
      | some _, (true, s) => s.contextFault b.ctx 0x0202 (cluUnit core) (some (b.q, b.seq))
      | some w, (false, s) =>
        let byte (off : Nat) : Byte := let a := 14 * 2 ^ 24 + off; Sparse.get r.data (Config.freeByte r.free a) a
        let rec_ (l : Nat) : List Nat := (List.range w.outRec).map (fun i =>
          leNat ((List.range 4).map (fun j => byte (4 * (l * w.outRec + i) + j))))
        let recs := (w.keys.zip (List.range w.keys.length)).map (fun x => (x.1, rec_ x.2))
        let p := { p with busy := p.busy.filter (fun x => x.id ≠ w.id) }
        s.setPass (match w.stage with
          | 1 => { p with hulls := p.hulls ++ recs }
          | 3 => { p with tiles := p.tiles.map (fun (t : TileRun) => if t.cluster = w.clu ∧ t.tile = w.tile
              then { t with outs := t.outs ++ recs, left := t.left - 1 } else t) }
          | _ => { p with outs := p.outs ++ recs })
    | _, _ => s

/-- Number stage works as they join a pass. -/
def GfxPass.addWorks (p : GfxPass) (ws : List StageWork) : GfxPass :=
  { p with
    works := p.works ++ ((List.range ws.length).zip ws).map (fun (x : Nat × StageWork) => { x.2 with id := p.nextWork + x.1 }),
    nextWork := p.nextWork + ws.length }

/-! ## Draws (R183 to R191) -/

/-- One index of an indexed draw (R184). -/
def State.readIndex (s : State) (p : GfxPass) (d : GfxDraw) (k i : Nat) : Option Nat × State :=
  let n := 2 ^ (stFld d.st 0x80 11 10 - 1)
  if d.indexSize < i * n + n then (some 0, s)
  else match s.vread (.cluster k) p.ctx (d.indexAddr + i * n) n gfxClass false false with
    | (.ok bs none, s) => (some (leNat bs), s)
    | (.ok _ (some pa), s) => (none, s.poisonFault p.ctx pa (some (p.q, p.seq)))
    | (.fail f, s) => (none, s.accessFault p.ctx (0x10 + k) .read f (some (p.q, p.seq)))

/-- The vertices of one instance of a draw, none for a restart; none at all after a fault. -/
def State.drawStream (s : State) (p : GfxPass) (d : GfxDraw) (k : Nat) : Option (List (Option Nat)) × State :=
  if d.instances = 0 then (some [], s)
  else if d.indexAddr = 0 then (some ((List.range d.count).map (fun i => some ((d.first + i) % 2 ^ 32))), s)
  else
    let ones := 2 ^ (8 * 2 ^ (stFld d.st 0x80 11 10 - 1)) - 1
    (List.range d.count).foldl (fun (r, s) i => match r with
      | none => (none, s)
      | some l => match s.readIndex p d k i with
        | (none, s) => (none, s)
        | (some v, s) =>
          (some (l ++ [if stFld d.st 0x80 9 9 = 1 ∧ v = ones then none else some ((v + d.baseVertex) % 2 ^ 32)]), s)) (some [], s)

/-- Distinct numbers in order. -/
def nub : List Nat → List Nat
  | [] => []
  | a :: t => a :: (nub t).filter (fun x => x != a)

/-- Start a draw: assembly, batches of 1,024 primitives of one instance to the clusters in turn (R176), and the vertex groups
(R185). -/
def State.startDraw (s : State) (p : GfxPass) (d : GfxDraw) (ks : List Nat) : State :=
  match s.drawStream p d (ks.headD 0) with
  | (none, s) => s
  | (some stream, s) =>
    let prims := assemble (stTopology d.st) (stCp d.st) stream
    let n := prims.length
    let nb := ceilDiv n 1024
    let cluOf (inst i : Nat) : Nat := ks.getD ((p.batches + inst * nb + i / 1024) % max 1 ks.length) 0
    let key (inst i v : Nat) : Nat := (inst * 2 ^ 32 + i / 1024) * 2 ^ 32 + v
    let asm := (List.range d.instances).flatMap (fun inst => ((List.range n).zip prims).map (fun (i, vs) =>
      (⟨inst, inst * n + i, cluOf inst i, vs.map (key inst i)⟩ : AsmPrim)))
    let works := (List.range d.instances).flatMap (fun inst => (List.range nb).flatMap (fun b =>
      let vs := nub (((prims.drop (1024 * b)).take 1024).flatten)
      (splitBy 32 vs.length vs).map (fun g => (⟨0, 0, p.next, cluOf inst (1024 * b), 0, g.map (key inst (1024 * b)),
        g.map (fun v => [v, (d.firstInstance + inst) % 2 ^ 32, p.next, 0]), [], 4, outRecWords d.st, 0⟩ : StageWork))))
    s.setPass { (p.addWorks works) with asm := asm, outs := [], hulls := [], phase := .vertex, batches := p.batches + d.instances * nb }

/-- A stage output record. -/
def recOf (m : List (Nat × List Nat)) (key : Nat) : List Nat := ((m.find? (fun p => p.1 == key)).map (fun p => p.2)).getD []

/-- The control points of a patch as words. -/
def GfxPass.controlWords (p : GfxPass) (a : AsmPrim) : List Nat := a.verts.flatMap (recOf p.outs)

/-- Primitives per instance of the draw at work. -/
def GfxPass.perInst (p : GfxPass) (d : GfxDraw) : Nat := p.asm.length / max 1 d.instances

/-- The hull groups of a draw: up to 32 patches of one batch. -/
def GfxPass.hullWorks (p : GfxPass) (d : GfxDraw) : List StageWork :=
  let n := p.perInst d
  (List.range d.instances).flatMap (fun inst => (List.range (ceilDiv n 1024)).flatMap (fun b =>
    let ps := p.asm.filter (fun a => a.inst == inst && (a.ord - inst * n) / 1024 == b)
    (splitBy 32 ps.length ps).map (fun g => (⟨0, 1, p.next, (g.headD ⟨0, 0, 0, []⟩).clu, 0, g.map (fun a => a.ord),
      g.map (fun a => [a.ord - inst * n, (d.firstInstance + inst) % 2 ^ 32, p.next, 0]), g.flatMap p.controlWords, 4,
      hullRecWords d.st, 0⟩ : StageWork))))

/-- The domain primitives of a patch, from its hull output record. -/
def GfxPass.patchPrims (p : GfxPass) (d : GfxDraw) (a : AsmPrim) : List (List (Nat × Nat × Nat)) :=
  tessellate (stDomain d.st) (stFld d.st 0x80 20 19) (stTessOut d.st) ((recOf p.hulls a.ord).take 6)

/-- The domain groups of a draw: each distinct point of a patch once (R191), in groups of one patch. -/
def GfxPass.domainWorks (p : GfxPass) (d : GfxDraw) : List StageWork :=
  p.asm.flatMap (fun a =>
    let pts := distinct (p.patchPrims d a).flatten
    let keyed := (List.range pts.length).zip pts
    (splitBy 32 keyed.length keyed).map (fun g => (⟨0, 2, p.next, a.clu, 0, g.map (fun x => a.ord * 2 ^ 16 + x.1),
      g.map (fun x => [toF32 x.2.1 65536, toF32 x.2.2.1 65536, if stDomain d.st = 1 then toF32 x.2.2.2 65536 else 0, 0]),
      p.controlWords a ++ recOf p.hulls a.ord, 4, outRecWords d.st, 0⟩ : StageWork)))

/-- The primitives of a draw whose stages have ended: cluster and vertex output records, in order. -/
def GfxPass.drawPrims (p : GfxPass) (d : GfxDraw) : List (Nat × List (List Nat)) :=
  if stDomain d.st = 0 then p.asm.map (fun a => (a.clu, a.verts.map (recOf p.outs)))
  else p.asm.flatMap (fun a =>
    let prims := p.patchPrims d a
    let pts := distinct prims.flatten
    prims.map (fun pr => (a.clu, pr.map (fun x => recOf p.outs (a.ord * 2 ^ 16 + pts.idxOf x)))))

/-- Clip and cull a draw whose stages have ended (R192), for binning. -/
def State.endDraw (s : State) (p : GfxPass) (d : GfxDraw) : State :=
  let prims := p.drawPrims d
  let (_, s) := s.drawNat
  let free (o i : Nat) : Nat := Config.freeLane s.draws (o * 2 ^ 16 + i)
  let bins := ((List.range prims.length).zip prims).map (fun (o, c, recs) => clipPrim d.st (free o) p.next o c recs)
  s.setPass { p with asm := [], outs := [], hulls := [], toBin := bins, phase := .bin, next := p.next + 1 }

/-! ## Binning (R192 to R195) -/

/-- Tiles of the render area and the scissor a primitive is listed in. -/
def BinPrim.tiles (b : BinPrim) (d st : List Nat) : List Nat :=
  let tx := pdTilesX d
  let sx0 := stFld st 0xA8 15 0
  let sy0 := stFld st 0xA8 31 16
  let sx1 := stFld st 0xAC 15 0
  let sy1 := stFld st 0xAC 31 16
  (pdTiles d).filter (fun t =>
    let x := t % tx * 32
    let y := t / tx * 32
    sx0 < x + 32 && x < sx1 && sy0 < y + 32 && y < sy1
      && b.meets (x * 256 : Nat) (y * 256 : Nat) ((x + 32) * 256 : Nat) ((y + 32) * 256 : Nat))

/-- The state block of a primitive's draw. -/
def GfxPass.stOf (p : GfxPass) (b : BinPrim) : List Nat := (p.draws[b.draw]?).elim [] (fun d => d.st)

/-- The pieces of a primitive that some tile lists, and the heap they take at most (R193): three vertex records, and 8 bytes for each
tile that lists the primitive. -/
def GfxPass.binCost (p : GfxPass) (pieces : List BinPrim) : List BinPrim × Nat :=
  let listed (b : BinPrim) : List Nat := b.tiles p.desc (p.stOf b)
  let kept := pieces.filter (fun b => !(listed b).isEmpty)
  (kept, match kept with
    | [] => 0
    | b :: _ => 3 * 16 * (1 + stVars (p.stOf b)) + 8 * (nub (kept.flatMap listed)).length)

/-- Bytes of granules the graphics clusters may hold beyond the primitives' (R193). -/
def State.heapSlack (s : State) (p : GfxPass) : Nat :=
  65536 * ((List.range 12).filter (fun k => s.inGraphics k || p.suspended.contains k)).length

/-- Bin primitives one after another: each counts and takes heap (R193). Beyond what the heap surely holds, whether it is exhausted is
free; then a partial render starts, or the context faults (R194, R195). -/
def State.binAll (s : State) (p : GfxPass) : List (List BinPrim) → State
  | [] => s.setPass { p with toBin := [] }
  | b :: rest =>
    let x := p.binCost b
    match x.1 with
    | [] => s.binAll p rest
    | b0 :: _ =>
      let sure := p.heap + x.2 + s.heapSlack p ≤ pdWord p.desc 0x18 * 4096
      let (out, s) := if sure ∨ (pdPartial p.desc ∧ p.prims.isEmpty) then (false, s) else s.drawBool
      if !out then
        (s.count64 (Reg.CLU_RAS_PRIM_LO b0.clu) 1).binAll { p with heap := p.heap + x.2, prims := p.prims ++ x.1 } rest
      else if pdPartial p.desc then s.setPass { p with toBin := b :: rest, partial_ := true, phase := .render, nextTile := 0 }
      else
        (s.recC 0x0220 (0x10 + b0.clu) 2 p.ctx (pdWord p.desc 0x18) 0).contextFault p.ctx 0x0220 (0x10 + b0.clu) (some (p.q, p.seq))

/-! ## Tiles: loading (R194, R204, R217) -/

/-- Where attachment `i` starts in the spill area. -/
def spillBase (d : List Nat) (i : Nat) : Nat :=
  pd64 d 0x20 + (((pdAtts d).filter (fun a => a.idx < i)).map (fun a => pdTilesX d * pdTilesY d * 1024 * pdSamples d * a.bytes)).sum

/-- Read for the raster back end of a cluster; none after a fault. -/
def State.rasRead (s : State) (k : Nat) (p : GfxPass) (a n : Nat) : Option (List Byte) × State :=
  match s.vread (.cluster k) p.ctx a n gfxClass false false with
  | (.ok bs none, s) => (some bs, s)
  | (.ok _ (some pa), s) => (none, s.poisonFault p.ctx pa (some (p.q, p.seq)))
  | (.fail f, s) => (none, s.accessFault p.ctx (0x10 + k) .read f (some (p.q, p.seq)))

/-- Read a tile's image from a layout; bytes beyond the target are 0. -/
def State.readImage (s : State) (k : Nat) (p : GfxPass) (layout addr pitch b t : Nat) : Option (List Byte) × State :=
  (List.range 32).foldl (fun (r, s) row => match r with
    | none => (none, s)
    | some img =>
      if layout = 0 ∧ tileRows p.desc t ≤ row then (some (img ++ List.replicate (32 * b) 0), s)
      else
        let (a, n) := rowAddr p.desc layout addr pitch b t row
        match s.rasRead k p a n with
        | (none, s) => (none, s)
        | (some bs, s) => (some (img ++ bs ++ List.replicate (32 * b - n) 0), s)) (some [], s)

/-- An image filled with a value. -/
def fillImage (d : List Nat) (v : List Byte) : List Byte := (List.range (1024 * pdSamples d)).flatMap (fun _ => v)

/-- Whether a fast-clear tile's flag is set; none after a fault. -/
def State.readFlag (s : State) (k : Nat) (p : GfxPass) (a : Att) (t : Nat) : Option Bool × State :=
  match s.rasRead k p (a.flags + 16 + 4 * (t / 32)) 4 with
  | (none, s) => (none, s)
  | (some bs, s) => (some (bit (leNat bs) (t % 32)), s)

/-- What a don't-care load leaves of an attachment in a tile buffer (R204): each byte is 0 or the one an earlier tile of the pass left
there, a free choice. -/
def GfxPass.stale (p : GfxPass) (k buf n len : Nat) (a : Att) : List Byte :=
  let old := ((Sparse.find p.left (8 * k + buf)).bind (fun d => Sparse.find d a.idx)).getD []
  (List.range len).map (fun i => if bit (Config.freeByte n i).toNat 0 then old.getD i 0 else 0)

/-- Load one attachment of a tile: its image and whether it started cleared. -/
def State.loadAtt (s : State) (k buf : Nat) (p : GfxPass) (a : Att) (t : Nat) : Option (List Byte × Bool) × State :=
  let d := p.desc
  let b := pdSamples d * a.bytes
  let memory (s : State) : Option (List Byte × Bool) × State :=
    match s.readImage k p a.layout a.addr a.pitch b t with
    | (none, s) => (none, s)
    | (some img, s) => (some (img, false), s)
  if p.spilled then
    match s.readImage k p 1 (spillBase d a.idx) 0 b t with
    | (none, s) => (none, s)
    | (some img, s) => (some (img, p.clean.contains (a.idx, t)), s)
  else match a.load with
    | 1 => (some (fillImage d a.clearBytes, a.track == 2), s)
    | 0 =>
      if a.track = 2 then
        match s.readFlag k p a t with
        | (none, s) => (none, s)
        | (some true, s) =>
          match s.rasRead k p a.flags 16 with
          | (none, s) => (none, s)
          | (some h, s) => (some (fillImage d (h.take a.bytes), true), s)
        | (some false, s) => memory s
      else memory s
    | _ =>
      let (n, s) := s.drawNat
      (some (p.stale k buf n (1024 * b) a, false), s)

/-- Where a tile buffer of a pass begins in a cluster's Griddle: the buffers follow the stage pool in the normal region (R177; DESIGN
CHOICE, log entry 53). -/
def State.tileAt (s : State) (k buf : Nat) (p : GfxPass) : Nat :=
  grdNormalBase (s.cluster k).region + 262144 + buf * pdTileBytes p.desc

/-- The lowest tile buffer of a cluster that holds no tile in flight. -/
def GfxPass.freeBuf (p : GfxPass) (k : Nat) : Nat :=
  ((List.range 8).find? (fun b => !p.tiles.any (fun t => t.cluster == k && t.buf == b))).getD 0

/-- Load a tile into a tile buffer. -/
def State.loadTile (s : State) (k : Nat) (p : GfxPass) (t : Nat) : Option TileRun × State :=
  (pdAtts p.desc).foldl (fun (r, s) a => match r with
    | none => (none, s)
    | some (tr : TileRun) => match s.loadAtt k tr.buf p a t with
      | (none, s) => (none, s)
      | (some (img, clean), s) =>
        (some { tr with data := tr.data ++ [(a.idx, img)], clean := if clean then tr.clean ++ [a.idx] else tr.clean }, s))
    (some ⟨k, t, p.freeBuf k, [], [], (List.range p.prims.length).filter (fun i => match p.prims[i]? with
      | some b => (b.tiles p.desc (p.stOf b)).contains t
      | none => false), none, [], [], 0⟩, s)

/-! ## Tiles: fragments (R196 to R202) -/

/-- Pixels of a tile that a primitive covers, with their coverage, in row order. -/
def BinPrim.fragments (b : BinPrim) (d st : List Nat) (t : Nat) : List Frag :=
  let x0 := t % pdTilesX d * 32
  let y0 := t / pdTilesX d * 32
  (List.range (tileRows d t)).flatMap (fun r => (List.range (tileCols d t)).filterMap (fun c =>
    let x := x0 + c
    let y := y0 + r
    let pos := samplePos (pdLog2 d)
    let m := (((List.range pos.length).zip pos).map (fun (k, sx, sy) =>
      if b.covers ((x * 256 + sx * 16 : Nat) : Int) ((y * 256 + sy * 16 : Nat) : Int) then 2 ^ k else 0)).sum
    let inScissor := stFld st 0xA8 15 0 ≤ x && x < stFld st 0xAC 15 0 && stFld st 0xA8 31 16 ≤ y && y < stFld st 0xAC 31 16
    if inScissor && m ≠ 0 then some ⟨x, y, m⟩ else none))

/-- Depth of a fragment at sample `k`. -/
def BinPrim.sampleDepth (b : BinPrim) (d st : List Nat) (f : Frag) (k : Nat) : Nat :=
  let (sx, sy) := (samplePos (pdLog2 d)).getD k (8, 8)
  b.depth st ((f.x * 256 + sx * 16 : Nat) : Int) ((f.y * 256 + sy * 16 : Nat) : Int)

/-- Test the samples of a mask of a fragment: the samples that pass, those whose depth or stencil is written, and the depth-stencil image
after. -/
def testFrag (d st : List Nat) (b : BinPrim) (depth : Nat → Nat) (free : Nat) (f : Frag) (mask : Nat) (img : Option (List Byte)) :
    Nat × Nat × Option (List Byte) :=
  match img with
  | none => (mask, 0, none)
  | some img =>
    let a := attOf d 8
    let (m, w, img) := (setBitsOf 8 mask).foldl (fun (m, w, img) k =>
      let off := sampleOff a (pdSamples d) (f.x % 32) (f.y % 32) k
      let (ok, wr, v) := testSample st a.fmt b.front free (depth k) (getSample img off a.bytes)
      (if ok then m + 2 ^ k else m, if wr then w + 2 ^ k else w, putSample img off a.bytes v)) (0, 0, img)
    (m, w, some img)

/-- Whether a draw's tests run before shading (R200). -/
def earlyTest (st : List Nat) : Bool := stFld st 0x84 4 4 == 0 && stFld st 0x84 5 5 == 0

/-- The key of a helper's output, which is discarded. -/
def helperKey : Nat := 2 ^ 40

/-- The fragment groups of a primitive in a tile (R199), from the pixels to shade. -/
def fragWorks (p : GfxPass) (b : BinPrim) (st : List Nat) (free : Nat → Nat) (t : TileRun) (fs : List Frag) : List StageWork :=
  let quads := nub (fs.map (fun f => f.y / 2 * 2 ^ 16 + f.x / 2))
  (splitBy 8 quads.length quads).map (fun g =>
    let px := g.flatMap (fun q => (List.range 4).map (fun j => (q % 2 ^ 16 * 2 + j % 2, q / 2 ^ 16 * 2 + j / 2)))
    let cover (x y : Nat) : Nat := ((fs.find? (fun f => f.x == x && f.y == y)).map (fun f => f.cover)).getD 0
    let rec_ (x y : Nat) : List Nat :=
      let c := cover x y
      let cx : Int := ((x * 256 + 128 : Nat) : Int)
      let cy : Int := ((y * 256 + 128 : Nat) : Int)
      [x + y * 65536, c + (if c = 0 then 256 else 0) + (if b.front then 512 else 0), b.depth st cx cy, b.ord]
        ++ b.varyings st (fun i => free ((y % 32 * 32 + x % 32) * 64 + i)) cx cy
    ⟨0, 3, b.draw, t.cluster, t.tile, px.map (fun (x, y) => if cover x y = 0 then helperKey else y * 2 ^ 16 + x),
     px.map (fun (x, y) => rec_ x y), [], 4 * (1 + stVars st), 4 * (1 + pdColors p.desc), 0⟩)

/-- An image of a tile, and the tile with it replaced. -/
def TileRun.image (t : TileRun) (i : Nat) : Option (List Byte) := Sparse.find t.data i
def TileRun.setImage (t : TileRun) (i : Nat) (img : List Byte) : TileRun :=
  { t with data := t.data.map (fun (x : Nat × List Byte) => if x.1 = i then (i, img) else x) }

/-- Note that a fragment has written an attachment of a tile. -/
def TileRun.touch (t : TileRun) (i : Nat) : TileRun := { t with clean := t.clean.filter (fun x => x ≠ i) }

/-- Replace the depth-stencil image after a test, for the samples it wrote. -/
def TileRun.setDs (t : TileRun) (wrote : Nat) (img : Option (List Byte)) : TileRun := match img with
  | some img => if wrote = 0 then t else (t.setImage 8 img).touch 8
  | none => t

/-- Take up the next primitives of a tile until one has pixels to shade. -/
def State.tileNext (s : State) (p : GfxPass) (t : TileRun) : List Nat → State
  | [] => s.setPass { p with tiles := p.tiles.map (fun (x : TileRun) =>
      if x.cluster = t.cluster ∧ x.tile = t.tile then { t with prims := [], cur := none, frags := [], outs := [], left := 0 } else x) }
  | i :: rest =>
    match p.prims[i]? with
    | none => s.tileNext p t rest
    | some b =>
      let st := p.stOf b
      let (fr, s) := s.drawNat
      let fs := b.fragments p.desc st t.tile
      let (fs, t) := if earlyTest st then
          fs.foldl (fun (keep, t) f =>
            let img := t.image 8
            let (ok, w, img') := testFrag p.desc st b (b.sampleDepth p.desc st f) fr f f.cover img
            if ok = 0 then (keep, TileRun.setDs t w img') else (keep ++ [f], t)) (([] : List Frag), t)
        else (fs, t)
      if fs.isEmpty then s.tileNext p t rest
      else
        let works := fragWorks p b st (fun j => Config.freeLane fr j) t fs
        let t := { t with prims := rest, cur := some i, outs := [], left := works.length,
                          frags := fs.map (fun (f : Frag) => (f.y * 2 ^ 16 + f.x, f)) }
        s.setPass { (p.addWorks works) with tiles := p.tiles.map (fun (x : TileRun) =>
          if x.cluster = t.cluster ∧ x.tile = t.tile then t else x) }

/-- Blend one fragment into the colour attachments of a tile that it writes, for the samples that passed. -/
def blendFrag (d st : List Nat) (free : Nat) (f : Frag) (mask : Nat) (out : List Nat) (t : TileRun) : TileRun :=
  (List.range (pdColors d)).foldl (fun (t : TileRun) i =>
    let a := attOf d i
    match (if colourWrites st i a.fmt then t.image i else none) with
    | none => t
    | some img =>
      let img := (setBitsOf 8 mask).foldl (fun img k =>
        let off := sampleOff a (pdSamples d) (f.x % 32) (f.y % 32) k
        putSample img off a.bytes (blendSample st i a.fmt (free + 64 * i + 16 * k) (getSample img off a.bytes) ((out.drop (4 + 4 * i)).take 4))) img
      (t.setImage i img).touch i) t

/-- The primitive at work in a tile has been shaded: its fragments are tested and blended in order (R182, R200 to R202). -/
def State.finishPrim (s : State) (p : GfxPass) (t : TileRun) : State :=
  match t.cur.bind (fun i => p.prims[i]?) with
  | none => s.tileNext p t t.prims
  | some b =>
    let st := p.stOf b
    let (fr, s) := s.drawNat
    let (t', n) := t.frags.foldl (fun ((t : TileRun), n) (key, f) =>
      let out := recOf t.outs key
      let w0 := out.getD 0 0
      if stFld st 0x84 4 4 = 1 ∧ bit w0 0 then (t, n)
      else
        let depth (k : Nat) : Nat := if stFld st 0x84 5 5 = 1 then out.getD 1 0 else b.sampleDepth p.desc st f k
        let free := Config.freeLane fr (f.y % 32 * 32 + f.x % 32)
        let (ok, w, img) := testFrag p.desc st b depth free f (f.cover &&& bits w0 15 8) (t.image 8)
        let t := t.setDs w img
        let colour := (List.range (pdColors p.desc)).any (fun i => colourWrites st i (attOf p.desc i).fmt)
        if ok = 0 then (t, n) else (blendFrag p.desc st free f ok out t, n + popcount 8 (if colour then ok else ok &&& w))) (t, 0)
    (s.count64 (Reg.CLU_RAS_SAMPLES_LO t.cluster) n).tileNext p t' t.prims

/-! ## Tile store (R205 to R217) -/

/-- What a tile store does with one attachment: skip it, keep its flag, or write pieces; with its signature and its flag word's new
bit. -/
inductive StorePlan where
  | none
  | skip
  | flagged
  | write (kind : Nat) (pieces : List (Nat × List Byte)) (sig : Option Nat)
  deriving DecidableEq, Repr

/-- The plan for an attachment of a finished tile. -/
def State.storePlan (s : State) (p : GfxPass) (t : TileRun) (a : Att) (free : Nat) : StorePlan :=
  let d := p.desc
  let img := (t.image a.idx).getD []
  let b := pdSamples d * a.bytes
  if p.partial_ then .write 0 (imagePieces d 1 (spillBase d a.idx) 0 b t.tile img) none
  else if a.store = 1 then .none
  else if a.track = 2 ∧ t.clean.contains a.idx then .flagged
  else
    let (b, img, layout, addr, pitch) :=
      if a.store = 2 then (a.bytes, resolveImage a (pdSamples d) free img, a.layout, a.raddr, a.rpitch) else (b, img, a.layout, a.addr, a.pitch)
    let sig := crc64 (targetBytes d b t.tile img)
    let pieces := imagePieces d layout addr pitch b t.tile img
    let kind := if a.store = 2 then 1 else 0
    if a.track = 1 then
      match Sparse.find s.gfx.slots a.slot with
      | some x => if Sparse.find s.gfx.table (x.base + t.tile) = some sig then .skip else .write kind pieces (some sig)
      | none => .write kind pieces none
    else .write kind pieces none

/-- Translate the pages of a range for writing; the first failure. -/
def State.checkPages (s : State) (k c a n : Nat) : Option VFail × State :=
  (pagesOf a n).foldl (fun (r, s) (a, _) => match r with
    | some f => (some f, s)
    | none => match s.xlate (.cluster k) c a .write with
      | (.fault x, s) => (some (.xlate a x), s)
      | (.ok o, s) =>
        if o.cls = .device ∧ !s.ctxMayAccess c o.out then (some (.prot a o.out), s) else (none, s)) (none, s)

/-- The address of a tile's flag word. -/
def Att.flagWord (a : Att) (t : Nat) : Nat := a.flags + 16 + 4 * (t / 32)

/-- The check of R205: attachments in order, then flag words: attachment, KIND and failure. -/
def State.checkTile (s : State) (k : Nat) (p : GfxPass) (t : Nat) (plans : List (Att × StorePlan)) : Option (Nat × Nat × VFail) × State :=
  let ranges := plans.flatMap (fun (a, x) => match x with
      | .write kind ps _ => ps.map (fun r => (a.idx, kind, r.1, r.2.length))
      | _ => [])
    ++ plans.flatMap (fun (a, x) =>
      if p.partial_ ∨ a.track ≠ 2 then [] else match x with
        | .flagged => [(a.idx, 2, a.flagWord t, 4)]
        | .write .. => [(a.idx, 2, a.flagWord t, 4)]
        | _ => [])
  ranges.foldl (fun (r, s) (i, kind, a, n) => match r with
    | some f => (some f, s)
    | none => match s.checkPages k p.ctx a n with
      | (some f, s) => (some (i, kind, f), s)
      | (none, s) => (none, s)) (none, s)

/-- A withheld tile (R206, R208): capture, record and fault. -/
def State.withhold (s : State) (k : Nat) (p : GfxPass) (t att kind code lo hi : Nat) : State :=
  let s := if s.flag (Reg.CLU_RAS_FAULT k) 31 then s
    else s.setReg (Reg.CLU_RAS_FAULT k) (BitVec.ofNat 32 (t % pdTilesX p.desc + t / pdTilesX p.desc * 2 ^ 16 + att * 2 ^ 25 + kind * 2 ^ 29 + 2 ^ 31))
  (s.recC code (0x10 + k) 2 p.ctx lo hi).contextFault p.ctx code (0x10 + k) (some (p.q, p.seq))

/-- Set or clear a tile's flag with an atomic operation. -/
def State.putFlag (s : State) (k : Nat) (p : GfxPass) (a : Att) (t : Nat) (v : Bool) : State :=
  match s.rasRead k p (a.flagWord t) 4 with
  | (none, s) => s
  | (some bs, s) =>
    let w := leNat bs
    let w := setBits w (t % 32) (t % 32) (if v then 1 else 0)
    (s.vwrite (.cluster k) p.ctx (a.flagWord t) gfxClass (full (leBytes 4 w)) false false).2

/-- Perform the plan of one attachment. -/
def State.storeAtt (s : State) (k : Nat) (p : GfxPass) (t : Nat) (a : Att) (x : StorePlan) : State :=
  match x with
  | .none => s
  | .skip => s.count64 (Reg.CLU_RAS_SKIPPED_LO k) 1
  | .flagged => (s.putFlag k p a t true).count64 (Reg.CLU_RAS_SKIPPED_LO k) 1
  | .write _ ps sig =>
    let s := ps.foldl (fun s r => (s.vwrite (.cluster k) p.ctx r.1 gfxClass (full r.2) false false).2) s
    if p.partial_ then s
    else
      let s := s.count64 (Reg.CLU_RAS_STORED_LO k) 1
      let s := if a.track = 2 then s.putFlag k p a t false else s
      match sig, Sparse.find s.gfx.slots a.slot with
      | some v, some y => { s with gfx := { s.gfx with table := Sparse.put s.gfx.table (y.base + t) v } }
      | _, _ => s

/-- A tile has been stored: it leaves its buffer; the last one ends the rendering phase or the partial render. -/
def State.tileLeaves (s : State) (p : GfxPass) (k t : Nat) (plans : List (Att × StorePlan)) (clean : List Nat) : State :=
  let changed := plans.filterMap (fun (a, x) => match x with
    | .write _ _ (some _) => some (a.idx, t)
    | _ => none)
  let stored := p.tiles.find? (fun x => x.cluster == k && x.tile == t)
  let p := { p with
    left := stored.elim p.left (fun x => Sparse.put p.left (8 * k + x.buf) x.data)
    tiles := p.tiles.filter (fun x => !(x.cluster == k && x.tile == t)), changed := p.changed ++ changed,
    clean := if p.partial_ then p.clean.filter (fun x => x.2 ≠ t) ++ clean.map (fun i => (i, t)) else p.clean,
    took := if p.took.contains k then p.took else p.took ++ [k] }
  let p := if !p.tiles.isEmpty || p.nextTile < (pdTiles p.desc).length then p
    else if p.partial_ then { p with partial_ := false, spilled := true, prims := [], heap := 0, phase := .bin }
    else { p with phase := .done }
  s.setPass p

/-! ## The pass sequencer (R175, R214, R379) -/

/-- The graphics unit the sequencer takes next: the first of a real-time queue, else the first, passing over units that share a slot
with an earlier one. -/
def GfxState.nextUnit (g : GfxState) : Option GfxUnit :=
  let free := (List.range g.units.length).filterMap (fun i => match g.units[i]? with
    | some u => if (g.units.take i).any (fun e => e.slots.any (fun x => u.slots.contains x)) then none else some u
    | none => none)
  match free.find? (fun u => u.rt) with
  | some u => some u
  | none => free.head?

/-- A maintenance unit ends refused (R221). -/
def State.maintRefused (s : State) (u : GfxUnit) (code : Nat) : State := match s.unitAt u.q u.seq with
  | some w => (s.dropPass u.q u.seq).endAtStart u.q w 1 code
  | none => s.dropPass u.q u.seq

/-- GFX_TRACK takes effect (R211). -/
def State.runTrack (s : State) (u : GfxUnit) : State :=
  let (code, g) := s.gfx.trackUnit u
  if code ≠ 0 then s.maintRefused u code
  else ({ s with gfx := g }.dropPass u.q u.seq).unitCheck u.q u.seq

/-- A maintenance unit of a raster back end has ended, without a fault: it posts to the Ladle. -/
def State.maintDone (s : State) (u : GfxUnit) (k : Nat) : State :=
  if s.gfx.units.any (fun x => x.q == u.q && x.seq == u.seq) then
    (s.dropPass u.q u.seq).ladleDue ⟨u.q, u.seq, 0, 0x10 + k, 4⟩
  else s

/-- Write for a graphics unit; a failure faults its context. -/
def State.gfxWrite (s : State) (k : Nat) (u : GfxUnit) (a : Nat) (bs : List Byte) : State :=
  match s.vwrite (.cluster k) u.ctx a gfxClass (full bs) false false with
  | (some f, s) => s.accessFault u.ctx (0x10 + k) .write f (some (u.q, u.seq))
  | (none, s) => s

/-- Read for a graphics unit; none after a fault. -/
def State.gfxRead (s : State) (k : Nat) (u : GfxUnit) (a n : Nat) : Option (List Byte) × State :=
  match s.vread (.cluster k) u.ctx a n gfxClass false false with
  | (.ok bs none, s) => (some bs, s)
  | (.ok _ (some pa), s) => (none, s.poisonFault u.ctx pa (some (u.q, u.seq)))
  | (.fail f, s) => (none, s.accessFault u.ctx (0x10 + k) .read f (some (u.q, u.seq)))

/-- Word and 64-bit value of a unit's body. -/
def GfxUnit.w (u : GfxUnit) (n : Nat) : Nat := u.body.getD n 0
def GfxUnit.dw (u : GfxUnit) (n : Nat) : Nat := u.w n + u.w (n + 1) * 2 ^ 32

/-- Write an export and count it (R215). -/
def State.putExport (s : State) (k : Nat) (u : GfxUnit) (slot addr : Nat) (inArea changed : Nat → Bool) : State :=
  match Sparse.find s.gfx.slots slot with
  | none => s
  | some t =>
    let gen := (t.gen + 1) % 2 ^ 32
    let s := { s with gfx := { s.gfx with slots := Sparse.put s.gfx.slots slot { t with gen := gen } } }
    s.gfxWrite k u addr (exportBytes s.gfx slot t gen s.time inArea changed)

/-- The bytes of a tile of a surface that GFX_SIGN_SURFACE reads (R216). -/
def signRows (w h bpp planes a0 p0 a1 p1 tx ty : Nat) : List (Nat × Nat) :=
  let n := (min 32 (w - 32 * tx)) * bpp
  (List.range (min 32 (h - 32 * ty))).map (fun r => (a0 + (32 * ty + r) * p0 + 32 * tx * bpp, n))
    ++ (if planes = 2 then (List.range (min 16 (ceilDiv h 2 - 16 * ty))).map (fun r => (a1 + (16 * ty + r) * p1 + 32 * tx * bpp, n)) else [])

/-- GFX_SIGN_SURFACE takes effect (R216). -/
def State.runSign (s : State) (u : GfxUnit) (k : Nat) : State :=
  let slot := bits (u.w 0) 1 0
  let planes := bits (u.w 0) 5 4
  let bpp := bits (u.w 0) 10 8
  let bpp := 2 ^ bpp
  let w := bits (u.w 1) 15 0
  let h := bits (u.w 1) 31 16
  match Sparse.find s.gfx.slots slot with
  | none => s.maintRefused u 0x1C
  | some t =>
    if t.ctx ≠ u.ctx ∨ t.tilesX ≠ ceilDiv w 32 ∨ t.tilesY ≠ ceilDiv h 32 then s.maintRefused u 0x1C
    else
      let (r, s) := (List.range (t.tilesX * t.tilesY)).foldl (fun (r, s) i => match r with
        | none => (none, s)
        | some (changed : List Nat) =>
          let rows := signRows w h bpp planes (u.dw 2) (u.w 4) (u.dw 5) (u.w 7) (i % t.tilesX) (i / t.tilesX)
          let (bs, s) := rows.foldl (fun (b, s) (a, n) => match b with
            | none => (none, s)
            | some bs => match s.gfxRead k u a n with
              | (none, s) => (none, s)
              | (some x, s) => (some (bs ++ x), s)) ((some [] : Option (List Byte)), s)
          match bs with
          | none => (none, s)
          | some bs =>
            let sig := crc64 bs
            if Sparse.find s.gfx.table (t.base + i) = some sig then (some changed, s)
            else (some (changed ++ [i]), { s with gfx := { s.gfx with table := Sparse.put s.gfx.table (t.base + i) sig } }))
        ((some [] : Option (List Nat)), s)
      match r with
      | none => s
      | some changed =>
        let s := if u.dw 8 = 0 then s else s.putExport k u slot (u.dw 8) (fun _ => true) (fun i => changed.contains i)
        s.maintDone u k

/-- Bytes of a tile's flagged data per pixel position: those of its samples. -/
def GfxUnit.flagBytes (u : GfxUnit) : Nat :=
  2 ^ bits (u.w 3) 13 12 * ((colourBytes (bits (u.w 3) 7 0) <|> depthBytes (bits (u.w 3) 7 0)).getD 0)

/-- Tiles of the surface that GFX_RESOLVE_FLAGS works on. -/
def GfxUnit.flagTiles (u : GfxUnit) : Nat := pdTilesX [u.w 4] * pdTilesY [u.w 4]

/-- Write the image of a cleared tile over the flagged tiles of one word (R218). -/
def State.resolveTiles (s : State) (u : GfxUnit) (k w v : Nat) (img : List Byte) : State :=
  (((setBitsOf 32 v).map (fun i => 32 * w + i)).filter (fun t => t < u.flagTiles)).foldl (fun s t =>
    (imagePieces [u.w 4] (bits (u.w 3) 9 8) (u.dw 0) (u.w 2) u.flagBytes t img).foldl (fun s r => s.gfxWrite k u r.1 r.2) s) s

/-- One word of flags: its tiles are written and the word is cleared, unless a fault has ended the unit. -/
def State.resolveWord (s : State) (u : GfxUnit) (k w : Nat) (img : List Byte) : State :=
  if !s.gfx.units.contains u then s
  else
    let r := s.gfxRead k u (u.dw 5 + 16 + 4 * w) 4
    match r.1 with
    | none => r.2
    | some bs =>
      if leNat bs = 0 then r.2
      else (r.2.resolveTiles u k w (leNat bs) img).gfxWrite k u (u.dw 5 + 16 + 4 * w) (leBytes 4 0)

/-- GFX_RESOLVE_FLAGS takes effect (R218): the header's value goes to every flagged tile, and the flags are cleared. -/
def State.runResolve (s : State) (u : GfxUnit) (k : Nat) : State :=
  let samples := 2 ^ bits (u.w 3) 13 12
  let r := s.gfxRead k u (u.dw 5) 16
  match r.1 with
  | none => r.2
  | some hdr =>
    let img := (List.range (1024 * samples)).flatMap (fun _ => hdr.take (u.flagBytes / samples))
    ((List.range (ceilDiv u.flagTiles 32)).foldl (fun s w => s.resolveWord u k w img) r.2).maintDone u k

/-- Begin the next graphics unit at a pass boundary: a pass runs; a maintenance unit takes effect, on a graphics cluster where it is
not GFX_TRACK. -/
def State.nextGfx (s : State) : Option State :=
  match s.gfx.nextUnit with
  | none => none
  | some u =>
    if u.op = 0x40 then (s.passAt u.q u.seq).map (fun p => s.setPass { p with run := true })
    else if u.op = 0x45 then some ((s.runTrack u).passBoundary u.q u.seq)
    else match (List.range 12).find? (fun k => s.inGraphics k) with
      | none => none
      | some k => some ((if u.op = 0x46 then s.runSign u k else s.runResolve u k).passBoundary u.q u.seq)

/-! ## The running pass -/

/-- Clusters of the pass hold it; a suspended one that is back in graphics mode resumes it (R179, R385). -/
def State.holdPass (s : State) (p : GfxPass) : State :=
  let p := { p with suspended := p.suspended.filter (fun k => !s.inGraphics k) }
  let s := s.setPass p
  (s.passClusters p).foldl (fun s k => s.setCluster k { s.cluster k with gfxUnit := some (p.q, p.seq) }) s

/-- Whether no stage group of the draw at work waits or runs. -/
def GfxPass.quiet (p : GfxPass) : Bool := p.works.isEmpty && p.busy.isEmpty

/-- Take one more tile onto the lowest-numbered cluster with a free buffer. -/
def State.takeTile (s : State) (p : GfxPass) : Option State :=
  match (pdTiles p.desc)[p.nextTile]?, (s.passClusters p).find? (fun k =>
      (p.tiles.filter (fun t => t.cluster == k)).length < s.tileBuffers k p.desc) with
  | some t, some k =>
    match s.loadTile k p t with
    | (none, s) => some s
    | (some tr, s) => some ((s.grdWipe k (s.tileAt k tr.buf p) (pdTileBytes p.desc)).tileNext { p with nextTile := p.nextTile + 1, tiles := p.tiles ++ [tr] } tr tr.prims)
  | _, _ => none

/-- One transition of the graphics units, if any is due. -/
def State.gfxStep (s : State) : Option State :=
  match s.runningPass with
  | none => s.nextGfx
  | some p =>
    let ks := s.passClusters p
    if p.code ≠ 0 then some ((s.setPass { p with run := false }).passBoundary p.q p.seq)
    else match p.phase with
    | .bin =>
      if !p.toBin.isEmpty then (if ks.isEmpty then none else some (s.binAll p p.toBin))
      else match p.draws[p.next]? with
        | some d => if ks.isEmpty then none else some (s.startDraw p d ks)
        | none => if p.ended then some (s.setPass { p with phase := .render, nextTile := 0 }) else none
    | .vertex => match p.quiet, p.draws[p.next]? with
      | true, some d =>
        if stDomain d.st = 0 then some (s.endDraw p d) else some (s.setPass { (p.addWorks (p.hullWorks d)) with phase := .hull })
      | _, _ => none
    | .hull => match p.quiet, p.draws[p.next]? with
      | true, some d => some (s.setPass { (p.addWorks (p.domainWorks d)) with phase := .domain, outs := [] })
      | _, _ => none
    | .domain => match p.quiet, p.draws[p.next]? with
      | true, some d => some (s.endDraw p d)
      | _, _ => none
    | .render => match p.tiles.find? (fun t => t.cur.isSome && t.left == 0) with
      | some t => some (s.finishPrim p t)
      | none => s.takeTile p
    | .done => none

/-- Run the graphics units as far as they go without a core or a tile store. -/
def State.gfxRun (s : State) : Nat → State
  | 0 => s
  | f + 1 =>
    let s := match s.runningPass with
      | some p => s.holdPass p
      | none => s
    match s.gfxStep with
    | some s => s.gfxRun f
    | none => s

/-- More transitions than can follow one another: draws, units, tiles. -/
def State.gfxPump (s : State) : State :=
  if s.sched.quench.isSome then s
  else s.gfxRun (512 + 8 * ((s.gfx.passes.map (fun p => p.draws.length + p.prims.length)).sum + s.gfx.units.length))

/-! ## Graphics packets (R219 to R221) -/

/-- A packet of a refused pass ends it (R221): what ran of it is dropped, and it completes at its GFX_PASS_END. -/
def State.passRefuse (s : State) (q : Nat) (u : Queue) (ptr code : Nat) : State :=
  ((s.setQueue q (u.refuse ptr (256 + code))).passMark q u code).gfxPump

/-- A packet inside a pass: refused outside one, and in a step program. -/
def State.inPass (s : State) (p : Pkt) (op : Nat) (k : GfxPass → Queue → Nat → State → State) : Ans :=
  s.withPkt p op true (fun u ptr s =>
    let q := p.q.val
    if u.inProgram then s.refuseStep q u ptr
    else match u.pass.bind (fun n => s.passAt q n) with
      | none => s.refuseCtrl q u ptr 0x1F
      | some g => (k g u ptr (s.setQueue q u)).endStream q)

/-- The tracking slots a pass names. -/
def passSlots (d : List Nat) : List Nat := ((pdAtts d).filter (fun a => a.track == 1)).map (fun a => a.slot)

/-- A pass at its GFX_PASS_BEGIN (R175): its descriptor and the code it is refused with, 0 for none; no draw, no state and nothing at
work yet. -/
def newPass (u : Queue) (q n : Nat) (d : List Nat) (code : Nat) : GfxPass :=
  ⟨u.ctx, q, n, u.rt, d, none, [], code, false, false, .bin, 0, [], [], [], [], [], 0, 0, [], [], 0, false,
    false, 0, [], [], [], [], [], []⟩

/-- GFX_PASS_BEGIN (R175, R219, R221). -/
def execGfxPassBegin (p : Pkt) (s : State) : Ans :=
  let q := p.q.val
  match s.queue q with
  | none => .next s
  | some u0 =>
    if 16 ≤ u0.inflight then .next s
    else s.withPkt p 0x40 true (fun u ptr s =>
      let a := pd p 0
      if u.inProgram then s.refuseStep q u ptr
      else match u.pass with
        | some _ => (s.passRefuse q u ptr 0x1F).endStream q
        | none =>
          match s.vread .command u.ctx a 640 cpClass false false with
          | (.fail f, s) => s.accessFault u.ctx 0x02 .read f none
          | (.ok _ (some pa), s) => s.poisonFault u.ctx pa none
          | (.ok bs none, s) =>
            let d := (List.range 160).map (fun i => wordAt bs (4 * i))
            let code := if a % 64 ≠ 0 then 0x1F else s.passCode u.ctx d
            let u := if code = 0 then u else u.refuse ptr (256 + code)
            let (n, s) := s.addUnit q u ptr (pktOrder p) true (.pass 0)
            let g := newPass u q n d code
            let gu : GfxUnit := ⟨q, n, u.ctx, u.rt, 0x40, [], passSlots d⟩
            let s := { s with gfx := { s.gfx with
              passes := s.gfx.passes ++ [g], units := if code = 0 then s.gfx.units ++ [gu] else s.gfx.units } }
            let s := match s.queue q with
              | some u => s.setQueue q { u with pass := some n }
              | none => s
            (s.a1Exit.gfxPump).endStream q)

/-- GFX_STATE (R220, R221). -/
def execGfxState (p : Pkt) (s : State) : Ans :=
  s.inPass p 0x41 (fun g u ptr s =>
    let a := pd p 0
    if a % 64 ≠ 0 then s.passRefuse p.q.val u ptr 0x1F
    else match s.vread .command u.ctx a 256 cpClass false false with
      | (.fail f, s) => s.accessFault u.ctx 0x02 .read f (some (p.q.val, g.seq))
      | (.ok _ (some pa), s) => s.poisonFault u.ctx pa (some (p.q.val, g.seq))
      | (.ok bs none, s) =>
        let st := (List.range 64).map (fun i => wordAt bs (4 * i))
        if stateBad g.desc st then s.passRefuse p.q.val u ptr 0x1F else s.setPass { g with cur := some st })

/-- A draw joins its pass, checked against its state block (R221); a draw without one is refused. -/
def State.addDraws (s : State) (q : Nat) (u : Queue) (ptr : Nat) (g : GfxPass) (index size : Nat) (ds : List (List Nat)) : State :=
  match g.cur with
  | none => s.passRefuse q u ptr 0x1F
  | some st =>
    if index ≠ 0 ∧ stFld st 0x80 11 10 = 0 then s.passRefuse q u ptr 0x1F
    else
      let draws := ds.map (fun d => (⟨st, d.getD 0 0, d.getD 1 0, d.getD 2 0, d.getD 3 0, d.getD 4 0, index, size⟩ : GfxDraw))
      (s.setPass { g with draws := g.draws ++ draws }).gfxPump

/-- GFX_DRAW (R184). -/
def execGfxDraw (p : Pkt) (s : State) : Ans :=
  s.inPass p 0x42 (fun g u ptr s =>
    s.addDraws p.q.val u ptr g (pd p 5) (pw p 7) [(List.range 5).map (fun i => pw p i)])

/-- The draws of an indirect draw's table, in its order (R184); none after a fault. -/
def State.drawTable (s : State) (c : Nat) (p : Pkt) (unit : Nat × Nat) : Option (List (List Nat)) × State :=
  (List.range (pw p 2)).foldl (fun (r, s) i => match r with
    | none => (none, s)
    | some (l : List (List Nat)) => match s.cpBytes c (pd p 0 + i * pw p 3) 20 (some unit) with
      | (none, s) => (none, s)
      | (some bs, s) => (some (l ++ [(List.range 5).map (fun j => wordAt bs (4 * j))]), s)) (some [], s)

/-- GFX_DRAW_INDIRECT (R184). -/
def execGfxDrawIndirect (p : Pkt) (s : State) : Ans :=
  s.inPass p 0x43 (fun g u ptr s =>
    let n := pw p 2
    let stride := pw p 3
    if n = 0 ∨ 4096 < n ∨ stride < 20 ∨ stride % 4 ≠ 0 then s.passRefuse p.q.val u ptr 0x1F
    else
      match s.drawTable u.ctx p (p.q.val, g.seq) with
      | (none, s) => s
      | (some ds, s) => s.addDraws p.q.val u ptr g (pd p 4) (pw p 6) ds)

/-- GFX_PASS_END (R175): the pass's packets end; a refused pass completes with its code. -/
def execGfxPassEnd (p : Pkt) (s : State) : Ans :=
  s.inPass p 0x44 (fun g u _ s =>
    let q := p.q.val
    let s := s.setQueue q { u with pass := none }
    let s := if u.stream.isNone then s.updUnit q g.seq (fun w => { w with endPtr := u.fetch }) else s
    if g.code ≠ 0 then
      let s := s.gfxPump
      let s := { s with gfx := { s.gfx with passes := s.gfx.passes.filter (fun x => !(x.q == q && x.seq == g.seq)) } }
      (s.completeUnit q g.seq 1 g.code).updStatus q
    else (s.setPass { g with ended := true }).gfxPump)

/-- A maintenance unit of the sequencer: checked, then it waits its turn. -/
def State.gfxMaint (s : State) (p : Pkt) (op : Nat) (sel : Bool) (code : Nat) (slots : List Nat) : Ans :=
  s.withUnit p op sel (.maint op p.body) (fun _ s => (code, s)) true (fun u seq s =>
    let gu : GfxUnit := ⟨p.q.val, seq, u.ctx, u.rt, op, p.body.map BitVec.toNat, slots⟩
    ({ s with gfx := { s.gfx with units := s.gfx.units ++ [gu] } }.a1Exit.gfxPump).endStream p.q.val)

/-- GFX_TRACK with OP claim, or a reserved OP, which is refused (R211). -/
def execGfxTrackClaim (p : Pkt) (s : State) : Ans :=
  let op := bits (pw p 0) 1 0
  s.gfxMaint p 0x45 (op == 0 || op == 3) 0 [bits (pw p 0) 5 4]

/-- GFX_TRACK with OP invalidate (R211). -/
def execGfxTrackInvalidate (p : Pkt) (s : State) : Ans := s.gfxMaint p 0x45 (bits (pw p 0) 1 0 == 1) 0 [bits (pw p 0) 5 4]

/-- GFX_TRACK with OP release (R211). -/
def execGfxTrackRelease (p : Pkt) (s : State) : Ans := s.gfxMaint p 0x45 (bits (pw p 0) 1 0 == 2) 0 [bits (pw p 0) 5 4]

/-- The code that a GFX_SIGN_SURFACE is refused with (R216, R221), 0 for none. BPP is the log2 of the bytes (DEDUCED, log entry 52): three bits do not hold 8 or 16. -/
def State.signCode (s : State) (p : Pkt) : Nat :=
  let w := bits (pw p 1) 15 0
  let h := bits (pw p 1) 31 16
  let planes := bits (pw p 0) 5 4
  let bpp := bits (pw p 0) 10 8
  let row := w * 2 ^ bpp
  if w = 0 ∨ h = 0 ∨ 16384 < w ∨ 16384 < h then 0x18
    else if planes = 0 ∨ 2 < planes ∨ 4 < bpp ∨ layoutBad 0 (pd p 2) (pw p 4) row
        ∨ (planes = 2 ∧ layoutBad 0 (pd p 5) (pw p 7) row) then 0x19
    else if (s.queue p.q.val).any (fun u => s.gfx.slotBad (bits (pw p 0) 1 0) u.ctx (ceilDiv w 32) (ceilDiv h 32)) then 0x1C
    else if pd p 8 % 64 ≠ 0 then 0x1F else 0

/-- GFX_SIGN_SURFACE (R216). -/
def execGfxSignSurface (p : Pkt) (s : State) : Ans := s.gfxMaint p 0x46 true (s.signCode p) [bits (pw p 0) 1 0]

/-- The code that a GFX_RESOLVE_FLAGS is refused with (R218, R221), 0 for none. -/
def resolveCode (p : Pkt) : Nat :=
  let w := bits (pw p 4) 15 0
  let h := bits (pw p 4) 31 16
  let f := bits (pw p 3) 7 0
  let b := 2 ^ bits (pw p 3) 13 12 * ((colourBytes f <|> depthBytes f).getD 0)
  let layout := bits (pw p 3) 9 8
  if w = 0 ∨ h = 0 ∨ 16384 < w ∨ 16384 < h then 0x18
    else if b = 0 ∨ 2 ≤ layout ∨ layoutBad layout (pd p 0) (pw p 2) (w * b) then 0x19
    else if pd p 5 = 0 ∨ pd p 5 % 16 ≠ 0 then 0x1E else 0

/-- GFX_RESOLVE_FLAGS (R218). -/
def execGfxResolveFlags (p : Pkt) (s : State) : Ans := s.gfxMaint p 0x47 true (resolveCode p) []

/-! ## Tile store and pass completion -/

/-- The errors that a tile store meets in its tile buffer (R140, R208): the offset of a word beyond repair, which withholds the tile. -/
def State.tileMeets (s : State) (k : Nat) (p : GfxPass) (t : TileRun) : Option Nat × State :=
  let n := pdTileBytes p.desc
  let at_ := s.tileAt k t.buf p
  let hit := Sparse.range (s.cluster k).errs at_ n
  match hit.find? (fun x => x.2) with
  | some x => (some x.1, s.countSat (Reg.CLU_GRD_ECC k) 31 16 1)
  | none => (none, (s.grdMeet k p.ctx at_ n).2)

/-- TILE_STORE (R205 to R217): a tile whose primitives are done is checked, then stored or withheld whole; bit errors `es`
have arisen before. -/
def execTileStore (k : Fin 12) (tile : BitVec 18) (es : List Upset) (s : State) : Ans :=
  let k := k.val
  let s := s.ariseAll es
  match s.runningPass with
  | none => .next s
  | some p =>
    match p.tiles.find? (fun t => t.cluster == k && t.tile == tile.toNat) with
    | none => .next s
    | some t =>
      if !t.prims.isEmpty || t.cur.isSome || !(s.passClusters p).contains k || s.sched.quench.isSome then .next s
      else match s.tileMeets k p t with
        | (some off, s) => .next (s.withhold k p t.tile 0 3 0x0202 off k)
        | (none, s) =>
          let (fr, s) := s.drawNat
          let plans := (pdAtts p.desc).map (fun a => (a, s.storePlan p t a fr))
          match s.checkTile k p t.tile plans with
          | (some (i, kind, f), s) =>
            .next ((s.captureFail p.ctx (0x10 + k) .write f).withhold k p t.tile i kind 0x0221 (f.va % 2 ^ 32) (f.va / 2 ^ 32))
          | (none, s) =>
            let s := plans.foldl (fun s (a, x) => s.storeAtt k p t.tile a x) s
            match s.runningPass with
            | none => .next s
            | some p => .next ((s.tileLeaves p k t.tile plans t.clean).gfxPump)

/-- What a pass writes at its completion, in the order of its attachments (R215, R217): the flag header of one loaded cleared with flags,
and the export of a tracked one. A fault ends the pass. -/
def State.passWrites (s : State) (p : GfxPass) : State :=
  let u : GfxUnit := ⟨p.q, p.seq, p.ctx, p.rt, 0x40, [], []⟩
  let k := p.took.headD 0
  let area := pdTiles p.desc
  (pdAtts p.desc).foldl (fun s a =>
    if (s.passAt p.q p.seq).isNone then s
    else if a.track = 2 ∧ a.load = 1 then s.gfxWrite k u a.flags (a.clearBytes ++ List.replicate (16 - a.bytes) 0)
    else if a.track = 1 ∧ a.exp ≠ 0 then
      s.putExport k u a.slot a.exp (fun t => area.contains t) (fun t => p.changed.contains (a.idx, t))
    else s) s

/-- PASS_COMPLETE (R178, R215, R217): flag headers and exports are written, and each raster back end that took part posts its
entry. -/
def execPassComplete (s : State) : Ans :=
  match s.runningPass with
  | none => .next s
  | some p =>
    if p.phase ≠ .done || s.sched.quench.isSome then .next s
    else
      let s := s.passWrites p
      if (s.passAt p.q p.seq).isNone then .next s
      else
        let s := p.took.foldl (fun s k => s.ladleDue ⟨p.q, p.seq, 0, 0x10 + k, 4⟩) s
        .next ((s.dropPass p.q p.seq).passBoundary p.q p.seq).gfxPump

/-! ## Cores -/

/-- EXIT (R69, R181). -/
def execExit (i : Issue) (s : State) : Ans :=
  s.withInsn i 11 (· == 5) brForm (fun a s => (s.exitLanes a (fun core slot s => s.stageDone core slot)).gfxPump)

/-- BLOCK_PLACE (R376): a core of a compute-mode cluster takes a block of a dispatch, one of a graphics-mode cluster a stage group. -/
def execBlockPlace (core : Fin 48) (s : State) : Ans :=
  let k := core.val / 4
  if (s.cluster k).mode = .compute then .next (s.placeOn core.val)
  else
    let s := (s.reservePreempt k).gfxPump
    if s.inGraphics k && s.sched.quench.isNone then .next (s.stagePlace core.val) else .next s

end Sys2Proof.Machine
end

