-- ==== Sys2Proof/Machine/Mmu.lean ====
section
/-! DEFINITION. The commands of the MMU (chapter 11): walk reads of cores, layouts and apertures, withdrawals of both paths, prefetch,
advice and migration. -/

namespace Sys2Proof.Machine

/-! ## Walk reads of the cores (R405, R406, R413, R417) -/

/-- Whether an operation waits for a walk. -/
def MemOp.onWalk (o : MemOp) (id : Nat) : Bool := o.lines.any (fun l => decide (l.st = .walk id)) && id ≠ 0

/-- A walk of a core has ended: every operation that waits for it goes on with the outcome, and then those of the group that a line of it
held back. -/
def State.walkDeliver (s : State) (core id : Nat) (r : XResult) : State :=
  let waiting := (s.core core).groups.flatMap (fun g => (g.2.ops.filter (fun o => o.onWalk id)).map (fun o => (g.1, o.id)))
  waiting.foldl (fun s x =>
    let s := s.advanceOp core x.1 x.2 (some r) false
    match s.groupAt core x.1 with
    | none => s
    | some (g, _) => g.ops.foldl (fun s o => s.advanceOp core x.1 o.id none false) s) s

/-- The core a walk belongs to. -/
def Walk.core (w : Walk) : Nat := match w.tlb with
  | .core n => n
  | _ => 0

/-- The descriptor's address as the walk of R405 names it: behind BAR2 a host physical one. -/
def State.walkAddr (s : State) (x : Xlat) (w : Walk) : Nat :=
  if w.cls = .device ∧ !x.devPhys w.host then s.hif.bar2.getD 0 + (w.addr - s.bar2Base) else w.addr

/-- What a walk's read gave: the descriptor, or the cause of WALK_FAULT. -/
def State.walkData (s : State) (w : Walk) (r : ReadResult) : Option Nat × Nat × State :=
  if w.cls = .device then
    match s.descRead .device w.addr with
    | (some d, s) => (some d, 0, s)
    | (none, s) => (none, 1, s)
  else match r with
    | .data bs => (some (leNat (bs.take 8)), 0, s)
    | .poisoned => (none, 1, s)
    | _ => (none, 0, s)

/-- One descriptor read of a core's walk has returned (R405): the walk goes on, or ends and its accesses with it. -/
def State.walkResponse (s : State) (id : Nat) (r : ReadResult) : State :=
  match s.mmu.walks.find? (fun w => w.id == id) with
  | none => s
  | some w =>
    let drop (s : State) : State := { s with mmu := { s.mmu with walks := s.mmu.walks.filter (fun x => x.id ≠ id) } }
    let s := { s with hif := { s.hif with reads := s.hif.reads.filter (fun x => x.for_ ≠ HostReadFor.walk id) } }
    match s.ctx w.ctx with
    | none => drop s
    | some cx =>
      let x := cx.xlat
      let a := s.walkAddr x w
      let core := w.core
      match s.walkData w r with
      | (none, cause, s) => (drop s).walkDeliver core id (.fault ⟨5, w.level, a, cause, w.host⟩)
      | (some d, _, s) =>
        let (step, e) := s.walkFeed w.ctx x w.host w.ia w.level a d w.wr w.ex
        let s := if w.covered then s else s.wcachePut e
        match step with
        | .fault f => (drop s).walkDeliver core id (.fault f)
        | .done out size wr ex dv level =>
          let (r, s) := s.walkEnd w.tlb x w.host w.ia out size wr ex dv level w.access w.covered
          (drop s).walkDeliver core id r
        | .readAt level _ cls out wr ex =>
          let w' : Walk := { w with level := level, addr := out, cls := cls, wr := wr, ex := ex }
          let s := { s with mmu := { s.mmu with walks := s.mmu.walks.map (fun (y : Walk) => if y.id = id then w' else y) } }
          if cls = OutClass.device then s else s.hostReadStart w.unit w.ctx out 8 false (.walk id)

/-- WALK_READ_RESPONSE (R405, R413, R417). -/
def execWalkReadResponse (walk : Nat) (r : ReadResult) (s : State) : Ans := .next (s.walkResponse walk r)

/-! ## Layouts and apertures (R403, R431) -/

/-- Post a code in MMU_STATUS.REASON. -/
def State.mmuReason (s : State) (code : Nat) : State := s.setFld Reg.MMU_STATUS 15 8 code

/-- The check of a layout (R431): 0x50, 0x51 or 0. -/
def State.layoutCheck (s : State) (n : Nat) : Nat :=
  let l := s.layout n
  let gran := s.fld (Reg.MMU_LAYOUT_CTRL n) 2 1
  let inside (b : Nat) : Bool := l.addrLo ≤ b && b ≤ l.addrHi
  let pos := [l.valid, l.type, l.write] ++ (if l.nxEn then [l.nx] else []) ++ (if l.devEn then [l.dev] else [])
  if !iabitsOk gran l.levels l.iabits then 0x50
  else if l.addrLo < 12 ∨ l.g < l.addrLo ∨ l.addrHi < l.addrLo ∨ 55 < l.addrHi ∨ pos.any inside
      ∨ (setBitsOf 64 l.req).any inside ∨ !decide pos.Nodup ∨ l.blockLv / 2 ^ (l.levels - 1) ≠ 0 then 0x51
  else 0

/-- Whether an enabled context names a layout. -/
def State.layoutUsed (s : State) (n : Nat) : Bool :=
  s.ctxs.any (fun p => (p.2.xlat.root ≠ 0 && p.2.xlat.dlayout == n) || (p.2.xlat.hostEn && p.2.xlat.hlayout == n))

/-- A write of MMU_LAYOUTn_CTRL (R403). -/
def State.layoutWrite (s : State) (n : Nat) (v : Word) : State :=
  let a := Reg.MMU_LAYOUT_CTRL n
  let v := v.toNat % 2 ^ 31
  let cur := (s.reg a).toNat
  if bit cur 0 then
    if v / 2 ≠ cur / 2 then s.setFlag Reg.MMU_STATUS 0
    else if bit v 0 then s
    else if s.layoutUsed n then s.mmuReason 0x52
    else (s.clearFlag a 0).mmuReason 0
  else
    let s := s.setReg a (BitVec.ofNat 32 (v / 2 * 2))
    if !bit v 0 then s
    else
      let code := s.layoutCheck n
      (if code = 0 then s.setFlag a 0 else s).mmuReason code

/-- LAYOUT_ENABLE (R403): a write that sets EN from 0 to 1. -/
def execLayoutEnable (n : Fin 4) (v : Word) (s : State) : Ans :=
  if s.uncRuns && bit v.toNat 0 && !s.flag (Reg.MMU_LAYOUT_CTRL n.val) 0 then .next (s.layoutWrite n.val v) else .next s

/-- LAYOUT_DISABLE (R403): a write that clears EN. -/
def execLayoutDisable (n : Fin 4) (v : Word) (s : State) : Ans :=
  if s.uncRuns && !bit v.toNat 0 && s.flag (Reg.MMU_LAYOUT_CTRL n.val) 0 then .next (s.layoutWrite n.val v) else .next s

/-- A write of MMU_APER_EN (R431, R433): a bit that is set checks its aperture. -/
def State.aperWrite (s : State) (v : Word) : State :=
  let cur := s.fld Reg.MMU_APER_EN 7 0
  let setting := (List.range 8).filter (fun i => bit v.toNat i && !bit cur i)
  let bad := setting.filter (fun i => s.reg64 (Reg.MMU_APER_LIMIT_LO i) < s.reg64 (Reg.MMU_APER_BASE_LO i))
  let en := ((List.range 8).filter (fun i => bit v.toNat i && !bad.contains i)).map (fun i => 2 ^ i)
  let s := s.setReg Reg.MMU_APER_EN (BitVec.ofNat 32 en.sum)
  if setting.isEmpty then s else s.mmuReason (if bad.isEmpty then 0 else 0x58)

/-- APERTURE_ENABLE (R431). -/
def execApertureEnable (v : Word) (s : State) : Ans := if s.uncRuns then .next (s.aperWrite v) else .next s

/-! ## Withdrawals (R418 to R424) -/

/-- Whether a range of a context's regime leaves its region (R418). -/
def Xlat.leaves (x : Xlat) (host : Bool) (addr pages : Nat) : Bool :=
  let n := pages * 4096
  let win := x.winGiB * 2 ^ 30
  if host then !x.hostEn || addr < x.hostBase || x.hostBase + win < addr + n
  else 2 ^ 48 < addr + n || (x.hostEn && decide (addr < x.devBase + win) && decide (x.devBase < addr + n))

/-- Whether a withdrawal covers input addresses `lo` to `lo + n` of a regime. -/
def Withdrawal.covers (w : Withdrawal) (host : Bool) (lo n : Nat) : Bool :=
  w.whole || (w.host == host && decide (lo < w.addr + w.pages * 4096) && decide (w.addr < lo + n))

/-- Whether a line of an operation, once looked up, is still to complete (R421): read data has returned, a write is acknowledged by its home
slice or sent to the host link when its operation ends. -/
def MemOp.lineOut (o : MemOp) (l : LineReq) : Bool := match l.st with
  | .walk _ => false
  | .arrived .. => false
  | .poisoned _ => false
  | .performed => decide (o.kind = .store)
  | _ => true

/-- Operations of a context with a line that is to complete and whose translation a withdrawal covers (R421). -/
def State.oldTransfers (s : State) (x : Xlat) (w : Withdrawal) : List (Nat × Nat × Nat) :=
  s.cores.flatMap (fun k => k.2.groups.flatMap (fun g => match Sparse.find k.2.blocks g.2.block with
    | none => []
    | some b =>
      if b.ctx ≠ w.ctx then []
      else (g.2.ops.filter (fun o => o.lines.any (fun l => o.lineOut l && w.covers (x.input l.va).1 (x.input l.va).2 128))).map
        (fun o => (k.1, g.1, o.id))))

/-- A block of the migration area that a withdrawal covers is written back to its host pages, or dropped where a duplicate
(R430). -/
def State.writeBackBlock (s : State) (c : Nat) (b : MigBlock) : State :=
  match s.ctx c with
  | none => s
  | some cx =>
    let s := { s with ctxs := Sparse.put s.ctxs c { cx with blocks := cx.blocks.filter (fun y => y.block ≠ b.block) } }
    if b.duplicate then s
    else
      let base := cx.xlat.migBase + b.block * 65536
      let (bs, bad, s) := s.devRead 15 base 65536 false
      if bad then s.recC 0x0B10 0x22 1 c (b.va % 2 ^ 32) (b.va / 2 ^ 32)
      else
        let s := ((List.range b.pages.length).zip b.pages).foldl (fun s (i, pg) =>
          s.post (.hostWrite pg.addr (full ((bs.drop (4096 * i)).take 4096)) false)) s
        s.countSat Reg.MMU_MIG_STAT 21 12 1

/-- Write back the blocks a withdrawal covers (step 3 of R421). -/
def State.withdrawBlocks (s : State) (w : Withdrawal) : State :=
  match s.ctx w.ctx with
  | none => s
  | some cx =>
    let hit := cx.blocks.filter (fun b => w.covers true (cx.xlat.input b.va).2 65536)
    hit.foldl (fun s b => s.writeBackBlock w.ctx b) s

/-- A withdrawal takes effect (R420): covered entries and descriptors go, covered walks will not be installed, the transfers it waits
for are those looked up before, and the covered migrated blocks are written back (step 3 of R421). -/
def State.withdrawEffect (s : State) (w : Withdrawal) : Withdrawal × State :=
  match s.ctx w.ctx with
  | none => ({ w with effective := true, waits := [] }, s)
  | some cx =>
    let x := cx.xlat
    let s := s.tlbDrop (fun e => e.asid == x.asid && w.covers e.host e.va e.size)
      (fun e => e.asid == x.asid && (w.whole || (!w.leaf && e.host == w.host)))
    let s := { s with mmu := { s.mmu with walks := s.mmu.walks.map (fun (k : Walk) =>
      if k.asid = x.asid ∧ (w.covers k.host k.ia 1 ∨ (!w.leaf ∧ k.host = w.host)) then { k with covered := true } else k) } }
    ({ w with effective := true, waits := s.oldTransfers x w }, s.withdrawBlocks w)

/-- Withdrawals draining. -/
def State.draining (s : State) : Nat := ((s.mmu.inval ++ s.mmu.pinval).filter (fun w => w.effective)).length

/-- Start waiting withdrawals of one path while fewer than 4 drain (R423). -/
def State.startPath (s : State) (packet : Bool) : State :=
  let ws := if packet then s.mmu.pinval else s.mmu.inval
  let (ws, _, s) := ws.foldl (fun (acc, n, s) (w : Withdrawal) =>
    if w.effective || 4 ≤ n then (acc ++ [w], n, s)
    else
      let (w, s) := s.withdrawEffect w
      (acc ++ [w], n + 1, s)) (([] : List Withdrawal), s.draining, s)
  { s with mmu := if packet then { s.mmu with pinval := ws } else { s.mmu with inval := ws } }

/-- Start what can start of both paths. -/
def State.startWithdrawals (s : State) : State := (s.startPath false).startPath true

/-- INVAL_PEND shows the register path's requests. -/
def State.invalPend (s : State) : State := s.setFld Reg.MMU_STATUS 20 16 s.mmu.inval.length

/-- The codes of a TLB_INVAL body (R431). -/
def invalCode (x : Xlat) (w0 addr pages : Nat) : Nat :=
  let scope := bits w0 1 0
  if scope = 0 ∧ (addr % 4096 ≠ 0 ∨ pages = 0 ∨ x.leaves (bit w0 2) addr pages) then 0x59
  else if 2 ≤ scope ∨ w0 / 16 ≠ 0 then 0x5A else 0

/-- TLB_INVAL (R418): a withdrawal of the packet path. -/
def State.tlbInval (s : State) (p : Pkt) (sel : Bool) : Ans :=
  let w0 := pw p 0
  s.withUnit p 0x21 sel (.maint 0x21 p.body) (fun u s => match s.ctx u.ctx with
    | some cx => (invalCode cx.xlat w0 (pd p 1) (pw p 3), s)
    | none => (0x5A, s)) true (fun u seq s =>
      let w : Withdrawal := ⟨some (p.q.val, seq), 0, u.ctx, bits w0 1 0 == 1, bit w0 2, bit w0 3, pd p 1, pw p 3, false, []⟩
      { s with mmu := { s.mmu with pinval := s.mmu.pinval ++ [w] } }.startWithdrawals)

/-- TLB_INVAL with SCOPE range, or a reserved SCOPE, which is refused (R418). -/
def execTlbInvalRange (p : Pkt) (s : State) : Ans := s.tlbInval p (bits (pw p 0) 1 0 ≠ 1)

/-- TLB_INVAL with SCOPE whole context (R418). -/
def execTlbInvalContext (p : Pkt) (s : State) : Ans := s.tlbInval p (bits (pw p 0) 1 0 == 1)

/-- Whether an operation a withdrawal waits for is still outstanding. -/
def State.outstanding (s : State) (x : Nat × Nat × Nat) : Bool :=
  match s.groupAt x.1 x.2.1 with
  | none => false
  | some (g, _) => match g.op x.2.2 with
    | none => false
    | some o => o.lines.any o.lineOut

/-- The oldest withdrawal of a path, effective and drained, completes (R419, R421, R424). -/
def State.withdrawDone (s : State) (packet : Bool) : State :=
  match (if packet then s.mmu.pinval else s.mmu.inval) with
  | [] => s
  | w :: rest =>
    if !w.effective || w.waits.any (fun x => s.outstanding x) then s
    else
      let s := { s with mmu := if packet then { s.mmu with pinval := rest } else { s.mmu with inval := rest } }
      let s := match w.packet with
        | some (q, seq) => (s.completeUnit q seq 0 0).endStream q
        | none =>
          let s := (s.setReg Reg.MMU_INVAL_DONE (BitVec.ofNat 32 w.gen)).invalPend
          if s.flag Reg.MMU_CTRL 1 then s.raiseVec (s.fld Reg.MMU_CTRL 21 16) else s
      s.startWithdrawals

/-- WITHDRAWAL_COMPLETE (R421). -/
def execWithdrawalComplete (packet : Bool) (s : State) : Ans := .next (s.withdrawDone packet)

/-- A write of MMU_INVAL_CTRL (R419). -/
def State.invalWrite (s : State) (v : Word) : State :=
  let n := v.toNat
  if bit n 0 ∧ 16 ≤ s.mmu.inval.length then s.setFlag Reg.MMU_STATUS 1
  else
    let s := s.setReg Reg.MMU_INVAL_CTRL (BitVec.ofNat 32 (bits n 4 1 * 2 + bits n 12 8 * 256))
    if !bit n 0 then s
    else
      let c := bits n 12 8
      let addr := s.reg64 Reg.MMU_INVAL_ADDR_LO
      let pages := (s.reg Reg.MMU_INVAL_PAGES).toNat
      let code := if 2 ≤ bits n 2 1 then 0x5A
        else match s.ctx c with
          | some cx => if bits n 2 1 = 0 ∧ (pages = 0 ∨ cx.xlat.leaves (bit n 3) addr pages) then 0x59 else 0
          | none => 0
      let s := s.mmuReason code
      if code ≠ 0 then s
      else
        let s := s.countWrap Reg.MMU_INVAL_GEN 31 0 1
        let w : Withdrawal := ⟨none, (s.reg Reg.MMU_INVAL_GEN).toNat, c, bits n 2 1 == 1, bit n 3, bit n 4, addr, pages, false, []⟩
        let s := { s with mmu := { s.mmu with inval := s.mmu.inval ++ [w] } }.startWithdrawals.invalPend
        if (s.ctx c).isNone ∧ s.mmu.inval.length = 1 then s.withdrawDone false else s

/-- MMU_INVAL_REQUEST (R419): a write of MMU_INVAL_CTRL with GO. -/
def execMmuInvalRequest (v : Word) (s : State) : Ans := if s.uncRuns && bit v.toNat 0 then .next (s.invalWrite v) else .next s

/-! ## Advice (R425, R426) -/

/-- Whether a range of pages covers a page's address. -/
def Advice.has (a : Advice) (va : Nat) : Bool := a.addr ≤ va && va < a.addr + a.pages * 4096

/-- The attributes of a page (R425): preferred location, read-mostly, accessed-by clusters. -/
def Ctx.attrs (x : Ctx) (va : Nat) : Nat × Bool × Nat :=
  let adv := x.advice.filter (fun a => a.has va)
  let o := x.objectAt va
  ((adv.findSome? (fun a => a.loc)).getD ((o.map (fun o => o.pref)).getD 0),
   (adv.findSome? (fun a => a.mostly)).getD ((o.map (fun o => o.mostly)).getD false),
   (adv.findSome? (fun a => a.clusters)).getD 0)

/-- Cut a range out of one piece of advice: what is left of it. -/
def Advice.cut (a : Advice) (addr pages : Nat) : List Advice :=
  let e := a.addr + a.pages * 4096
  let f := addr + pages * 4096
  if f ≤ a.addr ∨ e ≤ addr then [a]
  else
    (if a.addr < addr then [{ a with pages := (addr - a.addr) / 4096 }] else [])
      ++ (if f < e then [{ a with addr := f, pages := (e - f) / 4096 }] else [])

/-- The advice of a context after one ADVISE: the newest first; advice for the same range joins (R426). -/
def adviseList (l : List Advice) (advice loc clusters addr pages : Nat) : List Advice :=
  if advice = 4 then l.flatMap (fun a => a.cut addr pages)
  else
    let old := (l.find? (fun a => a.addr == addr && a.pages == pages)).getD ⟨addr, pages, none, none, none⟩
    let new : Advice := match advice with
      | 0 => { old with loc := some loc }
      | 1 => { old with mostly := some true }
      | 2 => { old with mostly := some false }
      | _ => { old with clusters := some clusters }
    new :: l.filter (fun a => !(a.addr == addr && a.pages == pages))

/-- ADVISE (R426): checked, then it takes effect and completes. -/
def State.advise (s : State) (p : Pkt) (sel : Bool) : Ans :=
  let w3 := pw p 3
  let addr := pd p 0
  let pages := pw p 2
  let after (x : Ctx) : List Advice := adviseList x.advice (bits w3 2 0) (bits w3 5 4) (bits w3 27 16) addr pages
  s.withUnit p 0x23 sel (.maint 0x23 p.body) (fun u s => match s.ctx u.ctx with
    | none => (0x5A, s)
    | some x =>
      (if addr % 4096 ≠ 0 ∨ pages = 0 then 0x59
       else if 4 < bits w3 2 0 ∨ bits w3 5 4 = 3 ∨ bit w3 3 ∨ bits w3 15 6 ≠ 0 ∨ bits w3 31 28 ≠ 0 ∨ pw p 4 ≠ 0 ∨ pw p 5 ≠ 0 then 0x5A
       else if 64 < (after x).length then 0x5B else 0, s)) true (fun u seq s =>
    let s := { s with ctxs := Sparse.update s.ctxs u.ctx (fun x => { x with advice := after x }) }
    (s.completeUnit p.q.val seq 0 0).endStream p.q.val)

/-- ADVISE 0 (R426), or a reserved ADVICE, which is refused. -/
def execAdviseLocation (p : Pkt) (s : State) : Ans := s.advise p (bits (pw p 3) 2 0 == 0 || 4 < bits (pw p 3) 2 0)

/-- ADVISE 1 (R426). -/
def execAdviseSetReadMostly (p : Pkt) (s : State) : Ans := s.advise p (bits (pw p 3) 2 0 == 1)

/-- ADVISE 2 (R426). -/
def execAdviseClearReadMostly (p : Pkt) (s : State) : Ans := s.advise p (bits (pw p 3) 2 0 == 2)

/-- ADVISE 3 (R426). -/
def execAdviseAccessedBy (p : Pkt) (s : State) : Ans := s.advise p (bits (pw p 3) 2 0 == 3)

/-- ADVISE 4 (R426). -/
def execAdviseRemove (p : Pkt) (s : State) : Ans := s.advise p (bits (pw p 3) 2 0 == 4)

/-! ## Prefetch and migration (R427 to R429) -/

/-- A page or block skipped. -/
def State.skipped (s : State) : State := s.countSat Reg.MMU_MIG_STAT 31 22 1

/-- Pin a page's entry of a cluster's TLB, at most 256 of accessed-by ranges (R427). -/
def State.pin (s : State) (k asid : Nat) (host : Bool) (ia : Nat) : State :=
  let mine (e : TlbEntry) : Bool := e.tlb == .cluster k && e.asid == asid && e.host == host && e.va ≤ ia && ia < e.va + e.size
  if 256 ≤ (s.mmu.tlb.filter (fun e => e.tlb == .cluster k && e.pinned)).length then s
  else { s with mmu := { s.mmu with tlb := s.mmu.tlb.map (fun (e : TlbEntry) => if mine e then { e with pinned := true } else e) } }

/-- Step 1 for one page: it is walked and the cluster TLBs are loaded; a page that fails is skipped. Without clusters the walk is the
command processor's. -/
def State.prefetchPage (s : State) (c va clusters : Nat) : State :=
  match s.ctx c with
  | none => s
  | some cx =>
    let (_, _, acc) := cx.attrs va
    let ks := setBitsOf 12 (if clusters = 0 then acc else clusters)
    let (host, ia) := cx.xlat.input va
    let (bad, s) := (if ks.isEmpty then [TlbId.command] else ks.map TlbId.cluster).foldl (fun (bad, s) t => match s.xlate t c va .read with
      | (.fault _, s) => (true, s)
      | (.ok _, s) => (bad, match t with
        | .cluster k => if bit acc k then s.pin k cx.xlat.asid host ia else s
        | _ => s)) (false, s)
    if bad then s.skipped else s

/-- The lowest free block of a context's migration area. -/
def Ctx.freeBlock (x : Ctx) : Option Nat := (List.range x.xlat.migBlocks).find? (fun n => !x.blocks.any (fun b => b.block == n))

/-- The host pages of a block where all sixteen may migrate (R428). -/
def State.blockPages (s : State) (c va : Nat) : Option (List MigPage) × State :=
  (List.range 16).foldl (fun (r, s) i =>
    match r with
    | none => (none, s)
    | some (l : List MigPage) => match s.xlate .command c (va + 4096 * i) .write with
      | (.ok o, s) => (if o.cls = .host ∧ !o.dv then some (l ++ [⟨o.out, o.ex, o.level⟩]) else none, s)
      | (.fault _, s) => (none, s)) (some [], s)

/-- Whether the objects of a block allow its migration: snooped, and of the migration area's ECC region (R428). -/
def State.blockObjects (s : State) (x : Ctx) (va : Nat) : Bool :=
  let home := (regionAt s.dram.map 0 0 x.xlat.migBase).map (fun r => r.1)
  (List.range 16).all (fun i => match x.objectAt (va + 4096 * i) with
    | some o => !o.noSnoop && some o.ecc == home
    | none => true)

/-- Migrate one block (R428). -/
def State.migrate (s : State) (c va : Nat) : State :=
  match s.ctx c with
  | none => s
  | some cx =>
    if (cx.migrated va).isSome then s
    else match cx.freeBlock, s.blockObjects cx va with
      | some n, true =>
        match s.blockPages c va with
        | (none, s) => s.skipped
        | (some pages, s) =>
          let x := cx.xlat
          let (_, ia) := x.input va
          let w : Withdrawal := ⟨none, 0, c, false, true, true, ia, 16, true, []⟩
          let (_, s) := s.withdrawEffect w
          let s := pages.foldl (fun (r : Nat × State) pg =>
            let (bs, s) := r.2.hostBytes pg.addr 4096 false
            (r.1 + 4096, s.devWrite 15 r.1 (full bs) false)) (x.migBase + n * 65536, s) |>.2
          let b : MigBlock := ⟨n, va, pages, (cx.attrs va).2.1⟩
          let s := { s with ctxs := Sparse.update s.ctxs c (fun y => { y with blocks := y.blocks ++ [b] }) }
          s.countSat Reg.MMU_MIG_STAT 11 0 1
      | _, _ => s.skipped

/-- Step 2 for one block: migrated or written back as TO says (R427). -/
def State.moveBlock (s : State) (c va dir : Nat) : State :=
  match s.ctx c with
  | none => s
  | some cx =>
    let loc := if dir = 0 then (cx.attrs va).1 else dir
    if loc = 1 then s.migrate c va
    else if loc = 2 then match cx.migrated va with
      | some b => s.writeBackBlock c b
      | none => s
    else s

/-- Step 3 for one page: its device-memory lines are read at class 15; a page with DV is left out (R410). -/
def State.warmPage (s : State) (c va : Nat) (count : Bool) : State :=
  match s.xlate .command c va .read with
  | (.fault _, s) => if count then s.skipped else s
  | (.ok o, s) => if o.cls = .device ∧ !o.dv ∧ s.ctxMayAccess c o.out then (s.devRead 15 o.out 4096 false).2.2 else s

/-- PREFETCH_RANGE (R427). -/
def execPrefetchRange (p : Pkt) (s : State) : Ans :=
  let w3 := pw p 3
  let addr := pd p 0
  let pages := pw p 2
  s.withUnit p 0x22 true (.maint 0x22 p.body) (fun u s => match s.ctx u.ctx with
    | none => (0x5A, s)
    | some cx =>
      let x := cx.xlat
      let inWin := x.hostEn && x.devBase ≤ addr && addr + pages * 4096 ≤ x.devBase + x.winGiB * 2 ^ 30
      (if addr % 4096 ≠ 0 ∨ pages = 0 ∨ (bit w3 2 ∧ !inWin) then 0x59
       else if bits w3 4 3 = 3 ∨ bits w3 15 5 ≠ 0 ∨ bits w3 31 28 ≠ 0 ∨ pw p 4 ≠ 0 ∨ pw p 5 ≠ 0 then 0x5A else 0, s)) true (fun u seq s =>
    let c := u.ctx
    let vas := (List.range pages).map (fun i => addr + 4096 * i)
    let s := if bit w3 0 then vas.foldl (fun s va => s.prefetchPage c va (bits w3 27 16)) s else s
    let blocks := vas.filter (fun va => va % 65536 = 0 && va + 65536 ≤ addr + pages * 4096)
    let s := if bit w3 2 then blocks.foldl (fun s va => s.moveBlock c va (bits w3 4 3)) s else s
    let s := if bit w3 1 then vas.foldl (fun s va => s.warmPage c va (!bit w3 0)) s else s
    (s.completeUnit p.q.val seq 0 0).endStream p.q.val)

end Sys2Proof.Machine
end

