-- ==== Sys2Proof/Machine/Hif.lean ====
section
/-! DEFINITION. The host interface and the I²C port (chapter 12): BAR2 accesses, completions of host reads, MSI-X hold-off and
unmasking, mailboxes, link events, I²C commands that need no other chapter. -/

namespace Sys2Proof.Machine

/-! ## BAR0 and BAR2 (R438, R440 to R443) -/

/-- BAR0_BAD_SIZE_ACCESS (R438): a read returns all ones, a write is discarded; SIZE_ERR and record 0x0C01 either way. -/
def execBar0BadSizeAccess (isWrite : Bool) (a : BitVec 25) (requester : BitVec 16) (s : State) : Ans :=
  if !s.uncOn then .next s
  else
    let s := (s.setFlag Reg.HIF_STATUS 8).rec0 0x0C01 0x40 1 a.toNat requester.toNat
    .next (if isWrite then s else s.emit (.readData .host 0xFFFFFFFF))

/-- How a BAR2 access to a device address is taken (R441, R571): performed, refused, which every access is after a start that ended in
recovery or failed (R516), or refused as protected. -/
def State.bar2Check (s : State) (a n : Nat) : Option Bool :=
  if s.usable < a + n ∨ s.inFirmware a ∨ 2 ≤ s.fld Reg.GLB_BOOT 1 0 then some false
  else if s.touchesProt a n then some true
  else none

/-- A refused BAR2 access: BAR2_ERR and record 0x0C06, or 0x1003 in its place. -/
def State.bar2Refuse (s : State) (off a : Nat) (prot : Bool) : State :=
  let s := s.setFlag Reg.HIF_STATUS 11
  if prot then s.rec0 0x1003 0x40 1 (a % 2 ^ 32) (a / 2 ^ 32) else s.rec0 0x0C06 0x40 1 (off % 2 ^ 32) (off / 2 ^ 32)

/-- BAR2_READ (R440 to R443): the bytes, poisoned where R442 says so, or all ones. -/
def execBar2Read (off : BitVec 36) (n : Nat) (s : State) : Ans :=
  if !s.uncOn then .next s
  else
    let a := s.bar2Base + off.toNat
    match s.bar2Check a n with
    | some prot => .next ((s.bar2Refuse off.toNat a prot).emit (.bar2Data (List.replicate n 0xFF) false))
    | none =>
      let (bs, poison, s) := s.devRead 10 a n false
      .next (s.emit (.bar2Data bs poison))

/-- BAR2_WRITE (R440 to R443): performed at the home slice, or discarded. -/
def execBar2Write (off : BitVec 36) (bytes : List (Option Byte)) (s : State) : Ans :=
  if !s.uncOn then .next s
  else
    let a := s.bar2Base + off.toNat
    match s.bar2Check a bytes.length with
    | some prot => .next (s.bar2Refuse off.toNat a prot)
    | none => .next (s.devWrite 10 a bytes false)

/-! ## Reads of host memory (R436, R567) -/

/-- The completion timeout of the Device Control 2 field, in ticks; reserved codes as the default (DESIGN CHOICE, log entry 41). -/
def ctvTicks (v : Nat) : Nat :=
  match v with
  | 1 => us 100
  | 2 => us 10000
  | 5 => us 55000
  | 6 => us 210000
  | _ => us 50000

/-- The unit whose group has a read outstanding. -/
def State.groupUnit (s : State) (core slot : Nat) : Option (Nat × Nat) := (s.groupAt core slot).map (fun x => (x.2.q, x.2.seq))

/-- A failed read (R436): counted, CPL_ERR set; a walk faults, a DMA channel's firmware is told, any other unit's context faults with
record 0x0C02. `timeout` chooses the count. -/
def State.hostReadFail (s : State) (r : HostRead) (timeout poison : Bool) : State :=
  let s := (s.setFlag Reg.HIF_STATUS 9).countSat Reg.HIF_CPL_ERRS (if timeout then 15 else 31) (if timeout then 0 else 16) 1
  let fault (s : State) (core slot : Nat) : State :=
    (s.recC 0x0C02 0x40 2 r.ctx (r.addr % 2 ^ 32) (r.addr / 2 ^ 32)).contextFault r.ctx 0x0C02 0x40 (s.groupUnit core slot)
  match r.for_ with
  | .walk id => s.walkResponse id (if poison then .poisoned else .unsupported)
  | .dma ch => s.emit (.firmware 0x0C02 ch)
  | .kernel core slot op _ _ => fault (s.cutOp core slot op (fun _ => false)) core slot
  | .fence core slot => fault s core slot
  | .release q seq =>
    ((s.recC 0x0C02 0x40 2 r.ctx (r.addr % 2 ^ 32) (r.addr / 2 ^ 32)).contextFault r.ctx 0x0C02 0x40 (some (q, seq))).releaseRead q seq

/-- A read leaves the outstanding ones. -/
def State.hostReadTake (s : State) (id : Nat) : Option (HostRead × State) :=
  (s.hif.reads.find? (fun r => r.id == id)).map (fun r =>
    (r, { s with hif := { s.hif with reads := s.hif.reads.filter (fun x => x.id ≠ id) } }))

/-- HOST_READ_COMPLETION (R435, R436, R567): data goes to its requester; an error completion or poisoned data fails the read; a
response for an abandoned read is discarded. -/
def execHostReadCompletion (id : Nat) (r : ReadResult) (s : State) : Ans :=
  match s.hostReadTake id with
  | none => .next s
  | some (x, s) =>
    if x.abandoned then .next s
    else match r with
      | .data bs => .next (match x.for_ with
        | .kernel core slot op key off => s.kernelData core slot op key off bs
        | .walk w => s.walkResponse w (.data bs)
        | .fence core slot => s.fenceRead core slot
        | .release q seq => s.releaseRead q seq
        | .dma _ => s)
      | .poisoned => .next (s.hostReadFail x false true)
      | _ => .next (s.hostReadFail x false false)

/-- HOST_READ_TIMEOUT (R436): a read outstanding for the whole of its range fails. -/
def execHostReadTimeout (id : Nat) (s : State) : Ans :=
  match s.hostReadTake id with
  | none => .next s
  | some (x, s') =>
    if s.time < x.since + ctvTicks s.hif.ctv then .next s
    else if x.abandoned then .next s'
    else .next (s'.hostReadFail x true false)

/-! ## MSI-X (R448) -/

/-- MSIX_HOLDOFF_EXPIRE (R448): the raise merged during the hold-off is sent, pended where the vector is masked now, or discarded. -/
def execMsixHoldoffExpire (vec : Fin 64) (s : State) : Ans :=
  let v := vec.val
  match Sparse.find s.hif.merged v with
  | some due =>
    if s.time < due then .next s
    else
      let s := { s with hif := { s.hif with merged := Sparse.drop s.hif.merged v } }
      if !s.hif.msixEnable then .next s
      else if s.msixMasked v then .next (s.setFlag (Reg.MSIX_PBA (v / 32)) (v % 32))
      else .next (s.msixSend v)
  | none => .next s

/-- A vector that is no longer masked sends the message its PBA bit holds, under the hold-off (R448). -/
def State.msixUnmasked (s : State) (v : Nat) : State :=
  if s.hif.msixEnable && !s.msixMasked v && s.flag (Reg.MSIX_PBA (v / 32)) (v % 32) then
    (s.clearFlag (Reg.MSIX_PBA (v / 32)) (v % 32)).msixGo v
  else s

/-- MSIX_UNMASK (R447, R448): the vector's mask bit clears. -/
def execMsixUnmask (vec : Fin 64) (s : State) : Ans :=
  if s.uncOn then .next ((s.clearFlag (Reg.MSIX_TABLE (4 * vec.val + 3)) 0).msixUnmasked vec.val) else .next s

/-! ## Mailboxes (R449 to R453, R457): 8 is the I²C inbox, 9 the outbox -/

/-- The sender of a mailbox. -/
def mbSender (m : Nat) : Agent :=
  match m with
  | 4 => .cp | 5 => .cc2 | 6 => .cc3 | 7 => .hearth | 8 => .i2c | 9 => .hearth | _ => .host

/-- The receiver of a mailbox. -/
def mbReceiver (m : Nat) : Agent :=
  match m with
  | 0 => .cp | 1 => .cc2 | 2 => .cc3 | 3 => .hearth | 8 => .hearth | 9 => .i2c | _ => .host

/-- The path by which an end reads. -/
def agentPath : Agent → Path
  | .host => .host | .cp => .cc0 | .cc2 => .cc2 | .cc3 => .cc3 | .hearth => .hearth | .i2c => .i2c

/-- The registers of mailbox m (0 to 7). -/
def mbData (m : Nat) : Nat := Reg.HIF_MB_DATA_IN m
def mbStat (m : Nat) : Nat := Reg.HIF_MB_STAT m

/-- FULL of a mailbox. -/
def State.mbFull (s : State) (m : Nat) : Bool :=
  if m = 8 then s.hif.inboxFull else if m = 9 then s.hif.outboxFull else s.flag (mbStat m) 0

/-- The word of a mailbox. -/
def State.mbWord (s : State) (m : Nat) : Word :=
  if m = 8 then s.hif.inbox else if m = 9 then s.hif.outbox else s.reg (mbData m)

/-- A word accepted into an empty mailbox. -/
def State.mbPut (s : State) (m : Nat) (w : Word) : State :=
  if m = 8 then { s with hif := { s.hif with inbox := w, inboxFull := true } }
  else if m = 9 then { s with hif := { s.hif with outbox := w, outboxFull := true } }
  else (((s.setReg (mbData m) w).setFlag (mbStat m) 0).countWrap (mbStat m) 31 16 1)

/-- What filling a mailbox does beside (R453): the Hearth core wakes, MB_VEC is raised, PCIE_WAKE_N goes low. -/
def State.mbFilled (s : State) (m : Nat) : State :=
  if m = 3 ∨ m = 8 then { s with pwr := { s.pwr with hearthAwake := true } }
  else if m < 4 ∨ m = 9 then s
  else
    let s := s.raiseHif 2
    if m = 7 ∧ s.hif.linkL2 ∧ s.flag Reg.HIF_CTRL 0 then { s with hif := { s.hif with wakeN := false } } else s

/-- A sender's post (R450): into an empty mailbox, or lost with MB_LOST and record 0x0C03. -/
def State.mbPost (s : State) (m : Nat) (w : Word) : State :=
  if s.mbFull m then
    (if s.uncOn then s.setFlag Reg.HIF_STATUS 10 else s).rec0 0x0C03 (if m = 8 then 0x42 else 0x40) 1 m w.toNat
  else (s.mbPut m w).mbFilled m

/-- A receiver's take: FULL clears. -/
def State.mbTake (s : State) (m : Nat) : State :=
  if m = 8 then { s with hif := { s.hif with inboxFull := false } }
  else if m = 9 then { s with hif := { s.hif with outboxFull := false } }
  else s.clearFlag (mbStat m) 0

/-- MAILBOX_WRITE (R450): only the sender's counts. -/
def execMailboxWrite (m : Fin 10) (from_ : Agent) (w : Word) (s : State) : Ans :=
  if from_ = mbSender m.val then .next (s.mbPost m.val w) else .next s

/-- MAILBOX_READ (R450): anyone gets the word; the receiver's read clears FULL. -/
def execMailboxRead (m : Fin 10) (by_ : Agent) (s : State) : Ans :=
  let s := s.emit (.readData (agentPath by_) (s.mbWord m.val))
  .next (if by_ = mbReceiver m.val then s.mbTake m.val else s)

/-! ## The link (R435, R458, R459) -/

/-- Whether a power-state change excuses a link-down: L2, an entry or an exit. -/
def State.linkExcused (s : State) : Bool := s.hif.linkL2 || s.pwr.entry.isSome || s.pwr.exit.isSome

/-- The link is down (R459): outstanding reads fail as Unsupported Request (DEDUCED, log entry 42), unsent posted writes are discarded,
the event is counted with record 0x0C05. -/
def State.linkLost (s : State) : State :=
  let rs := s.hif.reads
  let s := s.clearFlag Reg.HIF_STATUS 0
  let s := { s with hif := { s.hif with reads := [], unsent := [] } }
  let s := rs.foldl (fun s r => if r.abandoned then s else s.hostReadFail r false false) s
  let s := s.countSat Reg.HIF_LINK_EVENTS 31 16 1
  s.rec0 0x0C05 0x40 1 (s.fld Reg.HIF_LINK_EVENTS 31 16) 0

/-- LINK_DOWN (R459). -/
def execLinkDown (s : State) : Ans :=
  if !s.uncOn || !s.flag Reg.HIF_STATUS 0 || s.linkExcused then .next s else .next s.linkLost

/-- LINK_RECOVERY (R458): counted, with record 0x0C04. -/
def execLinkRecovery (s : State) : Ans :=
  if !s.uncOn || !s.flag Reg.HIF_STATUS 0 then .next s
  else
    let s := s.countSat Reg.HIF_LINK_EVENTS 15 0 1
    .next (s.rec0 0x0C04 0x40 0 (s.fld Reg.HIF_LINK_EVENTS 15 0) 0)

/-- PCIE_MAX: the highest generation and lanes offered (R499). -/
def State.pcieMax (s : State) : Nat × Nat :=
  let v := s.param 0x0006 0x24
  (bits v 2 0, 2 ^ bits v 5 4)

/-- LINK_TRAINING (R435, R459, R368): L0 with a speed and width; HOST_ATOMIC as found; PCIE_WAKE_N released; unsent writes go out. -/
def execLinkTraining (gen width : Fin 5) (atomics : BitVec 6) (s : State) : Ans :=
  let (g, w) := s.pcieMax
  if !s.uncOn || gen.val == 0 || g < gen.val || !(width.val == 1 || width.val == 2 || width.val == 4) || w < width.val then .next s
  else
    let s := ((s.setFlag Reg.HIF_STATUS 0).setFld Reg.HIF_STATUS 3 1 gen.val).setFld Reg.HIF_STATUS 6 4 width.val
    .next { s with
      out := s.out ++ s.hif.unsent,
      hif := { s.hif with hostAtomic := atomics.toNat, wakeN := true, linkL2 := false, unsent := [] } }

/-- Configuration space, the BARs and the MSI-X table at their reset values (R511, R533). -/
def State.configReset (s : State) : State :=
  { s with
    regs := Sparse.dropRange s.regs 0x018000 0x1010,
    hif := { s.hif with
      bar0 := none, bar2 := none, bar2Log2 := 28, memDecode := false, msixEnable := false, funcMask := false, ctv := 0,
      d3hot := false, requesterId := 0, lastMsg := [], merged := [] } }

/-- PERST_ASSERT (R511): in A0 or A1 the host link and configuration space reset, under R459. -/
def execPerstAssert (s : State) : Ans :=
  if !s.uncOn then .next s
  else .next (if s.flag Reg.HIF_STATUS 0 && !s.linkExcused then s.linkLost else s.clearFlag Reg.HIF_STATUS 0).configReset

/-! ## I²C (R454 to R457) -/

/-- The target's address (R454, R499). -/
def State.i2cAddr (s : State) : Nat := s.param 0x0102 0x4C

/-- I2C_ADDRESS_MATCH (R455): acknowledged with SCL held low; the Hearth core wakes. -/
def execI2cAddressMatch (a : BitVec 7) (s : State) : Ans :=
  if a.toNat = s.i2cAddr then
    .next { s with
      hif := { s.hif with i2cAddressed := true, sclHeld := true }, pwr := { s.pwr with hearthAwake := true } }
  else .next s

/-- The target's state as SCL low for 35 ms, or the end of a transaction, leaves it. -/
def State.i2cIdle (s : State) : State := { s with hif := { s.hif with i2cAddressed := false, sclHeld := false } }

/-- I2C_SCL_TIMEOUT (R454). -/
def execI2cSclTimeout (s : State) : Ans := .next s.i2cIdle

/-- One transaction after its address match (R454, R456, R457): a wrong request PEC is not acknowledged and nothing runs; a wrong count
answers status 2; otherwise the command answers. -/
def State.i2cRun (s : State) (cmd count : Nat) (r : I2cRequest) (f : List Byte → State → List Byte × State) : State :=
  if !s.hif.i2cAddressed then s
  else if !r.pecOk then ((s.emit .i2cNack).rec0 0x0C10 0x42 0 cmd 0).i2cIdle
  else if r.bytes.length ≠ count then (s.emit (.i2c [2])).i2cIdle
  else
    let (bs, s) := f r.bytes s
    (s.emit (.i2c bs)).i2cIdle

/-- IDENT (R456): stepping and firmware version. -/
def execIdent (r : I2cRequest) (s : State) : Ans :=
  .next (s.i2cRun 1 0 r (fun _ s =>
    ([0, 0x42, 0x30] ++ leBytes 2 (bits s.boot.version 47 32) ++ leBytes 2 (bits s.boot.version 31 16)
      ++ leBytes 2 (bits s.boot.version 15 0), s)))

/-- STATUS (R456): power state, Tj, board power, last wake source, records added. -/
def execStatus (r : I2cRequest) (s : State) : Ans :=
  .next (s.i2cRun 2 0 r (fun _ s =>
    ([0, BitVec.ofNat 8 (s.fld Reg.PWR_STATUS 1 0), BitVec.ofNat 8 (s.fld Reg.PWR_POWER 23 16)]
      ++ leBytes 2 (s.fld Reg.PWR_POWER 15 0) ++ [BitVec.ofNat 8 (s.fld Reg.PWR_WAKE 11 8)]
      ++ leBytes 2 (s.fld Reg.ERR_SEQ 15 0), s)))

/-- MSG_PUT (R456, R457): the inbox takes the word, or was full. -/
def execMsgPut (r : I2cRequest) (s : State) : Ans :=
  .next (s.i2cRun 4 4 r (fun bs s =>
    ([0, if s.hif.inboxFull then 1 else 0], s.mbPost 8 (BitVec.ofNat 32 (leNat bs)))))

/-- MSG_GET (R456, R457): the outbox's word, if one waits. -/
def execMsgGet (r : I2cRequest) (s : State) : Ans :=
  .next (s.i2cRun 5 0 r (fun _ s =>
    if s.hif.outboxFull then ([0, 1] ++ leBytes 4 s.hif.outbox.toNat, s.mbTake 9) else ([0, 0, 0, 0, 0, 0], s)))

end Sys2Proof.Machine
end

