-- ==== Sys2Proof/Machine/Dmc.lean ====
section
/-! DEFINITION. The commands of the DRAM controllers (chapter 13): remap table, patrol scrub, region commit, temperature and
maintenance. -/

namespace Sys2Proof.Machine

/-! ## Writes ignored under R13 (R569) -/

/-- The unit ID of a writer (R40, R569). -/
def Path.unitId : Path → Nat
  | .hearth => 0x00 | .cc0 => 0x02 | .cc1 => 0x03 | .cc2 => 0x04 | .cc3 => 0x05 | _ => 0x40

/-- A write ignored under R13: the block's violation bit, DMC_STATUS.VIOL for the DMC, record 0x1001. -/
def State.violation (s : State) (unit a v : Nat) : State :=
  let s := if a < 0x150000 then s.setFlag Reg.ERR_VIOL0 (a / 65536)
    else if 0x400000 ≤ a then s.setFlag Reg.ERR_VIOL1 ((a - 0x400000) / 65536) else s
  let s := if a / 65536 = 0x0A then s.setFlag Reg.DMC_STATUS 5 else s
  s.rec0 0x1001 unit 1 a v

/-! ## Remap (R473 to R475, R482) -/

/-- The line a remap entry names, if it is valid. -/
def State.remapLine (s : State) (i : Nat) : Option Nat :=
  if s.flag (Reg.DMC_RMP_LO i) 0 then some (s.reg64 (Reg.DMC_RMP_LO i) / 128 * 128) else none

/-- The code of a remap request (R482). -/
def State.remapCode (s : State) (op entry a : Nat) : Nat :=
  if s.flag Reg.DMC_STATUS 1 ∨ s.flag Reg.DMC_STATUS 0 then 0x64
  else if a % 128 ≠ 0 ∨ s.usable ≤ a ∨ !s.eccAt a then 0x65
  else if (op = 0 ∧ ((s.remapLine entry).isSome ∨ (List.range 16).any (fun i => s.remapLine i == some a)))
      ∨ (op = 1 ∧ (s.remapLine entry).isNone) then 0x66
  else if 2 ≤ op then 0x67
  else 0

/-- Copy the code words of a line between its own location and a spare line (R474 step 3). -/
def State.remapCopy (s : State) (line : Nat) : State :=
  (List.range 4).foldl (fun s i =>
    let n := line / 32 + i
    let m := s.cwMark n
    if !m.written ∨ m.poison then s
    else if m.bad then
      ((s.setMark n ⟨true, false, false, true⟩).countSat Reg.DMC_ECC_COUNT 31 16 1).rec0 0x0D07 0x21 1 (n * 32 % 2 ^ 32) (n * 32 / 2 ^ 32)
    else s.setMark n ⟨true, false, false, false⟩) (s.countBytes line 256)

/-- A write to DMC_RMP_CMD (R474): OP and ENTRY are replaced; GO runs the check and the whole update. -/
def State.rmpCmd (s : State) (v : Word) : State :=
  let s := s.setReg Reg.DMC_RMP_CMD (v &&& 0xF06#32)
  if !bit v.toNat 0 then s
  else
    let op := bits v.toNat 2 1
    let entry := bits v.toNat 11 8
    let a := s.reg64 Reg.DMC_RMP_ADDR_LO
    let code := s.remapCode op entry a
    let s := s.setFld Reg.DMC_STATUS 23 16 code
    if code ≠ 0 then s
    else
      let line := (s.remapLine entry).getD a
      let s := s.remapCopy (if op = 0 then a else line)
      let s := if op = 0 then s.setReg64 (Reg.DMC_RMP_LO entry) (a + 1) else s.clearFlag (Reg.DMC_RMP_LO entry) 0
      s.setFlag Reg.DMC_STATUS 4

/-- RMP_ADD (R474). -/
def execRmpAdd (v : Word) (s : State) : Ans :=
  if s.uncRuns && bit v.toNat 0 && bits v.toNat 2 1 == 0 then .next (s.rmpCmd v) else .next s

/-- RMP_REMOVE (R474). -/
def execRmpRemove (v : Word) (s : State) : Ans :=
  if s.uncRuns && bit v.toNat 0 && bits v.toNat 2 1 == 1 then .next (s.rmpCmd v) else .next s

/-! ## Region commit (R465, R478, R479, R482) -/

/-- The pending map: DMC_RGNr_CTRL. -/
def State.pendingMap (s : State) : List Region :=
  (List.range 16).map (fun r => ⟨s.fld (Reg.DMC_RGN_CTRL r) 6 0, s.flag (Reg.DMC_RGN_CTRL r) 8⟩)

/-- A region of a map with its number, raw start and data start. -/
structure Placed where
  n : Nat
  raw : Nat
  base : Nat
  r : Region
  deriving DecidableEq, Repr

/-- The regions of a map up to the one that ends it. -/
def placeMap : List Region → Nat → Nat → Nat → List Placed
  | [], _, _, _ => []
  | r :: t, n, raw, base => if r.raw = 0 then [] else ⟨n, raw, base, r⟩ :: placeMap t (n + 1) (raw + r.raw) (base + r.dataBytes)

/-- Whether a region of the new map is one of the old map, unchanged (R478). -/
def Placed.kept (old : List Placed) (p : Placed) : Option Placed := old.find? (fun o => o.n == p.n && o.raw == p.raw && o.r == p.r)

/-- Bytes of firmware-reserved DRAM (R514). -/
def State.fwBytes (s : State) : Nat := s.fld Reg.GLB_FWRES 4 0 * 2 ^ 24

/-- The code of a region commit (R482). -/
def State.mapCode (s : State) : Nat :=
  let new := s.pendingMap
  let old := placeMap s.dram.map 0 0 0
  let placed := placeMap new 0 0 0
  let changed (o : Placed) : Bool := !placed.any (fun p => p.n == o.n && p.raw == o.raw && p.r == o.r)
  let gap := (new.drop placed.length).any (fun r => r.raw ≠ 0)
  if new.any (fun r => 64 < r.raw) ∨ gap ∨ dramUnits < (new.map (fun r => r.raw)).sum ∨ placed.isEmpty then 0x60
  else if (List.range 32).any (fun c => s.fld (Reg.CPR_CTX_STATUS c) 1 0 ≠ 0) ∨ bit (s.act Reg.DSP_CTRL).toNat 0 ∨ s.flag Reg.LDM_CTRL 0
      ∨ s.fld Reg.WSK_FF_STATUS 4 2 ≠ 0 ∨ s.flag Reg.CPY_STATUS 0 ∨ s.flag Reg.DMC_STATUS 1 ∨ !s.l2.queue.isEmpty then 0x61
  else if old.any (fun o => changed o && (List.range 16).any (fun i => match s.remapLine i with
      | some a => o.base ≤ a && a < o.base + o.r.dataBytes
      | none => false)) then 0x62
  else if s.fwBytes ≠ 0 ∧ (old.any (fun o => o.n == 0 && changed o) ∨ placed.any (fun p => p.n == 0 && p.r.dataBytes < s.fwBytes)) then 0x63
  else 0

/-- Where a new map puts the scrub position (R477): it stays in its region where the commit leaves that region unchanged, else the pass
restarts from the lowest protected address. -/
def scrubPos (old new : List Placed) (pos : Nat) : Nat :=
  (new.findSome? (fun p => match p.kept old with
    | some o => if o.base ≤ pos ∧ pos < o.base + o.r.dataBytes then some (pos - o.base + p.base) else none
    | none => none)).getD ((new.find? (fun p => p.r.prot)).elim 0 (fun p => p.base))

/-- Put a new map in force (R478 steps 2 to 5): flush and invalidate all, unchanged regions keep their data, DMC_RGNr_BASE and
DMC_USABLE follow. -/
def State.mapApply (s : State) (new : List Region) : State :=
  let old := placeMap s.dram.map 0 0 0
  let placed := placeMap new 0 0 0
  let s := s.l2Do 2 0 0
  let move {α : Type} (unit : Nat) (m : List (Nat × α)) : List (Nat × α) := placed.flatMap (fun p => match p.kept old with
    | some o => (Sparse.range m (o.base / unit) (o.r.dataBytes / unit)).map (fun x => (x.1 - o.base / unit + p.base / unit, x.2))
    | none => [])
  let pos := scrubPos old placed (s.reg64 Reg.DMC_SCRUB_POS_LO)
  let s := { s with dram := { s.dram with bytes := move 1 s.dram.bytes, marks := move 32 s.dram.marks, map := new } }
  let s := (List.range 16).foldl (fun s r => s.setReg (Reg.DMC_RGN_BASE r) (match placed.find? (fun p => p.n == r) with
    | some p => BitVec.ofNat 32 (p.base / mib64 + p.r.dataBytes / mib64 * 65536)
    | none => 0)) s
  (s.setReg64 Reg.DMC_SCRUB_POS_LO pos).setFld Reg.DMC_USABLE 15 0 (s.usable / mib64)

/-- A GO of DMC_MAP_CMD while MAP_LOCK is 0 (R478). -/
def State.mapGo (s : State) : State :=
  let code := s.mapCode
  let s := s.setFld Reg.DMC_STATUS 15 8 code
  if code ≠ 0 then s else (s.mapApply s.pendingMap).setFlag Reg.DMC_STATUS 3

/-- MAP_COMMIT (R478, R479): ignored under R13 while MAP_LOCK is 1. -/
def execMapCommit (v : Word) (s : State) : Ans :=
  if !s.uncRuns || !bit v.toNat 0 then .next s
  else if s.flag Reg.DMC_LOCK 0 then .next (s.violation 0x40 Reg.DMC_MAP_CMD v.toNat)
  else .next s.mapGo

/-! ## Patrol scrub (R476, R477) -/

/-- The lowest protected address at or above an address. -/
def State.nextProt (s : State) (a : Nat) : Option Nat :=
  (placeMap s.dram.map 0 0 0).findSome? (fun p =>
    if !p.r.prot ∨ p.base + p.r.dataBytes ≤ a then none else some (max a p.base))

/-- One code word of a visited line (R476). -/
def State.scrubCw (s : State) (n : Nat) : State :=
  let m := s.cwMark n
  let a := n * 32
  let line := n / 4
  if !m.written ∨ m.poison then s
  else if m.bad then s.rec0 0x0D05 0x21 1 (a % 2 ^ 32) (a / 2 ^ 32)
  else if m.single then
    let s := (((s.setMark n ⟨true, false, false, false⟩)).countBytes a 32).countSat (Reg.DMC_CH_CORR (channelOf a)) 31 0 1
    let due := match Sparse.find s.dram.lastScrub line with
      | some t => decide (t + us 1000 ≤ s.time)
      | none => true
    if due then
      let s := { s with dram := { s.dram with lastScrub := Sparse.put s.dram.lastScrub line s.time } }
      s.rec0 0x0D04 0x21 0 (a % 2 ^ 32) (a / 2 ^ 32)
    else s
  else s

/-- Bit errors that have arisen in a line's stored code words: single (false) or double (true). -/
def State.upset (s : State) (line : Nat) (es : List (Fin 4 × Bool)) : State :=
  es.foldl (fun s e =>
    let n := line / 32 + e.1.val
    let m := s.cwMark n
    if e.2 ∨ m.single then s.setMark n { m with bad := true } else s.setMark n { m with single := true }) s

/-- SCRUB_VISIT (R476, R477): the next protected line is read, corrected code words are written back, and the position moves on. -/
def execScrubVisit (upsets : List (Fin 4 × Bool)) (s : State) : Ans :=
  if !s.uncRuns || !s.flag Reg.DMC_SCRUB_CTRL 0 || s.fld Reg.PWR_STATUS 1 0 ≠ 0 || s.fld Reg.DMC_STATUS 1 0 ≠ 0 then .next s
  else match s.nextProt (s.reg64 Reg.DMC_SCRUB_POS_LO), s.nextProt 0 with
    | some a, some low =>
      let s := (s.upset a upsets).countBytes a 128
      let s := (List.range 4).foldl (fun s i => s.scrubCw (a / 32 + i)) s
      .next (match s.nextProt (a + 128) with
        | some b => s.setReg64 Reg.DMC_SCRUB_POS_LO b
        | none => (s.setReg64 Reg.DMC_SCRUB_POS_LO low).countWrap Reg.DMC_SCRUB_PASSES 31 0 1)
    | _, _ => .next s

/-! ## Temperature and maintenance (R462, R480, R481) -/

/-- The channel of the highest MR4 code, the first of equals. -/
def hottest : List (Nat × Nat) → Nat × Nat
  | [] => (0, 0)
  | x :: t => let y := hottest t; if y.2 % 32 ≤ x.2 % 32 then (x.1, x.2 % 32) else y

/-- MR4_POLL (R480, R546): a channel's refresh rate; a rise of HOT gives record 0x0D08, and the operating point follows HOT. -/
def execMr4Poll (ch : Fin 16) (rate : BitVec 5) (beyond : Bool) (s : State) : Ans :=
  if !s.uncOn then .next s
  else
    let s := { s with dram := { s.dram with mr4 := Sparse.put s.dram.mr4 ch.val (rate.toNat + (if beyond then 32 else 0)) } }
    let (c, r) := hottest s.dram.mr4
    let was := s.flag Reg.DMC_TEMP 16
    let hot := s.dram.mr4.any (fun x => 32 ≤ x.2)
    let s := ((s.setFld Reg.DMC_TEMP 4 0 r).setFld Reg.DMC_TEMP 11 8 c).setFld Reg.DMC_TEMP 16 16 (if hot then 1 else 0)
    let s := if hot && !was then s.rec0 0x0D08 0x21 1 ch.val rate.toNat else s
    .next s.sopUpdate

/-- ZQ_CALIBRATION (R462): the background calibration is latched. -/
def execZqCalibration (s : State) : Ans :=
  if s.uncOn then .next { s with dram := { s.dram with lastZq := s.time } } else .next s

/-- DRAM_POWER_DOWN (R481): in A1 a channel without a request for 1 µs. -/
def execDramPowerDown (ch : Fin 16) (s : State) : Ans :=
  let quiet : Bool := match Sparse.find s.dram.lastReq ch.val with
    | some t => decide (t + us 1 ≤ s.time)
    | none => true
  if s.fld Reg.PWR_STATUS 1 0 = 1 ∧ quiet then
    .next { s with dram := { s.dram with powerDown := Sparse.put s.dram.powerDown ch.val true } }
  else .next s

end Sys2Proof.Machine
end

