-- ==== Sys2Proof/Machine/Image.lean ====
section
/-! DEFINITION. The flash and the Brixa image (R489 to R494), one-time storage (R573), the clamp report (R503) and the start
parameters (R499, R551). -/

namespace Sys2Proof.Machine

/-! ## The flash (R488) -/

/-- The flash's density in bytes. -/
def flashBytes : Nat := 2 ^ flashLog2

/-- A byte of the flash. -/
def State.flashAt (s : State) (a : Nat) : Byte :=
  match Sparse.find s.boot.flash a with
  | some b => b
  | none => Config.flashByte a

/-- Bytes of the flash. -/
def State.flashRange (s : State) (a n : Nat) : List Byte := (List.range n).map (fun i => s.flashAt (a + i))

/-- A 32-bit word of the flash. -/
def State.flashWord (s : State) (a : Nat) : Nat := leNat (s.flashRange a 4)

/-- The first byte of a slot. -/
def slotBase (k : Nat) : Nat := if k = 0 then 0 else flashBytes / 2

/-! ## One-time storage (R573) -/

/-- A 32-bit word of a one-time field, numbered as DBG_OTP_CMD.FIELD: what production left, and the bits programmed since. -/
def State.otpWord (s : State) (f w : Nat) : Nat := (Config.otp f w ||| Sparse.get s.dbg.otp 0 (f * 8 + w)).toNat

/-- A field of several words as one number, the first word the least significant. -/
def State.otpField (s : State) (f n : Nat) : Nat := ((List.range n).map (fun w => s.otpWord f w * 2 ^ (32 * w))).sum

/-- SVN_FLOOR: the number of bits set. -/
def State.svnFloor (s : State) : Nat := popcount 64 (s.otpField 6 2)

/-! ## The image (R489 to R493) -/

/-- The section table of a slot. -/
def State.sectionAt (s : State) (base i : Nat) : Section :=
  let e := base + 0x100 + 64 * i
  ⟨i, bits (s.flashWord e) 7 0, bits (s.flashWord e) 19 16, s.flashWord (e + 4), s.flashWord (e + 8), leNat (s.flashRange (e + 16) 8)⟩

/-- The sections of a slot. -/
def State.sectionsOf (s : State) (base : Nat) : List Section :=
  (List.range (bits (s.flashWord (base + 0x10)) 6 0)).map (fun i => s.sectionAt base i)

/-- Whether reserved bits of an entry are 0 (R490). -/
def State.entryClean (s : State) (base i : Nat) : Bool :=
  let e := base + 0x100 + 64 * i
  s.flashWord e % 2 ^ 20 / 2 ^ 16 * 2 ^ 16 + s.flashWord e % 256 == s.flashWord e && s.flashWord (e + 12) == 0
    && leNat (s.flashRange (e + 24) 8) == 0

/-- Whether one section keeps the rules of R492; `boot`, `image` are BOOT_BYTES and IMAGE_BYTES. -/
def Section.ok (x : Section) (boot image tableEnd : Nat) : Bool :=
  x.off % 256 == 0 && x.len != 0 && x.off + x.len ≤ image && tableEnd ≤ x.off
    && (if x.type = 0x30 then boot ≤ x.off else x.off + x.len ≤ boot)
    && (x.type != 0x10 || (x.bcast != 0 && x.load + x.len ≤ 2 ^ 19))
    && (x.type != 0x01 || x.load + x.len ≤ 2 ^ 20)
    && (x.type != 0x21 || (128 ≤ x.len && x.len ≤ 512 && x.len % 128 == 0))

/-- Whether the sections lie apart. -/
def sectionsApart : List Section → Bool
  | [] => true
  | x :: t => t.all (fun y => !overlaps x.off x.len y.off y.len) && sectionsApart t

/-- The structure check of a slot (R489 to R492). -/
def State.structureOk (s : State) (k : Nat) : Bool :=
  let b := slotBase k
  let w (o : Nat) : Nat := s.flashWord (b + o)
  let boot := w 0x0C
  let image := w 0x08
  let n := bits (w 0x10) 6 0
  let ss := s.sectionsOf b
  let count (t : Nat) : Nat := (ss.filter (fun x => x.type == t)).length
  w 0 == 0x41585242 && bits (w 4) 7 0 == 1 && bits (w 4) 15 11 == 0 && bits (w 4) 31 22 == 0 && bits (w 0x10) 31 7 == 0
    && (s.flashRange (b + 0x20) 0x60).all (fun x => x == 0)
    && 1 ≤ n && n ≤ 64 && boot % 256 == 0 && 65536 ≤ boot && boot ≤ 2 ^ 22 && boot ≤ image
    && image ≤ (if k = 0 then flashBytes / 2 else flashBytes - flashBytes / 2) && 0x100 + 64 * n ≤ boot
    && (List.range n).all (fun i => s.entryClean b i) && (ss.head?.elim false (fun x => x.type == 0x01))
    && ss.all (fun x => x.ok boot image (0x100 + 64 * n)) && sectionsApart ss && count 0x02 ≤ 1 && count 0x21 ≤ 1

/-- The digest of a slot's header bytes 0x00 to 0x7F and section table. -/
def State.headerDigest (s : State) (k : Nat) : Nat :=
  let b := slotBase k
  Config.sha256 (s.flashRange b 0x80 ++ s.flashRange (b + 0x100) (64 * bits (s.flashWord (b + 0x10)) 6 0))

/-- The key, signature and version checks of a slot (R493): the check that failed, as record 0x0E01 names it; 0 for none. -/
def State.signatureCheck (s : State) (k : Nat) : Nat :=
  let b := slotBase k
  let w := s.flashWord (b + 4)
  let key := bits w 10 9
  let signed := bit w 8
  if signed ∧ (Config.sha256 (s.flashRange (b + 0x80) 64) ≠ s.otpField (1 + key) 8 ∨ bit (s.otpWord 5 0) key) then 2
  else if !signed ∧ bit (s.otpWord 0 0) 0 then 2
  else if signed ∧ !Config.signatureOk (s.headerDigest k) (leNat (s.flashRange (b + 0x80) 128)) then 3
  else if bits w 21 16 < s.svnFloor then 4
  else 0

/-- Whether a section's digest matches (R493); the stored 32 bytes are SHA-256's, the first the most significant. -/
def State.digestOk (s : State) (base : Nat) (x : Section) : Bool :=
  Config.sha256 (s.flashRange (base + x.off) x.len) == leNat (s.flashRange (base + 0x100 + 64 * x.index + 32) 32).reverse

/-- The first section of those that satisfy a test whose digest does not match. -/
def State.badDigest (s : State) (k : Nat) (f : Section → Bool) : Option Section :=
  (s.sectionsOf (slotBase k)).find? (fun x => f x && !s.digestOk (slotBase k) x)

/-- The check of a slot before anything is loaded: the failing check and section. `trusted`: the warm start's digest matched. -/
def State.slotCheck (s : State) (k : Nat) (trusted : Bool) : Option (Nat × Nat) :=
  if (Sparse.find s.boot.badSlots k).isSome then some (5, Sparse.get s.boot.badSlots 0 k)
  else if !s.structureOk k then some (1, 0)
  else
    let c := if trusted then 0 else s.signatureCheck k
    if c ≠ 0 then some (c, 0)
    else (s.badDigest k (fun x => x.type == 0x01 || x.type == 0x02)).map (fun x => (5, x.index))

/-! ## The clamp report (R503) -/

/-- Add an entry, or count it as lost with record 0x0E06 for the first. -/
def State.clamp (s : State) (kind sect low idx w1 given used : Nat) : State :=
  let n := s.fld Reg.CFG_STATUS 7 0
  if n < 128 then
    (s.setRegs (Reg.CFG_CLAMP (4 * n)) [BitVec.ofNat 32 (kind + sect % 64 * 16 + low % 32 * 1024 + idx % 2 ^ 16 * 2 ^ 16),
      BitVec.ofNat 32 w1, BitVec.ofNat 32 given, BitVec.ofNat 32 used]).setFld Reg.CFG_STATUS 7 0 (n + 1)
  else
    let first := s.fld Reg.CFG_STATUS 31 16 = 0
    let s := s.countSat Reg.CFG_STATUS 31 16 1
    if first then s.rec0 0x0E06 0x04 1 idx 0 else s

/-! ## Start parameters (R498, R499, R551) -/

/-- A field of a parameter: bits, range, and the value an out-of-range one takes where the table states otherwise. -/
structure PField where
  hi : Nat
  lo : Nat
  min : Nat
  max : Nat
  bad : Option Nat
  deriving DecidableEq, Repr

/-- The fields of a known parameter. PMBUS_KHZ (0x0118) and FLOW_DESC (0x0007) have rules of their own. -/
def paramFields (id : Nat) : Option (List PField) :=
  let one (min max : Nat) : Option (List PField) := some [⟨63, 0, min, max, none⟩]
  if 0x0110 ≤ id ∧ id ≤ 0x0117 then some [⟨18, 16, 0, 5, some 0⟩]
  else match id with
    | 0x0001 => one 0 4 | 0x0002 => one 4 16 | 0x0003 => one 0 1 | 0x0004 => one 0 1 | 0x0005 => some []
    | 0x0006 => some [⟨2, 0, 1, 4, none⟩, ⟨5, 4, 0, 2, none⟩] | 0x0007 => some []
    | 0x0101 => one 0 1 | 0x0102 => one 0x08 0x77 | 0x0103 => one 6 133 | 0x0118 => some [] | 0x0119 => one 1 100
    | 0x011A => one 1600 3600 | 0x011B => one 0 1 | 0x011C => one 12 40 | 0x011D => some [⟨31, 16, 0, 500, none⟩]
    | 0x011E => one 0 7 | 0x011F => some [⟨15, 8, 1, 255, none⟩]
    | _ => none

/-- A value brought into a field's range, and the clamp's KIND (0: none). -/
def PField.fit (f : PField) (v : Nat) : Nat × Nat :=
  if f.min ≤ v ∧ v ≤ f.max then (v, 0)
  else match f.bad with
    | some d => (d, 3)
    | none => if v < f.min then (f.min, 1) else (f.max, 2)

/-- The nearest PMBus rate. -/
def nearestKhz (v : Nat) : Nat := if v < 250 then 100 else if v < 700 then 400 else 1000

/-- Take one PARAM record of a section. -/
def State.takeParam (s : State) (sect idx id v : Nat) : State :=
  match paramFields id with
  | none => s.clamp 6 sect 0 idx id (v % 2 ^ 32) 0
  | some fs =>
    let (v, s) := fs.foldl (fun (v, s) f =>
      let x := bits v f.hi f.lo
      let (y, kind) := f.fit x
      if kind = 0 then (v, s) else (setBits v f.hi f.lo y, s.clamp kind sect f.lo idx id x y)) (v, s)
    let (v, s) :=
      if id = 0x0118 ∧ nearestKhz v ≠ v then
        (nearestKhz v, s.clamp (if v < nearestKhz v then 1 else 2) sect 0 idx id v (nearestKhz v)) else (v, s)
    let v := if 0x0110 ≤ id ∧ id ≤ 0x0117 ∧ bits v 18 16 = 4 then setBits v 32 32 0 else v
    { s with pwr := { s.pwr with params := Sparse.put s.pwr.params id v } }

/-- Take the records of a HEARTH_CFG section up to its END; a record of another kind is rejected (R498). -/
def State.takeParams (s : State) (base : Nat) (x : Section) : Nat → Nat → State
  | 0, _ => s
  | n + 1, i =>
    let a := base + x.off + 16 * i
    let w0 := s.flashWord a
    match bits w0 7 0 with
    | 0 => s
    | 1 => (s.takeParam x.index i (bits w0 31 16) (leNat (s.flashRange (a + 8) 8))).takeParams base x n (i + 1)
    | _ => (s.clamp 6 x.index 0 i (s.flashWord (a + 4)) 0 0).takeParams base x n (i + 1)

/-- FLOW_DESC: 0, or a multiple of 256 within a loaded DATA section; any other value is set to 0. -/
def State.flowParam (s : State) (base : Nat) (sect : Nat) : State :=
  let v := s.param 0x0007 0
  let inside := (s.sectionsOf base).any (fun x => x.type == 0x30 && x.load ≤ v && v < x.load + x.len)
  if v = 0 ∨ (v % 256 = 0 ∧ inside) then s
  else
    let s := s.clamp 3 sect 0 0 0x0007 (v % 2 ^ 32) 0
    { s with pwr := { s.pwr with params := Sparse.put s.pwr.params 0x0007 0 } }

end Sys2Proof.Machine
end

