-- ==== Sys2Proof/Machine/Reset.lean ====
section
/-! DEFINITION. Resets and what begins a start (R485 to R487, R494, R511 to R516, R533, R564, R565): power-on reset, warm reset, the
release after S3, the choice of a slot. -/

namespace Sys2Proof.Machine

/-! ## The choice of a slot (R494, R512) -/

/-- The start ends in recovery (2) or failed (3), with its code (R516). -/
def State.startStops (s : State) (st code : Nat) : State :=
  (s.setFld Reg.GLB_BOOT 1 0 st).setFld Reg.GLB_BOOT_ERR 7 0 code

/-- Bytes of the flash as cells at a destination. -/
def State.flashCells (s : State) (src dst n : Nat) : List Host.Cell := (List.range n).map (fun i => (dst + i, s.flashAt (src + i)))

/-- Take the Hearth's sections of a slot: its firmware, and the parameters with their defaults for the rest (R487, R499). -/
def State.hearthLoad (s : State) (k : Nat) : State :=
  let base := slotBase k
  let ss := s.sectionsOf base
  let s := { s with pwr := { s.pwr with params := [] } }
  let s := ss.foldl (fun s x =>
    if x.type = 0x01 then
      { s with pwr := { s.pwr with hearthMem := Sparse.merge s.pwr.hearthMem (s.flashCells (base + x.off) x.load x.len) } }
    else if x.type = 0x02 then s.takeParams base x (x.len / 16) 0
    else s) s
  s.flowParam base ((ss.find? (fun x => x.type == 0x02)).elim 0 (fun x => x.index))

/-- Use a slot for this start. -/
def State.useSlot (s : State) (k : Nat) (load : Bool) : State :=
  let b := slotBase k
  let s := if load then s.hearthLoad k else s
  let s := { s with boot := { s.boot with
    slot := k, sections := s.sectionsOf b, digest := some (s.headerDigest k), version := leNat (s.flashRange (b + 0x18) 8) } }
  let s := (s.setFld Reg.GLB_BOOT 3 3 k).setFld Reg.GLB_BOOT 4 4 (bits (s.flashWord (b + 4)) 8 8)
  s.setReg Reg.GLB_IMAGE_SEQ (BitVec.ofNat 32 (s.flashWord (b + 0x14)))

/-- Slot 0 unless it is invalid, then slot 1 with record 0x0E01, else recovery (R494). -/
def State.chooseSlot (s : State) : State :=
  match s.slotCheck 0 false, s.slotCheck 1 false with
  | none, _ => s.useSlot 0 true
  | some (c, x), none => (s.rec0 0x0E01 0x04 1 c x).useSlot 1 true
  | some _, some _ => s.startStops 2 1

/-- The slot of a warm start (R512): the kept one, without a signature check while its digest matches. -/
def State.warmSlot (s : State) : State :=
  let k := s.boot.slot
  match s.boot.digest with
  | none => s.chooseSlot
  | some d => if (s.slotCheck k (decide (d = s.headerDigest k))).isNone then s.useSlot k false else s.chooseSlot

/-! ## Power-on reset (R515, R564, R591) -/

/-- A flash operation that a reset interrupts leaves its page or sector partly written (R515): its bytes are free. -/
def State.flashCut (s : State) : State :=
  match s.boot.flashOp with
  | none => s
  | some (op, a) =>
    let n := match op with
      | 1 => 256
      | 2 => 4096
      | 3 => 65536
      | _ => 0
    { s with
      draws := s.draws + 1,
      boot := { s.boot with
        flash := Sparse.merge s.boot.flash ((List.range n).map (fun i => (a + i, Config.freeByte s.draws (a + i)))), flashOp := none } }

/-- Everything resets but one-time storage and the flash. -/
def State.powerOn (s : State) : State :=
  let s := s.flashCut
  { State.reset with
    pending := s.pending, draws := s.draws + 1, out := s.out,
    dbg := { DbgState.reset with otp := s.dbg.otp },
    boot := { BootState.reset with flash := s.boot.flash } }

/-- POR_N_LOW (R591): low for 10 µs at any time. -/
def execPorNLow (s : State) : Ans := .next s.powerOn

/-! ## Warm reset (R511, R512, R564) -/

/-- Whether a register keeps its value across a warm reset: the Hearth's PWR block, the MSI-X table and PBA. -/
def warmKeeps (a : Nat) : Bool := (0x0D0000 ≤ a && a < 0x0E0000) || (0x018000 ≤ a && a < 0x01A000)

/-- Whether a register keeps its value in S3: PWR and the mailboxes, which live in the Hearth, the clamp report, which nothing but a
cold or warm start clears (R503), and the flash locks, which hold until a power-on reset or warm reset (R12, R520; R533 names them not:
DEDUCED, log entry 43). -/
def s3Keeps (a : Nat) : Bool :=
  (0x0D0000 ≤ a && a < 0x0E0000) || (0x010100 ≤ a && a < 0x010140) || a == Reg.CFG_STATUS || a == Reg.CFG_FL_LOCK
    || (0x131000 ≤ a && a < 0x131800)

/-- The UNC, DISP and CLU domains as a reset leaves them, with the registers a test keeps; ERR_SEQ and the Hearth's copy of FATAL
are reloaded (R562, R580), the repair record names the fenced clusters (R505). -/
def State.domainsReset (s : State) (keep : Nat → Bool) : State :=
  let r : State := { State.reset with
    pending := s.pending, draws := s.draws + 1, out := s.out, time := s.time, timeFrac := s.timeFrac,
    regs := s.regs.filter (fun p => keep p.1), shadows := s.shadows,
    uncOn := true, dispOn := true, cluOn := true,
    err := { ErrState.reset with held := s.err.held, heldDrops := s.err.heldDrops },
    dbg := { s.dbg with scope := 0, challenge := none, chalReq := 0, chalAt := 0, halted := [] },
    hif := { s.hif with reads := [], unsent := [] },
    pwr := { s.pwr with reqs := [], pend := none, heldReqs := [], entry := none, exit := none, idle := 0 },
    boot := { s.boot with flashOp := none } }
  let r := r.setRegs (Reg.ERR_FATAL 0) ((List.range 8).map (fun k => s.reg (Reg.ERR_FATAL k)))
  let r := (r.setReg Reg.ERR_SEQ (s.reg Reg.ERR_SEQ)).setReg Reg.ERR_STATUS (s.reg Reg.ERR_STATUS &&& 0x00FF0002#32)
  let r := r.setFld Reg.GLB_REPAIR 11 0 s.boot.fence
  r.setFld Reg.GLB_REPAIR 15 12 s.boot.ways.length

/-- What production and field repair found is in force from the start, and named again (R509, R510). -/
def State.repairsAgain (s : State) : State :=
  let s := (setBitsOf 12 s.boot.fence).foldl (fun s k => s.rec0 0x0E03 (0x10 + k) 1 k (if bit s.boot.parts k then 2 else 1)) s
  s.boot.ways.foldl (fun s w => s.rec0 0x0E07 0x20 0 w.1 w.2) s

/-- Begin a warm start (R512, R513, R515); a start that has not finished its tests begins again as a cold one. `bad` are the slots
that a digest found since the last reset made invalid (R494), with the section. -/
def State.warmFrom (s : State) (bad : List (Nat × Nat)) : State :=
  let link := s.reg Reg.HIF_STATUS &&& 0x7F#32
  let rate := s.boot.rate
  let tested := s.boot.tested
  let s := (s.flashCut).domainsReset warmKeeps
  let s := s.setReg Reg.HIF_STATUS link
  let s := { s with
    hif := { s.hif with inbox := 0, inboxFull := false, outbox := 0, outboxFull := false },
    dbg := { s.dbg with coreOpened := false },
    boot := { s.boot with
      kind := if tested then 1 else 0, begun := s.time, trained := false, selftest := tested, loaded := false, failing := [], badSlots := bad } }
  let s := ((s.setFld Reg.PWR_STATUS 1 0 0).setPhase 0).setFld Reg.GLB_BOOT 2 2 (if tested then 1 else 0)
  let s := s.setFld Reg.DMC_CFG 2 0 rate
  (s.collectHeld.warmSlot).repairsAgain

/-- A warm reset from one of the sources of R511. -/
def State.warmReset (s : State) : State := s.warmFrom []

/-- A warm reset is possible once the main rails have been raised (R511, R515) and not in S1 or S3. -/
def State.mayWarm (s : State) : Bool := s.uncOn

/-- WARM_RESET (R512). -/
def execWarmReset (s : State) : Ans := if s.mayWarm then .next s.warmReset else .next s

/-- A write to GLB_RST (R511): GO with the key. -/
def State.glbRst (s : State) (v : Word) : State :=
  if bit v.toNat 0 && bits v.toNat 31 16 == 0x57A7 && s.mayWarm then s.warmReset else s

/-- GLB_RST (R511). -/
def execGlbRst (v : Word) (s : State) : Ans := .next (s.glbRst v)

/-- SYSRST (R511, R591): SYSRST_N low for 10 µs; ignored in S1 and S3. -/
def execSysrst (s : State) : Ans := if s.mayWarm then .next s.warmReset else .next s

/-- FATAL_RESET_TIMER (R563): 100 µs after the capture of a fatal record. -/
def execFatalResetTimer (s : State) : Ans :=
  match s.err.fatalAt with
  | some t => if s.time < t || !s.mayWarm then .next s else .next s.warmReset
  | none => .next s

/-- MAIN_SUPPLY_RETURN (R545): the lost supplies return and a warm start runs; the host link trains anew. -/
def execMainSupplyReturn (s : State) : Ans :=
  if !s.pwr.mainLost then .next s
  else
    let s := { s with uncOn := true, pwr := { s.pwr with mainLost := false } }
    let s := { s with hif := { s.hif with unsent := [] } }.clearFlag Reg.HIF_STATUS 0
    .next (s.configReset).warmReset

/-! ## Release after S3 (R532, R533) -/

/-- The domains released from reset at step 4 of an exit from S3: DRAM keeps its contents, the S3-exit start begins. -/
def State.s3Release (s : State) : State :=
  let dram := s.dram
  let s := s.domainsReset s3Keeps
  let s := { s with
    dram := { dram with selfRefresh := false, mr4 := [], lastReq := [], powerDown := [] },
    boot := { s.boot with kind := 2, begun := s.time, trained := true, selftest := true, loaded := false } }
  let s := (s.setFld Reg.GLB_BOOT 3 3 s.boot.slot).setFld Reg.GLB_BOOT 4 4 (bits (s.flashWord (slotBase s.boot.slot + 4)) 8 8)
  (s.setFld Reg.DMC_CFG 2 0 s.boot.rate).collectHeld

/-! ## POR_N rising (R487) -/

/-- POWER_ON_RESET (R487, R494): the Hearth tests its SRAM, finds the flash, chooses a slot and takes its sections. -/
def execPowerOnReset (sramOk sfdp : Bool) (s : State) : Ans :=
  if s.boot.hearth then .next s
  else
    let s := { s with boot := { s.boot with hearth := true, begun := s.time, kind := 0 } }
    if !sramOk then .next (s.startStops 3 3)
    else if !sfdp then .next (s.startStops 2 2)
    else
      let s := s.chooseSlot
      let s := s.setFld Reg.PWR_VBAK 31 16 (s.param 0x011A 2000)
      let s := s.setFld Reg.PWR_LIMIT 5 0 (s.param 0x011C 40)
      let k := s.param 0x011D (128 * 2 ^ 8 + 200 * 2 ^ 16)
      let s := ((s.setFld Reg.PWR_KWS_CTRL 0 0 (bits k 0 0)).setFld Reg.PWR_KWS_CTRL 15 8 (bits k 15 8)).setFld Reg.PWR_KWS_CTRL 24 16 (bits k 31 16)
      let s := s.setFld Reg.PWR_WAKE 5 3 (s.param 0x011E 7)
      let a := s.param 0x011F (1 + 100 * 2 ^ 8)
      .next ((s.setFld Reg.PWR_CTRL 0 0 (bits a 0 0)).setFld Reg.PWR_CTRL 15 8 (bits a 15 8))

/-- The rails of the rail table (R551) that answered. -/
def State.railTable (s : State) (dropped : List Nat) : List Rail :=
  (List.range 8).filterMap (fun n =>
    let v := s.param (0x0110 + n) 0
    if bits v 18 16 = 0 ∨ dropped.contains n then none
    else some ⟨n, bits v 6 0, bits v 15 8, bits v 18 16, bits v 31 20, bit v 32, Config.railMv n⟩)

/-- What the Bellows asks of the rails in Regulator mode as it raises them (R593): the group of each enable, in ascending order, to its
first voltage. -/
def State.raiseRails (s : State) (l : List Rail) : State :=
  if s.param 0x0101 0 = 0 then s
  else [5, 2, 3, 1].foldl (fun s role => (l.filter (fun r => r.role == role)).foldl (fun s r => s.emit (.pmbus r.n r.mv)) s) s

/-- RAILS_READY (R487, R536, R593): RAIL_EN asserted in order, rails that did not answer dropped with a clamp entry, the domains
released; records of the Hearth phase are written. -/
def execRailsReady (dropped : List (Fin 8)) (s : State) : Ans :=
  if !s.boot.hearth || s.boot.rails || s.fld Reg.GLB_BOOT 1 0 == 3 then .next s
  else
    let ds := dropped.map (fun n => n.val)
    let known := (List.range 8).filter (fun n => ds.contains n && bits (s.param (0x0110 + n) 0) 18 16 ≠ 0)
    let s := known.foldl (fun s n => s.clamp 6 0 0 0 (0x0110 + n) (s.param (0x0110 + n) 0 % 2 ^ 32) 0) s
    let s := { s with
      uncOn := true, dispOn := true, cluOn := true, boot := { s.boot with rails := true },
      pwr := { s.pwr with railEn := 15, rails := s.railTable ds } }
    .next (s.raiseRails s.pwr.rails).collectHeld

/-- RAILS_TIMEOUT (R487): not ready within 50 ms. -/
def execRailsTimeout (s : State) : Ans :=
  if s.boot.hearth && !s.boot.rails && s.boot.begun + us 50000 ≤ s.time && s.fld Reg.GLB_BOOT 1 0 == 0 then .next (s.startStops 3 4)
  else .next s

end Sys2Proof.Machine
end

