-- ==== Sys2Proof/Machine/Power.lean ====
section
/-! DEFINITION. Power states and the Hearth (chapter 15): A1, requests, entry and its abort points, wakes, exit up to its last step,
PMBus, supplies, audio and keyword spotting, power limit and temperature. -/

namespace Sys2Proof.Machine

/-! ## Keyword detections and the audio copy (R540 to R543) -/

/-- Whether the spotter, the audio path and the ring run (R540); EN counts as of the last evaluation (R553). -/
def State.kwsOn (s : State) : Bool := s.pwr.kwsEn && !(s.flag Reg.PWR_STATUS 18 && s.param 0x011B 0 == 0)

/-- Ticks of one frame at 16 kHz. -/
def frameTicks : Nat := 6250

/-- Write the frames an audio copy has reached, while the UNC domain runs and no entry has flushed the L2 (R529, R543); frames older
than the ring's are gone. -/
def State.audioPump (s : State) : State :=
  match s.pwr.copy with
  | none => s
  | some c =>
    if !s.uncRuns || !s.coresTake then s
    else
      let first := max c.frame (s.pwr.frames - 40000)
      let n := min (s.pwr.frames - first) ((c.size - c.done) / 4)
      let bs := (List.range n).flatMap (fun i => leBytes 4 (Sparse.get s.pwr.audio 0 ((first + i) % 40000)).toNat)
      let s := if n = 0 then s else s.devWrite 15 (c.addr + c.done) (bs.map some) false
      let done := c.done + 4 * n
      let s := s.setReg Reg.PWR_AUD_COUNT (BitVec.ofNat 32 done)
      { s with pwr := { s.pwr with copy := if c.size ≤ done then none else some { c with frame := first + n, done := done } } }

/-- Begin the copy of a raised detection (R543): from the frame PREROLL ms before its start. -/
def State.audioBegin (s : State) (start : Nat) : State :=
  let size := (s.reg Reg.PWR_AUD_SIZE).toNat / 4 * 4
  if size = 0 ∨ s.pwr.copy.isSome then s
  else
    let back := (s.time - (start - us (1000 * s.fld Reg.PWR_KWS_CTRL 24 16))) / frameTicks
    let first := max (s.pwr.frames - back) (s.pwr.frames - 40000)
    let s := s.setReg Reg.PWR_AUD_COUNT 0
    { s with pwr := { s.pwr with copy := some ⟨first, s.reg64 Reg.PWR_AUD_ADDR_LO, size, 0⟩ } }.audioPump

/-- Raise one detection (R541, R542): KWS and its record, PWR_VEC, the copy; while KWS is 1 only MORE counts. -/
def State.kwsRaise (s : State) (d : Detection) : State :=
  if s.flag Reg.PWR_STATUS 16 then s.countSat Reg.PWR_KWS_DET 15 8 1
  else
    let s := (s.setFlag Reg.PWR_STATUS 16).setReg Reg.PWR_KWS_DET (BitVec.ofNat 32 d.score)
    let s := (s.setReg64 Reg.PWR_KWS_START_LO d.start).setReg64 Reg.PWR_KWS_END_LO d.stop
    (s.raiseHif 3).audioBegin d.start

/-- Whether a detection can be raised now (R542): A0 or A1, no entry or exit, the start running. -/
def State.kwsMay (s : State) : Bool := s.uncRuns && s.pwr.entry.isNone && s.pwr.exit.isNone && s.fld Reg.PWR_STATUS 1 0 < 2

/-- Raise every detection that waits, oldest first. -/
def State.kwsPump (s : State) : State :=
  if !s.kwsMay then s
  else s.pwr.kwsHeld.foldl (fun s d => s.kwsRaise d) { s with pwr := { s.pwr with kwsHeld := [] } }

/-! ## Wakes and aborts (R530, R531, R534, R539) -/

/-- Record a wake or an abort (R539) with the time of the wake. -/
def State.wakeRecord (s : State) (src t : Nat) : State :=
  ((s.setFld Reg.PWR_WAKE 11 8 src).countWrap Reg.PWR_WAKE 31 16 1).setReg64 Reg.PWR_WAKE_TIME_LO t

/-- PCIE_WAKE_N low after an exit or abort not caused by PERST_N, where WAKE_EN was 1 (R534). -/
def State.wakeHost (s : State) (src : Nat) (en : Bool) : State :=
  if src ≠ 1 ∧ en then { s with hif := { s.hif with wakeN := false } } else s

/-- Abandon the entry at an abort point (R530): the steps done are undone, and the records of the abort remain. -/
def State.entryAbort (s : State) (point src t : Nat) : State :=
  let s := { s with
    dram := { s.dram with selfRefresh := false }, pwr := { s.pwr with entry := none, saved := [] } }
  let s := ((s.setPhase 0).setFlag Reg.PWR_STATUS 6).countSat Reg.PWR_ABORT 15 0 1
  let s := (s.setFld Reg.PWR_ABORT 18 16 point).setFld Reg.PWR_ABORT 27 24 src
  (((s.wakeRecord src t).wakeHost src (s.flag Reg.HIF_CTRL 0)).kwsPump).audioPump

/-- The voltage the Bellows returns a rail to (R22, R592). -/
def State.nominalMv (s : State) (r : Rail) : Nat := if r.role = 1 then sopMv (s.fld Reg.PWR_STATUS 21 20) else Config.railMv r.n

/-- What a rail changes to in a power state (R535): S1_MV where it is not 0, off in S3 where S3_OFF; ROLE 4 stays. -/
def Rail.target (r : Rail) (state : Nat) : Option Nat :=
  if r.role = 4 then none
  else if state = 2 then (if r.s1mv ≠ 0 then some r.s1mv else none)
  else if r.s3off then some 0 else none

/-- Requests for every rail an entry changes, in descending number (R535). -/
def State.railsDown (s : State) (state : Nat) : State :=
  if s.param 0x0101 0 = 0 then s
  else s.pwr.rails.reverse.foldl (fun s r => match r.target state with
    | some mv => s.railAsk r.n mv .entry
    | none => s) s

/-- Requests that return the rails not at their nominal voltage, in ascending number; Assist mode asks for none (R535). -/
def State.railsUp (s : State) (why : RailWhy) : State :=
  if s.param 0x0101 0 = 0 then s
  else s.pwr.rails.foldl (fun s r => if r.mv ≠ s.nominalMv r then s.railAsk r.n (s.nominalMv r) why else s) s

/-- Whether a request for a reason is outstanding or waits. -/
def State.railsBusy (s : State) (why : RailWhy) : Bool := s.pwr.reqs.any (fun r => r.why = why)

/-- An exit begins (R532), for a wake at time `t`. -/
def State.exitBegin (s : State) (src t : Nat) : State :=
  let st := s.fld Reg.PWR_STATUS 1 0
  let x : ExitRun := ⟨src, st, 0, t⟩
  let s := ((s.wakeRecord src t).setPhase 4)
  { s with pwr := { s.pwr with exit := some x } }.railsUp .exit

/-- A wake arrives (R530, R531, R539): latched during entry, remembered after the commit, the start of an exit in S1 or S3. -/
def State.wake (s : State) (src : Nat) : State :=
  let enabled := src = 1 ∨ src = 2 ∨ (3 ≤ src ∧ src ≤ 5 ∧ s.flag Reg.PWR_WAKE src)
  if !enabled then s
  else match s.pwr.entry with
    | some e =>
      let e := if e.committed then { e with woke := some (e.woke.getD (src, s.time)) } else { e with latched := e.latched ++ [(src, s.time)] }
      { s with pwr := { s.pwr with entry := some e } }
    | none =>
      if 2 ≤ s.fld Reg.PWR_STATUS 1 0 && s.pwr.exit.isNone && !s.pwr.tripped && !s.pwr.mainLost then s.exitBegin src s.time else s

/-- WAKE_EVENT (R539): a source by its code. -/
def execWakeEvent (source : Fin 6) (s : State) : Ans := .next (s.wake source.val)

/-- PERST_DEASSERT (R539): a wake once the link has been in L2. -/
def execPerstDeassert (s : State) : Ans := if s.hif.linkL2 then .next (s.wake 1) else .next s

/-- ALARM_EXPIRE (R539): the time base reaches PWR_ALARM, which is not 0; once for each value written. -/
def execAlarmExpire (s : State) : Ans :=
  let a := s.reg64 Reg.PWR_ALARM_LO
  if s.pwr.alarmSet ∧ a ≠ 0 ∧ a ≤ s.time then .next ({ s with pwr := { s.pwr with alarmSet := false } }.wake 4) else .next s

/-! ## A1 (R526) -/

/-- A1_ENTRY (R526): idle for A1_IDLE × 10 µs with A1_AUTO 1; the scrub pauses. -/
def execA1Entry (s : State) : Ans :=
  if s.flag Reg.PWR_CTRL 0 && s.fld Reg.PWR_STATUS 1 0 == 0 && s.uncRuns && s.pwr.entry.isNone && s.pwr.exit.isNone && s.a1Quiet
      && s.fld Reg.PWR_CTRL 15 8 * 1000 ≤ s.pwr.idle then
    .next ((s.setFld Reg.PWR_STATUS 1 0 1).setFlag Reg.DMC_STATUS 2)
  else .next s

/-! ## Requests (R527, R528) -/

/-- A write to PWR_REQ by the host (R527): TARGET is replaced, CANCEL withdraws a pending request, GO requests. A request made while
another is under way is checked at once, and so refused (R528). -/
def State.pwrReq (s : State) (v : Word) : State :=
  let target := bits v.toNat 2 1
  let s := s.setFld Reg.PWR_REQ 2 1 target
  let s := if bit v.toNat 3 ∧ s.pwr.pend.isSome then { s with pwr := { s.pwr with pend := none } }.setPhase 0 else s
  if !bit v.toNat 0 then s
  else if s.pwr.pend.isSome || s.pwr.entry.isSome || s.pwr.exit.isSome then (s.pwrCheck 0x40 target).2
  else
    let s := { s with pwr := { s.pwr with pend := some (target, s.time) } }.setPhase 1
    if s.hif.linkL2 && s.sched.quench.isNone then s.pwrPending else s

/-- POWER_REQUEST (R527). -/
def execPowerRequest (v : Word) (s : State) : Ans := if s.uncRuns && bit v.toNat 0 then .next (s.pwrReq v) else .next s

/-- POWER_REQUEST_CANCEL (R527). -/
def execPowerRequestCancel (v : Word) (s : State) : Ans :=
  if s.uncRuns && bit v.toNat 3 && !bit v.toNat 0 then .next (s.pwrReq v) else .next s

/-- POWER_LINK_TIMEOUT (R527): the link has not entered L2 within 1 s of GO. -/
def execPowerLinkTimeout (s : State) : Ans :=
  match s.pwr.pend with
  | some (_, t) =>
    if s.hif.linkL2 || s.time < t + us 1000000 then .next s
    else .next (({ s with pwr := { s.pwr with pend := none } }.setPhase 0).pwrRefuse 0x74 0x40)
  | none => .next s

/-- LINK_L2_ENTRY (R527): a pending host request is checked. -/
def execLinkL2Entry (s : State) : Ans :=
  if !s.uncOn || !s.flag Reg.HIF_STATUS 0 then .next s
  else
    let s := { s.clearFlag Reg.HIF_STATUS 0 with hif := { s.hif with linkL2 := true } }
    .next (if s.sched.quench.isNone then s.pwrPending else s)

/-- POWER_REQ over I²C (R456, R527, R539): target 0 is wake source 2; any other is checked at once, or after a Quench (R568). -/
def execPowerReq (r : I2cRequest) (s : State) : Ans :=
  let target := leNat r.bytes
  if s.hif.i2cAddressed && r.pecOk && r.bytes.length == 1 && target ≠ 0 && s.sched.quench.isSome then
    .next { s with pwr := { s.pwr with heldReqs := s.pwr.heldReqs ++ [(0x42, target)] } }
  else .next (s.i2cRun 3 1 r (fun _ s =>
    if target = 0 then ([0, 0], s.wake 2)
    else
      let (code, s) := s.pwrCheck 0x42 target
      (if code = 0 then [0, 0] else [3, BitVec.ofNat 8 code], s)))

/-! ## Entry (R529 to R531) -/

/-- What S3 entry saves in Hearth SRAM at step 4: map, remap table, scrub position; and WAKE_EN, which R534 needs at the exit. -/
def State.s3Save (s : State) : List (Nat × Word) :=
  (s.regs.filter (fun p => (0x0A0040 ≤ p.1 && p.1 < 0x0A00C0) || (0x0A0140 ≤ p.1 && p.1 < 0x0A0210) || p.1 == Reg.DMC_USABLE
    || p.1 == Reg.GLB_FWRES || p.1 == Reg.HIF_CTRL)).filter (fun p => p.1 ≠ Reg.DMC_SCRUB_PASSES)

/-- The work of an entry step (R529). -/
def State.entryWork (s : State) (e : Entry) (step : Nat) : State :=
  match step with
  | 3 => if e.target = 3 then s.l2Do 2 0 0 else s
  | 4 => if e.target = 3 then { s with pwr := { s.pwr with saved := s.s3Save } } else s
  | 5 => { s with dram := { s.dram with selfRefresh := true } }
  | _ => s

/-- Whether a rail that an entry changes leaves the DRAM pins without supply (R595): a ROLE 3 rail switched off in S3, or VDDQ_DDR, whose
nominal voltage is 500 mV, below 450 mV in S1. -/
def Rail.unpowers (r : Rail) (state : Nat) : Bool :=
  r.role == 3 && (if state = 3 then r.s3off else r.s1mv ≠ 0 && r.s1mv < 450 && Config.railMv r.n ≤ 515)

/-- Whether an entry loses the DRAM contents (R595): pins without supply, in Regulator mode, on a board that does not hold them. -/
def State.pinsFall (s : State) (state : Nat) : Bool :=
  s.param 0x0101 0 == 1 && !Config.dramHeld && s.pwr.rails.any (fun r => r.unpowers state)

/-- The entry completes: the target's STATE, the domains off or retained, a debug session closed (R578); a wake after the commit starts
the exit at once (R531). -/
def State.entryDone (s : State) (e : Entry) : State :=
  let s := ((s.setFld Reg.PWR_STATUS 1 0 e.target).setPhase 0)
  let lost := s.pinsFall e.target
  let s := if lost then s.setFlag Reg.PWR_STATUS 28 else s
  let s := { s with
    uncOn := false, dispOn := false, cluOn := false, timeFrac := 0, dbg := { s.dbg with scope := 0, challenge := none, halted := [] },
    pwr := { s.pwr with entry := none, pinsLost := lost } }
  match e.woke with
  | some (src, t) => (s.setFlag Reg.PWR_STATUS 7).exitBegin src t
  | none => s

/-- ENTRY_STEP_COMPLETE (R529, R530): the next step's work is done and its abort point evaluated; after AP6 the commit changes the first
rail or switch, and the last completion ends the entry. -/
def execEntryStepComplete (s : State) : Ans :=
  match s.pwr.entry with
  | none => .next s
  | some e =>
    if e.committed then (if s.railsBusy .entry || s.railsBusy .undo then .next s else .next (s.entryDone e))
    else if s.railsBusy .undo then .next s
    else
      let step := e.step + 1
      let s := s.entryWork e step
      let e := { e with step := step }
      let s := { s with pwr := { s.pwr with entry := some e } }
      match e.latched.head? with
      | some (src, t) => .next (s.entryAbort step src t)
      | none =>
        if step < 6 then .next s
        else
          let s := if e.target = 3 then s.clearFlag Reg.PWR_STATUS 28 else s
          .next ({ s with pwr := { s.pwr with entry := some { e with committed := true } } }.railsDown e.target)

/-! ## PMBus (R531, R537, R538) -/

/-- Lost main supplies (R545): the Hearth is isolated and record 0x0F05 written. -/
def State.supplyLost (s : State) (domain rail : Nat) : State :=
  { s with uncOn := false, dispOn := false, cluOn := false, pwr := { s.pwr with mainLost := true } }.rec0 0x0F05 0x01 1 domain rail

/-- A power-state change is under way, or the domains are off. -/
def State.pwrChanging (s : State) : Bool := s.pwr.entry.isSome || s.pwr.exit.isSome || 2 ≤ s.fld Reg.PWR_STATUS 1 0

/-- PMBUS_ACK_POLL (R531, R537, R546): an acknowledgement lets the next request, the operating point or the undoing of an entry go on; a
failure during entry abandons it with record 0x0F01 once every changed rail is back. -/
def execPmbusAckPoll (word : BitVec 16) (mv : Nat) (busOk : Bool) (s : State) : Ans :=
  match s.railPoll word.toNat mv busOk with
  | (.wait, s) => .next s
  | (.acked r, s) => match r.why with
    | .sop => .next s.sopUpdate
    | .undo => .next (if s.railsBusy .undo then s else match s.pwr.entry with
      | some _ => s.entryAbort 6 6 s.time
      | none => s)
    | _ => .next s
  | (.failed r, s) => match r.why, s.pwr.entry with
    | .entry, some e =>
      let s := { s with pwr := { s.pwr with reqs := [] } }.rec0 0x0F01 0x01 1 r.rail e.target
      let s := s.railsUp .undo
      .next (if s.railsBusy .undo then s else s.entryAbort 6 6 s.time)
    | .undo, some _ => .next (if s.railsBusy .undo then s else s.entryAbort 6 6 s.time)
    | .exit, _ => .next { s with pwr := { s.pwr with reqs := r :: s.pwr.reqs } }
    | _, _ => .next s.railSend

/-- Whether a rail's STATUS_WORD reports a fault (R538): any bit, but OFF and POWER_GOOD# of a rail the Bellows has switched off. -/
def Rail.faulty (r : Rail) (v : Nat) : Bool := if r.mv = 0 then v &&& 0xF7BF ≠ 0 else v ≠ 0

/-- PMBUS_ALERT (R538, R545): each rail that reports a fault is recorded and cleared; one of ROLE 1 to 3 left off outside a power-state
change is a lost supply. -/
def execPmbusAlert (words : List (Fin 8 × BitVec 16)) (s : State) : Ans :=
  .next (s.pwr.rails.foldl (fun s r => match words.find? (fun w => w.1.val == r.n) with
    | none => s
    | some w =>
      let v := w.2.toNat
      if !r.faulty v then s
      else
        let s := (s.rec0 0x0F06 0x01 1 r.n v).emit (.pmbusClear r.n)
        if bit v 6 && 1 ≤ r.role && r.role ≤ 3 && !s.pwrChanging && s.uncOn then s.supplyLost (if r.role = 1 then 2 else 1) r.n else s) s)

/-! ## Supplies (R544, R545) -/

/-- VBAK as measured: MV and VBAK_OK. -/
def State.vbakIs (s : State) (mv : Nat) : State :=
  let s := s.setFld Reg.PWR_VBAK 15 0 mv
  s.setFld Reg.PWR_STATUS 19 19 (if s.fld Reg.PWR_VBAK 31 16 ≤ mv then 1 else 0)

/-- SUPPLY_HANDOVER (R544, R545): VSTBY has been low for 2 µs; without enough VBAK the Hearth stops and a power-on reset follows. -/
def execSupplyHandover (mv : BitVec 16) (s : State) : Ans :=
  if s.flag Reg.PWR_STATUS 18 then .next s
  else
    let s := s.vbakIs mv.toNat
    if mv.toNat < s.fld Reg.PWR_VBAK 31 16 then .next s.powerOn
    else
      let s := s.setFlag Reg.PWR_STATUS 18
      let s := if s.fld Reg.PWR_STATUS 1 0 = 3 then s.setFlag Reg.PWR_STATUS 28 else s
      .next ((s.countSat Reg.PWR_SUPPLY 15 0 1).rec0 0x0F03 0x00 1 mv.toNat 0)

/-- SUPPLY_RETURN (R544): VSTBY valid without a break for 10 ms. -/
def execSupplyReturn (mv : BitVec 16) (s : State) : Ans :=
  if !s.flag Reg.PWR_STATUS 18 then .next s
  else
    let s := s.clearFlag Reg.PWR_STATUS 18
    .next ((s.countSat Reg.PWR_SUPPLY 31 16 1).rec0 0x0F04 0x00 0 mv.toNat 0)

/-- VBAK_LOW (R545): below VBAK_MV; while it feeds VAON, the Hearth stops and a power-on reset follows. -/
def execVbakLow (mv : BitVec 16) (s : State) : Ans :=
  if s.fld Reg.PWR_VBAK 31 16 ≤ mv.toNat then .next s
  else .next (if s.flag Reg.PWR_STATUS 18 then s.powerOn else s.vbakIs mv.toNat)

/-- MAIN_SUPPLY_LOSS (R545): the UNC (0) or CLU (1) supply below its minimum outside a power-state change. -/
def execMainSupplyLoss (domain : Fin 2) (rail : BitVec 32) (s : State) : Ans :=
  if !s.uncOn || s.pwrChanging then .next s else .next (s.supplyLost (domain.val + 1) rail.toNat)

/-! ## Audio and the spotter (R540, R541) -/

/-- AUDIO_FRAME_SAMPLED (R540, R543): a frame enters the ring, and a running copy passes it on. -/
def execAudioFrameSampled (in0 in1 : BitVec 16) (s : State) : Ans :=
  if !s.kwsOn then .next s
  else
    let w : Word := in1 ++ in0
    .next { s with pwr := { s.pwr with
      audio := Sparse.set s.pwr.audio 0 (s.pwr.frames % 40000) w, frames := s.pwr.frames + 1 } }.audioPump

/-- KWS_EVALUATION (R541, R542, R553): EN takes effect; the third score in a row at THRESH is a detection, a wake, and is raised when that is possible; `phrase` is
the network's estimate of its length. -/
def execKwsEvaluation (score : BitVec 8) (phrase : Nat) (s : State) : Ans :=
  let s := { s with pwr := { s.pwr with kwsEn := s.flag Reg.PWR_KWS_CTRL 0 } }
  if !s.kwsOn || s.time < s.pwr.kwsQuiet then .next s
  else if score.toNat < s.fld Reg.PWR_KWS_CTRL 15 8 then .next { s with pwr := { s.pwr with kwsRun := 0 } }
  else if s.pwr.kwsRun < 2 then .next { s with pwr := { s.pwr with kwsRun := s.pwr.kwsRun + 1 } }
  else
    let len := max (us 200000) (min (us 1500000) phrase)
    let d : Detection := ⟨score.toNat, s.time - len, s.time⟩
    let s := { s with pwr := { s.pwr with
      kwsRun := 0, kwsQuiet := s.time + us 1000000, kwsHeld := s.pwr.kwsHeld ++ [d] } }
    .next (s.wake 3).kwsPump

/-! ## Power limit (R547, R548) -/

/-- Whether the mean of a list exceeds a bound. -/
def meanOver (b : Nat) (l : List Nat) : Bool := decide (b * l.length < l.sum)

/-- Whether the mean of a list lies below a bound. -/
def meanUnder (b : Nat) (l : List Nat) : Bool := decide (l.sum < b * l.length)

/-- Lower the power cap a step, at SOP0 the duty; at 25 % over a whole window LIMIT_MISS and record 0x0F07 once (R547, R548). -/
def State.powerLower (s : State) (m : Nat) : State :=
  let s := { s with pwr := { s.pwr with belowSince := none } }
  if s.time < s.pwr.powerStep + us 1000 then s
  else
    let step (s : State) : State := { s with pwr := { s.pwr with powerStep := s.time } }
    if s.fld Reg.PWR_STATUS 21 20 ≠ 0 ∧ s.pwr.powerCap ≠ 0 then
      (step { s with pwr := { s.pwr with powerCap := s.pwr.powerCap - 1 } }).sopUpdate
    else if s.fld Reg.PWR_STATUS 26 24 < 6 then step (s.setFld Reg.PWR_STATUS 26 24 (s.fld Reg.PWR_STATUS 26 24 + 1))
    else if s.time < s.pwr.powerStep + us (1000 * s.fld Reg.PWR_LIMIT 15 8) || s.pwr.missed then s
    else ({ s with pwr := { s.pwr with missed := true } }.setFlag Reg.PWR_STATUS 17).rec0 0x0F07 0x04 1 (s.fld Reg.PWR_LIMIT 5 0) m

/-- Restore the duty first, then the cap, once the mean has stayed low for WINDOW ms (R547). -/
def State.powerRestore (s : State) : State :=
  match s.pwr.belowSince with
  | none => { s with pwr := { s.pwr with belowSince := some s.time } }
  | some t =>
    if s.time < t + us (1000 * s.fld Reg.PWR_LIMIT 15 8) || s.time < s.pwr.powerStep + us 1000 then s
    else
      let step (s : State) : State := { s with pwr := { s.pwr with powerStep := s.time } }
      if s.fld Reg.PWR_STATUS 26 24 ≠ 0 then step (s.setFld Reg.PWR_STATUS 26 24 (s.fld Reg.PWR_STATUS 26 24 - 1))
      else if s.pwr.powerCap < 3 then (step { s with pwr := { s.pwr with powerCap := s.pwr.powerCap + 1 } }).sopUpdate
      else s

/-- POWER_ESTIMATE (R547, R548): every 100 µs an estimate in mW, and the board power last measured. -/
def execPowerEstimate (mw board : BitVec 16) (s : State) : Ans :=
  if !s.uncRuns then .next s
  else
    let limit := s.fld Reg.PWR_LIMIT 5 0 * 1000
    let s := s.setFld Reg.PWR_POWER 15 0 board.toNat
    let e := s.pwr.energyRem + board.toNat
    let s := s.count64 Reg.PWR_ENERGY_LO (e / 10)
    let s := { s with pwr := { s.pwr with
      energyRem := e % 10, samples := (mw.toNat :: s.pwr.samples).take (10 * s.fld Reg.PWR_LIMIT 15 8) } }
    let l := s.pwr.samples
    let s := if meanUnder limit l then { s with pwr := { s.pwr with missed := false } } else s
    if meanOver limit l then .next (s.powerLower (l.sum / l.length))
    else if meanUnder (limit - 1000) l then .next s.powerRestore
    else .next { s with pwr := { s.pwr with belowSince := none } }

/-! ## Temperature (R549, R550) -/

/-- The highest reading and its sensor, the first of equals. -/
def hotSensor : Nat → List Int → Int × Nat
  | _, [] => (-128, 0)
  | n, t :: l => let r := hotSensor (n + 1) l; if r.1 ≤ t then (t, n) else r

/-- The thermal cap (R549). -/
def State.thermCaps (s : State) (top : Int) (sensor : Nat) : State :=
  let s := if 97 < top then { s with pwr := { s.pwr with coolSince := none } } else s
  if 100 ≤ top then
    let was := s.flag Reg.PWR_STATUS 27
    let s := s.setFlag Reg.PWR_STATUS 27
    let s := if was then s else s.rec0 0x0F08 0x04 0 sensor top.toNat
    if 103 ≤ top then { s with pwr := { s.pwr with thermCap := 0, thermStep := s.time } }.sopUpdate
    else if s.time < s.pwr.thermStep + us 1000 then s
    else { s with pwr := { s.pwr with thermCap := s.pwr.thermCap - 1, thermStep := s.time } }.sopUpdate
  else if top ≤ 97 then
    match s.pwr.coolSince with
    | none => { s with pwr := { s.pwr with coolSince := some s.time } }
    | some t =>
      if s.time < t + us 10000 then s
      else
        let s := { s with pwr := { s.pwr with thermCap := min 3 (s.pwr.thermCap + 1), coolSince := some s.time } }.sopUpdate
        if s.pwr.thermCap = 3 then s.clearFlag Reg.PWR_STATUS 27 else s
  else s

/-- A thermal trip (R550): the UNC, DISP and CLU supplies are removed, whatever entry runs is over, then record 0x0F09. -/
def State.thermTrip (s : State) (top : Int) (sensor : Nat) : State :=
  { s.setPhase 0 with
    uncOn := false, dispOn := false, cluOn := false,
    pwr := { s.pwr with tripped := true, tripCool := none, entry := none, pend := none, reqs := [] } }.rec0 0x0F09 0x01 3 sensor top.toNat

/-- THERMAL_SAMPLE (R549, R550): eight readings in °C; with the domains off no cap moves; after a trip the supplies return, with a warm start, once every reading has been 90
or less for 1 s. -/
def execThermalSample (readings : List (BitVec 8)) (s : State) : Ans :=
  let (top, sensor) := hotSensor 0 (readings.map BitVec.toInt)
  let s := (s.setFld Reg.PWR_POWER 23 16 (wrapInt 8 top)).setFld Reg.PWR_POWER 26 24 sensor
  if s.pwr.tripped then
    if 90 < top then .next { s with pwr := { s.pwr with tripCool := none } }
    else match s.pwr.tripCool with
      | none => .next { s with pwr := { s.pwr with tripCool := some s.time } }
      | some t =>
        if s.time < t + us 1000000 then .next s
        else .next { s with uncOn := true, pwr := { s.pwr with tripped := false, tripCool := none } }.warmReset
  else if !s.uncOn then .next s
  else if 110 ≤ top then .next (s.thermTrip top sensor)
  else .next (s.thermCaps top sensor)

/-! ## Timekeeping (R25) -/

/-- HEARTH_TIMEKEEPING_TICK (R25): one period of 32.768 kHz is 3,051 ticks and 24,832/32,768. -/
def execHearthTimekeepingTick (s : State) : Ans :=
  if !s.hearthKeeps then .next s
  else
    let f := s.timeFrac + 24832
    .next { s with time := (s.time + 3051 + f / 32768) % 2 ^ 64, timeFrac := f % 32768 }

/-! ## Exit failure (R532) -/

/-- EXIT_TIMEOUT (R532): no ready signal within 50 ms of the wake. -/
def execExitTimeout (rail : BitVec 8) (s : State) : Ans :=
  match s.pwr.exit with
  | none => .next s
  | some x =>
    if s.time < x.since + us 50000 then .next s
    else
      let s := { s with pwr := { s.pwr with exit := none, reqs := s.pwr.reqs.filter (fun r => r.why ≠ RailWhy.exit) } }
      .next (((s.setPhase 0).startStops 3 4).rec0 0x0F02 0x01 3 (x.step + 1) rail.toNat)

end Sys2Proof.Machine
end

