-- ==== Sys2Proof/WellFormed.lean ====
section
/-! DEFINITION. Well-formed commands: the operands that the outside or a source unit can give. The meanings do not assume
it; they answer for every operand. -/

namespace Sys2Proof

/-- A packet carries the body words that NBODY of its header counts (R341). -/
def Pkt.wf (p : Pkt) : Bool := p.body.length == p.hdr.toNat / 2 ^ 8 % 2 ^ 10

/-- The short form of an instruction has no upper 64 bits (R53, R54). -/
def Insn.wf (i : Insn) : Bool := i.long || (i.imm == 0 && i.srcd == 0 && i.ext == 0 && i.rsvHi == 0)

/-- The rows of a received frame have one length (R235). -/
def RxFrame.wf (f : RxFrame) : Bool := f.px.all (fun r => r.length == (f.px.headD []).length)

/-- The unit IDs of R40. -/
def unitListed (u : Nat) : Bool :=
  u ≤ 0x05 || (0x10 ≤ u && u ≤ 0x1B) || (0x20 ≤ u && u ≤ 0x24) || (0x30 ≤ u && u ≤ 0x34) || (0x40 ≤ u && u ≤ 0x42)

/-- The fields of a Ladle entry hold its values (R164). -/
def LadleEntry.wf (e : LadleEntry) : Bool :=
  decide (e.q < 64) && decide (e.seq < 2 ^ 32) && decide (e.status < 256) && decide (e.unit < 256) && decide (e.src < 12)

/-- The fields of an error record hold its values (R40, R555). -/
def ErrRecord.wf (r : ErrRecord) : Bool :=
  decide (r.code < 2 ^ 16) && unitListed r.unit && decide (r.sev < 4) && decide (r.addrLo < 2 ^ 32) && decide (r.addrHi < 2 ^ 32)

/-- A read of the host link returns data, if it does (R435). -/
def ReadResult.wf : ReadResult → Bool
  | .data bs => !bs.isEmpty
  | .unsupported | .abort | .poisoned => true

/-- Whether a command's operands are ones the outside or a source unit can give. -/
def Instr.wf : Instr → Bool
  | .registerWrite _ _ _ | .rcFieldRead _ _ | .lowWordShadowRead _ _ | .bar0BadSizeAccess _ _ _ | .timeBaseTick
  | .fetchDeadline | .scanoutLine _ | .tapPublish _ | .dspCommit | .dspCoefWrite _ _ _ _ | .ffStart | .ffStop
  | .ffUpdate | .ffClearStats | .sourcePost _ | .sourceHoldTimeout | .sourceTimeout | .gateTimeout | .ldmEnable _
  | .ldmDisable _ | .statsPublish _ | .dutyTagPoll | .dutyHeld | .diagTransfer _ | .statusRead _
  | .statusReadComplete _ _ | .ldFault _ | .dptEnable _ _ | .dptDisable _ | .dptRetrain _ | .hdcpAuthenticate _
  | .hdcpRetry _ | .dptIrqHpd _ | .dptHpdLowTimeout | .dptHpdReturn _ | .dprEnable _ | .dprDisable _
  | .dprAuxTransaction _ | .doorbell _ _ | .dispatchStart _ | .eventWaitTimeout _ | .waitMemPoll _
  | .waitMemTimeout _ | .stepBoundary _ | .unitRetire _ | .ctxEnable _ | .ctxDisable _ | .ctxKill _ | .qEnable _
  | .qDisable _ | .evtRegSignal _ | .evtRegReset _ | .barrierDeadlock _ _ | .yieldExpire _ _ | .loadResponse _ _ _ _
  | .storeAck _ _ _ | .tongsNop _ _ _ | .tongsSeta _ _ _ | .tongsAdda _ _ _ | .tongsAddr _ _ _ | .tongsLoop _ _ _
  | .tongsEndl _ _ _ | .tongsFill _ _ _ | .tongsDrain _ _ _ | .tongsGload _ _ _ | .tongsGstore _ _ _
  | .tongsFence _ _ _ | .tongsEnd _ _ _ | .tongsCopyComplete _ _ _ | .grdRegionWrite _ _ | .grdRegionApply _
  | .ladleDrain | .l2FlushAll _ | .l2FlushInvalAll _ | .l2FlushRange _ | .l2FlushInvalRange _ | .l2InvalRange _
  | .l2ZeroRange _ | .l2MaintComplete | .l2cWaymaskWrite _ _ | .cpyCopy _ | .cpyFill _ | .copyComplete _
  | .copySuspend _ | .tileStore _ _ _ | .passComplete | .blockPlace _ | .preemptAnswer _ | .slicePreempt _
  | .modeSwitchToGraphics | .modeSwitchComplete _ | .gfxIdleReturn _ | .reserveWindowStart | .runLimitExpired _
  | .hangDetected _ | .quenchComplete | .errQuench _ | .layoutEnable _ _ | .layoutDisable _ _ | .apertureEnable _
  | .mmuInvalRequest _ | .withdrawalComplete _ | .hostReadTimeout _ | .msixHoldoffExpire _ | .msixUnmask _
  | .mailboxWrite _ _ _ | .mailboxRead _ _ | .linkDown | .linkRecovery | .perstAssert | .linkL2Entry
  | .i2cAddressMatch _ | .i2cSclTimeout | .rmpAdd _ | .rmpRemove _ | .mapCommit _ | .scrubVisit _ | .mr4Poll _ _ _
  | .zqCalibration | .dramPowerDown _ | .powerOnReset _ _ | .railsReady _ | .railsTimeout | .trainingComplete _ _
  | .dramSelftestComplete _ | .onchipTestComplete _ | .warmReset | .glbRst _ | .sysrst | .flashRead _
  | .flashProgram _ | .flashErase4k _ | .flashErase64k _ | .flashOpComplete _ | .a1Entry | .powerRequest _
  | .powerRequestCancel _ | .powerLinkTimeout | .entryStepComplete | .wakeEvent _ | .perstDeassert | .alarmExpire
  | .exitStepReady _ | .exitTimeout _ | .pmbusAckPoll _ _ _ | .pmbusAlert _ | .supplyHandover _ | .supplyReturn _
  | .vbakLow _ | .mainSupplyLoss _ _ | .kwsEvaluation _ _ | .powerEstimate _ _ | .thermalSample _ | .errRptrWrite _
  | .fatalResetTimer | .debugChallenge _ _ | .debugOpen _ | .debugClose _ | .challengeExpire | .otpProgram _
  | .otpRead _ | .extest _ | .idcode | .samplePreload _ _ | .dbgreg _ _ _ | .coreDbg _ _ | .bypass
  | .linkTraining _ _ _ | .dprLinkTraining _ _ _ | .dprLinkLoss _ | .dprHdcpAuthentication _ | .porNLow
  | .mainSupplyReturn | .bootPartLoaded | .dataSectionsLoaded _ | .drainSliceExpired _ | .hearthTimekeepingTick
  | .audioFrameSampled _ _ => true
  | .dpCaptureFrame f => f.wf
  | .nop p | .dispatch p | .copy p | .copyFill p | .eventSignal p | .eventSignalReset p | .eventWait p | .cond p
  | .loop p | .loopEnd p | .waitMem p | .writeMem p | .indirect p | .l2Maint p | .objSync p | .slotDefine p
  | .slotRelease p | .seqSubmit p | .seqCancel p | .tokenStep p | .gfxPassBegin p | .gfxState p | .gfxDraw p
  | .gfxDrawIndirect p | .gfxPassEnd p | .gfxTrackClaim p | .gfxTrackInvalidate p | .gfxTrackRelease p
  | .gfxSignSurface p | .gfxResolveFlags p | .tlbInvalRange p | .tlbInvalContext p | .prefetchRange p
  | .adviseLocation p | .adviseSetReadMostly p | .adviseClearReadMostly p | .adviseAccessedBy p | .adviseRemove p => p.wf
  | .faluAdd x | .faluSub x | .faluMul x | .faluFma x | .faluMin x | .faluMax x | .faluMov x | .faluAbs x
  | .faluNeg x | .ialuAdd x | .ialuSub x | .ialuMul x | .ialuMulh x | .ialuMad x | .ialuAnd x | .ialuOr x
  | .ialuXor x | .ialuNot x | .ialuShl x | .ialuShr x | .ialuOnes x | .ialuLzc x | .ialuXbit x | .cmpf x | .sel x
  | .flog x | .cvt x | .rcp x | .rsq x | .sqrt x | .ex2 x | .lg2 x | .sin x | .cos x | .perm x | .tally x | .fold x
  | .mma x | .mmaX x | .mmaP x | .ocvt x | .unpk x | .gmemLoad x | .gmemStore x | .smemLoad x | .smemStore x
  | .atomAdd x | .atomMin x | .atomMax x | .atomAnd x | .atomOr x | .atomXor x | .atomExch x | .atomCas x | .waitb x
  | .markb x | .fence x | .bra x | .split x | .join x | .call x | .ret x | .exit x | .trap x | .yield x | .jvec x
  | .movs x | .pcvH2d x | .pcvD2h x | .gst x | .cwait x | .crel x | .cpost x | .cqry x
  | .gld x _ => x.i.wf
  | .walkReadResponse _ r | .hostReadCompletion _ r | .errorRecord r => r.wf
  | .ladlePost e => e.wf
  | .bar2Read off n => decide (1 ≤ n) && decide (n ≤ 4096) && decide (off.toNat + n ≤ 2 ^ 36)
  | .bar2Write off bs => !bs.isEmpty && decide (bs.length ≤ 4096) && decide (off.toNat + bs.length ≤ 2 ^ 36)
  | .ident r | .status r | .powerReq r | .msgPut r | .msgGet r | .regRead r => decide (r.bytes.length ≤ 255)

end Sys2Proof
end

