-- ==== Sys2Proof/Machine/Debug.lean ====
section
/-! DEFINITION. The flash path (R519, R520), the ring's consumer (R559), records of other units, debug sessions, one-time storage and
the JTAG port (R573 to R578). -/

namespace Sys2Proof.Machine

/-! ## The flash path (R519, R520, R524) -/

/-- Whether the flash path is open: once GLB_BOOT.CONFIG is 1, or at once in recovery and failure (R516, R519). -/
def State.flashOpen (s : State) : Bool := s.flag Reg.GLB_BOOT 6 || decide (2 ≤ s.fld Reg.GLB_BOOT 1 0)

/-- Bytes an operation works on, to which its address is aligned. -/
def flashUnit (op : Nat) : Nat :=
  match op with
  | 2 => 4096
  | 3 => 65536
  | _ => 256

/-- Whether an address lies in a slot that WP protects. -/
def State.flashProtected (s : State) (a : Nat) : Bool := s.flag Reg.CFG_FL_LOCK (if a < slotBase 1 then 0 else 1)

/-- The cause that refuses a GO write (R519); 0 for none. A read alters nothing, so WP does not refuse it (DEDUCED, log entry 76). -/
def State.flashCause (s : State) (op a : Nat) : Nat :=
  if s.flag Reg.CFG_FL_STATUS 0 then 4
  else if !s.flashOpen then 6
  else if 3 < op then 5
  else if a % flashUnit op ≠ 0 ∨ flashBytes < a + flashUnit op then 1
  else if op ≠ 0 ∧ s.flashProtected a then 2
  else 0

/-- A failure: ERR and its cause. -/
def State.flashErr (s : State) (cause : Nat) : State := (s.setFlag Reg.CFG_FL_STATUS 2).setFld Reg.CFG_FL_STATUS 11 8 cause

/-- A write to CFG_FL_CMD (R519, R523): OP is replaced; GO is refused with its cause, or BUSY is set and the operation runs. -/
def State.flashCmd (s : State) (v : Word) : State :=
  let op := bits v.toNat 3 1
  let s := s.setReg Reg.CFG_FL_CMD (BitVec.ofNat 32 (op * 2))
  if !bit v.toNat 0 then s
  else
    let a := (s.reg Reg.CFG_FL_ADDR).toNat
    let cause := s.flashCause op a
    if cause ≠ 0 then s.flashErr cause
    else { s.setFlag Reg.CFG_FL_STATUS 0 with boot := { s.boot with flashOp := some (op, a) } }

/-- One row of the flash path: the write carries its OP and GO. -/
def State.flashRow (s : State) (v : Word) (op : Nat) : Ans :=
  if s.uncOn && bit v.toNat 0 && bits v.toNat 3 1 == op then .next (s.flashCmd v) else .next s

/-- FLASH_READ (R519). -/
def execFlashRead (v : Word) (s : State) : Ans := s.flashRow v 0
/-- FLASH_PROGRAM (R519). -/
def execFlashProgram (v : Word) (s : State) : Ans := s.flashRow v 1
/-- FLASH_ERASE_4K (R519). -/
def execFlashErase4k (v : Word) (s : State) : Ans := s.flashRow v 2
/-- FLASH_ERASE_64K (R519). -/
def execFlashErase64k (v : Word) (s : State) : Ans := s.flashRow v 3

/-- Put bytes into the flash from an address on. -/
def State.flashPut (s : State) (a : Nat) (bs : List Byte) : State :=
  { s with boot := { s.boot with flash := Sparse.merge s.boot.flash ((bs.zipIdx).map (fun (b, i) => (a + i, b))) } }

/-- The bytes of CFG_FL_BUF. -/
def State.flashBuf (s : State) : List Byte := (List.range 64).flatMap (fun w => leBytes 4 (s.reg (Reg.CFG_FL_BUF w)).toNat)

/-- The effect of an operation that succeeds: a page read, a page programmed, where a bit changes from 1 to 0 only (PRESUMED, log
entry 77), or a sector or block erased to ones. -/
def State.flashEffect (s : State) (op a : Nat) : State :=
  match op with
  | 0 => s.setRegs (Reg.CFG_FL_BUF 0) ((List.range 64).map (fun w => BitVec.ofNat 32 (s.flashWord (a + 4 * w))))
  | 1 => s.flashPut a ((s.flashBuf.zipIdx).map (fun (b, i) => b &&& s.flashAt (a + i)))
  | _ => s.flashPut a (List.replicate (flashUnit op) 0xFF)

/-- FLASH_OP_COMPLETE (R519, R524): the flash reports ready. A failed program or erase leaves the bytes it worked on free. -/
def execFlashOpComplete (failed : Bool) (s : State) : Ans :=
  match s.boot.flashOp with
  | none => .next s
  | some (op, a) =>
    let s := { s.clearFlag Reg.CFG_FL_STATUS 0 with boot := { s.boot with flashOp := none } }
    if failed ∧ op ≠ 0 then
      let s' := s.flashPut a ((List.range (flashUnit op)).map (fun i => Config.freeByte s.draws (a + i)))
      .next ({ s' with draws := s.draws + 1 }.flashErr 3)
    else .next ((s.flashEffect op a).setFlag Reg.CFG_FL_STATUS 1)

/-! ## Records and the ring (R555 to R560) -/

/-- What follows a record that no other row writes (R38, R170): an L1 line with a parity error is fetched again; an uncorrectable error of
the Griddle or of shared memory faults the context it names. -/
def State.recordFollows (s : State) (r : ErrRecord) : State :=
  if r.code = 0x0203 then
    let line := (r.addrLo + r.addrHi * 2 ^ 32) / 128
    { s with cores := s.cores.map (fun (p : Nat × Core) =>
      if p.1 / 4 + 0x10 = r.unit then (p.1, { p.2 with l1 := p.2.l1.filter (fun l => l.line ≠ line) }) else p) }
  else if (r.code = 0x0202 ∨ r.code = 0x0204) ∧ r.sev = 2 then
    match r.ctx with
    | some c => s.contextFault c.val r.code r.unit none
    | none => s
  else s

/-- ERROR_RECORD (R555 to R563): a unit detects an error that has no row of its own. No unit has a reserved ID, and none is reported
(R40). -/
def execErrorRecord (r : ErrRecord) (s : State) : Ans := .next (if unitListed r.unit then (s.record r).recordFollows r else s)

/-- A write of ERR_RING_RPTR (R559, R560): accepted when it moves forward to at most WPTR, else ignored with RPTR_ERR. -/
def State.rptrWrite (s : State) (v : Word) : State :=
  let old := (s.reg Reg.ERR_RING_RPTR).toNat
  if diff32 v.toNat old ≤ diff32 (s.reg Reg.ERR_RING_WPTR).toNat old then (s.setReg Reg.ERR_RING_RPTR v).reportDrops
  else s.setFlag Reg.ERR_STATUS 3

/-- ERR_RPTR_WRITE (R559). -/
def execErrRptrWrite (v : Word) (s : State) : Ans := if s.uncOn then .next (s.rptrWrite v) else .next s

/-! ## Debug sessions (R576 to R578) -/

/-- Whether a path reaches the DBG block: JTAG's DBGREG once the UNC domain is on, BAR0 once the start has finished (R517). -/
def State.dbgReached (s : State) (p : Path) : Bool := if p = Path.jtag then s.uncOn else s.uncRuns

/-- DEBUG_DIS (R573). -/
def State.debugDis (s : State) : Bool := bit (s.otpWord 7 0) 0

/-- How long a challenge is valid (R576): 10 s. -/
def challengeTicks : Nat := us 10000000

/-- The challenge while it is valid. -/
def State.challenge (s : State) : Option Nat :=
  match s.dbg.challenge with
  | some c => if s.time < s.dbg.chalAt + challengeTicks then some c else none
  | none => none

/-- A write to DBG_REQ (R576, R577): SCOPE is replaced; NEW issues a challenge. -/
def State.dbgRequest (s : State) (v : Word) : State :=
  let scope := bits v.toNat 1 0
  let s := s.setFld Reg.DBG_REQ 1 0 scope
  if !bit v.toNat 31 || scope == 0 || scope == 3 || s.debugDis || s.dbg.lockedOut || s.dbg.scope != 0 then s
  else { s with
    draws := s.draws + 1,
    dbg := { s.dbg with challenge := some (Config.entropy s.draws % 2 ^ 256), chalReq := v.toNat, chalAt := s.time } }

/-- DEBUG_CHALLENGE (R576): a write of DBG_REQ with NEW. -/
def execDebugChallenge (p : Path) (v : Word) (s : State) : Ans :=
  if s.dbgReached p && bit v.toNat 31 then .next (s.dbgRequest v) else .next s

/-- The response in DBG_RESP, byte i in bits [8 (i mod 4) + 7 : 8 (i mod 4)] of word ⌊i / 4⌋. -/
def State.dbgResponse (s : State) : Nat := ((List.range 8).map (fun w => (s.reg (Reg.DBG_RESP w)).toNat * 2 ^ (32 * w))).sum

/-- The port of a debug record: 0 BAR0, 1 JTAG (R579). -/
def dbgPort (p : Path) : Nat := if p = Path.jtag then 1 else 0

/-- A session closes (R578). -/
def State.dbgClose (s : State) : State := { s with dbg := { s.dbg with scope := 0, halted := [] } }

/-- A failed opening (R577). -/
def State.dbgFail (s : State) (p : Path) : State :=
  let n := s.dbg.fails + 1
  let s := { s with dbg := { s.dbg with challenge := none, fails := n, lockedOut := decide (3 ≤ n) } }
  (if 3 ≤ n then s.dbgClose else s).rec0 0x1005 0x04 1 n (dbgPort p)

/-- A successful opening (R576, R577); a CORE-scope session withholds the HDCP keys (R574). -/
def State.dbgOpened (s : State) (p : Path) (scope : Nat) : State :=
  { s with dbg := { s.dbg with
    challenge := none, fails := 0, scope := scope, coreOpened := s.dbg.coreOpened || scope == 1 } }.rec0 0x1006 0x04 1 scope (dbgPort p)

/-- OPEN (R576, R577): ignored with DEBUG_DIS or while locked out. -/
def State.dbgOpen (s : State) (p : Path) : State :=
  if s.debugDis || s.dbg.lockedOut then s
  else match s.challenge with
    | none => s.dbgFail p
    | some c =>
      if Config.debugMac c s.dbg.chalReq % 2 ^ 256 = s.dbgResponse then s.dbgOpened p (s.dbg.chalReq % 4)
      else s.dbgFail p

/-- DEBUG_OPEN (R576). -/
def execDebugOpen (p : Path) (s : State) : Ans := if s.dbgReached p then .next (s.dbgOpen p) else .next s

/-- DEBUG_CLOSE (R578). -/
def execDebugClose (p : Path) (s : State) : Ans := if s.dbgReached p then .next s.dbgClose else .next s

/-- CHALLENGE_EXPIRE (R576): 10 s after it was issued. -/
def execChallengeExpire (s : State) : Ans :=
  .next (if s.challenge.isNone then { s with dbg := { s.dbg with challenge := none } } else s)

/-! ## One-time storage (R573, R581) -/

/-- The bits a word of a field has. -/
def otpMask (f w : Nat) : Nat :=
  if f = 0 ∨ f = 7 then (if w = 0 then 1 else 0)
  else if f = 5 then (if w = 0 then 15 else 0)
  else if f = 6 then (if w < 2 then 2 ^ 32 - 1 else 0)
  else if 1 ≤ f ∧ f ≤ 4 then (if w < 8 then 2 ^ 32 - 1 else 0)
  else 0

/-- Whether programming a field is refused (R573): outside an OTP session, a word no field has, a KEY_HASH that is not all 0. -/
def State.otpRefused (s : State) (f w : Nat) (read : Bool) : Bool :=
  s.dbg.scope != 2 || otpMask f w == 0 || (!read && 1 ≤ f && f ≤ 4 && s.otpField f 8 != 0)

/-- A write to DBG_OTP_CMD (R573, R581): the fields are replaced; GO reads a word or programs the ones of DBG_OTP_DATA. -/
def State.otpCmd (s : State) (v : Word) : State :=
  let n := v.toNat
  let s := s.setReg Reg.DBG_OTP_CMD (v &&& 0x7F02#32)
  if !bit n 0 then s
  else
    let f := bits n 11 8
    let w := bits n 14 12
    let read := bit n 1
    if s.otpRefused f w read then s.setFlag Reg.DBG_STATUS 13
    else
      let s := s.clearFlag Reg.DBG_STATUS 13
      if read then s.setReg Reg.DBG_OTP_DATA (BitVec.ofNat 32 (s.otpWord f w))
      else
        let old := Sparse.get s.dbg.otp 0 (f * 8 + w)
        let new := old ||| (s.reg Reg.DBG_OTP_DATA &&& BitVec.ofNat 32 (otpMask f w))
        { s with dbg := { s.dbg with otp := Sparse.set s.dbg.otp 0 (f * 8 + w) new } }

/-- OTP_PROGRAM (R573). -/
def execOtpProgram (v : Word) (s : State) : Ans :=
  if s.uncRuns && bit v.toNat 0 && !bit v.toNat 1 then .next (s.otpCmd v) else .next s

/-- OTP_READ (R573). -/
def execOtpRead (v : Word) (s : State) : Ans :=
  if s.uncRuns && bit v.toNat 0 && bit v.toNat 1 then .next (s.otpCmd v) else .next s

/-! ## The JTAG port (R575) -/

/-- The instruction register takes an opcode. -/
def State.tap575 (s : State) (op : Nat) : State := { s with dbg := { s.dbg with ir := op } }

/-- EXTEST (R575): the boundary register drives the pins, and their levels are captured. -/
def execExtest (pins : Nat) (s : State) : Ans :=
  let s := (s.tap575 0x00).emit (.jtag s.dbg.boundary)
  .next { s with dbg := { s.dbg with boundary := pins } }

/-- IDCODE (R575). -/
def execIdcode (s : State) : Ans :=
  .next ((s.tap575 0x01).emit (.jtag (2 ^ 28 + 0x0840 * 2 ^ 12 + Config.jedecId % 2 ^ 11 * 2 + 1)))

/-- SAMPLE/PRELOAD (R575): the levels of the pins are shifted out and a boundary value in. -/
def execSamplePreload (pins preload : Nat) (s : State) : Ans :=
  let s := (s.tap575 0x02).emit (.jtag pins)
  .next { s with dbg := { s.dbg with boundary := preload } }

/-- BYPASS (R575), and what any other opcode does: one bit, captured as 0. -/
def State.bypass (s : State) (op : Nat) : State := (s.tap575 op).emit (.jtag 0)

/-- BYPASS (R575). -/
def execBypass (s : State) : Ans := .next (s.bypass 0xFF)

/-- A byte of a core's memory: CC0 to CC3 by number, the Hearth core 4. One that no firmware section has loaded is free. -/
def State.coreByte (s : State) (core a : Nat) : Byte :=
  if core = 4 then Sparse.get s.pwr.hearthMem (Config.freeByte s.draws a) a
  else Sparse.get s.boot.ccMem (Config.freeByte s.draws a) (core * 2 ^ 19 + a % 2 ^ 19)

/-- A core that has executed instructions of its firmware: what its registers hold is free (log entry 100). -/
def State.coreRan (s : State) (core : Nat) : State :=
  { s with dbg := { s.dbg with coreRegs := s.dbg.coreRegs.filter (fun p => p.1 / 2 ^ 16 ≠ core) } }

/-- What CORE_DBG does to a core in an open CORE-scope session (R575); registers and memory are reached while it is halted. -/
def State.coreDbg (s : State) (core : Nat) (op : CoreDbgOp) : State :=
  let halted := s.dbg.halted.contains core
  match op with
  | .halt => { s with dbg := { s.dbg with halted := if halted then s.dbg.halted else core :: s.dbg.halted } }.emit (.jtag 0)
  | .release => ({ s with dbg := { s.dbg with halted := s.dbg.halted.filter (fun x => x ≠ core) } }.coreRan core).emit (.jtag 0)
  | .step => (if halted then s.coreRan core else s).emit (.jtag 0)
  | .readReg n =>
    if !halted then s.emit (.jtag 0)
    else
      let v := Sparse.get s.dbg.coreRegs (BitVec.ofNat 32 (Config.freeLane s.draws (core * 2 ^ 16 + n))) (core * 2 ^ 16 + n)
      { s with draws := s.draws + 1 }.emit (.jtag v.toNat)
  | .writeReg n v =>
    if !halted then s.emit (.jtag 0)
    else { s with dbg := { s.dbg with coreRegs := Sparse.put s.dbg.coreRegs (core * 2 ^ 16 + n) v } }.emit (.jtag 0)
  | .readMem a =>
    if !halted then s.emit (.jtag 0) else { s with draws := s.draws + 1 }.emit (.jtag (s.coreByte core a.toNat).toNat)
  | .writeMem a b =>
    if !halted then s.emit (.jtag 0)
    else if core = 4 then { s with pwr := { s.pwr with hearthMem := Sparse.put s.pwr.hearthMem a.toNat b } }.emit (.jtag 0)
    else { s with boot := { s.boot with ccMem := Sparse.put s.boot.ccMem (core * 2 ^ 19 + a.toNat % 2 ^ 19) b } }.emit (.jtag 0)

/-- CORE_DBG (R575): BYPASS without an open CORE-scope session. -/
def execCoreDbg (core : Fin 5) (op : CoreDbgOp) (s : State) : Ans :=
  if s.dbg.scope = 1 then .next ((s.tap575 0x11).coreDbg core.val op) else .next (s.bypass 0x11)

end Sys2Proof.Machine
end

