-- ==== Sys2Proof/Machine/Dimming.lean ====
section
/-! DEFINITION. The local dimming controller (chapter 8): the check and capture at enable, statistics, the dimming map, duty,
diagnostic and status transfers, the fault input. -/

namespace Sys2Proof.Machine

/-! ## Settings -/

/-- The registers an enable captures (R316). -/
def ldmCaptured : List Nat :=
  [Reg.LDM_CTRL, Reg.LDM_GRID, Reg.LDM_SYNC, Reg.LDM_SPI, Reg.LDM_CMD, Reg.LDM_STATCMD, Reg.LDM_DIAG, Reg.LDM_DIAG1,
   Reg.LDM_PWM, Reg.LDM_STATS_LO, Reg.LDM_STATS_HI, Reg.LDM_DUTY_LO, Reg.LDM_DUTY_HI]

/-- A field of the captured settings. -/
def LdmState.get (l : LdmState) (a hi lo : Nat) : Nat := bits (Sparse.get l.cap 0 a).toNat hi lo

/-- A field of the captured settings. -/
def State.ldmc (s : State) (a hi lo : Nat) : Nat := s.ldm.get a hi lo

/-- Enabled ports, ascending. -/
def ldmPorts (portEn : Nat) : List Nat := setBitsOf 4 portEn

/-- The zones of band `i` of `np` in sending order (R305). -/
def bandZones (zx zy : Nat) (split serp : Bool) (np i : Nat) : List Nat :=
  let r0 := if split then 0 else i * zy / np
  let r1 := if split then zy else (i + 1) * zy / np
  let c0 := if split then i * zx / np else 0
  let c1 := if split then (i + 1) * zx / np else zx
  (List.range (r1 - r0)).flatMap (fun j =>
    let row := (List.range (c1 - c0)).map (fun k => (r0 + j) * zx + c0 + k)
    if serp && j % 2 == 1 then row.reverse else row)

/-- Words of a duty transfer of `n` zones (R306). -/
def dutyWords (n : Nat) (w16 hdr crc : Bool) : Nat :=
  (if hdr then 2 else 0) + (if w16 then n else ceilDiv (12 * n) 16) + (if crc then 1 else 0)

/-- The check of R316 over register words and a display configuration: the first failing code, or 0. -/
def ldmCheck (g : Nat → Nat) (m : DspCfg) (usable : Nat) : Nat :=
  let zx := bits (g Reg.LDM_GRID) 6 0
  let zy := bits (g Reg.LDM_GRID) 22 16
  let split := bit (g Reg.LDM_GRID) 24
  let ports := ldmPorts (bits (g Reg.LDM_CTRL) 4 1)
  let np := ports.length
  let bands := (List.range np).map (fun i => (bandZones zx zy split false np i).length)
  let div := bits (g Reg.LDM_SPI) 7 0
  let syncLine := bits (g Reg.LDM_SYNC) 12 0
  let syncW := bits (g Reg.LDM_SYNC) 20 16
  let t := bands.foldl (fun b n =>
    max b (16 * dutyWords n (bit (g Reg.LDM_SPI) 10) (bit (g Reg.LDM_SPI) 11) (bit (g Reg.LDM_SPI) 12) * div)) 0
  let p := if bits (g Reg.LDM_CTRL) 6 5 = 0 then us 450 else 0
  let diagN := bits (g Reg.LDM_DIAG) 7 0
  let diagW := bits (g Reg.LDM_DIAG) 15 8
  let diagLine := bits (g Reg.LDM_DIAG1) 12 0
  let stats := g Reg.LDM_STATS_LO + bits (g Reg.LDM_STATS_HI) 7 0 * 2 ^ 32
  let duty := g Reg.LDM_DUTY_LO + bits (g Reg.LDM_DUTY_HI) 7 0 * 2 ^ 32
  let lines (n ticks : Nat) : Bool := n * m.hTotal * 100000 < ticks * m.pclk
  if !m.outEn then 0x80
  else if zx = 0 ∨ 96 < zx ∨ zy = 0 ∨ 54 < zy then 0x81
  else if np = 0 ∨ bands.any (fun n => decide (2048 < n)) ∨ bits (g Reg.LDM_CTRL) 6 5 = 3 then 0x82
  else if div < 2 then 0x83
  else if m.vTotal ≤ syncLine ∨ syncW = 0 then 0x84
  else if lines (m.vTotal - m.vActive + syncLine) (p + us 61 + t) then 0x85
  else if diagN ≠ 0 ∧ (diagW = 0 ∨ 64 < diagW ∨ bits (g Reg.LDM_PWM) 15 0 = 0 ∨ diagLine < m.vActive ∨ m.vTotal ≤ diagLine
      ∨ lines (m.vTotal - diagLine) (us (syncW + diagW + 2))) then 0x86
  else if stats % 65536 ≠ 0 ∨ duty % 16384 ≠ 0 ∨ usable < stats + 131072 ∨ usable < duty + 32768 then 0x87
  else 0

/-- Zones of the captured grid. -/
def State.ldmZones (s : State) : Nat := s.ldmc Reg.LDM_GRID 6 0 * s.ldmc Reg.LDM_GRID 22 16

/-- The enabled ports of the captured settings. -/
def State.ldmPortList (s : State) : List Nat := ldmPorts (s.ldmc Reg.LDM_CTRL 4 1)

/-- The zones an enabled port sends, in order. -/
def State.ldmBand (s : State) (port : Nat) : List Nat :=
  let ports := s.ldmPortList
  bandZones (s.ldmc Reg.LDM_GRID 6 0) (s.ldmc Reg.LDM_GRID 22 16) (s.ldmc Reg.LDM_GRID 24 24 == 1)
    (s.ldmc Reg.LDM_GRID 25 25 == 1) ports.length (ports.idxOf port)

/-- A bit of one of the zone bitmaps. -/
def State.zoneBit (s : State) (reg : Nat → Nat) (z : Nat) : Bool := s.flag (reg (z / 32)) (z % 32)

/-- Write a bit of one of the zone bitmaps. -/
def State.setZoneBit (s : State) (reg : Nat → Nat) (z : Nat) (b : Bool) : State :=
  s.setFld (reg (z / 32)) (z % 32) (z % 32) (if b then 1 else 0)

/-! ## Enable and disable (R316, R317) -/

/-- A bitmap word whose first `n` zones are 1. -/
def zoneFill (n w : Nat) : Word := BitVec.ofNat 32 (2 ^ min 32 (n - 32 * w) - 1)

/-- The settings an enable captures (R316). -/
def State.ldmCapture (s : State) : List (Nat × Word) := ldmCaptured.foldl (fun m a => Sparse.put m a (s.reg a)) []

/-- The zone bitmaps at an enable of a grid of `n` zones (R313). -/
def State.ldmBitmaps (s : State) (n : Nat) : State :=
  (List.range 162).foldl (fun s i =>
    let keep := zoneFill n i
    ((s.setReg (Reg.LDM_UNDIAG i) keep).setReg (Reg.LDM_OPEN i) (s.reg (Reg.LDM_OPEN i) &&& keep)).setReg
      (Reg.LDM_SHORT i) (s.reg (Reg.LDM_SHORT i) &&& keep)) s

/-- LDM_ENABLE (R316): a write of LDM_CTRL with EN 1 while EN is 0. The controller starts, or starts anew, at the next fetch
deadline. -/
def execLdmEnable (v : Word) (s : State) : Ans :=
  if !s.dispRuns then .next s
  else
    let w := BitVec.ofNat 32 (v.toNat % 512)
    if s.flag Reg.LDM_CTRL 0 then .next (s.setReg Reg.LDM_CTRL w)
    else
      let s := (s.setReg Reg.LDM_CTRL w).clearFlag Reg.LDM_CTRL 0
      let code := ldmCheck (fun a => if a = Reg.LDM_CTRL then w.toNat else (s.reg a).toNat) s.dspActive s.usable
      let s := s.setFld Reg.LDM_STATUS 15 8 code
      if code ≠ 0 then .next s
      else
        let s := s.setFlag Reg.LDM_CTRL 0
        let s := { s with ldm := { s.ldm with startNext := some s.ldmCapture } }
        .next (s.ldmBitmaps (s.fld Reg.LDM_GRID 6 0 * s.fld Reg.LDM_GRID 22 16))

/-- LDM_DISABLE (R317): a write of LDM_CTRL with EN 0 while EN is 1; it acts at the next fetch deadline. -/
def execLdmDisable (v : Word) (s : State) : Ans :=
  if !s.dispRuns then .next s
  else
    let was := s.flag Reg.LDM_CTRL 0
    let s := s.setReg Reg.LDM_CTRL (BitVec.ofNat 32 (v.toNat % 512 / 2 * 2))
    if was then .next { s with ldm := { s.ldm with stopNext := true, startNext := none } } else .next s

/-- No transfer begins any more. -/
def State.ldmQuiet (s : State) : State :=
  { s with ldm := { s.ldm with
    gathering := none, acc := [], awaiting := none, diagDue := [], readDue := [], readNext := [], diagFrame := false,
    diagPrev := false } }

/-- The controller stops. The drivers keep their duties. -/
def State.ldmStop (s : State) : State :=
  let s := (((s.clearFlag Reg.LDM_STATUS 0).clearFlag Reg.LDM_STATUS 6)).ldmQuiet
  { s with ldm := { s.ldm with stopNext := false, stopWait := false, readNow := [] } }

/-- A stop at a fetch deadline: at once, or after the status reads that run (R317). -/
def State.ldmStopAt (s : State) : State :=
  if s.ldm.readNow.isEmpty then s.ldmStop
  else
    let s := s.ldmQuiet
    { s with ldm := { s.ldm with stopNext := false, stopWait := true } }

/-- The start of an enabled controller, once an earlier run has ended: no previous map, nothing due. -/
def State.ldmStart (s : State) : State :=
  match s.ldm.startNext with
  | none => s
  | some m =>
    if s.ldm.stopWait then s
    else
      let s := (s.ldmStop).setFlag Reg.LDM_STATUS 0
      { s with ldm := { s.ldm with
        cap := m, startNext := none, thr := s.fld Reg.LDM_MAP1 25 16, prev := [], broken := [], tagStored := false } }

/-- The controller's part of a fetch deadline (R316 to R318): stop, start, recheck at a timing change, a new frame. -/
def State.ldmDeadline (s : State) (changed : Bool) : State :=
  let s := if s.ldm.stopNext then s.ldmStopAt else s
  let s := s.ldmStart
  let f := (s.reg Reg.DSP_FRAME).toNat
  let s :=
    if changed && s.flag Reg.LDM_CTRL 0 then
      let code := ldmCheck (fun a => (Sparse.get (s.ldm.startNext.getD s.ldm.cap) 0 a).toNat) s.dspActive s.usable
      let s := s.setFld Reg.LDM_STATUS 15 8 code
      if code = 0 then s
      else
        let s := (((s.clearFlag Reg.LDM_CTRL 0).setFlag Reg.LDM_STATUS 5).rec0 0x0803 0x32 1 code f).ldmStop
        { s with ldm := { s.ldm with startNext := none } }
    else s
  if s.flag Reg.LDM_STATUS 0 && !s.ldm.stopWait then
    let n := s.ldmc Reg.LDM_DIAG 7 0
    { s with ldm := { s.ldm with
      gathering := some f, acc := [], lastIn := false, diagPrev := s.ldm.diagFrame, diagFrame := n ≠ 0 && f % n == 0 } }
  else s

/-! ## Statistics (R300 to R302) -/

/-- The index of the part `[⌊i × n / k⌋, ⌊(i + 1) × n / k⌋)` that holds position `x`. -/
def partOf (n k x : Nat) : Nat :=
  ((List.range k).find? (fun i => i * n / k ≤ x && x < (i + 1) * n / k)).getD 0

/-- One line of the blended picture enters the statistics (R301). HIGH_THR is the value of the latest publication (R320; DEDUCED, log
64). -/
def State.ldmLine (s : State) (y : Nat) (blended : List Px) : State :=
  match s.ldm.gathering with
  | none => s
  | some _ =>
    let m := s.dspActive
    let zx := s.ldmc Reg.LDM_GRID 6 0
    let zyN := s.ldmc Reg.LDM_GRID 22 16
    let thr := s.ldm.thr
    let row := partOf m.vActive zyN y
    let acc := ((List.range blended.length).zip blended).foldl (fun acc (x, p) =>
      let p := p.clamp01
      let code := (rneInt (max p.c0 (max p.c1 p.c2) * 1023) 32768).toNat
      let z := row * zx + partOf m.hActive zx x
      let a := Sparse.get acc ⟨0, 0, 0, 0⟩ z
      Sparse.put acc z ⟨max a.max code, a.sum + code, a.high + (if thr ≤ code then 1 else 0), a.n + 1⟩) s.ldm.acc
    { s with ldm := { s.ldm with acc := acc, lastIn := decide (y + 1 = m.vActive) } }

/-- One zone's entry: MAX, MEAN in 1/64, HIGH. -/
def ZoneAcc.entry (a : ZoneAcc) : List Byte :=
  leBytes 2 a.max ++ leBytes 2 (if a.n = 0 then 0 else rneDiv (a.sum * 64) a.n) ++ leBytes 4 a.high

/-! ## The dimming map (R304): every operation rounded to F32 -/

/-- Single-precision operations on words of finite values. -/
def f32op (f : Q → Q → Q) (a b : Nat) : Nat := (f (Q.ofF32 a) (Q.ofF32 b)).toF32
def f32mul : Nat → Nat → Nat := f32op Q.mul
def f32div : Nat → Nat → Nat := f32op Q.div
def f32add : Nat → Nat → Nat := f32op Q.add
def f32sub : Nat → Nat → Nat := f32op Q.sub
def f32max : Nat → Nat → Nat := f32op Q.max
def f32min : Nat → Nat → Nat := f32op Q.min
def f32nat (n : Nat) : Nat := toF32 n 1

/-- The neighbours of a zone. -/
def zoneNeighbours (zx zy z : Nat) : List Nat :=
  let x := z % zx
  let y := z / zx
  (List.range 9).filterMap (fun i =>
    let dx := i % 3
    let dy := i / 3
    if i = 4 ∨ x + dx < 1 ∨ y + dy < 1 ∨ zx < x + dx ∨ zy < y + dy then none
    else some ((y + dy - 1) * zx + (x + dx - 1)))

/-- The map of R304: the new e values in F32, and the duty codes. -/
def dimMap (zx zy kMax kMean spread fall minD maxD cap : Nat) (zones : List ZoneAcc) (prev : List Nat) : List Nat × List Nat :=
  let n := zones.length
  let d := zones.map (fun a =>
    let mean := if a.n = 0 then 0 else rneDiv (a.sum * 64) a.n
    f32max (f32div (f32mul (f32div (f32nat a.max) (f32nat 1023)) (f32nat kMax)) (f32nat 128))
      (f32div (f32mul (f32div (f32nat mean) (f32nat 65472)) (f32nat kMean)) (f32nat 128)))
  let e := (List.range n).map (fun z =>
    let nb := (zoneNeighbours zx zy z).foldl (fun b k => f32max b (d.getD k 0)) 0
    let e := f32max (d.getD z 0) (f32mul (f32div (f32nat spread) (f32nat 256)) nb)
    let e := f32max e (f32sub (prev.getD z 0) (f32div (f32nat fall) (f32nat 65535)))
    f32min (f32max e (f32div (f32nat minD) (f32nat 65535))) (f32div (f32nat maxD) (f32nat 65535)))
  let sum := e.foldl f32add 0
  let limit := f32mul (f32div (f32nat cap) (f32nat 65535)) (f32nat n)
  let e := if Q.lt (Q.ofF32 limit) (Q.ofF32 sum) then e.map (fun v => f32div (f32mul v limit) sum) else e
  (e, e.map (fun v => ((Q.ofF32 v).mul (Q.ofInt 65535)).rne.toNat))

/-- Device physical base of a duty buffer. -/
def State.dutyBase (s : State) (b : Nat) : Nat :=
  s.ldmc Reg.LDM_DUTY_LO 31 0 + s.ldmc Reg.LDM_DUTY_HI 7 0 * 2 ^ 32 + b * 16384

/-- Device physical base of a statistics buffer. -/
def State.statsBase (s : State) (b : Nat) : Nat :=
  s.ldmc Reg.LDM_STATS_LO 31 0 + s.ldmc Reg.LDM_STATS_HI 7 0 * 2 ^ 32 + b * 65536

/-- CC3's map of a published frame: duties, then the tag (R303, R304). -/
def State.cc3Map (s : State) (f : Nat) (zones : List ZoneAcc) : State :=
  let (e, codes) := dimMap (s.ldmc Reg.LDM_GRID 6 0) (s.ldmc Reg.LDM_GRID 22 16) (s.fld Reg.LDM_MAP0 7 0)
    (s.fld Reg.LDM_MAP0 15 8) (s.fld Reg.LDM_MAP0 23 16) (s.fld Reg.LDM_MAP1 15 0) (s.fld Reg.LDM_MAP2 15 0)
    (s.fld Reg.LDM_MAP2 31 16) (s.fld Reg.LDM_MAP3 15 0) zones s.ldm.prev
  let b := s.dutyBase (f % 2)
  let s := s.devWrite 13 (b + 16) (full (codes.flatMap (leBytes 2))) false
  let s := s.devWrite 13 b (full (wordBytes [f, 0, 0, 0])) false
  { s with ldm := { s.ldm with prev := e } }

/-- A frame counts as held (R308, R318). -/
def State.ldmHeld (s : State) : State := (s.setFlag Reg.LDM_STATUS 2).countSat Reg.LDM_COUNT 15 0 1

/-- After the duty transfer of frame `f`, or its latest start: the diagnostic transfer of frame f + 1 and the status reads
become due (R312, R314); a fault's read comes in the frame after its assertion (R315), which is the one that sends frame f's duties
where the assertion fell in frame f or before. -/
def State.ldmAfterDuty (s : State) (f : Nat) : State :=
  let n := s.ldmc Reg.LDM_DIAG 7 0
  let ports := s.ldmPortList
  let diag := n ≠ 0 && (f + 1) % 2 ^ 32 % n == 0
  let past (d : Nat) : Bool := decide (0 ≤ signed 32 (diff32 f d))
  let read := (n ≠ 0 && f % n == 0) || s.ldm.readNext.any past
  { s with ldm := { s.ldm with
    awaiting := none, diagDue := if diag then ports else s.ldm.diagDue,
    readDue := if read then ports else s.ldm.readDue, readNext := s.ldm.readNext.filter (fun d => !past d) } }

/-- The accumulated statistics of a frame's zones, in zone order. -/
def State.zoneStats (s : State) : List ZoneAcc := (List.range s.ldmZones).map (fun z => Sparse.get s.ldm.acc ⟨0, 0, 0, 0⟩ z)

/-- The gathering of a frame ends; the high threshold of the next one is taken (R320). -/
def State.gatherEnd (s : State) : State :=
  { s with ldm := { s.ldm with gathering := none, acc := [], thr := s.fld Reg.LDM_MAP1 25 16 } }

/-- A statistics buffer's bytes: the header of 64 bytes and an entry of 8 bytes a zone (R302). -/
def State.statsBytes (s : State) (f : Nat) (zones : List ZoneAcc) : List Byte :=
  wordBytes ([f, s.ldmc Reg.LDM_GRID 6 0 + s.ldmc Reg.LDM_GRID 22 16 * 65536, s.time % 2 ^ 32, s.time / 2 ^ 32]
    ++ List.replicate 12 0) ++ zones.flatMap ZoneAcc.entry

/-- Frame `f` is published (R302, R303): LDM_FRAME, STATS, and its duties are awaited. -/
def State.statsShown (s : State) (f : Nat) : State :=
  let s := (s.setReg Reg.LDM_FRAME (BitVec.ofNat 32 f)).setFlag Reg.LDM_STATUS 1
  { s with ldm := { s.ldm with awaiting := some f, tagStored := false } }

/-- The EVENT of a publication (R302), where LDM_MAP3 enables it. -/
def State.statsEvent (s : State) : State := if s.flag Reg.LDM_MAP3 31 then s.evtSignal (s.fld Reg.LDM_MAP3 27 16) else s

/-- STATS_PUBLISH (R302 to R304): the frame's statistics are stored and published, EVENT is signalled, and CC3 computes its
map. `failed`: a statistics write failed at that physical address (R318). -/
def execStatsPublish (failed : Option (BitVec 40)) (s : State) : Ans :=
  match s.ldm.gathering with
  | none => .next s
  | some f =>
    if !s.ldm.lastIn then .next s
    else
      let zones := s.zoneStats
      let s := s.gatherEnd
      match failed with
      | some a => .next ((s.ldmHeld.rec0 0x0804 0x32 2 (a.toNat % 2 ^ 32) (a.toNat / 2 ^ 32)).ldmAfterDuty f)
      | none =>
        let s := (s.devWrite 2 (s.statsBase (f % 2)) (full (s.statsBytes f zones)) false).statsShown f
        .next (if s.ldmc Reg.LDM_CTRL 6 5 = 0 then s.cc3Map f zones else s).statsEvent

/-! ## Transfers (R305 to R309) -/

/-- CRC-16 over 16-bit words, generator 0x1021, start 0xFFFF, most significant bit first. -/
def crc16 (ws : List Nat) : Nat :=
  ws.foldl (fun c w => (List.range 16).foldl (fun c i =>
    let top := (c / 32768 + w / 2 ^ (15 - i)) % 2
    let c := c * 2 % 65536
    if top = 1 then c ^^^ 0x1021 else c) c) 0xFFFF

/-- 12-bit values packed back to back, most significant first, padded to whole words. -/
def pack12 (cs : List Nat) : List Nat :=
  let total := cs.foldl (fun a c => a * 4096 + c / 16) 0
  let n := ceilDiv (12 * cs.length) 16
  let v := total * 2 ^ (16 * n - 12 * cs.length)
  (List.range n).map (fun i => v / 2 ^ (16 * (n - 1 - i)) % 65536)

/-- The words of a duty transfer (R306). -/
def dutyTransfer (cmd : Nat) (w16 hdr crc : Bool) (codes : List Nat) : List Nat :=
  let body := (if hdr then [codes.length] else []) ++ (if w16 then codes else pack12 codes)
  (if hdr then [cmd] else []) ++ body ++ (if crc then [crc16 body] else [])

/-- R309: the code a zone sends. -/
def State.maskedDuty (s : State) (z code : Nat) : Nat :=
  let bad := s.zoneBit Reg.LDM_OPEN z || s.zoneBit Reg.LDM_SHORT z
  if (bad && s.flag Reg.LDM_CTRL 7) || (s.flag Reg.LDM_CTRL 8 && s.flag Reg.LDM_STATUS 3) then 0 else code

/-- Read a duty buffer line by line: its bytes, and the first physical address whose access failed. -/
def State.dutyRead (s : State) (a n : Nat) : List Byte × Option Nat × State :=
  (unitsOf 128 a n).foldl (fun (bs, bad, s) line =>
    let lo := max a (line * 128)
    let hi := min (a + n) (line * 128 + 128)
    let (b, poison, s) := s.devRead 2 lo (hi - lo) false
    (bs ++ b, bad <|> (if poison then some lo else none), s)) ([], none, s)

/-- The duty transfer of a port for its zones' codes. -/
def State.portDuty (s : State) (codes : List Nat) : List Nat :=
  dutyTransfer (s.ldmc Reg.LDM_CMD 15 0) (s.ldmc Reg.LDM_SPI 10 10 == 1) (s.ldmc Reg.LDM_SPI 11 11 == 1)
    (s.ldmc Reg.LDM_SPI 12 12 == 1) codes

/-- Words on a port, in SPI mode MODE (R306). -/
def State.spiSend (s : State) (p : Nat) (words : List Nat) : State := s.emit (.spi p (s.ldmc Reg.LDM_SPI 9 8) words)

/-- Whole words of a duty transfer that `k` zones' codes fill. -/
def State.dutyPrefix (s : State) (k : Nat) : Nat :=
  (if s.ldmc Reg.LDM_SPI 11 11 = 1 then 2 else 0) + (if s.ldmc Reg.LDM_SPI 10 10 = 1 then k else 12 * k / 16)

/-- A duty transfer that a failing read stops (R318): of the words before the first zone whose code could not be read, a free number
has been sent, and the drivers hold the codes that are whole. -/
def State.dutyStop (s : State) (codes : List Nat) (good p : Nat) : State :=
  let band := s.ldmBand p
  let (d, s) := s.drawNat
  let first := (band.takeWhile (fun z => decide (z < good))).length
  let sent := d % (s.dutyPrefix first + 1)
  let whole (z : Nat) : Bool := decide (s.dutyPrefix (band.idxOf z + 1) ≤ sent) && band.contains z
  let s := s.spiSend p ((s.portDuty (band.map (fun z => codes.getD z 0))).take sent)
  { s with ldm := { s.ldm with
    shadowDuty := (List.range s.ldmZones).map (fun z => if whole z then codes.getD z 0 else s.ldm.shadowDuty.getD z 0) } }

/-- Send the duties of a buffer on every enabled port. A buffer written outside its window gives undefined duties (R311): free. -/
def State.sendDuties (s : State) (b f : Nat) : State :=
  let n := s.ldmZones
  let a := s.dutyBase b + 16
  let (bs, bad, s) := s.dutyRead a (2 * n)
  let bs := if s.ldm.broken.contains b then (List.range (2 * n)).map (fun i => Config.freeByte s.draws i) else bs
  let s := { s with draws := s.draws + 1, ldm := { s.ldm with broken := s.ldm.broken.filter (fun x => x != b) } }
  let codes := (List.range n).map (fun z => s.maskedDuty z (leNat ((bs.drop (2 * z)).take 2)))
  match bad with
  | some x =>
    let s := s.ldmPortList.foldl (fun s p => s.dutyStop codes ((x - a) / 2) p) s
    (s.ldmHeld.rec0 0x0804 0x32 2 (x % 2 ^ 32) (x / 2 ^ 32)).ldmAfterDuty f
  | none =>
    let s := s.ldmPortList.foldl (fun s p => s.spiSend p (s.portDuty ((s.ldmBand p).map (fun z => codes.getD z 0)))) s
    let s := s.setReg Reg.LDM_SENT (BitVec.ofNat 32 f)
    ({ s with ldm := { s.ldm with shadowDuty := codes } }).ldmAfterDuty f

/-- DUTY_TAG_POLL (R303, R308): the tag of the awaited frame's buffer is read; a match, or the static source, starts the
transfers. -/
def execDutyTagPoll (s : State) : Ans :=
  match s.ldm.awaiting with
  | none => .next s
  | some f =>
    if s.ldmc Reg.LDM_CTRL 6 5 = 2 then .next (s.sendDuties 0 f)
    else
      let (bs, poison, s) := s.devRead 2 (s.dutyBase (f % 2)) 4 false
      let a := s.dutyBase (f % 2)
      if poison then .next ((s.ldmHeld.rec0 0x0804 0x32 2 (a % 2 ^ 32) (a / 2 ^ 32)).ldmAfterDuty f)
      else if leNat bs = f then .next (s.sendDuties (f % 2) f)
      else .next s

/-- DUTY_HELD (R308): the latest start has passed without a matching tag. The static source ignores the tag and holds no frame
(R303). -/
def execDutyHeld (s : State) : Ans :=
  match s.ldm.awaiting with
  | none => .next s
  | some f => if s.ldmc Reg.LDM_CTRL 6 5 = 2 then .next s else .next (s.ldmHeld.ldmAfterDuty f)

/-! ## Diagnosis (R312 to R315) -/

/-- Bits as 16-bit words, most significant first, padded with zeros. -/
def packBits (bs : List Bool) : List Nat :=
  (List.range (ceilDiv bs.length 16)).map (fun w =>
    (List.range 16).foldl (fun a i => a * 2 + (if bs.getD (16 * w + i) false then 1 else 0)) 0)

/-- Whether a zone is low under the duties that line SYNC_LINE latches (R312). -/
def State.zoneLow (s : State) (z : Nat) : Bool :=
  s.ldm.shadowDuty.getD z 0 * s.ldmc Reg.LDM_PWM 15 0 < s.ldmc Reg.LDM_DIAG1 23 16 * 65535

/-- DIAG_TRANSFER (R312, R314): a port sends the bitmap of its low zones. -/
def execDiagTransfer (p : Fin 4) (s : State) : Ans :=
  if s.ldm.diagDue.contains p.val then
    let marks := (s.ldmBand p.val).map (fun z => s.zoneLow z && s.ldmc Reg.LDM_DIAG1 24 24 == 0)
    let body := s.ldmc Reg.LDM_DIAG 15 8 :: packBits marks
    let s := s.spiSend p.val ([s.ldmc Reg.LDM_CMD 31 16] ++ body ++
      (if s.ldmc Reg.LDM_SPI 12 12 = 1 then [crc16 body] else []))
    .next { s with ldm := { s.ldm with diagDue := s.ldm.diagDue.filter (fun q => q != p.val) } }
  else .next s

/-- STATUS_READ (R312, R314): a port sends STAT_CMD and begins to clock in its zones' codes; XFER shows the transfer. -/
def execStatusRead (p : Fin 4) (s : State) : Ans :=
  if s.ldm.readDue.contains p.val && s.ldmPortList.contains p.val then
    let s := (s.spiSend p.val [s.ldmc Reg.LDM_STATCMD 15 0]).setFlag Reg.LDM_STATUS 6
    .next { s with ldm := { s.ldm with
      readDue := s.ldm.readDue.filter (fun q => q != p.val), readNow := p.val :: s.ldm.readNow } }
  else .next s

/-- One zone's status code (R313): 0 good, 1 open, 2 short, 3 not measured. -/
def State.zoneStatus (s : State) (z code : Nat) : State :=
  if code % 4 = 3 then s.setZoneBit Reg.LDM_UNDIAG z true
  else
    let s := s.setZoneBit Reg.LDM_UNDIAG z false
    if code % 4 = 0 then s
    else
      let reg := if code % 4 = 1 then Reg.LDM_OPEN else Reg.LDM_SHORT
      if s.zoneBit reg z then s
      else ((s.setZoneBit reg z true).rec0 0x0801 0x32 1 z (code % 4)).setFlag Reg.LDM_STATUS 4

/-- The last status read ends: XFER falls, and a stop that waited for it takes place (R317). -/
def State.ldmReadsEnd (s : State) : State :=
  if !s.ldm.readNow.isEmpty then s
  else if s.ldm.stopWait then s.ldmStop else s.clearFlag Reg.LDM_STATUS 6

/-- STATUS_READ_COMPLETE (R313): the codes of a port's zones in band order. -/
def execStatusReadComplete (p : Fin 4) (codes : List (BitVec 2)) (s : State) : Ans :=
  if s.ldm.readNow.contains p.val then
    let s := { s with ldm := { s.ldm with readNow := s.ldm.readNow.filter (fun q => q != p.val) } }
    .next (((s.ldmBand p.val).zip codes).foldl (fun s (z, c) => s.zoneStatus z c.toNat) s).ldmReadsEnd
  else .next s

/-- LD_FAULT (R315): LD_FAULT_N has been low for 1 µs, or (`low` false) has returned high. -/
def execLdFault (low : Bool) (s : State) : Ans :=
  if !s.dispRuns then .next s
  else if low then
    let d := (s.reg Reg.DSP_FRAME).toNat
    let s := ((s.setFlag Reg.LDM_STATUS 3).countSat Reg.LDM_COUNT 31 16 1).rec0 0x0802 0x32 1 0 d
    .next { s with ldm := { s.ldm with
      faultPin := true, readNext := if s.flag Reg.LDM_STATUS 0 then s.ldm.readNext ++ [d] else s.ldm.readNext } }
  else .next { s with ldm := { s.ldm with faultPin := false } }

/-- LD_SYNC at a line (R310, R312): the drivers latch at SYNC_LINE; a second pulse at DIAG_LINE of a diagnostic frame, whose
last 63 lines follow the next fetch deadline. -/
def State.ldmSyncLine (s : State) (y : Nat) : State :=
  if !s.flag Reg.LDM_STATUS 0 then s
  else if y = s.ldmc Reg.LDM_SYNC 12 0 then
    let s := s.emit (.ldSync (s.ldmc Reg.LDM_SYNC 20 16) (s.ldmc Reg.LDM_SYNC 24 24 == 1))
    { s with ldm := { s.ldm with latched := s.ldm.shadowDuty } }
  else if (if s.dspActive.vTotal - 64 < y then s.ldm.diagPrev else s.ldm.diagFrame) && y == s.ldmc Reg.LDM_DIAG1 12 0 then
    s.emit (.ldSync (s.ldmc Reg.LDM_SYNC 20 16) (s.ldmc Reg.LDM_SYNC 24 24 == 1))
  else s

end Sys2Proof.Machine
end

