-- ==== Sys2Proof/Machine/DpPorts.lean ====
section
/-! DEFINITION. The DisplayPort transmitter and receiver (R284 to R295, R299): training, HDCP 2.3, link loss, the receiver's
enable, AUX and stream check. -/

namespace Sys2Proof.Machine

/-! ## Capacity (R286) and the training check (R285, R287, R295) -/

/-- A rate code in units of 100 Mb/s per lane. -/
def dpRate (code : Nat) : Nat :=
  match code with
  | 0 => 16 | 1 => 27 | 2 => 54 | 3 => 81 | 4 => 100 | 5 => 135 | _ => 200

/-- RBR is 1.62 Gb/s: rates in units of 10 Mb/s. -/
def dpRate10 (code : Nat) : Nat := if code = 0 then 162 else dpRate code * 10

/-- Lanes of a code. -/
def dpLanes (code : Nat) : Nat := match code with
  | 0 => 1 | 1 => 2 | _ => 4

/-- DSC is on: DSC_EN as the latest training used it. -/
def State.dscOn (s : State) : Bool := bit s.dp.ctrl.toNat 6

/-- HDCP_EN as the latest training used it. -/
def State.hdcpOn (s : State) : Bool := bit s.dp.ctrl.toNat 7

/-- RATE and LANES as the latest training used them. -/
def State.dptRateSet (s : State) : Nat := bits s.dp.ctrl.toNat 3 1
def State.dptLanesSet (s : State) : Nat := bits s.dp.ctrl.toNat 5 4

/-- Bits per pixel of the stream in sixteenths. -/
def State.dpBpp16 (s : State) : Nat :=
  let m := s.dspActive
  let bpc := if m.fld Reg.DSP_OUT_CTRL 2 2 = 1 then 8 else 10
  if s.dscOn then bits s.dp.dsc.toNat 9 0
  else if m.fld Reg.DSP_OUT_CTRL 1 0 = 2 then 32 * bpc else 48 * bpc

/-- R286 at a rate and lane code for the active timing. -/
def State.dpCapacity (s : State) (rate lanes : Nat) : Bool :=
  let m := s.dspActive
  let need : Q := ⟨(m.pclk * 1000 * m.hActive * s.dpBpp16 : Nat), m.hTotal * 16⟩
  let eta : Q := if 4 ≤ rate then ⟨128, 132⟩ else if s.dscOn then ⟨976 * 8, 10000⟩ else ⟨8, 10⟩
  let have_ : Q := ((Q.ofInt (dpLanes lanes * dpRate10 rate * 10000000)).mul eta).mul ⟨98, 100⟩
  Q.le need have_

/-- Slices per line (R287). -/
def State.dscSlices (s : State) : Nat := if bit s.dp.dsc.toNat 10 then 16 else 8

/-- Whether a DSC parameter breaks R287. -/
def State.dscBad (s : State) : Bool :=
  let m := s.dspActive
  let bpp := bits s.dp.dsc.toNat 9 0
  let slices := s.dscSlices
  let h := bits s.dp.dsc.toNat 27 16
  bpp < 128 || 255 < bpp || m.hActive % slices ≠ 0 || h < 8 || m.vActive < h || m.vActive % h ≠ 0
    || m.fld Reg.DSP_OUT_CTRL 1 0 == 2

/-- The link is idle. -/
def State.dptIdle (s : State) : State :=
  ((s.clearFlag Reg.DPT_STATUS 0).clearFlag Reg.DPT_STATUS 7).setFld Reg.DPT_STATUS 9 8 0

/-- The check of a training (R295): 0x90, 0x91, 0x92, 0x94, 0x95 or 0, the first in the table's order (DEDUCED, log 61). -/
def State.dptCode (s : State) (k : SinkInfo) : Nat :=
  let rate := s.dptRateSet
  let lanes := s.dptLanesSet
  let dsc := s.dscOn
  if rate = 7 ∨ lanes = 3 then 0x90
  else if !s.dpCapacity rate lanes then 0x91
  else if !(k.rates.any (fun r => r.val == rate)) || k.maxLanes.val < lanes || (dsc && !k.dsc) || (dsc && decide (rate < 4) && !k.fec)
      || (s.hdcpOn && !k.hdcp) then 0x92
  else if !k.hpd then 0x94
  else if dsc && s.dscBad then 0x95
  else 0

/-- The rate that training ends at: the highest up to RATE that trains and carries the stream. No link trains through more than 8
LTTPRs (R284). -/
def State.dptRate (s : State) (k : SinkInfo) : Option Nat :=
  if 8 < k.lttprs then none
  else ((List.range (s.dptRateSet + 1)).reverse).find? (fun r => k.trains.any (fun t => t.val == r) && s.dpCapacity r s.dptLanesSet)

/-- The link is trained at a rate. -/
def State.dptUp (s : State) (r : Nat) : State :=
  let fec := s.dscOn || decide (4 ≤ r)
  let s := (((s.setFlag Reg.DPT_STATUS 0).setFld Reg.DPT_STATUS 4 2 r).setFld Reg.DPT_STATUS 6 5 s.dptLanesSet).setFld
    Reg.DPT_STATUS 7 7 (if fec then 1 else 0)
  let s := s.setFld Reg.DPT_STATUS 23 16 0
  if s.hdcpOn then s.setFld Reg.DPT_STATUS 9 8 1 else s

/-- The link as a training begins: DPT_CTRL and DPT_DSC take effect (R299). -/
def State.dptBegin (s : State) (k : SinkInfo) : State :=
  { (s.dptIdle.setFld Reg.DPT_STATUS 1 1 (if k.hpd then 1 else 0)) with
    dp := { s.dp with
      retrainDue := false, hdcpRetry := false, txIds := [], ctrl := s.reg Reg.DPT_CTRL, dsc := s.reg Reg.DPT_DSC } }

/-- The end of a training: its code in REASON, or the link up. -/
def State.dptEnd (s : State) (code : Nat) (rate : Option Nat) : State :=
  if code ≠ 0 then s.setFld Reg.DPT_STATUS 23 16 code
  else match rate with
    | none => s.setFld Reg.DPT_STATUS 23 16 0x93
    | some r => s.dptUp r

/-- CC3 checks and trains the link (R285): at RATE, then at each lower rate, at the same lane count. -/
def State.dptTrain (s : State) (k : SinkInfo) : State :=
  (s.dptBegin k).dptEnd ((s.dptBegin k).dptCode k) ((s.dptBegin k).dptRate k)

/-- A new output timing (R263): the stream goes on where the trained link still passes R286; otherwise the link is idle until CC3
trains it again, and CC_DPT_CAPACITY is posted where R286 fails at RATE and LANES too (DEDUCED, log 60). -/
def State.dptTiming (s : State) : State :=
  if !s.flag Reg.DPT_STATUS 0 || s.dpCapacity (s.fld Reg.DPT_STATUS 4 2) (s.fld Reg.DPT_STATUS 6 5) then s
  else
    let s := if s.dpCapacity s.dptRateSet s.dptLanesSet then s else s.setFld Reg.DPT_STATUS 23 16 0x91
    { s.dptIdle with dp := { s.dp with retrainDue := true, hdcpRetry := false, txIds := [] } }

/-- DPT_ENABLE (R285): a write of DPT_CTRL with EN 1 while EN is 0. -/
def execDptEnable (v : Word) (k : SinkInfo) (s : State) : Ans :=
  if !s.dispRuns then .next s
  else
    let was := s.flag Reg.DPT_CTRL 0
    let s := s.setReg Reg.DPT_CTRL (BitVec.ofNat 32 (v.toNat % 256))
    .next (if !was && s.flag Reg.DPT_CTRL 0 then s.dptTrain k else s)

/-- DPT_DISABLE (R299): a write of DPT_CTRL with EN 0 while EN is 1 stops the link. -/
def execDptDisable (v : Word) (s : State) : Ans :=
  if !s.dispRuns then .next s
  else
    let was := s.flag Reg.DPT_CTRL 0
    let s := s.setReg Reg.DPT_CTRL (BitVec.ofNat 32 (v.toNat % 256 / 2 * 2))
    .next (if was then { s.dptIdle with dp := { s.dp with retrainDue := false, hdcpRetry := false, txIds := [] } } else s)

/-- DPT_RETRAIN (R285). -/
def execDptRetrain (k : SinkInfo) (s : State) : Ans :=
  if s.dispRuns && s.flag Reg.DPT_CTRL 0 then .next (s.dptTrain k) else .next s

/-! ## What the transmitter sends (R284, R287, R292) -/

/-- The main stream attributes of a frame, and with DSC the picture parameter set: the values from which DisplayPort and DSC 1.2a make
them (DSC's recommended rate control is fixed by the bits per component and the rate). -/
def State.frameData (s : State) : State :=
  if !s.flag Reg.DPT_STATUS 0 then s
  else
    let m := s.dspActive
    let s := s.emit (.msa [m.word Reg.DSP_HTIM0, m.word Reg.DSP_HTIM1, m.word Reg.DSP_VTIM0, m.word Reg.DSP_VTIM1, m.pclk,
      m.word Reg.DSP_OUT_CTRL])
    if s.dscOn then
      s.emit (.pps [m.hActive, m.vActive, if m.fld Reg.DSP_OUT_CTRL 2 2 = 1 then 8 else 10, bits s.dp.dsc.toNat 9 0, s.dscSlices,
        bits s.dp.dsc.toNat 27 16])
    else s

/-- Bytes of a DSC-encoded line: each slice's pixels at BPP, in whole bytes. -/
def State.dscLineBytes (s : State) : Nat :=
  s.dscSlices * ceilDiv (s.dspActive.hActive / s.dscSlices * bits s.dp.dsc.toNat 9 0) 128

/-- How the link carries a line: idle, or its codes or its DSC encoding, encrypted once authenticated. What DSC 1.2a makes of the
codes is not in the spec: free bytes (log 63). -/
def State.lineLink (s : State) : LinkLine × State :=
  let enc := decide (2 ≤ s.fld Reg.DPT_STATUS 9 8)
  if !s.flag Reg.DPT_STATUS 0 then (.idle, s)
  else if s.dscOn then
    (.dsc ((List.range s.dscLineBytes).map (fun i => Config.freeByte s.draws i)) enc, { s with draws := s.draws + 1 })
  else (.plain enc, s)

/-! ## HDCP 2.3 (R291, R292) -/

/-- CC3 reads the SRM placed at DPT_SRM; none at 0. The 5,120 bytes are HDCP's limit for it (PRESUMED, log 62). -/
def State.srmRead (s : State) : Option (List Byte) × State :=
  let a := s.reg64 Reg.DPT_SRM_LO
  if a = 0 then (none, s)
  else if s.usable < a + 5120 then (some [], s)
  else
    let (b, _, s) := s.devRead 13 a 5120 false
    (some b, s)

/-- The code of an authentication: without keys every one fails (R495, R574); 0 for success. `srm`: the SRM, where one is placed. -/
def State.hdcpCode (s : State) (r : HdcpResult) (srm : Option (List Byte)) : Nat :=
  let revoked := match srm with
    | none => false
    | some b => r.ids.any (fun i => Config.srmLists b i.toNat)
  if s.keysHeld then 0x98 else if r.tooBig then 0x99 else if !r.ok || revoked then 0x98 else 0

/-- A failed authentication. -/
def State.hdcpFailed (s : State) (code : Nat) : State :=
  let s := ((s.setFld Reg.DPT_STATUS 9 8 0).setFld Reg.DPT_STATUS 23 16 code).rec0 0x0708 0x34 1 code 0
  { s with dp := { s.dp with hdcpRetry := true, txIds := [] } }

/-- A successful authentication. -/
def State.hdcpDone (s : State) (r : HdcpResult) : State :=
  let s := (s.setFld Reg.DPT_STATUS 9 8 (2 + r.type.val)).setFld Reg.DPT_STATUS 23 16 0
  let ids := r.ids.map BitVec.toNat
  { s with dp := { s.dp with
    hdcpRetry := false, txIds := ids, rxIds := if bit s.dp.rxCtrl.toNat 6 then ids else s.dp.rxIds } }

/-- The transmitter's authentication of its receiver (R292). -/
def State.hdcpRun (s : State) (r : HdcpResult) : State :=
  let d := s.srmRead
  let code := d.2.hdcpCode r d.1
  if code ≠ 0 then d.2.hdcpFailed code else d.2.hdcpDone r

/-- HDCP_AUTHENTICATE (R292): after a successful training with HDCP_EN 1. -/
def execHdcpAuthenticate (r : HdcpResult) (s : State) : Ans :=
  if s.flag Reg.DPT_STATUS 0 && s.hdcpOn then .next (s.hdcpRun r) else .next s

/-- HDCP_RETRY (R292): every 2 s after a failure. -/
def execHdcpRetry (r : HdcpResult) (s : State) : Ans :=
  if s.dp.hdcpRetry && s.flag Reg.DPT_STATUS 0 then .next (s.hdcpRun r) else .next s

/-! ## Link loss (R288) -/

/-- The loss is flagged, counted and recorded: cause 0 IRQ_HPD, 1 HPD low. -/
def State.dptLost (s : State) (cause : Nat) : State :=
  ((s.setFlag Reg.DPT_STATUS 10).countSat Reg.DPT_RETRAINS 31 0 1).rec0 0x0707 0x34 0 cause (s.reg Reg.DSP_FRAME).toNat

/-- DPT_IRQ_HPD (R288): the sink reports a loss of lock; CC3 retrains. -/
def execDptIrqHpd (k : SinkInfo) (s : State) : Ans :=
  if s.dispRuns && s.flag Reg.DPT_CTRL 0 then .next ((s.dptLost 0).dptTrain k) else .next s

/-- DPT_HPD_LOW_TIMEOUT (R288): HPD has been low for more than 2 ms. -/
def execDptHpdLowTimeout (s : State) : Ans :=
  if !s.dispRuns then .next s
  else
    let s := s.clearFlag Reg.DPT_STATUS 1
    if s.flag Reg.DPT_CTRL 0 then
      .next { (s.dptLost 1).dptIdle with dp := { s.dp with retrainDue := true, hdcpRetry := false, txIds := [] } }
    else .next s

/-- DPT_HPD_RETURN (R288): HPD returns; after a loss CC3 retrains. -/
def execDptHpdReturn (k : SinkInfo) (s : State) : Ans :=
  if !s.dispRuns then .next s
  else
    let s := s.setFlag Reg.DPT_STATUS 1
    if s.dp.retrainDue && s.flag Reg.DPT_CTRL 0 then .next (s.dptTrain k) else .next s

/-! ## Receiver (R283, R289, R299) -/

/-- DPR_ENABLE (R283, R295): a write of DPR_CTRL with EN 1 while EN is 0 asserts HPD, with the other fields as they then stand. -/
def execDprEnable (v : Word) (s : State) : Ans :=
  if !s.dispRuns then .next s
  else
    let w := BitVec.ofNat 32 (v.toNat % 128)
    if s.flag Reg.DPR_CTRL 0 then .next (s.setReg Reg.DPR_CTRL w)
    else
      let s := (s.setReg Reg.DPR_CTRL w).clearFlag Reg.DPR_CTRL 0
      let code := if 4 < s.fld Reg.DPR_CTRL 3 1 ∨ s.fld Reg.DPR_CTRL 5 4 = 3 then 0x96
        else if s.dspActive.writeFails true then 0x9A else 0
      let s := s.setFld Reg.DPR_STATUS 23 16 code
      .next (if code = 0 then { s.setFlag Reg.DPR_CTRL 0 with dp := { s.dp with rxCtrl := w } } else s)

/-- The receiver's link is down. -/
def State.dprDown (s : State) : State :=
  let s := (s.clearFlag Reg.DPR_STATUS 0).setFld Reg.DPR_STATUS 10 9 0
  { s with dp := { s.dp with streamOk := false } }

/-- DPR_DISABLE (R299): a write of DPR_CTRL with EN 0 while EN is 1 drops HPD at once. -/
def execDprDisable (v : Word) (s : State) : Ans :=
  if !s.dispRuns then .next s
  else
    let was := s.flag Reg.DPR_CTRL 0
    let s := s.setReg Reg.DPR_CTRL (BitVec.ofNat 32 (v.toNat % 128 / 2 * 2))
    .next (if was then s.dprDown else s)

/-- The active size and pixel rate that R289 accepts. -/
def rxAccepted (st : RxStream) : Bool := st.w.toNat ≤ 7680 && st.h.toNat ≤ 4320 && st.khz ≤ 2000000

/-- DPR_LINK_TRAINING (R289): an upstream source trains within MAXRATE and MAXLANES; its stream is checked. -/
def execDprLinkTraining (rate : Fin 5) (lanes : Fin 3) (st : RxStream) (s : State) : Ans :=
  if !(s.dispRuns && s.flag Reg.DPR_CTRL 0) || bits s.dp.rxCtrl.toNat 3 1 < rate.val || bits s.dp.rxCtrl.toNat 5 4 < lanes.val then .next s
  else
    let s := (((s.setFlag Reg.DPR_STATUS 0).setFld Reg.DPR_STATUS 3 1 rate.val).setFld Reg.DPR_STATUS 5 4 lanes.val).setFld
      Reg.DPR_STATUS 8 6 st.fmt.val
    let s := (s.setFld Reg.DPR_STATUS 10 9 0).setReg Reg.DPR_MSA (BitVec.ofNat 32 (st.w.toNat + st.h.toNat * 65536))
    let s := s.setFld Reg.DPR_STATUS 23 16 (if rxAccepted st then 0 else 0x97)
    .next { s with dp := { s.dp with streamOk := rxAccepted st } }

/-- DPR_LINK_LOSS (R299): the receiver loses the upstream link; its symbol errors are counted. -/
def execDprLinkLoss (errors : Nat) (s : State) : Ans :=
  if !s.dispRuns then .next s else .next (s.dprDown.countSat Reg.DPR_ERRCNT 31 0 errors)

/-- DPR_HDCP_AUTHENTICATION (R291): an upstream transmitter authenticates the receiver as a repeater, which reports the
transmitter's downstream IDs once that is authenticated. -/
def execDprHdcpAuthentication (type : Fin 2) (s : State) : Ans :=
  if s.flag Reg.DPR_STATUS 0 && bit s.dp.rxCtrl.toNat 6 && !s.keysHeld then
    let s := s.setFld Reg.DPR_STATUS 10 9 (1 + 2 * type.val)
    .next { s with dp := { s.dp with rxIds := if 2 ≤ s.fld Reg.DPT_STATUS 9 8 then s.dp.txIds else [] } }
  else .next s

/-- DPR_AUX_TRANSACTION (R289): the receiver's DPCD, whose contents DisplayPort gives (free), or the EDID at 0x50. -/
def execDprAuxTransaction (r : AuxRequest) (s : State) : Ans :=
  if !(s.dispRuns && s.flag Reg.DPR_CTRL 0) then .next s
  else match r with
    | .dpcdRead a n => .next (s.emit (.aux ((List.range n).map (fun i => Config.dpcd (a.toNat + i)))))
    | .dpcdWrite _ _ => .next (s.emit (.aux []))
    | .i2cRead t off n =>
      if t = 0x50#7 then .next (s.emit (.aux ((s.dp.edid.drop off).take n))) else .next (s.emit (.aux []))

end Sys2Proof.Machine
end

