-- ==== Sys2Proof/Machine/Flow.lean ====
section
/-! DEFINITION. Frame flow (chapter 6): descriptor and network set, commands, cadence, sources, invocations and their
buffers, gate maps. The fetch deadline's part and the Whisk are in Machine/Frame.lean. -/

namespace Sys2Proof.Machine

/-- The L2 class of CC3 (R159). -/
def cc3Class : Nat := 13

/-- CC3's unit ID. -/
def cc3Unit : Nat := 0x05

/-- The signed distance `a − b` of two 32-bit counters (R8, R232). -/
def sdiff (a b : Nat) : Int := signed 32 (diff32 a b)

/-- A counter moved by a signed distance. -/
def cmove (a : Nat) (d : Int) : Nat := wrapInt 32 ((a : Int) + d)

/-- Output and source frame counters (R253). -/
def State.outCount (s : State) : Nat := (s.reg Reg.WSK_FF_OUT_COUNT).toNat
def State.srcCount (s : State) : Nat := (s.reg Reg.WSK_FF_SRC_COUNT).toNat

/-- WSK_FF_STATUS.STATE. -/
def State.ffState (s : State) : Nat := s.fld Reg.WSK_FF_STATUS 4 2
def State.setFfState (s : State) (n : Nat) : State := s.setFld Reg.WSK_FF_STATUS 4 2 n

/-- Count in WSK_FF_STATn. -/
def State.ffCount (s : State) (n by_ : Nat) : State := s.countWrap (Reg.WSK_FF_STAT n) 31 0 by_

/-- Change the flow, if one is there. -/
def State.updFlow (s : State) (f : Flow → Flow) : State := { s with flow := s.flow.map f }

/-! ## Descriptor and network set (R226, R227) -/

/-- The listed bits of the first words of a flow descriptor; the other words up to 0x080 are addresses or must be 0. -/
def flowMask (off : Nat) : Nat := match off with
  | 0x00 => 0x3F1F1FFF | 0x04 => 0x0F0F3F3F | 0x0C => 0xF | 0x1C => 0x073FFFFF | 0x20 => 0x8FFFFFFF | 0x24 => 0x30F
  | n => if 0x60 ≤ n && n < 0x80 then 0 else 0xFFFFFFFF

/-- Whether a flow descriptor has a bit set that must be 0. -/
def flowReserved (b : List Byte) (nsrc nbuf : Nat) : Bool :=
  (List.range 32).any (fun i => Nat.land (wordAt b (4 * i)) (0xFFFFFFFF - flowMask (4 * i)) ≠ 0)
    || (List.range 16).any (fun i => (nsrc < i && dwordAt b (0x80 + 8 * i) ≠ 0) || (nbuf < i && dwordAt b (0x100 + 8 * i) ≠ 0))

/-- A flow descriptor's fields; those of its network set are still 0. -/
def parseFlow (addr : Nat) (b : List Byte) : FlowDesc :=
  let w (n : Nat) := wordAt b n
  let f (n hi lo : Nat) := bits (wordAt b n) hi lo
  { addr := addr, mode := f 0 9 8, input := f 0 10 10, gate := bit (w 0) 11, warp := bit (w 0) 12, ctx := f 0 20 16,
    queue := f 0 29 24, p := f 4 5 0, q := f 4 13 8, nsrc := f 4 19 16, nbuf := f 4 27 24, srcW := f 8 15 0, srcH := f 8 31 16,
    fmt := f 0xC 3 0, srcPitch := w 0x10, outW := f 0x14 15 0, outH := f 0x14 31 16, outPitch := w 0x18, leadUs := f 0x1C 15 0,
    alphaMax := f 0x1C 21 16, layer := f 0x1C 26 24, srcTimeout := f 0x20 15 0, event := f 0x20 27 16, eventEn := bit (w 0x20) 31,
    logLog2 := f 0x24 3 0, sigSlot := f 0x24 9 8, log := dwordAt b 0x28, net := dwordAt b 0x30, motion := dwordAt b 0x38,
    gatemap := dwordAt b 0x40, sigExport := dwordAt b 0x48, rp0 := dwordAt b 0x50, rp1 := dwordAt b 0x58,
    src := (List.range (f 4 19 16 + 1)).map (fun i => dwordAt b (0x80 + 8 * i)),
    out := (List.range (f 4 27 24 + 1)).map (fun i => dwordAt b (0x100 + 8 * i)),
    sr := 0, mf := 0, fg := 0, argRing := 0, inW := 0, inH := 0, noutW := 0, noutH := 0, halo := 0 }

/-- A descriptor with its network set's fields. -/
def FlowDesc.withNet (d : FlowDesc) (b : List Byte) : FlowDesc :=
  { d with
    sr := dwordAt b 0, mf := dwordAt b 8, fg := dwordAt b 0x10, argRing := dwordAt b 0x18, inW := bits (wordAt b 0x20) 15 0,
    inH := bits (wordAt b 0x20) 31 16, noutW := bits (wordAt b 0x24) 15 0, noutH := bits (wordAt b 0x24) 31 16,
    halo := bits (wordAt b 0x28) 1 0 }

/-- Whether a network set has a bit set that must be 0. -/
def netReserved (b : List Byte) : Bool := 4 ≤ wordAt b 0x28 || (b.drop 0x2C).any (fun x => x ≠ 0)

/-- Output tiles of a flow. -/
def FlowDesc.tilesX (d : FlowDesc) : Nat := ceilDiv d.outW 32
def FlowDesc.tilesY (d : FlowDesc) : Nat := ceilDiv d.outH 32

/-- Source tiles of a flow. -/
def FlowDesc.srcTilesX (d : FlowDesc) : Nat := ceilDiv d.srcW 32
def FlowDesc.srcTilesY (d : FlowDesc) : Nat := ceilDiv d.srcH 32

/-- CC_FF_DESC for a descriptor by itself: a reserved value, a field outside its range, an unaligned region. -/
def FlowDesc.bad (d : FlowDesc) (b : List Byte) : Bool :=
  wordAt b 0 % 256 ≠ 1 || flowReserved b d.nsrc d.nbuf || d.mode == 3 || 2 < d.fmt || 32 < d.p || 32 < d.q
    || d.srcPitch % 256 ≠ 0 || d.outPitch % 256 ≠ 0 || d.outPitch < 4 * d.outW || d.leadUs < 2000 || 50000 < d.leadUs
    || 32 < d.alphaMax || d.srcTimeout < 50 || 10000 < d.srcTimeout || d.logLog2 < 4 || 12 < d.logLog2 || d.log % 32 ≠ 0
    || d.net % 64 ≠ 0 || (d.mode == 0 && d.net ≠ 0) || d.motion % 256 ≠ 0 || d.gatemap % 64 ≠ 0 || d.sigExport % 64 ≠ 0
    || d.rp0 % 256 ≠ 0 || d.rp1 % 256 ≠ 0 || d.out.any (fun a => a % 256 ≠ 0)

/-- CC_FF_CADENCE. -/
def FlowDesc.cadenceBad (d : FlowDesc) : Bool :=
  d.p == 0 || d.q == 0 || Nat.gcd d.p d.q ≠ 1 || d.p < d.q || 10 * d.q < d.p

/-- SRC_FMT of a received encoding (DPR_STATUS.FMT, R290). -/
def rxSrcFmt (f : Nat) : Nat := if f ≤ 1 then 0 else if f % 2 = 0 then 2 else 1

/-- Whether the receiver's capture size or format is not a flow's. -/
def State.captureDiffers (s : State) (d : FlowDesc) : Bool :=
  s.fld Reg.DPR_MSA 15 0 ≠ d.srcW || s.fld Reg.DPR_MSA 31 16 ≠ d.srcH || rxSrcFmt (s.fld Reg.DPR_STATUS 8 6) ≠ d.fmt

/-- CC_FF_SIZE. -/
def State.flowSizeBad (s : State) (d : FlowDesc) : Bool :=
  d.srcW < 64 || 7680 < d.srcW || d.srcH < 64 || 4320 < d.srcH || d.outW ≠ s.dspActive.hActive || d.outH ≠ s.dspActive.vActive
    || (d.mode ≠ 0 && (d.inW ≠ d.srcW || d.inH ≠ d.srcH || d.noutW ≠ d.outW || d.noutH ≠ d.outH))
    || (d.input == 1 && s.captureDiffers d)

/-- CC_FF_BUFFERS. -/
def FlowDesc.buffersBad (d : FlowDesc) : Bool :=
  d.nsrc + 1 < 3 || (d.mode == 1 && d.nbuf + 1 < 3) || (d.mode == 2 && d.nbuf + 1 < 3 + ceilDiv d.p d.q)

/-- Read for CC3 in a context, without a fault: the bytes, or none where the read fails. -/
def State.cc3Try (s : State) (c a n : Nat) : Option (List Byte) × State :=
  match s.vread .command c a n cc3Class false false with
  | (.ok b none, s) => (some b, s)
  | (_, s) => (none, s)

/-- A template packet (R227): a DISPATCH of 20 body words. -/
def templateOf (q : Nat) (b : List Byte) : Pkt :=
  ⟨Fin.ofNat 64 q, BitVec.ofNat 32 (wordAt b 0), (List.range 20).map (fun i => BitVec.ofNat 32 (wordAt b (4 + 4 * i)))⟩

/-- Whether a template fails its own dispatch check (R346). -/
def State.templateBad (s : State) (d : FlowDesc) (a : Nat) : Bool × State :=
  match s.cc3Try d.ctx a 84 with
  | (none, s) => (true, s)
  | (some b, s) =>
    let p := templateOf d.queue b
    let kn := kernelOf p
    if !hdrOk p || pktOp p ≠ 1 || kn.shapeBad || 5 < kn.split || kn.split * 128 < kn.shared || 4096 ≤ kn.clusters
        || (s.kernelClusters kn).isEmpty || (kn.indirect && (kn.gridAddr % 4 ≠ 0 || 2 ^ 48 ≤ kn.gridAddr))
        || kn.griddle % 64 ≠ 0 || 2 ^ 48 ≤ kn.griddle || kn.tongs % 16 ≠ 0 || 2 ^ 48 ≤ kn.tongs || 2 ^ 48 ≤ kn.tongsArg
        || (kn.tongs ≠ 0 && kn.griddle == 0) then (true, s)
    else if kn.griddle = 0 then (false, s)
    else match s.cc3Try d.ctx kn.griddle 256 with
      | (none, s) => (true, s)
      | (some bs, s) =>
        let ok := (List.range 16).filterMap (fun i => parseBuf ((bs.drop (16 * i)).take 16))
        (ok.length ≠ 16 || !bufsApart ok, s)

/-- CC_FF_NETWORK for the templates. -/
def State.templatesBad (s : State) (d : FlowDesc) : Bool × State :=
  if d.mode = 0 then (false, s)
  else if d.net = 0 || d.sr == 0 || (d.mode == 2 && (d.mf == 0 || d.fg == 0)) || (d.mode == 1 && (d.mf ≠ 0 || d.fg ≠ 0)) then (true, s)
  else (if d.mode = 1 then [d.sr] else [d.sr, d.mf, d.fg]).foldl (fun (bad, s) a => if bad then (true, s) else s.templateBad d a) (false, s)

/-- CC_FF_SLOT: the claim of R211 fails. The slot that the flow being replaced holds counts as free. -/
def State.flowSlotBad (s : State) (d : FlowDesc) : Bool :=
  let g := match s.flow with
    | some fl => if fl.d.gate && fl.d.sigSlot == d.sigSlot then (s.gfx.track 2 fl.d.sigSlot fl.d.ctx 0 0).2 else s.gfx
    | none => s.gfx
  d.gate && (g.track 0 d.sigSlot d.ctx d.srcTilesX d.srcTilesY).1 ≠ 0

/-- The check of R229 for a start (op 1) or an update (op 3): its code, and the flow it describes. -/
def State.flowCheck (s : State) (addr op : Nat) : Nat × FlowDesc × State :=
  let none_ := parseFlow addr []
  if addr % 256 ≠ 0 ∨ s.usable < addr + 384 then (0x38, none_, s)
  else
    let (b, poison, s) := s.devRead cc3Class addr 384 false
    let d := parseFlow addr b
    let live := s.ctxLive d.ctx
    let (nb, s) := if d.mode = 0 ∨ d.net = 0 ∨ !live then (none, s) else s.cc3Try d.ctx d.net 64
    let netBad := match nb with
      | some x => netReserved x || dwordAt x 0x18 % 1024 ≠ 0
      | none => false
    if poison || d.bad b || netBad then (0x38, d, s)
    else
      let d := match nb with
        | some x => d.withNet x
        | none => { d with inW := d.srcW, inH := d.srcH, noutW := d.outW, noutH := d.outH }
      if d.cadenceBad then (0x39, d, s)
      else if s.flowSizeBad d then (0x3A, d, s)
      else if d.buffersBad then (0x3B, d, s)
      else
        let (bad, s) := if !live then (d.mode ≠ 0 && d.net == 0, s) else s.templatesBad d
        let owned := match s.queue d.queue with
          | some u => u.rt && u.ctx == d.ctx
          | none => false
        if bad then (0x3C, d, s)
        else if !owned || !live then (0x3D, d, s)
        else if s.flowSlotBad d then (0x3E, d, s)
        else if (op = 1 ∧ s.flow.isSome) ∨ (op = 3 ∧ s.flow.isNone) then (0x3F, d, s)
        else (0, d, s)

/-! ## Layer fields that CC3 owns (R265, R266) -/

/-- Whether the flow's video layer has FLOW = 1 in the active configuration. -/
def State.flowLayer (s : State) (n : Nat) : Bool := (s.dspActive.layer n).flow

/-- Write one register of both copies of a layer. -/
def State.setBoth (s : State) (a : Nat) (w : Word) : State := (s.setAct a w).setReg a w

/-- Show an image in the flow's layer: the fields CC3 owns. -/
def State.showFrame (s : State) (n ctx fmt a0 a1 pitch w h : Nat) : State :=
  if !s.flowLayer n then s
  else
    let m := s.dspActive
    let c := Reg.DSP_LAY_CTRL n
    let own := 1 + fmt * 2 ^ 8 + ctx * 2 ^ 24
    let s := (s.setAct c (maskMerge ownedCtrl own (s.act c).toNat)).setReg c (maskMerge ownedCtrl own (s.reg c).toNat)
    let put (s : State) (a v : Nat) : State := s.setBoth a (BitVec.ofNat 32 v)
    let s := put (put s (Reg.DSP_LAY_ADDR0_LO n) a0) (Reg.DSP_LAY_ADDR0_HI n) (a0 / 2 ^ 32 % 65536)
    let s := put (put s (Reg.DSP_LAY_ADDR1_LO n) a1) (Reg.DSP_LAY_ADDR1_HI n) (a1 / 2 ^ 32 % 65536)
    let s := put (put s (Reg.DSP_LAY_PITCH0 n) pitch) (Reg.DSP_LAY_PITCH1 n) (if is420 fmt then pitch else 0)
    let s := put (put s (Reg.DSP_LAY_SRC_SIZE n) (w + h * 65536)) (Reg.DSP_LAY_CROP_XY n) 0
    let s := put (put s (Reg.DSP_LAY_CROP_WH n) (w + h * 65536)) (Reg.DSP_LAY_DST_XY n) 0
    put s (Reg.DSP_LAY_DST_WH n) (m.hActive + m.vActive * 65536)

/-- DSP_STATUS.FLOW_NOLAYER and the layer's OWNED follow the layer's FLOW bit while a flow runs (R265, R266). -/
def State.flowOwns (s : State) (n : Nat) : State :=
  let own := if s.flowLayer n then 1 else 0
  (s.setFld Reg.DSP_STATUS 17 17 (1 - own)).setFld (Reg.DSP_LAY_STATUS n) 2 2 own

/-- Disable the flow's layer. -/
def State.hideFrame (s : State) (n : Nat) : State := if s.flowLayer n then s.layerOff n else s

/-! ## Start and stop (R229 to R231) -/

/-- A command of WSK_FF_CMD has completed with a code. -/
def State.ffDone (s : State) (code : Nat) : State := (s.setFlag Reg.WSK_FF_STATUS 1).setFld Reg.WSK_FF_STATUS 15 8 code

/-- Begin a flow that has passed its check (R229 steps 1 and 2). -/
def State.flowBegin (s : State) (d : FlowDesc) (repeatOld : Option (FlowDesc × ShownFrame)) : State :=
  let s := if d.gate then { s with gfx := (s.gfx.track 0 d.sigSlot d.ctx d.srcTilesX d.srcTilesY).2 } else s
  let fl : Flow :=
    { d := d, first := none, mapped := none, old := none, lastArrival := s.time, fallback := false, stopAtNext := false,
      draining := false, next := none, repeatOld := repeatOld, sources := [], invs := [],
      anchors := [], noPrev := true, onlySr := true, last := none, fields := [], fieldOrder := [], nextField := 0, nextExport := 0, rpNext := 0,
      whisk := none }
  let s := { s with flow := some fl }
  let s := ((s.setFfState 1).setFld Reg.WSK_FF_STATUS 17 16 0).setReg Reg.WSK_FF_SRC_FREE 0xFFFF
  let s := s.flowOwns d.layer
  if repeatOld.isNone then s.hideFrame d.layer else s

/-- Start a flow from the descriptor at an address (R225, R229): its code. -/
def State.flowStart (s : State) (addr : Nat) : State :=
  let (code, d, s) := s.flowCheck addr 1
  if code ≠ 0 then s.ffDone code else (s.flowBegin d none).ffDone 0

/-- WSK_FF_DESC. -/
def State.ffDesc (s : State) : Nat := s.reg64 Reg.WSK_FF_DESC_LO

/-- FF_START (R229): a write of WSK_FF_CMD with GO and OP 1. -/
def execFfStart (s : State) : Ans :=
  if !s.dispRuns then .next s else .next ((s.setReg Reg.WSK_FF_CMD 2).flowStart s.ffDesc)

/-- FF_STOP (R230): it takes effect at the next fetch deadline. -/
def execFfStop (s : State) : Ans :=
  if !s.dispRuns then .next s
  else
    let s := s.setReg Reg.WSK_FF_CMD 4
    if s.flow.isNone then .next (s.ffDone 0x3F)
    else .next (((s.updFlow (fun fl => { fl with stopAtNext := !fl.draining, next := none, repeatOld := if fl.draining then none else fl.repeatOld })).setFfState 5).ffDone 0)

/-- FF_UPDATE (R231): the new descriptor is checked; the old flow stops and the new one starts. -/
def execFfUpdate (s : State) : Ans :=
  if !s.dispRuns then .next s
  else
    let s := s.setReg Reg.WSK_FF_CMD 6
    let (code, d, s) := s.flowCheck s.ffDesc 3
    if code ≠ 0 then .next (s.ffDone code)
    else .next (((s.updFlow (fun fl => { fl with stopAtNext := !fl.draining, next := some d })).setFfState 5).ffDone 0)

/-- FF_CLEAR_STATS (R255): WSK_FF_CMD operation 4. -/
def execFfClearStats (s : State) : Ans :=
  if !s.dispRuns then .next s
  else .next (((List.range 8).foldl (fun s n => s.setReg (Reg.WSK_FF_STAT n) 0) (s.setReg Reg.WSK_FF_CMD 8)).ffDone 0)

/-! ## Cadence (R232, R233, R238) -/

/-- The output period in ticks of the time base, as a quotient over PCLK. -/
def State.outPeriod (s : State) : Nat := s.dspActive.hTotal * s.dspActive.vTotal * 100000

/-- The position of output frame `j`: source index and phase, under the mapping before a slip for frames before J0; the flag
says that such a frame needs the source that slipped. -/
def Flow.pos (fl : Flow) (j : Nat) : Option (Nat × Nat × Bool) :=
  match fl.mapped with
  | none => none
  | some (k0, j0, _) =>
    let at_ (k0 : Nat) (d : Int) : Nat × Nat := ((k0 + d.toNat * fl.d.q / fl.d.p) % 2 ^ 32, d.toNat * fl.d.q % fl.d.p)
    if 0 ≤ sdiff j j0 then
      let (k, ph) := at_ k0 (sdiff j j0)
      some (k, ph, false)
    else match fl.old with
      | none => none
      | some (k0', j0') =>
        if sdiff j j0' < 0 then none
        else
          let (k, ph) := at_ k0' (sdiff j j0')
          some (k, ph, decide (1 ≤ sdiff k k0) || (k == k0 && ph ≠ 0 && fl.d.mode == 2))

/-- The frames of the current mapping whose position, times P, satisfies a test of it and of k's, times P. -/
def Flow.framesOf (fl : Flow) (k : Nat) (test : Int → Int → Bool) : List Nat :=
  match fl.mapped with
  | none => []
  | some (k0, j0, _) =>
    let kp := sdiff k k0 * fl.d.p
    let lo := (max 0 ((kp - fl.d.p) / fl.d.q)).toNat
    let hi := (max 0 ((kp + fl.d.p) / fl.d.q + 1)).toNat
    ((span lo hi).filter (fun d => test ((d * fl.d.q : Nat) : Int) kp)).map (fun d => (j0 + d) % 2 ^ 32)

/-- The frames that show the anchor of `k`: at its position, or in MODE 1 up to the next source's. -/
def Flow.anchorFrames (fl : Flow) (k : Nat) : List Nat :=
  fl.framesOf k (fun n kp => if fl.d.mode = 2 then n == kp else kp ≤ n && n < kp + fl.d.p)

/-- The frames generated between `k` and `k + 1`. -/
def Flow.genFrames (fl : Flow) (k : Nat) : List Nat := fl.framesOf k (fun n kp => kp < n && n < kp + fl.d.p)

/-- The frames that depend on an invocation (R238). -/
def Flow.dependents (fl : Flow) (kind : InvKind) (k frame : Nat) : List Nat := match kind with
  | .fg => [frame]
  | .mf => fl.genFrames k
  | .sr => if fl.d.mode = 2 then fl.framesOf k (fun n kp => kp - fl.d.p < n && n < kp + fl.d.p) else fl.anchorFrames k
  | .sign => []

/-- The fetch deadline of a frame, from the last one and the output timing; never 0, which means none. -/
def State.deadlineOf (s : State) (j : Nat) : Nat :=
  max 1 (s.disp.fetchAt + sdiff j s.outCount * s.outPeriod / s.dspActive.pclk).toNat

/-- Urgent and cancel deadline of an invocation (R238): of the first and of the last frame that depends on it. An invocation
queued before the lock has no frame yet and gets 0, none (DESIGN CHOICE, log 57). -/
def State.invDeadlines (s : State) (fl : Flow) (kind : InvKind) (k frame : Nat) : Nat × Nat :=
  let fs := fl.dependents kind k frame
  match fs.head?, fs.getLast? with
  | some a, some b => (s.deadlineOf a, s.deadlineOf b)
  | _, _ => (0, 0)

/-- The first output frame J0 of a lock (R232): the smallest for which the active scanout of the frame after it begins at least
LEAD_US after an arrival, among the frames whose deadline is to come (step 5 of R229; DEDUCED, log 58). -/
def State.lockFrame (s : State) (fl : Flow) (t : Nat) : Nat :=
  let m := s.dspActive
  let need := (((t + us fl.d.leadUs : Nat) : Int) - s.disp.fetchAt) * m.pclk - (64 * m.hTotal * 100000 : Nat)
  (s.outCount + max 1 (ceilDiv need.toNat (max 1 s.outPeriod) - 1)) % 2 ^ 32

/-- How far an arrival of source `k` at `t` lies after its expected time, times 2 × Q × PCLK, and T_s / 2 in the same units. -/
def State.arrivalError (s : State) (fl : Flow) (k t : Nat) : Int × Int :=
  match fl.mapped with
  | none => (0, 0)
  | some (k0, _, a1) =>
    let n : Int := fl.d.p * s.outPeriod
    (2 * (((t : Int) - a1) * fl.d.q * s.dspActive.pclk - (sdiff k k0 - 1) * n), n)

/-! ## Buffers (R239, R240) -/

/-- The first bytes that a shown frame's planes may take, as an address and a length. -/
def shownRegion (d : FlowDesc) (l : ShownFrame) : Nat × Nat :=
  (l.addr, if l.direct then d.srcPitch * d.srcH * (if d.fmt = 0 then 1 else 2) else d.outPitch * d.outH)

/-- Whether the display still shows the old flow's last frame from memory that an output buffer takes (R28, R231). -/
def Flow.oldShown (fl : Flow) (b : Nat) : Bool := match fl.repeatOld with
  | none => false
  | some (d, l) =>
    let (a, n) := shownRegion d l
    let o := fl.d.out.getD b 0
    d.ctx == fl.d.ctx && decide (a < o + fl.d.outPitch * fl.d.outH ∧ o < a + n)

/-- Whether an output buffer holds a role. -/
def Flow.bufBusy (fl : Flow) (j b : Nat) : Bool :=
  fl.invs.any (fun i => i.status == .queued && (i.kind == .sr || i.kind == .fg) && i.buf == b)
    || fl.anchors.any (fun a => a.buf == b) || fl.oldShown b
    || (match fl.last with
      | some l => !l.direct && l.buf == b
      | none => false)
    || fl.invs.any (fun i => i.status == .done && i.buf == b
      && ((i.kind == .fg && 0 < sdiff i.frame j) || (i.kind == .sr && (fl.anchorFrames i.k).any (fun f => 0 < sdiff f j))))

/-- The lowest-numbered free output buffer. -/
def State.freeBuf (s : State) (fl : Flow) : Option Nat :=
  (List.range (fl.d.nbuf + 1)).find? (fun b => !fl.bufBusy s.outCount b)

/-- The lowest-numbered number below `n` that no queued invocation holds as its argument block or gate map. -/
def Flow.lowestFree (fl : Flow) (n : Nat) (held : Invocation → Option Nat) : Option Nat :=
  (List.range n).find? (fun b => !fl.invs.any (fun i => i.status == .queued && held i == some b))

/-- The pair whose motion field the Whisk would use for a last completed frame of source `k` (R247). -/
def Flow.whiskField (fl : Flow) : Option Nat :=
  match fl.last with
  | none => fl.fieldOrder.head?
  | some l => if fl.fields.any (fun f => f.1 == l.k && f.2.2) then some l.k else fl.fieldOrder.head?

/-- The next space of the motion region's rotation that may be reused (R245). -/
def Flow.fieldSpace (fl : Flow) : Option Nat :=
  ((List.range 4).map (fun i => (fl.nextField + i) % 4)).find? (fun x =>
    match fl.fields.find? (fun f => f.2.1 == x) with
    | none => true
    | some (k, _, done) =>
      !fl.invs.any (fun i => i.status == .queued && ((i.kind == .fg && i.k == k) || (i.kind == .mf && i.buf == x)))
        && !(done && fl.whiskField == some k))

/-- Addresses of a gate map, a motion field and an export record. -/
def FlowDesc.mapAddr (d : FlowDesc) (n : Nat) : Nat := d.gatemap + n * (ceilDiv (d.tilesX * d.tilesY) 512 * 64)
def FlowDesc.fieldAddr (d : FlowDesc) (n : Nat) : Nat := d.motion + n * (ceilDiv (d.tilesX * d.tilesY * 4) 256 * 256)
def FlowDesc.exportAddr (d : FlowDesc) (n : Nat) : Nat :=
  let t := d.srcTilesX * d.srcTilesY
  d.sigExport + n * (ceilDiv (64 + ceilDiv t 512 * 64 + 8 * t) 64 * 64)

/-- The two plane addresses of a source buffer; the second is 0 for one plane. -/
def FlowDesc.srcAddr (d : FlowDesc) (b : Nat) : Nat := d.src.getD b 0
def FlowDesc.srcAddr1 (d : FlowDesc) (b : Nat) : Nat := if d.fmt = 0 then 0 else d.srcAddr b + d.srcPitch * d.srcH

/-! ## Placing invocations (R227, R228, R237 to R240) -/

/-- The result that the FG invocations of a pair start from: the buffer that holds or will hold the anchor of `k`. -/
def Flow.anchorBuf (fl : Flow) (k : Nat) : Option Nat :=
  match fl.anchors.find? (fun a => a.k == k) with
  | some a => some a.buf
  | none => (fl.invs.find? (fun i => i.kind == .sr && i.k == k && i.status == .queued)).map (fun i => i.buf)

/-- The buffer of a source the flow still holds. -/
def Flow.srcBuf (fl : Flow) (k : Nat) : Nat := ((fl.sources.find? (fun x => x.k == k)).map (fun x => x.buf)).getD 0

/-- Protection of a source, or of an anchor made from it. -/
def Flow.protOf (fl : Flow) (k : Nat) : Nat :=
  max (((fl.sources.find? (fun x => x.k == k)).map (fun x => x.prot)).getD 0)
    (((fl.anchors.find? (fun x => x.k == k)).map (fun x => x.prot)).getD 0)

/-- Words 0 to 31 of an argument block (R228). -/
def Flow.argWords (fl : Flow) (i : Invocation) (urgent : Nat) : List Nat :=
  let d := fl.d
  let k1 := (i.k + 1) % 2 ^ 32
  let out (b : Option Nat) : Nat := match b with
    | some b => d.out.getD b 0
    | none => 0
  let pairs : List Nat := match i.kind with
    | .sr => [out (some i.buf), out (fl.anchorBuf ((i.k + 2 ^ 32 - 1) % 2 ^ 32)), d.srcAddr (fl.srcBuf i.k), d.srcAddr1 (fl.srcBuf i.k), 0]
    | .mf => [d.fieldAddr i.buf, 0, d.srcAddr (fl.srcBuf i.k), d.srcAddr (fl.srcBuf k1), 0]
    | _ => [out (some i.buf), out (fl.anchorBuf k1), out (fl.anchorBuf i.k), out (fl.anchorBuf k1),
            d.fieldAddr (((fl.fields.find? (fun f => f.1 == i.k)).map (fun f => f.2.1)).getD 0)]
  let map := match i.map with
    | some m => d.mapAddr m
    | none => 0
  let w12 := match i.kind with
    | .sr => d.p * 65536
    | .mf => 0
    | _ => i.phase + d.p * 65536
  ((pairs ++ [map]).flatMap (fun a => [a % 2 ^ 32, a / 2 ^ 32]))
    ++ [w12, i.k, urgent % 2 ^ 32, urgent / 2 ^ 32, d.tilesX + d.tilesY * 65536, d.srcW + d.srcH * 65536, d.srcPitch, d.outPitch,
        d.fmt] ++ List.replicate 11 0

/-- Note an invocation that is not queued because a buffer or block was missing, its own or another's that it needs (R240). -/
def State.notPlaced (s : State) (i : Invocation) : State :=
  s.updFlow (fun fl => { fl with invs := fl.invs ++ [{ i with status := .cancelled, cause := 5, block := none, map := none }] })

/-- Queue a kernel invocation whose buffer, block and map are assigned: its argument block is written, its template copied onto
QUEUE. Whatever the template's ORDER bit, it starts after the earlier ones have completed, so that invocations complete in queue
order (R29; DEDUCED, log 55). A failing access of CC3 faults the flow's context. -/
def State.queueInv (s : State) (fl : Flow) (i : Invocation) (tmpl : Nat) : State :=
  let d := fl.d
  let (urgent, cancel) := s.invDeadlines fl i.kind i.k i.frame
  let blockA := d.argRing + 1024 * i.block.getD 0
  match s.vread .command d.ctx tmpl 84 cc3Class false false with
  | (.fail f, s) => s.accessFault d.ctx cc3Unit .read f none
  | (.ok _ (some pa), s) => s.poisonFault d.ctx pa none
  | (.ok b none, s) =>
    let p := templateOf d.queue b
    let kn := kernelOf p
    match s.vread .command d.ctx (kn.args + 128) 896 cc3Class false false with
    | (.fail f, s) => s.accessFault d.ctx cc3Unit .read f none
    | (.ok _ (some pa), s) => s.poisonFault d.ctx pa none
    | (.ok rest none, s) =>
      match s.vwrite .command d.ctx blockA cc3Class (full (wordBytes (fl.argWords i urgent) ++ rest)) false false with
      | (some f, s) => s.accessFault d.ctx cc3Unit .write f none
      | (none, s) =>
        match s.queue d.queue with
        | none => s
        | some u =>
          let (seq, s) := s.addUnit d.queue u (s.rptr d.queue) true false
            (.dispatch { kn with args := blockA, deadline := cancel })
          s.updFlow (fun fl => { fl with invs := fl.invs ++ [{ i with seq := seq, cancelAt := cancel }] })

/-- Place one kernel invocation: assign what it needs, or count it as not queued. `tmpl`: its template. -/
def State.placeInv (s : State) (kind : InvKind) (k frame phase : Nat) : State :=
  match s.flow with
  | none => s
  | some fl =>
    if fl.fallback then s
    else
      let k1 := (k + 1) % 2 ^ 32
      let prot := if kind = .sr then fl.protOf k else max (fl.protOf k) (fl.protOf k1)
      let buf := if kind = .mf then fl.fieldSpace else s.freeBuf fl
      let map := if fl.d.gate then fl.lowestFree 16 (fun i => i.map) else none
      let fresh := kind == InvKind.sr && fl.noPrev
      let fl := { fl with noPrev := fl.noPrev && kind != InvKind.sr }
      let i : Invocation := ⟨kind, k, frame, phase, 0, 0, none, map, 0, 0, s.time, .queued, 0, prot, fresh⟩
      match buf, fl.lowestFree 32 (fun i => i.block) with
      | some b, some blk =>
        let i := { i with buf := b, block := some blk }
        let fl := if kind = .mf then
            { fl with
              fields := (fl.fields.filter (fun f => f.2.1 ≠ b)) ++ [(k, b, false)],
              fieldOrder := fl.fieldOrder.filter (fun x => !fl.fields.any (fun f => f.1 == x && f.2.1 == b)), nextField := (b + 1) % 4 }
          else fl
        ({ s with flow := some fl }).queueInv fl i (match kind with
          | .mf => fl.d.mf
          | .fg => fl.d.fg
          | _ => fl.d.sr)
      | _, _ => (({ s with flow := some fl }).notPlaced i).ffCount 6 1

/-- The body of GFX_SIGN_SURFACE for a source (R216, R237). -/
def FlowDesc.signBody (d : FlowDesc) (b e : Nat) : List Nat :=
  let planes := if d.fmt = 0 then 1 else 2
  let bpp := if d.fmt = 0 then 2 else if d.fmt = 1 then 1 else 0
  let a := d.srcAddr b
  let a1 := d.srcAddr1 b
  let x := d.exportAddr e
  [d.sigSlot + planes * 16 + bpp * 256, d.srcW + d.srcH * 65536, a % 2 ^ 32, a / 2 ^ 32, d.srcPitch, a1 % 2 ^ 32, a1 / 2 ^ 32,
   if d.fmt = 0 then 0 else d.srcPitch, x % 2 ^ 32, x / 2 ^ 32]

/-- Queue the signature operation of a source (R237); QUEUE holds the source's invocations until their gate maps are written. -/
def State.placeSign (s : State) (k buf : Nat) : State :=
  match s.flow with
  | none => s
  | some fl =>
    match s.queue fl.d.queue with
    | none => s
    | some u =>
      let e := fl.nextExport
      let body := fl.d.signBody buf e
      let (seq, s) := s.addUnit fl.d.queue u (s.rptr fl.d.queue) false false (.maint 0x46 (body.map (BitVec.ofNat 32)))
      let i : Invocation := ⟨.sign, k, 0, 0, seq, e, none, none, 0, 0, s.time, .queued, 0, 0, false⟩
      s.updFlow (fun fl => { fl with
        invs := fl.invs ++ [i], nextExport := 1 - e,
        sources := fl.sources.map (fun (x : FlowSource) => if x.k = k then { x with held := true } else x) })

/-- What the arrival of source `k` places on QUEUE (R237): `k − 1` is the pair's first source. During a Quench nothing is placed
(R30). -/
def State.placeAll (s : State) (k buf : Nat) : State :=
  match s.flow with
  | none => s
  | some fl =>
    if fl.d.mode = 0 || fl.fallback || s.sched.quench.isSome then s
    else
      let s := s.updFlow (fun fl => { fl with onlySr := false })
      let s := if fl.d.gate then s.placeSign k buf else s
      let k' := (k + 2 ^ 32 - 1) % 2 ^ 32
      let pair := fl.d.mode == 2 && !fl.onlySr && (fl.anchorBuf k').isSome && fl.sources.any (fun x => x.k == k')
      let s := if pair then s.placeInv .mf k' 0 0 else s
      let s := s.placeInv .sr k 0 0
      match s.flow with
      | none => s
      | some fl =>
        let ready := pair && fl.invs.any (fun i => i.kind == .mf && i.k == k' && i.status == .queued) && (fl.anchorBuf k).isSome
        if !pair then s
        else (fl.genFrames k').foldl (fun s j =>
          let ph := match fl.pos j with
            | some (_, ph, _) => ph
            | none => 0
          if ready then s.placeInv .fg k' j ph
          else s.notPlaced ⟨.fg, k', j, ph, 0, 0, none, none, 0, 0, s.time, .cancelled, 5, 0, false⟩) s

/-! ## Gate maps (R242 to R244) -/

/-- Tile parts `lo` to `hi` (exclusive, in pixels) of an output tile in one dimension, as source tiles widened by HALO; none
where the footprint leaves the source. -/
def footprint (t out src halo tiles : Nat) : Option (List Nat) :=
  let lo := 32 * t * src / out / 32
  let hi := (ceilDiv (min (32 * t + 32) out * src) out - 1) / 32
  if lo < halo ∨ tiles ≤ hi + halo then none else some (span (lo - halo) (hi + halo))

/-- Whether an output tile's gate bit is 1: some source tile of its footprint is changed, or lies outside. -/
def FlowDesc.gateBit (d : FlowDesc) (changed : Nat → Bool) (t : Nat) : Bool :=
  match footprint (t % d.tilesX) d.outW d.srcW d.halo d.srcTilesX, footprint (t / d.tilesX) d.outH d.srcH d.halo d.srcTilesY with
  | some xs, some ys => ys.any (fun y => xs.any (fun x => changed (y * d.srcTilesX + x)))
  | _, _ => true

/-- Whether the previous result of an invocation exists (R228, R243): for an SR the anchor of the source before, unless it is the
first SR after a lock, a Quench or a fallback; for an FG the anchor of its pair's second source. An MF needs none: it writes zero
vectors (R244). -/
def Flow.hasPrev (fl : Flow) (i : Invocation) : Bool := match i.kind with
  | .sr => !i.fresh && (fl.anchorBuf ((i.k + 2 ^ 32 - 1) % 2 ^ 32)).isSome
  | .fg => (fl.anchorBuf ((i.k + 1) % 2 ^ 32)).isSome
  | _ => true

/-- Write the gate maps of a source's invocations (R242): every bit 1 for those whose previous result does not exist, and for
all of them where `changed` is none. QUEUE then holds them no longer. -/
def State.writeGates (s : State) (k : Nat) (changed : Option (Nat → Bool)) : State :=
  match s.flow with
  | none => s
  | some fl =>
    let d := fl.d
    let n := d.tilesX * d.tilesY
    let k' := (k + 2 ^ 32 - 1) % 2 ^ 32
    let mine (i : Invocation) : Bool := i.status == .queued && ((i.kind == .sr && i.k == k) || ((i.kind == .mf || i.kind == .fg) && i.k == k'))
    let bitAt (i : Invocation) (t : Nat) : Bool := match changed with
      | none => true
      | some c => !fl.hasPrev i || d.gateBit c t
    let s := (fl.invs.filter mine).foldl (fun s i =>
      match i.map with
      | none => s
      | some m =>
        match s.vwrite .command d.ctx (d.mapAddr m) cc3Class (full (wordBytes (changedWords n (bitAt i)))) false false with
        | (some f, s) => s.accessFault d.ctx cc3Unit .write f none
        | (none, s) => s) s
    s.updFlow (fun fl => { fl with
      sources := fl.sources.map (fun (x : FlowSource) => if x.k = k then { x with held := false } else x),
      invs := fl.invs.map (fun (i : Invocation) => if mine i && i.map.isSome then
        { i with gated := ((List.range n).filter (fun t => !bitAt i t)).length } else i) })

/-- The signature operation of source `k` has completed: CC3 reads the export's changed bitmap. -/
def State.gateFromExport (s : State) (k e : Nat) : State :=
  match s.flow with
  | none => s
  | some fl =>
    let n := fl.d.srcTilesX * fl.d.srcTilesY
    match s.vread .command fl.d.ctx (fl.d.exportAddr e + 64) (ceilDiv n 512 * 64) cc3Class false false with
    | (.fail f, s) => s.accessFault fl.d.ctx cc3Unit .read f none
    | (.ok _ (some pa), s) => s.poisonFault fl.d.ctx pa none
    | (.ok b none, s) => (s.clearFlag Reg.WSK_FF_STATUS 16).writeGates k (some (fun t => bit (wordAt b (t / 32 * 4)) (t % 32)))

/-- A source runs ungated (R242). -/
def State.ungated (s : State) (k : Nat) : State := (s.setFlag Reg.WSK_FF_STATUS 16).writeGates k none

/-! ## What has ended -/

/-- One invocation's unit has ended with an outcome, at a time: its roles and counts (R236, R239, R253). -/
def State.invEnded (s : State) (i : Invocation) (outcome t : Nat) : State :=
  let same (x : Invocation) : Bool := x.kind == i.kind && x.k == i.k && x.seq == i.seq
  if outcome ≠ 0 then
    let s := (s.updFlow (fun fl => { fl with
      invs := fl.invs.map (fun (x : Invocation) => if same x then { x with status := .cancelled, cause := 1 } else x) })).ffCount 2 1
    if i.kind = .sign then s.ungated i.k else s
  else
    let s := if i.cancelAt ≠ 0 ∧ i.cancelAt < t then s.ffCount 3 1 else s
    let s := s.updFlow (fun fl => { fl with
      invs := fl.invs.map (fun (x : Invocation) => if same x then { x with status := .done, at_ := t } else x),
      anchors := if i.kind = .sr then fl.anchors ++ [⟨i.k, i.buf, i.prot⟩] else fl.anchors,
      fields := if i.kind = .mf then fl.fields.map (fun (f : Nat × Nat × Bool) => if f.1 = i.k ∧ f.2.1 = i.buf then (f.1, f.2.1, true) else f) else fl.fields,
      fieldOrder := if i.kind = .mf then i.k :: fl.fieldOrder else fl.fieldOrder })
    if i.kind = .sign then s.gateFromExport i.k i.buf else s

/-- CC3 notes which invocations' units have completed. -/
def State.flowSync (s : State) (t : Nat) : State :=
  match s.flow with
  | none => s
  | some fl =>
    (fl.invs.filter (fun i => i.status == .queued)).foldl (fun s i =>
      match s.unitAt fl.d.queue i.seq with
      | none => s.invEnded i 4 t
      | some w => match w.status with
        | some st => s.invEnded i (st / 256) t
        | none => s) s

/-- Whether a source's readers may still come or run (R236). A frame that needs the source which slipped shows none, and frame J0
shows k0 again (R233). -/
def State.sourceHeld (s : State) (fl : Flow) (k : Nat) : Bool :=
  let q (kind : InvKind) (n : Nat) : Bool := fl.invs.any (fun i => i.status == .queued && i.kind == kind && i.k == n)
  if fl.d.mode = 0 || fl.fallback then
    let shown := match fl.last with
      | some l => l.direct && l.k == k
      | none => false
    shown || (s.ffState ≠ 4 && match fl.pos s.outCount, fl.mapped with
      | some (_, _, true), some (k0, _, _) => 0 ≤ sdiff k k0
      | some (cur, _, false), _ => 0 ≤ sdiff k cur
      | _, _ => true)
  else q .sign k || q .sr k || q .mf k || q .mf ((k + 2 ^ 32 - 1) % 2 ^ 32)
    || (fl.d.mode == 2 && k == s.srcCount && s.ffState ≠ 4 && (fl.anchorBuf k).isSome)

/-- A stopped flow whose invocations have all ended gives back what it held (R230); an update's flow begins (R231). -/
def State.flowEnd (s : State) (fl : Flow) : State :=
  let s := if fl.d.gate then { s with gfx := (s.gfx.track 2 fl.d.sigSlot fl.d.ctx 0 0).2 } else s
  let s := (s.setReg Reg.WSK_FF_SRC_FREE 0xFFFF).clearFlag (Reg.DSP_LAY_STATUS fl.d.layer) 2
  match fl.next with
  | some d => s.flowBegin d fl.repeatOld
  | none => ((({ s with flow := none }).setFfState 0).clearFlag Reg.WSK_FF_STATUS 17).setFld Reg.DSP_STATUS 17 17 0

/-- Release anchors and sources that nothing needs any more (R236, R239), and finish a stop. -/
def State.flowSettle (s : State) : State :=
  match s.flow with
  | none => s
  | some fl =>
    let used (k : Nat) : Bool := (k == s.srcCount && (fl.mapped.isSome || fl.first.isSome)) || fl.invs.any (fun i => i.status == .queued
      && ((i.kind == .fg && (i.k == k || (i.k + 1) % 2 ^ 32 == k)) || (i.kind == .sr && i.k == (k + 1) % 2 ^ 32)))
    let fl := { fl with anchors := if fl.fallback then [] else fl.anchors.filter (fun a => used a.k) }
    let gone := fl.sources.filter (fun x => !s.sourceHeld fl x.k)
    let fl := { fl with sources := fl.sources.filter (fun x => s.sourceHeld fl x.k) }
    let s := { s with flow := some fl }
    let s := gone.foldl (fun s x => s.setFlag Reg.WSK_FF_SRC_FREE x.buf) s
    if fl.draining && !fl.invs.any (fun i => i.status == .queued) then s.flowEnd fl else s

/-! ## Arrivals (R233 to R237) -/

/-- CC3 takes an arrival of a source in a buffer (R237): the cadence is checked, a lock made where one is due, and the source's
invocations are placed. -/
def State.flowArrive (s : State) (buf prot : Nat) : State :=
  match s.flow with
  | none => s
  | some fl =>
    let s := (s.clearFlag Reg.WSK_FF_SRC_FREE buf).countWrap Reg.WSK_FF_SRC_COUNT 31 0 1
    let k := s.srcCount
    let k' := (k + 2 ^ 32 - 1) % 2 ^ 32
    let fl := { fl with sources := fl.sources ++ [(⟨k, buf, prot, false⟩ : FlowSource)], lastArrival := s.time }
    let (fl, s) := match s.ffState, fl.first with
      | 1, some _ =>
        ({ fl with first := none, mapped := some (k', s.lockFrame fl s.time, s.time), old := none, noPrev := true }, s.setFfState 2)
      | 2, _ | 3, _ =>
        let (e, half) := s.arrivalError fl k s.time
        if half < e ∨ e < -half then
          let old := match fl.mapped with
            | some (k0, j0, _) => if 0 ≤ sdiff s.outCount j0 then some (k0, j0) else fl.old
            | none => none
          ({ fl with mapped := some (k', s.lockFrame fl s.time, s.time), old := old, noPrev := true }, (s.ffCount 4 1).setFfState 2)
        else (fl, s.setFfState 2)
      | _, _ => ({ fl with first := some k, mapped := none, old := none, noPrev := true, onlySr := true }, s.setFfState 1)
    (({ s with flow := some fl }).placeAll k buf).flowSettle

/-- SOURCE_POST (R234): a write of WSK_FF_SRC_POST. -/
def execSourcePost (v : Word) (s : State) : Ans :=
  if !s.dispRuns then .next s
  else
    let i := v.toNat % 16
    let s := s.setReg Reg.WSK_FF_SRC_POST (BitVec.ofNat 32 i)
    let ok := match s.flow with
      | some fl => fl.d.input == 0 && i ≤ fl.d.nsrc && 1 ≤ s.ffState && s.ffState ≤ 4 && s.flag Reg.WSK_FF_SRC_FREE i
      | none => false
    if ok then .next (s.flowArrive i 0) else .next ((s.setFlag Reg.WSK_FF_STATUS 5).ffCount 7 1)

/-- Rows of a captured frame's planes (R290): offset in the source buffer, and bytes. -/
def captureRows (d : FlowDesc) (fmt : Nat) (px : List (List (Nat × Nat × Nat))) : List (Nat × List Byte) :=
  let at_ (y x : Nat) : Nat × Nat × Nat := (px.getD y []).getD x (0, 0, 0)
  let put (c : Nat) : List Byte := if d.fmt = 1 then leBytes 2 (c * 64) else leBytes 1 c
  let up (c : Nat) : Nat := if fmt = 0 then 4 * c + c / 64 else c
  let luma (y : Nat) : Nat × List Byte := (y * d.srcPitch, (List.range d.srcW).flatMap (fun x =>
    let (a, b, c) := at_ y x
    if d.fmt = 0 then leBytes 4 (up a + up b * 2 ^ 10 + up c * 2 ^ 20 + 3 * 2 ^ 30) else put a))
  let avg (f : Nat × Nat × Nat → Nat) (y x : Nat) : Nat :=
    if fmt ≤ 3 then rneDiv (f (at_ (2 * y) (2 * x)) + f (at_ (2 * y) (2 * x + 1)) + f (at_ (2 * y + 1) (2 * x)) + f (at_ (2 * y + 1) (2 * x + 1))) 4
    else if fmt ≤ 5 then rneDiv (f (at_ (2 * y) (2 * x)) + f (at_ (2 * y + 1) (2 * x))) 2
    else f (at_ (2 * y) (2 * x))
  let chroma (y : Nat) : Nat × List Byte := (d.srcPitch * d.srcH + y * d.srcPitch,
    (List.range (d.srcW / 2)).flatMap (fun x => put (avg (fun p => p.2.1) y x) ++ put (avg (fun p => p.2.2) y x)))
  (List.range d.srcH).map luma ++ (if d.fmt = 0 then [] else (List.range (d.srcH / 2)).map chroma)

/-- Whether every byte of a source buffer lies in enabled protected ranges (R572). -/
def State.bufProtected (s : State) (d : FlowDesc) (b : Nat) : Bool × State :=
  let n := d.srcPitch * d.srcH + (if d.fmt = 0 then 0 else d.srcPitch * d.srcH / 2)
  (pagesOf (d.srcAddr b) n).foldl (fun (ok, s) (a, _) =>
    if !ok then (false, s)
    else match s.xlate .display d.ctx a .write with
      | (.ok o, s) => (match o.cls with
        | .device => s.inProtected o.out
        | _ => false, s)
      | (.fault _, s) => (false, s)) (true, s)

/-- A received frame is discarded (R235). -/
def State.captureDrop (s : State) : State := (s.ffCount 5 1).setFlag Reg.DPR_STATUS 11

/-- A received frame is discarded for a link error (R235, record 0x0709 of R296). -/
def State.captureLink (s : State) : State := s.captureDrop.rec0 0x0709 0x33 0 s.srcCount 0

/-- DP_CAPTURE_FRAME (R235, R290, R572): the receiver writes a frame into the lowest free source buffer. -/
def execDpCaptureFrame (f : RxFrame) (s : State) : Ans :=
  match s.flow with
  | none => .next s
  | some fl =>
    if !(s.dispRuns && s.flag Reg.DPR_CTRL 0 && s.flag Reg.DPR_STATUS 0 && s.dp.streamOk) || fl.d.input ≠ 1 || s.ffState < 1
        || 4 < s.ffState then .next s
    else match (List.range (fl.d.nsrc + 1)).find? (fun i => s.flag Reg.WSK_FF_SRC_FREE i) with
      | none => .next s.captureDrop
      | some b =>
        if f.linkError then .next s.captureLink
        else if s.captureDiffers fl.d then .next s.captureDrop
        else
          let enc := s.flag Reg.DPR_STATUS 9
          let (safe, s) := if enc then s.bufProtected fl.d b else (true, s)
          if !safe then .next (s.captureDrop.rec0 0x1004 0x33 1 s.srcCount 0)
          else
            let base := fl.d.srcAddr b
            let (r, s) := (captureRows fl.d (s.fld Reg.DPR_STATUS 8 6) f.px).foldl (fun (r, s) (off, bs) =>
              match r with
              | some e => (some e, s)
              | none => s.vwrite .display fl.d.ctx (base + off) 2 (full bs) false true) ((none : Option VFail), s)
            match r with
            | some e => .next (s.accessFault fl.d.ctx 0x33 .write e none).captureDrop
            | none => .next (s.flowArrive b (if enc then 1 + s.fld Reg.DPR_STATUS 10 10 else 0))

/-- SOURCE_HOLD_TIMEOUT (R233): no source has arrived by T_s / 2 after an expected arrival. -/
def execSourceHoldTimeout (s : State) : Ans :=
  match s.flow with
  | none => .next s
  | some fl =>
    let (e, half) := s.arrivalError fl ((s.srcCount + 1) % 2 ^ 32) s.time
    if s.dispRuns ∧ s.ffState = 2 ∧ half ≤ e then .next (s.setFfState 3) else .next s

/-- SOURCE_TIMEOUT (R233): no source has arrived for SRC_TIMEOUT milliseconds. The layer is disabled with the next fetch
deadline; the next arrival locks anew. -/
def execSourceTimeout (s : State) : Ans :=
  match s.flow with
  | none => .next s
  | some fl =>
    if s.dispRuns ∧ 1 ≤ s.ffState ∧ s.ffState ≤ 3 ∧ fl.lastArrival + us (1000 * fl.d.srcTimeout) ≤ s.time then
      .next ((s.updFlow (fun fl => { fl with first := none, mapped := none, old := none, noPrev := true })).setFfState 4).flowSettle
    else .next s

/-- GATE_TIMEOUT (R242): a signature operation has not completed 1 ms after it was queued: it is cancelled, and its source runs
ungated. -/
def execGateTimeout (s : State) : Ans :=
  match s.flow with
  | none => .next s
  | some fl =>
    match fl.invs.find? (fun i => i.kind == .sign && i.status == .queued && i.at_ + us 1000 ≤ s.time) with
    | none => .next s
    | some i =>
      let s := { s with gfx := { s.gfx with units := s.gfx.units.filter (fun u => !(u.q == fl.d.queue && u.seq == i.seq)) } }
      let s := s.updUnit fl.d.queue i.seq (fun w => { w with started := w.started <|> some s.time, entries := 0 })
      let s := { s with sched := { s.sched with stalled := s.sched.stalled.filter (fun e => !(e.q == fl.d.queue && e.seq == i.seq)) } }
      let s := ((s.completeUnit fl.d.queue i.seq 3 0).updStatus fl.d.queue).invEnded i 3 s.time
      .next s.flowSettle

/-! ## The rows through which invocations start and end -/

/-- Start a unit of a queue (DISPATCH_START, R343, R347). QUEUE holds a flow's invocation until its gate map is written (R242);
a signature operation of the flow goes to the sequencer. -/
def execDispatchStart (q : Fin 64) (s : State) : Ans :=
  let head := (s.queue q.val).bind (fun u => u.units.find? (fun w => w.started.isNone))
  let mine : Option Invocation := match s.flow, head with
    | some fl, some w => if fl.d.queue = q.val then fl.invs.find? (fun i => i.status == .queued && i.seq == w.seq) else none
    | _, _ => none
  match s.flow, mine, s.queue q.val with
  | some fl, some i, some u =>
    let src := if i.kind = .mf ∨ i.kind = .fg then (i.k + 1) % 2 ^ 32 else i.k
    if i.kind = .sign then
      let may := s.uncRuns && s.qState q.val == 1 && s.fld (Reg.CPR_CTX_STATUS u.ctx) 1 0 == 1 && s.sched.quench.isNone && u.inflight < 16
      if !may then .next s
      else
        let gu : GfxUnit := ⟨q.val, i.seq, u.ctx, u.rt, 0x46, fl.d.signBody (fl.srcBuf i.k) i.buf, [fl.d.sigSlot]⟩
        let s := s.updUnit q.val i.seq (fun w => { w with started := some s.time, limit := s.fld (Reg.SCH_Q_CTRL q.val) 31 16 })
        let s := ({ s with gfx := { s.gfx with units := s.gfx.units ++ [gu] } }.a1Exit.gfxPump)
        .next ((s.flowSync s.time).flowSettle)
    else if fl.sources.any (fun x => x.k == src && x.held) then .next s
    else match s.dispatchStart q with
      | .next s => .next (s.flowSync s.time).flowSettle
      | o => o
  | _, _, _ => s.dispatchStart q

/-- UNIT_RETIRE (R343): the oldest unit of a queue, complete, retires. -/
def execUnitRetire (q : Fin 64) (s : State) : Ans := ((s.flowSync s.time).flowSettle).unitRetire q

/-- QUENCH_COMPLETE (R252, R366, R393, R566). -/
def execQuenchComplete (s : State) : Ans :=
  match s.quenchComplete with
  | .next s => .next s.flowSettle
  | o => o

/-- LADLE_DRAIN (R26, R164): the oldest entry leaves, to the command processor and CC3. -/
def execLadleDrain (s : State) : Ans := .next (s.ladleDrain (fun h s => s.flowSync h.time)).flowSettle

end Sys2Proof.Machine
end

