-- ==== Sys2Proof/Machine/Frame.lean ====
section
/-! DEFINITION. The fetch deadline and the scanned-out line (R26 to R28, R230, R238, R246 to R254, R259): what the video layer
shows, the log, the Whisk, and the composition's, taps' and dimming controller's parts. -/

namespace Sys2Proof.Machine

/-! ## What a frame shows (R246, R247, R251) -/

/-- What the video layer shows in a frame, with PATH and CAUSE of its log record: nothing, the last frame of the flow before an
update, the last completed frame with or without motion, or a frame's own buffer. -/
inductive FramePlan where
  | nothing (cause : Nat)
  | keepOld (d : FlowDesc) (l : ShownFrame)
  | again (l : ShownFrame) (cause : Nat)
  | warp (l : ShownFrame) (field num den : Nat) (cause : Nat)
  | frame (l : ShownFrame) (path cause : Nat) (by_ : Option Invocation)
  deriving DecidableEq, Repr

/-- The invocation that produces the frame at a position: the FG of the frame, or the SR of its source. -/
def Flow.producer (fl : Flow) (j k phase : Nat) : Option Invocation :=
  if fl.d.mode = 2 ∧ phase ≠ 0 then fl.invs.find? (fun i => i.kind == .fg && i.frame == j && i.k == k)
  else fl.invs.find? (fun i => i.kind == .sr && i.k == k)

/-- The distance in source frames from the last completed frame to a position, times P; 0 where the position lies before. -/
def Flow.ahead (fl : Flow) (l : ShownFrame) (k phase : Nat) : Nat := (sdiff k l.k * fl.d.p + phase - l.phase).toNat

/-- R246: frame `j` is not complete. -/
def Flow.notComplete (fl : Flow) (k phase cause : Nat) : FramePlan :=
  match fl.last with
  | none => .nothing 3
  | some l =>
    match fl.whiskField, fl.d.warp && fl.d.mode == 2 && !fl.fallback && !l.direct with
    | some x, true =>
      let n := fl.ahead l k phase
      if 16 * n < fl.d.alphaMax * fl.d.p then .warp l x n fl.d.p cause else .warp l x fl.d.alphaMax 16 cause
    | _, _ => .again l cause

/-- Before frame J0 of an updated flow the old flow's last frame stays (R231); otherwise the layer is disabled. -/
def Flow.noFrame (fl : Flow) : FramePlan := match fl.repeatOld with
  | some (d, l) => .keepOld d l
  | none => .nothing 3

/-- The plan of output frame `j` in a state of the flow (R251). A frame that needs the source which slipped is not complete (R233). -/
def Flow.plan (fl : Flow) (st j : Nat) : FramePlan :=
  if st = 4 then .nothing 3
  else if st = 1 ∨ fl.draining then fl.noFrame
  else match fl.pos j with
    | none => fl.noFrame
    | some (k, phase, true) => fl.notComplete k phase 3
    | some (k, phase, false) =>
      if fl.d.mode = 0 || fl.fallback then
        match fl.sources.find? (fun x => x.k == k) with
        | some x => .frame ⟨k, phase, x.buf, fl.d.srcAddr x.buf, x.prot, true⟩ 1 (if fl.fallback then 6 else 0) none
        | none => fl.notComplete k phase 3
      else match fl.producer j k phase with
        | some i => match i.status with
          | .done => .frame ⟨k, phase, i.buf, fl.d.out.getD i.buf 0, i.prot, false⟩ (if i.kind = .fg then 0 else 1) 0 (some i)
          | .queued => fl.notComplete k phase 1
          | .cancelled => fl.notComplete k phase i.cause
        | none => fl.notComplete k phase 3

/-- PATH and CAUSE (R251). -/
def FramePlan.code : FramePlan → Nat × Nat
  | .nothing c => (4, c)
  | .keepOld _ _ => (3, 3)
  | .again _ c => (3, c)
  | .warp _ _ _ _ c => (2, c)
  | .frame _ p c _ => (p, c)

/-! ## The fetch deadline (R27, R230, R253, R254) -/

/-- An invocation's unit whose last entries the Ladle has taken: its outcome and the last entry's time stamp, which judges the
deadline (R26, R165). -/
def State.takenAt (s : State) (q seq : Nat) : Option (Nat × Nat) :=
  let held := s.sched.ladle.filter (fun h => h.entry.q == q && h.entry.seq == seq)
  match s.unitAt q seq with
  | none => none
  | some w =>
    if w.status.isSome || held.isEmpty || held.length ≠ w.entries then none
    else
      let t := (s.updUnit q seq (fun w => { w with entries := 0 })).unitCheck q seq
      ((t.unitAt q seq).bind (fun w => w.status)).map (fun st => (st / 256, (held.map (fun h => h.time)).foldl max 0))

/-- The invocations whose completion the Ladle took before the deadline are complete, though their entries have not left it. -/
def State.flowTaken (s : State) : State :=
  match s.flow with
  | none => s
  | some fl => (fl.invs.filter (fun i => i.status == .queued && i.kind ≠ .sign)).foldl (fun s i =>
      match s.takenAt fl.d.queue i.seq with
      | some (o, t) => s.invEnded i o t
      | none => s) s

/-- CC3 cancels every invocation that has not started once its cancel deadline has passed (R27). -/
def State.cancelLate (s : State) : State :=
  match s.flow with
  | none => s
  | some fl =>
    let s := (fl.invs.filter (fun i => i.status == .queued && i.kind ≠ .sign && i.cancelAt ≠ 0 && i.cancelAt ≤ s.time)).foldl (fun s i =>
      match s.unitAt fl.d.queue i.seq with
      | some w => if w.started.isNone then s.endAtStart fl.d.queue w 3 0 else s
      | none => s) s
    s.flowSync s.time

/-- CC3 cancels every queued invocation that has not started (R230). -/
def State.cancelQueued (s : State) : State :=
  match s.flow with
  | none => s
  | some fl =>
    let s := (fl.invs.filter (fun i => i.status == .queued)).foldl (fun s i =>
      match s.unitAt fl.d.queue i.seq with
      | some w => if w.started.isNone then s.endAtStart fl.d.queue w 3 0 else s
      | none => s) s
    s.flowSync s.time

/-- Mark the flow's layer as showing a protected frame, or black where the transmitter's authentication does not reach its type
(R292). -/
def State.markProt (s : State) (n prot : Nat) : State :=
  let layer := s.flowLayer n && (s.dspActive.layer n).en
  let block := prot ≠ 0 && layer && s.fld Reg.DPT_STATUS 9 8 < 1 + prot
  let s := (s.setFld (Reg.DSP_LAY_STATUS n) 1 1 (if prot ≠ 0 ∧ layer then 1 else 0)).setFld Reg.DSP_STATUS 16 16 (if block then 1 else 0)
  if prot = 0 || !layer then s
  else { s with disp := { s.disp with prot := (n, prot - 1) :: s.disp.prot, blocked := if block then n :: s.disp.blocked else s.disp.blocked } }

/-- The layer format of a flow's source (R264). -/
def FlowDesc.layerFmt (d : FlowDesc) : Nat := if d.fmt = 0 then 4 else if d.fmt = 1 then 0x41 else 0x40

/-- Put a completed frame in the flow's layer: an output buffer, or a source scaled to the output, which a too small RES
disables (R266). -/
def State.putShown (s : State) (d : FlowDesc) (l : ShownFrame) : State :=
  let lay := s.dspActive.layer d.layer
  let s := s.flowOwns d.layer
  let big := l.direct && (lay.resW < d.srcW || lay.resH < d.srcH)
  let s := if big then s.setFlag Reg.DSP_STATUS 17 else s
  let s := if big then s.hideFrame d.layer
    else if l.direct then s.showFrame d.layer d.ctx d.layerFmt l.addr (d.srcAddr1 l.buf) d.srcPitch d.srcW d.srcH
    else s.showFrame d.layer d.ctx 4 l.addr 0 d.outPitch d.outW d.outH
  s.markProt d.layer l.prot

/-- A lead is observed (R249): WSK_LEAD.MIN keeps the smallest. -/
def State.whiskLead (s : State) (lead : Nat) : State := s.setFld Reg.WSK_LEAD 15 0 (min (s.fld Reg.WSK_LEAD 15 0) lead)

/-- Carry out a plan: the layer, the Whisk, the last completed frame, WSK_FF_STAT0 and 1. A source that is not shown any more is
not read again (R236). -/
def State.doPlan (s : State) (fl : Flow) (p : FramePlan) : State :=
  let d := fl.d
  match p with
  | .nothing _ =>
    let s := s.updFlow (fun fl => { fl with last := fl.last.filter (fun l => !l.direct) })
    ((s.flowOwns d.layer).hideFrame d.layer).markProt d.layer 0
  | .keepOld od l => (s.ffCount 1 1).putShown { od with layer := d.layer } l
  | .again l _ => (s.ffCount 1 1).putShown d l
  | .warp l field n den _ =>
    let s := (s.ffCount 1 1).putShown d { l with addr := if fl.rpNext = 0 then d.rp0 else d.rp1 }
    let space := ((fl.fields.find? (fun f => f.1 == field)).map (fun f => f.2.1)).getD 0
    let w : WhiskRun := ⟨l.addr, d.fieldAddr space, n, den, fl.rpNext, 0, 0, 0, false⟩
    let s := s.updFlow (fun fl => { fl with whisk := some w, rpNext := 1 - fl.rpNext })
    (s.setReg Reg.WSK_STATUS (BitVec.ofNat 32 (1 + 2 * fl.rpNext))).whiskLead 64
  | .frame l _ _ _ => ((s.updFlow (fun fl => { fl with last := some l })).ffCount 0 1).putShown d l

/-- The margin of a frame in µs, signed (R254): deadline minus completion; none where it is not complete. -/
def FramePlan.margin (p : FramePlan) (t : Nat) : Option Int := match p with
  | .frame _ _ _ (some i) => some (((t : Int) - i.at_) / 100)
  | _ => none

/-- Write the log record of frame `j` and signal EVENT (R254). Position fields of a frame without one are free. -/
def State.flowLog (s : State) (fl : Flow) (j : Nat) (p : FramePlan) : State :=
  let d := fl.d
  let (free, s) := s.drawNat
  let (k, w2) := match fl.pos j with
    | some (k, ph, _) => (k, ph + d.p * 65536)
    | none => (free % 2 ^ 32, free / 2 ^ 32 % 65536 + d.p * 65536)
  let (path, cause) := p.code
  let alpha := match p with
    | .warp _ _ n den _ => rneDiv (16 * n) den
    | _ => 0
  let gated := match p with
    | .frame _ _ _ (some i) => i.gated
    | _ => 0
  let margin := match p.margin s.time with
    | some m => wrapInt 32 m
    | none => 2 ^ 31
  let bs := wordBytes [j, k, w2, path + cause * 256 + alpha * 65536, gated, margin] ++ leBytes 8 s.time
  let s := match p.margin s.time with
    | some m => if m < signed 32 (s.reg Reg.WSK_FF_MARGIN).toNat then s.setReg Reg.WSK_FF_MARGIN (BitVec.ofNat 32 (wrapInt 32 m)) else s
    | none => s
  let s := match s.vwrite .command d.ctx (d.log + 32 * (j % 2 ^ d.logLog2)) cc3Class (full bs) false false with
    | (none, s) => s
    | (some f, s) => s.accessFault d.ctx cc3Unit .write f none
  if d.eventEn then s.evtSignal d.event else s

/-- Forget the invocations that no later frame needs. -/
def Flow.prune (fl : Flow) (j : Nat) : Flow :=
  { fl with invs := fl.invs.filter (fun i => i.status == .queued || match i.kind with
      | .fg => decide (0 < sdiff i.frame j)
      | .sr => fl.mapped.isNone || (fl.dependents .sr i.k 0).any (fun f => decide (0 < sdiff f j))
          || fl.anchors.any (fun a => a.k == i.k)
      | _ => false) }

/-- What a flow repeats from the deadline of its stop on (R231): with an update the last completed frame, in the new flow's layer
(DEDUCED, log 59). -/
def Flow.stopRepeat (fl : Flow) : Option (FlowDesc × ShownFrame) := match fl.next, fl.last with
  | some _, some l => some (fl.d, l)
  | some _, none => fl.repeatOld
  | none, _ => none

/-- A flow at the deadline of its stop: it drains, and with an update to another layer it leaves its own. -/
def State.flowStops (s : State) (fl : Flow) : State :=
  let n := (fl.next.map (fun d => d.layer)).getD fl.d.layer
  let s := if n ≠ fl.d.layer then ((s.hideFrame fl.d.layer).markProt fl.d.layer 0).clearFlag (Reg.DSP_LAY_STATUS fl.d.layer) 2 else s
  let f := { fl with stopAtNext := false, draining := true, repeatOld := fl.stopRepeat, d := { fl.d with layer := n } }
  { s with flow := some f }

/-- The flow's part of a fetch deadline (R26 to R30, R230, R231, R246 to R254). After a timing change the flow locks anew
(R263). -/
def State.flowDeadline (s : State) (changed : Bool) : State :=
  match s.flow with
  | none => s
  | some _ =>
    let s := (s.countWrap Reg.WSK_FF_OUT_COUNT 31 0 1).setFld Reg.WSK_STATUS 0 0 0
    let s := s.updFlow (fun fl => { fl with whisk := none })
    let s := if changed && 1 ≤ s.ffState && s.ffState ≤ 3 then
        (s.updFlow (fun fl => { fl with first := none, mapped := none, old := none, noPrev := true, onlySr := true })).setFfState 1
      else s
    let s := s.flowTaken.cancelLate
    match s.flow with
    | none => s
    | some fl =>
      let j := s.outCount
      if fl.stopAtNext then
        let s := s.flowStops fl
        match s.flow with
        | none => s
        | some fl => (((s.doPlan fl fl.noFrame).flowLog fl j fl.noFrame).cancelQueued).flowSettle
      else
        let p := fl.plan s.ffState j
        let keeps := match p with
          | .keepOld .. => true
          | _ => false
        let s := (s.doPlan fl p).flowLog fl j p
        (s.updFlow (fun fl => { fl.prune j with repeatOld := if keeps then fl.repeatOld else none })).flowSettle

/-- FETCH_DEADLINE (R259): 64 line times before active scanout. -/
def execFetchDeadline (s : State) : Ans :=
  if !(s.dispRuns && s.disp.running) then .next s
  else
    let at_ := s.dspActive.vTotal - 64
    let s := if s.fld Reg.DSP_LINE 12 0 = at_ then s else s.ldmSyncLine at_
    let (changed, s) := s.dspDeadline
    let s := if changed then s.dptTiming else s
    let s := { s with disp := { s.disp with fetchAt := s.time } }
    let m := s.dspActive
    let s := s.flowDeadline changed
    let s := s.ldmDeadline changed
    let s := (s.tapStart 0).tapStart 1
    let s := s.setFld Reg.DSP_LINE 12 0 (m.vTotal - 64)
    .next (if m.outEn then s.frameData else { s with disp := { s.disp with running := false } })

/-! ## The Whisk (R248 to R250) -/

/-- A coordinate against the tile centres, in sixty-fourths of a tile: the tile to its left and the weight of the next. -/
def tileCoord (x tiles : Nat) : Nat × Nat :=
  let c := min (max (2 * x + 1) 32) (64 * (tiles - 1) + 32) - 32
  (c / 64, c % 64)

/-- One component of a vector: unknown motion reads 0. -/
def vecPart (w hi lo : Nat) : Int := if bits w hi lo = 0x8000 then 0 else signed 16 (bits w hi lo)

/-- The motion at a pixel, times 4,096, in sixteenths of a pixel (R248 step 2): `word` gives the field's vectors. -/
def motionAt (word : Nat → Nat) (tx ty x y hi lo : Nat) : Int :=
  let (cx, fx) := tileCoord x tx
  let (cy, fy) := tileCoord y ty
  let known (w : Nat) : Nat := if bits w 15 0 = 0x8000 ∨ bits w 31 16 = 0x8000 then 0 else w
  let v (a b : Nat) : Int := vecPart (known (word (min b (ty - 1) * tx + min a (tx - 1)))) hi lo
  ((v cx cy * (64 - fx : Nat) + v (cx + 1) cy * fx) * (64 - fy : Nat) + (v cx (cy + 1) * (64 - fx : Nat) + v (cx + 1) (cy + 1) * fx) * fy)

/-- The displaced sampling position of one dimension in sixteenths, less half a pixel (R248 steps 3 and 4). -/
def warpPos (x size : Nat) (motion4096 : Int) (num den : Nat) : Nat :=
  let d := max (-8192) (min 8192 (rneInt (motion4096 * num) (4096 * den)))
  let q := max 8 (min (16 * (size : Int) - 8) (16 * x + 8 - d))
  (q - 8).toNat

/-- One re-projected pixel (R248): `px` gives frame c's pixels. -/
def warpPx (px : Nat → Nat → Nat) (word : Nat → Nat) (d : FlowDesc) (w : WhiskRun) (x y : Nat) : Nat :=
  let qx := warpPos x d.outW (motionAt word d.tilesX d.tilesY x y 15 0) w.alphaN w.alphaD
  let qy := warpPos y d.outH (motionAt word d.tilesX d.tilesY x y 31 16) w.alphaN w.alphaD
  let (ix, fx) := (qx / 16, qx % 16)
  let (iy, fy) := (qy / 16, qy % 16)
  let x1 := min (ix + 1) (d.outW - 1)
  let y1 := min (iy + 1) (d.outH - 1)
  let ch (hi lo : Nat) : Nat :=
    let p (a b : Nat) : Nat := bits (px a b) hi lo
    rneDiv ((p ix iy * (16 - fx) + p x1 iy * fx) * (16 - fy) + (p ix y1 * (16 - fx) + p x1 y1 * fx) * fy) 256
  ch 9 0 + ch 19 10 * 2 ^ 10 + ch 29 20 * 2 ^ 20 + 3 * 2 ^ 30

/-- The Whisk's read or write failed: it stops, and R250 covers the lines that remain. -/
def State.whiskStop (s : State) (c : Nat) (access : AccessKind) (f : VFail) : State :=
  ((s.recordFail c 0x31 1 access f).clearFlag Reg.WSK_STATUS 0).updFlow
    (fun fl => { fl with whisk := fl.whisk.map (fun w => { w with stopped := true }) })

/-- Read rows for the Whisk, L2 class 1. -/
def State.whiskRows (s : State) (c : Nat) (rows : List (Nat × Nat)) (n : Nat) : Option VFail × List (Nat × List Byte) × State :=
  rows.foldl (fun (f, acc, s) (key, a) => match f with
    | some f => (some f, acc, s)
    | none => match s.vread .display c a n 1 false true with
      | (.fail e, s) => (some e, acc, s)
      | (.ok b _, s) => (none, acc ++ [(key, b)], s)) (none, [], s)

/-- The Whisk writes its next line. -/
def State.whiskLine (s : State) : State :=
  match s.flow with
  | none => s
  | some fl =>
    match fl.whisk with
    | none => s
    | some w =>
      let d := fl.d
      let y := w.lines
      let (cy, _) := tileCoord y d.tilesY
      let ty := [cy, min (cy + 1) (d.tilesY - 1)].dedup
      match s.whiskRows d.ctx (ty.map (fun t => (t, w.field + 4 * d.tilesX * t))) (4 * d.tilesX) with
      | (some f, _, s) => s.whiskStop d.ctx .read f
      | (none, vs, s) =>
        let word (i : Nat) : Nat := wordAt ((Sparse.find vs (i / d.tilesX)).getD []) (4 * (i % d.tilesX))
        let rows := ((List.range d.outW).flatMap (fun x =>
          let r := warpPos y d.outH (motionAt word d.tilesX d.tilesY x y 31 16) w.alphaN w.alphaD / 16
          [r, min (r + 1) (d.outH - 1)])).dedup
        match s.whiskRows d.ctx (rows.map (fun r => (r, w.src + r * d.outPitch))) (4 * d.outW) with
        | (some f, _, s) => s.whiskStop d.ctx .read f
        | (none, ps, s) =>
          let px (a b : Nat) : Nat := wordAt ((Sparse.find ps b).getD []) (4 * a)
          let bs := (List.range d.outW).flatMap (fun x => leBytes 4 (warpPx px word d w x y))
          match s.vwrite .display d.ctx ((if w.rp = 0 then d.rp0 else d.rp1) + y * d.outPitch) 1 (full bs) false true with
          | (some f, s) => s.whiskStop d.ctx .write f
          | (none, s) =>
            let s := s.updFlow (fun fl => { fl with whisk := some { w with lines := y + 1 } })
            let first := if y + 1 = d.outH then d.outH else (y + 1) / 32 * 32
            (s.setFld Reg.WSK_STATUS 28 16 first).setFld Reg.WSK_STATUS 0 0 (if y + 1 < d.outH then 1 else 0)

/-- The first line of the re-projection that is not published (R249). -/
def WhiskRun.published (w : WhiskRun) (h : Nat) : Nat := if h ≤ w.lines then h else w.lines / 32 * 32

/-- One line time of the Whisk's work (R249): H_TOTAL pixels at the pixel clock, less those it lost. WSK_LEAD.MIN takes the lead
when scanout reaches the first line of a slice, where R249's bound of 64 lines holds for whole slices (DEDUCED, log 56). -/
def State.whiskTime (s : State) (y stall : Nat) : State :=
  match s.flow with
  | none => s
  | some fl =>
    match fl.whisk with
    | none => s
    | some w =>
      let pix := w.pix + (s.dspActive.hTotal - stall)
      let n := if w.stopped then 0 else min (pix / fl.d.outW) (fl.d.outH - w.lines)
      let s := s.updFlow (fun fl => { fl with whisk := some { w with pix := pix - n * fl.d.outW } })
      let s := (List.range n).foldl (fun s _ => match s.flow.bind Flow.whisk with
        | some w => if w.stopped then s else s.whiskLine
        | none => s) s
      match s.flow.bind Flow.whisk with
      | none => s
      | some w =>
        let m := s.dspActive
        let line : Int := if y < m.vActive then (y : Int) else (y : Int) - m.vTotal
        if w.published fl.d.outH < fl.d.outH ∧ line % 32 = 0 then s.whiskLead ((w.published fl.d.outH : Int) - line).toNat else s

/-- Whether the composition takes line `y` of the flow's layer from frame c, because the Whisk has not published it. -/
def State.behind (s : State) (y : Nat) : Option (Nat × Nat) :=
  match s.flow with
  | none => none
  | some fl => match fl.whisk with
    | none => none
    | some w => if w.published fl.d.outH ≤ y && s.flowLayer fl.d.layer then some (fl.d.layer, w.src) else none

/-- Count a line taken under R250; record 0x0601 is written with the frame's last line. -/
def State.behindCount (s : State) (y : Nat) (b : Bool) : State :=
  let s := if b then
      (s.countSat Reg.WSK_LEAD 31 16 1).updFlow (fun fl => { fl with whisk := fl.whisk.map (fun w => { w with behind := w.behind + 1 }) })
    else s
  match s.flow.bind Flow.whisk with
  | some w => if y + 1 = s.dspActive.vActive ∧ w.behind ≠ 0 then s.rec0 0x0601 0x31 0 s.outCount w.behind else s
  | none => s

/-- SCANOUT_LINE (R259): the next line of the output timing; an active one is composed and sent. -/
def execScanoutLine (e : LineEvents) (s : State) : Ans :=
  if !(s.dispRuns && s.disp.running) then .next s
  else
    let m := s.dspActive
    let y := (s.fld Reg.DSP_LINE 12 0 + 1) % max 1 m.vTotal
    let s := s.setFld Reg.DSP_LINE 12 0 y
    let s := s.whiskTime y e.stall
    let s := s.ldmSyncLine y
    if m.vActive ≤ y then .next s
    else
      let b := s.behind y
      let base (l : LayCfg) : Nat := match b with
        | some (n, a) => if l.n = n then a else l.addr0
        | none => l.addr0
      let (blended, out, s) := s.composeLine y base e
      let s := s.behindCount y b.isSome
      let s := e.tapFull.foldl (fun s t => s.tapDrop t.val) s
      let s := (s.tapLine 0 y blended out).tapLine 1 y blended out
      let s := s.ldmLine y blended
      let (link, s) := s.lineLink
      .next (s.emit (.pixels y (outputCodes (m.fld Reg.DSP_OUT_CTRL 1 0) (m.fld Reg.DSP_OUT_CTRL 2 2 == 1) out) link))

end Sys2Proof.Machine
end

