-- ==== Sys2Proof/Machine/RegRead.lean ====
section
/-! DEFINITION. Reads of BAR0 registers (R9 to R14): values formed at the read, shadow copies of 64-bit registers, fields that clear when
read, the capability table, and REG_READ over I²C. -/

namespace Sys2Proof.Machine

/-! ## Which paths reach a register (R509, R516, R517, R575) -/

/-- Whether the block of an address is in the DISP domain: DSP, WSK, LDM, DPR, DPT. -/
def displayBlock (b : Nat) : Bool := 0x0E ≤ b && b ≤ 0x12

/-- Whether the host reaches a block before the start has finished: GLB, HIF, ERR, CFG. -/
def earlyBlock (b : Nat) : Bool := b == 0x00 || b == 0x01 || b == 0x0C || b == 0x13

/-- Whether a requester path reaches the register at an address now. One it does not reach reads 0 and ignores writes. -/
def State.reaches (s : State) (p : Path) (a : Nat) : Bool :=
  let b := a / 0x10000
  match p with
  | .jtag => b == 0x14 && s.uncOn
  | .i2c => b == 0x0D || (s.uncOn && (b == 0x00 || b == 0x0C))
  | _ =>
    if b == 0x0D && decide (p = Path.hearth) then true
    else s.uncOn && (decide (p ≠ Path.host) || earlyBlock b || s.booted) && (!displayBlock b || s.dispOn)
      && !(0x400000 ≤ a && bit s.boot.fence ((a - 0x400000) / 0x10000))

/-! ## Values formed at the read -/

/-- The operation of a signature or flag-resolve unit (R216, R218) whose raster back end on a cluster has not yet had its entry taken by
the Ladle: its context. -/
def State.maintShown (s : State) (k : Nat) : Option Nat :=
  ((s.sched.stalled ++ s.sched.closing).find? (fun e => e.unit == 0x10 + k && e.src == 4 && (match s.unitAt e.q e.seq with
    | some w => (match w.kind with
      | .maint op _ => op == 0x46 || op == 0x47
      | _ => false)
    | none => false))).map (fun e => s.ctxOfQueue e.q)

/-- CLU_RAS_STATUS of a cluster (R222): the pass that runs on it, its phase and its tiles in flight; else the signature or flag-resolve
operation on it. A cluster in rendering whose tiles all wait to be stored is storing; one that takes no part in the pass (R177) is
idle. -/
def State.rasStatus (s : State) (k : Nat) : Nat :=
  let pass := (s.gfx.passes.find? (fun p => p.run)).bind (fun p =>
    let ts := p.tiles.filter (fun t => t.cluster == k)
    let phase := if p.suspended.contains k then 4
      else if !s.inGraphics k || s.tileBuffers k p.desc == 0 then 0
      else if p.partial_ then 5
      else match p.phase with
        | .render => if !ts.isEmpty && ts.all (fun t => t.prims.isEmpty && t.cur.isNone) then 3 else 2
        | .done => 0
        | _ => 1
    if phase = 0 then none else some (phase + p.ctx * 2 ^ 8 + ts.length * 2 ^ 16))
  match pass, s.maintShown k with
  | some v, _ => v
  | none, some c => 6 + c * 2 ^ 8
  | none, none => 0

/-- A ring counter (R171): rings 0 to 15 of the normal-region kernel, 16 to 31 of the real-time kernel; 0 when no kernel holds it. -/
def State.ringCount (s : State) (k i : Nat) (free : Bool) : Nat :=
  match (s.cluster k).scratch.find? (fun x => x.rt == decide (16 ≤ i) && (Sparse.find x.rings (i % 16)).isSome) with
  | some x => if free then (x.ring (i % 16)).free else (x.ring (i % 16)).fill
  | none => 0

/-- A register of a cluster window. -/
def State.liveCluster (s : State) (a : Nat) : Nat :=
  let k := (a - 0x400000) / 0x10000
  let o := a % 0x10000
  if 0x100 ≤ o ∧ o < 0x200 ∧ o % 0x40 = 0x28 then
    let c := s.core (4 * k + (o - 0x100) / 0x40)
    c.groups.length + c.blocks.length * 2 ^ 16
  else if 0x400 ≤ o ∧ o < 0x500 then s.ringCount k ((o - 0x400) / 8) (decide (o % 8 = 4))
  else if o = 0x500 then s.rasStatus k
  else (s.reg a).toNat

/-- DBG_STATUS (R577, R581). -/
def State.dbgStatus (s : State) : Nat :=
  let st := if s.dbg.lockedOut then 3 else if s.dbg.scope ≠ 0 then 2 else if s.challenge.isSome then 1 else 0
  st + s.dbg.scope * 2 ^ 4 + min 3 s.dbg.fails * 2 ^ 8 + (if s.debugDis then 2 ^ 10 else 0) + (if s.keysHeld then 2 ^ 11 else 0)
    + (if s.flag Reg.DBG_STATUS 13 then 2 ^ 13 else 0)

/-- The capability table (R367, R368): keys and values, ended by key 0. -/
def State.capTable (s : State) : List (Nat × Nat) :=
  [(0x0001, 0x3042), (0x0002, s.boot.version), (0x0010, 12), (0x0011, 48), (0x0012, 1500000), (0x0013, 4194304),
   (0x0020, dramUnits * 2 ^ 29), (0x0021, 16), (0x0030, 32), (0x0031, 64), (0x0032, 4), (0x0033, 4096), (0x0034, 16), (0x0035, 64),
   (0x0036, 32), (0x0037, 64), (0x0038, 4096), (0x0039, 8), (0x003A, 22806528), (0x0040, s.hif.hostAtomic),
   (0x0041, 2 ^ s.hif.bar2Log2), (0x0042, 64), (0x0050, 4), (0, 0)]

/-- A word of the capability table, if the address lies in it. -/
def State.capWord (s : State) (a : Nat) : Option Nat :=
  let c := captabBase
  if c ≤ a ∧ a < c + 16 * capRecords then
    let r := s.capTable.getD ((a - c) / 16) (0, 0)
    some (match (a - c) % 16 / 4 with
      | 0 => r.1
      | 2 => r.2 % 2 ^ 32
      | 3 => r.2 / 2 ^ 32 % 2 ^ 32
      | _ => 0)
  else none

/-- What a register reads as, its clearing apart. -/
def State.live (s : State) (a : Nat) : Nat :=
  if 0x400000 ≤ a then s.liveCluster a
  else if a = Reg.GLB_TIME_LO then s.time % 2 ^ 32
  else if a = Reg.GLB_TIME_HI then s.time / 2 ^ 32
  else if Reg.SCH_Q_CTRL 0 ≤ a ∧ a < Reg.SCH_Q_CTRL 64 ∧ a % 16 = 4 then
    setBits (s.reg a).toNat 9 9 (if s.placeable ((a - Reg.SCH_Q_CTRL 0) / 16) then 1 else 0)
  else if a = Reg.DBG_STATUS then s.dbgStatus
  else if Reg.DBG_CHAL 0 ≤ a ∧ a < Reg.DBG_CHAL 8 then s.challenge.getD 0 / 2 ^ (8 * (a - Reg.DBG_CHAL 0)) % 2 ^ 32
  else if Reg.DBG_RESP 0 ≤ a ∧ a < Reg.DBG_RESP 8 then 0
  else (s.reg a).toNat

/-! ## What a read does (R10, R11, R450) -/

/-- The fields that clear on a read take their reset values (R11); PEAK of the Ladle and of a channel take the current OCC. -/
def State.readClears (s : State) (a : Nat) : State :=
  match regRow a with
  | none => s
  | some r => r.fields.foldl (fun s f => match f.acc with
    | .rc =>
      let v := if a = Reg.L2C_LADLE_STATUS ∨ (0x0A0400 ≤ a ∧ a < 0x0A0500 ∧ a % 16 = 12) then s.fld a 8 0 else bits (regReset a).toNat f.hi f.lo
      s.setFld a f.hi f.lo v
    | _ => s) s

/-- The end of a mailbox that a path stands for. -/
def pathAgent (p : Path) : Option Agent :=
  match p with
  | .host => some .host
  | .cc0 => some .cp
  | .cc1 => some .cp
  | .cc2 => some .cc2
  | .cc3 => some .cc3
  | .hearth => some .hearth
  | _ => none

/-- The mailbox whose DATA register an address is. -/
def mailboxAt (a : Nat) : Option Nat :=
  if Reg.HIF_MB_DATA_IN 0 ≤ a ∧ a < Reg.HIF_MB_DATA_IN 8 ∧ a % 8 = 0 then some ((a - Reg.HIF_MB_DATA_IN 0) / 8) else none

/-- The receiver's read of a mailbox clears FULL. -/
def State.readTakes (s : State) (p : Path) (a : Nat) : State :=
  match mailboxAt a with
  | some m => if pathAgent p = some (mbReceiver m) then s.mbTake m else s
  | none => s

/-- The shadow copy of a path for a low word's address. -/
def State.shadow (s : State) (p : Path) (lo : Nat) : Option Word :=
  (s.shadows.find? (fun x => decide (x.1 = p) && x.2.1 == lo)).map (fun x => x.2.2)

/-- Unlist a shadow copy. -/
def State.dropShadow (s : State) (p : Path) (lo : Nat) : State :=
  { s with shadows := s.shadows.filter (fun x => !(decide (x.1 = p) && x.2.1 == lo)) }

/-- A read of the low word of a 64-bit register captures its high word for the path (R10). -/
def State.readShadows (s : State) (p : Path) (a : Nat) : State :=
  if isLowWord a then
    let s' := s.dropShadow p a
    { s' with shadows := s'.shadows ++ [(p, a, BitVec.ofNat 32 (s.live (a + 4)))] }
  else s

/-- One aligned 32-bit read by a path: the word, and what the read does. A high word returns the shadow copy that a read of the low
word left, which that read uses up (DEDUCED, log entry 81). -/
def State.regRead (s : State) (p : Path) (a : Nat) : Word × State :=
  if a % 4 ≠ 0 || !s.reaches p a then (0, s)
  else if (regRow a).isNone then (BitVec.ofNat 32 ((s.capWord a).getD 0), s)
  else match (if 4 ≤ a ∧ isLowWord (a - 4) then s.shadow p (a - 4) else none) with
    | some v => (v, s.dropShadow p (a - 4))
    | none =>
      let v := BitVec.ofNat 32 (s.live a)
      (v, ((s.readShadows p a).readClears a).readTakes p a)

/-- A read that a path makes; the word goes out. No path but the Hearth's and I²C's reads while the UNC domain is off. -/
def State.pathRead (s : State) (p : Path) (a : Nat) : State :=
  if !s.uncOn && decide (p ≠ Path.hearth) then s
  else
    let (v, s) := s.regRead p a
    s.emit (.readData p v)

/-- RC_FIELD_READ (R11). -/
def execRcFieldRead (p : Path) (a : BitVec 25) (s : State) : Ans := .next (s.pathRead p a.toNat)

/-- LOW_WORD_SHADOW_READ (R10). -/
def execLowWordShadowRead (p : Path) (a : BitVec 25) (s : State) : Ans := .next (s.pathRead p a.toNat)

/-! ## REG_READ (R456) -/

/-- REG_READ over I²C: a register of the GLB, ERR or PWR block; status 1 for GLB and ERR in S1 and S3. An offset outside those blocks is
refused with a reason byte that no table gives, a free value (log entry 82). -/
def execRegRead (r : I2cRequest) (s : State) : Ans :=
  .next (s.i2cRun 6 4 r (fun bs s =>
    let a := leNat bs
    let b := a / 0x10000
    if b ≠ 0x00 ∧ b ≠ 0x0C ∧ b ≠ 0x0D then
      let (n, s) := s.drawNat
      ([3, BitVec.ofNat 8 n], s)
    else if b ≠ 0x0D ∧ !s.uncOn then ([1], s)
    else
      let (v, s) := s.regRead .i2c a
      (0 :: leBytes 4 v.toNat, s)))

end Sys2Proof.Machine
end

