-- ==== Sys2Proof/Machine/RegWrite.lean ====
section
/-! DEFINITION. Writes of BAR0 registers (R11 to R14): fields by their access codes, and what the owning chapters add, block by block; the
JTAG path to the DBG block. -/

namespace Sys2Proof.Machine

/-- The state a meaning leads to; `s` where it stops. -/
def Ans.after (a : Ans) (s : State) : State :=
  match a with
  | .next t => t
  | _ => s

/-! ## Fields by their access codes (R11, R12, R13) -/

/-- One field of a write: the register's new value, and whether the write was ignored under R13. -/
def State.writeField (s : State) (a cur v : Nat) (f : RegField) : Nat × Bool :=
  let x := bits v f.hi f.lo
  let c := bits cur f.hi f.lo
  match f.acc with
  | .rw => (setBits cur f.hi f.lo x, false)
  | .com => (setBits cur f.hi f.lo x, false)
  | .w1c => (setBits cur f.hi f.lo (((BitVec.ofNat 32 c) &&& ~~~(BitVec.ofNat 32 x)).toNat), false)
  | .wo1 =>
    if x = c then (cur, false)
    else if c = bits (regReset a).toNat f.hi f.lo then (setBits cur f.hi f.lo x, false)
    else (cur, true)
  | .rwl r b =>
    if x = c then (cur, false)
    else if s.flag r b then (cur, true)
    else (setBits cur f.hi f.lo x, false)
  | _ => (cur, false)

/-- The fields of a write, lowest row entry first. -/
def State.writeFields (s : State) (a v : Nat) (cur : Nat) : List RegField → Nat × Bool
  | [] => (cur, false)
  | f :: t =>
    let (cur, i) := s.writeField a cur v f
    let (cur, j) := s.writeFields a v cur t
    (cur, i || j)

/-- A write that no chapter gives more than its fields' access codes; a reserved offset ignores it (R14). -/
def State.plainWrite (s : State) (p : Path) (a : Nat) (v : Word) : State :=
  match regRow a with
  | none => s
  | some r =>
    let (w, ignored) := s.writeFields a v.toNat (s.reg a).toNat r.fields
    let s := s.setReg a (BitVec.ofNat 32 w)
    if ignored then s.violation (Path.unitId p) a v.toNat else s

/-- Set consecutive registers to 0. -/
def State.zeroRegs (s : State) (a n : Nat) : State := s.setRegs a (List.replicate n 0)

/-! ## Block by block -/

/-- HIF: mailboxes (R450), the MSI-X table (R447, R448). -/
def State.writeHif (s : State) (p : Path) (a : Nat) (v : Word) : State :=
  match mailboxAt a with
  | some m => if pathAgent p = some (mbSender m) then s.mbPost m v else s
  | none =>
    let s := s.plainWrite p a v
    if Reg.MSIX_TABLE 0 ≤ a ∧ a < Reg.MSIX_TABLE 256 ∧ a % 16 = 12 then s.msixUnmasked ((a - Reg.MSIX_TABLE 0) / 16) else s

/-- CPR_CTXc_CTRL: KILL, and EN by its change (R327, R328, R331). -/
def State.writeCtxCtrl (s : State) (c : Fin 32) (v : Nat) : State :=
  let was := s.flag (Reg.CPR_CTX_CTRL c.val) 0
  if bit v 1 && s.fld (Reg.CPR_CTX_STATUS c.val) 1 0 != 0 then (execCtxKill c s).after s
  else if !was && bit v 0 then (execCtxEnable c s).after s
  else if was && !bit v 0 then (execCtxDisable c s).after s
  else s

/-- CPR_Qq_CTRL: EN by its change (R336, R340). -/
def State.writeQCtrl (s : State) (q : Fin 64) (v : Nat) : State :=
  let was := s.flag (Reg.CPR_Q_CTRL q.val) 0
  if !was && bit v 0 then (execQEnable q s).after s
  else if was && !bit v 0 then (execQDisable q s).after s
  else s

/-- CPR_EVTe_CTRL (R350, R353): the fields, then a reset, then a signal. -/
def State.writeEvt (s : State) (p : Path) (e : Nat) (v : Word) : State :=
  let s := s.plainWrite p (Reg.CPR_EVT_CTRL e) v
  let s := if bit v.toNat 2 then s.evtReset e else s
  if bit v.toNat 1 then s.evtSignal e else s

/-- CPR: enables, kills, events. -/
def State.writeCpr (s : State) (p : Path) (a : Nat) (v : Word) : State :=
  if Reg.CPR_EVT_GEN 0 ≤ a then (if a % 8 = 4 then s.writeEvt p ((a - Reg.CPR_EVT_GEN 0) / 8) v else s)
  else if Reg.CPR_Q_DESC_LO 0 ≤ a ∧ a < Reg.CPR_Q_DESC_LO 64 ∧ a % 16 = 8 then
    s.writeQCtrl (Fin.ofNat 64 ((a - Reg.CPR_Q_DESC_LO 0) / 16)) v.toNat
  else if Reg.CPR_CTX_DESC_LO 0 ≤ a ∧ a < Reg.CPR_CTX_DESC_LO 32 ∧ a % 32 = 8 then
    s.writeCtxCtrl (Fin.ofNat 32 ((a - Reg.CPR_CTX_DESC_LO 0) / 32)) v.toNat
  else s.plainWrite p a v

/-- A write that SCH_STATUS.RANGE_ERR answers. -/
def State.rangeErr (s : State) : State := s.setFlag Reg.SCH_STATUS 16

/-- SCH_GFX_CTRL (R386): at the next pass boundary, which is at once while no pass runs. -/
def State.writeGfxCtrl (s : State) (v : Nat) : State :=
  if bits v 11 0 = 0 ∨ bits v 19 16 = 0 ∨ 12 < bits v 19 16 then s.rangeErr
  else
    let s := s.setReg Reg.SCH_GFX_CTRL (BitVec.ofNat 32 v &&& 0xFF0F0FFF#32)
    if s.gfx.passes.any (fun p => p.run) then s else s.gfxBoundary

/-- SCH_Qq_CTRL (R377, R380, R391): SHARE 0 and RESV above 50 are ignored. -/
def State.writeSchQ (s : State) (q v : Nat) : State :=
  let a := Reg.SCH_Q_CTRL q
  let share := bits v 7 0
  let resv := bits v 14 8
  let s := s.setFld a 31 16 (bits v 31 16)
  let s := if share = 0 then s.rangeErr else s.setFld a 7 0 share
  (if 50 < resv then s.rangeErr else s.setFld a 14 8 resv).reserves

/-- SCH (R381, R384, R386, R392, R398). -/
def State.writeSch (s : State) (p : Path) (a : Nat) (v : Word) : State :=
  let n := v.toNat % 65536
  if a = Reg.SCH_WINDOW then
    if n < 100 ∨ 10000 < n then s.rangeErr
    else { s.setReg a (BitVec.ofNat 32 n) with sched := { s.sched with windowPend := some n } }
  else if a = Reg.SCH_SLICE then (if n < 200 ∨ 50000 < n then s.rangeErr else s.setReg a (BitVec.ofNat 32 n))
  else if a = Reg.SCH_GFX_CTRL then s.writeGfxCtrl v.toNat
  else if a = Reg.SCH_HANG then (if bit v.toNat 31 then s.setReg a 0 else s)
  else if Reg.SCH_Q_CTRL 0 ≤ a ∧ a < Reg.SCH_Q_CTRL 64 ∧ a % 16 = 0 then s.writeSchQ ((a - Reg.SCH_Q_CTRL 0) / 16) v.toNat
  else s.plainWrite p a v

/-- A write that MMU_STATUS.WRITE_IGN answers where it would change the register (R403, R433). -/
def State.writeGuarded (s : State) (p : Path) (a : Nat) (v : Word) (held : Bool) : State :=
  let t := s.plainWrite p a v
  if held then (if t.reg a = s.reg a then s else s.setFlag Reg.MMU_STATUS 0) else t

/-- MMU (R403, R416, R419, R431, R433). -/
def State.writeMmu (s : State) (p : Path) (a : Nat) (v : Word) : State :=
  if Reg.MMU_LAYOUT_CTRL 0 ≤ a ∧ a < Reg.MMU_LAYOUT_CTRL 4 then
    let n := (a - Reg.MMU_LAYOUT_CTRL 0) / 0x20
    if a % 0x20 = 0 then s.layoutWrite n v else s.writeGuarded p a v (s.flag (Reg.MMU_LAYOUT_CTRL n) 0)
  else if Reg.MMU_APER_BASE_LO 0 ≤ a ∧ a < Reg.MMU_APER_BASE_LO 8 then
    s.writeGuarded p a v (s.flag Reg.MMU_APER_EN ((a - Reg.MMU_APER_BASE_LO 0) / 0x10))
  else if a = Reg.MMU_APER_EN then s.aperWrite v
  else if a = Reg.MMU_INVAL_CTRL then s.invalWrite v
  else if a = Reg.MMU_FAULT_STATUS then (if bit v.toNat 31 then s.zeroRegs a 6 else s)
  else s.plainWrite p a v

/-- DMC: the region commit (R478, R479), remap (R474), the scrub's controls (R476, R477). -/
def State.writeDmc (s : State) (p : Path) (a : Nat) (v : Word) : State :=
  if a = Reg.DMC_MAP_CMD then
    if !bit v.toNat 0 then s
    else if s.flag Reg.DMC_LOCK 0 then s.violation (Path.unitId p) a v.toNat
    else s.mapGo
  else if a = Reg.DMC_RMP_CMD then s.rmpCmd v
  else if a = Reg.DMC_SCRUB_CTRL then
    let s := s.setFld a 0 0 (bits v.toNat 0 0)
    let s := if bits v.toNat 15 8 = 0 then s else s.setFld a 15 8 (bits v.toNat 15 8)
    s.setFld Reg.DMC_STATUS 2 2 (if bit v.toNat 0 && s.fld Reg.PWR_STATUS 1 0 == 0 then 0 else 1)
  else s.plainWrite p a v

/-- ERR: the ring's consumer (R559), a Quench (R568), captures that are cleared (R562). -/
def State.writeErr (s : State) (p : Path) (a : Nat) (v : Word) : State :=
  if a = Reg.ERR_RING_RPTR then s.rptrWrite v
  else if a = Reg.ERR_QUENCH then s.errQuench v
  else if a = Reg.ERR_STATUS then
    let s := s.plainWrite p a v
    let s := if bit v.toNat 0 then (s.setFld a 15 8 0).zeroRegs (Reg.ERR_FIRST 0) 8 else s
    if bit v.toNat 1 then (s.setFld a 23 16 0).zeroRegs (Reg.ERR_FATAL 0) 8 else s
  else s.plainWrite p a v

/-- PWR (R526, R527, R539, R542, R543, R547). -/
def State.writePwr (s : State) (p : Path) (a : Nat) (v : Word) : State :=
  let n := v.toNat
  if a = Reg.PWR_REQ then s.pwrReq v
  else if a = Reg.PWR_CTRL then
    let idle := s.fld a 15 8
    let s := s.plainWrite p a v
    if bits n 15 8 = 0 then s.setFld a 15 8 idle else s
  else if a = Reg.PWR_ALARM_LO then { s with pwr := { s.pwr with alarmLo := some v } }
  else if a = Reg.PWR_ALARM_HI then
    match s.pwr.alarmLo with
    | some lo => { (s.setReg Reg.PWR_ALARM_LO lo).setReg a v with pwr := { s.pwr with alarmLo := none, alarmSet := true } }
    | none => s
  else if a = Reg.PWR_LIMIT then
    s.setReg a (BitVec.ofNat 32 (max 12 (min 40 (bits n 5 0)) + max 10 (min 250 (bits n 15 8)) * 2 ^ 8))
  else if a = Reg.PWR_KWS_CTRL then
    let s := s.plainWrite p a v
    if bit n 1 then { s with pwr := { s.pwr with copy := none } } else s
  else if a = Reg.PWR_STATUS then
    let s := s.plainWrite p a v
    if bit n 16 then s.setReg Reg.PWR_KWS_DET 0 else s
  else s.plainWrite p a v

/-- A register of a layer that the flow owns (R265): the host's writes to its fields are ignored with OWN_ERR; of DSP_LAYn_CTRL the
driver's own fields are written. -/
def State.writeLayer (s : State) (p : Path) (a : Nat) (v : Word) : State :=
  let n := (a - Reg.DSP_LAY_CTRL 0) / 0x100
  if decide (p ≠ Path.host) || !s.flowLayer n then s.plainWrite p a v
  else if a = Reg.DSP_LAY_CTRL n then
    let cur := s.reg a
    let w := maskMerge ownedCtrl cur.toNat v.toNat
    let t := s.plainWrite p a w
    if (cur ^^^ v) &&& BitVec.ofNat 32 ownedCtrl = 0 then t else t.setFlag Reg.DSP_STATUS 7
  else if (ownedRegs n).contains a then s.setFlag Reg.DSP_STATUS 7
  else s.plainWrite p a v

/-- DSP: the commit (R260), coefficients (R298), layers (R265). -/
def State.writeDsp (s : State) (p : Path) (a : Nat) (v : Word) : State :=
  if a = Reg.DSP_COMMIT then (if bit v.toNat 0 then (execDspCommit s).after s else s)
  else if Reg.DSP_COEF 0 ≤ a ∧ a < Reg.DSP_COEF 8192 then
    let i := (a - Reg.DSP_COEF 0) / 4
    (execDspCoefWrite (Fin.ofNat 8 (i / 1024)) (Fin.ofNat 2 (i / 512)) (Fin.ofNat 512 i) v s).after s
  else if Reg.DSP_LAY_CTRL 0 ≤ a ∧ a < Reg.DSP_LAY_CTRL 8 then s.writeLayer p a v
  else s.plainWrite p a v

/-- WSK: flow commands (R229) and source posts (R234). -/
def State.writeWsk (s : State) (p : Path) (a : Nat) (v : Word) : State :=
  if a = Reg.WSK_FF_CMD then
    let op := bits v.toNat 3 1
    let t := s.setReg a (BitVec.ofNat 32 (op * 2))
    if !bit v.toNat 0 then t
    else match op with
      | 1 => (execFfStart s).after s
      | 2 => (execFfStop s).after s
      | 3 => (execFfUpdate s).after s
      | 4 => (execFfClearStats s).after s
      | _ => t.ffDone 0x3F
  else if a = Reg.WSK_FF_SRC_POST then (execSourcePost v s).after s
  else s.plainWrite p a v

/-- LDM (R315 to R317). -/
def State.writeLdm (s : State) (p : Path) (a : Nat) (v : Word) : State :=
  if a = Reg.LDM_CTRL then (if bit v.toNat 0 then execLdmEnable v s else execLdmDisable v s).after s
  else
    let t := s.plainWrite p a v
    if a = Reg.LDM_STATUS ∧ s.ldm.faultPin ∧ s.flag a 3 then t.setFlag a 3 else t

/-- DPT_CTRL (R285, R299): EN by its change, and a training on RETRAIN. -/
def State.writeDpt (s : State) (p : Path) (a : Nat) (v : Word) (k : SinkInfo) : State :=
  if a = Reg.DPT_CTRL then
    let was := s.flag a 0
    let s := (if bit v.toNat 0 then execDptEnable v k s else execDptDisable v s).after s
    if bit v.toNat 8 && was then (execDptRetrain k s).after s else s
  else s.plainWrite p a v

/-- CFG: the flash path (R519, R523). -/
def State.writeCfg (s : State) (p : Path) (a : Nat) (v : Word) : State :=
  if a = Reg.CFG_FL_CMD then s.flashCmd v
  else if Reg.CFG_FL_BUF 0 ≤ a ∧ a < Reg.CFG_FL_BUF 64 then (if s.flag Reg.CFG_FL_STATUS 0 then s else s.plainWrite p a v)
  else s.plainWrite p a v

/-- DBG (R576 to R578, R581). -/
def State.writeDbg (s : State) (p : Path) (a : Nat) (v : Word) : State :=
  if a = Reg.DBG_REQ then s.dbgRequest v
  else if a = Reg.DBG_CTRL then
    let s := if bit v.toNat 0 then s.dbgOpen p else s
    if bit v.toNat 1 then s.dbgClose else s
  else if a = Reg.DBG_OTP_CMD then s.otpCmd v
  else s.plainWrite p a v

/-- A cluster window: Griddle regions (R135), captures that are cleared (R96, R222). -/
def State.writeCluster (s : State) (p : Path) (a : Nat) (v : Word) : State :=
  let k := (a - 0x400000) / 0x10000
  let o := a % 0x10000
  if o = 0x300 then (execGrdRegionWrite (Fin.ofNat 12 k) v s).after s
  else if 0x100 ≤ o ∧ o < 0x200 ∧ o % 0x40 = 0 then (if bit v.toNat 31 then s.zeroRegs a 6 else s)
  else if o = 0x504 then (if bit v.toNat 31 then s.setReg a 0 else s)
  else s.plainWrite p a v

/-- One aligned 32-bit write by a path. `k` is what a sink would answer to a training the write starts. -/
def State.regWrite (s : State) (p : Path) (a : Nat) (v : Word) (k : SinkInfo) : State :=
  if a % 4 ≠ 0 || !s.reaches p a then s
  else if 0x400000 ≤ a then s.writeCluster p a v
  else if 0x020000 ≤ a ∧ a < 0x060000 then
    if a % 0x1000 = 0 then (execDoorbell (Fin.ofNat 64 ((a - 0x020000) / 0x1000)) v s).after s else s
  else match a / 0x10000 with
    | 0x00 => if a = Reg.GLB_RST then s.glbRst v else s
    | 0x01 => s.writeHif p a v
    | 0x06 => s.writeCpr p a v
    | 0x07 => s.writeSch p a v
    | 0x08 => s.writeMmu p a v
    | 0x09 =>
      if a = Reg.L2C_MAINT_CMD then s.maintCmd v
      else if Reg.L2C_WAYMASK 0 ≤ a ∧ a < Reg.L2C_WAYMASK 16 then
        (execL2cWaymaskWrite (Fin.ofNat 16 ((a - Reg.L2C_WAYMASK 0) / 4)) v s).after s
      else s.plainWrite p a v
    | 0x0A => s.writeDmc p a v
    | 0x0B => if a = Reg.CPY_CTRL then s.cpyCmd v else s.plainWrite p a v
    | 0x0C => s.writeErr p a v
    | 0x0D => s.writePwr p a v
    | 0x0E => s.writeDsp p a v
    | 0x0F => s.writeWsk p a v
    | 0x10 => s.writeLdm p a v
    | 0x11 =>
      if a = Reg.DPR_CTRL then (if bit v.toNat 0 then execDprEnable v s else execDprDisable v s).after s else s.plainWrite p a v
    | 0x12 => s.writeDpt p a v k
    | 0x13 => s.writeCfg p a v
    | 0x14 => s.writeDbg p a v
    | _ => s

/-- No sink behind the transmitter: what a write that starts no training assumes. -/
def noSink : SinkInfo := ⟨false, [], 0, false, false, false, [], 0⟩

/-- REGISTER_WRITE (R11). A write of DPT_CTRL that starts a training finds no sink; DPT_ENABLE and DPT_RETRAIN carry what the sink
answers. -/
def execRegisterWrite (p : Path) (a : BitVec 25) (v : Word) (s : State) : Ans := .next (s.regWrite p a.toNat v noSink)

/-- DBGREG (R575): a DBG offset, a read flag and data; the DBG block alone. -/
def execDbgreg (off : BitVec 16) (read : Bool) (v : Word) (s : State) : Ans :=
  let s := s.tap575 0x10
  let a := 0x140000 + off.toNat
  if read then
    let (w, s) := s.regRead .jtag a
    .next (s.emit (.jtag w.toNat))
  else .next (s.regWrite .jtag a v noSink)

end Sys2Proof.Machine
end

