-- ==== Sys2Proof/Machine/Boot.lean ====
section
/-! DEFINITION. The start after the domains are released (R496 to R516): tests, the boot part, CONFIG records, the map commit, DATA
sections; and the last steps of an exit from S1 or S3 (R532 to R534). -/

namespace Sys2Proof.Machine

/-! ## CONFIG records (R498, R500 to R503) -/

/-- What a field's chapter states of its values (R501). -/
inductive FieldRule where
  | any
  | range (min max : Nat)
  | codes (ok : List Nat)
  deriving DecidableEq, Repr

/-- The fields whose chapter states a range or reserved codes: the first address of the register's row, the field's low bit, the rule. -/
def fieldRules : List (Nat × Nat × FieldRule) := [
  (0x400300, 0, .range 0 28), (0x070000, 0, .range 100 10000), (0x070004, 0, .range 200 50000), (0x070008, 16, .range 1 12),
  (0x070100, 0, .range 1 255), (0x070100, 8, .range 0 50), (0x080040, 1, .codes [0, 1, 2]), (0x080200, 1, .codes [0, 1]),
  (0x090000, 1, .codes [1, 2, 3, 4, 5, 6]), (0x0A0040, 0, .range 0 64), (0x0A0100, 1, .codes [0, 1]), (0x0A0200, 8, .range 1 255),
  (0x0B0000, 1, .codes [0, 1]), (0x0D0000, 8, .range 1 255), (0x0D0004, 1, .codes [2, 3]), (0x0D0028, 0, .range 12 40),
  (0x0D0028, 8, .range 10 250), (0x0D0040, 16, .range 0 500)]
  ++ [(0x0E0020, 0, .range 640 7680), (0x0E0028, 0, .range 480 4320), (0x0E0030, 0, .range 0 4800000), (0x0E0038, 0, .codes [0, 1, 2]),
  (0x0E003C, 0, .range 0 55000), (0x0E0200, 2, .codes [0, 1, 2]), (0x0E1000, 1, .codes [0, 1, 2]),
  (0x0E1000, 8, .codes [0x02, 0x03, 0x04, 0x08, 0x40, 0x41]), (0x0F0000, 1, .codes [1, 2, 3, 4]), (0x100000, 5, .codes [0, 1, 2]),
  (0x100008, 0, .range 1 96), (0x100008, 16, .range 1 54), (0x10000C, 16, .range 1 31), (0x100010, 0, .range 2 255),
  (0x10001C, 8, .range 1 64), (0x110000, 1, .codes [0, 1, 2, 3, 4]), (0x110000, 4, .codes [0, 1, 2]),
  (0x120000, 1, .codes [0, 1, 2, 3, 4, 5, 6]), (0x120000, 4, .codes [0, 1, 2]), (0x120008, 0, .range 128 255),
  (0x130004, 1, .codes [0, 1, 2, 3])]

/-- The rule of one field of a register row. -/
def fieldRule (base lo : Nat) : FieldRule :=
  ((fieldRules.find? (fun x => x.1 == base && x.2.1 == lo)).map (fun x => x.2.2)).getD .any

/-- A field's value brought within its rule, and the clamp's KIND; 0 for none. -/
def FieldRule.fit (r : FieldRule) (x reset : Nat) : Nat × Nat :=
  match r with
  | .any => (x, 0)
  | .range lo hi => if x < lo then (lo, 1) else if hi < x then (hi, 2) else (x, 0)
  | .codes ok => if ok.contains x then (x, 0) else (reset, 3)

/-- The place of a record: its section and its index in it. -/
structure RecPlace where
  sect : Nat
  idx : Nat
  deriving DecidableEq, Repr

/-- The check of one field that MASK touches (R501): the word to write, with the entry a change makes. `given` are the record's bits
under MASK, of which a read-only field drops those that are not 0. -/
def State.recordField (s : State) (at_ : RecPlace) (a : Nat) (r : RegRow) (mask given : Word) (w : Nat) (f : RegField) : Nat × State :=
  if bits mask.toNat f.hi f.lo = 0 then (w, s)
  else
    let x := bits w f.hi f.lo
    let g := bits given.toNat f.hi f.lo
    match f.acc with
    | .ro => if g = 0 then (w, s) else (setBits w f.hi f.lo 0, s.clamp 4 at_.sect f.lo at_.idx a g 0)
    | .rc => if g = 0 then (w, s) else (setBits w f.hi f.lo 0, s.clamp 4 at_.sect f.lo at_.idx a g 0)
    | _ =>
      let (y, kind) := (fieldRule r.base f.lo).fit x (bits (regReset a).toNat f.hi f.lo)
      if kind = 0 then (w, s) else (setBits w f.hi f.lo y, s.clamp kind at_.sect f.lo at_.idx a x y)

/-- The bits of a row's fields that a write can reach. -/
def RegRow.fieldMask (r : RegRow) : Word := r.fields.foldl (fun m f => m ||| BitVec.ofNat 32 (setBits 0 f.hi f.lo (2 ^ 32 - 1))) 0

/-- The register and low bit at which a write's check posts its code (R502), and the bits whose rise starts the check. -/
def postedReason (a : Nat) : Option (Nat × Nat × Word) :=
  let within (base stride n : Nat) : Bool := base ≤ a && a < base + stride * n && (a - base) % stride == 0
  if within (Reg.CPR_CTX_CTRL 0) 0x20 32 then some (a + 4, 8, 1)
  else if within (Reg.CPR_Q_CTRL 0) 0x10 64 then some (a + 4, 8, 1)
  else if within (Reg.MMU_LAYOUT_CTRL 0) 0x20 4 then some (Reg.MMU_STATUS, 8, 1)
  else if a = Reg.MMU_APER_EN then some (Reg.MMU_STATUS, 8, 0xFF)
  else if a = Reg.MMU_INVAL_CTRL then some (Reg.MMU_STATUS, 8, 1)
  else if a = Reg.DSP_COMMIT then some (Reg.DSP_STATUS, 8, 1)
  else if a = Reg.LDM_CTRL then some (Reg.LDM_STATUS, 8, 1)
  else if a = Reg.DPR_CTRL then some (Reg.DPR_STATUS, 16, 1)
  else if a = Reg.DPT_CTRL then some (Reg.DPT_STATUS, 16, 0x101)
  else if a = Reg.WSK_FF_CMD then some (Reg.WSK_FF_STATUS, 8, 1)
  else if a = Reg.CPY_CTRL then some (Reg.CPY_STATUS, 8, 1)
  else if a = Reg.DMC_MAP_CMD then some (Reg.DMC_STATUS, 8, 1)
  else if a = Reg.DMC_RMP_CMD then some (Reg.DMC_STATUS, 16, 1)
  else if a = Reg.PWR_REQ then some (Reg.PWR_STATUS, 8, 1)
  else none

/-- GLB_FWCTX names a context that a record enabled (R518). -/
def State.fwCtx (s : State) (a : Nat) (was : Nat) : State :=
  let c := (a - Reg.CPR_CTX_CTRL 0) / 0x20
  if Reg.CPR_CTX_CTRL 0 ≤ a ∧ a < Reg.CPR_CTX_CTRL 32 ∧ was = 0 ∧ s.fld (Reg.CPR_CTX_STATUS c) 1 0 = 1 ∧ a = Reg.CPR_CTX_CTRL c then
    s.setFlag Reg.GLB_FWCTX c
  else s

/-- Whether an offset may not be written by a record (R500). -/
def recordBarred (a : Nat) : Bool := a % 4 != 0 || 2 ^ 25 ≤ a || (0x020000 ≤ a && a < 0x060000) || (0x140000 ≤ a && a < 0x150000)

/-- Apply one REG record (R500 to R502). -/
def State.applyReg (s : State) (at_ : RecPlace) (a : Nat) (mask v : Word) (k : SinkInfo) : State :=
  if recordBarred a then s.clamp 6 at_.sect 0 at_.idx a v.toNat 0
  else match regRow a with
    | none => if v &&& mask = 0 then s else s.clamp 4 at_.sect 0 at_.idx a (v &&& mask).toNat 0
    | some r =>
      let cur : Word := BitVec.ofNat 32 (s.live a)
      let drop := v &&& mask &&& ~~~r.fieldMask
      let s := if drop = 0 then s else
        let lo := (setBitsOf 32 drop.toNat).headD 0
        s.clamp 4 at_.sect lo at_.idx a (drop.toNat / 2 ^ lo) 0
      let w := ((cur &&& ~~~mask) ||| (v &&& mask)) &&& r.fieldMask
      let (n, s) := r.fields.foldl (fun (n, s) f => s.recordField at_ a r mask (v &&& mask) n f) (w.toNat, s)
      let w : Word := BitVec.ofNat 32 n
      let locked := (s.writeFields a n (s.reg a).toNat r.fields).2
      let was := s.fld (a + 4) 1 0
      let s := ((s.regWrite .cc2 a w k).fwCtx a was)
      let s := if locked then s.clamp 6 at_.sect 0 at_.idx a v.toNat 0 else s
      match postedReason a with
      | none => s
      | some (reg, lo, start) =>
        let code := s.fld reg (lo + 7) lo
        if w &&& ~~~cur &&& start = 0 ∨ code = 0 then s else s.clamp 5 at_.sect 0 at_.idx a v.toNat code

/-- Whether an offset lies in the DMC block: such records make up the first pass (R500). -/
def inDmc (a : Nat) : Bool := a / 0x10000 == 0x0A

/-- One record of a CONFIG section in one of the two passes; a PARAM record, or one of an unknown kind, is rejected (R498). -/
def State.applyRecord (s : State) (first : Bool) (at_ : RecPlace) (w0 off mask v : Word) (k : SinkInfo) : State :=
  if bits w0.toNat 7 0 = 2 then (if inDmc off.toNat == first then s.applyReg at_ off.toNat mask v k else s)
  else if first then s
  else s.clamp 6 at_.sect 0 at_.idx off.toNat v.toNat 0

/-- The records of one section up to its END (R498). -/
def State.applySection (first : Bool) (sect : Nat) (k : SinkInfo) : List Word → Nat → State → State
  | w0 :: w1 :: w2 :: w3 :: t, idx, s =>
    if bits w0.toNat 7 0 = 0 then s
    else State.applySection first sect k t (idx + 1) (s.applyRecord first ⟨sect, idx⟩ w0 w1 w2 w3 k)
  | _, _, s => s

/-- One pass over every CONFIG section (R500). -/
def State.applyConfig (s : State) (first : Bool) (k : SinkInfo) : State :=
  s.boot.config.foldl (fun s c => State.applySection first c.1 k c.2 0 s) s

/-! ## Training and tests (R504 to R510) -/

/-- Whether a start that reads the flash is under way with the domains released. -/
def State.starting (s : State) : Bool := s.uncOn && s.fld Reg.GLB_BOOT 1 0 == 0 && s.boot.kind != 2 && s.boot.hearth

/-- Training attempts from a rate on: each mask of failing channels lowers the rate (R504); none at 4,266 MT/s. -/
def State.trainFrom (s : State) (rate : Nat) : List (BitVec 16) → Option Nat × State
  | [] => (some rate, s)
  | m :: t =>
    if m = 0 then (some rate, s)
    else if 4 ≤ rate then (none, s.setFld Reg.DMC_CFG 31 16 (~~~m).toNat)
    else
      let s := (s.clamp 9 0 0 0 0x0001 rate (rate + 1)).rec0 0x0E04 0x21 1 (rate + 1) m.toNat
      s.trainFrom (rate + 1) t

/-- The lowest unused remap entry (R474). -/
def State.freeRemap (s : State) : Option Nat := (List.range 16).find? (fun i => (s.remapLine i).isNone)

/-- One failing line after the map commit (R507). -/
def State.failingLine (s : State) (a : Nat) : State :=
  let e := if s.eccAt a then s.freeRemap else none
  let s := s.rec0 0x0E05 0x21 1 (a % 2 ^ 32) (a / 2 ^ 32)
  match e with
  | some i => s.setReg64 (Reg.DMC_RMP_LO i) (a + 1)
  | none => if s.inFirmware a then s.startStops 3 8 else s

/-- One unprotected region over the whole DRAM (R479). -/
def wholeDram : List Region := [⟨dramUnits, false⟩]

/-- The map of the image is committed; without one, or when it is refused, one unprotected region (R479). -/
def State.bootMap (s : State) : State :=
  let absent := s.pendingMap.all (fun r => r.raw == 0)
  let code := if absent then 0 else s.mapCode
  let s := if code = 0 then s else (s.setFld Reg.DMC_STATUS 15 8 code).clamp 8 0 0 0 Reg.DMC_MAP_CMD 0 code
  let s :=
    if absent || code != 0 then
      let s := (List.range 16).foldl (fun s i => s.setReg (Reg.DMC_RGN_CTRL i) 0) s
      (s.setFld (Reg.DMC_RGN_CTRL 0) 6 0 dramUnits).mapApply wholeDram
    else s.mapApply s.pendingMap
  s.setFlag Reg.DMC_STATUS 3

/-- CC2 locks the map unless MAP_OPEN is 1 (R479, R499). -/
def State.bootLock (s : State) : State := if s.param 0x0003 0 = 1 then s else s.setFlag Reg.DMC_LOCK 0

/-- STATE reads running; GLB_BOOT_US holds the time since the start began (R522); detections that waited are raised (R542). -/
def State.bootRuns (s : State) : State :=
  (((s.setFld Reg.GLB_BOOT 1 0 1).setReg Reg.GLB_BOOT_US (BitVec.ofNat 32 ((s.time - s.boot.begun) / 100))).kwsPump).audioPump

/-- Once training, tests and the boot part are done: the first pass of records, the map commit, failing lines, STATE running (R500, R507,
R514). -/
def State.bootCommit (s : State) : State :=
  if !(s.starting && s.boot.trained && s.boot.tested && s.boot.loaded && (s.boot.selftest || s.param 0x0004 0 == 1)) then s
  else
    let s := s.setFld Reg.GLB_FWRES 4 0 (s.param 0x0002 4)
    let s := ((s.applyConfig true noSink).bootMap).bootLock
    let s := s.boot.failing.foldl (fun s a => s.failingLine a) s
    if s.fld Reg.GLB_BOOT 1 0 = 0 then s.bootRuns else s

/-- TRAINING_COMPLETE (R504): the masks of failing channels of each attempt, and whether a warm start's stored values verified. -/
def execTrainingComplete (fails : List (BitVec 16)) (verified : Bool) (s : State) : Ans :=
  if !s.starting || s.boot.trained then .next s
  else
    let (rate, s) := if s.boot.kind == 1 && verified then (some s.boot.rate, s) else s.trainFrom (s.param 0x0001 0) fails
    match rate with
    | none => .next (s.startStops 3 5)
    | some r =>
      let s := (s.setFld Reg.DMC_CFG 2 0 r).setFld Reg.DMC_CFG 31 16 0xFFFF
      .next ({ s with boot := { s.boot with trained := true, rate := r } }.bootCommit)

/-- Lines by ascending address. -/
def insertLine (a : Nat) : List Nat → List Nat
  | [] => [a]
  | b :: t => if a < b then a :: b :: t else if a = b then b :: t else b :: insertLine a t

/-- DRAM_SELFTEST_COMPLETE (R506, R507): the device physical addresses of the data lines that failing locations count against. -/
def execDramSelftestComplete (lines : List (BitVec 40)) (s : State) : Ans :=
  if !s.starting || s.boot.kind != 0 || !s.boot.trained || s.boot.selftest || s.param 0x0004 0 == 1 then .next s
  else
    let f := lines.foldl (fun l a => insertLine (a.toNat / 128 * 128) l) []
    .next ({ s.setFlag Reg.GLB_BOOT 5 with boot := { s.boot with selftest := true, failing := f } }.bootCommit)

/-- Fence a cluster once, with record 0x0E03 (R505, R509): cause 1 core, 2 Griddle, Tongs or raster. -/
def State.fenceCluster (s : State) (k cause : Nat) : State :=
  if bit s.boot.fence k then s
  else
    { s with boot := { s.boot with
      fence := s.boot.fence + 2 ^ k, parts := if cause = 2 then s.boot.parts + 2 ^ k else s.boot.parts } }.rec0 0x0E03 (0x10 + k) 1 k cause

/-- A repair made at this start. -/
def State.countRepair (s : State) : State := s.countSat Reg.GLB_REPAIR 23 16 1

/-- A core beyond repair: the cluster's spare takes its place, or the cluster is fenced. -/
def State.coreFails (s : State) (k : Nat) : State :=
  if bit s.boot.fence k then s
  else if s.boot.spares.contains k || Config.spareUsed k then s.fenceCluster k 1
  else { s with boot := { s.boot with spares := k :: s.boot.spares } }.countRepair

/-- An L2 way beyond repair is disabled (R510). -/
def State.wayFails (s : State) (w : Nat × Nat) : State :=
  if s.boot.ways.contains w then s
  else { s with boot := { s.boot with ways := s.boot.ways ++ [w] } }.rec0 0x0E07 0x20 0 w.1 w.2

/-- ONCHIP_TEST_COMPLETE (R505, R508 to R510). -/
def execOnchipTestComplete (r : TestResult) (s : State) : Ans :=
  if !s.starting || s.boot.kind != 0 || s.boot.tested then .next s
  else
    let s : State := r.repaired.foldl (fun (s : State) u => (s.rec0 0x0E02 0x04 0 u.toNat 0).countRepair) s
    let s : State := r.cores.foldl (fun (s : State) k => s.coreFails k.val) s
    let s : State := r.parts.foldl (fun (s : State) k => s.fenceCluster k.val 2) s
    let s : State := r.ways.foldl (fun (s : State) w => s.wayFails (w.1.val, w.2.val)) s
    let s : State := { s with boot := { s.boot with tested := true } }
    let s := (s.setFld Reg.GLB_REPAIR 11 0 s.boot.fence).setFld Reg.GLB_REPAIR 15 12 s.boot.ways.length
    let third := (List.range 4).any (fun l => 3 ≤ (s.boot.ways.filter (fun w => w.1 == l)).length)
    -- of several causes the lowest code (DESIGN CHOICE, log entry 91)
    if r.fatal then .next (s.startStops 3 6)
    else if third then .next (s.startStops 3 7)
    else if s.boot.fence % 4096 = 4095 then .next (s.startStops 3 9)
    else .next s.bootCommit

/-! ## The boot part and the DATA sections (R491, R494, R496, R497) -/

/-- A section's digest failed after the release (R494): the slot is invalid, and the start begins again by the warm path from the other
slot with the test results already gained, or ends in recovery. -/
def State.slotFails (s : State) (x : Section) : State :=
  let b := s.boot
  let ran := s.flag Reg.GLB_BOOT 5
  let s := { s with boot := { b with digest := none } }
  let s := s.warmFrom (Sparse.put b.badSlots b.slot x.index)
  let s := { s with boot := { s.boot with selftest := b.selftest || s.boot.selftest, failing := b.failing } }
  if ran then s.setFlag Reg.GLB_BOOT 5 else s

/-- The section types of R491. -/
def knownType (t : Nat) : Bool := [0x01, 0x02, 0x10, 0x20, 0x21, 0x30].contains t

/-- One section of the boot part is taken: control-core memories by broadcast (R497), records, the EDID; an unknown type is skipped. -/
def State.takeSection (s : State) (x : Section) : State :=
  let a := slotBase s.boot.slot + x.off
  match x.type with
  | 0x10 =>
    let put (m : List Host.Cell) (n : Nat) : List Host.Cell := Sparse.merge m (s.flashCells a (n * 2 ^ 19 + x.load) x.len)
    { s with boot := { s.boot with ccMem := (setBitsOf 4 x.bcast).foldl put s.boot.ccMem } }
  | 0x20 =>
    let ws : List Word := (List.range (x.len / 4)).map (fun i => BitVec.ofNat 32 (s.flashWord (a + 4 * i)))
    { s with boot := { s.boot with config := s.boot.config ++ [(x.index, ws)] } }
  | 0x21 => { s with boot := { s.boot with edid := s.flashRange a x.len }, dp := { s.dp with edid := s.flashRange a x.len } }
  | t => if knownType t then s else s.clamp 7 x.index 0 0 0 t 0

/-- BOOT_PART_LOADED (R496, R497): the boot part has been read and its digests are checked. -/
def execBootPartLoaded (s : State) : Ans :=
  if !s.starting || s.boot.loaded then .next s
  else match s.badDigest s.boot.slot (fun x => knownType x.type && x.type != 0x30) with
    | some x => .next (s.slotFails x)
    | none =>
      let s := { s with boot := { s.boot with config := [], edid := [], ccMem := [] } }
      let s := s.boot.sections.foldl (fun s x => s.takeSection x) s
      .next ({ s with boot := { s.boot with loaded := true } }.bootCommit)

/-- The end of the second pass (R500, R570): PROT, GLB_BOOT.CONFIG, CFG_STATUS.DONE; the flow of FLOW_DESC starts (R225, R499). -/
def State.configured (s : State) (k : SinkInfo) : State :=
  let s := ((s.applyConfig false k).setFlag Reg.ERR_LOCK 0).setFlag Reg.GLB_BOOT 6
  let s := s.setFlag Reg.CFG_STATUS 8
  if s.param 0x0007 0 = 0 then s else s.flowStart (s.param 0x0007 0)

/-- One DATA section is written to device DRAM; one that passes the end of DRAM is skipped (log entry 88). -/
def State.takeData (s : State) (x : Section) : State :=
  if s.usable < x.load + x.len then s.clamp 7 x.index 0 0 0 x.type 0
  else s.devWrite 12 x.load ((s.flashRange (slotBase s.boot.slot + x.off) x.len).map some) false

/-- DATA_SECTIONS_LOADED (R496, R500): the DATA sections have been read; the second pass of records follows. `k` is what the sink
answers to a training that a record starts. -/
def execDataSectionsLoaded (k : SinkInfo) (s : State) : Ans :=
  if !s.uncRuns || s.flag Reg.GLB_BOOT 6 || s.boot.kind == 2 then .next s
  else match s.badDigest s.boot.slot (fun x => x.type == 0x30) with
    | some x => .next (s.slotFails x)
    | none => .next (((s.boot.sections.filter (fun x => x.type == 0x30)).foldl (fun s x => s.takeData x) s).configured k)

/-! ## Exit from S1 and S3 (R532 to R534) -/

/-- The S3-exit start (R479, R486, R533): map, remap table and scrub position restored, records of both passes, STATE running. -/
def State.s3Start (s : State) (saved : List (Nat × Word)) (k : SinkInfo) : State :=
  let s := { s with
    regs := Sparse.merge s.regs (saved.filter (fun p => p.1 ≠ Reg.HIF_CTRL)),
    dp := { s.dp with edid := s.boot.edid }, boot := { s.boot with loaded := true } }
  let s := s.setReg Reg.GLB_IMAGE_SEQ (BitVec.ofNat 32 (s.flashWord (slotBase s.boot.slot + 0x14)))
  let s := (s.clearFlag Reg.CFG_STATUS 8).setFld Reg.DMC_CFG 31 16 0xFFFF
  (((s.applyConfig true noSink).bootLock).bootRuns).configured k

/-- The end of an exit: A0, the PCIe function as PERST_N requires, PCIE_WAKE_N under R534, detections raised (R542). -/
def State.exitDone (s : State) (x : ExitRun) (en : Bool) : State :=
  let s := ((s.setFld Reg.PWR_STATUS 1 0 0).setPhase 0).configReset
  let s := { s with pwr := { s.pwr with exit := none, saved := [], idle := 0 }, hif := { s.hif with linkL2 := false } }
  ((s.wakeHost x.source en).kwsPump).audioPump

/-- An exit that found the DRAM contents lost runs a warm start (R545, R595); the PCIe function comes up as after any exit (R533,
R534). -/
def State.lostExit (s : State) (x : ExitRun) : State :=
  let en := if x.target = 3 then bit (Sparse.get s.pwr.saved 0 Reg.HIF_CTRL).toNat 0 else s.flag Reg.HIF_CTRL 0
  let s := (s.warmReset).configReset
  { s with pwr := { s.pwr with saved := [], pinsLost := false }, hif := { s.hif with linkL2 := false } }.wakeHost x.source en

/-- EXIT_STEP_READY (R532): the ready signal of the step under way. -/
def execExitStepReady (k : SinkInfo) (s : State) : Ans :=
  match s.pwr.exit with
  | none => .next s
  | some x =>
    let step := x.step + 1
    let go (s : State) : State := { s with pwr := { s.pwr with exit := some { x with step := step } } }
    match step with
    | 1 => .next (if s.railsBusy .exit then s else go s)
    | 2 => .next (go s)
    | 3 => .next (go { s with dram := { s.dram with selfRefresh := false } })
    | 4 =>
      if s.pwr.pinsLost ∨ (x.target = 3 ∧ s.flag Reg.PWR_STATUS 28) then .next (s.lostExit x)
      else if x.target = 3 then .next (go s.s3Release)
      else .next (go ({ s with uncOn := true, dispOn := true, cluOn := true }.collectHeld))
    | _ =>
      if x.target = 3 then
        let en := bit (Sparse.get s.pwr.saved 0 Reg.HIF_CTRL).toNat 0
        .next ((s.s3Start s.pwr.saved k).exitDone x en)
      else .next (s.exitDone x (s.flag Reg.HIF_CTRL 0))

end Sys2Proof.Machine
end

