-- ==== Sys2Proof/Machine/Dispatch.lean ====
section
/-! DEFINITION. The dispatch: one arm per command, each one call of its meaning. -/

namespace Sys2Proof.Machine

open Sys2Proof

/-- The effect of a command on everything but the queue. -/
def exec (i : Instr) (s : State) : Host.Outcome State Fault Refusal :=
  match i with
  | .registerWrite p a v => Sys2Proof.Machine.execRegisterWrite p a v s
  | .rcFieldRead p a => Sys2Proof.Machine.execRcFieldRead p a s
  | .lowWordShadowRead p a => Sys2Proof.Machine.execLowWordShadowRead p a s
  | .bar0BadSizeAccess isWrite a requester => Sys2Proof.Machine.execBar0BadSizeAccess isWrite a requester s
  | .timeBaseTick => Sys2Proof.Machine.execTimeBaseTick s
  | .fetchDeadline => Sys2Proof.Machine.execFetchDeadline s
  | .scanoutLine e => Sys2Proof.Machine.execScanoutLine e s
  | .tapPublish t => Sys2Proof.Machine.execTapPublish t s
  | .dspCommit => Sys2Proof.Machine.execDspCommit s
  | .dspCoefWrite n bank w v => Sys2Proof.Machine.execDspCoefWrite n bank w v s
  | .ffStart => Sys2Proof.Machine.execFfStart s
  | .ffStop => Sys2Proof.Machine.execFfStop s
  | .ffUpdate => Sys2Proof.Machine.execFfUpdate s
  | .ffClearStats => Sys2Proof.Machine.execFfClearStats s
  | .sourcePost v => Sys2Proof.Machine.execSourcePost v s
  | .dpCaptureFrame f => Sys2Proof.Machine.execDpCaptureFrame f s
  | .sourceHoldTimeout => Sys2Proof.Machine.execSourceHoldTimeout s
  | .sourceTimeout => Sys2Proof.Machine.execSourceTimeout s
  | .gateTimeout => Sys2Proof.Machine.execGateTimeout s
  | .ldmEnable v => Sys2Proof.Machine.execLdmEnable v s
  | .ldmDisable v => Sys2Proof.Machine.execLdmDisable v s
  | .statsPublish failed => Sys2Proof.Machine.execStatsPublish failed s
  | .dutyTagPoll => Sys2Proof.Machine.execDutyTagPoll s
  | .dutyHeld => Sys2Proof.Machine.execDutyHeld s
  | .diagTransfer p => Sys2Proof.Machine.execDiagTransfer p s
  | .statusRead p => Sys2Proof.Machine.execStatusRead p s
  | .statusReadComplete p codes => Sys2Proof.Machine.execStatusReadComplete p codes s
  | .ldFault low => Sys2Proof.Machine.execLdFault low s
  | .dptEnable v k => Sys2Proof.Machine.execDptEnable v k s
  | .dptDisable v => Sys2Proof.Machine.execDptDisable v s
  | .dptRetrain k => Sys2Proof.Machine.execDptRetrain k s
  | .hdcpAuthenticate r => Sys2Proof.Machine.execHdcpAuthenticate r s
  | .hdcpRetry r => Sys2Proof.Machine.execHdcpRetry r s
  | .dptIrqHpd k => Sys2Proof.Machine.execDptIrqHpd k s
  | .dptHpdLowTimeout => Sys2Proof.Machine.execDptHpdLowTimeout s
  | .dptHpdReturn k => Sys2Proof.Machine.execDptHpdReturn k s
  | .dprEnable v => Sys2Proof.Machine.execDprEnable v s
  | .dprDisable v => Sys2Proof.Machine.execDprDisable v s
  | .dprAuxTransaction r => Sys2Proof.Machine.execDprAuxTransaction r s
  | .doorbell q w => Sys2Proof.Machine.execDoorbell q w s
  | .nop p => Sys2Proof.Machine.execNop p s
  | .dispatch p => Sys2Proof.Machine.execDispatch p s
  | .dispatchStart q => Sys2Proof.Machine.execDispatchStart q s
  | .copy p => Sys2Proof.Machine.execCopy p s
  | .copyFill p => Sys2Proof.Machine.execCopyFill p s
  | .eventSignal p => Sys2Proof.Machine.execEventSignal p s
  | .eventSignalReset p => Sys2Proof.Machine.execEventSignalReset p s
  | .eventWait p => Sys2Proof.Machine.execEventWait p s
  | .eventWaitTimeout q => Sys2Proof.Machine.execEventWaitTimeout q s
  | .cond p => Sys2Proof.Machine.execCond p s
  | .loop p => Sys2Proof.Machine.execLoop p s
  | .loopEnd p => Sys2Proof.Machine.execLoopEnd p s
  | .waitMem p => Sys2Proof.Machine.execWaitMem p s
  | .waitMemPoll q => Sys2Proof.Machine.execWaitMemPoll q s
  | .waitMemTimeout q => Sys2Proof.Machine.execWaitMemTimeout q s
  | .writeMem p => Sys2Proof.Machine.execWriteMem p s
  | .indirect p => Sys2Proof.Machine.execIndirect p s
  | .l2Maint p => Sys2Proof.Machine.execL2Maint p s
  | .objSync p => Sys2Proof.Machine.execObjSync p s
  | .slotDefine p => Sys2Proof.Machine.execSlotDefine p s
  | .slotRelease p => Sys2Proof.Machine.execSlotRelease p s
  | .seqSubmit p => Sys2Proof.Machine.execSeqSubmit p s
  | .seqCancel p => Sys2Proof.Machine.execSeqCancel p s
  | .tokenStep p => Sys2Proof.Machine.execTokenStep p s
  | .stepBoundary q => Sys2Proof.Machine.execStepBoundary q s
  | .unitRetire q => Sys2Proof.Machine.execUnitRetire q s
  | .ctxEnable c => Sys2Proof.Machine.execCtxEnable c s
  | .ctxDisable c => Sys2Proof.Machine.execCtxDisable c s
  | .ctxKill c => Sys2Proof.Machine.execCtxKill c s
  | .qEnable q => Sys2Proof.Machine.execQEnable q s
  | .qDisable q => Sys2Proof.Machine.execQDisable q s
  | .evtRegSignal e => Sys2Proof.Machine.execEvtRegSignal e s
  | .evtRegReset e => Sys2Proof.Machine.execEvtRegReset e s
  | .faluAdd x => Sys2Proof.Machine.execFaluAdd x s
  | .faluSub x => Sys2Proof.Machine.execFaluSub x s
  | .faluMul x => Sys2Proof.Machine.execFaluMul x s
  | .faluFma x => Sys2Proof.Machine.execFaluFma x s
  | .faluMin x => Sys2Proof.Machine.execFaluMin x s
  | .faluMax x => Sys2Proof.Machine.execFaluMax x s
  | .faluMov x => Sys2Proof.Machine.execFaluMov x s
  | .faluAbs x => Sys2Proof.Machine.execFaluAbs x s
  | .faluNeg x => Sys2Proof.Machine.execFaluNeg x s
  | .ialuAdd x => Sys2Proof.Machine.execIaluAdd x s
  | .ialuSub x => Sys2Proof.Machine.execIaluSub x s
  | .ialuMul x => Sys2Proof.Machine.execIaluMul x s
  | .ialuMulh x => Sys2Proof.Machine.execIaluMulh x s
  | .ialuMad x => Sys2Proof.Machine.execIaluMad x s
  | .ialuAnd x => Sys2Proof.Machine.execIaluAnd x s
  | .ialuOr x => Sys2Proof.Machine.execIaluOr x s
  | .ialuXor x => Sys2Proof.Machine.execIaluXor x s
  | .ialuNot x => Sys2Proof.Machine.execIaluNot x s
  | .ialuShl x => Sys2Proof.Machine.execIaluShl x s
  | .ialuShr x => Sys2Proof.Machine.execIaluShr x s
  | .ialuOnes x => Sys2Proof.Machine.execIaluOnes x s
  | .ialuLzc x => Sys2Proof.Machine.execIaluLzc x s
  | .ialuXbit x => Sys2Proof.Machine.execIaluXbit x s
  | .cmpf x => Sys2Proof.Machine.execCmpf x s
  | .sel x => Sys2Proof.Machine.execSel x s
  | .flog x => Sys2Proof.Machine.execFlog x s
  | .cvt x => Sys2Proof.Machine.execCvt x s
  | .rcp x => Sys2Proof.Machine.execRcp x s
  | .rsq x => Sys2Proof.Machine.execRsq x s
  | .sqrt x => Sys2Proof.Machine.execSqrt x s
  | .ex2 x => Sys2Proof.Machine.execEx2 x s
  | .lg2 x => Sys2Proof.Machine.execLg2 x s
  | .sin x => Sys2Proof.Machine.execSin x s
  | .cos x => Sys2Proof.Machine.execCos x s
  | .perm x => Sys2Proof.Machine.execPerm x s
  | .tally x => Sys2Proof.Machine.execTally x s
  | .fold x => Sys2Proof.Machine.execFold x s
  | .mma x => Sys2Proof.Machine.execMma x s
  | .mmaX x => Sys2Proof.Machine.execMmaX x s
  | .mmaP x => Sys2Proof.Machine.execMmaP x s
  | .ocvt x => Sys2Proof.Machine.execOcvt x s
  | .unpk x => Sys2Proof.Machine.execUnpk x s
  | .gmemLoad x => Sys2Proof.Machine.execGmemLoad x s
  | .gmemStore x => Sys2Proof.Machine.execGmemStore x s
  | .smemLoad x => Sys2Proof.Machine.execSmemLoad x s
  | .smemStore x => Sys2Proof.Machine.execSmemStore x s
  | .atomAdd x => Sys2Proof.Machine.execAtomAdd x s
  | .atomMin x => Sys2Proof.Machine.execAtomMin x s
  | .atomMax x => Sys2Proof.Machine.execAtomMax x s
  | .atomAnd x => Sys2Proof.Machine.execAtomAnd x s
  | .atomOr x => Sys2Proof.Machine.execAtomOr x s
  | .atomXor x => Sys2Proof.Machine.execAtomXor x s
  | .atomExch x => Sys2Proof.Machine.execAtomExch x s
  | .atomCas x => Sys2Proof.Machine.execAtomCas x s
  | .waitb x => Sys2Proof.Machine.execWaitb x s
  | .markb x => Sys2Proof.Machine.execMarkb x s
  | .barrierDeadlock core block => Sys2Proof.Machine.execBarrierDeadlock core block s
  | .fence x => Sys2Proof.Machine.execFence x s
  | .bra x => Sys2Proof.Machine.execBra x s
  | .split x => Sys2Proof.Machine.execSplit x s
  | .join x => Sys2Proof.Machine.execJoin x s
  | .call x => Sys2Proof.Machine.execCall x s
  | .ret x => Sys2Proof.Machine.execRet x s
  | .exit x => Sys2Proof.Machine.execExit x s
  | .trap x => Sys2Proof.Machine.execTrap x s
  | .yield x => Sys2Proof.Machine.execYield x s
  | .yieldExpire core slot => Sys2Proof.Machine.execYieldExpire core slot s
  | .jvec x => Sys2Proof.Machine.execJvec x s
  | .movs x => Sys2Proof.Machine.execMovs x s
  | .pcvH2d x => Sys2Proof.Machine.execPcvH2d x s
  | .pcvD2h x => Sys2Proof.Machine.execPcvD2h x s
  | .gld x e => Sys2Proof.Machine.execGld x e s
  | .gst x => Sys2Proof.Machine.execGst x s
  | .cwait x => Sys2Proof.Machine.execCwait x s
  | .crel x => Sys2Proof.Machine.execCrel x s
  | .cpost x => Sys2Proof.Machine.execCpost x s
  | .cqry x => Sys2Proof.Machine.execCqry x s
  | .loadResponse core slot op e => Sys2Proof.Machine.execLoadResponse core slot op e s
  | .storeAck core slot op => Sys2Proof.Machine.execStoreAck core slot op s
  | .walkReadResponse walk r => Sys2Proof.Machine.execWalkReadResponse walk r s
  | .tongsNop k rt cmd => Sys2Proof.Machine.execTongsNop k rt cmd s
  | .tongsSeta k rt cmd => Sys2Proof.Machine.execTongsSeta k rt cmd s
  | .tongsAdda k rt cmd => Sys2Proof.Machine.execTongsAdda k rt cmd s
  | .tongsAddr k rt cmd => Sys2Proof.Machine.execTongsAddr k rt cmd s
  | .tongsLoop k rt cmd => Sys2Proof.Machine.execTongsLoop k rt cmd s
  | .tongsEndl k rt cmd => Sys2Proof.Machine.execTongsEndl k rt cmd s
  | .tongsFill k rt cmd => Sys2Proof.Machine.execTongsFill k rt cmd s
  | .tongsDrain k rt cmd => Sys2Proof.Machine.execTongsDrain k rt cmd s
  | .tongsGload k rt cmd => Sys2Proof.Machine.execTongsGload k rt cmd s
  | .tongsGstore k rt cmd => Sys2Proof.Machine.execTongsGstore k rt cmd s
  | .tongsFence k rt cmd => Sys2Proof.Machine.execTongsFence k rt cmd s
  | .tongsEnd k rt cmd => Sys2Proof.Machine.execTongsEnd k rt cmd s
  | .tongsCopyComplete k rt id => Sys2Proof.Machine.execTongsCopyComplete k rt id s
  | .grdRegionWrite k v => Sys2Proof.Machine.execGrdRegionWrite k v s
  | .grdRegionApply k => Sys2Proof.Machine.execGrdRegionApply k s
  | .ladlePost e => Sys2Proof.Machine.execLadlePost e s
  | .ladleDrain => Sys2Proof.Machine.execLadleDrain s
  | .l2FlushAll v => Sys2Proof.Machine.execL2FlushAll v s
  | .l2FlushInvalAll v => Sys2Proof.Machine.execL2FlushInvalAll v s
  | .l2FlushRange v => Sys2Proof.Machine.execL2FlushRange v s
  | .l2FlushInvalRange v => Sys2Proof.Machine.execL2FlushInvalRange v s
  | .l2InvalRange v => Sys2Proof.Machine.execL2InvalRange v s
  | .l2ZeroRange v => Sys2Proof.Machine.execL2ZeroRange v s
  | .l2MaintComplete => Sys2Proof.Machine.execL2MaintComplete s
  | .l2cWaymaskWrite c v => Sys2Proof.Machine.execL2cWaymaskWrite c v s
  | .cpyCopy v => Sys2Proof.Machine.execCpyCopy v s
  | .cpyFill v => Sys2Proof.Machine.execCpyFill v s
  | .copyComplete ch => Sys2Proof.Machine.execCopyComplete ch s
  | .copySuspend q => Sys2Proof.Machine.execCopySuspend q s
  | .gfxPassBegin p => Sys2Proof.Machine.execGfxPassBegin p s
  | .gfxState p => Sys2Proof.Machine.execGfxState p s
  | .gfxDraw p => Sys2Proof.Machine.execGfxDraw p s
  | .gfxDrawIndirect p => Sys2Proof.Machine.execGfxDrawIndirect p s
  | .gfxPassEnd p => Sys2Proof.Machine.execGfxPassEnd p s
  | .tileStore k tile e => Sys2Proof.Machine.execTileStore k tile e s
  | .passComplete => Sys2Proof.Machine.execPassComplete s
  | .gfxTrackClaim p => Sys2Proof.Machine.execGfxTrackClaim p s
  | .gfxTrackInvalidate p => Sys2Proof.Machine.execGfxTrackInvalidate p s
  | .gfxTrackRelease p => Sys2Proof.Machine.execGfxTrackRelease p s
  | .gfxSignSurface p => Sys2Proof.Machine.execGfxSignSurface p s
  | .gfxResolveFlags p => Sys2Proof.Machine.execGfxResolveFlags p s
  | .blockPlace core => Sys2Proof.Machine.execBlockPlace core s
  | .preemptAnswer k => Sys2Proof.Machine.execPreemptAnswer k s
  | .slicePreempt q => Sys2Proof.Machine.execSlicePreempt q s
  | .modeSwitchToGraphics => Sys2Proof.Machine.execModeSwitchToGraphics s
  | .modeSwitchComplete k => Sys2Proof.Machine.execModeSwitchComplete k s
  | .gfxIdleReturn k => Sys2Proof.Machine.execGfxIdleReturn k s
  | .reserveWindowStart => Sys2Proof.Machine.execReserveWindowStart s
  | .runLimitExpired q => Sys2Proof.Machine.execRunLimitExpired q s
  | .hangDetected k => Sys2Proof.Machine.execHangDetected k s
  | .quenchComplete => Sys2Proof.Machine.execQuenchComplete s
  | .errQuench v => Sys2Proof.Machine.execErrQuench v s
  | .layoutEnable n v => Sys2Proof.Machine.execLayoutEnable n v s
  | .layoutDisable n v => Sys2Proof.Machine.execLayoutDisable n v s
  | .apertureEnable v => Sys2Proof.Machine.execApertureEnable v s
  | .tlbInvalRange p => Sys2Proof.Machine.execTlbInvalRange p s
  | .tlbInvalContext p => Sys2Proof.Machine.execTlbInvalContext p s
  | .mmuInvalRequest v => Sys2Proof.Machine.execMmuInvalRequest v s
  | .withdrawalComplete packet => Sys2Proof.Machine.execWithdrawalComplete packet s
  | .prefetchRange p => Sys2Proof.Machine.execPrefetchRange p s
  | .adviseLocation p => Sys2Proof.Machine.execAdviseLocation p s
  | .adviseSetReadMostly p => Sys2Proof.Machine.execAdviseSetReadMostly p s
  | .adviseClearReadMostly p => Sys2Proof.Machine.execAdviseClearReadMostly p s
  | .adviseAccessedBy p => Sys2Proof.Machine.execAdviseAccessedBy p s
  | .adviseRemove p => Sys2Proof.Machine.execAdviseRemove p s
  | .bar2Read off n => Sys2Proof.Machine.execBar2Read off n s
  | .bar2Write off bytes => Sys2Proof.Machine.execBar2Write off bytes s
  | .hostReadCompletion id r => Sys2Proof.Machine.execHostReadCompletion id r s
  | .hostReadTimeout id => Sys2Proof.Machine.execHostReadTimeout id s
  | .msixHoldoffExpire vec => Sys2Proof.Machine.execMsixHoldoffExpire vec s
  | .msixUnmask vec => Sys2Proof.Machine.execMsixUnmask vec s
  | .mailboxWrite m from_ w => Sys2Proof.Machine.execMailboxWrite m from_ w s
  | .mailboxRead m by_ => Sys2Proof.Machine.execMailboxRead m by_ s
  | .linkDown => Sys2Proof.Machine.execLinkDown s
  | .linkRecovery => Sys2Proof.Machine.execLinkRecovery s
  | .perstAssert => Sys2Proof.Machine.execPerstAssert s
  | .linkL2Entry => Sys2Proof.Machine.execLinkL2Entry s
  | .i2cAddressMatch a => Sys2Proof.Machine.execI2cAddressMatch a s
  | .ident r => Sys2Proof.Machine.execIdent r s
  | .status r => Sys2Proof.Machine.execStatus r s
  | .powerReq r => Sys2Proof.Machine.execPowerReq r s
  | .msgPut r => Sys2Proof.Machine.execMsgPut r s
  | .msgGet r => Sys2Proof.Machine.execMsgGet r s
  | .regRead r => Sys2Proof.Machine.execRegRead r s
  | .i2cSclTimeout => Sys2Proof.Machine.execI2cSclTimeout s
  | .rmpAdd v => Sys2Proof.Machine.execRmpAdd v s
  | .rmpRemove v => Sys2Proof.Machine.execRmpRemove v s
  | .mapCommit v => Sys2Proof.Machine.execMapCommit v s
  | .scrubVisit upsets => Sys2Proof.Machine.execScrubVisit upsets s
  | .mr4Poll ch rate beyond => Sys2Proof.Machine.execMr4Poll ch rate beyond s
  | .zqCalibration => Sys2Proof.Machine.execZqCalibration s
  | .dramPowerDown ch => Sys2Proof.Machine.execDramPowerDown ch s
  | .powerOnReset sramOk sfdp => Sys2Proof.Machine.execPowerOnReset sramOk sfdp s
  | .railsReady dropped => Sys2Proof.Machine.execRailsReady dropped s
  | .railsTimeout => Sys2Proof.Machine.execRailsTimeout s
  | .trainingComplete fails verified => Sys2Proof.Machine.execTrainingComplete fails verified s
  | .dramSelftestComplete lines => Sys2Proof.Machine.execDramSelftestComplete lines s
  | .onchipTestComplete r => Sys2Proof.Machine.execOnchipTestComplete r s
  | .warmReset => Sys2Proof.Machine.execWarmReset s
  | .glbRst v => Sys2Proof.Machine.execGlbRst v s
  | .sysrst => Sys2Proof.Machine.execSysrst s
  | .flashRead v => Sys2Proof.Machine.execFlashRead v s
  | .flashProgram v => Sys2Proof.Machine.execFlashProgram v s
  | .flashErase4k v => Sys2Proof.Machine.execFlashErase4k v s
  | .flashErase64k v => Sys2Proof.Machine.execFlashErase64k v s
  | .flashOpComplete failed => Sys2Proof.Machine.execFlashOpComplete failed s
  | .a1Entry => Sys2Proof.Machine.execA1Entry s
  | .powerRequest v => Sys2Proof.Machine.execPowerRequest v s
  | .powerRequestCancel v => Sys2Proof.Machine.execPowerRequestCancel v s
  | .powerLinkTimeout => Sys2Proof.Machine.execPowerLinkTimeout s
  | .entryStepComplete => Sys2Proof.Machine.execEntryStepComplete s
  | .wakeEvent source => Sys2Proof.Machine.execWakeEvent source s
  | .perstDeassert => Sys2Proof.Machine.execPerstDeassert s
  | .alarmExpire => Sys2Proof.Machine.execAlarmExpire s
  | .exitStepReady k => Sys2Proof.Machine.execExitStepReady k s
  | .exitTimeout rail => Sys2Proof.Machine.execExitTimeout rail s
  | .pmbusAckPoll word mv busOk => Sys2Proof.Machine.execPmbusAckPoll word mv busOk s
  | .pmbusAlert words => Sys2Proof.Machine.execPmbusAlert words s
  | .supplyHandover mv => Sys2Proof.Machine.execSupplyHandover mv s
  | .supplyReturn mv => Sys2Proof.Machine.execSupplyReturn mv s
  | .vbakLow mv => Sys2Proof.Machine.execVbakLow mv s
  | .mainSupplyLoss domain rail => Sys2Proof.Machine.execMainSupplyLoss domain rail s
  | .kwsEvaluation score phrase => Sys2Proof.Machine.execKwsEvaluation score phrase s
  | .powerEstimate mw board => Sys2Proof.Machine.execPowerEstimate mw board s
  | .thermalSample readings => Sys2Proof.Machine.execThermalSample readings s
  | .errorRecord r => Sys2Proof.Machine.execErrorRecord r s
  | .errRptrWrite v => Sys2Proof.Machine.execErrRptrWrite v s
  | .fatalResetTimer => Sys2Proof.Machine.execFatalResetTimer s
  | .debugChallenge p v => Sys2Proof.Machine.execDebugChallenge p v s
  | .debugOpen p => Sys2Proof.Machine.execDebugOpen p s
  | .debugClose p => Sys2Proof.Machine.execDebugClose p s
  | .challengeExpire => Sys2Proof.Machine.execChallengeExpire s
  | .otpProgram v => Sys2Proof.Machine.execOtpProgram v s
  | .otpRead v => Sys2Proof.Machine.execOtpRead v s
  | .extest pins => Sys2Proof.Machine.execExtest pins s
  | .idcode => Sys2Proof.Machine.execIdcode s
  | .samplePreload pins preload => Sys2Proof.Machine.execSamplePreload pins preload s
  | .dbgreg off read v => Sys2Proof.Machine.execDbgreg off read v s
  | .coreDbg core op => Sys2Proof.Machine.execCoreDbg core op s
  | .bypass => Sys2Proof.Machine.execBypass s
  | .linkTraining gen width atomics => Sys2Proof.Machine.execLinkTraining gen width atomics s
  | .dprLinkTraining rate lanes st => Sys2Proof.Machine.execDprLinkTraining rate lanes st s
  | .dprLinkLoss errors => Sys2Proof.Machine.execDprLinkLoss errors s
  | .dprHdcpAuthentication type => Sys2Proof.Machine.execDprHdcpAuthentication type s
  | .porNLow => Sys2Proof.Machine.execPorNLow s
  | .mainSupplyReturn => Sys2Proof.Machine.execMainSupplyReturn s
  | .bootPartLoaded => Sys2Proof.Machine.execBootPartLoaded s
  | .dataSectionsLoaded k => Sys2Proof.Machine.execDataSectionsLoaded k s
  | .drainSliceExpired k => Sys2Proof.Machine.execDrainSliceExpired k s
  | .hearthTimekeepingTick => Sys2Proof.Machine.execHearthTimekeepingTick s
  | .audioFrameSampled in0 in1 => Sys2Proof.Machine.execAudioFrameSampled in0 in1 s

end Sys2Proof.Machine
end

