-- ==== Sys2Proof/Safety.lean ====
section
/-! DEFINITION. What the claims call safe, and the terms they use: the canonical form of the memories, what one-time storage may
lose, completion, an instruction that reaches its effect, a packet that is next in its queue. -/

namespace Sys2Proof.Machine

/-- The memories are in canonical form: the bytes of DRAM and those the L2 holds dirty at strictly rising addresses, and no listed
code-word mark that is the one an unlisted code word has. A byte that nothing has written is free, so no byte is unlisted for its value. -/
def Memory.wf (s : State) : Bool :=
  Sparse.sorted s.dram.bytes && Sparse.sorted s.l2.dirty && Sparse.canon (fun _ => CwMark.clear) s.dram.marks

/-- A command completes: it answers a next state. -/
def Completes (i : Instr) (s : State) : Prop := ∃ t, exec i s = .next t

/-- Every 1 that one-time storage holds in `s` it holds in `t` (R573: programming sets bits and never clears one). -/
def OtpKept (s t : State) : Prop :=
  ∀ n, Sparse.get s.dbg.otp 0 n ||| Sparse.get t.dbg.otp 0 n = Sparse.get t.dbg.otp 0 n

/-- An issued instruction of class `cls` reaches its effect (R52, R56, R59, R60, R64, R65, R82): a ready group and its block,
the fetch finds the instruction, its encoding is legal, also where that depends on the state (`bad`), its register runs lie in the
allocation, those a unit's state lengthens (`more`) among them, and a lane runs it. `a` is the instruction at issue, `s'` the state in which its effect begins: counted, and the group's pc past it. -/
def Issues (s : State) (x : Issue) (cls : Nat) (f : Form) (a : At) (s' : State) : Prop :=
  ∃ g b s0, s.ready x f = some (g, b)
    ∧ s.fetchInsn x.core.val b.ctx g.pc (s.blockClass b) (leBytes x.i.size x.i.word) = (.agree, s0)
    ∧ x.i.cls.toNat = cls ∧ f.ok x.i = true
    ∧ f.bad s' a = false
    ∧ (f.runs x.i ++ f.more s' a).any (fun r => allocOf b.kernel.regs < r.1 + r.2) = false
    ∧ (if f.always then g.lanes else g.run x.i) ≠ []
    ∧ a = ⟨x.core.val, x.slot.val, { g with pc := (g.pc + x.i.size) % 2 ^ 48 }, b, g.pc, x.i⟩
    ∧ s' = (s0.issued x f).putGroup a.core a.slot a.g

/-- `g` is the issuing group with the value `v` of each running lane in DST (R53, R65): a register, or the pair at DST with the low
word first; no other register, no other lane and nothing else of the group differs. -/
def Writes (a : At) (wide : Bool) (v : Nat → Nat) (g : Group) : Prop :=
  g = { a.g with regs := g.regs } ∧ ∀ l r, l < 32 → r < 256 → g.reg l r =
    if l ∉ a.g.run a.i then a.g.reg l r
    else if r = a.i.dst.toNat then v l % 2 ^ 32
    else if wide = true ∧ r = a.i.dst.toNat + 1 then v l / 2 ^ 32 % 2 ^ 32
    else a.g.reg l r

/-- `g` is the issuing group with the value `v` of each running lane in flag PD (R53, R65), where PD names one. -/
def WritesFlag (a : At) (v : Nat → Bool) (g : Group) : Prop :=
  g = { a.g with flags := g.flags } ∧ ∀ l f, l < 32 → g.flag f l =
    if l ∈ a.g.run a.i ∧ f = a.i.pd.toNat ∧ f < 7 then v l else a.g.flag f l

/-- A Tongs command reaches its effect (R151, R152): it is the context's turn, the command is the one at the program counter, listed, its
reserved fields 0. `t` is the context with the command's buffer noted, `s'` the state after the fetch. -/
def TongsRuns (s : State) (k : Nat) (rt : Bool) (cmd : TongsCmd) (op : Nat) (t : Tongs) (s' : State) : Prop :=
  ∃ t0 bs, (s.cluster k).tongs rt = some t0 ∧ s.tongsTurn k rt t0 = true ∧ cmd.op = op
    ∧ s.rawRead (.cluster k) (tongsClass rt) t0.ctx t0.pc 16 = (none, none, bs, s')
    ∧ bytesAgree bs (wordBytes cmd.words) = true ∧ tongsListed op = true ∧ cmd.clean = true
    ∧ t = { t0 with buf := cmd.buf }

/-- A packet of opcode `op` is next in its queue and is executed (R337, R338, R341, R342, R344, R364): the queue may execute, the
packet's header is right, ORDER does not hold it, no refused pass passes it over, which its end never is, a step program may contain it, and the fetch finds it.
`u` is the queue past the packet, `ptr` the packet's ring position, `s'` the state after the fetch. -/
def PktRuns (s : State) (p : Pkt) (op : Nat) (u : Queue) (ptr : Nat) (s' : State) : Prop :=
  let s0 := s.settleQ p.q.val
  ∃ u0, s0.queue p.q.val = some u0
    ∧ s0.qReady p.q.val u0 = true ∧ hdrOk p = true ∧ pktOp p = op
    ∧ (pktOrder p = false ∨ (0x41 ≤ op ∧ op ≤ 0x44) ∨ u0.earlierComplete = true)
    ∧ s0.fetchPkt u0 p = (.ok, s') ∧ (s'.skipping p.q.val u0 = false ∨ op = 0x44)
    ∧ (u0.inProgram = false ∨ stepOp op = true)
    ∧ u = u0.pass_ (pktLen p) ∧ ptr = s'.pktPtr p.q.val u0

/-- A packet of opcode `op` is next in its queue and a refused pass passes it over (R221): `u` is the queue past it, `s'` the state after
the fetch. -/
def PktPassed (s : State) (p : Pkt) (op : Nat) (u : Queue) (s' : State) : Prop :=
  let s0 := s.settleQ p.q.val
  ∃ u0, s0.queue p.q.val = some u0
    ∧ s0.qReady p.q.val u0 = true ∧ hdrOk p = true ∧ pktOp p = op
    ∧ (pktOrder p = false ∨ (0x41 ≤ op ∧ op ≤ 0x44) ∨ u0.earlierComplete = true)
    ∧ s0.fetchPkt u0 p = (.ok, s') ∧ s'.skipping p.q.val u0 = true ∧ op ≠ 0x44 ∧ u = u0.pass_ (pktLen p)

/-- Every earlier unit of a queue has retired (R344), inside a step program the step itself apart, whose own earlier units are
complete. -/
def EarlierDone (s : State) (q : Nat) : Prop :=
  ∃ u0, s.queue q = some u0 ∧ u0.earlierRuns = false

/-- A queue has fewer than 16 units in flight (R343). -/
def RoomForUnit (s : State) (q : Nat) : Prop := ∃ u0, s.queue q = some u0 ∧ u0.inflight < 16

end Sys2Proof.Machine
end

