-- ==== Sys2Proof/Certificates/Slice0/Obligations.lean ====
section
/-! DEFINITION. The statements for the provers. Hypotheses are on the state and the operands alone; the completion of a command is
the next state of its own effect. -/

open Sys2Proof Sys2Proof.Machine

/-- With a command at the front of its queue, a step of the block is the meaning of that command on the state whose queue is the
rest. With no command waiting a step changes nothing. The queue and the idling are the model's (DESIGN CHOICE, log entry 3).
(95_what_each_step_holds.md) -/
def Obligations.StepRunsFront : Prop :=
(∀ (c : Instr) (rest : List Instr) (s : State),
    step { s with pending := c :: rest } = exec c { s with pending := rest })
  ∧ ∀ s : State, s.pending = [] → step s = .next s

/-- Whatever the command and the state, if the meaning answers a next state then the queue of that state is the queue it was
given: commands enter and leave only by the step. (95_what_each_step_holds.md) -/
def Obligations.QueueUntouched : Prop :=
∀ (c : Instr) (s t : State), exec c s = .next t → t.pending = s.pending

/-- For every word of one-time storage and every set of its bits: if they are all 1 in a state and a step answers a next state,
they are all 1 there. No command, no record of an image and no debug path clears a bit. The storage of a state holds the bits
programmed since production; production's own are Config's constants, which nothing changes. (R573) -/
def Obligations.OtpNeverCleared : Prop :=
∀ (n : Nat) (m : Word) (s t : State),
    Sparse.get s.dbg.otp 0 n &&& m = m → step s = .next t → Sparse.get t.dbg.otp 0 n &&& m = m

/-- Right after power-on reset no command waits, the UNC, DISP and CLU domains are off, GLB_BOOT.STATE reads 0 (starting), and
no context, queue, model slot, sequence, flow or copy exists; one-time storage holds nothing beyond production's. The time base
at 0 is the model's (DESIGN CHOICE, log entry 1). (R7, R23, R487, R491) -/
def Obligations.PowerOnState : Prop :=
State.reset.pending = [] ∧ State.reset.time = 0 ∧ State.reset.uncOn = false ∧ State.reset.dispOn = false ∧ State.reset.cluOn = false
    ∧ State.reset.fld Reg.GLB_BOOT 1 0 = 0 ∧ State.reset.ctxs = [] ∧ State.reset.queues = [] ∧ State.reset.slots = []
    ∧ State.reset.seqs = [] ∧ State.reset.flow = none ∧ State.reset.sched.copies = []
    ∧ (∀ n, Sparse.get State.reset.dbg.otp 0 n = 0) ∧ Memory.wf State.reset = true

/-- While the Hearth does not keep the time base, a tick of TBCLK completes and advances it by one, modulo 2^64. While the
Hearth keeps it, one period of 32.768 kHz advances it by 3,051 ticks and 24,832/32,768 of a tick, the fraction carried, and
changes nothing else; a tick of TBCLK then changes nothing. (R7, R25) -/
def Obligations.TimeBase : Prop :=
∀ s : State,
    (s.hearthKeeps = false →
      ∃ t, exec .timeBaseTick s = .next t ∧ t.time = (s.time + 1) % 2 ^ 64 ∧ t.timeFrac = s.timeFrac)
    ∧ (s.hearthKeeps = true → exec .timeBaseTick s = .next s)
    ∧ (s.hearthKeeps = true → exec .hearthTimekeepingTick s = .next
        { s with time := (s.time + 3051 + (s.timeFrac + 24832) / 32768) % 2 ^ 64, timeFrac := (s.timeFrac + 24832) % 32768 })

/-- With DISP running: while BUSY is 1 only GO_LOST changes. Otherwise the whole pending configuration is checked and REASON
holds the code, DONE is set; a refused commit leaves the active configuration and the display alone; an accepted one waits, with
PEND 1, while OUT_EN is 1 in the active configuration, and becomes active as a whole at once while it is 0. (R260, R261, R295)
-/
def Obligations.DspCommitOutcomes : Prop :=
∀ s : State, s.dispRuns = true →
    (s.flag Reg.DSP_STATUS 0 = true → exec .dspCommit s = .next (s.setFlag Reg.DSP_STATUS 3))
    ∧ (s.flag Reg.DSP_STATUS 0 = false →
        ∃ t, exec .dspCommit s = .next t
          ∧ t.fld Reg.DSP_STATUS 15 8 = s.dspCheck s.dspPending % 256 ∧ t.flag Reg.DSP_STATUS 2 = true
          ∧ (s.dspCheck s.dspPending ≠ 0 → t.active = s.active ∧ t.disp = s.disp)
          ∧ (s.dspCheck s.dspPending = 0 → s.dspActive.outEn = true →
              t.active = s.active ∧ t.flag Reg.DSP_STATUS 1 = true
              ∧ t.disp = { s.disp with accepted := some s.dspPending, acceptedAt := s.time })
          ∧ (s.dspCheck s.dspPending = 0 → s.dspActive.outEn = false → t.active = (s.dspApply s.dspPending).active))

/-- With DISP running: for the bank that the active configuration of an enabled layer selects, a coefficient write only sets
COEF_ERR; for any other it stores the word's two 12-bit coefficients in the word's register and changes nothing else. (R298) -/
def Obligations.DspCoefWrite : Prop :=
∀ (n : Fin 8) (b : Fin 2) (w : Fin 512) (v : Word) (s : State),
    (s.dispRuns = true → (s.dspActive.layer n.val).en = true → (s.dspActive.layer n.val).cbank = b.val →
        exec (.dspCoefWrite n b w v) s = .next (s.setFlag Reg.DSP_STATUS 6))
    ∧ (s.dispRuns = true → ¬((s.dspActive.layer n.val).en = true ∧ (s.dspActive.layer n.val).cbank = b.val) →
        exec (.dspCoefWrite n b w v) s = .next
          (s.setReg (Reg.DSP_COEF (n.val * 1024 + b.val * 512 + w.val)) (v &&& 0x0FFF0FFF)))

/-- With DISP running and the timing on: a fetch deadline completes with the line counter 64 lines before the frame of the
configuration that its commit leaves active; a line in vertical blanking moves the line counter on and sends nothing; an active
line ends with its pixels sent. A tap whose frame is written whole publishes its buffer: LAST names it, LAST_VALID is set,
TAPt_FRAME holds its frame, and only the tap's own state changes beside. (R259, R263, R266, R282) -/
def Obligations.DisplayTiming : Prop :=
∀ s : State,
    (s.dispRuns = true → s.disp.running = true →
      let a := s.dspActive.vTotal - 64
      let s1 := if s.fld Reg.DSP_LINE 12 0 = a then s else s.ldmSyncLine a
      ∃ t, exec .fetchDeadline s = .next t ∧ t.fld Reg.DSP_LINE 12 0 = (s1.dspDeadline.2.dspActive.vTotal - 64) % 2 ^ 13)
    ∧ (∀ e : LineEvents, s.dispRuns = true → s.disp.running = true →
        let y := (s.fld Reg.DSP_LINE 12 0 + 1) % max 1 s.dspActive.vTotal
        (s.dspActive.vActive ≤ y →
          exec (.scanoutLine e) s = .next (((s.setFld Reg.DSP_LINE 12 0 y).whiskTime y e.stall).ldmSyncLine y))
        ∧ (y < s.dspActive.vActive → ∃ t px link, exec (.scanoutLine e) s = .next t ∧ t.out.getLast? = some (.pixels y px link)))
    ∧ (∀ (k : Fin 2) (b : Nat), (s.tap k.val).cur = some b → (s.tap k.val).written = true → (s.tap k.val).dropped = false →
        ∃ t, exec (.tapPublish k) s = .next t
          ∧ t.fld (Reg.DSP_TAP_STATUS k.val) 1 0 = b % 4 ∧ t.flag (Reg.DSP_TAP_STATUS k.val) 2 = true
          ∧ t.reg (Reg.DSP_TAP_FRAME k.val) = BitVec.ofNat 32 (s.tap k.val).frame
          ∧ t.tap k.val = { s.tap k.val with cur := none, written := false } ∧ t.active = s.active ∧ t.out = s.out)

/-- With DISP running: a start stores OP and checks the descriptor that WSK_FF_DESC names; a refused start leaves no other trace
than DONE and its code, an accepted one begins the flow (STATE locking) with code 0. A stop without a flow is refused with 0x3F;
with one, it takes effect at the next fetch deadline and STATE reads stopping. An update whose descriptor fails is refused with
its code; otherwise the new descriptor waits for the next deadline. Clearing the statistics writes 0 to the eight counters.
(R229, R230, R231, R255) -/
def Obligations.FlowCommands : Prop :=
∀ s : State, s.dispRuns = true →
    (∀ code d s', (s.setReg Reg.WSK_FF_CMD 2).flowCheck s.ffDesc 1 = (code, d, s') →
        exec .ffStart s = .next (if code ≠ 0 then s'.ffDone code else (s'.flowBegin d none).ffDone 0))
    ∧ (s.flow = none → exec .ffStop s = .next ((s.setReg Reg.WSK_FF_CMD 4).ffDone 0x3F))
    ∧ (∀ fl, s.flow = some fl → ∃ t, exec .ffStop s = .next t
        ∧ t.flow = some { fl with stopAtNext := !fl.draining, next := none, repeatOld := if fl.draining then none else fl.repeatOld }
        ∧ t.fld Reg.WSK_FF_STATUS 4 2 = 5 ∧ t.fld Reg.WSK_FF_STATUS 15 8 = 0 ∧ t.flag Reg.WSK_FF_STATUS 1 = true
        ∧ (∀ a, a ≠ Reg.WSK_FF_STATUS → a ≠ Reg.WSK_FF_CMD → t.reg a = s.reg a) ∧ t.active = s.active)
    ∧ (∀ code d s', (s.setReg Reg.WSK_FF_CMD 6).flowCheck (s.setReg Reg.WSK_FF_CMD 6).ffDesc 3 = (code, d, s') → code ≠ 0 →
        exec .ffUpdate s = .next (s'.ffDone code))
    ∧ (∀ d s' fl, (s.setReg Reg.WSK_FF_CMD 6).flowCheck (s.setReg Reg.WSK_FF_CMD 6).ffDesc 3 = (0, d, s') → s'.flow = some fl →
        ∃ t, exec .ffUpdate s = .next t ∧ t.flow = some { fl with stopAtNext := !fl.draining, next := some d }
          ∧ t.fld Reg.WSK_FF_STATUS 4 2 = 5 ∧ t.fld Reg.WSK_FF_STATUS 15 8 = 0)
    ∧ (∃ t, exec .ffClearStats s = .next t ∧ (∀ n, n < 8 → t.reg (Reg.WSK_FF_STAT n) = 0)
        ∧ t.fld Reg.WSK_FF_STATUS 15 8 = 0 ∧ t.flow = s.flow)

/-- With DISP running: a post of a source buffer that the running flow may take is an arrival of that buffer; any other post
only counts and sets POST_ERR. A received frame that a capturing flow can store in its lowest free buffer is dropped and counted
when it came damaged. In STATE locked, half a period after an expected arrival STATE becomes hold; SRC_TIMEOUT after the last
arrival the flow forgets its mapping and STATE becomes no-signal. The first signature operation of the flow queued 1 ms ago or
more leaves the sequencer and the Ladle's waiting entries, completes with outcome 3, and the flow goes on as without a result.
(R233, R234, R235, R242, R255) -/
def Obligations.FlowArrivals : Prop :=
∀ s : State, s.dispRuns = true →
    (∀ (v : Word) fl, s.flow = some fl →
      let s1 := s.setReg Reg.WSK_FF_SRC_POST (BitVec.ofNat 32 (v.toNat % 16))
      (fl.d.input = 0 → v.toNat % 16 ≤ fl.d.nsrc → 1 ≤ s1.ffState → s1.ffState ≤ 4 →
          s1.flag Reg.WSK_FF_SRC_FREE (v.toNat % 16) = true → exec (.sourcePost v) s = .next (s1.flowArrive (v.toNat % 16) 0))
      ∧ (fl.d.input ≠ 0 ∨ fl.d.nsrc < v.toNat % 16 ∨ s1.flag Reg.WSK_FF_SRC_FREE (v.toNat % 16) = false →
          exec (.sourcePost v) s = .next ((s1.setFlag Reg.WSK_FF_STATUS 5).ffCount 7 1)))
    ∧ (∀ (f : RxFrame) fl b, s.flow = some fl → s.flag Reg.DPR_CTRL 0 = true → s.flag Reg.DPR_STATUS 0 = true →
        s.dp.streamOk = true → fl.d.input = 1 → 1 ≤ s.ffState → s.ffState ≤ 4 →
        (List.range (fl.d.nsrc + 1)).find? (fun i => s.flag Reg.WSK_FF_SRC_FREE i) = some b →
        (f.linkError = true → exec (.dpCaptureFrame f) s = .next s.captureLink)
        ∧ (f.linkError = false → s.captureDiffers fl.d = true → exec (.dpCaptureFrame f) s = .next s.captureDrop)
        ∧ (f.linkError = false → s.captureDiffers fl.d = false → s.flag Reg.DPR_STATUS 9 = false →
            ∀ s', (captureRows fl.d (s.fld Reg.DPR_STATUS 8 6) f.px).foldl (fun (r, s) (off, bs) =>
                match r with
                | some e => (some e, s)
                | none => State.vwrite s .display fl.d.ctx (fl.d.srcAddr b + off) 2 (full bs) false true) ((none : Option VFail), s) = (none, s') →
              exec (.dpCaptureFrame f) s = .next (s'.flowArrive b 0)))
    ∧ (∀ fl, s.flow = some fl → s.ffState = 2 →
        (s.arrivalError fl ((s.srcCount + 1) % 2 ^ 32) s.time).2 ≤ (s.arrivalError fl ((s.srcCount + 1) % 2 ^ 32) s.time).1 →
        exec .sourceHoldTimeout s = .next (s.setFld Reg.WSK_FF_STATUS 4 2 3))
    ∧ (∀ fl, s.flow = some fl → 1 ≤ s.ffState → s.ffState ≤ 3 → fl.lastArrival + us (1000 * fl.d.srcTimeout) ≤ s.time →
        exec .sourceTimeout s = .next ((s.updFlow (fun fl =>
          { fl with first := none, mapped := none, old := none, noPrev := true })).setFfState 4).flowSettle)
    ∧ (∀ fl : Flow, s.flow = some fl →
    (fl.invs.find? (fun i => i.kind == .sign && i.status == .queued && i.at_ + us 1000 ≤ s.time) = none →
      exec .gateTimeout s = .next s)
    ∧ (∀ i, fl.invs.find? (fun i => i.kind == .sign && i.status == .queued && i.at_ + us 1000 ≤ s.time) = some i →
        let s1 : State := { s with gfx := { s.gfx with units := s.gfx.units.filter (fun u => !(u.q == fl.d.queue && u.seq == i.seq)) } }
        let s2 := s1.updUnit fl.d.queue i.seq (fun w => { w with started := w.started <|> some s1.time, entries := 0 })
        let s3 : State := { s2 with sched := { s2.sched with stalled := s2.sched.stalled.filter (fun e => !(e.q == fl.d.queue && e.seq == i.seq)) } }
        exec .gateTimeout s = .next (((s3.completeUnit fl.d.queue i.seq 3 0).updStatus fl.d.queue).invEnded i 3 s3.time).flowSettle))

/-- With DISP running: an enable that breaks a rule leaves EN 0 with the code in REASON; one that passes sets EN, captures the
settings and starts with the next frame. A disable takes effect at the next deadline. A frame's duties are sent at once from the
static source, are sent once the buffer's tag is the frame's, and are held at the latest start. A diagnostic transfer and a
status read go out only on a port for which they are due, and are then due no more; the codes that a port answers fall on its
zones in band order. LD_FAULT_N low sets FAULT, counts and records, and returning high only frees the pin. (R302, R303, R308,
R312, R313, R314, R315, R316, R317) -/
def Obligations.DimmingCommands : Prop :=
∀ s : State,
    (∀ v : Word, s.dispRuns = true → s.flag Reg.LDM_CTRL 0 = false →
      let w := BitVec.ofNat 32 (v.toNat % 512)
      let s1 := (s.setReg Reg.LDM_CTRL w).clearFlag Reg.LDM_CTRL 0
      let code := ldmCheck (fun a => if a = Reg.LDM_CTRL then w.toNat else (s1.reg a).toNat) s1.dspActive s1.usable
      ∃ t, exec (.ldmEnable v) s = .next t ∧ t.flag Reg.LDM_CTRL 0 = decide (code = 0)
        ∧ t.fld Reg.LDM_STATUS 15 8 = code % 256 ∧ (code ≠ 0 → t.ldm = s.ldm) ∧ (code = 0 → t.ldm.startNext = some ((s1.setFld Reg.LDM_STATUS 15 8 code).setFlag Reg.LDM_CTRL 0).ldmCapture))
    ∧ (∀ v : Word, s.dispRuns = true → s.flag Reg.LDM_CTRL 0 = true → ∃ t, exec (.ldmDisable v) s = .next t
        ∧ t.flag Reg.LDM_CTRL 0 = false ∧ t.ldm = { s.ldm with stopNext := true, startNext := none })
    ∧ (∀ f, s.ldm.awaiting = some f → s.ldmc Reg.LDM_CTRL 6 5 = 2 → exec .dutyTagPoll s = .next (s.sendDuties 0 f))
    ∧ (∀ f bs s', s.ldm.awaiting = some f → s.ldmc Reg.LDM_CTRL 6 5 ≠ 2 →
        s.devRead 2 (s.dutyBase (f % 2)) 4 false = (bs, false, s') →
        exec .dutyTagPoll s = .next (if leNat bs = f then s'.sendDuties (f % 2) f else s'))
    ∧ (∀ f, s.ldm.awaiting = some f → s.ldmc Reg.LDM_CTRL 6 5 = 2 → exec .dutyHeld s = .next s)
    ∧ (∀ f, s.ldm.awaiting = some f → s.ldmc Reg.LDM_CTRL 6 5 ≠ 2 → ∃ t, exec .dutyHeld s = .next t ∧ t.ldm.awaiting = none
        ∧ t.flag Reg.LDM_STATUS 2 = true ∧ t.ldm.shadowDuty = s.ldm.shadowDuty ∧ t.out = s.out)
    ∧ (∀ p : Fin 4, s.ldm.diagDue.contains p.val = true → ∃ t b, exec (.diagTransfer p) s = .next t
        ∧ t.out = s.out ++ [.spi p.val (s.ldmc Reg.LDM_SPI 9 8) (s.ldmc Reg.LDM_CMD 31 16 :: s.ldmc Reg.LDM_DIAG 15 8 :: b)] ∧ t.regs = s.regs
        ∧ t.ldm = { s.ldm with diagDue := s.ldm.diagDue.filter (fun q => q != p.val) })
    ∧ (∀ p : Fin 4, s.ldm.readDue.contains p.val = true → s.ldmPortList.contains p.val = true →
        ∃ t, exec (.statusRead p) s = .next t ∧ t.out = s.out ++ [.spi p.val (s.ldmc Reg.LDM_SPI 9 8) [s.ldmc Reg.LDM_STATCMD 15 0]]
          ∧ t.flag Reg.LDM_STATUS 6 = true ∧ (∀ a, a ≠ Reg.LDM_STATUS → t.reg a = s.reg a)
          ∧ t.ldm = { s.ldm with readDue := s.ldm.readDue.filter (fun q => q != p.val), readNow := p.val :: s.ldm.readNow })
    ∧ (∀ (p : Fin 4) (codes : List (BitVec 2)), s.ldm.readNow.contains p.val = true →
        let s1 : State := { s with ldm := { s.ldm with readNow := s.ldm.readNow.filter (fun q => q != p.val) } }
        exec (.statusReadComplete p codes) s = .next
          (((s1.ldmBand p.val).zip codes).foldl (fun s zc => State.zoneStatus s zc.1 zc.2.toNat) s1).ldmReadsEnd)
    ∧ (s.dispRuns = true → ∃ t, exec (.ldFault true) s = .next t ∧ t.flag Reg.LDM_STATUS 3 = true
        ∧ t.ldm = { s.ldm with
            faultPin := true,
            readNext := if s.flag Reg.LDM_STATUS 0 then s.ldm.readNext ++ [(s.reg Reg.DSP_FRAME).toNat] else s.ldm.readNext })
    ∧ (s.dispRuns = true → exec (.ldFault false) s = .next { s with ldm := { s.ldm with faultPin := false } })

/-- While a frame is gathered: before its last active line is composed nothing changes. After it, a failed statistics write holds
the duties, is recorded as 0x0804 and publishes nothing. Otherwise the buffer of index f mod 2 takes the header (the frame number,
the grid, the time) and an entry of 8 bytes for each zone; LDM_FRAME holds the frame, STATS is set and the frame's duties are
awaited; with the map source 0 CC3 writes its duties; and EVENT is signalled where it is enabled. In both cases the gathering has
ended. (R302, R303, R304, R318) -/
def Obligations.StatsPublish : Prop :=
∀ (s : State) (f : Nat), s.ldm.gathering = some f →
    (s.ldm.lastIn = false → ∀ x, exec (.statsPublish x) s = .next s)
    ∧ (s.ldm.lastIn = true → ∀ a : BitVec 40,
        exec (.statsPublish (some a)) s = .next
            ((s.gatherEnd.ldmHeld.rec0 0x0804 0x32 2 (a.toNat % 2 ^ 32) (a.toNat / 2 ^ 32)).ldmAfterDuty f)
          ∧ ∃ t, exec (.statsPublish (some a)) s = .next t ∧ t.ldm.gathering = none ∧ t.ldm.acc = [] ∧ t.ldm.awaiting = none
            ∧ t.reg Reg.LDM_FRAME = s.reg Reg.LDM_FRAME ∧ t.dram = s.dram ∧ t.l2 = s.l2)
    ∧ (s.ldm.lastIn = true →
        let bytes := wordBytes ([f, s.ldmc Reg.LDM_GRID 6 0 + s.ldmc Reg.LDM_GRID 22 16 * 65536, s.time % 2 ^ 32, s.time / 2 ^ 32]
            ++ List.replicate 12 0)
          ++ s.zoneStats.flatMap (fun a =>
            leBytes 2 a.max ++ leBytes 2 (if a.n = 0 then 0 else rneDiv (a.sum * 64) a.n) ++ leBytes 4 a.high)
        let s1 := (s.gatherEnd.devWrite 2 (s.statsBase (f % 2)) (full bytes) false).statsShown f
        exec (.statsPublish none) s = .next
          (if s1.ldmc Reg.LDM_CTRL 6 5 = 0 then s1.cc3Map f s.zoneStats else s1).statsEvent)
    ∧ (s.ldm.lastIn = true → s.ldmc Reg.LDM_CTRL 6 5 ≠ 0 → s.flag Reg.LDM_MAP3 31 = false →
        ∃ t, exec (.statsPublish none) s = .next t ∧ t.ldm.gathering = none ∧ t.ldm.awaiting = some f
          ∧ t.reg Reg.LDM_FRAME = BitVec.ofNat 32 f ∧ t.flag Reg.LDM_STATUS 1 = true)

/-- With DISP running: an enable that sets EN trains the link with what the sink answers; a training that its check refuses
leaves the link down with the code in REASON; a disable stops the link. While enabled, a retrain trains, a loss of lock is
flagged, counted and trained again, and HPD low for 2 ms is flagged and counted and takes the link down until HPD returns. An
authentication runs on a link that is up with HDCP_EN 1, and again after a failure. (R285, R288, R292, R295, R299) -/
def Obligations.TransmitterCommands : Prop :=
∀ s : State,
    (∀ (v : Word) (k : SinkInfo), s.dispRuns = true → s.flag Reg.DPT_CTRL 0 = false → bit v.toNat 0 = true →
      exec (.dptEnable v k) s = .next ((s.setReg Reg.DPT_CTRL (BitVec.ofNat 32 (v.toNat % 256))).dptTrain k))
    ∧ (∀ (v : Word), s.dispRuns = true → s.flag Reg.DPT_CTRL 0 = true → ∃ t, exec (.dptDisable v) s = .next t
        ∧ t.flag Reg.DPT_CTRL 0 = false ∧ t.flag Reg.DPT_STATUS 0 = false ∧ t.fld Reg.DPT_STATUS 9 8 = 0
        ∧ (∀ a, a ≠ Reg.DPT_CTRL → a ≠ Reg.DPT_STATUS → t.reg a = s.reg a) ∧ t.active = s.active ∧ t.out = s.out)
    ∧ (∀ k : SinkInfo, s.dispRuns = true → s.flag Reg.DPT_CTRL 0 = true → ∃ t, exec (.dptRetrain k) s = .next t
        ∧ ((s.dptBegin k).dptCode k ≠ 0 →
            t.fld Reg.DPT_STATUS 23 16 = (s.dptBegin k).dptCode k ∧ t.flag Reg.DPT_STATUS 0 = false)
        ∧ ((s.dptBegin k).dptCode k = 0 → (s.dptBegin k).dptRate k = none →
            t.fld Reg.DPT_STATUS 23 16 = 0x93 ∧ t.flag Reg.DPT_STATUS 0 = false)
        ∧ ((s.dptBegin k).dptCode k = 0 → ∀ r, (s.dptBegin k).dptRate k = some r →
            t.flag Reg.DPT_STATUS 0 = true ∧ t.fld Reg.DPT_STATUS 4 2 = r % 8
              ∧ t.fld Reg.DPT_STATUS 6 5 = s.fld Reg.DPT_CTRL 5 4 ∧ t.fld Reg.DPT_STATUS 23 16 = 0)
        ∧ (∀ a, a ≠ Reg.DPT_STATUS → t.reg a = s.reg a))
    ∧ (∀ r : HdcpResult, s.flag Reg.DPT_STATUS 0 = true → s.hdcpOn = true →
        exec (.hdcpAuthenticate r) s = .next (s.hdcpRun r))
    ∧ (∀ r : HdcpResult, s.dp.hdcpRetry = true → s.flag Reg.DPT_STATUS 0 = true → exec (.hdcpRetry r) s = .next (s.hdcpRun r))
    ∧ (∀ k : SinkInfo, s.dispRuns = true → s.flag Reg.DPT_CTRL 0 = true →
        exec (.dptIrqHpd k) s = .next ((s.dptLost 0).dptTrain k))
    ∧ (s.dispRuns = true → s.flag Reg.DPT_CTRL 0 = true → ∃ t, exec .dptHpdLowTimeout s = .next t
        ∧ t.flag Reg.DPT_STATUS 0 = false ∧ t.flag Reg.DPT_STATUS 1 = false ∧ t.flag Reg.DPT_STATUS 10 = true
        ∧ t.dp.retrainDue = true ∧ t.active = s.active)
    ∧ (∀ k : SinkInfo, s.dispRuns = true →
        exec (.dptHpdReturn k) s = .next (if s.dp.retrainDue = true ∧ s.flag Reg.DPT_CTRL 0 = true
          then (s.setFlag Reg.DPT_STATUS 1).dptTrain k else s.setFlag Reg.DPT_STATUS 1))

/-- An authentication reads the SRM where one is placed and ends in one of two ways: with a failure code it is left
unauthenticated with a retry due and the code in REASON; without one the status is authenticated at the type the sink's answer
gives, and no retry is due. Without keys, and where the SRM lists an ID the sink reported, the code is 0x98; where too many devices
are downstream it is 0x99. With no SRM placed no memory changes, and the receiver and the display never do. (R291, R292, R574) -/
def Obligations.HdcpOutcome : Prop :=
∀ (r : HdcpResult) (s : State),
    let s1 := s.srmRead.2
    let code := s1.hdcpCode r s.srmRead.1
    (code ≠ 0 → s.hdcpRun r = s1.hdcpFailed code
      ∧ (s.hdcpRun r).dp.hdcpRetry = true ∧ (s.hdcpRun r).fld Reg.DPT_STATUS 9 8 = 0)
    ∧ (code = 0 → s.hdcpRun r = s1.hdcpDone r ∧ (s.hdcpRun r).dp.hdcpRetry = false
      ∧ (s.hdcpRun r).fld Reg.DPT_STATUS 9 8 = 2 + r.type.val)
    ∧ (s1.keysHeld = true → code = 0x98) ∧ (s1.keysHeld = false → r.tooBig = true → code = 0x99)
    ∧ (∀ b i, s.srmRead.1 = some b → i ∈ r.ids → Config.srmLists b i.toNat = true → r.tooBig = false → code = 0x98)
    ∧ (s.hdcpRun r).active = s.active ∧ (s.hdcpRun r).disp = s.disp
    ∧ (s.reg64 Reg.DPT_SRM_LO = 0 → (s.hdcpRun r).dram = s.dram ∧ (s.hdcpRun r).l2 = s.l2)
    ∧ (s.hdcpRun r).reg Reg.DPR_CTRL = s.reg Reg.DPR_CTRL

/-- With DISP running: an enable with a rate or lane count that is reserved is refused with 0x96 and leaves EN 0; a disable
takes the link down and drops the stream. With EN 1, an upstream training within MAXRATE and MAXLANES takes the link up at its
rate and lane count, with the stream accepted up to its limits and 0x97 otherwise; a loss takes it down and counts the symbol
errors. An authentication as a repeater records its type. An AUX read of the DPCD answers its bytes, one of the EDID at 0x50 the
stored EDID's. (R283, R289, R290, R291, R295, R299) -/
def Obligations.ReceiverCommands : Prop :=
∀ s : State,
    (∀ v : Word, s.dispRuns = true → s.flag Reg.DPR_CTRL 0 = false →
      (4 < bits (v.toNat % 128) 3 1 ∨ bits (v.toNat % 128) 5 4 = 3 →
        ∃ t, exec (.dprEnable v) s = .next t ∧ t.flag Reg.DPR_CTRL 0 = false ∧ t.fld Reg.DPR_STATUS 23 16 = 0x96 ∧ t.dp = s.dp)
      ∧ (bits (v.toNat % 128) 3 1 ≤ 4 → bits (v.toNat % 128) 5 4 ≠ 3 → s.dspActive.writeFails true = false →
        ∃ t, exec (.dprEnable v) s = .next t ∧ t.flag Reg.DPR_CTRL 0 = true ∧ t.fld Reg.DPR_STATUS 23 16 = 0
          ∧ t.dp = { s.dp with rxCtrl := BitVec.ofNat 32 (v.toNat % 128) })
      ∧ (bits (v.toNat % 128) 3 1 ≤ 4 → bits (v.toNat % 128) 5 4 ≠ 3 → s.dspActive.writeFails true = true →
        ∃ t, exec (.dprEnable v) s = .next t ∧ t.flag Reg.DPR_CTRL 0 = false ∧ t.fld Reg.DPR_STATUS 23 16 = 0x9A ∧ t.dp = s.dp))
    ∧ (∀ v : Word, s.dispRuns = true → s.flag Reg.DPR_CTRL 0 = true → ∃ t, exec (.dprDisable v) s = .next t
        ∧ t.flag Reg.DPR_CTRL 0 = false ∧ t.flag Reg.DPR_STATUS 0 = false ∧ t.fld Reg.DPR_STATUS 10 9 = 0
        ∧ t.dp = { s.dp with streamOk := false } ∧ (∀ a, a ≠ Reg.DPR_CTRL → a ≠ Reg.DPR_STATUS → t.reg a = s.reg a))
    ∧ (∀ (rate : Fin 5) (lanes : Fin 3) (st : RxStream), s.dispRuns = true → s.flag Reg.DPR_CTRL 0 = true →
        rate.val ≤ bits s.dp.rxCtrl.toNat 3 1 → lanes.val ≤ bits s.dp.rxCtrl.toNat 5 4 →
        ∃ t, exec (.dprLinkTraining rate lanes st) s = .next t ∧ t.flag Reg.DPR_STATUS 0 = true
          ∧ t.fld Reg.DPR_STATUS 3 1 = rate.val ∧ t.fld Reg.DPR_STATUS 5 4 = lanes.val ∧ t.fld Reg.DPR_STATUS 10 9 = 0
          ∧ t.fld Reg.DPR_STATUS 23 16 = (if st.w.toNat ≤ 7680 ∧ st.h.toNat ≤ 4320 ∧ st.khz ≤ 2000000 then 0 else 0x97) ∧ t.dp = { s.dp with streamOk := rxAccepted st })
    ∧ (∀ n : Nat, s.dispRuns = true → ∃ t, exec (.dprLinkLoss n) s = .next t ∧ t.flag Reg.DPR_STATUS 0 = false
        ∧ t.dp = { s.dp with streamOk := false } ∧ (t.reg Reg.DPR_ERRCNT).toNat = min (2 ^ 32 - 1) ((s.reg Reg.DPR_ERRCNT).toNat + n))
    ∧ (∀ type : Fin 2, s.flag Reg.DPR_STATUS 0 = true → bit s.dp.rxCtrl.toNat 6 = true → s.keysHeld = false →
        ∃ t, exec (.dprHdcpAuthentication type) s = .next t ∧ t.flag Reg.DPR_STATUS 9 = true
          ∧ t.fld Reg.DPR_STATUS 10 10 = type.val ∧ t.out = s.out)
    ∧ (∀ (a : BitVec 20) (n : Nat), s.dispRuns = true → s.flag Reg.DPR_CTRL 0 = true →
        exec (.dprAuxTransaction (.dpcdRead a n)) s = .next (s.emit (.aux ((List.range n).map (fun i => Config.dpcd (a.toNat + i))))))
    ∧ (∀ (off n : Nat), s.dispRuns = true → s.flag Reg.DPR_CTRL 0 = true →
        exec (.dprAuxTransaction (.i2cRead 0x50#7 off n)) s = .next (s.emit (.aux ((s.dp.edid.drop off).take n))))

/-- With UNC running: a doorbell write of the value WPTR holds changes nothing. Any other is accepted, and changes only DB_WPTR,
exactly when the queue is enabled, W is a multiple of 4, W − RPTR is at most the ring's size and W is not before WPTR, all modulo
2^32. Otherwise DB_WPTR and the queue stay and DB_ERR is set; on a queue that is not disabled it is recorded as 0x0901 with the
queue and W, after ERR_VEC is raised where ERR_IE is 1. A queue that was never enabled ignores it with DB_ERR alone. A packet in
the ring is executed only when all of its words lie before WPTR. (R337, R338) -/
def Obligations.Doorbells : Prop :=
∀ (q : Fin 64) (w : Word) (s : State), s.uncRuns = true →
    (w.toNat = s.wptr q.val → exec (.doorbell q w) s = .next s)
    ∧ (w.toNat ≠ s.wptr q.val → s.queue q.val = none → s.qState q.val = 0 →
        exec (.doorbell q w) s = .next (s.setFlag (Reg.CPR_Q_STATUS q.val) 3))
    ∧ ∀ u : Queue, s.queue q.val = some u →
    let ok := s.qState q.val = 1 ∧ w.toNat % 4 = 0 ∧ diff32 w.toNat (s.rptr q.val) ≤ 2 ^ u.log2
      ∧ diff32 w.toNat (s.wptr q.val) < 2 ^ 31
    (w.toNat ≠ s.wptr q.val → ok → exec (.doorbell q w) s = .next (s.setReg (Reg.DB_WPTR q.val) w))
    ∧ (w.toNat ≠ s.wptr q.val → ¬ok → s.qState q.val = 0 →
        exec (.doorbell q w) s = .next (s.setFlag (Reg.CPR_Q_STATUS q.val) 3))
    ∧ (w.toNat ≠ s.wptr q.val → ¬ok → s.qState q.val ≠ 0 → exec (.doorbell q w) s = .next
        ((if u.errIe then (s.setFlag (Reg.CPR_Q_STATUS q.val) 3).raiseVec u.errVec
          else s.setFlag (Reg.CPR_Q_STATUS q.val) 3).recC 0x0901 0x02 1 u.ctx q.val w.toNat))
    ∧ (∀ (p : Pkt) (s' : State), u.stream = none → s.fetchPkt u p = (.ok, s') →
        pktLen p ≤ diff32 (s.wptr p.q.val) u.fetch ∧ diff32 (s.wptr p.q.val) u.fetch < 2 ^ 31
          ∧ p.body.length = bits p.hdr.toNat 17 8)

/-- With UNC running: an enable of a context whose STATE is not disabled only posts 0x01; one whose descriptor lies out of place
only posts 0x02, and one whose descriptor breaks a rule only posts the code (0x02, 0x03, 0x04 or the MMU's); one whose object
table fails posts 0x04 and leaves no context; every other enable creates the context the descriptor gives, with EN 1, STATE
enabled, no fault and the work counters 0. A disable while a queue of the context is not disabled only posts 0x01; otherwise the
context is gone, with EN 0 and STATE disabled. A kill is ignored while STATE is disabled, waits with STATE killing during a Quench,
and goes on where it has begun; otherwise STATE reads killing, and where the context has no work on a cluster it ends at once:
its queues are off and nothing of it is left. Where it has, its queues stop and its clusters are asked to give it up; the kill ends
when they hold none. (R327, R328, R331, R568) -/
def Obligations.ContextLifecycle : Prop :=
∀ (c : Fin 32) (s : State), s.uncRuns = true →
    (s.flag (Reg.CPR_CTX_CTRL c.val) 0 = false → s.fld (Reg.CPR_CTX_STATUS c.val) 1 0 ≠ 0 →
        exec (.ctxEnable c) s = .next (s.setFld (Reg.CPR_CTX_STATUS c.val) 15 8 1))
    ∧ (s.flag (Reg.CPR_CTX_CTRL c.val) 0 = false → s.fld (Reg.CPR_CTX_STATUS c.val) 1 0 = 0 →
        (s.reg64 (Reg.CPR_CTX_DESC_LO c.val) % 128 ≠ 0 ∨ s.usable < s.reg64 (Reg.CPR_CTX_DESC_LO c.val) + 128) →
        exec (.ctxEnable c) s = .next (s.setFld (Reg.CPR_CTX_STATUS c.val) 15 8 2))
    ∧ (∀ d poison s1, s.flag (Reg.CPR_CTX_CTRL c.val) 0 = false → s.fld (Reg.CPR_CTX_STATUS c.val) 1 0 = 0 →
        s.reg64 (Reg.CPR_CTX_DESC_LO c.val) % 128 = 0 → s.reg64 (Reg.CPR_CTX_DESC_LO c.val) + 128 ≤ s.usable →
        s.devRead cpClass (s.reg64 (Reg.CPR_CTX_DESC_LO c.val)) 128 false = (d, poison, s1) →
        let form := poison = false ∧ dwordAt d 0 = 1 ∧ wordAt d 0x18 < 8192 ∧ bits (wordAt d 0x1C) 30 12 = 0
          ∧ (∀ b ∈ (d.drop 0x20).take 0x20, b = 0)
        let saves := dwordAt d 8 % 65536 = 0 ∧ dwordAt d 8 + saveBytes ≤ s1.usable
          ∧ (∀ o ∈ s1.otherCtxs c.val, overlaps (dwordAt d 8) saveBytes o.save saveBytes = false)
        let table := dwordAt d 0x10 % 32 = 0 ∧ wordAt d 0x18 ≤ 4096
        let x : Ctx := ⟨dwordAt d 8, dwordAt d 0x10, wordAt d 0x18 % 8192, wordAt d 0x1C % 4096, bit (wordAt d 0x1C) 31, parseXlat d,
          [], [], [], 0⟩
        let s2 : State := { s1.tlbDropAsid (parseXlat d).asid with
          ctxs := Sparse.put (s1.tlbDropAsid (parseXlat d).asid).ctxs c.val x }
        (¬form → exec (.ctxEnable c) s = .next (s1.setFld (Reg.CPR_CTX_STATUS c.val) 15 8 2))
        ∧ (form → ¬saves → exec (.ctxEnable c) s = .next (s1.setFld (Reg.CPR_CTX_STATUS c.val) 15 8 3))
        ∧ (form → saves → ¬table → exec (.ctxEnable c) s = .next (s1.setFld (Reg.CPR_CTX_STATUS c.val) 15 8 4))
        ∧ (form → saves → table → s1.xlatCheck c.val d ≠ 0 →
            exec (.ctxEnable c) s = .next (s1.setFld (Reg.CPR_CTX_STATUS c.val) 15 8 (s1.xlatCheck c.val d)))
        ∧ (∀ s3, form → saves → table → s1.xlatCheck c.val d = 0 →
            s2.readObjects c.val (dwordAt d 0x10) (wordAt d 0x18 % 8192) = (none, s3) →
            exec (.ctxEnable c) s = .next
              ({ s3.tlbDropAsid (parseXlat d).asid with ctxs := Sparse.drop s3.ctxs c.val }.setFld
                (Reg.CPR_CTX_STATUS c.val) 15 8 4))
        ∧ (∀ objs s3, form → saves → table → s1.xlatCheck c.val d = 0 →
            s2.readObjects c.val (dwordAt d 0x10) (wordAt d 0x18 % 8192) = (some objs, s3) →
            exec (.ctxEnable c) s = .next (s3.ctxUp c.val { x with objects := objs })
            ∧ ∃ t, exec (.ctxEnable c) s = .next t ∧ t.flag (Reg.CPR_CTX_CTRL c.val) 0 = true
              ∧ t.fld (Reg.CPR_CTX_STATUS c.val) 1 0 = 1 ∧ t.fld (Reg.CPR_CTX_STATUS c.val) 15 8 = 0
              ∧ t.reg (Reg.CPR_CTX_FAULT c.val) = 0 ∧ t.ctx c.val = some { x with objects := objs }
              ∧ t.reg64 (Reg.SCH_CTX_CMP_LO c.val) = 0 ∧ t.reg64 (Reg.SCH_CTX_GFX_LO c.val) = 0
              ∧ t.reg64 (Reg.SCH_CTX_CPY_LO c.val) = 0 ∧ t.queues = s3.queues))
    ∧ (s.flag (Reg.CPR_CTX_CTRL c.val) 0 = true → s.queuesOf c.val ≠ [] →
        exec (.ctxDisable c) s = .next (s.setFld (Reg.CPR_CTX_STATUS c.val) 15 8 1))
    ∧ (s.flag (Reg.CPR_CTX_CTRL c.val) 0 = true → s.queuesOf c.val = [] →
        exec (.ctxDisable c) s = .next (s.ctxOff c.val)
        ∧ ∃ t, exec (.ctxDisable c) s = .next t ∧ t.ctx c.val = none ∧ t.flag (Reg.CPR_CTX_CTRL c.val) 0 = false
          ∧ t.fld (Reg.CPR_CTX_STATUS c.val) 1 0 = 0 ∧ (∀ c', c' ≠ c.val → t.ctx c' = s.ctx c') ∧ t.queues = s.queues)
    ∧ (s.flag (Reg.CPR_CTX_CTRL c.val) 0 = true → exec (.ctxEnable c) s = .next s)
    ∧ (s.flag (Reg.CPR_CTX_CTRL c.val) 0 = false → exec (.ctxDisable c) s = .next s)
    ∧ (s.fld (Reg.CPR_CTX_STATUS c.val) 1 0 = 0 → exec (.ctxKill c) s = .next s)
    ∧ (s.fld (Reg.CPR_CTX_STATUS c.val) 1 0 ≠ 0 → s.sched.quench.isSome = true →
        exec (.ctxKill c) s = .next { s.setFld (Reg.CPR_CTX_STATUS c.val) 1 0 3 with
          sched := { s.sched with heldKills := s.sched.heldKills ++ [c.val] } })
    ∧ (s.fld (Reg.CPR_CTX_STATUS c.val) 1 0 ≠ 0 → s.sched.quench = none →
        (s.sched.losing.any (fun l => l.ctx == c.val && l.kill) = true → exec (.ctxKill c) s = .next s)
        ∧ (s.sched.losing.any (fun l => l.ctx == c.val && l.kill) = false →
            let s1 : State := s.setFld (Reg.CPR_CTX_STATUS c.val) 1 0 3
            let s2 : State := { s1 with sched := { s1.sched with losing := s1.sched.losing.filter (fun l => l.ctx ≠ c.val) } }
            ((List.range 12).any (fun k => s2.ctxOn c.val k) = true → exec (.ctxKill c) s = .next
              (((s2.queuesOf c.val).foldl (fun s q => s.setQState q 4) s2).loseStart ⟨c.val, none, true⟩))
            ∧ ((List.range 12).any (fun k => s2.ctxOn c.val k) = false → exec (.ctxKill c) s = .next (s2.killEnd c.val)
              ∧ ∃ t, exec (.ctxKill c) s = .next t ∧ t.ctx c.val = none ∧ t.flag (Reg.CPR_CTX_CTRL c.val) 0 = false
                ∧ t.fld (Reg.CPR_CTX_STATUS c.val) 1 0 = 0
                ∧ (∀ n k b, (n, k) ∈ t.cores → b ∈ k.blocks → b.2.ctx ≠ c.val))))

/-- With UNC running: an enable of a queue that is not disabled only posts 0x05, one whose descriptor address is not a multiple
of 64 only posts 0x06; one that passes the queue codes ends with EN 1, STATE enabled and both pointers 0, before the status
block is written. A disable clears EN; a stopped queue is disabled at once, and an enabled one keeps only its started units and
drains until they have retired. (R336, R340) -/
def Obligations.QueueLifecycle : Prop :=
∀ (q : Fin 64) (s : State), s.uncRuns = true →
    (s.flag (Reg.CPR_Q_CTRL q.val) 0 = false → s.qState q.val ≠ 0 →
        exec (.qEnable q) s = .next (s.setFld (Reg.CPR_Q_STATUS q.val) 15 8 5))
    ∧ (s.flag (Reg.CPR_Q_CTRL q.val) 0 = false → s.qState q.val = 0 → s.reg64 (Reg.CPR_Q_DESC_LO q.val) % 64 ≠ 0 →
        exec (.qEnable q) s = .next (s.setFld (Reg.CPR_Q_STATUS q.val) 15 8 6))
    ∧ (∀ d s1, s.flag (Reg.CPR_Q_CTRL q.val) 0 = false → s.qState q.val = 0 → s.reg64 (Reg.CPR_Q_DESC_LO q.val) % 64 = 0 →
        s.reg64 (Reg.CPR_Q_DESC_LO q.val) + 64 ≤ s.usable →
        s.devRead cpClass (s.reg64 (Reg.CPR_Q_DESC_LO q.val)) 64 false = (d, false, s1) →
        dwordAt d 0 % 256 = 1 → dwordAt d 0 / 2 ^ 16 = 0 → bits (dwordAt d 0) 15 13 = 0 → 12 ≤ dwordAt d 0x10 → dwordAt d 0x10 ≤ 22 →
        dwordAt d 8 % 4096 = 0 → dwordAt d 0x18 % 64 = 0 → dwordAt d 0x20 = 0 → (∀ b ∈ d.drop 0x28, b = 0) →
        s1.fld (Reg.CPR_CTX_STATUS (bits (dwordAt d 0) 12 8)) 1 0 = 1 →
        ∃ (u : Queue) (s2 : State), exec (.qEnable q) s = .next (s2.reserves.updStatus q.val)
          ∧ s2.queue q.val = some u ∧ u.ctx = bits (dwordAt d 0) 12 8 ∧ u.ring = dwordAt d 8 ∧ u.log2 = dwordAt d 0x10
          ∧ u.rt = false ∧ u.units = [] ∧ u.fetch = 0
          ∧ s2.flag (Reg.CPR_Q_CTRL q.val) 0 = true ∧ s2.qState q.val = 1 ∧ s2.fld (Reg.CPR_Q_STATUS q.val) 15 8 = 0
          ∧ s2.wptr q.val = 0 ∧ s2.rptr q.val = 0)
    ∧ (s.flag (Reg.CPR_Q_CTRL q.val) 0 = true → 3 ≤ s.qState q.val →
        exec (.qDisable q) s = .next ((s.clearFlag (Reg.CPR_Q_CTRL q.val) 0).queueOff q.val).reserves)
    ∧ (∀ u, s.flag (Reg.CPR_Q_CTRL q.val) 0 = true → s.qState q.val < 3 → s.queue q.val = some u →
        exec (.qDisable q) s = .next (((((s.clearFlag (Reg.CPR_Q_CTRL q.val) 0).setQueue q.val
          { u with units := u.units.filter (fun w => w.started.isSome), wait := none }).setQState q.val 2).drainDone q.val).putStatuses [q.val]))

/-- With UNC running: a signal completes whoever owns the event; where no queue waits on it, its bit is 1, its generation one
higher modulo 2^32, and every other event's registers stay. A reset clears the bit and changes nothing else: the generation
stays. (R350, R352, R353, R354) -/
def Obligations.EventRegisters : Prop :=
∀ (e : Fin 4096) (s : State), s.uncRuns = true →
    ((∀ q u, (q, u) ∈ s.queues → u.wait = none) → ∃ t, exec (.evtRegSignal e) s = .next t
        ∧ t.flag (Reg.CPR_EVT_CTRL e.val) 0 = true
        ∧ t.fld (Reg.CPR_EVT_GEN e.val) 31 0 = ((s.reg (Reg.CPR_EVT_GEN e.val)).toNat + 1) % 2 ^ 32
        ∧ (∀ e' : Fin 4096, e' ≠ e → t.reg (Reg.CPR_EVT_CTRL e'.val) = s.reg (Reg.CPR_EVT_CTRL e'.val)
            ∧ t.reg (Reg.CPR_EVT_GEN e'.val) = s.reg (Reg.CPR_EVT_GEN e'.val))
        ∧ t.queues = s.queues)
    ∧ exec (.evtRegReset e) s = .next (s.clearFlag (Reg.CPR_EVT_CTRL e.val) 0)
    ∧ (s.evtReset e.val).reg (Reg.CPR_EVT_GEN e.val) = s.reg (Reg.CPR_EVT_GEN e.val)

/-- For a packet that is next in its queue and is executed: a NOP is done at once. An event signal by a context that may signal
it signals it, then is done; a reset likewise, and neither is refused but with 0x0E. An event wait that is met is done, with a
reset where it consumes; one that is not met makes its queue wait. A loop opens a level while fewer than four are open and stops
the queue with 0x0F otherwise. A loop end goes back to its body while rounds are left, and closes its level with the last. An
indirect buffer within its limits becomes the queue's stream, and inside another buffer it stops the queue with 0x0F. (R342,
R350, R351, R352, R354, R356, R357, R358) -/
def Obligations.ControlPackets : Prop :=
∀ (s s' : State) (p : Pkt) (u : Queue) (ptr : Nat),
    (PktRuns s p 0x00 u ptr s' → exec (.nop p) s = .next (s'.ctrlDone p.q.val u))
    ∧ (PktRuns s p 0x10 u ptr s' → EarlierDone s p.q.val → bits (pw p 0) 13 12 = 0 → s'.evtAllowed u.ctx (bits (pw p 0) 11 0) false = true →
        pd p 1 = 0 → exec (.eventSignal p) s = .next (((s'.setQueue p.q.val u).evtSignal (bits (pw p 0) 11 0)).ctrlDone p.q.val u))
    ∧ (PktRuns s p 0x10 u ptr s' → EarlierDone s p.q.val → bits (pw p 0) 13 12 = 0 → s'.evtAllowed u.ctx (bits (pw p 0) 11 0) false = false →
        exec (.eventSignal p) s = .next (s'.refuseCtrl p.q.val u ptr 0x0E))
    ∧ (PktRuns s p 0x10 u ptr s' → EarlierDone s p.q.val → bits (pw p 0) 13 12 = 1 → exec (.eventSignalReset p) s = .next
        (if s'.evtAllowed u.ctx (bits (pw p 0) 11 0) false = true then (s'.evtReset (bits (pw p 0) 11 0)).ctrlDone p.q.val u
         else s'.refuseCtrl p.q.val u ptr 0x0E))
    ∧ (PktRuns s p 0x11 u ptr s' → bits (pw p 0) 13 12 < 2 → s'.evtAllowed u.ctx (bits (pw p 0) 11 0) true = true →
        let e := bits (pw p 0) 11 0
        let mode := bits (pw p 0) 13 12
        exec (.eventWait p) s = .next
          (if s'.waitMet e mode (pw p 1) then (if bit (pw p 0) 14 then s'.evtReset e else s').ctrlDone p.q.val u
           else s'.setQueue p.q.val { u with wait := some (.event e mode (pw p 1) (bit (pw p 0) 14) (s'.deadline (pw p 2))) }))
    ∧ (PktRuns s p 0x19 u ptr s' → u.loops.length < 4 → exec (.loop p) s = .next (s'.ctrlDone p.q.val
        { u with loops := (match u.stream with
          | some st => ⟨pw p 0, st.pos, false⟩
          | none => ⟨pw p 0, u.fetch, true⟩) :: u.loops }))
    ∧ (PktRuns s p 0x19 u ptr s' → 4 ≤ u.loops.length → exec (.loop p) s = .next (s'.stopQueue p.q.val ptr 0x0F))
    ∧ (∀ l t, PktRuns s p 0x1A u ptr s' → u.loops = l :: t → l.inRing = u.stream.isNone → l.count = 1 →
        exec (.loopEnd p) s = .next (s'.ctrlDone p.q.val { u with loops := t }))
    ∧ (∀ l t, PktRuns s p 0x1A u ptr s' → u.loops = l :: t → u.stream = none → l.inRing = true → 2 ≤ l.count → l.count < 2 ^ 32 →
        exec (.loopEnd p) s = .next (s'.ctrlDone p.q.val { u with loops := { l with count := l.count - 1 } :: t, fetch := l.body }))
    ∧ (PktRuns s p 0x1A u ptr s' → u.loops = [] → exec (.loopEnd p) s = .next (s'.stopQueue p.q.val ptr 0x0F))
    ∧ (PktRuns s p 0x1D u ptr s' → u.stream = none → pd p 0 % 4 = 0 → pw p 2 % 4 = 0 → 4 ≤ pw p 2 → pw p 2 ≤ 16777216 →
        exec (.indirect p) s = .next (s'.setQueue p.q.val { u with stream := some ⟨pd p 0, pw p 2, 0, false, false⟩ }))
    ∧ (PktRuns s p 0x1D u ptr s' → u.stream.isSome = true → exec (.indirect p) s = .next (s'.stopQueue p.q.val ptr 0x0F))

/-- For a packet that is next and is executed, after every earlier unit: a conditional skip whose comparison holds is done, one
whose comparison fails passes over SKIP bytes more. A memory wait that holds at its first read is done, and otherwise polls
after POLL µs; a poll that holds ends the wait. A memory write stores its source at its address and is done. An object
synchronisation replaces the context's objects by those read. A misaligned address and the reserved comparison are refused with
0x14. A wait on an event or on memory whose deadline has come ends, noted in the status words; the queue moves past the packet.
(R333, R354, R356) -/
def Obligations.MemoryPackets : Prop :=
∀ (s s' s1 : State) (p : Pkt) (u : Queue) (ptr v : Nat),
    (PktRuns s p 0x18 u ptr s' → EarlierDone s p.q.val → u.stream = none → pd p 0 % 4 = 0 → bits (pw p 4) 2 0 ≠ 7 →
        s'.cpValue u.ctx (pd p 0) 4 = (some v, s1) → exec (.cond p) s = .next (s1.ctrlDone p.q.val
          (if memCompare (bits (pw p 4) 2 0) v (pw p 2) (pw p 3) then u else { u with fetch := (u.fetch + pw p 5) % 2 ^ 32 })))
    ∧ (PktRuns s p 0x18 u ptr s' → EarlierDone s p.q.val → pd p 0 % 4 ≠ 0 → exec (.cond p) s = .next (s'.refuseCtrl p.q.val u ptr 0x14))
    ∧ (PktRuns s p 0x1B u ptr s' → EarlierDone s p.q.val → pd p 0 % 4 = 0 → bits (pw p 4) 2 0 ≠ 7 → 1 ≤ pw p 6 % 65536 →
        pw p 6 % 65536 ≤ 1000 → s'.cpValue u.ctx (pd p 0) 4 = (some v, s1) → exec (.waitMem p) s = .next
          (if memCompare (bits (pw p 4) 2 0) v (pw p 2) (pw p 3) then s1.ctrlDone p.q.val u
           else s1.setQueue p.q.val { u with wait := some (.mem (pd p 0) (pw p 2) (pw p 3) (bits (pw p 4) 2 0) (pw p 6 % 65536)
             (s1.time + us (pw p 6 % 65536)) (s1.deadline (pw p 5))) }))
    ∧ (∀ (q : Fin 64) w a mask ref func poll next until_, s.queue q.val = some w → w.wait = some (.mem a mask ref func poll next until_) →
        next ≤ s.time → s.cpValue w.ctx a 4 = (some v, s1) → exec (.waitMemPoll q) s = .next
          (if memCompare func v mask ref then s1.ctrlDone q.val { w with wait := none }
           else s1.setQueue q.val { w with wait := some (.mem a mask ref func poll (s1.time + us poll) until_) }))
    ∧ (PktRuns s p 0x1C u ptr s' → EarlierDone s p.q.val → bits (pw p 2) 1 0 = 0 → pd p 0 % 4 = 0 →
        s'.vwrite .command u.ctx (pd p 0) cpClass (full (leBytes 4 (pw p 3))) false false = (none, s1) →
        exec (.writeMem p) s = .next (s1.ctrlDone p.q.val u))
    ∧ (PktRuns s p 0x1C u ptr s' → EarlierDone s p.q.val → bits (pw p 2) 1 0 = 2 → pd p 0 % 8 = 0 →
        s'.vwrite .command u.ctx (pd p 0) cpClass (full (leBytes 8 s'.time)) false false = (none, s1) →
        exec (.writeMem p) s = .next (s1.ctrlDone p.q.val u))
    ∧ (∀ x objs, PktRuns s p 0x24 u ptr s' → s'.ctx u.ctx = some x → s'.readObjects u.ctx x.obj x.objCount = (some objs, s1) →
        exec (.objSync p) s = .next
          ({ s1 with ctxs := Sparse.update s1.ctxs u.ctx (fun x => { x with objects := objs }) }.ctrlDone p.q.val u))
    ∧ (∀ (q : Fin 64) (u : Queue) (t : Nat), s.queue q.val = some u →
    ((∃ e mode g c, u.wait = some (.event e mode g c (some t))) →
      exec (.eventWaitTimeout q) s = .next (if t ≤ s.time then
        ((s.waitTimeout q.val).advanceRptr q.val (if u.stream.isNone then u.fetch else s.rptr q.val)).endStream q.val else s))
    ∧ ((∃ a m r f p n, u.wait = some (.mem a m r f p n (some t))) →
      exec (.waitMemTimeout q) s = .next (if t ≤ s.time then
        ((s.waitTimeout q.val).advanceRptr q.val (if u.stream.isNone then u.fetch else s.rptr q.val)).endStream q.val else s)))

/-- Where the queue is in the ring, and its status block can be written, the end of a control packet stores the queue past the
packet and moves RPTR up to that position, never back; the context, the other queues and the events stay. (R337, R338, R342) -/
def Obligations.ControlPacketMoves : Prop :=
∀ (s s2 : State) (q : Nat) (u : Queue), u.stream = none →
    ((s.setQueue q u).advanceRptr q u.fetch).putStatus q = (none, s2) →
      s.ctrlDone q u = s2 ∧ ((s.setQueue q u).advanceRptr q u.fetch).queue q = some u
        ∧ ((s.setQueue q u).advanceRptr q u.fetch).rptr q = (if laterThan u.fetch (s.rptr q) then u.fetch % 2 ^ 32 else s.rptr q)
        ∧ ((s.setQueue q u).advanceRptr q u.fetch).ctxs = s.ctxs
        ∧ (∀ q', q' ≠ q → ((s.setQueue q u).advanceRptr q u.fetch).queue q' = s.queue q')

/-- For a packet that is next and is executed, with fewer than 16 units of its queue in flight: a dispatch is decoded as a unit
that has not started, in the order of the stream; a copy or a fill whose body passes the operand check waits for a channel of
the copy engine, and one that fails it is refused with the check's code (0x41 for a zero width or height); a maintenance
operation that is reserved or has no lines is refused with 0x13, and a whole-cache one joins the queue of maintenance; a token
step whose slot another context holds is refused with 0x10. A refused unit completes with outcome 1 and its code. (R343, R345,
R346, R348, R349, R364) -/
def Obligations.UnitPackets : Prop :=
∀ (s s' : State) (p : Pkt) (u : Queue) (ptr : Nat), RoomForUnit s p.q.val →
    (PktRuns s p 0x01 u ptr s' → exec (.dispatch p) s = .next (s'.addUnit p.q.val u ptr (pktOrder p) false (.dispatch (kernelOf p))).2)
    ∧ (∀ fill : Bool, (copyOf p).fill = fill → PktRuns s p 0x08 u ptr s' →
        let c := copyOf p
        let code := c.check (bits (pw p 8) 2 1) (2 ^ 48) false
        let a := s'.addUnit p.q.val u ptr (pktOrder p) true (.copy c)
        let t := if code ≠ 0 then s'.refuseUnit p.q.val u ptr code (pktOrder p) (.copy c)
          else ({ a.2 with sched := { a.2.sched with
            copyWait := a.2.sched.copyWait ++ [(p.q.val, (⟨p.q.val, a.1, u.ctx, c, false⟩ : CopyRun))] } }).copyArb 4
        (fill = false → exec (.copy p) s = .next t) ∧ (fill = true → exec (.copyFill p) s = .next t)
          ∧ (c.width = 0 ∨ c.height = 0 → code = 0x41) ∧ (code = 0 → c.dst + c.extent c.dpitch ≤ 2 ^ 48))
    ∧ (PktRuns s p 0x20 u ptr s' → pw p 0 % 8 = 0 ∨ pw p 0 % 8 = 7 →
        exec (.l2Maint p) s = .next (s'.refuseUnit p.q.val u ptr 0x13 (pktOrder p) (.maint 0x20 p.body)))
    ∧ (PktRuns s p 0x20 u ptr s' → pw p 0 % 8 = 1 ∨ pw p 0 % 8 = 2 →
        let a := s'.addUnit p.q.val u ptr (pktOrder p) true (.maint 0x20 p.body)
        exec (.l2Maint p) s = .next (a.2.maintAdd ⟨pw p 0 % 8, 0, 0, some (p.q.val, a.1)⟩))
    ∧ (PktRuns s p 0x2A u ptr s' →
        (∀ x, Sparse.find s'.slots (bits (pw p 0) 3 0) = some x → x.ctx ≠ u.ctx) →
        exec (.tokenStep p) s = .next (s'.refuseUnit p.q.val u ptr 0x10 (pktOrder p) (.step (bits (pw p 0) 3 0) (bits (pw p 0) 13 8)
          (pd p 1) (pw p 3) (pd p 4) (pw p 6 % 4096) (bit (pw p 6) 31))))
    ∧ (∀ x, PktRuns s p 0x2A u ptr s' → Sparse.find s'.slots (bits (pw p 0) 3 0) = some x → x.ctx = u.ctx → u.rt = false →
        1 ≤ bits (pw p 0) 13 8 → bits (pw p 0) 13 8 ≤ 32 → pd p 4 % 64 = 0 → pd p 1 % 4 = 0 → pw p 3 % 4 = 0 →
        4 ≤ pw p 3 → pw p 3 ≤ 16777216 →
        exec (.tokenStep p) s = .next (s'.addUnit p.q.val u ptr (pktOrder p) false (.step (bits (pw p 0) 3 0) (bits (pw p 0) 13 8)
          (pd p 1) (pw p 3) (pd p 4) (pw p 6 % 4096) (bit (pw p 6) 31))).2)

/-- For a packet that is next and is executed. A slot definition whose slot is free and whose descriptor is read and right
defines the slot with it; a slot already defined, a reserved OP and a misaligned descriptor are refused with 0x10. A release by
the owner of a slot without sequences and without a waiting step takes the slot away; any other is refused with 0x10. A
submission to an owned slot under a free number, with a right record, makes the sequence and writes STATE 1 into the record; a
taken number is refused with 0x11. A cancel by the owner only marks the sequence; any other is refused with 0x11. (R360, R361,
R362, R363) -/
def Obligations.SlotsAndSequences : Prop :=
∀ (s s' s1 : State) (p : Pkt) (u : Queue) (ptr : Nat) (d : List Byte),
    (∀ x, PktRuns s p 0x28 u ptr s' → bits (pw p 0) 5 4 = 0 → Sparse.find s'.slots (bits (pw p 0) 3 0) = none → pd p 1 % 64 = 0 →
        s'.vread .command u.ctx (pd p 1) 576 cpClass false false = (.ok d none, s1) → s1.parseSlot u.ctx d = some x →
        exec (.slotDefine p) s = .next (({ s1 with slots := Sparse.put s1.slots (bits (pw p 0) 3 0) x }.slotRegs (bits (pw p 0) 3 0)).ctrlDone
          p.q.val u) ∧ x.ctx = u.ctx ∧ x.usedPages = [] ∧ x.resident = false ∧ x.steps = 0)
    ∧ (PktRuns s p 0x28 u ptr s' → bits (pw p 0) 5 4 ≠ 1 →
        bits (pw p 0) 5 4 ≠ 0 ∨ (Sparse.find s'.slots (bits (pw p 0) 3 0)).isSome = true ∨ pd p 1 % 64 ≠ 0 →
        exec (.slotDefine p) s = .next (s'.refuseCtrl p.q.val u ptr 0x10))
    ∧ (PktRuns s p 0x28 u ptr s' → bits (pw p 0) 5 4 = 1 →
        let n := bits (pw p 0) 3 0
        let free := ∃ x, Sparse.find s'.slots n = some x ∧ x.ctx = u.ctx ∧ (∀ y ∈ s'.seqs, y.2.slot ≠ n)
          ∧ (∀ qu ∈ s'.queues, ∀ w ∈ qu.2.units, ∀ a b c d e f, w.kind = .step n a b c d e f → w.started ≠ none)
        (free → exec (.slotRelease p) s = .next (({ s' with slots := Sparse.drop s'.slots n }.slotRegs n).ctrlDone p.q.val u))
          ∧ (¬free → exec (.slotRelease p) s = .next (s'.refuseCtrl p.q.val u ptr 0x10)))
    ∧ (∀ y x, PktRuns s p 0x29 u ptr s' → bits (pw p 0) 9 8 = 0 → Sparse.find s'.seqs (bits (pw p 0) 5 0) = none →
        Sparse.find s'.slots (bits (pw p 0) 15 12) = some y → y.ctx = u.ctx → pd p 1 % 64 = 0 →
        s'.vread .command u.ctx (pd p 1) 128 cpClass false false = (.ok d none, s1) →
        parseSeq u.ctx (bits (pw p 0) 15 12) (pd p 1) s1.sched.order d = some x →
        exec (.seqSubmit p) s = .next (((({ s1 with
          seqs := Sparse.put s1.seqs (bits (pw p 0) 5 0) x,
          sched := { s1.sched with order := s1.sched.order + 1 } }.slotRegs (bits (pw p 0) 15 12)).ctrlDone p.q.val u)).seqWrite u.ctx (pd p 1) 1))
    ∧ (PktRuns s p 0x29 u ptr s' → bits (pw p 0) 9 8 = 0 → (Sparse.find s'.seqs (bits (pw p 0) 5 0)).isSome = true →
        exec (.seqSubmit p) s = .next (s'.refuseCtrl p.q.val u ptr 0x11))
    ∧ (PktRuns s p 0x29 u ptr s' → bits (pw p 0) 9 8 = 1 →
        let i := bits (pw p 0) 5 0
        (∀ x, Sparse.find s'.seqs i = some x → x.ctx = u.ctx →
            exec (.seqCancel p) s = .next ({ s' with seqs := Sparse.put s'.seqs i { x with cancel := true } }.ctrlDone p.q.val u))
          ∧ ((∀ x, Sparse.find s'.seqs i = some x → x.ctx ≠ u.ctx) → exec (.seqCancel p) s = .next (s'.refuseCtrl p.q.val u ptr 0x11)))

/-- The first unit of a queue that has not started starts with DISPATCH_START: with the queue and the context enabled, no
Quench, fewer than 16 units in flight and, for an ordered unit, every earlier one complete, a dispatch with a bad shape ends
REFUSED with 0x0A and one with too little shared memory REFUSED with 0x0B; a grid of no blocks ends OK. A token step of a slot
without sequences writes a batch of no entries, with the step number, the slot and the time stamp, counts the step and ends OK.
A seed invocation of the flow whose source is held does not start. The oldest unit, once complete, retires: it leaves the queue,
RETIRED is its sequence number, and RPTR moves up to its end. (R324, R343, R346, R347, R391, R395, R396) -/
def Obligations.UnitLifecycle : Prop :=
∀ (s : State) (q : Fin 64) (u : Queue) (w : WorkUnit),
    (∀ kn cx, (∀ fl, s.flow = some fl → fl.d.queue = q.val → ∀ i ∈ fl.invs, i.seq = w.seq → i.status ≠ .queued) → s.queue q.val = some u → u.units.find? (fun w => w.started.isNone) = some w → w.kernel = some kn → s.ctx u.ctx = some cx →
        s.uncRuns = true → s.coresTake = true → s.qState q.val = 1 → s.fld (Reg.CPR_CTX_STATUS u.ctx) 1 0 = 1 →
        s.sched.quench = none → u.inflight < 16 →
        w.order = false ∨ (∀ x ∈ u.units, x.status.isSome = true ∨ x.seq = w.seq) →
        (kn.shapeBad = true → exec (.dispatchStart q) s = .next (s.a1Exit.endAtStart q.val w 1 0x0A))
        ∧ (kn.shapeBad = false → 5 < kn.split ∨ kn.split * 128 < kn.shared →
            exec (.dispatchStart q) s = .next (s.a1Exit.endAtStart q.val w 1 0x0B))
        ∧ (∀ bufs s1 s2 x y z, kn.shapeBad = false → kn.split ≤ 5 → kn.shared ≤ kn.split * 128 →
            s.a1Exit.readLayout u.ctx kn (some (q.val, w.seq)) = (some (some bufs), s1) → kn.clusters < 4096 →
            s1.kernelClusters { kn with bufs := bufs } ≠ [] → (kn.indirect = true → kn.gridAddr % 4 = 0 ∧ kn.gridAddr < 2 ^ 48) →
            s1.readGrid u.ctx { kn with bufs := bufs } (some (q.val, w.seq)) = (some (x, y, z), s2) →
            (x * y * z = 0 → exec (.dispatchStart q) s = .next (s2.endAtStart q.val w 0 0))
            ∧ (0 < x * y * z → gridOk x y z = false → exec (.dispatchStart q) s = .next (s2.endAtStart q.val w 1 0x0A))
            ∧ (0 < x * y * z → gridOk x y z = true → kn.deadline ≠ 0 → kn.deadline < s2.time →
                exec (.dispatchStart q) s = .next (s2.endAtStart q.val w 3 0))
            ∧ (0 < x * y * z → gridOk x y z = true → kn.deadline = 0 ∨ s2.time ≤ kn.deadline →
                exec (.dispatchStart q) s = .next (s2.dispatchGo q.val w u.ctx { kn with bufs := bufs, gx := x, gy := y, gz := z } cx.xlat))))
    ∧ (∀ slot maxb prog len batch ev en y s1, s.queue q.val = some u → u.units.find? (fun w => w.started.isNone) = some w →
        w.kind = .step slot maxb prog len batch ev en → Sparse.find s.slots slot = some y → y.running = none →
        s.qState q.val = 1 → s.fld (Reg.CPR_CTX_STATUS u.ctx) 1 0 = 1 → s.sched.quench = none →
        (∀ x ∈ u.units, x.seq ≠ w.seq → x.status.isSome = true) → u.units.length ≤ 16 → (∀ x ∈ s.seqs, x.2.slot ≠ slot) → slot < 16 →
        (s.setFld (Reg.SCH_SLOT_SEQS slot) 21 16 0).vwrite .command u.ctx batch cpClass
          (full (wordBytes [y.steps, 0, slot, 0] ++ leBytes 8 s.time ++ List.replicate 2088 0)) false false = (none, s1) →
        s1.queue q.val = some u →
        exec (.stepBoundary q) s = .next ((({ s1 with slots := Sparse.update s1.slots slot (fun y => { y with steps := (y.steps + 1) % 2 ^ 32 })
          }.setQueue q.val { u with units := u.units.map (fun (x : WorkUnit) => if x.seq = w.seq
            then { x with started := some s1.time, limit := s1.fld (Reg.SCH_Q_CTRL q.val) 31 16 } else x) }).completeUnit q.val w.seq 0 0).slotRegs slot))
    ∧ (∀ fl i x, s.flow = some fl → fl.d.queue = q.val → s.queue q.val = some u →
        u.units.find? (fun w => w.started.isNone) = some w → fl.invs.find? (fun i => i.status == .queued && i.seq == w.seq) = some i →
        i.kind = .sr → x ∈ fl.sources → x.k = i.k → x.held = true → exec (.dispatchStart q) s = .next s)
    ∧ (let s0 := ((s.flowSync s.time).flowSettle).settleQ q.val;
        (∀ rest st, s0.queue q.val = some u → u.units = w :: rest → w.status = some st →
          let s1 := (s0.setQueue q.val { u with
            units := rest, retired := w.seq % 2 ^ 32, ended := [(w.seq % 2 ^ 32, st)] }).advanceRptr q.val w.endPtr
          ((∀ a b c d e f g, w.kind ≠ .step a b c d e f g) → exec (.unitRetire q) s = .next ((s1.updStatus q.val).drainDone q.val))
          ∧ (∀ a b c d e f g, w.kind = .step a b c d e f g →
              exec (.unitRetire q) s = .next (((s1.stepRetired q.val w.seq a f g (st == 0)).updStatus q.val).drainDone q.val)))
        ∧ (s0.queue q.val = some u → (∀ v ∈ u.units.head?, v.status = none) → exec (.unitRetire q) s = .next s0))

/-- For an issued instruction that reaches its effect, with operand B read where it has one: FALU, IALU, SEL, CVT and the SFU
complete, write DST in every running lane with the class's value of that lane's own operands, and change no other register, no
other lane, no flag and nothing else of the group. The values are those of the shared definitions that the statements on integer
and floating-point results describe. (R53, R57, R58, R59, R65, R102, R103, R606, R607, R608) -/
def Obligations.VectorArithmetic : Prop :=
∀ (s s' s1 : State) (x : Issue) (a : At) (b : BSrc),
    let A (l : Nat) := a.g.reg l a.i.srca.toNat
    let AW (l : Nat) := a.g.val a.i.wide l a.i.srca.toNat
    let Out (i : Instr) (s1 : State) (wide : Bool) (v : Nat → Nat) : Prop :=
      ∃ g, exec i s = .next { s1.putAt a g with draws := s1.draws + 1 } ∧ Writes a wide v g
    let F (op : Nat) (s1 : State) (bv : Nat → Nat) (l : Nat) := fapply a.i.type.toNat (modeOf a.i) (s1.freeOf l)
      (faluOp op (modeOf a.i).rnd) [A l, bv l, a.g.reg l a.i.srcc.toNat]
    let I (op : Nat) (bv : Nat → Nat) (l : Nat) := ialuVal op a.i.type.toNat (AW l) (bv l) (a.g.val a.i.wide l a.i.srcc.toNat)
    let S (op l : Nat) := packed a.i.type.toNat (fun h ws => sfuElem (typeFmt a.i.type.toNat).1 (typeFmt a.i.type.toNat).2 op
      (modeOf a.i) (s'.freeOf l h) (ws.getD 0 0)) [A l]
    (Issues s x 0 faluForm a s' →
      (s'.bsrc a false = (some b, s1) →
        (x.i.op = 0 → Out (.faluAdd x) s1 false (F 0 s1 (a.bval b false))) ∧ (x.i.op = 1 → Out (.faluSub x) s1 false (F 1 s1 (a.bval b false)))
        ∧ (x.i.op = 2 → Out (.faluMul x) s1 false (F 2 s1 (a.bval b false))) ∧ (x.i.op = 3 → Out (.faluFma x) s1 false (F 3 s1 (a.bval b false)))
        ∧ (x.i.op = 4 → Out (.faluMin x) s1 false (F 4 s1 (a.bval b false))) ∧ (x.i.op = 5 → Out (.faluMax x) s1 false (F 5 s1 (a.bval b false))))
      ∧ (x.i.op = 6 → Out (.faluMov x) s' false (F 6 s' A)) ∧ (x.i.op = 7 → Out (.faluAbs x) s' false (F 7 s' A))
      ∧ (x.i.op = 8 → Out (.faluNeg x) s' false (F 8 s' A)))
    ∧ (Issues s x 1 ialuForm a s' →
      (s'.bsrc a a.i.wide = (some b, s1) →
        let bv := a.bval b a.i.wide
        (x.i.op = 0 → Out (.ialuAdd x) s1 a.i.wide (I 0 bv)) ∧ (x.i.op = 1 → Out (.ialuSub x) s1 a.i.wide (I 1 bv))
        ∧ (x.i.op = 2 → Out (.ialuMul x) s1 a.i.wide (I 2 bv)) ∧ (x.i.op = 3 → Out (.ialuMulh x) s1 a.i.wide (I 3 bv))
        ∧ (x.i.op = 4 → Out (.ialuMad x) s1 a.i.wide (I 4 bv)) ∧ (x.i.op = 5 → Out (.ialuAnd x) s1 a.i.wide (I 5 bv))
        ∧ (x.i.op = 6 → Out (.ialuOr x) s1 a.i.wide (I 6 bv)) ∧ (x.i.op = 7 → Out (.ialuXor x) s1 a.i.wide (I 7 bv))
        ∧ (x.i.op = 13 → Out (.ialuXbit x) s1 a.i.wide (I 13 bv)))
      ∧ (s'.bsrc a false = (some b, s1) → (x.i.op = 9 → Out (.ialuShl x) s1 a.i.wide (I 9 (a.bval b false)))
        ∧ (x.i.op = 10 → Out (.ialuShr x) s1 a.i.wide (I 10 (a.bval b false))))
      ∧ (x.i.op = 8 → Out (.ialuNot x) s' a.i.wide (I 8 AW)) ∧ (x.i.op = 11 → Out (.ialuOnes x) s' a.i.wide (I 11 AW))
      ∧ (x.i.op = 12 → Out (.ialuLzc x) s' a.i.wide (I 12 AW)))
    ∧ (Issues s x 2 cmpForm a s' → x.i.op = 1 → s'.bsrc a a.i.wide = (some b, s1) → Out (.sel x) s1 a.i.wide
        (fun l => selVal a.i.type.toNat (modeOf a.i) (s1.freeOf l)
          (if a.g.flag (bits a.i.srcc.toNat 2 0) l then AW l else a.bval b a.i.wide l)))
    ∧ (∀ (t v : Nat) (m : FMode) (free : Nat → Nat), (3 ≤ t ∨ (m.sat = false ∧ m.ftz = false)) → selVal t m free v = v)
    ∧ (Issues s x 3 cvtForm a s' → x.i.op = 0 → cvtSrc x.i = 0 ∧ (x.i.type = 1 ∨ x.i.type = 2) → s'.bsrc a false = (some b, s1) →
        Out (.cvt x) s1 false (fun l => cvtVal 0 a.i.type.toNat (modeOf a.i) (s1.freeOf l) (A l) (a.bval b false l)))
    ∧ (Issues s x 3 cvtForm a s' → x.i.op = 0 → ¬(cvtSrc x.i = 0 ∧ (x.i.type = 1 ∨ x.i.type = 2)) → Out (.cvt x) s' (cvtPair a.i)
        (fun l => cvtVal (cvtSrc a.i) a.i.type.toNat (modeOf a.i) (s'.freeOf l)
          (a.g.val (typeBits (cvtSrc a.i) == 64) l a.i.srca.toNat) (a.g.reg l a.i.srcb.toNat)))
    ∧ (Issues s x 4 sfuForm a s' →
      (x.i.op = 0 → Out (.rcp x) s' false (S 0)) ∧ (x.i.op = 1 → Out (.rsq x) s' false (S 1)) ∧ (x.i.op = 3 → Out (.ex2 x) s' false (S 3))
      ∧ (x.i.op = 4 → Out (.lg2 x) s' false (S 4)) ∧ (x.i.op = 5 → Out (.sin x) s' false (S 5)) ∧ (x.i.op = 6 → Out (.cos x) s' false (S 6))
      ∧ (x.i.op = 2 → Out (.sqrt x) s' false (fun l => fapply a.i.type.toNat (modeOf a.i) (s'.freeOf l) (fun xs => (xs.getD 0 .nan).sqrt) [A l])))

/-- For TYPE S32, U32 and B32 at 32 bits and S64 and U64 at 64: ADD, SUB, MUL, MAD, AND, OR, XOR and NOT are the operations
modulo the width; MULH is the high half of the product, of sign-extended operands for a signed TYPE and of zero-extended ones
otherwise; SHL shifts in zeros, SHR shifts in the sign for a signed TYPE and zeros otherwise, and a count of the width or more
shifts everything out. LZC gives the position of the highest set bit, and the width for 0. XBIT takes B[12:8] + 1 bits from bit
B[4:0]. (R57, R606, R607) -/
def Obligations.IntegerResults : Prop :=
∀ (t w : Nat), 3 ≤ t → t ≤ 7 → w = typeBits t →
    (∀ (a b c : BitVec w) (n : Nat),
      let r (op : Nat) : BitVec w := BitVec.ofNat w (ialuVal op t a.toNat b.toNat c.toNat)
      r 0 = a + b ∧ r 1 = a - b ∧ r 2 = a * b ∧ r 4 = a * b + c ∧ r 5 = a &&& b ∧ r 6 = a ||| b ∧ r 7 = a ^^^ b ∧ r 8 = ~~~a
      ∧ r 3 = (if typeSigned t then (a.signExtend (2 * w) * b.signExtend (2 * w)).extractLsb' w w
          else (a.setWidth (2 * w) * b.setWidth (2 * w)).extractLsb' w w)
      ∧ BitVec.ofNat w (ialuVal 9 t a.toNat n 0) = a <<< n
      ∧ BitVec.ofNat w (ialuVal 10 t a.toNat n 0) = (if typeSigned t then a.sshiftRight n else a >>> n)
      ∧ (∀ op, op ≤ 12 → ialuVal op t a.toNat b.toNat c.toNat < 2 ^ w)
      ∧ ialuVal 12 t 0 b.toNat 0 = w
      ∧ (∀ k, k < w → a.toNat / 2 ^ k = 1 → ialuVal 12 t a.toNat b.toNat 0 = w - 1 - k))
    ∧ (t ≠ 5 → t ≠ 6 → ∀ (a b : BitVec 32),
      let n := bits b.toNat 12 8 + 1
      let f := a.toNat / 2 ^ bits b.toNat 4 0 % 2 ^ n
      ialuVal 13 t a.toNat b.toNat 0 = (if typeSigned t ∧ 2 ^ (n - 1) ≤ f then f + 2 ^ 32 - 2 ^ n else f))

/-- For F32 without SAT and FTZ: an ADD, SUB, MUL or FMA with a NaN operand gives the canonical NaN 0x7FC0_0000, whatever the
NaN's payload. MIN and MAX with exactly one NaN operand give the other operand's value, of +0 and −0 in either order MIN gives
−0 and MAX +0. MOV, ABS and NEG of a word that is not a NaN copy, clear and flip bit 31. An ordered comparison with a NaN is
false and an unordered one true. (R57, R58, R101, R103) -/
def Obligations.FloatResults : Prop :=
∀ (r : Rnd) (free : Nat → Nat) (a b c : BitVec 32),
    let m : FMode := ⟨r, false, false⟩
    let v (op : Nat) (x y z : BitVec 32) : Nat := fapply 0 m free (faluOp op r) [x.toNat, y.toNat, z.toNat]
    let nan (x : BitVec 32) : Prop := bits x.toNat 30 23 = 255 ∧ bits x.toNat 22 0 ≠ 0
    (nan a ∨ nan b → v 0 a b c = 0x7FC00000 ∧ v 1 a b c = 0x7FC00000 ∧ v 2 a b c = 0x7FC00000 ∧ v 3 a b c = 0x7FC00000)
    ∧ (nan c → v 3 a b c = 0x7FC00000)
    ∧ (nan a → ¬nan b → v 4 a b c = b.toNat ∧ v 5 a b c = b.toNat) ∧ (nan b → ¬nan a → v 4 a b c = a.toNat ∧ v 5 a b c = a.toNat)
    ∧ (nan a → nan b → v 4 a b c = 0x7FC00000 ∧ v 5 a b c = 0x7FC00000)
    ∧ v 4 0 0x80000000 c = 0x80000000 ∧ v 4 0x80000000 0 c = 0x80000000 ∧ v 5 0 0x80000000 c = 0 ∧ v 5 0x80000000 0 c = 0
    ∧ (¬nan a → v 6 a b c = a.toNat ∧ v 7 a b c = a.toNat % 2 ^ 31 ∧ v 8 a b c = (a ^^^ 0x80000000).toNat)
    ∧ (∀ mod, mod < 16 → nan a ∨ nan b → cmpFloat mod a.toNat b.toNat = decide (8 ≤ mod))

/-- For an issued instruction that reaches its effect: CMPF and FLOG write flag PD in the running lanes and nothing else. PERM
gives each running lane the SRCA of the lane that MOD selects, or its own where that lane is inactive or out of range. TALLY
writes every active lane: PD with ALL or ANY, DST with MASK. FOLD writes the combination of the running lanes, in ascending
order, to each of them. MOVS writes the special register. A pointer conversion writes the converted address and PD, 0 where the
address lies outside the window, and with CHK such a lane raises PCV_RANGE instead. (R46, R57, R71, R89, R606) -/
def Obligations.FlagsAndLanes : Prop :=
∀ (s s' s1 : State) (x : Issue) (a : At) (b : BSrc),
    let AW (l : Nat) := a.g.val a.i.wide l a.i.srca.toNat
    let P (i : Instr) (s1 : State) (v : Nat → Bool) : Prop := ∃ g, exec i s = .next (s1.putAt a g) ∧ WritesFlag a v g
    (Issues s x 2 cmpForm a s' →
      (x.i.op = 0 → s'.bsrc a a.i.wide = (some b, s1) → P (.cmpf x) s1 (fun l => if a.i.type = 0
        then cmpFloat a.i.mod.toNat (AW l) (a.bval b a.i.wide l) else cmpInt a.i.type.toNat a.i.mod.toNat (AW l) (a.bval b a.i.wide l)))
      ∧ (x.i.op = 2 → P (.flog x) s' (fun l => flagLogic (bits a.i.mod.toNat 1 0) (a.g.flag (bits a.i.srca.toNat 2 0) l)
        (a.g.flag (bits a.i.srcb.toNat 2 0) l))))
    ∧ (Issues s x 5 (xlnForm false) a s' →
      (x.i.op = 0 → s'.bsrc a a.i.wide = (some b, s1) → ∃ g, exec (.perm x) s = .next { s1.putAt a g with draws := s1.draws + 1 }
        ∧ Writes a a.i.wide (fun l =>
          let d : Int := if a.i.bsel = 1 then signed (if a.i.wide then 64 else 32) (a.bval b a.i.wide l) else a.bval b a.i.wide l
          let k : Int := if a.i.mod = 0 then d else if a.i.mod = 1 then (l : Int) - d else if a.i.mod = 2 then l + d
            else (Nat.xor l (a.bval b a.i.wide l) : Nat)
          if 0 ≤ k ∧ k < 32 ∧ k.toNat ∈ a.g.lanes then AW k.toNat else AW l) g)
      ∧ (∀ v vs, x.i.op = 2 → (a.g.run a.i).map AW = v :: vs → ∃ g, exec (.fold x) s = .next (s'.putAt a g)
        ∧ Writes a a.i.wide (fun _ =>
          vs.foldl (foldStep a.i.mod.toNat a.i.type.toNat) (foldStart a.i.mod.toNat a.i.type.toNat v)) g))
    ∧ (Issues s x 5 (xlnForm true) a s' → x.i.op = 1 → ∃ g, exec (.tally x) s = .next (s'.putAt a g)
      ∧ (a.i.mod ≠ 2 → g.regs = a.g.regs ∧ (∀ l f, l < 32 → g.flag f l = if l ∈ a.g.lanes ∧ f = a.i.pd.toNat ∧ f < 7 then
          (if a.i.mod = 0 then decide (∀ k ∈ a.g.lanes, a.g.guard a.i k = true) else decide (∃ k ∈ a.g.lanes, a.g.guard a.i k = true))
          else a.g.flag f l))
      ∧ (a.i.mod = 2 → g.flags = a.g.flags ∧ (∀ l r, l < 32 → r < 256 → g.reg l r =
          if l ∈ a.g.lanes ∧ r = a.i.dst.toNat then (maskOf (a.g.run a.i)).toNat else a.g.reg l r)))
    ∧ (Issues s x 13 specForm a s' →
      (x.i.op = 0 → ∃ g, exec (.movs x) s = .next (s'.putAt a g)
        ∧ (∃ h, Writes a false (fun l => specialVal a s'.time (match a.g.timeHi with
            | some v => v.toNat
            | none => s'.time / 2 ^ 32 % 2 ^ 32) a.i.imm.toNat l) h ∧ g.regs = h.regs ∧ g.flags = a.g.flags)
        ∧ g.timeHi = (if a.i.imm = 0x0E then some (BitVec.ofNat 32 (s'.time / 2 ^ 32)) else if a.i.imm = 0x0F then none else a.g.timeHi))
      ∧ (let conv (h2d : Bool) (l : Nat) := pcvVal a.b.kernel h2d (a.g.val true l a.i.srca.toNat)
        let Done (i : Instr) (h2d : Bool) : Prop :=
          ((a.i.mod.toNat % 2 = 0 ∨ ∀ l ∈ a.g.run a.i, conv h2d l ≠ none) → ∃ g, exec i s = .next (s'.putAt a g)
            ∧ (∃ h, Writes a true (fun l => (conv h2d l).getD 0) h ∧ g.regs = h.regs)
            ∧ (∃ h, WritesFlag a (fun l => (conv h2d l).isSome) h ∧ g.flags = h.flags))
          ∧ (∀ l, a.i.mod.toNat % 2 = 1 → (a.g.run a.i).find? (fun l => (conv h2d l).isNone) = some l →
              exec i s = .next (s'.exc a 0x010A l (a.g.val true l a.i.srca.toNat)))
        (x.i.op = 1 → Done (.pcvH2d x) true) ∧ (x.i.op = 2 → Done (.pcvD2h x) false)))

/-- For a group whose divergence stack is full: SPLIT, and BRA, CALL, JVEC and RET that must push, raise DIV_STACK_OVERFLOW,
code 0x0106, in the lowest running lane; the group that the exception stops is the one before the instruction, with its own pc,
stack, masks, registers and flags. (R67) -/
def Obligations.FullDivergenceStack : Prop :=
∀ (s s' : State) (x : Issue) (a : At), Issues s x 11 brForm a s' →
    let ovf := s'.exc a 0x0106 ((a.g.run a.i).headD 0) 0
    let run := a.g.run a.i
    let rest := a.g.lanes.filter (fun l => !run.contains l)
    let tgt (l : Nat) : Nat := if run.contains l then a.g.val true l a.i.srca.toNat else a.g.pc
    let targets := (targetsOf (a.g.lanes.map (fun l => (l, tgt l)))).length
    (x.i.op = 1 → 32 ≤ a.g.stack.length → exec (.split x) s = .next ovf)
    ∧ (x.i.op = 0 → rest ≠ [] → 32 ≤ a.g.stack.length → exec (.bra x) s = .next ovf)
    ∧ (x.i.op = 3 → rest ≠ [] → 32 ≤ a.g.stack.length → exec (.call x) s = .next ovf)
    ∧ ((∀ l ∈ run, tgt l < 2 ^ 48 ∧ tgt l % 8 = 0) → 33 < a.g.stack.length + targets →
        (x.i.op = 4 → exec (.ret x) s = .next ovf) ∧ (x.i.op = 8 → exec (.jvec x) s = .next ovf))
    ∧ Sparse.find ((s'.putGroup a.core a.slot { a.g with pc := a.pc, wait := .stopped }).core a.core).groups a.slot
        = some { a.g with pc := a.pc, wait := .stopped }
    ∧ ovf = ((s'.putGroup a.core a.slot { a.g with pc := a.pc, wait := .stopped }).excNote a 0x0106 ((a.g.run a.i).headD 0) 0).contextFault
        a.b.ctx 0x0106 (cluUnit a.core) (some (a.b.q, a.b.seq))

/-- For an issued instruction that reaches its effect. A branch that every active lane takes moves the pc; a divergent one pushes
the taken path, continues with the rest, and needs room on the stack. A call does the same after writing the return address in
the running lanes. SPLIT pushes the active mask; JOIN takes the topmost entry whose mask is not empty, passing over the others,
and without one raises DIV_STACK_UNDERFLOW. A return and a vector jump take each running lane to the address in its pair and the
others to the next instruction: with every address in range and aligned, the lanes of the lowest lane's target continue there and
the other targets are pushed as paths; the lowest lane whose address is out of range or misaligned raises its exception. An exit
of all live lanes ends the group; with active lanes left they go on, and otherwise the topmost stack entry that has a lane is
taken. TRAP raises its exception with IMM[15:0]. YIELD makes its group wait, and only the end of the 16 cycles makes it ready.
(R65, R66, R68, R69, R70) -/
def Obligations.ControlFlow : Prop :=
∀ (s s' : State) (x : Issue) (a : At),
    let run := a.g.run a.i
    let low := run.headD 0
    let rest := a.g.lanes.filter (fun l => !run.contains l)
    let tgt (l : Nat) : Nat := if run.contains l then a.g.val true l a.i.srca.toNat else a.g.pc
    let bad (l : Nat) : Prop := 2 ^ 48 ≤ tgt l ∨ tgt l % 8 ≠ 0
    let left : Group := { a.g with
      live := a.g.live &&& ~~~maskOf run, active := a.g.active &&& ~~~maskOf run, stack := dropLanes (maskOf run) a.g.stack }
    (Issues s x 11 brForm a s' →
      (x.i.op = 0 → rest = [] → exec (.bra x) s = .next (s'.putAt a { a.g with pc := a.target }))
      ∧ (x.i.op = 0 → rest ≠ [] → a.g.stack.length < 32 → exec (.bra x) s = .next (s'.putAt a
          { a.g with stack := .path a.target (maskOf run) :: a.g.stack, active := maskOf rest }))
      ∧ (x.i.op = 1 → a.g.stack.length < 32 → exec (.split x) s = .next (s'.putAt a { a.g with stack := .split a.g.active :: a.g.stack }))
      ∧ (∀ e t, x.i.op = 2 → a.g.stack = e ++ t → (∀ d ∈ e, (∃ m, d = .split m ∧ m = 0) ∨ ∃ pc m, d = .path pc m ∧ m = 0) →
          (∀ m u, t = .split m :: u → m ≠ 0 → exec (.join x) s = .next (s'.putAt a { a.g with stack := u, active := m }))
          ∧ (∀ pc m u, t = .path pc m :: u → m ≠ 0 →
              exec (.join x) s = .next (s'.putAt a { a.g with stack := u, active := m, pc := pc }))
          ∧ (t = [] → exec (.join x) s = .next (s'.exc a 0x0107 low 0)))
      ∧ (x.i.op = 3 → rest = [] → ∃ g, exec (.call x) s = .next (s'.putAt a g) ∧ g.pc = a.target
          ∧ Writes a true (fun _ => a.g.pc) { g with pc := a.g.pc })
      ∧ (x.i.op = 3 → rest ≠ [] → a.g.stack.length < 32 → ∃ g, exec (.call x) s = .next (s'.putAt a g)
          ∧ g.stack = .path a.target (maskOf run) :: a.g.stack ∧ g.active = maskOf rest
          ∧ Writes a true (fun _ => a.g.pc) { g with stack := a.g.stack, active := a.g.active })
      ∧ (∀ l t, a.g.lanes.head? = some l → tgt l = t → (∀ m ∈ run, ¬bad m) →
          let others := (targetsOf (a.g.lanes.map (fun m => (m, tgt m)))).tail
          let g : Group := { a.g with
            active := maskOf (a.g.lanes.filter (fun m => tgt m == t)), pc := t
            stack := others.map (fun u => .path u (maskOf (a.g.lanes.filter (fun m => tgt m == u)))) ++ a.g.stack }
          a.g.stack.length + others.length ≤ 32 →
          (x.i.op = 4 → exec (.ret x) s = .next (s'.putAt a g)) ∧ (x.i.op = 8 → exec (.jvec x) s = .next (s'.putAt a g)))
      ∧ (∀ l pre post, run = pre ++ l :: post → (∀ m ∈ pre, ¬bad m) →
          (2 ^ 48 ≤ tgt l → (x.i.op = 4 → exec (.ret x) s = .next (s'.exc a 0x0104 l (tgt l)))
            ∧ (x.i.op = 8 → exec (.jvec x) s = .next (s'.exc a 0x0104 l (tgt l))))
          ∧ (tgt l < 2 ^ 48 → tgt l % 8 ≠ 0 → (x.i.op = 4 → exec (.ret x) s = .next (s'.exc a 0x0103 l (tgt l)))
            ∧ (x.i.op = 8 → exec (.jvec x) s = .next (s'.exc a 0x0103 l (tgt l)))))
      ∧ (x.i.op = 5 → left.active ≠ 0 → left.live ≠ 0 → exec (.exit x) s = .next (s'.putAt a left).gfxPump)
      ∧ (x.i.op = 5 → left.active = 0 → left.live ≠ 0 →
          (∀ g, left.joinFrom left.stack = some g → exec (.exit x) s = .next (s'.putAt a g).gfxPump)
          ∧ (left.joinFrom left.stack = none → exec (.exit x) s = .next (s'.exc a 0x0107 low 0).gfxPump))
      ∧ (x.i.op = 5 → left.live = 0 → exec (.exit x) s = .next ((s'.putAt a left).groupEnd a.core a.slot
          (fun core slot s => s.stageDone core slot)).gfxPump)
      ∧ (x.i.op = 6 → exec (.trap x) s = .next (s'.exc a 0x010D low (a.i.imm.toNat % 65536)))
      ∧ (x.i.op = 7 → exec (.yield x) s = .next (s'.putAt a { a.g with wait := .yield })))
    ∧ (∀ (core : Fin 48) (slot : Fin 64) (g : Group), Sparse.find (s.core core.val).groups slot.val = some g →
        (g.wait = .yield → exec (.yieldExpire core slot) s = .next (s.putGroup core.val slot.val { g with wait := .ready })
          ∧ ∃ t, exec (.yieldExpire core slot) s = .next t
            ∧ Sparse.find (t.core core.val).groups slot.val = some { g with wait := .ready }
            ∧ t.regs = s.regs ∧ (∀ n, n ≠ core.val → t.core n = s.core n))
        ∧ (g.wait ≠ .yield → exec (.yieldExpire core slot) s = .next (s.putGroup core.val slot.val g)))

/-- For an issued instruction that reaches its effect: an arrival whose count exceeds the block's groups or 32 raises
BARRIER_MISMATCH in the arriving group and in every group that is at the barrier. Otherwise the group's accesses are performed, it
stays on the way to the barrier while data of host memory is outstanding for it, and then arrives: with an expected count that agrees
it is counted once, WAITB then waits, MARKB goes on, and the phase ends when the count is reached; a count unlike the phase's raises
BARRIER_MISMATCH. A block all of whose live groups wait, with no barrier complete, raises BARRIER_DEADLOCK in each. A fence at
block scope performs the group's accesses; at device or system scope the group waits until its accesses are performed, goes on at
once where nothing is outstanding, and with acquire it invalidates the core's L1. (R72, R73, R74, R75, R76, R86) -/
def Obligations.BarriersAndFences : Prop :=
∀ (s s' : State) (x : Issue) (a : At),
    (Issues s x 10 barForm a s' →
      let n := a.i.imm.toNat % 16
      let cnt := bits a.i.imm.toNat 9 4
      let low := (a.g.run a.i).headD 0
      let way (wait : Bool) : State := s'.putAt a { a.g with wait := .arrive n cnt wait low }
      let others := ((s'.core a.core).groupsOf a.g.block).filterMap (fun g => match g.2.atBarrier with
        | some (m, l) => if m = n then some (g.1, n, l) else none
        | none => none)
      (cnt ≤ 32 → cnt ≤ a.b.groups →
        (x.i.op = 0 → exec (.waitb x) s = .next (((way true).settleAll a.core a.slot).fenceCheck a.core a.slot))
        ∧ (x.i.op = 1 → exec (.markb x) s = .next (((way false).settleAll a.core a.slot).fenceCheck a.core a.slot)))
      ∧ (32 < cnt ∨ a.b.groups < cnt →
        (x.i.op = 0 → exec (.waitb x) s = .next (s'.excMany a.core 0x0109 (insertSlot (a.slot, n, low) others)))
        ∧ (x.i.op = 1 → exec (.markb x) s = .next (s'.excMany a.core 0x0109 (insertSlot (a.slot, n, low) others)))))
    ∧ (∀ core slot n cnt wait low g b, s.groupAt core slot = some (g, b) → g.wait = .arrive n cnt wait low →
        let bar := Sparse.get b.bars ⟨none, [], [], false⟩ n
        let arrived := if bar.arrived.contains g.num then bar.arrived else bar.arrived ++ [g.num]
        let nb : Barrier := ⟨some cnt, arrived, if wait then bar.waiting ++ [g.num] else bar.waiting, false⟩
        (g.hostPending = true → s.fenceCheck core slot = s)
        ∧ (g.hostPending = false → bar.count = none ∨ bar.count = some cnt → s.fenceCheck core slot =
            ((s.putBlock core g.block { b with bars := Sparse.put b.bars n nb }).putGroup core slot
              { g with wait := if wait then .barrier n low else .ready }).barrierCheck core g.block)
        ∧ (g.hostPending = false → bar.count ≠ none → bar.count ≠ some cnt →
            s.fenceCheck core slot = s.excMany core 0x0109 [(slot, n, low)]))
    ∧ (∀ (b : Barrier) (live : List Nat), (b.count = some 0 → (b.complete live = true ↔ ∀ n ∈ live, n ∈ b.arrived))
        ∧ (∀ c, 0 < c → b.count = some c → (b.complete live = true ↔ c ≤ b.arrived.length)))
    ∧ (∀ (core : Fin 48) (bs : Fin 32) (b : Block) (waits : List (Nat × Nat × Nat)), Sparse.find (s.core core.val).blocks bs.val = some b →
        (s.core core.val).groupsOf bs.val ≠ [] →
        ((s.core core.val).groupsOf bs.val).map (fun g => (g.1, g.2.wait)) = waits.map (fun w => (w.1, GroupWait.barrier w.2.1 w.2.2)) →
        (∀ p ∈ b.bars, p.2.complete (((s.core core.val).groupsOf bs.val).map (fun g => g.2.num)) = false) →
        exec (.barrierDeadlock core bs) s = .next (s.excMany core.val 0x0108 waits))
    ∧ (Issues s x 10 fenceForm a s' → x.i.op = 2 →
        let scope := bits a.i.mod.toNat 1 0
        let kind := bits a.i.mod.toNat 3 2
        (scope = 0 → exec (.fence x) s = .next (s'.blockFence a.core a.slot))
        ∧ (scope ≠ 0 → exec (.fence x) s = .next ((s'.updGroup a.core a.slot (fun g => { g with
            wait := .fence (decide (kind ≠ 1)) (scope + (if kind ≠ 0 then 4 else 0)) })).fenceCheck a.core a.slot))
        ∧ (a.g.ops = [] → a.g.hostWrite = none →
          (scope = 0 → ∃ t, exec (.fence x) s = .next t ∧ t.groupAt a.core a.slot = some (a.g, a.b) ∧ t.regs = s'.regs)
          ∧ (scope ≠ 0 → ∃ t, exec (.fence x) s = .next t ∧ t.groupAt a.core a.slot = some (a.g, a.b)
            ∧ (kind ≠ 1 → (t.core a.core).l1 = []) ∧ (kind = 1 → (t.core a.core).l1 = (s'.core a.core).l1))))

/-- For an issued instruction that reaches its effect: with every lane's address in range and aligned, a load, a store or an
atomic becomes an operation in flight with each running lane's address, the pair at SRCA plus IMM, and its operand; otherwise
the lowest failing lane's exception is raised, ADDRESS_RANGE before MISALIGNED. The response of a load or atomic whose lines have
all arrived writes the destination registers, and the operation is no longer in flight; poisoned data faults its context instead.
A store is no longer in flight once every line is acknowledged. A descriptor that ends a walk gives its translation to the accesses
that waited for the walk, one that is a table goes on to the next level, a failed read is a fault for them, and a response of no
walk changes nothing. Bit errors that a response brings have arisen before it (DEDUCED, log entry 10). (R77, R78, R84, R86, R90, R405,
R414) -/
def Obligations.GlobalAccesses : Prop :=
∀ (s s' s1 : State) (x : Issue) (a : At) (b : BSrc),
    let addr (l : Nat) : Nat := (a.gaddr l).toNat
    let pair (l : Nat) : Nat := a.g.val true l a.i.srca.toNat
    let inside (l : Nat) : Prop := pair l < 2 ^ 48 ∧ 0 ≤ a.gaddr l ∧ a.gaddr l < 2 ^ 48
    let fits (n l : Nat) : Prop := inside l ∧ a.gaddr l % n = 0
    let Faults (n : Nat) (s' : State) (i : Instr) : Prop := ∀ l pre post, a.g.run a.i = pre ++ l :: post → (∀ m ∈ pre, fits n m) →
      (¬inside l → exec i s = .next (s'.exc a 0x0104 l (wrapInt 64 (a.gaddr l))))
      ∧ (inside l → a.gaddr l % n ≠ 0 → exec i s = .next (s'.exc a 0x0103 l (addr l)))
    (Issues s x 7 (memForm false) a s' →
      let n : Nat := 2 ^ (a.i.op.toNat % 8)
      (bit x.i.op.toNat 3 = false → (∀ l ∈ a.g.run a.i, fits n l) → exec (.gmemLoad x) s = .next (s'.startOp a .load n
        (bit a.i.op.toNat 4) false (bits a.i.ext.toNat 1 0) a.i.dst.toNat ((a.g.run a.i).map (fun l => ⟨l, addr l, 0, 0, none⟩))))
      ∧ (bit x.i.op.toNat 3 = true → (∀ l ∈ a.g.run a.i, fits n l) → s'.bwords a (memRegs n) = (some b, s1) →
        exec (.gmemStore x) s = .next (s1.startOp a .store n false false (bits a.i.ext.toNat 1 0) 0
          ((a.g.run a.i).map (fun l => ⟨l, addr l, a.storeVal b n l, 0, none⟩))))
      ∧ (bit x.i.op.toNat 3 = false → Faults n s' (.gmemLoad x)) ∧ (bit x.i.op.toNat 3 = true → Faults n s' (.gmemStore x)))
    ∧ (Issues s x 9 atomForm a s' → bit a.i.op.toNat 7 = false → s'.bsrc a a.i.wide = (some b, s1) →
      let n := if a.i.wide then 8 else 4
      let t (op : Nat) := s1.startOp a (.atomic op true) n false (typeSigned a.i.type.toNat) 1 a.i.dst.toNat
        ((a.g.run a.i).map (fun l => ⟨l, addr l, a.bval b a.i.wide l, a.g.val a.i.wide l a.i.srcc.toNat, none⟩))
      let Does (op : Nat) (i : Instr) : Prop := x.i.op.toNat = op →
        ((∀ l ∈ a.g.run a.i, fits n l) → exec i s = .next (t op)) ∧ Faults n s1 i
      Does 0 (.atomAdd x) ∧ Does 1 (.atomMin x) ∧ Does 2 (.atomMax x) ∧ Does 3 (.atomAnd x) ∧ Does 4 (.atomOr x)
      ∧ Does 5 (.atomXor x) ∧ Does 6 (.atomExch x) ∧ Does 7 (.atomCas x))
    ∧ (∀ (core : Fin 48) (slot : Fin 64) (g : Group) (blk : Block) (o : MemOp), s.groupAt core.val slot.val = some (g, blk) → g.op o.id = some o →
        (o.kind ≠ .store → o.answered = false → exec (.loadResponse core slot o.id []) s = .next s)
        ∧ (∀ g1 b1 o1, o.answered = true →
          let s1 := s.settleLines core.val slot.val o
          s1.groupAt core.val slot.val = some (g1, b1) → g1.op o.id = some o1 →
          (o1.poisonAt = none → exec (.loadResponse core slot o.id []) s
            = .next ((s1.putGroup core.val slot.val (g1.loaded o1 o1.lineData)).fenceCheck core.val slot.val))
          ∧ (∀ pa, o1.poisonAt = some pa → exec (.loadResponse core slot o.id []) s = .next
            ((s1.cutOp core.val slot.val o.id (fun _ => false)).poisonFault blk.ctx pa (some (blk.q, blk.seq)))))
        ∧ (o.kind = .load → (∀ l ∈ o.lines, ∃ cls out bs, l.st = .arrived cls out bs) →
          (∀ l m, l ∈ o.lines → m ∈ o.lines → l.va = m.va → l = m) → g.wait = .ready →
          ∃ t lines, exec (.loadResponse core slot o.id []) s = .next t ∧ t.groupAt core.val slot.val = some (g.loaded o lines, blk)
            ∧ (∀ l cls out bs, l ∈ o.lines → l.st = .arrived cls out bs → Sparse.find lines l.va = some (lineBytes bs)))
        ∧ (o.kind = .store → (∀ l ∈ o.lines, s.acked l = true) →
          exec (.storeAck core slot o.id) s = .next ((s.putGroup core.val slot.val
              { g with ops := g.ops.filter (fun y => y.id != o.id) }).fenceCheck core.val slot.val)
          ∧ (g.wait = .ready → ∃ t, exec (.storeAck core slot o.id) s = .next t
            ∧ t.groupAt core.val slot.val = some ({ g with ops := g.ops.filter (fun y => y.id != o.id) }, blk)))
        ∧ ((∃ l ∈ o.lines, s.acked l = false) → exec (.storeAck core slot o.id) s = .next s))
    ∧ (∀ core slot op es, exec (.loadResponse core slot op es) s = exec (.loadResponse core slot op []) (s.ariseAll es))
    ∧ (∀ w r, (∀ v ∈ s.mmu.walks, v.id ≠ w) → exec (.walkReadResponse w r) s = .next s)
    ∧ (∀ id r w cx d c s2, s.mmu.walks.find? (fun w => w.id == id) = some w → s.ctx w.ctx = some cx →
        let s1 : State := { s with hif := { s.hif with reads := s.hif.reads.filter (fun x => x.for_ ≠ HostReadFor.walk id) } }
        let off (s : State) : State := { s with mmu := { s.mmu with walks := s.mmu.walks.filter (fun x => x.id ≠ id) } }
        s1.walkData w r = (d, c, s2) →
        (d = none → exec (.walkReadResponse id r) s = .next
          ((off s2).walkDeliver w.core id (.fault ⟨5, w.level, s1.walkAddr cx.xlat w, c, w.host⟩)))
        ∧ (∀ v e, d = some v →
          let s3 := if w.covered then s2 else s2.wcachePut e
          (∀ f, s2.walkFeed w.ctx cx.xlat w.host w.ia w.level (s1.walkAddr cx.xlat w) v w.wr w.ex = (.fault f, e) →
            exec (.walkReadResponse id r) s = .next ((off s3).walkDeliver w.core id (.fault f)))
          ∧ (∀ out size wr ex dv level,
            s2.walkFeed w.ctx cx.xlat w.host w.ia w.level (s1.walkAddr cx.xlat w) v w.wr w.ex = (.done out size wr ex dv level, e) →
            let end_ := s3.walkEnd w.tlb cx.xlat w.host w.ia out size wr ex dv level w.access w.covered
            exec (.walkReadResponse id r) s = .next ((off end_.2).walkDeliver w.core id end_.1))
          ∧ (∀ level addr cls out wr ex,
            s2.walkFeed w.ctx cx.xlat w.host w.ia w.level (s1.walkAddr cx.xlat w) v w.wr w.ex = (.readAt level addr cls out wr ex, e) →
            let w' : Walk := { w with level := level, addr := out, cls := cls, wr := wr, ex := ex }
            let s4 : State := { s3 with mmu := { s3.mmu with walks := s3.mmu.walks.map (fun (y : Walk) => if y.id = id then w' else y) } }
            exec (.walkReadResponse id r) s = .next
              (if cls = .device then s4 else s4.hostReadStart w.unit w.ctx out 8 false (.walk id)))))

/-- For an issued instruction that reaches its effect, with every lane's bytes inside the allocation and aligned: a load that meets
no parity error writes the bytes at SRCA plus IMM, extended as OP gives, to the destination registers of each running lane and
nothing else; a store writes its data's bytes, of lanes storing one byte the highest wins, with sound parity, and the other bytes
stay; an atomic on shared memory replaces each lane's word by its combination and returns the old word, in ascending lane order. A
load or atomic that meets a parity error writes nothing and takes the path of record 0x0204. The lowest failing lane raises
SHARED_RANGE outside the allocation, and MISALIGNED inside it. (R51, R79, R80, R84, R158, R609) -/
def Obligations.SharedMemory : Prop :=
∀ (s s' s1 : State) (x : Issue) (a : At) (b : BSrc),
    let off (l : Nat) : Nat := (a.saddr l).toNat
    let inside (n l : Nat) : Prop := 0 ≤ a.saddr l ∧ a.saddr l + n ≤ (a.b.kernel.shared * 256 : Nat)
    let fits (n l : Nat) : Prop := inside n l ∧ a.saddr l % n = 0
    let Faults (n : Nat) (s' : State) (i : Instr) : Prop := ∀ l pre post, a.g.run a.i = pre ++ l :: post → (∀ m ∈ pre, fits n m) →
      (¬inside n l → exec i s = .next (s'.exc a 0x0105 l (wrapInt 32 (a.saddr l))))
      ∧ (inside n l → a.saddr l % n ≠ 0 → exec i s = .next (s'.exc a 0x0103 l (off l)))
    (Issues s x 8 (memForm true) a s' →
      let n : Nat := 2 ^ (a.i.op.toNat % 8)
      let r0 := a.i.dst.toNat
      (bit x.i.op.toNat 3 = false → (∀ l ∈ a.g.run a.i, fits n l) →
        (a.b.parityIn ((a.g.run a.i).map off) n = none → ∃ g, exec (.smemLoad x) s = .next (s'.putAt a g)
          ∧ g = { a.g with regs := g.regs }
          ∧ ∀ l r, l < 32 → r < 256 → g.reg l r =
            if l ∈ a.g.run a.i ∧ r0 ≤ r ∧ r < r0 + max 1 (n / 4)
            then extendLoad n (bit a.i.op.toNat 4) (a.b.shared (off l) n) / 2 ^ (32 * (r - r0)) % 2 ^ 32 else a.g.reg l r)
        ∧ (∀ k, a.b.parityIn ((a.g.run a.i).map off) n = some k → exec (.smemLoad x) s = .next (s'.smemParity a k)))
      ∧ (bit x.i.op.toNat 3 = true → (∀ l ∈ a.g.run a.i, fits n l) → s'.bwords a (memRegs n) = (some b, s1) →
        ∃ blk : Block, exec (.smemStore x) s = .next (s1.putBlock a.core a.g.block blk)
        ∧ blk = { a.b with smem := blk.smem, smemBad := blk.smemBad }
        ∧ (∀ k, (∀ l ∈ a.g.run a.i, k < off l ∨ off l + n ≤ k) → Sparse.get blk.smem 0 k = Sparse.get a.b.smem 0 k)
        ∧ (∀ k, k ∈ blk.smemBad ↔ k ∈ a.b.smemBad ∧ ∀ l ∈ a.g.run a.i, k < off l ∨ off l + n ≤ k)
        ∧ (∀ l j, l ∈ a.g.run a.i → j < n → (∀ m ∈ a.g.run a.i, l < m → off l + j < off m ∨ off m + n ≤ off l + j) →
            Sparse.get blk.smem 0 (off l + j) = BitVec.ofNat 8 (a.storeVal b n l / 2 ^ (8 * j))))
      ∧ (bit x.i.op.toNat 3 = false → Faults n s' (.smemLoad x)) ∧ (bit x.i.op.toNat 3 = true → Faults n s' (.smemStore x)))
    ∧ (Issues s x 9 atomForm a s' → bit a.i.op.toNat 7 = true → s'.bsrc a a.i.wide = (some b, s1) →
      let n := if a.i.wide then 8 else 4
      let op := a.i.op.toNat % 128
      let i : Instr := if op = 0 then .atomAdd x else if op = 1 then .atomMin x else if op = 2 then .atomMax x else if op = 3 then .atomAnd x
        else if op = 4 then .atomOr x else if op = 5 then .atomXor x else if op = 6 then .atomExch x else .atomCas x
      let lane (p : Block × Group) (l : Nat) : Block × Group :=
        (p.1.setShared (off l) n (atomVal op n (typeSigned a.i.type.toNat) (p.1.shared (off l) n) (a.bval b a.i.wide l)
            (a.g.val a.i.wide l a.i.srcc.toNat)),
         p.2.setVal a.i.wide l a.i.dst.toNat (p.1.shared (off l) n))
      Faults n s1 i
      ∧ ((∀ l ∈ a.g.run a.i, fits n l) → ∀ k, a.b.parityIn ((a.g.run a.i).map off) n = some k → exec i s = .next (s1.smemParity a k))
      ∧ ((∀ l ∈ a.g.run a.i, fits n l) → a.b.parityIn ((a.g.run a.i).map off) n = none →
        let p := (a.g.run a.i).foldl lane (a.b, a.g)
        exec i s = .next ((s1.putBlock a.core a.g.block p.1).putAt a p.2)
        ∧ ∀ l, a.g.run a.i = [l] → p.1 = a.b.setShared (off l) n (atomVal op n (typeSigned a.i.type.toNat) (a.b.shared (off l) n)
              (a.bval b a.i.wide l) (a.g.val a.i.wide l a.i.srcc.toNat))
            ∧ Writes a a.i.wide (fun _ => a.b.shared (off l) n) p.2))
    ∧ (∀ n sgn old v w, atomVal 0 n sgn old v w = (old + v) % 2 ^ (8 * n) ∧ atomVal 3 n sgn old v w = Nat.land old v
        ∧ atomVal 4 n sgn old v w = Nat.lor old v ∧ atomVal 5 n sgn old v w = Nat.xor old v ∧ atomVal 6 n sgn old v w = v
        ∧ atomVal 7 n sgn old v w = (if old = v then w else old)
        ∧ (atomVal 1 n false old v w) % 2 ^ (8 * n) = min (old % 2 ^ (8 * n)) (v % 2 ^ (8 * n))
        ∧ (atomVal 2 n false old v w) % 2 ^ (8 * n) = max (old % 2 ^ (8 * n)) (v % 2 ^ (8 * n)))

/-- For an issued instruction that reaches its effect: a load and a store go to each running lane's span (a plain buffer, the ring
slot that SRCC names, a stage group's buffer). With every lane inside its span, aligned and on a slot it may use, a load that meets
no uncorrectable error writes the span's bytes to the destination registers and nothing else, and a store writes the source bytes
and leaves every other byte. Otherwise the lowest failing lane raises GRD_RANGE, MISALIGNED or CREDIT_STATE, in this order; an
unused buffer raises GRD_RANGE; an uncorrectable error faults the context with 0x0202. On a ring, CWAIT goes on where its slot is
usable and otherwise waits, and raises CREDIT_STATE for a slot given up; CREL counts on a held slot of an inbound ring, CPOST on a
writable slot of an outbound one, and CQRY reads FILL; each raises GRD_RANGE on a buffer that is no ring. FREE or FILL then
advances over every slot whose count is complete. Bit errors that a load brings have arisen before it (DEDUCED, log entry 10). (R140, R141, R142, R145, R146, R147, R148) -/
def Obligations.GriddleAccesses : Prop :=
∀ (s s' : State) (x : Issue) (a : At), Issues s x 12 grdForm a s' →
    let n : Nat := 2 ^ (a.i.op.toNat % 8)
    let low := (a.g.run a.i).headD 0
    let sl := a.g.reg (a.g.lanes.headD 0) a.i.srca.toNat
    let t := s'.grdTarget a
    let at_ (l : Nat) : Nat := (a.span t l).1 + (a.saddr l).toNat
    let inside (l : Nat) : Prop := 0 ≤ a.saddr l ∧ a.saddr l + n ≤ ((a.span t l).2.1 : Int)
    let fits (l : Nat) : Prop := inside l ∧ a.saddr l % n = 0 ∧ (a.span t l).2.2 = true
    let load := 2 ≤ a.i.op.toNat ∧ a.i.op.toNat ≤ 4
    let store := 10 ≤ a.i.op.toNat ∧ a.i.op.toNat ≤ 12
    let Faults (i : Instr) : Prop := (t = .unused → exec i s = .next (s'.exc a 0x010F low 0))
      ∧ ∀ l pre post, t ≠ .unused → a.g.run a.i = pre ++ l :: post → (∀ m ∈ pre, fits m) →
        (¬inside l → exec i s = .next (s'.exc a 0x010F l 0))
        ∧ (inside l → a.saddr l % n ≠ 0 → exec i s = .next (s'.exc a 0x0103 l 0))
        ∧ (inside l → a.saddr l % n = 0 → (a.span t l).2.2 = false → exec i s = .next (s'.exc a 0x0110 l 0))
    (load → Faults (.gld x [])) ∧ (store → Faults (.gst x))
    ∧ (∀ u es, u.ariseAll es = s → exec (.gld x es) u = exec (.gld x []) s)
    ∧ (load → t ≠ .unused → (∀ l ∈ a.g.run a.i, fits l) →
      (∀ s2, s'.grdLanes a t n = (true, s2) → exec (.gld x []) s = .next
        (s2.contextFault a.b.ctx 0x0202 (cluUnit a.core) (some (a.b.q, a.b.seq))))
      ∧ (∀ s2, s'.grdLanes a t n = (false, s2) → ∃ g, exec (.gld x []) s = .next (s2.putAt a g) ∧ g = { a.g with regs := g.regs }
          ∧ ∀ l r, l < 32 → r < 256 → g.reg l r =
            if l ∈ a.g.run a.i ∧ a.i.dst.toNat ≤ r ∧ r < a.i.dst.toNat + n / 4
            then leNat ((List.range 4).map (fun j => s2.grdByte a (at_ l + 4 * (r - a.i.dst.toNat) + j))) else a.g.reg l r))
    ∧ (store → t ≠ .unused → (∀ l ∈ a.g.run a.i, fits l) →
      exec (.gst x) s = .next ((a.g.run a.i).foldl (fun s l =>
          ((List.range n).foldl (fun s j => s.grdSet a (at_ l + j)
            (BitVec.ofNat 8 (a.g.many l a.i.srcb.toNat (memRegs n) / 2 ^ (8 * j)))) s).grdWipe
              (a.core / 4) (s.grdAt (a.core / 4) a.b (at_ l)) n) s')
      ∧ (a.b.stage = none → ∃ u, exec (.gst x) s = .next u ∧ u.regs = s'.regs
        ∧ u.cores = s'.cores ∧ (∀ k, k ≠ a.core / 4 → u.cluster k = s'.cluster k)
        ∧ (∀ k, (∀ l ∈ a.g.run a.i, k < at_ l ∨ at_ l + n ≤ k) → u.grdByte a k = s'.grdByte a k)
        ∧ (∀ l j, a.g.run a.i = [l] → j < n →
            u.grdByte a (at_ l + j) = BitVec.ofNat 8 (a.g.many l a.i.srcb.toNat (memRegs n) / 2 ^ (8 * j)))))
    ∧ (∀ inb base size m count r, t = .ring inb base size m count r →
      let done := s'.putRing (a.core / 4) a.b.q a.b.seq (a.i.ext.toNat % 16)
        (({ r with counts := Sparse.bump r.counts sl 1 } : Ring).advance inb count m)
      (a.i.op = 16 → r.gone inb sl = true → exec (.cwait x) s = .next (s'.exc a 0x0110 low 0))
      ∧ (a.i.op = 16 → r.usable inb m sl = true → exec (.cwait x) s = .next s')
      ∧ (a.i.op = 16 → r.gone inb sl = false → r.usable inb m sl = false →
          exec (.cwait x) s = .next (s'.putAt a { a.g with wait := .credit (a.i.ext.toNat % 16) sl }))
      ∧ (a.i.op = 17 → exec (.crel x) s = .next (if inb = true ∧ r.usable true m sl = true then done else s'.exc a 0x0110 low 0))
      ∧ (a.i.op = 18 → exec (.cpost x) s = .next (if inb = true then s'.exc a 0x010F low 0
          else if r.usable false m sl = true then done else s'.exc a 0x0110 low 0))
      ∧ (a.i.op = 19 → ∃ g, exec (.cqry x) s = .next (s'.putAt a g) ∧ Writes a false (fun _ => r.fill) g)
      ∧ (0 < count → 0 < m → Sparse.get r.counts 0 (if inb then r.free else r.fill) < count →
          (r.advance inb count m).free = r.free ∧ (r.advance inb count m).fill = r.fill))
    ∧ ((∀ inb base size m count r, t ≠ .ring inb base size m count r) →
      (a.i.op = 16 → exec (.cwait x) s = .next (s'.exc a 0x010F low 0)) ∧ (a.i.op = 17 → exec (.crel x) s = .next (s'.exc a 0x010F low 0))
      ∧ (a.i.op = 18 → exec (.cpost x) s = .next (s'.exc a 0x010F low 0)) ∧ (a.i.op = 19 → exec (.cqry x) s = .next (s'.exc a 0x010F low 0)))

/-- For all elements of c and of the products: the accumulation is c plus the exact sum of the products; with SAT 0 the 32-bit
two's-complement word of it modulo 2^32, with SAT 1 the word of the value clamped to −2^31 to 2^31 − 1. For an MMA with S32
accumulation that reaches its effect in all 32 lanes, element (m, n) of D is that accumulation of C's element and the k
products, whose sum is at most 2^23 in magnitude. (R117) -/
def Obligations.S32Accumulation : Prop :=
(∀ (c : BitVec 32) (ps : List Int),
      BitVec.ofNat 32 (accS32 false c.toNat ps) = BitVec.ofInt 32 (c.toInt + ps.sum) ∧ accS32 false c.toNat ps < 2 ^ 32
      ∧ accS32 true c.toNat ps < 2 ^ 32
      ∧ (BitVec.ofNat 32 (accS32 true c.toNat ps)).toInt = max (-2 ^ 31) (min (2 ^ 31 - 1) (c.toInt + ps.sum)))
  ∧ ∀ (s s' : State) (x : Issue) (a : At) (k : Nat), Issues s x 6 mmaForm a s' → x.i.op = 0 → a.i.type = 3 →
      (∀ l, l < 32 → l ∈ a.g.run a.i) → mmaShape (aFmt a.i) (bFmt a.i) 3 = some k →
      let ea (m j : Nat) := fmtIntVal (aFmt a.i) (a.g.elem (nativeAt (fmtBits (aFmt a.i)) m j).1 a.i.srca.toNat (fmtBits (aFmt a.i))
        (nativeAt (fmtBits (aFmt a.i)) m j).2)
      let eb (j n : Nat) := fmtIntVal (bFmt a.i) (a.g.elem (nativeAt (fmtBits (bFmt a.i)) n j).1 a.i.srcb.toNat (fmtBits (bFmt a.i))
        (nativeAt (fmtBits (bFmt a.i)) n j).2)
      ∃ g, exec (.mma x) s = .next ((s'.putAt a g).macs a.core (256 * k))
        ∧ ∀ m n, m < 16 → n < 16 →
          let ps := (List.range k).map (fun j => ea m j * eb j n)
          ((-2 ^ 23 : Int) ≤ ps.sum ∧ ps.sum ≤ 2 ^ 23)
          ∧ g.reg (m % 8 * 4 + n / 4) (a.i.dst.toNat + (m / 8 * 4 + n % 4)) = accS32 (bit a.i.mod.toNat 0) (mmaC a m n) ps

/-- For an issued instruction that reaches its effect: MMA with F32 accumulation, MMA_X and MMA_P with all 32 lanes running write
the accumulation of C's element and the products of row m and column n to the lane and register of D's element (m, n), and count
their multiply-accumulates. MMA takes the operands' codes as they are, MMA_X one operand's through its expansion, whose saturated
and NaN results it counts, MMA_P both decoded to E8M13. With a lane that does not run they raise MMA_LANES. OCVT writes the packed
codes of the eight converted elements of each running lane, the unused high bits 0, and counts saturated and NaN results; UNPK
writes eight F32 words. Registers outside the destination run, and those of other lanes, stay. (R109, R112, R113, R114, R115, R119,
R124, R126, R129, R132) -/
def Obligations.MatrixUnit : Prop :=
∀ (s s' : State) (x : Issue) (a : At), Issues s x 6 mmaForm a s' →
    let all : Prop := ∀ l, l < 32 → l ∈ a.g.run a.i
    let Keeps (g : Group) (n : Nat) : Prop := g = { a.g with regs := g.regs }
      ∧ ∀ l r, l < 32 → r < 256 → r < a.i.dst.toNat ∨ a.i.dst.toNat + n ≤ r ∨ l ∉ a.g.run a.i → g.reg l r = a.g.reg l r
    let D (g : Group) (m n : Nat) : Nat := g.reg (m % 8 * 4 + n / 4) (a.i.dst.toNat + (m / 8 * 4 + n % 4))
    let el (base w h j : Nat) (nat : Nat) : Nat := a.g.elem (nativeAt nat h j).1 base w (nativeAt nat h j).2
    (∀ k, all → x.i.op = 0 → a.i.type = 0 → mmaShape (aFmt a.i) (bFmt a.i) 0 = some k →
      ∃ g, exec (.mma x) s = .next ((s'.putAt a g).macs a.core (256 * k)) ∧ Keeps g 8
      ∧ ∀ m n, m < 16 → n < 16 → D g m n = mmaF32 k (if k = 8 then 8 else 16)
          (fun m j => fmtDecode (aFmt a.i) (el a.i.srca.toNat (fmtBits (aFmt a.i)) m j (fmtBits (aFmt a.i))))
          (fun j n => fmtDecode (bFmt a.i) (el a.i.srcb.toNat (fmtBits (bFmt a.i)) n j (fmtBits (bFmt a.i)))) (mmaC a) m n % 2 ^ 32)
    ∧ (all → x.i.op = 1 →
      let t := xTgt a.i
      let k := if t = 1 then 16 else 32
      let nx (h j : Nat) : Nat × Bool × Bool := xExpand a h
        (el (if xOp a.i then a.i.srca.toNat else a.i.srcb.toNat) (fmtBits (xNarrow a.i)) h j (fmtBits t))
      let wd (h j : Nat) : FVal := fmtDecode (xWide a.i)
        (el (if xOp a.i then a.i.srcb.toNat else a.i.srca.toNat) (fmtBits (xWide a.i)) h j (fmtBits (xWide a.i)))
      let every := (List.range 16).flatMap (fun h => (List.range k).map (fun j => nx h j))
      ∃ g, exec (.mmaX x) s = .next (((s'.anvCount a (every.filter (fun y => y.2.1)).length
          (every.filter (fun y => y.2.2)).length).putAt a g).macs a.core (256 * k)) ∧ Keeps g 8
        ∧ ∀ m n, m < 16 → n < 16 → D g m n = mmaF32 k 16
            (fun m j => if xOp a.i then fmtDecode t (nx m j).1 else wd m j)
            (fun j n => if xOp a.i then wd n j else fmtDecode t (nx n j).1) (mmaC a) m n % 2 ^ 32)
    ∧ (all → x.i.op = 2 → ∃ g, exec (.mmaP x) s = .next ((s'.putAt a g).macs a.core 4096) ∧ Keeps g 8
      ∧ ∀ m n, m < 16 → n < 16 → D g m n = mmaF32 16 16
          (fun m j => e8m13 (aFmt a.i) (el a.i.srca.toNat (fmtBits (aFmt a.i)) m j 16))
          (fun j n => e8m13 (bFmt a.i) (el a.i.srcb.toNat (fmtBits (bFmt a.i)) n j 16)) (mmaC a) m n % 2 ^ 32)
    ∧ (¬all → (x.i.op = 0 → exec (.mma x) s = .next (s'.exc a 0x010E ((a.g.run a.i).headD 0) 0))
      ∧ (x.i.op = 1 → exec (.mmaX x) s = .next (s'.exc a 0x010E ((a.g.run a.i).headD 0) 0))
      ∧ (x.i.op = 2 → exec (.mmaP x) s = .next (s'.exc a 0x010E ((a.g.run a.i).headD 0) 0)))
    ∧ (x.i.op = 3 →
      let w := fmtBits (bFmt a.i)
      let every := (a.g.run a.i).flatMap (fun l => (List.range 8).map (fun e => ocvtElem a l e))
      ∃ g, exec (.ocvt x) s = .next ((s'.putAt a g).anvCount a (every.filter (fun y => y.2.1)).length
          (every.filter (fun y => y.2.2)).length) ∧ Keeps g (max 1 (8 * w / 32))
        ∧ (∀ l e, l ∈ a.g.run a.i → e < 8 → g.elem l a.i.dst.toNat w e = (ocvtElem a l e).1 % 2 ^ w)
        ∧ (∀ l, l ∈ a.g.run a.i → g.reg l a.i.dst.toNat < 2 ^ (8 * w)))
    ∧ (x.i.op = 4 → ∃ g, exec (.unpk x) s = .next (s'.putAt a g) ∧ Keeps g 8 ∧ ∀ l e, l ∈ a.g.run a.i → e < 8 →
        let w := a.g.elem l a.i.srca.toNat (fmtBits (aFmt a.i)) e
        g.reg l (a.i.dst.toNat + e) = (if aFmt a.i = 0 then w else fenc .rne 8 23 (fmtDecode (aFmt a.i) w)) % 2 ^ 32)

/-- With UNC on, for a path that reaches an aligned register offset, and with no capture of it outstanding: a read sends out the
register's value and a field that clears on a read takes its reset value, or, where it is a PEAK of the Ladle or of a channel, the
current OCC, the other fields of it staying; a reserved offset outside the capability table reads 0. A read of the low word of a
64-bit register captures the high word for its path, and the path's next read of the high word returns the capture (used up by it:
DEDUCED, log entry 81). A write to a reserved offset of the CPY and L2C blocks changes nothing. An access of a bad size
sets SIZE_ERR's status bit and writes record 0x0C01, a read then sends all ones. (R9, R10, R11, R14, R437, R438) -/
def Obligations.RegisterReads : Prop :=
∀ (p : Path) (a : BitVec 25) (s : State), s.uncOn = true → a.toNat % 4 = 0 → s.reaches p a.toNat = true →
    (∀ row, regRow a.toNat = some row → (4 ≤ a.toNat → s.shadow p (a.toNat - 4) = none) →
      mailboxAt a.toNat = none → isLowWord a.toNat = false →
        exec (.rcFieldRead p a) s = .next ((s.readClears a.toNat).emit (.readData p (BitVec.ofNat 32 (s.live a.toNat))))
        ∧ (∀ b, b ≠ a.toNat → (s.readClears a.toNat).reg b = s.reg b)
        ∧ ((∀ f ∈ row.fields, f.lo ≤ f.hi ∧ f.hi ≤ 31) →
          (∀ hi lo, (∀ f ∈ row.fields, f.acc = .rc → hi < f.lo ∨ f.hi < lo) → (s.readClears a.toNat).fld a.toNat hi lo = s.fld a.toNat hi lo)
          ∧ (∀ f ∈ row.fields, f.acc = .rc → (∀ g ∈ row.fields, g ≠ f → g.hi < f.lo ∨ f.hi < g.lo) →
            let peak := a.toNat = Reg.L2C_LADLE_STATUS ∨ (0x0A0400 ≤ a.toNat ∧ a.toNat < 0x0A0500 ∧ a.toNat % 16 = 12)
            (¬ peak → (s.readClears a.toNat).fld a.toNat f.hi f.lo = bits (regReset a.toNat).toNat f.hi f.lo)
            ∧ (peak → (∀ g ∈ row.fields, g.acc = .rc → 8 < g.lo) → f.hi = f.lo + 8 →
              (s.readClears a.toNat).fld a.toNat f.hi f.lo = s.fld a.toNat 8 0))))
    ∧ (regRow a.toNat = none → s.capWord a.toNat = none →
        exec (.rcFieldRead p a) s = .next (s.emit (.readData p 0)) ∧ exec (.lowWordShadowRead p a) s = .next (s.emit (.readData p 0)))
    ∧ (regRow a.toNat = none → ∀ v, a.toNat < 0x400000 → (a.toNat / 0x10000 = 0x0B ∨ a.toNat / 0x10000 = 0x09) →
        exec (.registerWrite p a v) s = .next s)
    ∧ (∀ row, regRow a.toNat = some row → isLowWord a.toNat = true → row.fields.all (fun f => f.acc ≠ .rc) = true →
        (4 ≤ a.toNat → s.shadow p (a.toNat - 4) = none) → mailboxAt a.toNat = none →
        ∃ t, exec (.lowWordShadowRead p a) s = .next t ∧ t.out = s.out ++ [.readData p (BitVec.ofNat 32 (s.live a.toNat))]
          ∧ t.shadow p a.toNat = some (BitVec.ofNat 32 (s.live (a.toNat + 4))) ∧ t.regs = s.regs
          ∧ (∀ p', p' ≠ p → ∀ b, t.shadow p' b = s.shadow p' b))
    ∧ (∀ row v, regRow a.toNat = some row → 4 ≤ a.toNat → isLowWord (a.toNat - 4) = true → s.shadow p (a.toNat - 4) = some v →
        exec (.rcFieldRead p a) s = .next ((s.dropShadow p (a.toNat - 4)).emit (.readData p v)))
    ∧ (∀ w rq, let t := (s.setFlag Reg.HIF_STATUS 8).rec0 0x0C01 0x40 1 a.toNat rq.toNat
        exec (.bar0BadSizeAccess w a rq) s = .next (if w then t else t.emit (.readData .host 0xFFFFFFFF)))

/-- Whatever the state, with BUSY 1 or 0: a write of one of CPY_SRC, CPY_DST, CPY_SPITCH, CPY_DPITCH, CPY_WIDTH, CPY_HEIGHT and
CPY_PAT by a path that reaches it gives the register's field the value written, and neither the direct operation that runs, with
its captured operands, nor any other register or BUSY changes. (R174) -/
def Obligations.CopyOperandWrites : Prop :=
∀ (p : Path) (a : BitVec 25) (v : Word) (s : State), s.reaches p a.toNat = true →
    a.toNat ∈ [Reg.CPY_SRC_LO, Reg.CPY_SRC_HI, Reg.CPY_DST_LO, Reg.CPY_DST_HI, Reg.CPY_SPITCH, Reg.CPY_DPITCH, Reg.CPY_WIDTH, Reg.CPY_HEIGHT,
      Reg.CPY_PAT_LO, Reg.CPY_PAT_HI] →
    let w := if a.toNat = Reg.CPY_SRC_HI ∨ a.toNat = Reg.CPY_DST_HI then 7 else 31
    ∃ t, exec (.registerWrite p a v) s = .next t ∧ t.fld a.toNat w 0 = v.toNat % 2 ^ (w + 1) ∧ t.sched = s.sched
      ∧ (∀ b, b ≠ a.toNat → t.reg b = s.reg b) ∧ t.flag Reg.CPY_STATUS 0 = s.flag Reg.CPY_STATUS 0

/-- A write through a class that allocates in the L2 leaves every enabled byte as written and every other byte of device memory
as it was; every write, and every read, keeps the canonical form of the memories; a read changes no byte. With UNC on, a BAR2
write inside usable and unprotected memory is that write at the window's base plus the offset, and a BAR2 read sends the bytes
of the same place; an access that leaves usable memory changes no byte, sets BAR2_ERR and writes record 0x0C06, and one that
touches protected memory 0x1003 in its place; a refused read answers all ones. (R159, R438, R440, R441, R442, R467, R481, R571)
-/
def Obligations.DeviceMemory : Prop :=
∀ (s : State) (cls a : Nat) (bs : List (Option Byte)) (na : Bool) (x : Nat),
    let t := s.devWrite cls a bs na
    (na = false → (∀ line ∈ unitsOf 128 a bs.length, s.allocates cls line = true) → t.devByte x =
      (if a ≤ x ∧ x < a + bs.length then (match bs.getD (x - a) none with
        | some b => some b
        | none => s.devByte x) else s.devByte x))
    ∧ (Memory.wf s = true → Memory.wf t = true)
    ∧ (∀ n, (s.devRead cls a n na).2.2.devByte x = s.devByte x
        ∧ (Memory.wf s = true → Memory.wf (s.devRead cls a n na).2.2 = true)
        ∧ (∀ i, i < n → ∀ b, s.devByte (a + i) = some b → (s.devRead cls a n na).1.getD i 0 = b))
    ∧ (∀ off : BitVec 36, s.uncOn = true →
        let at_ := s.bar2Base + off.toNat
        (s.bar2Check at_ bs.length = none → exec (.bar2Write off bs) s = .next (s.devWrite 10 at_ bs false))
        ∧ (∀ n, s.bar2Check at_ n = none → exec (.bar2Read off n) s
            = .next ((s.devRead 10 at_ n false).2.2.emit (.bar2Data (s.devRead 10 at_ n false).1 (s.devRead 10 at_ n false).2.1)))
        ∧ (s.usable < at_ + bs.length → exec (.bar2Write off bs) s
            = .next ((s.setFlag Reg.HIF_STATUS 11).rec0 0x0C06 0x40 1 (off.toNat % 2 ^ 32) (off.toNat / 2 ^ 32)))
        ∧ (∀ n, s.usable < at_ + n → exec (.bar2Read off n) s
            = .next (((s.setFlag Reg.HIF_STATUS 11).rec0 0x0C06 0x40 1 (off.toNat % 2 ^ 32) (off.toNat / 2 ^ 32)).emit
              (.bar2Data (List.replicate n 0xFF) false)))
        ∧ (at_ + bs.length ≤ s.usable → s.inFirmware at_ = false → s.touchesProt at_ bs.length = true → exec (.bar2Write off bs) s
            = .next ((s.setFlag Reg.HIF_STATUS 11).rec0 0x1003 0x40 1 (at_ % 2 ^ 32) (at_ / 2 ^ 32))))

/-- For the command at a program's counter when it is the program's turn, fetched, listed and with its reserved fields 0: NOP goes on;
SETA, ADDA and ADDR set an address register modulo 2^48; LOOP opens a level with a count of 1 to 16,777,216, and a wrong count or
a level already open faults the program; ENDL goes back to the body while rounds are left and closes the level with the last, and
faults without an open level; FILL and DRAIN begin the copy at the engine's slot, with POST moving to the next slot, or wait for
the slot, or end the program where its kernel's last block has exited; GLOAD and GSTORE begin a copy of a plain buffer; a copy of
a wrong length, of rows beyond the slot or buffer, or of another kind of buffer faults the program; FENCE goes on only without
copies in flight; END ends the program. A command that is not listed, or with a reserved field, faults the program, under every
row. The completion of a copy in flight moves its rows, ends it, counts its bytes, advances its ring, and resumes a program that
waited at FENCE for it alone; a row that a fault stops ends it there. A row that is read well stands in the scratch at its place,
and no other byte of it changes. (R149, R151, R152, R154) -/
def Obligations.TongsCommands : Prop :=
∀ (s s' : State) (k : Fin 12) (rt : Bool) (cmd : TongsCmd) (t : Tongs),
    let Out (i : Instr) (op : Nat) (u : Tongs) : Prop := TongsRuns s k.val rt cmd op t s' → exec i s = .next (s'.putTongs k.val rt u)
    let Bad (i : Instr) (op : Nat) : Prop := TongsRuns s k.val rt cmd op t s' → exec i s = .next (s'.tongsFault k.val rt t)
    Out (.tongsNop k rt cmd) 0x00 t.step
    ∧ Out (.tongsSeta k rt cmd) 0x01 (t.setAddr cmd.ra (cmd.len + cmd.w2.toNat % 65536 * 2 ^ 32)).step
    ∧ Out (.tongsAdda k rt cmd) 0x02 (t.setAddr cmd.ra (wrapInt 48 ((t.addr cmd.ra : Int) + cmd.w1.toInt))).step
    ∧ Out (.tongsAddr k rt cmd) 0x03 (t.setAddr cmd.ra (t.addr cmd.ra + t.addr cmd.rb)).step
    ∧ (1 ≤ cmd.len → cmd.len ≤ 16777216 → (∀ l ∈ t.loops, l.1 ≠ cmd.lvl) →
        Out (.tongsLoop k rt cmd) 0x04 { t.step with loops := (cmd.lvl, cmd.len, t.step.pc) :: t.loops })
    ∧ (cmd.len = 0 ∨ 16777216 < cmd.len ∨ (∃ l ∈ t.loops, l.1 = cmd.lvl) → Bad (.tongsLoop k rt cmd) 0x04)
    ∧ ((∀ l ∈ t.loops, l.1 ≠ cmd.lvl) → Bad (.tongsEndl k rt cmd) 0x05)
    ∧ (∀ n body, t.loops.find? (fun l => l.1 == cmd.lvl) = some (cmd.lvl, n, body) →
        (n ≤ 1 → Out (.tongsEndl k rt cmd) 0x05 { t.step with loops := t.loops.filter (fun l => l.1 != cmd.lvl) })
        ∧ (2 ≤ n → Out (.tongsEndl k rt cmd) 0x05
            { t with pc := body, loops := (cmd.lvl, n - 1, body) :: t.loops.filter (fun l => l.1 != cmd.lvl) }))
    ∧ (∀ x, (s'.cluster k.val).scratchOf t.q t.seq = some x →
        let d := x.buf cmd.buf
        let r := x.ring cmd.buf
        let go (inb : Bool) : State := (s'.putRing k.val t.q t.seq cmd.buf (if cmd.post then { r with next := (r.next + 1) % 2 ^ 32 } else r)).putTongs
          k.val rt (t.begin cmd inb r.next ((d.base + r.next % d.slots * d.units) * 256 + cmd.off))
        (copyFits cmd d = true →
          (d.kind = 2 → diff32 r.next r.free < d.slots → TongsRuns s k.val rt cmd 0x10 t s' → exec (.tongsFill k rt cmd) s = .next (go true))
          ∧ (d.kind = 2 → ¬ diff32 r.next r.free < d.slots →
            Out (.tongsFill k rt cmd) 0x10 { t with run := if t.lastExited then .ended else .waitFree })
          ∧ (d.kind = 3 → laterThan r.fill r.next = true → TongsRuns s k.val rt cmd 0x11 t s' → exec (.tongsDrain k rt cmd) s = .next (go false))
          ∧ (d.kind = 3 → laterThan r.fill r.next = false →
            Out (.tongsDrain k rt cmd) 0x11 { t with run := if t.lastExited then .ended else .waitFilled })
          ∧ (d.kind = 1 → Out (.tongsGload k rt cmd) 0x12 (t.begin cmd true 0 (d.base * 256 + cmd.off)))
          ∧ (d.kind = 1 → Out (.tongsGstore k rt cmd) 0x13 (t.begin cmd false 0 (d.base * 256 + cmd.off))))
        ∧ (copyFits cmd d = false ∨ d.kind ≠ 2 → Bad (.tongsFill k rt cmd) 0x10)
        ∧ (copyFits cmd d = false ∨ d.kind ≠ 3 → Bad (.tongsDrain k rt cmd) 0x11)
        ∧ (copyFits cmd d = false ∨ d.kind ≠ 1 → Bad (.tongsGload k rt cmd) 0x12 ∧ Bad (.tongsGstore k rt cmd) 0x13))
    ∧ Out (.tongsFence k rt cmd) 0x20 (if t.copies = [] then t.step else { t with run := .waitFence })
    ∧ Out (.tongsEnd k rt cmd) 0x3F { t with run := .ended }
    ∧ (∀ bs, (s.cluster k.val).tongs rt = some t → s.tongsTurn k.val rt t = true →
        s.rawRead (.cluster k.val) (tongsClass rt) t.ctx t.pc 16 = (none, none, bs, s') → bytesAgree bs (wordBytes cmd.words) = true →
        ∀ p ∈ [(0x00, Instr.tongsNop k rt cmd), (0x01, .tongsSeta k rt cmd), (0x02, .tongsAdda k rt cmd), (0x03, .tongsAddr k rt cmd),
            (0x04, .tongsLoop k rt cmd), (0x05, .tongsEndl k rt cmd), (0x10, .tongsFill k rt cmd), (0x11, .tongsDrain k rt cmd),
            (0x12, .tongsGload k rt cmd), (0x13, .tongsGstore k rt cmd), (0x20, .tongsFence k rt cmd), (0x3F, .tongsEnd k rt cmd)],
          tongsListed cmd.op = false ∨ (cmd.op = p.1 ∧ cmd.clean = false) →
            exec p.2 s = .next (s'.tongsFault k.val rt { t with buf := cmd.buf }))
    ∧ (∀ c s1, (s.cluster k.val).tongs rt = some t → t.copies.find? (fun x => x.id == c.id) = some c → s.cluOn = true → s.sched.quench = none →
        (s.copyRows k.val rt t c = (false, s1) → exec (.tongsCopyComplete k rt c.id) s = .next s1)
        ∧ (s.copyRows k.val rt t c = (true, s1) →
          let s2 := s1.count64 (Reg.CLU_TNG_BYTES_LO k.val) (c.len * c.rows)
          let v : Tongs := { t with copies := t.copies.filter (fun x => x.id != c.id) }
          let u : Tongs := if v.run = .waitFence ∧ v.copies = [] then { v.step with run := .running } else v
          let s3 := (s2.setCluster k.val ((s2.cluster k.val).setTongs rt (some u))).settleRing k.val u c.buf
          ∀ w, (s3.cluster k.val).tongs rt = some w → exec (.tongsCopyComplete k rt c.id) s = .next (s3.putTongs k.val rt w)))
    ∧ (∀ (c : TongsCopy) (i : Nat) (bs : List Byte) (x : Scratch), c.toGrd = true →
        s.vread (.cluster k.val) t.ctx (wrapInt 48 ((c.addr : Int) + (i : Int) * signed 32 c.pitch)) c.len (tongsClass rt) false false
          = (.ok bs none, s') → (s'.cluster k.val).scratchOf t.q t.seq = some x →
        ∃ w y, s.copyRow k.val rt t c i = (some w, w) ∧ (w.cluster k.val).scratchOf t.q t.seq = some y
          ∧ ∀ j : Nat, Sparse.get y.data 0 j = (if c.goff + i * c.len ≤ j ∧ j < c.goff + i * c.len + bs.length then bs.getD (j - (c.goff + i * c.len)) 0
            else Sparse.get x.data 0 j))

/-- With UNC running: a region word within its limits is pended and takes effect once nothing holds the regions; one outside them
only sets ERR. A maintenance command with GO, a listed OP and, for a range, aligned lines joins the queue; any other sets REJECT.
The operation at the head has its effect on completion and leaves the queue, a unit's last one posting its entry with unit 0x20;
invalidations and zeros act on the lines of their range alone. A way mask's register takes the value at once; while a full flush
runs or waits, MASK_PEND is 1 and the ways in force stay, until the operations that the write waited for have completed. The
Ladle accepts the oldest waiting entry whose unit's host writes have been sent, with the time stamp, while it has room for 256,
and its oldest entry leaves first. (R26, R135, R160, R161, R162, R164, R165, R172, R324) -/
def Obligations.CachesAndLadle : Prop :=
∀ (s : State), s.uncRuns = true →
    (∀ (k : Fin 12) (v : Word), grdResv v.toNat ≤ 28 → grdResv v.toNat + grdRts v.toNat + grdSlot v.toNat ≤ 64 →
        let s1 := s.setReg (Reg.CLU_GRD_REGION k.val) (BitVec.ofNat 32 (v.toNat % 2 ^ 17))
        exec (.grdRegionWrite k v) s = .next ((s1.setCluster k.val { s1.cluster k.val with pendRegion := some (v.toNat % 2 ^ 17) }).setFlag
          (Reg.CLU_GRD_STATUS k.val) 0))
    ∧ (∀ (k : Fin 12) (v : Word), 28 < grdResv v.toNat ∨ 64 < grdResv v.toNat + grdRts v.toNat + grdSlot v.toNat →
        exec (.grdRegionWrite k v) s = .next (s.setFlag (Reg.CLU_GRD_STATUS k.val) 1))
    ∧ (∀ (k : Fin 12) (r : Nat), (s.cluster k.val).pendRegion = some r →
        (s.regionIdle k.val = true → exec (.grdRegionApply k) s = .next ((s.setCluster k.val
          { s.cluster k.val with region := r, pendRegion := none, slotData := [] }).clearFlag (Reg.CLU_GRD_STATUS k.val) 0))
        ∧ (s.regionIdle k.val = false → exec (.grdRegionApply k) s = .next s))
    ∧ (∀ (k : Fin 12), (s.cluster k.val).pendRegion = none → exec (.grdRegionApply k) s = .next s)
    ∧ (∀ (v : Word), bit v.toNat 0 = true →
        let op := bits v.toNat 3 1
        let a := (s.reg Reg.L2C_MAINT_ADDR_LO).toNat + s.fld Reg.L2C_MAINT_ADDR_HI 7 0 * 2 ^ 32
        let n := (s.reg Reg.L2C_MAINT_LINES).toNat
        let s1 := s.setReg Reg.L2C_MAINT_CMD (BitVec.ofNat 32 (op * 2))
        let t := if s.flag Reg.L2C_MAINT_STATUS 1 = true ∨ (3 ≤ op ∧ (a % 128 ≠ 0 ∨ n = 0)) then s1.setFlag Reg.L2C_MAINT_STATUS 2
          else s1.maintAdd ⟨op, a, n, none⟩
        (op = 1 → exec (.l2FlushAll v) s = .next t) ∧ (op = 2 → exec (.l2FlushInvalAll v) s = .next t)
        ∧ (op = 3 → exec (.l2FlushRange v) s = .next t) ∧ (op = 4 → exec (.l2FlushInvalRange v) s = .next t)
        ∧ (op = 5 → exec (.l2InvalRange v) s = .next t) ∧ (op = 6 → exec (.l2ZeroRange v) s = .next t))
    ∧ (∀ m, s.l2.queue = [] → ∃ t, s.maintAdd m = t ∧ t.l2.queue = [m] ∧ t.flag Reg.L2C_MAINT_STATUS 0 = true)
    ∧ (∀ m rest, s.l2.queue = m :: rest → s.srcStalled 0x20 0 = false →
        let s1 := s.l2Do m.op m.addr m.lines
        let s2 := ({ s1 with l2 := { s1.l2 with queue := rest } }).maintRegs
        let s3 := match m.unit with
          | none => s2.setFlag Reg.L2C_MAINT_STATUS 4
          | some (q, seq) => if rest.any (fun x => x.unit = some (q, seq)) then s2 else s2.ladleDue ⟨q, seq, 0, 0x20, 0⟩
        exec .l2MaintComplete s = .next (s3.maskLeft (s3.l2.maskWait - 1))
        ∧ (s3.l2.maskWait = 1 → ∀ c < 16, (s3.maskLeft (s3.l2.maskWait - 1)).wayMask c = (s3.reg (Reg.L2C_WAYMASK c)).toNat))
    ∧ (∀ a n x, (x / 128 < a / 128 ∨ a / 128 + n ≤ x / 128 → (s.l2Do 5 a n).devByte x = s.devByte x ∧ (s.l2Do 6 a n).devByte x = s.devByte x)
        ∧ (a / 128 ≤ x / 128 → x / 128 < a / 128 + n → (s.l2Do 5 a n).devByte x = Sparse.find s.dram.bytes x
          ∧ (s.allocates 14 (x / 128) = true ∨ (Sparse.find s.l2.lines (x / 128)).isSome = true ∨ (∀ p ∈ s.l2.dirty, p.1 / 128 ≠ x / 128) → (s.l2Do 6 a n).devByte x = some 0)))
    ∧ (∀ (c : Fin 16) (v : Word),
        let r := BitVec.ofNat 32 (v.toNat % 65536)
        ((∀ m ∈ s.l2.queue, m.op ≠ 1 ∧ m.op ≠ 2) → exec (.l2cWaymaskWrite c v) s = .next (s.setReg (Reg.L2C_WAYMASK c.val) r))
        ∧ ((∃ m ∈ s.l2.queue, m.op = 1 ∨ m.op = 2) → ∃ t, exec (.l2cWaymaskWrite c v) s = .next t
          ∧ t.reg (Reg.L2C_WAYMASK c.val) = r ∧ t.flag Reg.L2C_MAINT_STATUS 3 = true ∧ t.l2.maskWait = max (flushDepth s.l2.queue) s.l2.maskWait
          ∧ (∀ d < 16, t.wayMask d = s.wayMask d) ∧ t.l2.queue = s.l2.queue))
    ∧ (∀ e, s.sched.stalled.find? (fun x => s.unitSent x.q x.seq) = some e → s.sched.ladle.length < 256 → ∃ t, exec (.ladlePost e) s = .next t
        ∧ t.sched = { s.sched with ladle := s.sched.ladle ++ [⟨e, s.time⟩], stalled := s.sched.stalled.erase e }
        ∧ t.fld Reg.L2C_LADLE_STATUS 8 0 = s.sched.ladle.length + 1
        ∧ t.fld Reg.L2C_LADLE_STATUS 24 16 = max (s.fld Reg.L2C_LADLE_STATUS 24 16) (s.sched.ladle.length + 1))
    ∧ (∀ e, 256 ≤ s.sched.ladle.length ∨ s.sched.stalled.find? (fun x => s.unitSent x.q x.seq) ≠ some e → exec (.ladlePost e) s = .next s)
    ∧ (∀ h rest, s.sched.ladle = h :: rest →
        let s1 := ({ s with sched := { s.sched with ladle := rest } }).setFld Reg.L2C_LADLE_STATUS 8 0 rest.length
        exec .ladleDrain s = .next (((s1.updUnit h.entry.q h.entry.seq (fun w => { w with entries := w.entries - 1 })).unitCheck
          h.entry.q h.entry.seq).flowSync h.time).flowSettle)
    ∧ (s.sched.ladle = [] → exec .ladleDrain s = .next s.flowSettle)

/-- With UNC running: a write of CPY_CTRL with GO that passes the operand check makes the direct operation run with the values of the
registers at that moment and sets BUSY; one that fails it posts the check's code alone; The direct operation's completion clears BUSY and sets DONE where it succeeded, and its error flag where a
write was refused or a line was poisoned, the latter with record 0x0302. A queue's copy that succeeds leaves its channel and
posts its entry to the Ladle with unit 0x23; one that meets a fault or poison faults its context. A real-time copy that finds
every channel held by a normal copy suspends the one with the greatest copy virtual time (of equal ones that of the lowest
channel, DESIGN CHOICE, log entry 105), which waits again before the later copies of its queue. (R166, R167, R169, R173, R324,
R378, R571) -/
def Obligations.CopyEngine : Prop :=
∀ (s : State), s.uncRuns = true →
    (∀ (v : Word), bit v.toNat 0 = true →
      let op := bits v.toNat 2 1
      let s1 := s.setReg Reg.CPY_CTRL (BitVec.ofNat 32 (op * 2 + bits v.toNat 5 4 * 16))
      let c := s1.directCopy v.toNat
      let prot := s1.touchesProt c.dst (c.extent c.dpitch) || (!c.fill && s1.touchesProt c.src (c.extent c.spitch))
      let code := c.check op (if prot then 0 else s1.usable) (s1.flag Reg.CPY_STATUS 0)
      let s2 := s1.setFld Reg.CPY_STATUS 15 8 code
      let t := if code ≠ 0 then s2
        else ({ s2 with sched := { s2.sched with copies := Sparse.put s2.sched.copies 4 ⟨64, 0, 32, c, false⟩ } }).setFlag Reg.CPY_STATUS 0
      (op ≠ 1 → exec (.cpyCopy v) s = .next t) ∧ (op = 1 → exec (.cpyFill v) s = .next t)
        ∧ (s.flag Reg.CPY_STATUS 0 = true → code ≠ 0))
    ∧ (∀ r s1 k f pa, s.sched.quench = none → let s0 := s.copyArb 4
        let s' := { s0 with sched := { s0.sched with copies := Sparse.drop s0.sched.copies 4 } }
        Sparse.find s0.sched.copies 4 = some r →
        (s'.cpyRun none r.op = (.ok, s1) → exec (.copyComplete 4) s = .next ((s1.clearFlag Reg.CPY_STATUS 0).setFlag Reg.CPY_STATUS 1))
        ∧ (s'.cpyRun none r.op = (.fail k f, s1) → exec (.copyComplete 4) s = .next ((s1.clearFlag Reg.CPY_STATUS 0).setFlag Reg.CPY_STATUS 2))
        ∧ (s'.cpyRun none r.op = (.poison pa, s1) → exec (.copyComplete 4) s
          = .next ((((s1.clearFlag Reg.CPY_STATUS 0).setFlag Reg.CPY_STATUS 2).countSat Reg.L2C_ECC_COUNT 31 16 1).rec0 0x0302 0x20 2
            (pa % 2 ^ 32) (pa / 2 ^ 32))))
    ∧ (∀ (ch : Fin 5) r s1 k f pa, s.sched.quench = none → ch.val < 4 → let s0 := s.copyArb 4
        let s' := { s0 with sched := { s0.sched with copies := Sparse.drop s0.sched.copies ch.val } }
        Sparse.find s0.sched.copies ch.val = some r →
        (s'.cpyRun (some (r.q, r.seq, r.ctx)) r.op = (.ok, s1) →
          exec (.copyComplete ch) s = .next ((s1.ladleDue ⟨r.q, r.seq, 0, 0x23, ch.val⟩).copyArb 4))
        ∧ (s'.cpyRun (some (r.q, r.seq, r.ctx)) r.op = (.fail k f, s1) →
          exec (.copyComplete ch) s = .next ((s1.accessFault r.ctx 0x23 k f (some (r.q, r.seq))).copyArb 4))
        ∧ (s'.cpyRun (some (r.q, r.seq, r.ctx)) r.op = (.poison pa, s1) →
          exec (.copyComplete ch) s = .next ((s1.poisonFault r.ctx pa (some (r.q, r.seq))).copyArb 4)))
    ∧ (∀ (ch : Fin 5), Sparse.find (s.copyArb 4).sched.copies ch.val = none → exec (.copyComplete ch) s = .next (s.copyArb 4))
    ∧ (∀ (q : Fin 64) (c0 : Nat) (r0 : CopyRun), let s0 := s.copyArb 4
        s0.isRt q.val = true → (∃ r ∈ s0.copyReady, r.q = q.val) →
        (s0.sched.copies.filter (fun p => p.1 ≠ 4)).length = 4 → (∀ p ∈ s0.sched.copies, p.1 ≠ 4 → s0.isRt p.2.q = false) →
        (c0, r0) ∈ s0.sched.copies → c0 ≠ 4 → Sparse.sorted s0.sched.copies = true →
        (∀ p ∈ s0.sched.copies, p.1 ≠ 4 → (p.1 < c0 → s0.copyV p.2.q < s0.copyV r0.q) ∧ s0.copyV p.2.q ≤ s0.copyV r0.q) →
        exec (.copySuspend q) s = .next (({ s0 with sched := { s0.sched with
          copies := Sparse.drop s0.sched.copies c0, copyWait := (r0.q, { r0 with suspended := true }) :: s0.sched.copyWait } }).copyArb 4))
    ∧ (∀ (q : Fin 64), let s0 := s.copyArb 4
        s0.isRt q.val = false ∨ (∀ r ∈ s0.copyReady, r.q ≠ q.val) ∨ (∃ p ∈ s0.sched.copies, p.1 ≠ 4 ∧ s0.isRt p.2.q = true) →
        exec (.copySuspend q) s = .next s0)

/-- For a packet that is next and is executed: a pass begin outside a pass, whose descriptor is read, starts a unit and a pass with that
descriptor, no state and no draws, and where the descriptor's check gives a code, 0x1F if it is misaligned, the pass is refused
with it; inside a pass it refuses the outer pass with 0x1F. Inside a pass a state packet sets the pass's state block, a draw adds
one draw with that state and an indirect draw as many as its table holds; a misaligned or wrong packet, or a draw without a state
block or with an index buffer that the state does not use, refuses the pass with 0x1F; a pass end closes the pass's packets, and
completes a refused pass with its code. Any of them outside a pass is refused with 0x1F; the packets of a refused pass are passed
over. A tracking, signing or resolving packet waits for the sequencer as a unit, or completes refused with its check's code. (R175,
R184, R211, R214, R216, R218, R219, R220, R221) -/
def Obligations.GraphicsPackets : Prop :=
∀ (s s' s1 : State) (p : Pkt) (u : Queue) (ptr : Nat), let q := p.q.val
    (∀ bs, RoomForUnit s q → PktRuns s p 0x40 u ptr s' → u.inProgram = false → u.pass = none →
        s'.vread .command u.ctx (pd p 0) 640 cpClass false false = (.ok bs none, s1) →
        let d := (List.range 160).map (fun i => wordAt bs (4 * i))
        let code := if pd p 0 % 64 ≠ 0 then 0x1F else s1.passCode u.ctx d
        let a := s1.addUnit q (if code = 0 then u else u.refuse ptr (256 + code)) ptr (pktOrder p) true (.pass 0)
        let s2 := { a.2 with gfx := { a.2.gfx with
          passes := a.2.gfx.passes ++ [newPass u q a.1 d code],
          units := if code = 0 then a.2.gfx.units ++ [(⟨q, a.1, u.ctx, u.rt, 0x40, [], passSlots d⟩ : GfxUnit)] else a.2.gfx.units } }
        ∀ w, s2.queue q = some w →
          exec (.gfxPassBegin p) s = .next (((s2.setQueue q { w with pass := some a.1 }).a1Exit.gfxPump).endStream q))
    ∧ (∀ n d code, (newPass u q n d code).draws = [] ∧ (newPass u q n d code).cur = none ∧ (newPass u q n d code).ended = false)
    ∧ (∀ n, RoomForUnit s q → PktRuns s p 0x40 u ptr s' → u.inProgram = false → u.pass = some n →
        exec (.gfxPassBegin p) s = .next ((s'.passRefuse q u ptr 0x1F).endStream q))
    ∧ (∀ n g, u.inProgram = false → u.pass = some n → (s'.passAt q n) = some g →
        let s0 := s'.setQueue q u
        let refuse : State := (s0.passRefuse q u ptr 0x1F).endStream q
        let add (s : State) (st : List Nat) (index size : Nat) (ds : List (List Nat)) : State :=
          let new := ds.map (fun d => (⟨st, d.getD 0 0, d.getD 1 0, d.getD 2 0, d.getD 3 0, d.getD 4 0, index, size⟩ : GfxDraw))
          ((s.setPass { g with draws := g.draws ++ new }).gfxPump).endStream q
        (∀ bs, PktRuns s p 0x41 u ptr s' → pd p 0 % 64 = 0 → s0.vread .command u.ctx (pd p 0) 256 cpClass false false = (.ok bs none, s1) →
          let st := (List.range 64).map (fun i => wordAt bs (4 * i))
          (stateBad g.desc st = false → exec (.gfxState p) s = .next ((s1.setPass { g with cur := some st }).endStream q))
          ∧ (stateBad g.desc st = true → exec (.gfxState p) s = .next ((s1.passRefuse q u ptr 0x1F).endStream q)))
        ∧ (PktRuns s p 0x41 u ptr s' → pd p 0 % 64 ≠ 0 → exec (.gfxState p) s = .next refuse)
        ∧ (PktRuns s p 0x42 u ptr s' →
          (∀ st, g.cur = some st → pd p 5 = 0 ∨ stFld st 0x80 11 10 ≠ 0 →
            exec (.gfxDraw p) s = .next (add s0 st (pd p 5) (pw p 7) [[pw p 0, pw p 1, pw p 2, pw p 3, pw p 4]]))
          ∧ (∀ st, g.cur = some st → pd p 5 ≠ 0 → stFld st 0x80 11 10 = 0 → exec (.gfxDraw p) s = .next refuse)
          ∧ (g.cur = none → exec (.gfxDraw p) s = .next refuse))
        ∧ (PktRuns s p 0x43 u ptr s' → pw p 2 = 0 ∨ 4096 < pw p 2 ∨ pw p 3 < 20 ∨ pw p 3 % 4 ≠ 0 → exec (.gfxDrawIndirect p) s = .next refuse)
        ∧ (PktRuns s p 0x43 u ptr s' → 1 ≤ pw p 2 → pw p 2 ≤ 4096 → 20 ≤ pw p 3 → pw p 3 % 4 = 0 →
          (s0.drawTable u.ctx p (q, g.seq) = (none, s1) → exec (.gfxDrawIndirect p) s = .next (s1.endStream q))
          ∧ (∀ ds, s0.drawTable u.ctx p (q, g.seq) = (some ds, s1) → ds.length = pw p 2
            ∧ (∀ st, g.cur = some st → pd p 4 = 0 ∨ stFld st 0x80 11 10 ≠ 0 →
              exec (.gfxDrawIndirect p) s = .next (add s1 st (pd p 4) (pw p 6) ds))
            ∧ (g.cur = none ∨ (∃ st, g.cur = some st ∧ pd p 4 ≠ 0 ∧ stFld st 0x80 11 10 = 0) →
              exec (.gfxDrawIndirect p) s = .next ((s1.passRefuse q u ptr 0x1F).endStream q))))
        ∧ (PktRuns s p 0x44 u ptr s' →
          let s2 := s0.setQueue q { u with pass := none }
          let s3 := if u.stream.isNone then s2.updUnit q g.seq (fun w => { w with endPtr := u.fetch }) else s2
          (g.code = 0 → exec (.gfxPassEnd p) s = .next (((s3.setPass { g with ended := true }).gfxPump).endStream q))
          ∧ (g.code ≠ 0 → let s4 := s3.gfxPump
            exec (.gfxPassEnd p) s = .next ((((({ s4 with gfx := { s4.gfx with
              passes := s4.gfx.passes.filter (fun x => !(x.q == q && x.seq == g.seq)) } } : State)).completeUnit q g.seq 1 g.code).updStatus q).endStream q))))
    ∧ (u.inProgram = false → u.pass = none →
        (PktRuns s p 0x41 u ptr s' → exec (.gfxState p) s = .next (s'.refuseCtrl q u ptr 0x1F))
        ∧ (PktRuns s p 0x42 u ptr s' → exec (.gfxDraw p) s = .next (s'.refuseCtrl q u ptr 0x1F))
        ∧ (PktRuns s p 0x43 u ptr s' → exec (.gfxDrawIndirect p) s = .next (s'.refuseCtrl q u ptr 0x1F))
        ∧ (PktRuns s p 0x44 u ptr s' → exec (.gfxPassEnd p) s = .next (s'.refuseCtrl q u ptr 0x1F)))
    ∧ ((PktPassed s p 0x41 u s' → exec (.gfxState p) s = .next ((s'.setQueue q u).endStream q))
        ∧ (PktPassed s p 0x42 u s' → exec (.gfxDraw p) s = .next ((s'.setQueue q u).endStream q))
        ∧ (PktPassed s p 0x43 u s' → exec (.gfxDrawIndirect p) s = .next ((s'.setQueue q u).endStream q)))
    ∧ (RoomForUnit s q → u.inProgram = false →
        let unit (op code : Nat) (slots : List Nat) : State :=
          if code ≠ 0 then s'.refuseUnit q u ptr code (pktOrder p) (.maint op p.body)
          else
            let a := s'.addUnit q u ptr (pktOrder p) true (.maint op p.body)
            (({ a.2 with gfx := { a.2.gfx with
              units := a.2.gfx.units ++ [(⟨q, a.1, u.ctx, u.rt, op, p.body.map BitVec.toNat, slots⟩ : GfxUnit)] } }).a1Exit.gfxPump).endStream q
        (PktRuns s p 0x45 u ptr s' →
          (bits (pw p 0) 1 0 = 0 ∨ bits (pw p 0) 1 0 = 3 → exec (.gfxTrackClaim p) s = .next (unit 0x45 0 [bits (pw p 0) 5 4]))
          ∧ (bits (pw p 0) 1 0 = 1 → exec (.gfxTrackInvalidate p) s = .next (unit 0x45 0 [bits (pw p 0) 5 4]))
          ∧ (bits (pw p 0) 1 0 = 2 → exec (.gfxTrackRelease p) s = .next (unit 0x45 0 [bits (pw p 0) 5 4])))
        ∧ (PktRuns s p 0x46 u ptr s' → exec (.gfxSignSurface p) s = .next (unit 0x46 (s.signCode p) [bits (pw p 0) 1 0])
            ∧ (bits (pw p 1) 15 0 = 0 ∨ bits (pw p 1) 31 16 = 0 → s.signCode p = 0x18)
            ∧ (s.signCode p = 0 → pd p 8 % 64 = 0 ∧ bits (pw p 1) 15 0 ≤ 16384 ∧ bits (pw p 1) 31 16 ≤ 16384))
        ∧ (PktRuns s p 0x47 u ptr s' → exec (.gfxResolveFlags p) s = .next (unit 0x47 (resolveCode p) [])
            ∧ (bits (pw p 4) 15 0 = 0 ∨ bits (pw p 4) 31 16 = 0 → resolveCode p = 0x18)
            ∧ (resolveCode p = 0 → pd p 5 ≠ 0 ∧ pd p 5 % 16 = 0 ∧ bits (pw p 4) 15 0 ≤ 16384 ∧ bits (pw p 4) 31 16 ≤ 16384)))

/-- For the pass the sequencer runs, no Quench running: a tile whose primitives are done and that its checks pass is stored and
leaves its buffer, and the graphics units go on; one whose buffer has an uncorrectable Griddle error is withheld whole with record
0x0202 and the pass's context faults; one that fails its checks is withheld with 0x0221; a tile with primitives left stays. A
pass whose phases are done makes its writes and then, unless one of them faulted it, posts an entry of each cluster that took part
and leaves. A core of a compute cluster, after a Tongs program that may go on has resumed, takes a block of the first queue in
order that can place one, and with no such queue the reserves of the cluster are asked instead; a new block of a grid is the one
of the next linear index (DESIGN CHOICE, log entry 39), with all its groups, and counts for its dispatch. A core of a graphics
cluster, after the reserves, takes a stage group. Bit errors that a tile store brings have arisen before it (DEDUCED, log entry 10). (R140, R178, R181, R205, R206, R208, R376, R386) -/
def Obligations.TilesAndPlacement : Prop :=
∀ (s : State), (∀ k tile es, exec (.tileStore k tile es) s = exec (.tileStore k tile []) (s.ariseAll es))
    ∧ (∀ (k : Fin 12) (tile : BitVec 18) (p : GfxPass) (t : TileRun), s.runningPass = some p →
        p.tiles.find? (fun t => t.cluster == k.val && t.tile == tile.toNat) = some t → s.sched.quench = none →
        (t.prims ≠ [] ∨ t.cur ≠ none → exec (.tileStore k tile []) s = .next s)
        ∧ (t.prims = [] → t.cur = none → k.val ∈ s.passClusters p →
          (∀ off s1, s.tileMeets k.val p t = (some off, s1) →
            exec (.tileStore k tile []) s = .next (s1.withhold k.val p t.tile 0 3 0x0202 off k.val))
          ∧ (∀ s0, s.tileMeets k.val p t = (none, s0) →
            let plans := (pdAtts p.desc).map (fun a => (a, s0.drawNat.2.storePlan p t a s0.drawNat.1))
            (∀ i kind f s1, s0.drawNat.2.checkTile k.val p t.tile plans = (some (i, kind, f), s1) → exec (.tileStore k tile []) s
              = .next ((s1.captureFail p.ctx (0x10 + k.val) .write f).withhold k.val p t.tile i kind 0x0221 (f.va % 2 ^ 32) (f.va / 2 ^ 32)))
            ∧ (∀ s1, s0.drawNat.2.checkTile k.val p t.tile plans = (none, s1) →
              let s2 := plans.foldl (fun s x => s.storeAtt k.val p t.tile x.1 x.2) s1
              (∀ p', s2.runningPass = some p' → exec (.tileStore k tile []) s = .next ((s2.tileLeaves p' k.val t.tile plans t.clean).gfxPump))
              ∧ (s2.runningPass = none → exec (.tileStore k tile []) s = .next s2)))))
    ∧ (∀ p, s.runningPass = some p → p.phase = .done → s.sched.quench = none →
        let s1 := s.passWrites p
        ((s1.passAt p.q p.seq).isSome = true → exec .passComplete s
          = .next (((p.took.foldl (fun s k => s.ladleDue ⟨p.q, p.seq, 0, 0x10 + k, 4⟩) s1).dropPass p.q p.seq).passBoundary p.q p.seq).gfxPump)
        ∧ (s1.passAt p.q p.seq = none → exec .passComplete s = .next s1)
        ∧ ((∀ a ∈ pdAtts p.desc, ¬(a.track = 2 ∧ a.load = 1) ∧ ¬(a.track = 1 ∧ a.exp ≠ 0)) → s1 = s))
    ∧ (∀ (core : Fin 48), let k := core.val / 4
        (s.cluster k).mode = .compute →
        let s0 := s.tongsResume k
        (∀ pre q rest s1, s0.placeOrder k = pre ++ q :: rest → (∀ x ∈ pre, (s0.placeFrom core.val x).1 = false) →
          s0.placeFrom core.val q = (true, s1) → exec (.blockPlace core) s = .next (s1.placedNow q).placeSync)
        ∧ ((∀ x ∈ s0.placeOrder k, (s0.placeFrom core.val x).1 = false) → exec (.blockPlace core) s = .next (s0.reservePreempt k))
        ∧ (∀ q u seq kn, s0.candidate k q = some (seq, kn) → s0.queue q = some u → s0.launchImpossible q kn = false →
          s0.clusterTakes k q seq = true → s0.coreFits core.val kn = true → s0.scratchFits k q seq kn = true →
          (s0.rtWaits k = true ∧ s0.isRt q = false) ∨ s0.savedFor k q seq = none → kn.next < kn.total →
          let s1 := (s0.allocScratch k q seq u.ctx kn).updKernel q seq (fun kn => { kn with next := kn.next + 1, live := kn.live + 1 })
          s0.placeFrom core.val q = (true, (s1.putOnCore core.val ⟨q, seq, u.ctx, kn.next, kn, kn.groups, [], [], [], none⟩
            ((List.range kn.groups).map (fun g => newGroup g kn.code (kn.laneMask g))) false).noteRt k q seq (!s0.unitOnCluster k q seq))))
    ∧ (∀ (core : Fin 48), let k := core.val / 4
        (s.cluster k).mode = .graphics →
        let s0 := (s.reservePreempt k).gfxPump
        exec (.blockPlace core) s = .next (if s0.inGraphics k = true ∧ s0.sched.quench = none then s0.stagePlace core.val else s0))

/-- A slice preemption asks a preemption of the cluster that holds the most groups of normal queues with larger virtual times, once
its queue, a normal one, has waited a slice; of one cluster alone that is this cluster; a queue in wait for less, a real-time one
or one without such a cluster changes nothing. A request joins the cluster's. The answer of a cluster whose affected groups and
copies are done discards the work of contexts that are being stopped, saves the affected blocks to the reserve where they fit and
else to memory, stops the Tongs programs, suspends the pass, clears the request, counts it and its time; before that it waits. A
switch to graphics starts the drain of the next candidate while fewer than MAX clusters are in graphics mode. SLICE µs later a
cluster with normal scratch is given up for the next candidate, and else normal blocks are asked to go. A drained cluster changes
its mode, counts the switch and shows it in SCH_STATUS; after IDLE without a graphics unit it goes back. (R33, R90, R91, R155,
R384, R385, R387, R388, R389) -/
def Obligations.PreemptionAndModes : Prop :=
∀ (s : State), s.cluOn = true → s.sched.quench = none →
    (∀ (q : Fin 64) (u : Queue) (kn : Kernel) (key : Nat), s.queue q.val = some u → (s.placeables q.val).head? = some (key, kn) →
        let waited := ∃ t, u.placeableSince = some t ∧ t + us (s.fld Reg.SCH_SLICE 15 0) ≤ s.time
        (∀ k, u.rt = false → waited → s.sliceTarget u kn = some k →
          exec (.slicePreempt q) s = .next ((s.setCluster k { s.cluster k with lastSlice := some s.time }).preemptAsk k (.aboveV u.v)))
        ∧ (u.rt = true ∨ ¬waited ∨ s.sliceTarget u kn = none → exec (.slicePreempt q) s = .next s)
        ∧ (∀ k, s.kernelClusters kn = [k] → (s.cluster k).lastSlice = none → (s.cluster k).mode = .compute →
          (∃ n h, n < 4 ∧ h ∈ (s.core (4 * k + n)).holders ∧ s.isRt h.1 = false ∧ u.v < s.vOf h.1 ∧ 0 < h.2) → s.sliceTarget u kn = some k))
    ∧ (∀ (q : Fin 64), s.placeables q.val = [] → exec (.slicePreempt q) s = .next s)
    ∧ (∀ k x, (s.cluster k).preempt = none → ((s.preemptAsk k x).cluster k).preempt = some ⟨s.time, [x]⟩
        ∧ (∀ j, j ≠ k → (s.preemptAsk k x).cluster j = s.cluster j))
    ∧ (∀ (k : Fin 12), (s.cluster k.val).preempt = none → exec (.preemptAnswer k) s = .next s)
    ∧ (∀ (k : Fin 12) (p : Preempt), (s.cluster k.val).preempt = some p →
        let quiet := (∀ b ∈ s.taken k.val p, ∀ g ∈ (s.core b.1).groups, g.2.block = b.2.1 → g.2.quiet = true)
          ∧ (∀ rt t, (s.cluster k.val).tongs rt = some t → s.takesTongs k.val p t = true → t.copies = [])
        (¬quiet → exec (.preemptAnswer k) s = .next s)
        ∧ (quiet →
          let s1 := s.discardLosing k.val
          let bs := s1.taken k.val p
          let held := ((s1.cluster k.val).saved.filter (fun b => b.inReserve)).foldl (fun m b => max m (b.base + b.block.stateBytes)) 0
          let inReserve := decide (grdResv (s1.cluster k.val).region = 28)
            || held + s1.answerBytes k.val bs ≤ grdResv (s1.cluster k.val).region * 65536
          let s2 := s1.saveAll k.val inReserve (if inReserve then held else 0) bs
          let s3 := ((s2.setCluster k.val { s2.cluster k.val with preempt := none }).stopTongs k.val p).suspendPass k.val p
          let s4 := s3.countWrap (Reg.SCH_CLU_PREEMPT k.val) 31 0 1
          exec (.preemptAnswer k) s = .next ((s4.maxFld (Reg.SCH_CLU_PLAT k.val) 15 0 (ceilDiv (s4.time - p.since) 100)).loseCheck).placeSync))
    ∧ (∀ k, s.gfxWaiting = true → s.gfxCount < s.sched.gfxMax → s.nextGraphics 12 = some k →
        exec .modeSwitchToGraphics s = .next (s.drainStart k))
    ∧ (s.gfxWaiting = false ∨ s.sched.gfxMax ≤ s.gfxCount ∨ s.nextGraphics 12 = none → exec .modeSwitchToGraphics s = .next s)
    ∧ (∀ (k : Fin 12) (t : Nat), (s.cluster k.val).drain = some t → t + us (s.fld Reg.SCH_SLICE 15 0) ≤ s.time →
        ((s.cluster k.val).normalScratch = false → (∃ b ∈ s.clusterBlocks k.val, s.isRt b.2.2.q = false) →
          exec (.drainSliceExpired k) s = .next (s.preemptAsk k.val .noScratch))
        ∧ ((s.cluster k.val).normalScratch = false → (∀ b ∈ s.clusterBlocks k.val, s.isRt b.2.2.q = true) → exec (.drainSliceExpired k) s = .next s)
        ∧ ((s.cluster k.val).normalScratch = true → let s1 := s.setCluster k.val { s.cluster k.val with drain := none }
          (∀ j, s1.nextGraphics k.val = some j → exec (.drainSliceExpired k) s = .next (s1.drainStart j))
          ∧ (s1.nextGraphics k.val = none → exec (.drainSliceExpired k) s = .next s1)))
    ∧ (∀ (k : Fin 12), (s.cluster k.val).drain = none ∨ (∃ t, (s.cluster k.val).drain = some t ∧ s.time < t + us (s.fld Reg.SCH_SLICE 15 0)) →
        exec (.drainSliceExpired k) s = .next s)
    ∧ (∀ (k : Fin 12), s.clusterBlocks k.val = [] → (s.cluster k.val).preempt = none →
        ((s.cluster k.val).drain.isSome = true → (s.cluster k.val).normalScratch = false →
          let s1 := s.setCluster k.val { s.cluster k.val with mode := .graphics, drain := none, idleSince := s.time, gfxUnit := none }
          exec (.modeSwitchComplete k) s = .next ((s1.setFlag Reg.SCH_STATUS k.val).countWrap (Reg.SCH_CLU_SWITCH k.val) 31 0 1))
        ∧ ((s.cluster k.val).drain = none ∨ (s.cluster k.val).normalScratch = true →
          ((s.cluster k.val).switchTo = some .compute →
            let s1 := (s.setCluster k.val { s.cluster k.val with mode := .compute, switchTo := none, gfxUnit := none }).clearFlag Reg.SCH_STATUS k.val
            exec (.modeSwitchComplete k) s = .next ((s1.countWrap (Reg.SCH_CLU_SWITCH k.val) 31 0 1).placeSync))
          ∧ ((s.cluster k.val).switchTo ≠ some .compute → exec (.modeSwitchComplete k) s = .next s)))
    ∧ (∀ (k : Fin 12), s.clusterBlocks k.val ≠ [] ∨ (s.cluster k.val).preempt ≠ none → exec (.modeSwitchComplete k) s = .next s)
    ∧ (∀ (k : Fin 12), let due := max s.gfx.lastWork (s.cluster k.val).idleSince + us (10 * s.fld Reg.SCH_GFX_CTRL 31 24)
        (s.gfx.units = [] → due ≤ s.time → exec (.gfxIdleReturn k) s = .next (if (s.cluster k.val).mode = .graphics
          then s.setCluster k.val { s.cluster k.val with switchTo := some .compute } else s))
        ∧ (s.gfx.units ≠ [] ∨ s.time < due → exec (.gfxIdleReturn k) s = .next s))

/-- A reserve window starts at each multiple of its length: the clusters' usage is forgotten and a pended length takes effect. The first
unit of a queue past its run limit is recorded as 0x0A02 with its queue and sequence number and faults its context. A hang records
0x0A01 for every hung cluster, captures the lowest where nothing is captured, and starts one Quench of cause 0. A write of
ERR_QUENCH with GO, the key, the device running and no Quench running starts one of cause 1, and any other is ignored. The end of
a Quench leaves no block, pass, copy or Ladle entry; discards the started units of every queue, counts the generation, signals
what each context lost, makes every slot not resident, records 0x1002, and then lets the faults and kills held during it take
effect. (R366, R381, R391, R392, R393, R565, R566, R568) -/
def Obligations.SchedulerEvents : Prop :=
∀ (s : State),
    (s.time % us s.sched.windowLen = 0 → exec .reserveWindowStart s = .next { s with
        clusters := s.clusters.map (fun p => (p.1, { p.2 with usage := [] })),
        sched := { s.sched with windowLen := s.sched.windowPend.getD s.sched.windowLen, windowPend := none } })
    ∧ (s.time % us s.sched.windowLen ≠ 0 → exec .reserveWindowStart s = .next s)
    ∧ (∀ (q : Fin 64) (u : Queue), s.queue q.val = some u →
        let late (w : WorkUnit) : Prop := w.status = none ∧ w.limit ≠ 0 ∧ ∃ t, w.started = some t ∧ t + us (1000 * w.limit) ≤ s.time
        (∀ pre w rest, u.units = pre ++ w :: rest → (∀ x ∈ pre, ¬late x) → late w → exec (.runLimitExpired q) s
          = .next ((s.recC 0x0A02 0x02 2 u.ctx q.val (w.seq % 2 ^ 32)).contextFault u.ctx 0x0A02 0x02 (some (q.val, w.seq))))
        ∧ ((∀ w ∈ u.units, ¬late w) → exec (.runLimitExpired q) s = .next s))
    ∧ (∀ (k : Fin 12), s.hung k.val = true → s.sched.quench = none → s.flag Reg.SCH_HANG 31 = true →
        exec (.hangDetected k) s = .next ((((List.range 12).filter (fun j => s.hung j)).foldl (fun s j =>
          s.recC 0x0A01 (0x10 + j) 2 (s.hangOwner j).2 (s.hangOwner j).1 (s.hangOwner j).2) s).quenchStart 0))
    ∧ (∀ (k : Fin 12) (j : Nat) (js : List Nat), s.hung k.val = true → s.sched.quench = none → s.flag Reg.SCH_HANG 31 = false →
        (List.range 12).filter (fun j => s.hung j) = j :: js →
        exec (.hangDetected k) s = .next ((((j :: js).foldl (fun s j =>
          s.recC 0x0A01 (0x10 + j) 2 (s.hangOwner j).2 (s.hangOwner j).1 (s.hangOwner j).2) (s.setReg Reg.SCH_HANG
            (BitVec.ofNat 32 (j + (s.hangOwner j).1 * 2 ^ 8 + (s.hangOwner j).2 * 2 ^ 16 + 2 ^ 31))))).quenchStart 0))
    ∧ (∀ (k : Fin 12), s.hung k.val = false ∨ s.sched.quench.isSome = true → exec (.hangDetected k) s = .next s)
    ∧ (∀ cause, let qs := s.queues.map (fun (p : Nat × Queue) => (p.1, { p.2 with quenchWptr := s.wptr p.1 }))
        s.quenchStart cause = { s with sched := { s.sched with quench := some (cause, s.time) }, queues := qs })
    ∧ (∀ v : Word, s.uncRuns = true → v.toNat / 2 ^ 16 = 0x9E4C → bit v.toNat 0 = true → s.sched.quench = none → s.fld Reg.GLB_BOOT 1 0 = 1 →
        exec (.errQuench v) s = .next (s.quenchStart 1))
    ∧ (∀ v : Word, v.toNat / 2 ^ 16 ≠ 0x9E4C ∨ bit v.toNat 0 = false ∨ s.sched.quench.isSome = true ∨ s.fld Reg.GLB_BOOT 1 0 ≠ 1 →
        exec (.errQuench v) s = .next s)
    ∧ (s.sched.quench = none → exec .quenchComplete s = .next s.flowSettle)
    ∧ (∀ cause since, s.sched.quench = some (cause, since) →
        let qs := (s.queues.filter (fun p => s.qState p.1 ≠ 0)).map (fun p => p.1)
        let s1 := (qs.foldl (fun s q => s.quenchQueue q) s.quenchEngines).countWrap Reg.CPR_QUENCH_GEN 31 0 1
        let s2 := (s1.ctxs.map (fun p => p.1)).foldl (fun s c => (s.setFlag (Reg.CPR_CTX_STATUS c) 2).signalLost c) s1
        let s3 := { s2 with
          slots := s2.slots.map (fun (p : Nat × Slot) => (p.1, { p.2 with resident := false, running := none })),
          seqs := s2.seqs.map (fun (p : Nat × Sequence) => (p.1, { p.2 with inBatch := false })) }
        let s4 := (((s3.slots.map (fun p => p.1)).foldl (fun s n => s.slotRegs n) s3).flowQuench).putStatuses qs
        let s5 := s4.rec0 0x1002 0x02 1 (s4.reg Reg.CPR_QUENCH_GEN).toNat cause
        let s6 := ({ s5 with sched := { s5.sched with quench := none, heldFaults := [], heldKills := [] } }).loseCheck
        exec .quenchComplete s = .next ((s5.sched.heldKills.foldl (fun s c => s.ctxKill c)
          (s5.sched.heldFaults.foldl (fun s f => s.contextFault f.1 f.2.1 f.2.2 none) s6)).pwrHeld).flowSettle)
    ∧ (s.quenchEngines.cores = [] ∧ s.quenchEngines.sched.copies = [] ∧ s.quenchEngines.sched.ladle = [] ∧ s.quenchEngines.sched.stalled = []
        ∧ s.quenchEngines.gfx.passes = [] ∧ s.quenchEngines.gfx.units = []
        ∧ (∀ k, (s.quenchEngines.cluster k).mode = .compute ∧ (s.quenchEngines.cluster k).scratch = []))

/-- With UNC running: a write that sets EN of a layout stores its fields and checks them; the layout is enabled exactly if the
check passes, and the code is posted. A write that clears EN of a layout that an enabled context names is refused with 0x52, one
that changes another field of an enabled layout only sets LOCK_ERR, and any other disables it. A write of MMU_APER_EN leaves set
exactly the bits that were set already or whose aperture ends no lower than it begins, posts 0x58 where a newly set one does not
and 0 where every newly set one does, and changes nothing else. (R403, R431, R433) -/
def Obligations.LayoutsAndApertures : Prop :=
∀ (s : State) (n : Fin 4) (v : Word), s.uncRuns = true →
    let a := Reg.MMU_LAYOUT_CTRL n.val
    (bit v.toNat 0 = true → s.flag a 0 = false →
        let s1 := s.setReg a (BitVec.ofNat 32 (v.toNat % 2 ^ 31 / 2 * 2))
        let code := s1.layoutCheck n.val
        exec (.layoutEnable n v) s = .next ((if code = 0 then s1.setFlag a 0 else s1).mmuReason code)
        ∧ (iabitsOk (s1.fld a 2 1) (s1.layout n.val).levels (s1.layout n.val).iabits = false → code = 0x50)
        ∧ ((s1.layout n.val).addrLo < 12 ∨ 55 < (s1.layout n.val).addrHi → code ≠ 0))
    ∧ (bit v.toNat 0 = false → s.flag a 0 = true →
        exec (.layoutDisable n v) s = .next
          (if v.toNat % 2 ^ 31 / 2 ≠ (s.reg a).toNat / 2 then s.setFlag Reg.MMU_STATUS 0
           else if s.layoutUsed n.val = true then s.mmuReason 0x52
           else (s.clearFlag a 0).mmuReason 0))
    ∧ (let ok (i : Nat) : Prop := s.flag Reg.MMU_APER_EN i = true ∨ s.reg64 (Reg.MMU_APER_BASE_LO i) ≤ s.reg64 (Reg.MMU_APER_LIMIT_LO i)
        ∃ t, exec (.apertureEnable v) s = .next t
          ∧ (∀ i, i < 8 → (t.flag Reg.MMU_APER_EN i = true ↔ bit v.toNat i = true ∧ ok i))
          ∧ ((∃ i, i < 8 ∧ bit v.toNat i = true ∧ ¬ ok i) → t.fld Reg.MMU_STATUS 15 8 = 0x58)
          ∧ ((∀ i, i < 8 → bit v.toNat i = true → ok i) → (∃ i, i < 8 ∧ bit v.toNat i = true ∧ s.flag Reg.MMU_APER_EN i = false) →
            t.fld Reg.MMU_STATUS 15 8 = 0)
          ∧ ((∀ i, i < 8 → bit v.toNat i = true → s.flag Reg.MMU_APER_EN i = true) → t.reg Reg.MMU_STATUS = s.reg Reg.MMU_STATUS)
          ∧ t = { s with regs := t.regs } ∧ (∀ b, b ≠ Reg.MMU_APER_EN → b ≠ Reg.MMU_STATUS → t.reg b = s.reg b))

/-- For a packet that is next and executed with room for a unit: a withdrawal joins the packet path's withdrawals, or is refused:
with 0x59 for a range that is misaligned, empty or leaves its region, and else with 0x5A for a reserved SCOPE or field. With UNC
running a request of the register path is numbered by MMU_INVAL_GEN and joins its path, or posts 0x5A for a reserved scope, or
0x59 for a range that is empty or leaves its region; while 16 wait it only sets FULL_ERR. When one takes effect no TLB entry of
its context that it covers is left and every other entry stays. The oldest of a path, effective and with its transfers ended,
completes: a packet's unit completes, a register request sets MMU_INVAL_DONE and raises the vector where that is enabled; before
that nothing changes. (R418, R419, R420, R421, R423, R424, R431) -/
def Obligations.Withdrawals : Prop :=
(∀ (s s' : State) (p : Pkt) (u : Queue) (ptr : Nat) (x : Ctx), RoomForUnit s p.q.val → PktRuns s p 0x21 u ptr s' → s'.ctx u.ctx = some x →
      let sc := bits (pw p 0) 1 0
      let wrong := sc = 0 ∧ (pd p 1 % 4096 ≠ 0 ∨ pw p 3 = 0 ∨ x.xlat.leaves (bit (pw p 0) 2) (pd p 1) (pw p 3) = true)
      let a := s'.addUnit p.q.val u ptr (pktOrder p) true (.maint 0x21 p.body)
      let w : Withdrawal := ⟨some (p.q.val, a.1), 0, u.ctx, sc == 1, bit (pw p 0) 2, bit (pw p 0) 3, pd p 1, pw p 3, false, []⟩
      let t := ({ a.2 with mmu := { a.2.mmu with pinval := a.2.mmu.pinval ++ [w] } }).startWithdrawals
      let refused (code : Nat) : State := s'.refuseUnit p.q.val u ptr code (pktOrder p) (.maint 0x21 p.body)
      (pw p 0 < 16 → sc = 0 → ¬wrong → exec (.tlbInvalRange p) s = .next t)
      ∧ (pw p 0 < 16 → sc = 1 → exec (.tlbInvalContext p) s = .next t)
      ∧ (wrong → exec (.tlbInvalRange p) s = .next (refused 0x59))
      ∧ (¬wrong → sc ≠ 1 → 2 ≤ sc ∨ 16 ≤ pw p 0 → exec (.tlbInvalRange p) s = .next (refused 0x5A))
      ∧ (sc = 1 → 16 ≤ pw p 0 → exec (.tlbInvalContext p) s = .next (refused 0x5A)))
  ∧ (∀ (s : State) (v : Word), s.uncRuns = true → bit v.toNat 0 = true →
      let n := v.toNat
      let c := bits n 12 8
      let s1 := s.setReg Reg.MMU_INVAL_CTRL (BitVec.ofNat 32 (bits n 4 1 * 2 + c * 256))
      let addr := s1.reg64 Reg.MMU_INVAL_ADDR_LO
      let pages := (s1.reg Reg.MMU_INVAL_PAGES).toNat
      let wrong := ∃ x, s1.ctx c = some x ∧ bits n 2 1 = 0 ∧ (pages = 0 ∨ x.xlat.leaves (bit n 3) addr pages = true)
      (16 ≤ s.mmu.inval.length → exec (.mmuInvalRequest v) s = .next (s.setFlag Reg.MMU_STATUS 1))
      ∧ (s.mmu.inval.length < 16 → 2 ≤ bits n 2 1 → exec (.mmuInvalRequest v) s = .next (s1.mmuReason 0x5A))
      ∧ (s.mmu.inval.length < 16 → wrong → exec (.mmuInvalRequest v) s = .next (s1.mmuReason 0x59))
      ∧ (s.mmu.inval.length < 16 → bits n 2 1 < 2 → ¬wrong →
          let s2 := (s1.mmuReason 0).countWrap Reg.MMU_INVAL_GEN 31 0 1
          let w : Withdrawal := ⟨none, (s2.reg Reg.MMU_INVAL_GEN).toNat, c, bits n 2 1 == 1, bit n 3, bit n 4, addr, pages, false, []⟩
          let s3 := ({ s2 with mmu := { s2.mmu with inval := s2.mmu.inval ++ [w] } }).startWithdrawals.invalPend
          exec (.mmuInvalRequest v) s = .next (if s3.ctx c = none ∧ s3.mmu.inval.length = 1 then s3.withdrawDone false else s3)))
  ∧ (∀ (s : State) (w : Withdrawal) (x : Ctx), s.ctx w.ctx = some x →
      (s.withdrawEffect w).1.effective = true
      ∧ (∀ e, e ∈ (s.withdrawEffect w).2.mmu.tlb ↔ e ∈ s.mmu.tlb ∧ ¬ (e.asid = x.xlat.asid ∧ w.covers e.host e.va e.size = true)))
  ∧ (∀ (s : State) (w : Withdrawal) (rest : List Withdrawal),
      let ended := w.effective = true ∧ ∀ y ∈ w.waits, s.outstanding y = false
      let complete (t : State) : State := match w.packet with
        | some (q, seq) => ((t.completeUnit q seq 0 0).endStream q).startWithdrawals
        | none =>
          let s1 := (t.setReg Reg.MMU_INVAL_DONE (BitVec.ofNat 32 w.gen)).invalPend
          (if s1.flag Reg.MMU_CTRL 1 = true then s1.raiseVec (s1.fld Reg.MMU_CTRL 21 16) else s1).startWithdrawals
      (s.mmu.pinval = w :: rest →
        (ended → exec (.withdrawalComplete true) s = .next (complete { s with mmu := { s.mmu with pinval := rest } }))
        ∧ (¬ended → exec (.withdrawalComplete true) s = .next s))
      ∧ (s.mmu.inval = w :: rest →
        (ended → exec (.withdrawalComplete false) s = .next (complete { s with mmu := { s.mmu with inval := rest } }))
        ∧ (¬ended → exec (.withdrawalComplete false) s = .next s)))
  ∧ (∀ s : State, (s.mmu.pinval = [] → exec (.withdrawalComplete true) s = .next s)
      ∧ (s.mmu.inval = [] → exec (.withdrawalComplete false) s = .next s))

/-- For a packet that is next and executed with room for a unit. An ADVISE takes effect and completes, or is refused: a misaligned or
empty range with 0x59, else a reserved ADVICE, location or field with 0x5A, else one that leaves more than 64 pieces of its
context's advice with 0x5B. Afterwards every page of the range has the location, the read-mostly attribute or the clusters given,
whatever older advice says; after a removal no advice covers a page of it. PREFETCH_RANGE takes those of its three steps that its
packet asks over the pages in ascending order, cluster TLBs loaded, whole blocks moved, lines read, and completes, or is refused:
a misaligned or empty range, or one to be moved outside the context's window, with 0x59, else a reserved field with 0x5A. (R425,
R426, R427, R431) -/
def Obligations.AdviceAndPrefetch : Prop :=
(∀ (s s' : State) (p : Pkt) (u : Queue) (ptr : Nat) (x : Ctx), RoomForUnit s p.q.val → PktRuns s p 0x23 u ptr s' → s'.ctx u.ctx = some x →
      let w3 := pw p 3
      let addr := pd p 0
      let pages := pw p 2
      let kind := UnitKind.maint 0x23 p.body
      let after (x : Ctx) : List Advice := adviseList x.advice (bits w3 2 0) (bits w3 5 4) (bits w3 27 16) addr pages
      let reserved := 4 < bits w3 2 0 ∨ bits w3 5 4 = 3 ∨ bit w3 3 = true ∨ bits w3 15 6 ≠ 0 ∨ bits w3 31 28 ≠ 0 ∨ pw p 4 ≠ 0 ∨ pw p 5 ≠ 0
      let a := s'.addUnit p.q.val u ptr (pktOrder p) true kind
      let t : State := ((({ a.2 with ctxs := Sparse.update a.2.ctxs u.ctx (fun (x : Ctx) => { x with advice := after x }) }).completeUnit
        p.q.val a.1 0 0).endStream p.q.val)
      ∀ i : Instr, (bits w3 2 0 = 0 ∨ 4 < bits w3 2 0) ∧ i = .adviseLocation p ∨ bits w3 2 0 = 1 ∧ i = .adviseSetReadMostly p
          ∨ bits w3 2 0 = 2 ∧ i = .adviseClearReadMostly p ∨ bits w3 2 0 = 3 ∧ i = .adviseAccessedBy p ∨ bits w3 2 0 = 4 ∧ i = .adviseRemove p →
        (addr % 4096 ≠ 0 ∨ pages = 0 → exec i s = .next (s'.refuseUnit p.q.val u ptr 0x59 (pktOrder p) kind))
        ∧ (addr % 4096 = 0 → pages ≠ 0 → reserved → exec i s = .next (s'.refuseUnit p.q.val u ptr 0x5A (pktOrder p) kind))
        ∧ (addr % 4096 = 0 → pages ≠ 0 → ¬reserved → 64 < (after x).length → exec i s = .next (s'.refuseUnit p.q.val u ptr 0x5B (pktOrder p) kind))
        ∧ (addr % 4096 = 0 → pages ≠ 0 → ¬reserved → (after x).length ≤ 64 → exec i s = .next t))
  ∧ (∀ (x : Ctx) (loc cl addr pages va : Nat), addr ≤ va → va < addr + pages * 4096 →
      let y (k : Nat) : Ctx := { x with advice := adviseList x.advice k loc cl addr pages }
      ((y 0).attrs va).1 = loc ∧ ((y 1).attrs va).2.1 = true ∧ ((y 2).attrs va).2.1 = false ∧ ((y 3).attrs va).2.2 = cl
        ∧ (∀ a ∈ (y 4).advice, a.has va = false))
  ∧ (∀ (s s' : State) (p : Pkt) (u : Queue) (ptr : Nat) (x : Ctx), RoomForUnit s p.q.val → PktRuns s p 0x22 u ptr s' → s'.ctx u.ctx = some x →
      let w3 := pw p 3
      let addr := pd p 0
      let pages := pw p 2
      let kind := UnitKind.maint 0x22 p.body
      let a := s'.addUnit p.q.val u ptr (pktOrder p) true kind
      let vas := (List.range pages).map (fun i => addr + 4096 * i)
      let inWin := x.xlat.hostEn = true ∧ x.xlat.devBase ≤ addr ∧ addr + pages * 4096 ≤ x.xlat.devBase + x.xlat.winGiB * 2 ^ 30
      let wrong := addr % 4096 ≠ 0 ∨ pages = 0 ∨ (bit w3 2 = true ∧ ¬inWin)
      let reserved := bits w3 4 3 = 3 ∨ bits w3 15 5 ≠ 0 ∨ bits w3 31 28 ≠ 0 ∨ pw p 4 ≠ 0 ∨ pw p 5 ≠ 0
      let s1 := if bit w3 0 then vas.foldl (fun t va => t.prefetchPage u.ctx va (bits w3 27 16)) a.2 else a.2
      let s2 := if bit w3 2 then (vas.filter (fun va => va % 65536 = 0 && va + 65536 ≤ addr + pages * 4096)).foldl
        (fun t va => t.moveBlock u.ctx va (bits w3 4 3)) s1 else s1
      let s3 := if bit w3 1 then vas.foldl (fun t va => t.warmPage u.ctx va (!bit w3 0)) s2 else s2
      (wrong → exec (.prefetchRange p) s = .next (s'.refuseUnit p.q.val u ptr 0x59 (pktOrder p) kind))
      ∧ (¬wrong → reserved → exec (.prefetchRange p) s = .next (s'.refuseUnit p.q.val u ptr 0x5A (pktOrder p) kind))
      ∧ (¬wrong → ¬reserved → exec (.prefetchRange p) s = .next ((s3.completeUnit p.q.val a.1 0 0).endStream p.q.val)))

/-- Data of a completed read goes to what the read is for; an error completion, poisoned data or the timeout of an outstanding read
fails it: CPL_ERR is set and the error is counted; the operation of a kernel's group ends and, as for a fence's or a unit's
closing read, its context faults with record 0x0C02; a walk faults; the firmware is told of a DMA channel's. A response for an
abandoned read is discarded, a timeout before its time changes nothing. A link that goes down outside a power-state change fails
the outstanding reads (DEDUCED, log entry 42), discards the unsent writes, is counted and gives record 0x0C05; a recovery is
counted with 0x0C04; a link that trains within the limits of the board shows its speed and width and sends what waited. PERST_N
puts configuration space at its reset values. (R368, R435, R436, R458, R459, R511, R567) -/
def Obligations.HostLink : Prop :=
(∀ (s : State) (r : HostRead), s.hif.reads.find? (fun x => x.id == r.id) = some r →
      let s1 := { s with hif := { s.hif with reads := s.hif.reads.filter (fun x => x.id ≠ r.id) } }
      (r.abandoned = true → ∀ x, exec (.hostReadCompletion r.id x) s = .next s1)
      ∧ (r.abandoned = false → ∀ bs, exec (.hostReadCompletion r.id (.data bs)) s = .next (match r.for_ with
          | .kernel core slot op key off => s1.kernelData core slot op key off bs
          | .walk w => s1.walkResponse w (.data bs)
          | .fence core slot => s1.fenceRead core slot
          | .release q seq => s1.releaseRead q seq
          | .dma _ => s1))
      ∧ (r.abandoned = false → ∀ x, (∀ bs, x ≠ ReadResult.data bs) →
          exec (.hostReadCompletion r.id x) s = .next (s1.hostReadFail r false (decide (x = .poisoned))))
      ∧ (r.since + ctvTicks s.hif.ctv ≤ s.time → exec (.hostReadTimeout r.id) s = .next (if r.abandoned then s1 else s1.hostReadFail r true false))
      ∧ (s.time < r.since + ctvTicks s.hif.ctv → exec (.hostReadTimeout r.id) s = .next s))
  ∧ (∀ (s : State) (id : Nat), (∀ r ∈ s.hif.reads, r.id ≠ id) → exec (.hostReadTimeout id) s = .next s
      ∧ ∀ x, exec (.hostReadCompletion id x) s = .next s)
  ∧ (∀ (s : State) (r : HostRead) (timeout poison : Bool),
      let s1 := (s.setFlag Reg.HIF_STATUS 9).countSat Reg.HIF_CPL_ERRS (if timeout then 15 else 31) (if timeout then 0 else 16) 1
      let faulted (t : State) (u : Option (Nat × Nat)) : State :=
        (t.recC 0x0C02 0x40 2 r.ctx (r.addr % 2 ^ 32) (r.addr / 2 ^ 32)).contextFault r.ctx 0x0C02 0x40 u
      s.hostReadFail r timeout poison = (match r.for_ with
        | .walk id => s1.walkResponse id (if poison then .poisoned else .unsupported)
        | .dma ch => s1.emit (.firmware 0x0C02 ch)
        | .kernel core slot op _ _ =>
          faulted (s1.cutOp core slot op (fun _ => false)) ((s1.cutOp core slot op (fun _ => false)).groupUnit core slot)
        | .fence core slot => faulted s1 (s1.groupUnit core slot)
        | .release q seq => (faulted s1 (some (q, seq))).releaseRead q seq))
  ∧ (∀ s : State, s.uncOn = true →
      (s.flag Reg.HIF_STATUS 0 = true → s.linkExcused = false →
        let s1 := s.clearFlag Reg.HIF_STATUS 0
        let s2 := s.hif.reads.foldl (fun s r => if r.abandoned then s else s.hostReadFail r false false)
          { s1 with hif := { s1.hif with reads := [], unsent := [] } }
        let s3 := s2.countSat Reg.HIF_LINK_EVENTS 31 16 1
        let t := s3.rec0 0x0C05 0x40 1 (s3.fld Reg.HIF_LINK_EVENTS 31 16) 0
        exec .linkDown s = .next t ∧ exec .perstAssert s = .next t.configReset)
      ∧ (s.flag Reg.HIF_STATUS 0 = false ∨ s.linkExcused = true →
        exec .linkDown s = .next s ∧ exec .perstAssert s = .next (s.clearFlag Reg.HIF_STATUS 0).configReset)
      ∧ (s.flag Reg.HIF_STATUS 0 = true → let s1 := s.countSat Reg.HIF_LINK_EVENTS 15 0 1
        exec .linkRecovery s = .next (s1.rec0 0x0C04 0x40 0 (s1.fld Reg.HIF_LINK_EVENTS 15 0) 0))
      ∧ (s.flag Reg.HIF_STATUS 0 = false → exec .linkRecovery s = .next s))
  ∧ (∀ s : State, s.configReset.hif.bar0 = none ∧ s.configReset.hif.bar2 = none ∧ s.configReset.hif.msixEnable = false
      ∧ (∀ a, 0x018000 ≤ a → a < 0x019010 → s.configReset.reg a = regReset a)
      ∧ (∀ a, a < 0x018000 ∨ 0x019010 ≤ a → s.configReset.reg a = s.reg a))
  ∧ (∀ (s : State) (gen width : Fin 5) (atomics : BitVec 6), s.uncOn = true →
      let fits := 1 ≤ gen.val ∧ gen.val ≤ s.pcieMax.1 ∧ width.val ∈ [1, 2, 4] ∧ width.val ≤ s.pcieMax.2
      let s1 := ((s.setFlag Reg.HIF_STATUS 0).setFld Reg.HIF_STATUS 3 1 gen.val).setFld Reg.HIF_STATUS 6 4 width.val
      (fits → exec (.linkTraining gen width atomics) s = .next { s1 with
          out := s.out ++ s.hif.unsent,
          hif := { s.hif with hostAtomic := atomics.toNat, wakeN := true, linkL2 := false, unsent := [] } }
        ∧ s1.flag Reg.HIF_STATUS 0 = true ∧ s1.fld Reg.HIF_STATUS 3 1 = gen.val ∧ s1.fld Reg.HIF_STATUS 6 4 = width.val)
      ∧ (¬fits → exec (.linkTraining gen width atomics) s = .next s))

/-- A raise merged during the hold-off is sent when that ends, pended where the vector is masked then, dropped where MSI-X is
disabled; a vector that is no longer masked sends the message its PBA bit holds, or within the hold-off lets it wait. The sender's
word fills an empty mailbox, and is lost with MB_LOST and record 0x0C03 in a full one; anyone reads the word, the receiver's read
empties it. An address match holds SCL and wakes the Hearth core; no other address does anything. A command with its request bytes
and a right PEC answers what R456 says, a power request during a Quench only after it; one with a wrong PEC is not acknowledged,
with record 0x0C10; one with another count of bytes answers status 2; after either the port is idle. Without an address match
nothing happens. (R447, R448, R450, R453, R454, R455, R456, R457, R528, R539, R568) -/
def Obligations.MessagesAndMailboxes : Prop :=
(∀ (s : State) (vec : Fin 64),
      (∀ due, Sparse.find s.hif.merged vec.val = some due →
        let s1 := { s with hif := { s.hif with merged := Sparse.drop s.hif.merged vec.val } }
        (due ≤ s.time → exec (.msixHoldoffExpire vec) s = .next
          (if s.hif.msixEnable = false then s1
           else if s.msixMasked vec.val = true then s1.setFlag (Reg.MSIX_PBA (vec.val / 32)) (vec.val % 32) else s1.msixSend vec.val))
        ∧ (s.time < due → exec (.msixHoldoffExpire vec) s = .next s))
      ∧ (Sparse.find s.hif.merged vec.val = none → exec (.msixHoldoffExpire vec) s = .next s)
      ∧ (let held := ∃ t, Sparse.find s.hif.lastMsg vec.val = some t ∧ s.fld Reg.HIF_CTRL 15 8 ≠ 0 ∧ s.time < t + us (s.fld Reg.HIF_CTRL 15 8)
        (¬held → s.msixGo vec.val = s.msixSend vec.val)
        ∧ (∀ t, Sparse.find s.hif.lastMsg vec.val = some t → held → Sparse.find s.hif.merged vec.val = none → s.msixGo vec.val =
          { s with hif := { s.hif with merged := Sparse.put s.hif.merged vec.val (t + us (s.fld Reg.HIF_CTRL 15 8)) } })))
  ∧ (∀ (s : State) (vec : Fin 64), s.uncOn = true →
      let s1 := s.clearFlag (Reg.MSIX_TABLE (4 * vec.val + 3)) 0
      let pba := Reg.MSIX_PBA (vec.val / 32)
      exec (.msixUnmask vec) s = .next (if s.hif.msixEnable = true ∧ s.hif.funcMask = false ∧ s.flag pba (vec.val % 32) = true
        then (s1.clearFlag pba (vec.val % 32)).msixGo vec.val else s1))
  ∧ (∀ (s : State) (m : Fin 10) (w : Word),
      (s.mbFull m.val = false → exec (.mailboxWrite m (mbSender m.val) w) s = .next ((s.mbPut m.val w).mbFilled m.val)
        ∧ (s.mbPut m.val w).mbFull m.val = true ∧ (s.mbPut m.val w).mbWord m.val = w)
      ∧ (s.mbFull m.val = true → exec (.mailboxWrite m (mbSender m.val) w) s = .next
        ((if s.uncOn = true then s.setFlag Reg.HIF_STATUS 10 else s).rec0 0x0C03 (if m.val = 8 then 0x42 else 0x40) 1 m.val w.toNat))
      ∧ (∀ a, a ≠ mbSender m.val → exec (.mailboxWrite m a w) s = .next s)
      ∧ (∀ a, let s1 := s.emit (.readData (agentPath a) (s.mbWord m.val))
        let t := if a = mbReceiver m.val then s1.mbTake m.val else s1
        exec (.mailboxRead m a) s = .next t
        ∧ t.mbWord m.val = s.mbWord m.val ∧ t.mbFull m.val = (s.mbFull m.val && decide (a ≠ mbReceiver m.val))))
  ∧ (∀ (s : State) (a : BitVec 7), exec (.i2cAddressMatch a) s = .next
      (if a.toNat = s.i2cAddr then { s with
        hif := { s.hif with i2cAddressed := true, sclHeld := true }, pwr := { s.pwr with hearthAwake := true } } else s)
      ∧ exec .i2cSclTimeout s = .next s.i2cIdle
      ∧ s.i2cIdle = { s with hif := { s.hif with i2cAddressed := false, sclHeld := false } })
  ∧ (∀ (s : State) (r : I2cRequest), s.hif.i2cAddressed = true → r.pecOk = true →
      let ans (t : State) (bs : List Byte) : Host.Outcome State Fault Refusal := .next (t.emit (.i2c bs)).i2cIdle
      (r.bytes = [] → exec (.ident r) s = ans s ([0, 0x42, 0x30] ++ leBytes 2 (bits s.boot.version 47 32)
          ++ leBytes 2 (bits s.boot.version 31 16) ++ leBytes 2 (bits s.boot.version 15 0)))
      ∧ (r.bytes = [] → exec (.status r) s = ans s ([0, BitVec.ofNat 8 (s.fld Reg.PWR_STATUS 1 0), BitVec.ofNat 8 (s.fld Reg.PWR_POWER 23 16)]
          ++ leBytes 2 (s.fld Reg.PWR_POWER 15 0) ++ [BitVec.ofNat 8 (s.fld Reg.PWR_WAKE 11 8)] ++ leBytes 2 (s.fld Reg.ERR_SEQ 15 0)))
      ∧ (r.bytes.length = 4 → exec (.msgPut r) s = ans (s.mbPost 8 (BitVec.ofNat 32 (leNat r.bytes))) [0, if s.hif.inboxFull then 1 else 0])
      ∧ (r.bytes = [] → exec (.msgGet r) s = if s.hif.outboxFull = true then ans (s.mbTake 9) ([0, 1] ++ leBytes 4 s.hif.outbox.toNat)
          else ans s [0, 0, 0, 0, 0, 0])
      ∧ (r.bytes.length = 4 → let b := leNat r.bytes / 0x10000
          (b = 0x0D ∨ (b ∈ [0x00, 0x0C] ∧ s.uncOn = true) →
            exec (.regRead r) s = ans (s.regRead .i2c (leNat r.bytes)).2 (0 :: leBytes 4 (s.regRead .i2c (leNat r.bytes)).1.toNat))
          ∧ (b ∈ [0x00, 0x0C] → s.uncOn = false → exec (.regRead r) s = ans s [1])
          ∧ (b ∉ [0x00, 0x0C, 0x0D] → exec (.regRead r) s = ans s.drawNat.2 [3, BitVec.ofNat 8 s.drawNat.1]))
      ∧ (r.bytes = [0] → exec (.powerReq r) s = ans (s.wake 2) [0, 0])
      ∧ (∀ b, r.bytes = [b] → b ≠ 0 →
          (s.sched.quench = none → exec (.powerReq r) s = ans (s.pwrCheck 0x42 b.toNat).2 (match s.pwrCode b.toNat with
            | some (code, _) => [3, BitVec.ofNat 8 code]
            | none => [0, 0]))
          ∧ (s.sched.quench.isSome = true → exec (.powerReq r) s
            = .next { s with pwr := { s.pwr with heldReqs := s.pwr.heldReqs ++ [(0x42, b.toNat)] } })))
  ∧ (∀ (s : State) (r : I2cRequest), ∀ x ∈ [(1, 0, Instr.ident r), (2, 0, .status r), (3, 1, .powerReq r), (4, 4, .msgPut r), (5, 0, .msgGet r),
        (6, 4, .regRead r)],
      (s.hif.i2cAddressed = false → exec x.2.2 s = .next s)
      ∧ (s.hif.i2cAddressed = true → r.pecOk = false → exec x.2.2 s = .next ((s.emit .i2cNack).rec0 0x0C10 0x42 0 x.1 0).i2cIdle)
      ∧ (s.hif.i2cAddressed = true → r.pecOk = true → r.bytes.length ≠ x.2.1 → exec x.2.2 s = .next (s.emit (.i2c [2])).i2cIdle))

/-- With UNC running: a remap request that passes the check lists or unlists its line, sets RMP_DONE and changes no byte of device
memory; one that fails posts its code and changes no entry. A region commit that passes puts the pending map in force and sets
MAP_DONE; one that fails posts its code; with MAP_LOCK 1 it is ignored as a violation. A visit of the scrub reads the next
protected line and moves the position on, to the lowest protected address with one pass more at the end; it does nothing while
the scrub is off, outside A0 or during an update. A poll of a channel's temperature shows the hottest; a rise of HOT writes
record 0x0D08. In A1 a channel without a request for 1 us powers down. (R462, R474, R475, R476, R478, R479, R480, R481, R482,
R546, R569) -/
def Obligations.DramControllers : Prop :=
∀ (s : State),
    (s.uncRuns = true → ∀ v : Word, bit v.toNat 0 = true →
      let entry := bits v.toNat 11 8
      let a := s.reg64 Reg.DMC_RMP_ADDR_LO
      let op := bits v.toNat 2 1
      let s1 := (s.setReg Reg.DMC_RMP_CMD (v &&& 0xF06#32)).setFld Reg.DMC_STATUS 23 16 (s.remapCode op entry a)
      let done (i : Instr) (t : State) : Prop := exec i s = .next t ∧ t.flag Reg.DMC_STATUS 4 = true ∧ t.fld Reg.DMC_STATUS 23 16 = 0
        ∧ t.remapLine entry = (if op = 0 then some a else none) ∧ (∀ j, j < 16 → j ≠ entry → t.remapLine j = s.remapLine j)
        ∧ ∀ x, t.devByte x = s.devByte x
      let bad (i : Instr) : Prop := exec i s = .next s1 ∧ s1.fld Reg.DMC_STATUS 23 16 = s.remapCode op entry a
        ∧ (∀ j, j < 16 → s1.remapLine j = s.remapLine j)
      (op = 0 → s.remapCode 0 entry a = 0 →
        done (.rmpAdd v) (((s1.remapCopy a).setReg64 (Reg.DMC_RMP_LO entry) (a + 1)).setFlag Reg.DMC_STATUS 4))
      ∧ (op = 0 → s.remapCode 0 entry a ≠ 0 → bad (.rmpAdd v))
      ∧ (op = 1 → s.remapCode 1 entry a = 0 →
        done (.rmpRemove v) (((s1.remapCopy ((s.remapLine entry).getD a)).clearFlag (Reg.DMC_RMP_LO entry) 0).setFlag Reg.DMC_STATUS 4))
      ∧ (op = 1 → s.remapCode 1 entry a ≠ 0 → bad (.rmpRemove v)))
    ∧ (s.uncRuns = true → ∀ v : Word, bit v.toNat 0 = true →
      (s.flag Reg.DMC_LOCK 0 = true → exec (.mapCommit v) s = .next (s.violation 0x40 Reg.DMC_MAP_CMD v.toNat))
      ∧ (s.flag Reg.DMC_LOCK 0 = false → s.mapCode = 0 →
          let t := ((s.setFld Reg.DMC_STATUS 15 8 0).mapApply s.pendingMap).setFlag Reg.DMC_STATUS 3
          exec (.mapCommit v) s = .next t ∧ t.dram.map = s.pendingMap
          ∧ t.flag Reg.DMC_STATUS 3 = true ∧ t.fld Reg.DMC_USABLE 15 0 = usableBytes s.pendingMap / mib64 % 2 ^ 16
          ∧ (Memory.wf s = true → Memory.wf t = true))
      ∧ (s.flag Reg.DMC_LOCK 0 = false → s.mapCode ≠ 0 → exec (.mapCommit v) s = .next (s.setFld Reg.DMC_STATUS 15 8 s.mapCode)))
    ∧ (∀ es, s.uncRuns = true →
        let may := s.flag Reg.DMC_SCRUB_CTRL 0 = true ∧ s.fld Reg.PWR_STATUS 1 0 = 0 ∧ s.fld Reg.DMC_STATUS 1 0 = 0
        (∀ a low, may → s.nextProt (s.reg64 Reg.DMC_SCRUB_POS_LO) = some a → s.nextProt 0 = some low →
          let t := (List.range 4).foldl (fun s i => s.scrubCw (a / 32 + i)) ((s.upset a es).countBytes a 128)
          exec (.scrubVisit es) s = .next (match s.nextProt (a + 128) with
            | some b => t.setReg64 Reg.DMC_SCRUB_POS_LO b
            | none => (t.setReg64 Reg.DMC_SCRUB_POS_LO low).countWrap Reg.DMC_SCRUB_PASSES 31 0 1))
        ∧ (¬may ∨ s.nextProt 0 = none → exec (.scrubVisit es) s = .next s))
    ∧ (∀ (ch : Fin 16) (rate : BitVec 5) (beyond : Bool), s.uncOn = true →
        let m := Sparse.put s.dram.mr4 ch.val (rate.toNat + (if beyond then 32 else 0))
        let hot := m.any (fun x => 32 ≤ x.2)
        let s1 := { s with dram := { s.dram with mr4 := m } }
        let s2 := ((s1.setFld Reg.DMC_TEMP 4 0 (hottest m).2).setFld Reg.DMC_TEMP 11 8 (hottest m).1).setFld Reg.DMC_TEMP 16 16 (if hot then 1 else 0)
        exec (.mr4Poll ch rate beyond) s = .next
          (if hot = true ∧ s.flag Reg.DMC_TEMP 16 = false then s2.rec0 0x0D08 0x21 1 ch.val rate.toNat else s2).sopUpdate)
    ∧ (s.uncOn = true → exec .zqCalibration s = .next { s with dram := { s.dram with lastZq := s.time } })
    ∧ (∀ ch : Fin 16, let quiet := ∀ t0, Sparse.find s.dram.lastReq ch.val = some t0 → t0 + us 1 ≤ s.time
        (s.fld Reg.PWR_STATUS 1 0 = 1 → quiet →
          exec (.dramPowerDown ch) s = .next { s with dram := { s.dram with powerDown := Sparse.put s.dram.powerDown ch.val true } })
        ∧ (s.fld Reg.PWR_STATUS 1 0 ≠ 1 ∨ ¬quiet → exec (.dramPowerDown ch) s = .next s))

/-- With UNC on, a GO that no cause refuses sets BUSY and the operation runs; a refused one sets ERR with the cause, in the
order busy, closed, bad OP, bad address, protected slot, and changes no byte; a row whose write has not GO or another OP, or
that meets the UNC domain off, changes nothing. A completed read puts the page into the buffer registers; a completed program
leaves each byte of the page the bits that both it and the buffer have (that only ones become zeros is the model's, PRESUMED, log
entry 77); a completed erase leaves ones; every other byte stays. Success sets DONE; a program or erase that fails sets ERR with
cause 3 and leaves free bytes where it worked; a completion without an operation changes nothing. (R515, R519, R523, R524) -/
def Obligations.FlashPath : Prop :=
∀ (s : State),
    (∀ (v : Word), s.uncOn = true → bit v.toNat 0 = true →
      let op := bits v.toNat 3 1
      let a := (s.reg Reg.CFG_FL_ADDR).toNat
      let s1 := s.setReg Reg.CFG_FL_CMD (BitVec.ofNat 32 (op * 2))
      let t := if s1.flashCause op a ≠ 0 then s1.flashErr (s1.flashCause op a)
        else { s1.setFlag Reg.CFG_FL_STATUS 0 with boot := { s1.boot with flashOp := some (op, a) } }
      (op = 0 → exec (.flashRead v) s = .next t) ∧ (op = 1 → exec (.flashProgram v) s = .next t)
      ∧ (op = 2 → exec (.flashErase4k v) s = .next t) ∧ (op = 3 → exec (.flashErase64k v) s = .next t)
      ∧ (s.flag Reg.CFG_FL_STATUS 0 = true → s1.flashCause op a = 4)
      ∧ (s.flag Reg.CFG_FL_STATUS 0 = false → s.flashOpen = false → s1.flashCause op a = 6)
      ∧ (s.flag Reg.CFG_FL_STATUS 0 = false → s.flashOpen = true → 3 < op → s1.flashCause op a = 5)
      ∧ (s.flag Reg.CFG_FL_STATUS 0 = false → s.flashOpen = true → op < 4 → a % flashUnit op ≠ 0 ∨ flashBytes < a + flashUnit op →
          s1.flashCause op a = 1)
      ∧ (s.flag Reg.CFG_FL_STATUS 0 = false → s.flashOpen = true → a % flashUnit op = 0 → a + flashUnit op ≤ flashBytes → op < 4 →
          s1.flashCause op a = (if op ≠ 0 ∧ s.flag Reg.CFG_FL_LOCK (if a < slotBase 1 then 0 else 1) = true then 2 else 0)))
    ∧ (∀ v : Word, let off := s.uncOn = false ∨ bit v.toNat 0 = false
        (off ∨ bits v.toNat 3 1 ≠ 0 → exec (.flashRead v) s = .next s) ∧ (off ∨ bits v.toNat 3 1 ≠ 1 → exec (.flashProgram v) s = .next s)
        ∧ (off ∨ bits v.toNat 3 1 ≠ 2 → exec (.flashErase4k v) s = .next s) ∧ (off ∨ bits v.toNat 3 1 ≠ 3 → exec (.flashErase64k v) s = .next s))
    ∧ (∀ op a, s.boot.flashOp = some (op, a) →
        let s1 : State := { s.clearFlag Reg.CFG_FL_STATUS 0 with boot := { s.boot with flashOp := none } }
        let t := (s1.flashEffect op a).setFlag Reg.CFG_FL_STATUS 1
        let free := s1.flashPut a ((List.range (flashUnit op)).map (fun i => Config.freeByte s.draws (a + i)))
        let u := ({ free with draws := s.draws + 1 }).flashErr 3
        (∀ failed, failed = false ∨ op = 0 → exec (.flashOpComplete failed) s = .next t)
          ∧ t.boot.flashOp = none ∧ t.flag Reg.CFG_FL_STATUS 0 = false ∧ t.flag Reg.CFG_FL_STATUS 1 = true
          ∧ (op = 0 → (∀ x, t.flashAt x = s.flashAt x) ∧ ∀ w, w < 64 → t.reg (Reg.CFG_FL_BUF w) = BitVec.ofNat 32 (s.flashWord (a + 4 * w)))
          ∧ (op = 1 → ∀ x, t.flashAt x = if a ≤ x ∧ x < a + 256 then s.flashBuf.getD (x - a) 0 &&& s.flashAt x else s.flashAt x)
          ∧ (2 ≤ op → ∀ x, t.flashAt x = if a ≤ x ∧ x < a + flashUnit op then 0xFF else s.flashAt x)
          ∧ (op ≠ 0 → exec (.flashOpComplete true) s = .next u ∧ u.boot.flashOp = none ∧ u.flag Reg.CFG_FL_STATUS 2 = true
            ∧ u.fld Reg.CFG_FL_STATUS 11 8 = 3 ∧ ∀ x, x < a ∨ a + flashUnit op ≤ x → u.flashAt x = s.flashAt x))
    ∧ (s.boot.flashOp = none → ∀ failed, exec (.flashOpComplete failed) s = .next s)

/-- After POR_N rises the Hearth, whose SRAM and flash are sound, chooses a slot and takes its parameters; an SRAM defect fails
the start with code 3, no flash ends it in recovery with code 2. Rails that are ready release the domains, a known one that did
not answer being dropped with a clamp entry; rails late by 50 ms fail the start with code 4. Training, the DRAM self-test, the
on-chip tests and the load of the boot part each note their end: a repair is counted with 0x0E02, a core or a part beyond repair
fences its cluster, a way beyond repair is disabled. Once all have ended the DMC records are applied, the map is committed and
locked, the failing lines are remapped and STATE reads running; a fatal finding fails the start with its code (of several the
lowest, the model's, DESIGN CHOICE, log entry 91), a bad digest begins again from the other slot. The DATA sections and the second
pass of records follow. Each of these rows at another time changes nothing. (R479, R487, R494, R496, R500, R504, R505, R506, R507,
R512, R515, R516) -/
def Obligations.StartUp : Prop :=
∀ (s : State),
    (let s1 := { s with boot := { s.boot with hearth := true, begun := s.time, kind := 0 } }
      let c := s1.chooseSlot
      let kws := c.param 0x011D (128 * 2 ^ 8 + 200 * 2 ^ 16)
      let a1 := c.param 0x011F (1 + 100 * 2 ^ 8)
      let c1 := ((c.setFld Reg.PWR_VBAK 31 16 (c.param 0x011A 2000)).setFld Reg.PWR_LIMIT 5 0 (c.param 0x011C 40)).setFld Reg.PWR_KWS_CTRL 0 0 (bits kws 0 0)
      let c2 := (c1.setFld Reg.PWR_KWS_CTRL 15 8 (bits kws 15 8)).setFld Reg.PWR_KWS_CTRL 24 16 (bits kws 31 16)
      let t := ((c2.setFld Reg.PWR_WAKE 5 3 (c.param 0x011E 7)).setFld Reg.PWR_CTRL 0 0 (bits a1 0 0)).setFld Reg.PWR_CTRL 15 8 (bits a1 15 8)
      (∀ sram f, s.boot.hearth = true → exec (.powerOnReset sram f) s = .next s)
      ∧ (s.boot.hearth = false → (∀ f, exec (.powerOnReset false f) s = .next (s1.startStops 3 3))
        ∧ exec (.powerOnReset true false) s = .next (s1.startStops 2 2)
        ∧ exec (.powerOnReset true true) s = .next t ∧ t.boot = c.boot ∧ t.pwr = c.pwr
          ∧ t.fld Reg.PWR_VBAK 31 16 = c.param 0x011A 2000 % 2 ^ 16 ∧ t.fld Reg.PWR_LIMIT 5 0 = c.param 0x011C 40 % 2 ^ 6
          ∧ t.fld Reg.PWR_WAKE 5 3 = c.param 0x011E 7 % 2 ^ 3 ∧ t.fld Reg.PWR_CTRL 15 8 = bits a1 15 8))
    ∧ (∀ ds : List (Fin 8),
        let dead := ds.map (fun n => n.val)
        let known := (List.range 8).filter (fun n => dead.contains n && bits (s.param (0x0110 + n) 0) 18 16 ≠ 0)
        let s1 := known.foldl (fun s n => s.clamp 6 0 0 0 (0x0110 + n) (s.param (0x0110 + n) 0 % 2 ^ 32) 0) s
        let s2 := { s1 with
          uncOn := true, dispOn := true, cluOn := true, boot := { s1.boot with rails := true },
          pwr := { s1.pwr with railEn := 15, rails := s1.railTable dead } }
        let t := (s2.raiseRails (s1.railTable dead)).collectHeld
        (s.boot.hearth = true → s.boot.rails = false → s.fld Reg.GLB_BOOT 1 0 ≠ 3 → exec (.railsReady ds) s = .next t
          ∧ t.uncOn = true ∧ t.dispOn = true ∧ t.cluOn = true ∧ t.boot.rails = true ∧ t.err.held = [] ∧ t.pwr.rails = s.railTable dead)
        ∧ (s.boot.hearth = false ∨ s.boot.rails = true ∨ s.fld Reg.GLB_BOOT 1 0 = 3 → exec (.railsReady ds) s = .next s))
    ∧ (exec .railsTimeout s = .next (if s.boot.hearth = true ∧ s.boot.rails = false ∧ s.boot.begun + us 50000 ≤ s.time ∧ s.fld Reg.GLB_BOOT 1 0 = 0
        then s.startStops 3 4 else s))
    ∧ (∀ fails verified,
        let done (s : State) (r : Nat) : State :=
          let s1 := (s.setFld Reg.DMC_CFG 2 0 r).setFld Reg.DMC_CFG 31 16 0xFFFF
          ({ s1 with boot := { s1.boot with trained := true, rate := r } }).bootCommit
        let x := s.trainFrom (s.param 0x0001 0) fails
        (s.starting = false ∨ s.boot.trained = true → exec (.trainingComplete fails verified) s = .next s)
        ∧ (s.starting = true → s.boot.trained = false →
          (s.boot.kind = 1 → verified = true → exec (.trainingComplete fails verified) s = .next (done s s.boot.rate))
          ∧ (s.boot.kind ≠ 1 ∨ verified = false →
            (x.1 = none → exec (.trainingComplete fails verified) s = .next (x.2.startStops 3 5))
            ∧ (∀ r, x.1 = some r → exec (.trainingComplete fails verified) s = .next (done x.2 r)))))
    ∧ (∀ lines : List (BitVec 40),
        let now := s.starting = true ∧ s.boot.kind = 0 ∧ s.boot.trained = true ∧ s.boot.selftest = false ∧ s.param 0x0004 0 ≠ 1
        let s1 := s.setFlag Reg.GLB_BOOT 5
        let f := lines.foldl (fun (l : List Nat) a => insertLine (a.toNat / 128 * 128) l) []
        (now → exec (.dramSelftestComplete lines) s = .next ({ s1 with boot := { s1.boot with selftest := true, failing := f } }.bootCommit))
        ∧ (¬now → exec (.dramSelftestComplete lines) s = .next s)
        ∧ ∀ x, x ∈ f ↔ ∃ a ∈ lines, x = a.toNat / 128 * 128)
    ∧ (∀ r : TestResult,
        let now := s.starting = true ∧ s.boot.kind = 0 ∧ s.boot.tested = false
        let a1 : State := r.repaired.foldl (fun (s : State) u => (s.rec0 0x0E02 0x04 0 u.toNat 0).countRepair) s
        let a2 : State := r.cores.foldl (fun (s : State) k => s.coreFails k.val) a1
        let a3 : State := r.parts.foldl (fun (s : State) k => s.fenceCluster k.val 2) a2
        let s1 : State := r.ways.foldl (fun (s : State) w => s.wayFails (w.1.val, w.2.val)) a3
        let s2 : State := { s1 with boot := { s1.boot with tested := true } }
        let s3 := (s2.setFld Reg.GLB_REPAIR 11 0 s2.boot.fence).setFld Reg.GLB_REPAIR 15 12 s2.boot.ways.length
        (now → exec (.onchipTestComplete r) s = .next
          (if r.fatal = true then s3.startStops 3 6
           else if (List.range 4).any (fun l => decide (3 ≤ (s2.boot.ways.filter (fun w => w.1 == l)).length)) = true then s3.startStops 3 7
           else if s2.boot.fence % 4096 = 4095 then s3.startStops 3 9 else s3.bootCommit))
        ∧ (¬now → exec (.onchipTestComplete r) s = .next s))
    ∧ (∀ k, s.coreFails k = (if bit s.boot.fence k = true then s
        else if k ∈ s.boot.spares ∨ Config.spareUsed k = true then s.fenceCluster k 1
        else ({ s with boot := { s.boot with spares := k :: s.boot.spares } }).countSat Reg.GLB_REPAIR 23 16 1))
    ∧ (∀ k cause, bit s.boot.fence k = false → s.fenceCluster k cause = ({ s with boot := { s.boot with
        fence := s.boot.fence + 2 ^ k, parts := if cause = 2 then s.boot.parts + 2 ^ k else s.boot.parts } }).rec0 0x0E03 (0x10 + k) 1 k cause)
    ∧ (let bad := s.badDigest s.boot.slot (fun x => knownType x.type && x.type != 0x30);
        (s.starting = false ∨ s.boot.loaded = true → exec .bootPartLoaded s = .next s)
        ∧ (s.starting = true → s.boot.loaded = false → (∀ x, bad = some x → exec .bootPartLoaded s = .next (s.slotFails x))
          ∧ (bad = none →
            let s1 := { s with boot := { s.boot with config := [], edid := [], ccMem := [] } }
            let s2 := s1.boot.sections.foldl (fun s x => s.takeSection x) s1;
            exec .bootPartLoaded s = .next ({ s2 with boot := { s2.boot with loaded := true } }.bootCommit))))
    ∧ (let all := s.starting = true ∧ s.boot.trained = true ∧ s.boot.tested = true ∧ s.boot.loaded = true ∧ (s.boot.selftest = true ∨ s.param 0x0004 0 = 1)
        let s1 := (((s.setFld Reg.GLB_FWRES 4 0 (s.param 0x0002 4)).applyConfig true noSink).bootMap).bootLock
        let s2 := s1.boot.failing.foldl (fun (s : State) a => s.failingLine a) s1
        (¬all → s.bootCommit = s)
        ∧ (all → s.bootCommit = if s2.fld Reg.GLB_BOOT 1 0 = 0 then s2.bootRuns else s2)
        ∧ (all → s.boot.config = [] → s.boot.failing = [] → s.bootCommit.booted = true))
    ∧ (∀ k, let bad := s.badDigest s.boot.slot (fun x => x.type == 0x30)
        let now := s.uncRuns = true ∧ s.flag Reg.GLB_BOOT 6 = false ∧ s.boot.kind ≠ 2
        (¬now → exec (.dataSectionsLoaded k) s = .next s)
        ∧ (∀ x, now → bad = some x → exec (.dataSectionsLoaded k) s = .next (s.slotFails x))
        ∧ (now → bad = none → exec (.dataSectionsLoaded k) s = .next
          (((s.boot.sections.filter (fun x => x.type == 0x30)).foldl (fun s x => s.takeData x) s).configured k)))

/-- With UNC on, WARM_RESET, GLB_RST with GO and its key, SYSRST_N and the timer of a fatal record all start a warm reset, which
keeps the time base, one-time storage, the flash outside a cut operation and a fatal record, and leaves no context, queue, slot,
flow, copy or host read; with UNC off, without the key or before the timer has run out they change nothing. POR_N low, and the
loss of VSTBY without enough VBAK, is a power-on reset: one-time storage and the flash stay, everything else is as after power-on.
With enough VBAK a handover is counted with record 0x0F03, a return with 0x0F04. A main supply lost outside a power-state change
isolates the Hearth with 0x0F05; its return runs a warm start. (R511, R512, R515, R544, R545, R563, R564, R591) -/
def Obligations.ResetsAndSupplies : Prop :=
∀ (s : State),
    (s.uncOn = true → exec .warmReset s = .next s.warmReset ∧ exec .sysrst s = .next s.warmReset
      ∧ (∀ v : Word, bit v.toNat 0 = true → bits v.toNat 31 16 = 0x57A7 → exec (.glbRst v) s = .next s.warmReset)
      ∧ (∀ t0, s.err.fatalAt = some t0 → exec .fatalResetTimer s = .next (if s.time < t0 then s else s.warmReset)))
    ∧ (∀ v : Word, bit v.toNat 0 = false ∨ bits v.toNat 31 16 ≠ 0x57A7 → exec (.glbRst v) s = .next s)
    ∧ (s.uncOn = false → exec .warmReset s = .next s ∧ exec .sysrst s = .next s ∧ exec .fatalResetTimer s = .next s
      ∧ ∀ v, exec (.glbRst v) s = .next s)
    ∧ (s.err.fatalAt = none → exec .fatalResetTimer s = .next s)
    ∧ (let t := s.warmReset
      t.time = s.time ∧ t.dbg.otp = s.dbg.otp ∧ t.pending = s.pending ∧ t.ctxs = [] ∧ t.queues = [] ∧ t.slots = [] ∧ t.flow = none
        ∧ t.sched.copies = [] ∧ t.hif.reads = [] ∧ t.hif.inboxFull = false ∧ t.hif.outboxFull = false ∧ t.dram.bytes = [] ∧ t.l2.dirty = []
        ∧ t.hif.bar0 = s.hif.bar0 ∧ t.hif.bar2 = s.hif.bar2
        ∧ (s.err.held = [] → ∀ k, k < 8 → t.reg (Reg.ERR_FATAL k) = s.reg (Reg.ERR_FATAL k))
        ∧ (s.boot.flashOp = none → t.boot.flash = s.boot.flash))
    ∧ (exec .porNLow s = .next s.powerOn ∧ s.powerOn.dbg.otp = s.dbg.otp ∧ (s.boot.flashOp = none → s.powerOn.boot.flash = s.boot.flash)
      ∧ s.powerOn.time = 0 ∧ s.powerOn.uncOn = false ∧ s.powerOn.ctxs = [] ∧ s.powerOn.queues = [] ∧ s.powerOn.pwr = State.reset.pwr
      ∧ ∀ a, s.powerOn.reg a = regReset a)
    ∧ (∀ mv : BitVec 16, s.flag Reg.PWR_STATUS 18 = false →
        exec (.supplyReturn mv) s = .next s
        ∧ (mv.toNat < s.fld Reg.PWR_VBAK 31 16 → exec (.supplyHandover mv) s = .next (s.vbakIs mv.toNat).powerOn ∧ exec (.vbakLow mv) s = .next (s.vbakIs mv.toNat))
        ∧ (s.fld Reg.PWR_VBAK 31 16 ≤ mv.toNat →
          (let s1 := (s.vbakIs mv.toNat).setFlag Reg.PWR_STATUS 18
            let s2 := if s1.fld Reg.PWR_STATUS 1 0 = 3 then s1.setFlag Reg.PWR_STATUS 28 else s1
            exec (.supplyHandover mv) s = .next ((s2.countSat Reg.PWR_SUPPLY 15 0 1).rec0 0x0F03 0x00 1 mv.toNat 0))))
    ∧ (∀ mv : BitVec 16, s.flag Reg.PWR_STATUS 18 = true →
        exec (.supplyHandover mv) s = .next s
        ∧ exec (.supplyReturn mv) s = .next (((s.clearFlag Reg.PWR_STATUS 18).countSat Reg.PWR_SUPPLY 31 16 1).rec0 0x0F04 0x00 0 mv.toNat 0)
        ∧ (mv.toNat < s.fld Reg.PWR_VBAK 31 16 → exec (.vbakLow mv) s = .next s.powerOn))
    ∧ (∀ mv : BitVec 16, s.fld Reg.PWR_VBAK 31 16 ≤ mv.toNat → exec (.vbakLow mv) s = .next s)
    ∧ (∀ (d : Fin 2) (rail : BitVec 32), exec (.mainSupplyLoss d rail) s = .next (if s.uncOn = true ∧ s.pwrChanging = false
        then ({ s with uncOn := false, dispOn := false, cluOn := false, pwr := { s.pwr with mainLost := true } }).rec0 0x0F05 0x01 1 (d.val + 1) rail.toNat
        else s))
    ∧ (let s1 := { s with uncOn := true, pwr := { s.pwr with mainLost := false }, hif := { s.hif with unsent := [] } };
        exec .mainSupplyReturn s = .next (if s.pwr.mainLost = true then ((s1.clearFlag Reg.HIF_STATUS 0).configReset).warmReset else s))

/-- Idle for A1_IDLE with A1_AUTO, the S840 enters A1 and the scrub pauses. A host request waits for L2 and is checked on entry into
it: refused with its code and refuser counted, or entry begins; with no L2 within 1 s of GO it is refused with 0x74; CANCEL withdraws
it. A request made while another is under way is checked at once: one whose target is not 2 or 3, or that is made in S1 or S3, is
refused with 0x70, then one under way with 0x71, on VBAK with 0x72, by PWR_CTRL with 0x73, without L2 with 0x74. Each completed step
of an entry evaluates its abort point: a latched wake abandons the entry with its records; the sixth step commits; after the rails
have changed the entry ends in the target state, a wake after the commit beginning the exit. A wake in S1 or S3 begins an exit, whose
steps follow the ready signals to A0, or to a warm start where the DRAM contents are lost; one not ready in 50 ms fails with record
0x0F02. (R526, R527, R528, R529, R530, R531, R532, R533, R534, R539, R595) -/
def Obligations.PowerStates : Prop :=
∀ (s : State),
    (exec .a1Entry s = .next (if s.flag Reg.PWR_CTRL 0 = true ∧ s.fld Reg.PWR_STATUS 1 0 = 0 ∧ s.uncRuns = true ∧ s.pwr.entry = none ∧ s.pwr.exit = none
        ∧ s.a1Quiet = true ∧ s.fld Reg.PWR_CTRL 15 8 * 1000 ≤ s.pwr.idle then (s.setFld Reg.PWR_STATUS 1 0 1).setFlag Reg.DMC_STATUS 2 else s))
    ∧ (∀ v : Word,
        let g := bits v.toNat 2 1
        let s1 := s.setFld Reg.PWR_REQ 2 1 g
        let s2 := if bit v.toNat 3 = true ∧ s.pwr.pend.isSome = true then ({ s1 with pwr := { s1.pwr with pend := none } }).setPhase 0 else s1
        let s3 := ({ s2 with pwr := { s2.pwr with pend := some (g, s.time) } }).setPhase 1
        (s.uncRuns = false ∨ bit v.toNat 0 = false → exec (.powerRequest v) s = .next s)
        ∧ (s.uncRuns = false ∨ bit v.toNat 0 = true ∨ bit v.toNat 3 = false → exec (.powerRequestCancel v) s = .next s)
        ∧ (s.uncRuns = true → bit v.toNat 0 = false → bit v.toNat 3 = true → exec (.powerRequestCancel v) s = .next s2)
        ∧ (s.uncRuns = true → bit v.toNat 0 = true → exec (.powerRequest v) s = .next
            (if s2.pwr.pend.isSome = true ∨ s.pwr.entry.isSome = true ∨ s.pwr.exit.isSome = true then (s2.pwrCheck 0x40 g).2
             else if s.hif.linkL2 = true ∧ s.sched.quench = none then s3.pwrPending else s3)))
    ∧ (∀ by_ g : Nat,
        (∀ code unit, s.pwrCode g = some (code, unit) → s.pwrCheck by_ g = (code,
          ((((s.setFld Reg.PWR_STATUS 15 8 code).setFlag Reg.PWR_STATUS 5).countSat Reg.PWR_REFUSE 15 0 1).setFld Reg.PWR_REFUSE 23 16 unit).setFld
            Reg.PWR_REFUSE 31 24 code))
        ∧ (s.pwrCode g = none → s.pwrCheck by_ g = (0, { (s.setFld Reg.PWR_STATUS 15 8 0).setPhase 3 with
            pwr := { s.pwr with entry := some ⟨g, by_, 0, [], false, none⟩ } }))
        ∧ ((g ≠ 2 ∧ g ≠ 3) ∨ 2 ≤ s.fld Reg.PWR_STATUS 1 0 → s.pwrCode g = some (0x70, 0x01))
        ∧ (g = 2 ∨ g = 3 → s.fld Reg.PWR_STATUS 1 0 < 2 →
          let way := s.pwr.entry.isSome = true ∨ s.pwr.exit.isSome = true ∨ s.pwr.pend.isSome = true
          (way → s.pwrCode g = some (0x71, 0x01))
          ∧ (¬way → s.flag Reg.PWR_STATUS 18 = true → s.pwrCode g = some (0x72, 0x00))
          ∧ (¬way → s.flag Reg.PWR_STATUS 18 = false → s.flag Reg.PWR_CTRL 1 = true → s.pwrCode g = some (0x73, 0x41))
          ∧ (¬way → s.flag Reg.PWR_STATUS 18 = false → s.flag Reg.PWR_CTRL 1 = false → s.hif.linkL2 = false → s.pwrCode g = some (0x74, 0x40))))
    ∧ (s.pwr.pend = none → s.pwrPending = s ∧ exec .powerLinkTimeout s = .next s)
    ∧ (∀ g t0, s.pwr.pend = some (g, t0) →
        let s1 := ({ s with pwr := { s.pwr with pend := none } }).setPhase 0
        s.pwrPending = (s1.pwrCheck 0x40 g).2
        ∧ exec .powerLinkTimeout s = .next (if s.hif.linkL2 = true ∨ s.time < t0 + us 1000000 then s else s1.pwrRefuse 0x74 0x40))
    ∧ (let l2 := { s.clearFlag Reg.HIF_STATUS 0 with hif := { s.hif with linkL2 := true } };
        exec .linkL2Entry s = .next (if s.uncOn = true ∧ s.flag Reg.HIF_STATUS 0 = true
          then (if s.sched.quench = none then l2.pwrPending else l2) else s))
    ∧ (s.pwr.entry = none → exec .entryStepComplete s = .next s)
    ∧ (∀ e, s.pwr.entry = some e →
        let n := e.step + 1
        let w := s.entryWork e n
        let s1 := { w with pwr := { w.pwr with entry := some { e with step := n } } }
        (e.committed = true → exec .entryStepComplete s = .next (if s.railsBusy .entry = true ∨ s.railsBusy .undo = true then s else s.entryDone e))
        ∧ (e.committed = false → s.railsBusy .undo = true → exec .entryStepComplete s = .next s)
        ∧ (e.committed = false → s.railsBusy .undo = false → (∀ src t l, e.latched = (src, t) :: l → exec .entryStepComplete s = .next (s1.entryAbort n src t))
          ∧ (e.latched = [] → n < 6 → exec .entryStepComplete s = .next s1)
          ∧ (e.latched = [] → 6 ≤ n →
            let s2 := if e.target = 3 then s1.clearFlag Reg.PWR_STATUS 28 else s1
            exec .entryStepComplete s = .next (({ s2 with pwr := { s2.pwr with entry := some { e with step := n, committed := true } } }).railsDown e.target)))
        ∧ (n ≠ 3 → n ≠ 4 → n ≠ 5 → w = s) ∧ (n = 3 → w = if e.target = 3 then s.l2Do 2 0 0 else s)
        ∧ (n = 4 → w = if e.target = 3 then { s with pwr := { s.pwr with saved := s.s3Save } } else s)
        ∧ (n = 5 → w = { s with dram := { s.dram with selfRefresh := true } })
        ∧ (let d := (s.setFld Reg.PWR_STATUS 1 0 e.target).setPhase 0
          let lost := d.pinsFall e.target
          let d1 := if lost = true then d.setFlag Reg.PWR_STATUS 28 else d
          let d2 := { d1 with uncOn := false, dispOn := false, cluOn := false, timeFrac := 0, dbg := { d1.dbg with scope := 0, challenge := none, halted := [] }, pwr := { d1.pwr with entry := none, pinsLost := lost } }
          (e.woke = none → s.entryDone e = d2) ∧ (∀ src t, e.woke = some (src, t) → s.entryDone e = (d2.setFlag Reg.PWR_STATUS 7).exitBegin src t)))
    ∧ (∀ pt src t0,
        let a := ((({ s with dram := { s.dram with selfRefresh := false }, pwr := { s.pwr with entry := none, saved := [] } }).setPhase 0).setFlag
          Reg.PWR_STATUS 6).countSat Reg.PWR_ABORT 15 0 1
        let a1 := ((a.setFld Reg.PWR_ABORT 18 16 pt).setFld Reg.PWR_ABORT 27 24 src).wakeRecord src t0
        let a2 := if src ≠ 1 ∧ s.flag Reg.HIF_CTRL 0 = true then { a1 with hif := { a1.hif with wakeN := false } } else a1
        s.entryAbort pt src t0 = (a2.kwsPump).audioPump
          ∧ a1.pwr.entry = none ∧ a1.dram.selfRefresh = false ∧ a1.fld Reg.PWR_STATUS 4 2 = 0 ∧ a1.flag Reg.PWR_STATUS 6 = true
          ∧ a1.fld Reg.PWR_ABORT 18 16 = pt % 8 ∧ a1.fld Reg.PWR_ABORT 27 24 = src % 16 ∧ a1.fld Reg.PWR_WAKE 11 8 = src % 16)
    ∧ (∀ src t0, s.exitBegin src t0 = ({ (s.wakeRecord src t0).setPhase 4 with
          pwr := { s.pwr with exit := some ⟨src, s.fld Reg.PWR_STATUS 1 0, 0, t0⟩ } }).railsUp .exit)
    ∧ (∀ src : Fin 6, exec (.wakeEvent src) s = .next (s.wake src.val)
        ∧ (src.val = 0 ∨ (3 ≤ src.val ∧ s.flag Reg.PWR_WAKE src.val = false) → s.wake src.val = s)
        ∧ (src.val = 1 ∨ src.val = 2 ∨ (3 ≤ src.val ∧ s.flag Reg.PWR_WAKE src.val = true) →
            (∀ e, s.pwr.entry = some e → s.wake src.val = { s with pwr := { s.pwr with entry := some (if e.committed = true
              then { e with woke := some (e.woke.getD (src.val, s.time)) } else { e with latched := e.latched ++ [(src.val, s.time)] }) } })
            ∧ (s.pwr.entry = none → s.wake src.val = if 2 ≤ s.fld Reg.PWR_STATUS 1 0 ∧ s.pwr.exit = none ∧ s.pwr.tripped = false ∧ s.pwr.mainLost = false
                then s.exitBegin src.val s.time else s)))
    ∧ (exec .perstDeassert s = .next (if s.hif.linkL2 = true then s.wake 1 else s))
    ∧ (let a := s.reg64 Reg.PWR_ALARM_LO;
        exec .alarmExpire s = .next (if s.pwr.alarmSet = true ∧ a ≠ 0 ∧ a ≤ s.time then ({ s with pwr := { s.pwr with alarmSet := false } }).wake 4 else s))
    ∧ (s.pwr.exit = none → (∀ k, exec (.exitStepReady k) s = .next s) ∧ ∀ rail, exec (.exitTimeout rail) s = .next s)
    ∧ (∀ x k, s.pwr.exit = some x →
        let at_ (s : State) (n : Nat) : State := { s with pwr := { s.pwr with exit := some { x with step := n } } }
        (x.step = 0 → exec (.exitStepReady k) s = .next (if s.railsBusy .exit = true then s else at_ s 1))
        ∧ (x.step = 1 → exec (.exitStepReady k) s = .next (at_ s 2))
        ∧ (x.step = 2 → exec (.exitStepReady k) s = .next (at_ { s with dram := { s.dram with selfRefresh := false } } 3))
        ∧ (x.step = 3 → exec (.exitStepReady k) s = .next
            (if s.pwr.pinsLost = true ∨ (x.target = 3 ∧ s.flag Reg.PWR_STATUS 28 = true) then s.lostExit x
             else if x.target = 3 then at_ s.s3Release 4
             else at_ ({ s with uncOn := true, dispOn := true, cluOn := true }).collectHeld 4))
        ∧ (4 ≤ x.step → exec (.exitStepReady k) s = .next
            (if x.target = 3 then (s.s3Start s.pwr.saved k).exitDone x (bit (Sparse.get s.pwr.saved 0 Reg.HIF_CTRL).toNat 0)
             else s.exitDone x (s.flag Reg.HIF_CTRL 0)))
        ∧ (∀ rail, exec (.exitTimeout rail) s = .next (if s.time < x.since + us 50000 then s
            else (((({ s with pwr := { s.pwr with exit := none, reqs := s.pwr.reqs.filter (fun r => r.why ≠ RailWhy.exit) } }).setPhase 0).startStops
              3 4).rec0 0x0F02 0x01 3 (x.step + 1) rail.toNat))))

/-- An acknowledged PMBus request leaves and the next is sent, an operating point or the undoing of an entry going on from there; an
unanswered one is repeated once after ACK_MS, and one that fails then ends: an entry is abandoned with record 0x0F01 once the changed
rails are back, an exit asks again. A rail's fault is recorded with 0x0F06 and cleared; a lost rail outside a change is a lost supply.
While the spotter runs every sampled frame enters the ring, and the third score in a row at THRESH is a detection and a wake. An
estimate enters the window and lowers or restores the operating point as its mean asks; a reading of 110 or more removes the supplies
with record 0x0F09, which return with a warm start once every reading has been 90 or less for 1 s. With UNC on a record of a listed
unit takes the next SEQ and, with room, the next ring entry; a read pointer that moves forward to at most WPTR is accepted and any
other sets RPTR_ERR. (R535, R537, R538, R541, R547, R549, R550, R555, R557, R559, R560) -/
def Obligations.SensorsAndErrors : Prop :=
∀ (s : State),
    (s.pwr.reqs = [] → ∀ word mv ok, exec (.pmbusAckPoll word mv ok) s = .next s)
    ∧ (∀ r rest (word : BitVec 16) mv ok, s.pwr.reqs = r :: rest →
        let acked := ok && railAck r.mv word.toNat mv
        let a := ({ s with pwr := { s.pwr with
          reqs := rest, rails := s.pwr.rails.map (fun (x : Rail) => if x.n = r.rail then { x with mv := r.mv } else x) } }).railSend
        let gone := { s with pwr := { s.pwr with reqs := rest } }
        (acked = true →
          (r.why = .entry ∨ r.why = .exit → exec (.pmbusAckPoll word mv ok) s = .next a)
          ∧ (r.why = .sop → exec (.pmbusAckPoll word mv ok) s = .next a.sopUpdate)
          ∧ (r.why = .undo → exec (.pmbusAckPoll word mv ok) s = .next
              (if a.railsBusy .undo = false ∧ s.pwr.entry.isSome = true then a.entryAbort 6 6 s.time else a)))
        ∧ (acked = false → r.sent = none → exec (.pmbusAckPoll word mv ok) s = .next s)
        ∧ (∀ t0, acked = false → r.sent = some t0 →
          (s.time < t0 + s.ackTicks → exec (.pmbusAckPoll word mv ok) s = .next s)
          ∧ (t0 + s.ackTicks ≤ s.time → r.repeated = false →
            exec (.pmbusAckPoll word mv ok) s = .next { s.emit (.pmbus r.rail r.mv) with pwr := { s.pwr with
              reqs := { r with sent := some s.time, repeated := true } :: rest } })
          ∧ (t0 + s.ackTicks ≤ s.time → r.repeated = true →
            (∀ e, r.why = .entry → s.pwr.entry = some e →
              let u := (({ s with pwr := { s.pwr with reqs := [] } }).rec0 0x0F01 0x01 1 r.rail e.target).railsUp .undo
              exec (.pmbusAckPoll word mv ok) s = .next (if u.railsBusy .undo = true then u else u.entryAbort 6 6 u.time))
            ∧ (r.why = .undo → s.pwr.entry.isSome = true → exec (.pmbusAckPoll word mv ok) s = .next
              (if gone.railsBusy .undo = true then gone else gone.entryAbort 6 6 s.time))
            ∧ (r.why = .exit → exec (.pmbusAckPoll word mv ok) s = .next s)
            ∧ (r.why = .sop ∨ (s.pwr.entry = none ∧ r.why ≠ .exit) → exec (.pmbusAckPoll word mv ok) s = .next gone.railSend))))
    ∧ (∀ words : List (Fin 8 × BitVec 16), exec (.pmbusAlert words) s = .next (s.pwr.rails.foldl (fun (u : State) r =>
        match words.find? (fun w => w.1.val == r.n) with
        | none => u
        | some w => if (if r.mv = 0 then w.2.toNat &&& 0xF7BF = 0 else w.2.toNat = 0) then u
          else
            let t := (u.rec0 0x0F06 0x01 1 r.n w.2.toNat).emit (.pmbusClear r.n)
            if bit w.2.toNat 6 = true ∧ 1 ≤ r.role ∧ r.role ≤ 3 ∧ t.pwrChanging = false ∧ t.uncOn = true
            then t.supplyLost (if r.role = 1 then 2 else 1) r.n else t) s))
    ∧ (∀ in0 in1 : BitVec 16, exec (.audioFrameSampled in0 in1) s = .next (if s.kwsOn = true then ({ s with pwr := { s.pwr with
        audio := Sparse.set s.pwr.audio 0 (s.pwr.frames % 40000) (in1 ++ in0), frames := s.pwr.frames + 1 } }).audioPump else s))
    ∧ (∀ (score : BitVec 8) phrase,
        let k := { s with pwr := { s.pwr with kwsEn := s.flag Reg.PWR_KWS_CTRL 0 } }
        (k.kwsOn = false ∨ s.time < s.pwr.kwsQuiet → exec (.kwsEvaluation score phrase) s = .next k)
        ∧ (k.kwsOn = true → s.pwr.kwsQuiet ≤ s.time →
          (score.toNat < s.fld Reg.PWR_KWS_CTRL 15 8 → exec (.kwsEvaluation score phrase) s = .next { k with pwr := { k.pwr with kwsRun := 0 } })
          ∧ (s.fld Reg.PWR_KWS_CTRL 15 8 ≤ score.toNat → s.pwr.kwsRun < 2 →
            exec (.kwsEvaluation score phrase) s = .next { k with pwr := { k.pwr with kwsRun := s.pwr.kwsRun + 1 } })
          ∧ (s.fld Reg.PWR_KWS_CTRL 15 8 ≤ score.toNat → 2 ≤ s.pwr.kwsRun → exec (.kwsEvaluation score phrase) s = .next
            (({ k with pwr := { k.pwr with kwsRun := 0, kwsQuiet := s.time + us 1000000, kwsHeld := s.pwr.kwsHeld ++
              [(⟨score.toNat, s.time - max (us 200000) (min (us 1500000) phrase), s.time⟩ : Detection)] } }).wake 3).kwsPump)))
    ∧ (∀ mw board : BitVec 16,
        let e := s.pwr.energyRem + board.toNat
        let s1 := (s.setFld Reg.PWR_POWER 15 0 board.toNat).count64 Reg.PWR_ENERGY_LO (e / 10)
        let l := (mw.toNat :: s.pwr.samples).take (10 * s.fld Reg.PWR_LIMIT 15 8)
        let limit := s.fld Reg.PWR_LIMIT 5 0 * 1000
        let s2 := { s1 with pwr := { s1.pwr with energyRem := e % 10, samples := l } }
        let s3 := { s2 with pwr := { s2.pwr with missed := s2.pwr.missed && decide (limit * l.length ≤ l.sum) } }
        (s.uncRuns = false → exec (.powerEstimate mw board) s = .next s)
        ∧ (s.uncRuns = true → exec (.powerEstimate mw board) s = .next (if limit * l.length < l.sum then s3.powerLower (l.sum / l.length)
          else if l.sum < (limit - 1000) * l.length then s3.powerRestore else { s3 with pwr := { s3.pwr with belowSince := none } })))
    ∧ (∀ l : List (BitVec 8), let x := hotSensor 0 (l.map BitVec.toInt)
        let s1 := (s.setFld Reg.PWR_POWER 23 16 (wrapInt 8 x.1)).setFld Reg.PWR_POWER 26 24 x.2
        let cool (o : Option Nat) : State := { s1 with pwr := { s1.pwr with tripCool := o } }
        (s.pwr.tripped = false → exec (.thermalSample l) s = .next (if s.uncOn = false then s1 else if 110 ≤ x.1 then
          ({ s1.setPhase 0 with uncOn := false, dispOn := false, cluOn := false, pwr := { s1.pwr with
            tripped := true, tripCool := none, entry := none, pend := none, reqs := [] } }).rec0 0x0F09 0x01 3 x.2 x.1.toNat
          else s1.thermCaps x.1 x.2))
        ∧ (s.pwr.tripped = true → (90 < x.1 → exec (.thermalSample l) s = .next (cool none))
          ∧ (x.1 ≤ 90 → s.pwr.tripCool = none → exec (.thermalSample l) s = .next (cool (some s.time)))
          ∧ (∀ t0, x.1 ≤ 90 → s.pwr.tripCool = some t0 → exec (.thermalSample l) s = .next (if s.time < t0 + us 1000000 then s1
            else ({ s1 with uncOn := true, pwr := { s1.pwr with tripped := false, tripCool := none } }).warmReset))))
    ∧ (∀ r : ErrRecord,
        let t := (s.record r).recordFollows r
        exec (.errorRecord r) s = .next (if unitListed r.unit = true then t else s)
          ∧ (s.uncOn = true → unitListed r.unit = true → r.code ≠ 0x0202 → r.code ≠ 0x0204 → t.reg Reg.ERR_SEQ = s.reg Reg.ERR_SEQ + 1#32
            ∧ (let w := (s.reg Reg.ERR_RING_WPTR).toNat
              s.ringRoom = true → s.err.dropCount = 0 → t.reg Reg.ERR_RING_WPTR = s.reg Reg.ERR_RING_WPTR + 1#32
                ∧ ∀ i, i < 8 → t.reg (Reg.ERR_REC (w % 32 * 8 + i)) = (recordWords r (s.reg Reg.ERR_SEQ).toNat s.time).getD i 0)))
    ∧ (∀ v : Word, let old := (s.reg Reg.ERR_RING_RPTR).toNat
        exec (.errRptrWrite v) s = .next (if s.uncOn = false then s else if diff32 v.toNat old ≤ diff32 (s.reg Reg.ERR_RING_WPTR).toNat old
          then (s.setReg Reg.ERR_RING_RPTR v).reportDrops else s.setFlag Reg.ERR_STATUS 3))

/-- A path that reaches the DBG block is issued a challenge for a scope while none of debug-disabled, locked out or an open
session holds. A right answer to a valid challenge opens the session with record 0x1006; a wrong one, or none to answer, counts with
0x1005 and locks out at the third. A challenge expires 10 s after its issue. A path that does not reach the block changes nothing.
In an OTP session a word that exists is read, or has the ones of DBG_OTP_DATA added to it; any other command, and one on a KEY_HASH
already programmed, sets the refusal bit. The boundary instructions exchange levels of the pins, IDCODE gives the code, BYPASS a bit
of 0, DBGREG reads or writes a DBG register; a core is halted, released, stepped and accessed in an open CORE session alone, its
registers and memory while it is halted (a register or byte that nothing has loaded is free, the model's, DESIGN CHOICE, log entry
100). (R573, R574, R575, R576, R577, R578, R581) -/
def Obligations.DebugPort : Prop :=
∀ (s : State),
    (∀ (p : Path) (v : Word), s.dbgReached p = false ∨ bit v.toNat 31 = false → exec (.debugChallenge p v) s = .next s)
    ∧ (∀ p : Path, s.dbgReached p = false → exec (.debugOpen p) s = .next s ∧ exec (.debugClose p) s = .next s)
    ∧ (∀ (p : Path) (v : Word), s.dbgReached p = true → bit v.toNat 31 = true →
        let s1 := s.setFld Reg.DBG_REQ 1 0 (bits v.toNat 1 0)
        exec (.debugChallenge p v) s = .next (if bits v.toNat 1 0 ∈ [1, 2] ∧ s.debugDis = false ∧ s.dbg.lockedOut = false ∧ s.dbg.scope = 0
          then { s1 with
            draws := s.draws + 1,
            dbg := { s.dbg with challenge := some (Config.entropy s.draws % 2 ^ 256), chalReq := v.toNat, chalAt := s.time } }
          else s1))
    ∧ (∀ p : Path, s.dbgReached p = true →
        let s1 := { s with dbg := { s.dbg with challenge := none, fails := s.dbg.fails + 1, lockedOut := decide (2 ≤ s.dbg.fails) } }
        let failed := (if 2 ≤ s.dbg.fails then s1.dbgClose else s1).rec0 0x1005 0x04 1 (s.dbg.fails + 1) (dbgPort p)
        exec (.debugClose p) s = .next { s with dbg := { s.dbg with scope := 0, halted := [] } }
        ∧ (s.debugDis = true ∨ s.dbg.lockedOut = true → exec (.debugOpen p) s = .next s)
        ∧ (s.debugDis = false → s.dbg.lockedOut = false →
          (s.dbg.challenge = none → exec (.debugOpen p) s = .next failed)
          ∧ ∀ c, s.dbg.challenge = some c →
            (s.dbg.chalAt + challengeTicks ≤ s.time → exec (.debugOpen p) s = .next failed)
            ∧ (s.time < s.dbg.chalAt + challengeTicks →
              (Config.debugMac c s.dbg.chalReq % 2 ^ 256 = s.dbgResponse → exec (.debugOpen p) s = .next
                (({ s with dbg := { s.dbg with challenge := none, fails := 0, scope := s.dbg.chalReq % 4, coreOpened := s.dbg.coreOpened || s.dbg.chalReq % 4 == 1 } }).rec0
                  0x1006 0x04 1 (s.dbg.chalReq % 4) (dbgPort p)))
              ∧ (Config.debugMac c s.dbg.chalReq % 2 ^ 256 ≠ s.dbgResponse → exec (.debugOpen p) s = .next failed))))
    ∧ (exec .challengeExpire s = .next (if s.challenge = none then { s with dbg := { s.dbg with challenge := none } } else s)
        ∧ (s.dbg.chalAt + challengeTicks ≤ s.time → s.challenge = none)
        ∧ (s.time < s.dbg.chalAt + challengeTicks → s.challenge = s.dbg.challenge))
    ∧ (∀ v : Word,
        let f := bits v.toNat 11 8
        let w := bits v.toNat 14 12
        let s1 := s.setReg Reg.DBG_OTP_CMD (v &&& 0x7F02#32)
        let i : Instr := if bit v.toNat 1 = true then .otpRead v else .otpProgram v
        (s.uncRuns = false ∨ bit v.toNat 0 = false ∨ bit v.toNat 1 = true → exec (.otpProgram v) s = .next s)
        ∧ (s.uncRuns = false ∨ bit v.toNat 0 = false ∨ bit v.toNat 1 = false → exec (.otpRead v) s = .next s)
        ∧ (s.uncRuns = true → bit v.toNat 0 = true →
          let bad := s.dbg.scope ≠ 2 ∨ otpMask f w = 0 ∨ (bit v.toNat 1 = false ∧ 1 ≤ f ∧ f ≤ 4 ∧ s.otpField f 8 ≠ 0)
          (bad → exec i s = .next (s1.setFlag Reg.DBG_STATUS 13))
          ∧ (¬bad → bit v.toNat 1 = true → exec (.otpRead v) s = .next
              ((s1.clearFlag Reg.DBG_STATUS 13).setReg Reg.DBG_OTP_DATA (BitVec.ofNat 32 (s.otpWord f w))))
          ∧ (¬bad → bit v.toNat 1 = false →
              let o := Sparse.get s.dbg.otp 0 (f * 8 + w) ||| (s.reg Reg.DBG_OTP_DATA &&& BitVec.ofNat 32 (otpMask f w))
              let t := { s1.clearFlag Reg.DBG_STATUS 13 with dbg := { s.dbg with otp := Sparse.set s.dbg.otp 0 (f * 8 + w) o } }
              exec (.otpProgram v) s = .next t ∧ Sparse.get t.dbg.otp 0 (f * 8 + w) = o
                ∧ ∀ n, n ≠ f * 8 + w → Sparse.get t.dbg.otp 0 n = Sparse.get s.dbg.otp 0 n)))
    ∧ (let ir (n : Nat) : State := { s with dbg := { s.dbg with ir := n } };
        (∀ pins pre, exec (.extest pins) s = .next ({ (ir 0x00).emit (.jtag s.dbg.boundary) with dbg := { (ir 0x00).dbg with boundary := pins } })
          ∧ exec (.samplePreload pins pre) s = .next ({ (ir 0x02).emit (.jtag pins) with dbg := { (ir 0x02).dbg with boundary := pre } }))
        ∧ exec .idcode s = .next ((ir 0x01).emit (.jtag (2 ^ 28 + 0x0840 * 2 ^ 12 + Config.jedecId % 2 ^ 11 * 2 + 1)))
        ∧ exec .bypass s = .next ((ir 0xFF).emit (.jtag 0))
        ∧ (∀ (off : BitVec 16) v, exec (.dbgreg off true v) s = .next
          (((ir 0x10).regRead .jtag (0x140000 + off.toNat)).2.emit (.jtag ((ir 0x10).regRead .jtag (0x140000 + off.toNat)).1.toNat)))
        ∧ (∀ (off : BitVec 16) v, exec (.dbgreg off false v) s = .next ((ir 0x10).regWrite .jtag (0x140000 + off.toNat) v noSink))
        ∧ (∀ (c : Fin 5) op, s.dbg.scope ≠ 1 → exec (.coreDbg c op) s = .next ((ir 0x11).emit (.jtag 0)))
        ∧ (∀ (c : Fin 5), s.dbg.scope = 1 →
          let j := ir 0x11
          let ran (h : List Nat) : State := { j with dbg := { j.dbg with halted := h, coreRegs := s.dbg.coreRegs.filter (fun p => p.1 / 2 ^ 16 ≠ c.val) } }
          exec (.coreDbg c .release) s = .next ((ran (s.dbg.halted.filter (fun x => x ≠ c.val))).emit (.jtag 0))
          ∧ (c.val ∉ s.dbg.halted → exec (.coreDbg c .halt) s = .next (({ j with dbg := { j.dbg with halted := c.val :: s.dbg.halted } }).emit (.jtag 0))
            ∧ ∀ op, op ≠ .halt → op ≠ .release → exec (.coreDbg c op) s = .next (j.emit (.jtag 0)))
          ∧ (c.val ∈ s.dbg.halted → exec (.coreDbg c .halt) s = .next (j.emit (.jtag 0))
            ∧ exec (.coreDbg c .step) s = .next ((ran s.dbg.halted).emit (.jtag 0))
            ∧ (∀ n, exec (.coreDbg c (.readReg n)) s = .next (({ j with draws := s.draws + 1 }).emit (.jtag
                (Sparse.get s.dbg.coreRegs (BitVec.ofNat 32 (Config.freeLane s.draws (c.val * 2 ^ 16 + n))) (c.val * 2 ^ 16 + n)).toNat)))
            ∧ (∀ n v, exec (.coreDbg c (.writeReg n v)) s = .next
                (({ j with dbg := { j.dbg with coreRegs := Sparse.put s.dbg.coreRegs (c.val * 2 ^ 16 + n) v } }).emit (.jtag 0)))
            ∧ (∀ a, exec (.coreDbg c (.readMem a)) s = .next (({ j with draws := s.draws + 1 }).emit (.jtag (s.coreByte c.val a.toNat).toNat)))
            ∧ (∀ a b, exec (.coreDbg c (.writeMem a b)) s = .next
                ((if c.val = 4 then { j with pwr := { j.pwr with hearthMem := Sparse.put s.pwr.hearthMem a.toNat b } }
                  else { j with boot := { j.boot with ccMem := Sparse.put s.boot.ccMem (c.val * 2 ^ 19 + a.toNat % 2 ^ 19) b } }).emit (.jtag 0))))))

/-- Every instruction without long-only fields in the short form is the one its word spells, with every field at every value;
and every 128-bit word spells a well-formed instruction whose word it is, whole in the long form and its lower 64 bits in the
short form. No bit of a word is dropped and no two instructions share one. (R52, R53, R54) -/
def Obligations.InsnRoundTrip : Prop :=
(∀ i : Insn, i.wf = true → Insn.ofWord i.word = i)
  ∧ (∀ w : Nat, w < 2 ^ 128 → (Insn.ofWord w).wf = true ∧ (Insn.ofWord w).word = if w % 2 = 1 then w else w % 2 ^ 64)
end

