-- ==== Sys2Proof/Laws/Sparse.lean ====
section
/-! SUPPORT. The laws of sparse maps: a read after a write, and the canonical form kept by every operation. -/

namespace Sys2Proof.Machine

variable {α : Type}

@[simp] theorem Sparse.find_put_self (m : List (Nat × α)) (a : Nat) (w : α) :
    Sparse.find (Sparse.put m a w) a = some w := by
  induction m with
  | nil => simp [Sparse.put, Sparse.find]
  | cons p t ih =>
    obtain ⟨k, v⟩ := p
    unfold Sparse.put
    split
    · simp [Sparse.find]
    · split
      · simp [Sparse.find]
      · rw [Sparse.find, if_neg (by omega)]; exact ih

theorem Sparse.find_put_ne (m : List (Nat × α)) {a b : Nat} (w : α) (h : b ≠ a) :
    Sparse.find (Sparse.put m a w) b = Sparse.find m b := by
  induction m with
  | nil => simp [Sparse.put, Sparse.find, h.symm]
  | cons p t ih =>
    obtain ⟨k, v⟩ := p
    unfold Sparse.put
    split
    · rename_i hk; subst hk; simp [Sparse.find, h.symm]
    · split
      · simp [Sparse.find, h.symm]
      · simp only [Sparse.find]; split
        · rfl
        · exact ih

@[simp] theorem Sparse.find_drop_self (m : List (Nat × α)) (a : Nat) :
    Sparse.find (Sparse.drop m a) a = none := by
  induction m with
  | nil => rfl
  | cons p t ih =>
    obtain ⟨k, v⟩ := p
    by_cases h : k = a
    · simpa [Sparse.drop, h] using ih
    · simpa [Sparse.drop, h, Sparse.find] using ih

theorem Sparse.find_drop_ne (m : List (Nat × α)) {a b : Nat} (h : b ≠ a) :
    Sparse.find (Sparse.drop m a) b = Sparse.find m b := by
  induction m with
  | nil => rfl
  | cons p t ih =>
    obtain ⟨k, v⟩ := p
    by_cases hk : k = a
    · simpa [Sparse.drop, hk, Sparse.find, h.symm] using ih
    · by_cases hb : k = b
      · simp [Sparse.drop, Sparse.find, hb, h]
      · simpa [Sparse.drop, hk, Sparse.find, hb] using ih

/-- A read after a write to the same key gives the value written. -/
@[simp] theorem Sparse.get_set_self [DecidableEq α] (m : List (Nat × α)) (d : α) (a : Nat) (w : α) :
    Sparse.get (Sparse.set m d a w) d a = w := by
  unfold Sparse.set
  split
  · simp [Sparse.get, *]
  · simp [Sparse.get]

/-- A write leaves every other key alone. -/
theorem Sparse.get_set_ne [DecidableEq α] (m : List (Nat × α)) (d d' : α) {a b : Nat} (w : α) (h : b ≠ a) :
    Sparse.get (Sparse.set m d a w) d' b = Sparse.get m d' b := by
  unfold Sparse.set
  split <;> simp [Sparse.get, Sparse.find_drop_ne _ h, Sparse.find_put_ne _ _ h]

/-- Every key of a sorted list is above the head's. -/
theorem Sparse.sorted_lt {k : Nat} {v : α} {t : List (Nat × α)} (h : Sparse.sorted ((k, v) :: t) = true) :
    ∀ p ∈ t, k < p.1 := by
  induction t generalizing k v with
  | nil => simp
  | cons q t ih =>
    obtain ⟨k', v'⟩ := q
    simp only [Sparse.sorted, Bool.and_eq_true, decide_eq_true_eq] at h
    intro p hp
    rcases List.mem_cons.1 hp with rfl | hp
    · exact h.1
    · exact lt_trans h.1 (ih h.2 p hp)

theorem Sparse.sorted_tail {p : Nat × α} {t : List (Nat × α)} (h : Sparse.sorted (p :: t) = true) :
    Sparse.sorted t = true := by
  cases t with
  | nil => rfl
  | cons q t => simp only [Sparse.sorted, Bool.and_eq_true] at h; exact h.2

theorem Sparse.sorted_cons {k : Nat} {v : α} {t : List (Nat × α)} (ht : Sparse.sorted t = true)
    (h : ∀ p ∈ t, k < p.1) : Sparse.sorted ((k, v) :: t) = true := by
  cases t with
  | nil => rfl
  | cons q t =>
    obtain ⟨k', v'⟩ := q
    simp only [Sparse.sorted, Bool.and_eq_true, decide_eq_true_eq]
    exact ⟨h (k', v') (by simp), ht⟩

theorem Sparse.mem_put {m : List (Nat × α)} {a : Nat} {w : α} {p : Nat × α} (h : p ∈ Sparse.put m a w) :
    p = (a, w) ∨ p ∈ m := by
  induction m with
  | nil => simpa [Sparse.put] using h
  | cons q t ih =>
    obtain ⟨k, v⟩ := q
    unfold Sparse.put at h
    split at h
    · rcases List.mem_cons.1 h with rfl | h <;> simp [*]
    · split at h
      · rcases List.mem_cons.1 h with rfl | h <;> simp_all
      · rcases List.mem_cons.1 h with rfl | h
        · simp
        · rcases ih h with rfl | h <;> simp [*]

theorem Sparse.sorted_put {m : List (Nat × α)} (h : Sparse.sorted m = true) (a : Nat) (w : α) :
    Sparse.sorted (Sparse.put m a w) = true := by
  induction m with
  | nil => rfl
  | cons q t ih =>
    obtain ⟨k, v⟩ := q
    have ht := Sparse.sorted_tail h
    have hlt := Sparse.sorted_lt h
    unfold Sparse.put
    split
    · rename_i hk; subst hk; exact Sparse.sorted_cons ht hlt
    · split
      · rename_i hk
        refine Sparse.sorted_cons h ?_
        intro p hp
        rcases List.mem_cons.1 hp with rfl | hp
        · exact hk
        · exact lt_trans hk (hlt p hp)
      · refine Sparse.sorted_cons (ih ht) ?_
        intro p hp
        rcases Sparse.mem_put hp with rfl | hp
        · simp only; omega
        · exact hlt p hp

theorem Sparse.sorted_filter {m : List (Nat × α)} (f : Nat × α → Bool) (h : Sparse.sorted m = true) :
    Sparse.sorted (m.filter f) = true := by
  induction m with
  | nil => rfl
  | cons q t ih =>
    obtain ⟨k, v⟩ := q
    rw [List.filter_cons]
    split
    · refine Sparse.sorted_cons (ih (Sparse.sorted_tail h)) ?_
      intro p hp
      exact Sparse.sorted_lt h p (List.mem_filter.1 hp).1
    · exact ih (Sparse.sorted_tail h)

/-- A write keeps the canonical form. -/
theorem Sparse.canon_set [DecidableEq α] {d : Nat → α} {m : List (Nat × α)} (h : Sparse.canon d m = true)
    (a : Nat) (w : α) : Sparse.canon d (Sparse.set m (d a) a w) = true := by
  simp only [Sparse.canon, Bool.and_eq_true, List.all_eq_true, decide_eq_true_eq] at h ⊢
  unfold Sparse.set
  split
  · refine ⟨Sparse.sorted_filter _ h.1, fun p hp => h.2 p (List.mem_filter.1 hp).1⟩
  · rename_i hw
    refine ⟨Sparse.sorted_put h.1 a w, fun p hp => ?_⟩
    rcases Sparse.mem_put hp with rfl | hp
    · exact hw
    · exact h.2 p hp

/-- Dropping entries keeps the canonical form. -/
theorem Sparse.canon_filter [DecidableEq α] {d : Nat → α} {m : List (Nat × α)} (f : Nat × α → Bool)
    (h : Sparse.canon d m = true) : Sparse.canon d (m.filter f) = true := by
  simp only [Sparse.canon, Bool.and_eq_true, List.all_eq_true, decide_eq_true_eq] at h ⊢
  exact ⟨Sparse.sorted_filter f h.1, fun p hp => h.2 p (List.mem_filter.1 hp).1⟩

/-- Merging keeps strictly rising keys. -/
theorem Sparse.sorted_merge {m : List (Nat × α)} (h : Sparse.sorted m = true) (n : List (Nat × α)) :
    Sparse.sorted (Sparse.merge m n) = true := by
  induction n generalizing m with
  | nil => exact h
  | cons p t ih =>
    obtain ⟨k, v⟩ := p
    exact ih (Sparse.sorted_put h k v)

end Sys2Proof.Machine
end

