-- ==== Sys2Proof/Laws/State.lean ====
section
/-! SUPPORT. What each primitive update of the state leaves alone: one lemma per field and update. -/

namespace Sys2Proof.Machine

/-! ## setReg -/

@[simp] theorem State.setReg_pending (s : State) (a : Nat) (v : Word) : (s.setReg a v).pending = s.pending := rfl
@[simp] theorem State.setReg_draws (s : State) (a : Nat) (v : Word) : (s.setReg a v).draws = s.draws := rfl
@[simp] theorem State.setReg_time (s : State) (a : Nat) (v : Word) : (s.setReg a v).time = s.time := rfl
@[simp] theorem State.setReg_timeFrac (s : State) (a : Nat) (v : Word) : (s.setReg a v).timeFrac = s.timeFrac := rfl
@[simp] theorem State.setReg_active (s : State) (a : Nat) (v : Word) : (s.setReg a v).active = s.active := rfl
@[simp] theorem State.setReg_shadows (s : State) (a : Nat) (v : Word) : (s.setReg a v).shadows = s.shadows := rfl
@[simp] theorem State.setReg_out (s : State) (a : Nat) (v : Word) : (s.setReg a v).out = s.out := rfl
@[simp] theorem State.setReg_uncOn (s : State) (a : Nat) (v : Word) : (s.setReg a v).uncOn = s.uncOn := rfl
@[simp] theorem State.setReg_dispOn (s : State) (a : Nat) (v : Word) : (s.setReg a v).dispOn = s.dispOn := rfl
@[simp] theorem State.setReg_cluOn (s : State) (a : Nat) (v : Word) : (s.setReg a v).cluOn = s.cluOn := rfl
@[simp] theorem State.setReg_err (s : State) (a : Nat) (v : Word) : (s.setReg a v).err = s.err := rfl
@[simp] theorem State.setReg_dbg (s : State) (a : Nat) (v : Word) : (s.setReg a v).dbg = s.dbg := rfl
@[simp] theorem State.setReg_hif (s : State) (a : Nat) (v : Word) : (s.setReg a v).hif = s.hif := rfl
@[simp] theorem State.setReg_dram (s : State) (a : Nat) (v : Word) : (s.setReg a v).dram = s.dram := rfl
@[simp] theorem State.setReg_l2 (s : State) (a : Nat) (v : Word) : (s.setReg a v).l2 = s.l2 := rfl
@[simp] theorem State.setReg_mmu (s : State) (a : Nat) (v : Word) : (s.setReg a v).mmu = s.mmu := rfl
@[simp] theorem State.setReg_ctxs (s : State) (a : Nat) (v : Word) : (s.setReg a v).ctxs = s.ctxs := rfl
@[simp] theorem State.setReg_queues (s : State) (a : Nat) (v : Word) : (s.setReg a v).queues = s.queues := rfl
@[simp] theorem State.setReg_slots (s : State) (a : Nat) (v : Word) : (s.setReg a v).slots = s.slots := rfl
@[simp] theorem State.setReg_seqs (s : State) (a : Nat) (v : Word) : (s.setReg a v).seqs = s.seqs := rfl
@[simp] theorem State.setReg_cores (s : State) (a : Nat) (v : Word) : (s.setReg a v).cores = s.cores := rfl
@[simp] theorem State.setReg_clusters (s : State) (a : Nat) (v : Word) : (s.setReg a v).clusters = s.clusters := rfl
@[simp] theorem State.setReg_sched (s : State) (a : Nat) (v : Word) : (s.setReg a v).sched = s.sched := rfl
@[simp] theorem State.setReg_disp (s : State) (a : Nat) (v : Word) : (s.setReg a v).disp = s.disp := rfl
@[simp] theorem State.setReg_flow (s : State) (a : Nat) (v : Word) : (s.setReg a v).flow = s.flow := rfl
@[simp] theorem State.setReg_ldm (s : State) (a : Nat) (v : Word) : (s.setReg a v).ldm = s.ldm := rfl
@[simp] theorem State.setReg_dp (s : State) (a : Nat) (v : Word) : (s.setReg a v).dp = s.dp := rfl
@[simp] theorem State.setReg_gfx (s : State) (a : Nat) (v : Word) : (s.setReg a v).gfx = s.gfx := rfl
@[simp] theorem State.setReg_pwr (s : State) (a : Nat) (v : Word) : (s.setReg a v).pwr = s.pwr := rfl
@[simp] theorem State.setReg_boot (s : State) (a : Nat) (v : Word) : (s.setReg a v).boot = s.boot := rfl

/-! ## setAct -/

@[simp] theorem State.setAct_pending (s : State) (a : Nat) (v : Word) : (s.setAct a v).pending = s.pending := rfl
@[simp] theorem State.setAct_draws (s : State) (a : Nat) (v : Word) : (s.setAct a v).draws = s.draws := rfl
@[simp] theorem State.setAct_time (s : State) (a : Nat) (v : Word) : (s.setAct a v).time = s.time := rfl
@[simp] theorem State.setAct_timeFrac (s : State) (a : Nat) (v : Word) : (s.setAct a v).timeFrac = s.timeFrac := rfl
@[simp] theorem State.setAct_regs (s : State) (a : Nat) (v : Word) : (s.setAct a v).regs = s.regs := rfl
@[simp] theorem State.setAct_shadows (s : State) (a : Nat) (v : Word) : (s.setAct a v).shadows = s.shadows := rfl
@[simp] theorem State.setAct_out (s : State) (a : Nat) (v : Word) : (s.setAct a v).out = s.out := rfl
@[simp] theorem State.setAct_uncOn (s : State) (a : Nat) (v : Word) : (s.setAct a v).uncOn = s.uncOn := rfl
@[simp] theorem State.setAct_dispOn (s : State) (a : Nat) (v : Word) : (s.setAct a v).dispOn = s.dispOn := rfl
@[simp] theorem State.setAct_cluOn (s : State) (a : Nat) (v : Word) : (s.setAct a v).cluOn = s.cluOn := rfl
@[simp] theorem State.setAct_err (s : State) (a : Nat) (v : Word) : (s.setAct a v).err = s.err := rfl
@[simp] theorem State.setAct_dbg (s : State) (a : Nat) (v : Word) : (s.setAct a v).dbg = s.dbg := rfl
@[simp] theorem State.setAct_hif (s : State) (a : Nat) (v : Word) : (s.setAct a v).hif = s.hif := rfl
@[simp] theorem State.setAct_dram (s : State) (a : Nat) (v : Word) : (s.setAct a v).dram = s.dram := rfl
@[simp] theorem State.setAct_l2 (s : State) (a : Nat) (v : Word) : (s.setAct a v).l2 = s.l2 := rfl
@[simp] theorem State.setAct_mmu (s : State) (a : Nat) (v : Word) : (s.setAct a v).mmu = s.mmu := rfl
@[simp] theorem State.setAct_ctxs (s : State) (a : Nat) (v : Word) : (s.setAct a v).ctxs = s.ctxs := rfl
@[simp] theorem State.setAct_queues (s : State) (a : Nat) (v : Word) : (s.setAct a v).queues = s.queues := rfl
@[simp] theorem State.setAct_slots (s : State) (a : Nat) (v : Word) : (s.setAct a v).slots = s.slots := rfl
@[simp] theorem State.setAct_seqs (s : State) (a : Nat) (v : Word) : (s.setAct a v).seqs = s.seqs := rfl
@[simp] theorem State.setAct_cores (s : State) (a : Nat) (v : Word) : (s.setAct a v).cores = s.cores := rfl
@[simp] theorem State.setAct_clusters (s : State) (a : Nat) (v : Word) : (s.setAct a v).clusters = s.clusters := rfl
@[simp] theorem State.setAct_sched (s : State) (a : Nat) (v : Word) : (s.setAct a v).sched = s.sched := rfl
@[simp] theorem State.setAct_disp (s : State) (a : Nat) (v : Word) : (s.setAct a v).disp = s.disp := rfl
@[simp] theorem State.setAct_flow (s : State) (a : Nat) (v : Word) : (s.setAct a v).flow = s.flow := rfl
@[simp] theorem State.setAct_ldm (s : State) (a : Nat) (v : Word) : (s.setAct a v).ldm = s.ldm := rfl
@[simp] theorem State.setAct_dp (s : State) (a : Nat) (v : Word) : (s.setAct a v).dp = s.dp := rfl
@[simp] theorem State.setAct_gfx (s : State) (a : Nat) (v : Word) : (s.setAct a v).gfx = s.gfx := rfl
@[simp] theorem State.setAct_pwr (s : State) (a : Nat) (v : Word) : (s.setAct a v).pwr = s.pwr := rfl
@[simp] theorem State.setAct_boot (s : State) (a : Nat) (v : Word) : (s.setAct a v).boot = s.boot := rfl

/-! ## emit -/

@[simp] theorem State.emit_pending (s : State) (o : Output) : (s.emit o).pending = s.pending := rfl
@[simp] theorem State.emit_draws (s : State) (o : Output) : (s.emit o).draws = s.draws := rfl
@[simp] theorem State.emit_time (s : State) (o : Output) : (s.emit o).time = s.time := rfl
@[simp] theorem State.emit_timeFrac (s : State) (o : Output) : (s.emit o).timeFrac = s.timeFrac := rfl
@[simp] theorem State.emit_regs (s : State) (o : Output) : (s.emit o).regs = s.regs := rfl
@[simp] theorem State.emit_active (s : State) (o : Output) : (s.emit o).active = s.active := rfl
@[simp] theorem State.emit_shadows (s : State) (o : Output) : (s.emit o).shadows = s.shadows := rfl
@[simp] theorem State.emit_uncOn (s : State) (o : Output) : (s.emit o).uncOn = s.uncOn := rfl
@[simp] theorem State.emit_dispOn (s : State) (o : Output) : (s.emit o).dispOn = s.dispOn := rfl
@[simp] theorem State.emit_cluOn (s : State) (o : Output) : (s.emit o).cluOn = s.cluOn := rfl
@[simp] theorem State.emit_err (s : State) (o : Output) : (s.emit o).err = s.err := rfl
@[simp] theorem State.emit_dbg (s : State) (o : Output) : (s.emit o).dbg = s.dbg := rfl
@[simp] theorem State.emit_hif (s : State) (o : Output) : (s.emit o).hif = s.hif := rfl
@[simp] theorem State.emit_dram (s : State) (o : Output) : (s.emit o).dram = s.dram := rfl
@[simp] theorem State.emit_l2 (s : State) (o : Output) : (s.emit o).l2 = s.l2 := rfl
@[simp] theorem State.emit_mmu (s : State) (o : Output) : (s.emit o).mmu = s.mmu := rfl
@[simp] theorem State.emit_ctxs (s : State) (o : Output) : (s.emit o).ctxs = s.ctxs := rfl
@[simp] theorem State.emit_queues (s : State) (o : Output) : (s.emit o).queues = s.queues := rfl
@[simp] theorem State.emit_slots (s : State) (o : Output) : (s.emit o).slots = s.slots := rfl
@[simp] theorem State.emit_seqs (s : State) (o : Output) : (s.emit o).seqs = s.seqs := rfl
@[simp] theorem State.emit_cores (s : State) (o : Output) : (s.emit o).cores = s.cores := rfl
@[simp] theorem State.emit_clusters (s : State) (o : Output) : (s.emit o).clusters = s.clusters := rfl
@[simp] theorem State.emit_sched (s : State) (o : Output) : (s.emit o).sched = s.sched := rfl
@[simp] theorem State.emit_disp (s : State) (o : Output) : (s.emit o).disp = s.disp := rfl
@[simp] theorem State.emit_flow (s : State) (o : Output) : (s.emit o).flow = s.flow := rfl
@[simp] theorem State.emit_ldm (s : State) (o : Output) : (s.emit o).ldm = s.ldm := rfl
@[simp] theorem State.emit_dp (s : State) (o : Output) : (s.emit o).dp = s.dp := rfl
@[simp] theorem State.emit_gfx (s : State) (o : Output) : (s.emit o).gfx = s.gfx := rfl
@[simp] theorem State.emit_pwr (s : State) (o : Output) : (s.emit o).pwr = s.pwr := rfl
@[simp] theorem State.emit_boot (s : State) (o : Output) : (s.emit o).boot = s.boot := rfl

/-! ## setFld -/

@[simp] theorem State.setFld_pending (s : State) (a hi lo v : Nat) : (s.setFld a hi lo v).pending = s.pending :=
  State.setReg_pending _ _ _
@[simp] theorem State.setFld_draws (s : State) (a hi lo v : Nat) : (s.setFld a hi lo v).draws = s.draws :=
  State.setReg_draws _ _ _
@[simp] theorem State.setFld_time (s : State) (a hi lo v : Nat) : (s.setFld a hi lo v).time = s.time :=
  State.setReg_time _ _ _
@[simp] theorem State.setFld_timeFrac (s : State) (a hi lo v : Nat) : (s.setFld a hi lo v).timeFrac = s.timeFrac :=
  State.setReg_timeFrac _ _ _
@[simp] theorem State.setFld_active (s : State) (a hi lo v : Nat) : (s.setFld a hi lo v).active = s.active :=
  State.setReg_active _ _ _
@[simp] theorem State.setFld_shadows (s : State) (a hi lo v : Nat) : (s.setFld a hi lo v).shadows = s.shadows :=
  State.setReg_shadows _ _ _
@[simp] theorem State.setFld_out (s : State) (a hi lo v : Nat) : (s.setFld a hi lo v).out = s.out :=
  State.setReg_out _ _ _
@[simp] theorem State.setFld_uncOn (s : State) (a hi lo v : Nat) : (s.setFld a hi lo v).uncOn = s.uncOn :=
  State.setReg_uncOn _ _ _
@[simp] theorem State.setFld_dispOn (s : State) (a hi lo v : Nat) : (s.setFld a hi lo v).dispOn = s.dispOn :=
  State.setReg_dispOn _ _ _
@[simp] theorem State.setFld_cluOn (s : State) (a hi lo v : Nat) : (s.setFld a hi lo v).cluOn = s.cluOn :=
  State.setReg_cluOn _ _ _
@[simp] theorem State.setFld_err (s : State) (a hi lo v : Nat) : (s.setFld a hi lo v).err = s.err :=
  State.setReg_err _ _ _
@[simp] theorem State.setFld_dbg (s : State) (a hi lo v : Nat) : (s.setFld a hi lo v).dbg = s.dbg :=
  State.setReg_dbg _ _ _
@[simp] theorem State.setFld_hif (s : State) (a hi lo v : Nat) : (s.setFld a hi lo v).hif = s.hif :=
  State.setReg_hif _ _ _
@[simp] theorem State.setFld_dram (s : State) (a hi lo v : Nat) : (s.setFld a hi lo v).dram = s.dram :=
  State.setReg_dram _ _ _
@[simp] theorem State.setFld_l2 (s : State) (a hi lo v : Nat) : (s.setFld a hi lo v).l2 = s.l2 :=
  State.setReg_l2 _ _ _
@[simp] theorem State.setFld_mmu (s : State) (a hi lo v : Nat) : (s.setFld a hi lo v).mmu = s.mmu :=
  State.setReg_mmu _ _ _
@[simp] theorem State.setFld_ctxs (s : State) (a hi lo v : Nat) : (s.setFld a hi lo v).ctxs = s.ctxs :=
  State.setReg_ctxs _ _ _
@[simp] theorem State.setFld_queues (s : State) (a hi lo v : Nat) : (s.setFld a hi lo v).queues = s.queues :=
  State.setReg_queues _ _ _
@[simp] theorem State.setFld_slots (s : State) (a hi lo v : Nat) : (s.setFld a hi lo v).slots = s.slots :=
  State.setReg_slots _ _ _
@[simp] theorem State.setFld_seqs (s : State) (a hi lo v : Nat) : (s.setFld a hi lo v).seqs = s.seqs :=
  State.setReg_seqs _ _ _
@[simp] theorem State.setFld_cores (s : State) (a hi lo v : Nat) : (s.setFld a hi lo v).cores = s.cores :=
  State.setReg_cores _ _ _
@[simp] theorem State.setFld_clusters (s : State) (a hi lo v : Nat) : (s.setFld a hi lo v).clusters = s.clusters :=
  State.setReg_clusters _ _ _
@[simp] theorem State.setFld_sched (s : State) (a hi lo v : Nat) : (s.setFld a hi lo v).sched = s.sched :=
  State.setReg_sched _ _ _
@[simp] theorem State.setFld_disp (s : State) (a hi lo v : Nat) : (s.setFld a hi lo v).disp = s.disp :=
  State.setReg_disp _ _ _
@[simp] theorem State.setFld_flow (s : State) (a hi lo v : Nat) : (s.setFld a hi lo v).flow = s.flow :=
  State.setReg_flow _ _ _
@[simp] theorem State.setFld_ldm (s : State) (a hi lo v : Nat) : (s.setFld a hi lo v).ldm = s.ldm :=
  State.setReg_ldm _ _ _
@[simp] theorem State.setFld_dp (s : State) (a hi lo v : Nat) : (s.setFld a hi lo v).dp = s.dp :=
  State.setReg_dp _ _ _
@[simp] theorem State.setFld_gfx (s : State) (a hi lo v : Nat) : (s.setFld a hi lo v).gfx = s.gfx :=
  State.setReg_gfx _ _ _
@[simp] theorem State.setFld_pwr (s : State) (a hi lo v : Nat) : (s.setFld a hi lo v).pwr = s.pwr :=
  State.setReg_pwr _ _ _
@[simp] theorem State.setFld_boot (s : State) (a hi lo v : Nat) : (s.setFld a hi lo v).boot = s.boot :=
  State.setReg_boot _ _ _

/-! ## setFlag -/

@[simp] theorem State.setFlag_pending (s : State) (a i : Nat) : (s.setFlag a i).pending = s.pending :=
  State.setFld_pending _ _ _ _ _
@[simp] theorem State.setFlag_draws (s : State) (a i : Nat) : (s.setFlag a i).draws = s.draws :=
  State.setFld_draws _ _ _ _ _
@[simp] theorem State.setFlag_time (s : State) (a i : Nat) : (s.setFlag a i).time = s.time :=
  State.setFld_time _ _ _ _ _
@[simp] theorem State.setFlag_timeFrac (s : State) (a i : Nat) : (s.setFlag a i).timeFrac = s.timeFrac :=
  State.setFld_timeFrac _ _ _ _ _
@[simp] theorem State.setFlag_active (s : State) (a i : Nat) : (s.setFlag a i).active = s.active :=
  State.setFld_active _ _ _ _ _
@[simp] theorem State.setFlag_shadows (s : State) (a i : Nat) : (s.setFlag a i).shadows = s.shadows :=
  State.setFld_shadows _ _ _ _ _
@[simp] theorem State.setFlag_out (s : State) (a i : Nat) : (s.setFlag a i).out = s.out :=
  State.setFld_out _ _ _ _ _
@[simp] theorem State.setFlag_uncOn (s : State) (a i : Nat) : (s.setFlag a i).uncOn = s.uncOn :=
  State.setFld_uncOn _ _ _ _ _
@[simp] theorem State.setFlag_dispOn (s : State) (a i : Nat) : (s.setFlag a i).dispOn = s.dispOn :=
  State.setFld_dispOn _ _ _ _ _
@[simp] theorem State.setFlag_cluOn (s : State) (a i : Nat) : (s.setFlag a i).cluOn = s.cluOn :=
  State.setFld_cluOn _ _ _ _ _
@[simp] theorem State.setFlag_err (s : State) (a i : Nat) : (s.setFlag a i).err = s.err :=
  State.setFld_err _ _ _ _ _
@[simp] theorem State.setFlag_dbg (s : State) (a i : Nat) : (s.setFlag a i).dbg = s.dbg :=
  State.setFld_dbg _ _ _ _ _
@[simp] theorem State.setFlag_hif (s : State) (a i : Nat) : (s.setFlag a i).hif = s.hif :=
  State.setFld_hif _ _ _ _ _
@[simp] theorem State.setFlag_dram (s : State) (a i : Nat) : (s.setFlag a i).dram = s.dram :=
  State.setFld_dram _ _ _ _ _
@[simp] theorem State.setFlag_l2 (s : State) (a i : Nat) : (s.setFlag a i).l2 = s.l2 :=
  State.setFld_l2 _ _ _ _ _
@[simp] theorem State.setFlag_mmu (s : State) (a i : Nat) : (s.setFlag a i).mmu = s.mmu :=
  State.setFld_mmu _ _ _ _ _
@[simp] theorem State.setFlag_ctxs (s : State) (a i : Nat) : (s.setFlag a i).ctxs = s.ctxs :=
  State.setFld_ctxs _ _ _ _ _
@[simp] theorem State.setFlag_queues (s : State) (a i : Nat) : (s.setFlag a i).queues = s.queues :=
  State.setFld_queues _ _ _ _ _
@[simp] theorem State.setFlag_slots (s : State) (a i : Nat) : (s.setFlag a i).slots = s.slots :=
  State.setFld_slots _ _ _ _ _
@[simp] theorem State.setFlag_seqs (s : State) (a i : Nat) : (s.setFlag a i).seqs = s.seqs :=
  State.setFld_seqs _ _ _ _ _
@[simp] theorem State.setFlag_cores (s : State) (a i : Nat) : (s.setFlag a i).cores = s.cores :=
  State.setFld_cores _ _ _ _ _
@[simp] theorem State.setFlag_clusters (s : State) (a i : Nat) : (s.setFlag a i).clusters = s.clusters :=
  State.setFld_clusters _ _ _ _ _
@[simp] theorem State.setFlag_sched (s : State) (a i : Nat) : (s.setFlag a i).sched = s.sched :=
  State.setFld_sched _ _ _ _ _
@[simp] theorem State.setFlag_disp (s : State) (a i : Nat) : (s.setFlag a i).disp = s.disp :=
  State.setFld_disp _ _ _ _ _
@[simp] theorem State.setFlag_flow (s : State) (a i : Nat) : (s.setFlag a i).flow = s.flow :=
  State.setFld_flow _ _ _ _ _
@[simp] theorem State.setFlag_ldm (s : State) (a i : Nat) : (s.setFlag a i).ldm = s.ldm :=
  State.setFld_ldm _ _ _ _ _
@[simp] theorem State.setFlag_dp (s : State) (a i : Nat) : (s.setFlag a i).dp = s.dp :=
  State.setFld_dp _ _ _ _ _
@[simp] theorem State.setFlag_gfx (s : State) (a i : Nat) : (s.setFlag a i).gfx = s.gfx :=
  State.setFld_gfx _ _ _ _ _
@[simp] theorem State.setFlag_pwr (s : State) (a i : Nat) : (s.setFlag a i).pwr = s.pwr :=
  State.setFld_pwr _ _ _ _ _
@[simp] theorem State.setFlag_boot (s : State) (a i : Nat) : (s.setFlag a i).boot = s.boot :=
  State.setFld_boot _ _ _ _ _

/-! ## clearFlag -/

@[simp] theorem State.clearFlag_pending (s : State) (a i : Nat) : (s.clearFlag a i).pending = s.pending :=
  State.setFld_pending _ _ _ _ _
@[simp] theorem State.clearFlag_draws (s : State) (a i : Nat) : (s.clearFlag a i).draws = s.draws :=
  State.setFld_draws _ _ _ _ _
@[simp] theorem State.clearFlag_time (s : State) (a i : Nat) : (s.clearFlag a i).time = s.time :=
  State.setFld_time _ _ _ _ _
@[simp] theorem State.clearFlag_timeFrac (s : State) (a i : Nat) : (s.clearFlag a i).timeFrac = s.timeFrac :=
  State.setFld_timeFrac _ _ _ _ _
@[simp] theorem State.clearFlag_active (s : State) (a i : Nat) : (s.clearFlag a i).active = s.active :=
  State.setFld_active _ _ _ _ _
@[simp] theorem State.clearFlag_shadows (s : State) (a i : Nat) : (s.clearFlag a i).shadows = s.shadows :=
  State.setFld_shadows _ _ _ _ _
@[simp] theorem State.clearFlag_out (s : State) (a i : Nat) : (s.clearFlag a i).out = s.out :=
  State.setFld_out _ _ _ _ _
@[simp] theorem State.clearFlag_uncOn (s : State) (a i : Nat) : (s.clearFlag a i).uncOn = s.uncOn :=
  State.setFld_uncOn _ _ _ _ _
@[simp] theorem State.clearFlag_dispOn (s : State) (a i : Nat) : (s.clearFlag a i).dispOn = s.dispOn :=
  State.setFld_dispOn _ _ _ _ _
@[simp] theorem State.clearFlag_cluOn (s : State) (a i : Nat) : (s.clearFlag a i).cluOn = s.cluOn :=
  State.setFld_cluOn _ _ _ _ _
@[simp] theorem State.clearFlag_err (s : State) (a i : Nat) : (s.clearFlag a i).err = s.err :=
  State.setFld_err _ _ _ _ _
@[simp] theorem State.clearFlag_dbg (s : State) (a i : Nat) : (s.clearFlag a i).dbg = s.dbg :=
  State.setFld_dbg _ _ _ _ _
@[simp] theorem State.clearFlag_hif (s : State) (a i : Nat) : (s.clearFlag a i).hif = s.hif :=
  State.setFld_hif _ _ _ _ _
@[simp] theorem State.clearFlag_dram (s : State) (a i : Nat) : (s.clearFlag a i).dram = s.dram :=
  State.setFld_dram _ _ _ _ _
@[simp] theorem State.clearFlag_l2 (s : State) (a i : Nat) : (s.clearFlag a i).l2 = s.l2 :=
  State.setFld_l2 _ _ _ _ _
@[simp] theorem State.clearFlag_mmu (s : State) (a i : Nat) : (s.clearFlag a i).mmu = s.mmu :=
  State.setFld_mmu _ _ _ _ _
@[simp] theorem State.clearFlag_ctxs (s : State) (a i : Nat) : (s.clearFlag a i).ctxs = s.ctxs :=
  State.setFld_ctxs _ _ _ _ _
@[simp] theorem State.clearFlag_queues (s : State) (a i : Nat) : (s.clearFlag a i).queues = s.queues :=
  State.setFld_queues _ _ _ _ _
@[simp] theorem State.clearFlag_slots (s : State) (a i : Nat) : (s.clearFlag a i).slots = s.slots :=
  State.setFld_slots _ _ _ _ _
@[simp] theorem State.clearFlag_seqs (s : State) (a i : Nat) : (s.clearFlag a i).seqs = s.seqs :=
  State.setFld_seqs _ _ _ _ _
@[simp] theorem State.clearFlag_cores (s : State) (a i : Nat) : (s.clearFlag a i).cores = s.cores :=
  State.setFld_cores _ _ _ _ _
@[simp] theorem State.clearFlag_clusters (s : State) (a i : Nat) : (s.clearFlag a i).clusters = s.clusters :=
  State.setFld_clusters _ _ _ _ _
@[simp] theorem State.clearFlag_sched (s : State) (a i : Nat) : (s.clearFlag a i).sched = s.sched :=
  State.setFld_sched _ _ _ _ _
@[simp] theorem State.clearFlag_disp (s : State) (a i : Nat) : (s.clearFlag a i).disp = s.disp :=
  State.setFld_disp _ _ _ _ _
@[simp] theorem State.clearFlag_flow (s : State) (a i : Nat) : (s.clearFlag a i).flow = s.flow :=
  State.setFld_flow _ _ _ _ _
@[simp] theorem State.clearFlag_ldm (s : State) (a i : Nat) : (s.clearFlag a i).ldm = s.ldm :=
  State.setFld_ldm _ _ _ _ _
@[simp] theorem State.clearFlag_dp (s : State) (a i : Nat) : (s.clearFlag a i).dp = s.dp :=
  State.setFld_dp _ _ _ _ _
@[simp] theorem State.clearFlag_gfx (s : State) (a i : Nat) : (s.clearFlag a i).gfx = s.gfx :=
  State.setFld_gfx _ _ _ _ _
@[simp] theorem State.clearFlag_pwr (s : State) (a i : Nat) : (s.clearFlag a i).pwr = s.pwr :=
  State.setFld_pwr _ _ _ _ _
@[simp] theorem State.clearFlag_boot (s : State) (a i : Nat) : (s.clearFlag a i).boot = s.boot :=
  State.setFld_boot _ _ _ _ _

/-! ## setCore -/

@[simp] theorem State.setCore_pending (s : State) (n : Nat) (k : Core) : (s.setCore n k).pending = s.pending := rfl
@[simp] theorem State.setCore_draws (s : State) (n : Nat) (k : Core) : (s.setCore n k).draws = s.draws := rfl
@[simp] theorem State.setCore_time (s : State) (n : Nat) (k : Core) : (s.setCore n k).time = s.time := rfl
@[simp] theorem State.setCore_timeFrac (s : State) (n : Nat) (k : Core) : (s.setCore n k).timeFrac = s.timeFrac := rfl
@[simp] theorem State.setCore_regs (s : State) (n : Nat) (k : Core) : (s.setCore n k).regs = s.regs := rfl
@[simp] theorem State.setCore_active (s : State) (n : Nat) (k : Core) : (s.setCore n k).active = s.active := rfl
@[simp] theorem State.setCore_shadows (s : State) (n : Nat) (k : Core) : (s.setCore n k).shadows = s.shadows := rfl
@[simp] theorem State.setCore_out (s : State) (n : Nat) (k : Core) : (s.setCore n k).out = s.out := rfl
@[simp] theorem State.setCore_uncOn (s : State) (n : Nat) (k : Core) : (s.setCore n k).uncOn = s.uncOn := rfl
@[simp] theorem State.setCore_dispOn (s : State) (n : Nat) (k : Core) : (s.setCore n k).dispOn = s.dispOn := rfl
@[simp] theorem State.setCore_cluOn (s : State) (n : Nat) (k : Core) : (s.setCore n k).cluOn = s.cluOn := rfl
@[simp] theorem State.setCore_err (s : State) (n : Nat) (k : Core) : (s.setCore n k).err = s.err := rfl
@[simp] theorem State.setCore_dbg (s : State) (n : Nat) (k : Core) : (s.setCore n k).dbg = s.dbg := rfl
@[simp] theorem State.setCore_hif (s : State) (n : Nat) (k : Core) : (s.setCore n k).hif = s.hif := rfl
@[simp] theorem State.setCore_dram (s : State) (n : Nat) (k : Core) : (s.setCore n k).dram = s.dram := rfl
@[simp] theorem State.setCore_l2 (s : State) (n : Nat) (k : Core) : (s.setCore n k).l2 = s.l2 := rfl
@[simp] theorem State.setCore_mmu (s : State) (n : Nat) (k : Core) : (s.setCore n k).mmu = s.mmu := rfl
@[simp] theorem State.setCore_ctxs (s : State) (n : Nat) (k : Core) : (s.setCore n k).ctxs = s.ctxs := rfl
@[simp] theorem State.setCore_queues (s : State) (n : Nat) (k : Core) : (s.setCore n k).queues = s.queues := rfl
@[simp] theorem State.setCore_slots (s : State) (n : Nat) (k : Core) : (s.setCore n k).slots = s.slots := rfl
@[simp] theorem State.setCore_seqs (s : State) (n : Nat) (k : Core) : (s.setCore n k).seqs = s.seqs := rfl
@[simp] theorem State.setCore_clusters (s : State) (n : Nat) (k : Core) : (s.setCore n k).clusters = s.clusters := rfl
@[simp] theorem State.setCore_sched (s : State) (n : Nat) (k : Core) : (s.setCore n k).sched = s.sched := rfl
@[simp] theorem State.setCore_disp (s : State) (n : Nat) (k : Core) : (s.setCore n k).disp = s.disp := rfl
@[simp] theorem State.setCore_flow (s : State) (n : Nat) (k : Core) : (s.setCore n k).flow = s.flow := rfl
@[simp] theorem State.setCore_ldm (s : State) (n : Nat) (k : Core) : (s.setCore n k).ldm = s.ldm := rfl
@[simp] theorem State.setCore_dp (s : State) (n : Nat) (k : Core) : (s.setCore n k).dp = s.dp := rfl
@[simp] theorem State.setCore_gfx (s : State) (n : Nat) (k : Core) : (s.setCore n k).gfx = s.gfx := rfl
@[simp] theorem State.setCore_pwr (s : State) (n : Nat) (k : Core) : (s.setCore n k).pwr = s.pwr := rfl
@[simp] theorem State.setCore_boot (s : State) (n : Nat) (k : Core) : (s.setCore n k).boot = s.boot := rfl

/-! ## setCluster -/

@[simp] theorem State.setCluster_pending (s : State) (k : Nat) (c : Cluster) : (s.setCluster k c).pending = s.pending := rfl
@[simp] theorem State.setCluster_draws (s : State) (k : Nat) (c : Cluster) : (s.setCluster k c).draws = s.draws := rfl
@[simp] theorem State.setCluster_time (s : State) (k : Nat) (c : Cluster) : (s.setCluster k c).time = s.time := rfl
@[simp] theorem State.setCluster_timeFrac (s : State) (k : Nat) (c : Cluster) : (s.setCluster k c).timeFrac = s.timeFrac := rfl
@[simp] theorem State.setCluster_regs (s : State) (k : Nat) (c : Cluster) : (s.setCluster k c).regs = s.regs := rfl
@[simp] theorem State.setCluster_active (s : State) (k : Nat) (c : Cluster) : (s.setCluster k c).active = s.active := rfl
@[simp] theorem State.setCluster_shadows (s : State) (k : Nat) (c : Cluster) : (s.setCluster k c).shadows = s.shadows := rfl
@[simp] theorem State.setCluster_out (s : State) (k : Nat) (c : Cluster) : (s.setCluster k c).out = s.out := rfl
@[simp] theorem State.setCluster_uncOn (s : State) (k : Nat) (c : Cluster) : (s.setCluster k c).uncOn = s.uncOn := rfl
@[simp] theorem State.setCluster_dispOn (s : State) (k : Nat) (c : Cluster) : (s.setCluster k c).dispOn = s.dispOn := rfl
@[simp] theorem State.setCluster_cluOn (s : State) (k : Nat) (c : Cluster) : (s.setCluster k c).cluOn = s.cluOn := rfl
@[simp] theorem State.setCluster_err (s : State) (k : Nat) (c : Cluster) : (s.setCluster k c).err = s.err := rfl
@[simp] theorem State.setCluster_dbg (s : State) (k : Nat) (c : Cluster) : (s.setCluster k c).dbg = s.dbg := rfl
@[simp] theorem State.setCluster_hif (s : State) (k : Nat) (c : Cluster) : (s.setCluster k c).hif = s.hif := rfl
@[simp] theorem State.setCluster_dram (s : State) (k : Nat) (c : Cluster) : (s.setCluster k c).dram = s.dram := rfl
@[simp] theorem State.setCluster_l2 (s : State) (k : Nat) (c : Cluster) : (s.setCluster k c).l2 = s.l2 := rfl
@[simp] theorem State.setCluster_mmu (s : State) (k : Nat) (c : Cluster) : (s.setCluster k c).mmu = s.mmu := rfl
@[simp] theorem State.setCluster_ctxs (s : State) (k : Nat) (c : Cluster) : (s.setCluster k c).ctxs = s.ctxs := rfl
@[simp] theorem State.setCluster_queues (s : State) (k : Nat) (c : Cluster) : (s.setCluster k c).queues = s.queues := rfl
@[simp] theorem State.setCluster_slots (s : State) (k : Nat) (c : Cluster) : (s.setCluster k c).slots = s.slots := rfl
@[simp] theorem State.setCluster_seqs (s : State) (k : Nat) (c : Cluster) : (s.setCluster k c).seqs = s.seqs := rfl
@[simp] theorem State.setCluster_cores (s : State) (k : Nat) (c : Cluster) : (s.setCluster k c).cores = s.cores := rfl
@[simp] theorem State.setCluster_sched (s : State) (k : Nat) (c : Cluster) : (s.setCluster k c).sched = s.sched := rfl
@[simp] theorem State.setCluster_disp (s : State) (k : Nat) (c : Cluster) : (s.setCluster k c).disp = s.disp := rfl
@[simp] theorem State.setCluster_flow (s : State) (k : Nat) (c : Cluster) : (s.setCluster k c).flow = s.flow := rfl
@[simp] theorem State.setCluster_ldm (s : State) (k : Nat) (c : Cluster) : (s.setCluster k c).ldm = s.ldm := rfl
@[simp] theorem State.setCluster_dp (s : State) (k : Nat) (c : Cluster) : (s.setCluster k c).dp = s.dp := rfl
@[simp] theorem State.setCluster_gfx (s : State) (k : Nat) (c : Cluster) : (s.setCluster k c).gfx = s.gfx := rfl
@[simp] theorem State.setCluster_pwr (s : State) (k : Nat) (c : Cluster) : (s.setCluster k c).pwr = s.pwr := rfl
@[simp] theorem State.setCluster_boot (s : State) (k : Nat) (c : Cluster) : (s.setCluster k c).boot = s.boot := rfl

/-! ## setQueue -/

@[simp] theorem State.setQueue_pending (s : State) (n : Nat) (u : Queue) : (s.setQueue n u).pending = s.pending := by
  simp only [State.setQueue, State.setFld_pending]
@[simp] theorem State.setQueue_draws (s : State) (n : Nat) (u : Queue) : (s.setQueue n u).draws = s.draws := by
  simp only [State.setQueue, State.setFld_draws]
@[simp] theorem State.setQueue_time (s : State) (n : Nat) (u : Queue) : (s.setQueue n u).time = s.time := by
  simp only [State.setQueue, State.setFld_time]
@[simp] theorem State.setQueue_timeFrac (s : State) (n : Nat) (u : Queue) : (s.setQueue n u).timeFrac = s.timeFrac := by
  simp only [State.setQueue, State.setFld_timeFrac]
@[simp] theorem State.setQueue_active (s : State) (n : Nat) (u : Queue) : (s.setQueue n u).active = s.active := by
  simp only [State.setQueue, State.setFld_active]
@[simp] theorem State.setQueue_shadows (s : State) (n : Nat) (u : Queue) : (s.setQueue n u).shadows = s.shadows := by
  simp only [State.setQueue, State.setFld_shadows]
@[simp] theorem State.setQueue_out (s : State) (n : Nat) (u : Queue) : (s.setQueue n u).out = s.out := by
  simp only [State.setQueue, State.setFld_out]
@[simp] theorem State.setQueue_uncOn (s : State) (n : Nat) (u : Queue) : (s.setQueue n u).uncOn = s.uncOn := by
  simp only [State.setQueue, State.setFld_uncOn]
@[simp] theorem State.setQueue_dispOn (s : State) (n : Nat) (u : Queue) : (s.setQueue n u).dispOn = s.dispOn := by
  simp only [State.setQueue, State.setFld_dispOn]
@[simp] theorem State.setQueue_cluOn (s : State) (n : Nat) (u : Queue) : (s.setQueue n u).cluOn = s.cluOn := by
  simp only [State.setQueue, State.setFld_cluOn]
@[simp] theorem State.setQueue_err (s : State) (n : Nat) (u : Queue) : (s.setQueue n u).err = s.err := by
  simp only [State.setQueue, State.setFld_err]
@[simp] theorem State.setQueue_dbg (s : State) (n : Nat) (u : Queue) : (s.setQueue n u).dbg = s.dbg := by
  simp only [State.setQueue, State.setFld_dbg]
@[simp] theorem State.setQueue_hif (s : State) (n : Nat) (u : Queue) : (s.setQueue n u).hif = s.hif := by
  simp only [State.setQueue, State.setFld_hif]
@[simp] theorem State.setQueue_dram (s : State) (n : Nat) (u : Queue) : (s.setQueue n u).dram = s.dram := by
  simp only [State.setQueue, State.setFld_dram]
@[simp] theorem State.setQueue_l2 (s : State) (n : Nat) (u : Queue) : (s.setQueue n u).l2 = s.l2 := by
  simp only [State.setQueue, State.setFld_l2]
@[simp] theorem State.setQueue_mmu (s : State) (n : Nat) (u : Queue) : (s.setQueue n u).mmu = s.mmu := by
  simp only [State.setQueue, State.setFld_mmu]
@[simp] theorem State.setQueue_ctxs (s : State) (n : Nat) (u : Queue) : (s.setQueue n u).ctxs = s.ctxs := by
  simp only [State.setQueue, State.setFld_ctxs]
@[simp] theorem State.setQueue_slots (s : State) (n : Nat) (u : Queue) : (s.setQueue n u).slots = s.slots := by
  simp only [State.setQueue, State.setFld_slots]
@[simp] theorem State.setQueue_seqs (s : State) (n : Nat) (u : Queue) : (s.setQueue n u).seqs = s.seqs := by
  simp only [State.setQueue, State.setFld_seqs]
@[simp] theorem State.setQueue_cores (s : State) (n : Nat) (u : Queue) : (s.setQueue n u).cores = s.cores := by
  simp only [State.setQueue, State.setFld_cores]
@[simp] theorem State.setQueue_clusters (s : State) (n : Nat) (u : Queue) : (s.setQueue n u).clusters = s.clusters := by
  simp only [State.setQueue, State.setFld_clusters]
@[simp] theorem State.setQueue_sched (s : State) (n : Nat) (u : Queue) : (s.setQueue n u).sched = s.sched := by
  simp only [State.setQueue, State.setFld_sched]
@[simp] theorem State.setQueue_disp (s : State) (n : Nat) (u : Queue) : (s.setQueue n u).disp = s.disp := by
  simp only [State.setQueue, State.setFld_disp]
@[simp] theorem State.setQueue_flow (s : State) (n : Nat) (u : Queue) : (s.setQueue n u).flow = s.flow := by
  simp only [State.setQueue, State.setFld_flow]
@[simp] theorem State.setQueue_ldm (s : State) (n : Nat) (u : Queue) : (s.setQueue n u).ldm = s.ldm := by
  simp only [State.setQueue, State.setFld_ldm]
@[simp] theorem State.setQueue_dp (s : State) (n : Nat) (u : Queue) : (s.setQueue n u).dp = s.dp := by
  simp only [State.setQueue, State.setFld_dp]
@[simp] theorem State.setQueue_gfx (s : State) (n : Nat) (u : Queue) : (s.setQueue n u).gfx = s.gfx := by
  simp only [State.setQueue, State.setFld_gfx]
@[simp] theorem State.setQueue_pwr (s : State) (n : Nat) (u : Queue) : (s.setQueue n u).pwr = s.pwr := by
  simp only [State.setQueue, State.setFld_pwr]
@[simp] theorem State.setQueue_boot (s : State) (n : Nat) (u : Queue) : (s.setQueue n u).boot = s.boot := by
  simp only [State.setQueue, State.setFld_boot]

/-! ## setMark -/

@[simp] theorem State.setMark_pending (s : State) (n : Nat) (m : CwMark) : (s.setMark n m).pending = s.pending := rfl
@[simp] theorem State.setMark_draws (s : State) (n : Nat) (m : CwMark) : (s.setMark n m).draws = s.draws := rfl
@[simp] theorem State.setMark_time (s : State) (n : Nat) (m : CwMark) : (s.setMark n m).time = s.time := rfl
@[simp] theorem State.setMark_timeFrac (s : State) (n : Nat) (m : CwMark) : (s.setMark n m).timeFrac = s.timeFrac := rfl
@[simp] theorem State.setMark_regs (s : State) (n : Nat) (m : CwMark) : (s.setMark n m).regs = s.regs := rfl
@[simp] theorem State.setMark_active (s : State) (n : Nat) (m : CwMark) : (s.setMark n m).active = s.active := rfl
@[simp] theorem State.setMark_shadows (s : State) (n : Nat) (m : CwMark) : (s.setMark n m).shadows = s.shadows := rfl
@[simp] theorem State.setMark_out (s : State) (n : Nat) (m : CwMark) : (s.setMark n m).out = s.out := rfl
@[simp] theorem State.setMark_uncOn (s : State) (n : Nat) (m : CwMark) : (s.setMark n m).uncOn = s.uncOn := rfl
@[simp] theorem State.setMark_dispOn (s : State) (n : Nat) (m : CwMark) : (s.setMark n m).dispOn = s.dispOn := rfl
@[simp] theorem State.setMark_cluOn (s : State) (n : Nat) (m : CwMark) : (s.setMark n m).cluOn = s.cluOn := rfl
@[simp] theorem State.setMark_err (s : State) (n : Nat) (m : CwMark) : (s.setMark n m).err = s.err := rfl
@[simp] theorem State.setMark_dbg (s : State) (n : Nat) (m : CwMark) : (s.setMark n m).dbg = s.dbg := rfl
@[simp] theorem State.setMark_hif (s : State) (n : Nat) (m : CwMark) : (s.setMark n m).hif = s.hif := rfl
@[simp] theorem State.setMark_l2 (s : State) (n : Nat) (m : CwMark) : (s.setMark n m).l2 = s.l2 := rfl
@[simp] theorem State.setMark_mmu (s : State) (n : Nat) (m : CwMark) : (s.setMark n m).mmu = s.mmu := rfl
@[simp] theorem State.setMark_ctxs (s : State) (n : Nat) (m : CwMark) : (s.setMark n m).ctxs = s.ctxs := rfl
@[simp] theorem State.setMark_queues (s : State) (n : Nat) (m : CwMark) : (s.setMark n m).queues = s.queues := rfl
@[simp] theorem State.setMark_slots (s : State) (n : Nat) (m : CwMark) : (s.setMark n m).slots = s.slots := rfl
@[simp] theorem State.setMark_seqs (s : State) (n : Nat) (m : CwMark) : (s.setMark n m).seqs = s.seqs := rfl
@[simp] theorem State.setMark_cores (s : State) (n : Nat) (m : CwMark) : (s.setMark n m).cores = s.cores := rfl
@[simp] theorem State.setMark_clusters (s : State) (n : Nat) (m : CwMark) : (s.setMark n m).clusters = s.clusters := rfl
@[simp] theorem State.setMark_sched (s : State) (n : Nat) (m : CwMark) : (s.setMark n m).sched = s.sched := rfl
@[simp] theorem State.setMark_disp (s : State) (n : Nat) (m : CwMark) : (s.setMark n m).disp = s.disp := rfl
@[simp] theorem State.setMark_flow (s : State) (n : Nat) (m : CwMark) : (s.setMark n m).flow = s.flow := rfl
@[simp] theorem State.setMark_ldm (s : State) (n : Nat) (m : CwMark) : (s.setMark n m).ldm = s.ldm := rfl
@[simp] theorem State.setMark_dp (s : State) (n : Nat) (m : CwMark) : (s.setMark n m).dp = s.dp := rfl
@[simp] theorem State.setMark_gfx (s : State) (n : Nat) (m : CwMark) : (s.setMark n m).gfx = s.gfx := rfl
@[simp] theorem State.setMark_pwr (s : State) (n : Nat) (m : CwMark) : (s.setMark n m).pwr = s.pwr := rfl
@[simp] theorem State.setMark_boot (s : State) (n : Nat) (m : CwMark) : (s.setMark n m).boot = s.boot := rfl

/-! ## putCells -/

@[simp] theorem State.putCells_pending (s : State) (cs : List Host.Cell) : (s.putCells cs).pending = s.pending := rfl
@[simp] theorem State.putCells_draws (s : State) (cs : List Host.Cell) : (s.putCells cs).draws = s.draws := rfl
@[simp] theorem State.putCells_time (s : State) (cs : List Host.Cell) : (s.putCells cs).time = s.time := rfl
@[simp] theorem State.putCells_timeFrac (s : State) (cs : List Host.Cell) : (s.putCells cs).timeFrac = s.timeFrac := rfl
@[simp] theorem State.putCells_regs (s : State) (cs : List Host.Cell) : (s.putCells cs).regs = s.regs := rfl
@[simp] theorem State.putCells_active (s : State) (cs : List Host.Cell) : (s.putCells cs).active = s.active := rfl
@[simp] theorem State.putCells_shadows (s : State) (cs : List Host.Cell) : (s.putCells cs).shadows = s.shadows := rfl
@[simp] theorem State.putCells_out (s : State) (cs : List Host.Cell) : (s.putCells cs).out = s.out := rfl
@[simp] theorem State.putCells_uncOn (s : State) (cs : List Host.Cell) : (s.putCells cs).uncOn = s.uncOn := rfl
@[simp] theorem State.putCells_dispOn (s : State) (cs : List Host.Cell) : (s.putCells cs).dispOn = s.dispOn := rfl
@[simp] theorem State.putCells_cluOn (s : State) (cs : List Host.Cell) : (s.putCells cs).cluOn = s.cluOn := rfl
@[simp] theorem State.putCells_err (s : State) (cs : List Host.Cell) : (s.putCells cs).err = s.err := rfl
@[simp] theorem State.putCells_dbg (s : State) (cs : List Host.Cell) : (s.putCells cs).dbg = s.dbg := rfl
@[simp] theorem State.putCells_hif (s : State) (cs : List Host.Cell) : (s.putCells cs).hif = s.hif := rfl
@[simp] theorem State.putCells_l2 (s : State) (cs : List Host.Cell) : (s.putCells cs).l2 = s.l2 := rfl
@[simp] theorem State.putCells_mmu (s : State) (cs : List Host.Cell) : (s.putCells cs).mmu = s.mmu := rfl
@[simp] theorem State.putCells_ctxs (s : State) (cs : List Host.Cell) : (s.putCells cs).ctxs = s.ctxs := rfl
@[simp] theorem State.putCells_queues (s : State) (cs : List Host.Cell) : (s.putCells cs).queues = s.queues := rfl
@[simp] theorem State.putCells_slots (s : State) (cs : List Host.Cell) : (s.putCells cs).slots = s.slots := rfl
@[simp] theorem State.putCells_seqs (s : State) (cs : List Host.Cell) : (s.putCells cs).seqs = s.seqs := rfl
@[simp] theorem State.putCells_cores (s : State) (cs : List Host.Cell) : (s.putCells cs).cores = s.cores := rfl
@[simp] theorem State.putCells_clusters (s : State) (cs : List Host.Cell) : (s.putCells cs).clusters = s.clusters := rfl
@[simp] theorem State.putCells_sched (s : State) (cs : List Host.Cell) : (s.putCells cs).sched = s.sched := rfl
@[simp] theorem State.putCells_disp (s : State) (cs : List Host.Cell) : (s.putCells cs).disp = s.disp := rfl
@[simp] theorem State.putCells_flow (s : State) (cs : List Host.Cell) : (s.putCells cs).flow = s.flow := rfl
@[simp] theorem State.putCells_ldm (s : State) (cs : List Host.Cell) : (s.putCells cs).ldm = s.ldm := rfl
@[simp] theorem State.putCells_dp (s : State) (cs : List Host.Cell) : (s.putCells cs).dp = s.dp := rfl
@[simp] theorem State.putCells_gfx (s : State) (cs : List Host.Cell) : (s.putCells cs).gfx = s.gfx := rfl
@[simp] theorem State.putCells_pwr (s : State) (cs : List Host.Cell) : (s.putCells cs).pwr = s.pwr := rfl
@[simp] theorem State.putCells_boot (s : State) (cs : List Host.Cell) : (s.putCells cs).boot = s.boot := rfl

/-! ## updFlow -/

@[simp] theorem State.updFlow_pending (s : State) (f : Flow → Flow) : (s.updFlow f).pending = s.pending := rfl
@[simp] theorem State.updFlow_draws (s : State) (f : Flow → Flow) : (s.updFlow f).draws = s.draws := rfl
@[simp] theorem State.updFlow_time (s : State) (f : Flow → Flow) : (s.updFlow f).time = s.time := rfl
@[simp] theorem State.updFlow_timeFrac (s : State) (f : Flow → Flow) : (s.updFlow f).timeFrac = s.timeFrac := rfl
@[simp] theorem State.updFlow_regs (s : State) (f : Flow → Flow) : (s.updFlow f).regs = s.regs := rfl
@[simp] theorem State.updFlow_active (s : State) (f : Flow → Flow) : (s.updFlow f).active = s.active := rfl
@[simp] theorem State.updFlow_shadows (s : State) (f : Flow → Flow) : (s.updFlow f).shadows = s.shadows := rfl
@[simp] theorem State.updFlow_out (s : State) (f : Flow → Flow) : (s.updFlow f).out = s.out := rfl
@[simp] theorem State.updFlow_uncOn (s : State) (f : Flow → Flow) : (s.updFlow f).uncOn = s.uncOn := rfl
@[simp] theorem State.updFlow_dispOn (s : State) (f : Flow → Flow) : (s.updFlow f).dispOn = s.dispOn := rfl
@[simp] theorem State.updFlow_cluOn (s : State) (f : Flow → Flow) : (s.updFlow f).cluOn = s.cluOn := rfl
@[simp] theorem State.updFlow_err (s : State) (f : Flow → Flow) : (s.updFlow f).err = s.err := rfl
@[simp] theorem State.updFlow_dbg (s : State) (f : Flow → Flow) : (s.updFlow f).dbg = s.dbg := rfl
@[simp] theorem State.updFlow_hif (s : State) (f : Flow → Flow) : (s.updFlow f).hif = s.hif := rfl
@[simp] theorem State.updFlow_dram (s : State) (f : Flow → Flow) : (s.updFlow f).dram = s.dram := rfl
@[simp] theorem State.updFlow_l2 (s : State) (f : Flow → Flow) : (s.updFlow f).l2 = s.l2 := rfl
@[simp] theorem State.updFlow_mmu (s : State) (f : Flow → Flow) : (s.updFlow f).mmu = s.mmu := rfl
@[simp] theorem State.updFlow_ctxs (s : State) (f : Flow → Flow) : (s.updFlow f).ctxs = s.ctxs := rfl
@[simp] theorem State.updFlow_queues (s : State) (f : Flow → Flow) : (s.updFlow f).queues = s.queues := rfl
@[simp] theorem State.updFlow_slots (s : State) (f : Flow → Flow) : (s.updFlow f).slots = s.slots := rfl
@[simp] theorem State.updFlow_seqs (s : State) (f : Flow → Flow) : (s.updFlow f).seqs = s.seqs := rfl
@[simp] theorem State.updFlow_cores (s : State) (f : Flow → Flow) : (s.updFlow f).cores = s.cores := rfl
@[simp] theorem State.updFlow_clusters (s : State) (f : Flow → Flow) : (s.updFlow f).clusters = s.clusters := rfl
@[simp] theorem State.updFlow_sched (s : State) (f : Flow → Flow) : (s.updFlow f).sched = s.sched := rfl
@[simp] theorem State.updFlow_disp (s : State) (f : Flow → Flow) : (s.updFlow f).disp = s.disp := rfl
@[simp] theorem State.updFlow_ldm (s : State) (f : Flow → Flow) : (s.updFlow f).ldm = s.ldm := rfl
@[simp] theorem State.updFlow_dp (s : State) (f : Flow → Flow) : (s.updFlow f).dp = s.dp := rfl
@[simp] theorem State.updFlow_gfx (s : State) (f : Flow → Flow) : (s.updFlow f).gfx = s.gfx := rfl
@[simp] theorem State.updFlow_pwr (s : State) (f : Flow → Flow) : (s.updFlow f).pwr = s.pwr := rfl
@[simp] theorem State.updFlow_boot (s : State) (f : Flow → Flow) : (s.updFlow f).boot = s.boot := rfl

/-! ## Reading back -/

/-- A register reads as it was stored. -/
@[simp] theorem State.reg_setReg_self (s : State) (a : Nat) (v : Word) : (s.setReg a v).reg a = v := by
  simp [State.reg, State.setReg]

/-- Storing one register leaves every other alone. -/
theorem State.reg_setReg_ne (s : State) {a b : Nat} (v : Word) (h : b ≠ a) : (s.setReg a v).reg b = s.reg b := by
  simp [State.reg, State.setReg, Sparse.get_set_ne _ _ _ _ h]

/-- An active copy reads as it was stored. -/
@[simp] theorem State.act_setAct_self (s : State) (a : Nat) (v : Word) : (s.setAct a v).act a = v := by
  simp [State.act, State.setAct]

/-- Storing one active copy leaves every other alone. -/
theorem State.act_setAct_ne (s : State) {a b : Nat} (v : Word) (h : b ≠ a) : (s.setAct a v).act b = s.act b := by
  simp [State.act, State.setAct, Sparse.get_set_ne _ _ _ _ h]

@[simp] theorem State.reg_setAct (s : State) (a b : Nat) (v : Word) : (s.setAct a v).reg b = s.reg b := rfl
@[simp] theorem State.act_setReg (s : State) (a b : Nat) (v : Word) : (s.setReg a v).act b = s.act b := rfl
@[simp] theorem State.reg_emit (s : State) (o : Output) (a : Nat) : (s.emit o).reg a = s.reg a := rfl

/-- The map of the registers lists nothing that equals its reset value. -/
theorem State.setReg_canon (s : State) (a : Nat) (v : Word) (h : Sparse.canon regReset s.regs = true) :
    Sparse.canon regReset (s.setReg a v).regs = true :=
  Sparse.canon_set h a v

end Sys2Proof.Machine
end

