-- ==== Sys2Proof/Laws/Fields.lean ====
section
/-! SUPPORT. The laws of bit fields: what a field reads after a field has been stored. -/

namespace Sys2Proof.Machine

theorem testBit_bits (v hi lo i : Nat) : (bits v hi lo).testBit i = (decide (i < hi + 1 - lo) && v.testBit (i + lo)) := by
  simp [bits, Nat.testBit_mod_two_pow, Nat.testBit_div_two_pow]

theorem testBit_setBits (v hi lo w i : Nat) (h : lo ≤ hi) :
    (setBits v hi lo w).testBit i =
      if i < lo then v.testBit i else if i ≤ hi then w.testBit (i - lo) else v.testBit i := by
  have e : setBits v hi lo w
      = 2 ^ lo * (2 ^ (hi + 1 - lo) * (v / 2 ^ (hi + 1)) + w % 2 ^ (hi + 1 - lo)) + v % 2 ^ lo := by
    have hp : 2 ^ (hi + 1) = 2 ^ lo * 2 ^ (hi + 1 - lo) := by rw [← Nat.pow_add]; congr 1; omega
    unfold setBits
    generalize w % 2 ^ (hi + 1 - lo) = W
    generalize hV : v / 2 ^ (hi + 1) = V
    rw [hp]
    ring
  rw [e, Nat.testBit_two_pow_mul_add _ (Nat.mod_lt _ (Nat.two_pow_pos _))]
  split
  · simp [Nat.testBit_mod_two_pow, *]
  · rw [Nat.testBit_two_pow_mul_add _ (Nat.mod_lt _ (Nat.two_pow_pos _))]
    by_cases hi' : i ≤ hi
    · rw [if_pos (by omega), if_pos hi', Nat.testBit_mod_two_pow]
      simp; omega
    · rw [if_neg (by omega), if_neg hi', Nat.testBit_div_two_pow]
      congr 1; omega

theorem setBits_lt {v hi lo w : Nat} (hv : v < 2 ^ 32) (h : lo ≤ hi) (hh : hi ≤ 31) : setBits v hi lo w < 2 ^ 32 := by
  apply Nat.lt_pow_two_of_testBit
  intro i hi'
  rw [testBit_setBits _ _ _ _ _ h, if_neg (by omega), if_neg (by omega)]
  exact Nat.testBit_lt_two_pow (lt_of_lt_of_le hv (Nat.pow_le_pow_right (by omega) hi'))

theorem bits_setBits_self (v hi lo w : Nat) (h : lo ≤ hi) : bits (setBits v hi lo w) hi lo = w % 2 ^ (hi + 1 - lo) := by
  apply Nat.eq_of_testBit_eq
  intro i
  rw [testBit_bits, testBit_setBits _ _ _ _ _ h, Nat.testBit_mod_two_pow]
  by_cases hi' : i < hi + 1 - lo
  · rw [if_neg (by omega), if_pos (by omega)]; simp
  · simp [hi']

theorem bits_setBits_apart (v : Nat) {hi lo hi' lo' : Nat} (w : Nat) (h : lo ≤ hi) (ha : hi' < lo ∨ hi < lo') :
    bits (setBits v hi lo w) hi' lo' = bits v hi' lo' := by
  apply Nat.eq_of_testBit_eq
  intro i
  rw [testBit_bits, testBit_bits]
  by_cases hi' : i < hi' + 1 - lo'
  · rw [testBit_setBits _ _ _ _ _ h]
    rcases ha with ha | ha
    · rw [if_pos (by omega)]
    · rw [if_neg (by omega), if_neg (by omega)]
  · simp [hi']

/-- The word of a register after a field of it has been stored. -/
theorem State.reg_setFld_self (s : State) (a : Nat) {hi lo : Nat} (v : Nat) (h : lo ≤ hi) (hh : hi ≤ 31) :
    ((s.setFld a hi lo v).reg a).toNat = setBits (s.reg a).toNat hi lo v := by
  unfold State.setFld
  rw [State.reg_setReg_self, BitVec.toNat_ofNat, Nat.mod_eq_of_lt (setBits_lt (s.reg a).isLt h hh)]

/-- A field of one register stored leaves every other register alone. -/
theorem State.reg_setFld_ne (s : State) {a b : Nat} (hi lo v : Nat) (h : b ≠ a) : (s.setFld a hi lo v).reg b = s.reg b := by
  unfold State.setFld; exact s.reg_setReg_ne _ h

/-- A field reads as it was stored. -/
theorem State.fld_setFld_self (s : State) (a : Nat) {hi lo : Nat} (v : Nat) (h : lo ≤ hi) (hh : hi ≤ 31) :
    (s.setFld a hi lo v).fld a hi lo = v % 2 ^ (hi + 1 - lo) := by
  unfold State.fld; rw [s.reg_setFld_self a v h hh, bits_setBits_self _ _ _ _ h]

/-- A field stored leaves a field apart from it alone. -/
theorem State.fld_setFld_apart (s : State) (a : Nat) {hi lo hi' lo' : Nat} (v : Nat) (h : lo ≤ hi) (hh : hi ≤ 31)
    (ha : hi' < lo ∨ hi < lo') : (s.setFld a hi lo v).fld a hi' lo' = s.fld a hi' lo' := by
  unfold State.fld; rw [s.reg_setFld_self a v h hh, bits_setBits_apart _ _ h ha]

theorem State.fld_setFld_ne (s : State) {a b : Nat} (hi lo v hi' lo' : Nat) (h : b ≠ a) :
    (s.setFld a hi lo v).fld b hi' lo' = s.fld b hi' lo' := by
  unfold State.fld; rw [s.reg_setFld_ne _ _ _ h]

theorem State.fld_setReg_ne (s : State) {a b : Nat} (v : Word) (hi lo : Nat) (h : b ≠ a) :
    (s.setReg a v).fld b hi lo = s.fld b hi lo := by
  unfold State.fld; rw [s.reg_setReg_ne _ h]

@[simp] theorem State.fld_setReg_self (s : State) (a : Nat) (v : Word) (hi lo : Nat) :
    (s.setReg a v).fld a hi lo = bits v.toNat hi lo := by
  unfold State.fld; rw [s.reg_setReg_self]

/-- A bit that has been set is set. -/
theorem State.flag_setFlag_self (s : State) (a : Nat) {i : Nat} (h : i ≤ 31) : (s.setFlag a i).flag a i = true := by
  unfold State.flag State.setFlag; rw [s.fld_setFld_self a 1 (Nat.le_refl _) h]; simp

/-- A bit that has been cleared is clear. -/
theorem State.flag_clearFlag_self (s : State) (a : Nat) {i : Nat} (h : i ≤ 31) : (s.clearFlag a i).flag a i = false := by
  unfold State.flag State.clearFlag; rw [s.fld_setFld_self a 0 (Nat.le_refl _) h]; simp

theorem State.flag_setFlag_apart (s : State) (a : Nat) {i j : Nat} (h : i ≤ 31) (hj : j ≠ i) :
    (s.setFlag a i).flag a j = s.flag a j := by
  unfold State.flag State.setFlag; rw [s.fld_setFld_apart a 1 (Nat.le_refl _) h (by omega)]

theorem State.flag_clearFlag_apart (s : State) (a : Nat) {i j : Nat} (h : i ≤ 31) (hj : j ≠ i) :
    (s.clearFlag a i).flag a j = s.flag a j := by
  unfold State.flag State.clearFlag; rw [s.fld_setFld_apart a 0 (Nat.le_refl _) h (by omega)]

theorem State.reg_setFlag_ne (s : State) {a b : Nat} (i : Nat) (h : b ≠ a) : (s.setFlag a i).reg b = s.reg b := by
  unfold State.setFlag; exact s.reg_setFld_ne _ _ _ h

theorem State.reg_clearFlag_ne (s : State) {a b : Nat} (i : Nat) (h : b ≠ a) : (s.clearFlag a i).reg b = s.reg b := by
  unfold State.clearFlag; exact s.reg_setFld_ne _ _ _ h

theorem State.fld_of_reg {s t : State} {a : Nat} (h : s.reg a = t.reg a) (hi lo : Nat) : s.fld a hi lo = t.fld a hi lo := by
  unfold State.fld; rw [h]

theorem State.flag_of_reg {s t : State} {a : Nat} (h : s.reg a = t.reg a) (i : Nat) : s.flag a i = t.flag a i := by
  unfold State.flag; rw [State.fld_of_reg h]

end Sys2Proof.Machine
end

