-- ==== Sys2Proof/Laws/Issue.lean ====
section
/-! SUPPORT. What the shared frames of a shader instruction and of a packet do when they reach the effect. -/

namespace Sys2Proof.Machine

/-- An instruction that reaches its effect has it. -/
theorem withInsn_issues {s s' : State} {x : Issue} {cls : Nat} {f : Form} {a : At} (mine : Nat → Bool)
    (k : At → State → State) (h : Issues s x cls f a s') (hm : mine x.i.op.toNat = true) :
    s.withInsn x cls mine f k = .next (k a s') := by
  obtain ⟨g, b, s0, hr, hf, hc, hok, hbad, hrun, hl, rfl, rfl⟩ := h
  have hrow : insnOfRow x.i cls mine f.listed = true := by simp [insnOfRow, hc, hm]
  unfold State.withInsn
  simp only [hrow, hr, hf, Bool.not_true, Bool.false_eq_true, if_false]
  split
  · rename_i he; exact absurd (by simpa [hc, hm] using he) hl
  · rw [if_neg (by rw [hbad]; simp [hc, hok]), if_neg (by rw [hrun]; decide)]

theorem Queue.inProgram_pass_ (u : Queue) (n : Nat) : (u.pass_ n).inProgram = u.inProgram := by
  unfold Queue.pass_ Queue.inProgram
  cases h : u.stream <;> simp

/-- A queue that settling leaves was there before. -/
theorem queue_of_settleQ {s : State} {q : Nat} {u : Queue} (h : (s.settleQ q).queue q = some u) :
    ∃ u', s.queue q = some u' := by
  cases hq : s.queue q with
  | some u' => exact ⟨u', rfl⟩
  | none =>
    have hs : s.settleQ q = s := by unfold State.settleQ; rw [hq]
    rw [hs, hq] at h
    cases h

/-- A packet that runs has its meaning. -/
theorem withPkt_runs {s s' : State} {p : Pkt} {op ptr : Nat} {u : Queue} (sel : Bool) (k : Queue → Nat → State → State)
    (h : PktRuns s p op u ptr s') (hs : sel = true) : s.withPkt p op sel k = .next (k u ptr s') := by
  obtain ⟨u0, hq, hr, hh, hop, ho, hf, hk, -, rfl, rfl⟩ := h
  subst hs
  have hord : (pktOrder p && !(0x41 ≤ op && op ≤ 0x44) && !(s.settleQ p.q.val).skipping p.q.val u0 &&
      !u0.earlierComplete) = false := by
    rcases ho with ho | ho | ho <;> simp [ho]
  unfold State.withPkt
  simp only [hq]
  rw [if_neg (by simp [hr, hop]), if_neg (by rw [hord]; decide)]
  have hsk : (s'.skipping p.q.val u0 && decide (op ≠ 0x44)) = false := by
    rcases hk with hk | hk <;> simp [hk]
  simp only [hf, hh, hsk, Bool.not_true, Bool.false_eq_true, if_false]

/-- A control packet that runs has its meaning. -/
theorem withCtrl_runs {s s' : State} {p : Pkt} {op ptr : Nat} {u : Queue} (sel after : Bool) (k : Queue → Nat → State → State)
    (h : PktRuns s p op u ptr s') (hs : sel = true) (ha : after = false ∨ EarlierDone s p.q.val) :
    s.withCtrl p op sel after k = .next (k u ptr s') := by
  have hw := withPkt_runs sel (fun u ptr s =>
      if u.inProgram && !stepOp op && op ≠ 0x1D then s.refuseStep p.q.val u ptr else k u ptr s) h hs
  obtain ⟨u0, hq, -, -, -, -, -, -, hp, hu, -⟩ := h
  obtain ⟨u1, hq1⟩ := queue_of_settleQ hq
  have hpr : (u.inProgram && !stepOp op && decide (op ≠ 0x1D)) = false := by
    rw [hu, Queue.inProgram_pass_]
    rcases hp with hp | hp <;> simp [hp]
  have hb : (after && u1.earlierRuns && !s.skipping p.q.val u1) = false := by
    rcases ha with ha | ⟨u2, h2, h3⟩
    · simp [ha]
    · rw [hq1] at h2; cases h2; rw [h3]; simp
  unfold State.withCtrl
  simp only [hq1]
  rw [if_neg (by rw [hb]; decide), hw, if_neg (by rw [hpr]; decide)]

/-- A unit packet that runs is checked, then has its meaning or is refused. -/
theorem withUnit_runs {s s' : State} {p : Pkt} {op ptr : Nat} {u : Queue} (sel start : Bool) (kind : UnitKind)
    (check : Queue → State → Nat × State) (k : Queue → Nat → State → State)
    (h : PktRuns s p op u ptr s') (hs : sel = true) (hr : RoomForUnit s p.q.val) :
    s.withUnit p op sel kind check start k = .next
      (if (check u s').1 ≠ 0 then (check u s').2.refuseUnit p.q.val u ptr (check u s').1 (pktOrder p) kind
       else k u ((check u s').2.addUnit p.q.val u ptr (pktOrder p) start kind).1
         ((check u s').2.addUnit p.q.val u ptr (pktOrder p) start kind).2) := by
  obtain ⟨u1, hq1, hlt⟩ := hr
  have hw := withPkt_runs sel (fun u ptr s =>
      if u.inProgram && !stepOp op then s.refuseStep p.q.val u ptr
      else
        let (code, s) := check u s
        if code ≠ 0 then s.refuseUnit p.q.val u ptr code (pktOrder p) kind
        else
          let (key, s) := s.addUnit p.q.val u ptr (pktOrder p) start kind
          k u key s) h hs
  obtain ⟨u0, hq, -, -, -, -, -, -, hp, hu, -⟩ := h
  have hpr : (u.inProgram && !stepOp op) = false := by
    rw [hu, Queue.inProgram_pass_]
    rcases hp with hp | hp <;> simp [hp]
  unfold State.withUnit
  simp only [hq1]
  rw [if_neg (by omega), hw, if_neg (by rw [hpr]; decide)]

end Sys2Proof.Machine
end

