-- ==== Sys2Proof/Laws/Report.lean ====
section
/-! SUPPORT. Everything that an interrupt message, an error record and a record's capture can change: the ERR block, the
pending-bit array, the collector's own state, what is sent or waits to be sent. -/

namespace Sys2Proof.Machine

/-- The registers a report may change: the MSI-X pending bits and the ERR block. -/
def reportReg (a : Nat) : Bool := a == 0x019000 || a == 0x019004 || (decide (0x0C0000 ≤ a) && decide (a < 0x0D0000))

/-- `t` is `s` after reports: interrupt messages and error records. -/
structure Reports (s t : State) : Prop where
  same : ∃ regs err lastMsg merged unsent out, t =
    { s with regs := regs, err := err, hif := { s.hif with lastMsg := lastMsg, merged := merged, unsent := unsent }, out := out }
  reg : ∀ a, reportReg a = false → t.reg a = s.reg a

theorem Reports.refl (s : State) : Reports s s := ⟨⟨_, _, _, _, _, _, rfl⟩, fun _ _ => rfl⟩

theorem Reports.trans {s t u : State} (h : Reports s t) (k : Reports t u) : Reports s u := by
  obtain ⟨⟨r, e, l, m, n, o, rfl⟩, hr⟩ := h
  obtain ⟨⟨r', e', l', m', n', o', rfl⟩, kr⟩ := k
  exact ⟨⟨r', e', l', m', n', o', rfl⟩, fun a ha => (kr a ha).trans (hr a ha)⟩

theorem reports_setReg (s : State) {a : Nat} (v : Word) (h : reportReg a = true) : Reports s (s.setReg a v) :=
  ⟨⟨_, _, _, _, _, _, rfl⟩, fun b hb => s.reg_setReg_ne v (by rintro rfl; simp [h] at hb)⟩

theorem reports_setFld (s : State) {a : Nat} (hi lo v : Nat) (h : reportReg a = true) : Reports s (s.setFld a hi lo v) := by
  unfold State.setFld; exact reports_setReg s _ h

theorem reports_err (s : State) (e : ErrState) : Reports s { s with err := e } := ⟨⟨_, _, _, _, _, _, rfl⟩, fun _ _ => rfl⟩

theorem reports_post (s : State) (o : Output) : Reports s (s.post o) := by
  unfold State.post State.emit
  split
  · exact ⟨⟨_, _, _, _, _, _, rfl⟩, fun _ _ => rfl⟩
  · exact ⟨⟨_, _, _, _, _, _, rfl⟩, fun _ _ => rfl⟩

theorem reports_msixSend (s : State) (vec : Nat) : Reports s (s.msixSend vec) := by
  unfold State.msixSend
  exact Reports.trans (t := { s with hif := { s.hif with
    lastMsg := Sparse.put s.hif.lastMsg vec s.time, merged := Sparse.drop s.hif.merged vec } })
    ⟨⟨_, _, _, _, _, _, rfl⟩, fun _ _ => rfl⟩ (reports_post _ _)

theorem reports_ite {s t u : State} {c : Prop} [Decidable c] (ht : Reports s t) (hu : Reports s u) :
    Reports s (if c then t else u) := by
  split
  · exact ht
  · exact hu

/-- A message that goes out, or waits for the hold-off. -/
theorem reports_msixGo (s : State) (vec : Nat) : Reports s (s.msixGo vec) := by
  unfold State.msixGo
  refine reports_ite ?_ (reports_msixSend s vec)
  exact ⟨⟨_, _, _, _, _, _, rfl⟩, fun _ _ => rfl⟩

/-- A raise of a vector. -/
theorem reports_raiseVec (s : State) {vec : Nat} (h : vec < 64) : Reports s (s.raiseVec vec) := by
  have hp : reportReg (Reg.MSIX_PBA (vec / 32)) = true := by
    have : vec / 32 = 0 ∨ vec / 32 = 1 := by omega
    rcases this with h | h <;> rw [h] <;> decide
  unfold State.raiseVec
  split
  · exact Reports.refl s
  · split
    · unfold State.setFlag; exact reports_setFld s _ _ _ hp
    · exact reports_msixGo s vec

theorem fld_lt (s : State) (a hi lo : Nat) : s.fld a hi lo < 2 ^ (hi + 1 - lo) := Nat.mod_lt _ (Nat.two_pow_pos _)

theorem reports_raiseHif (s : State) (src : Nat) : Reports s (s.raiseHif src) := by
  unfold State.raiseHif
  split
  · refine reports_raiseVec s (lt_of_lt_of_le (fld_lt s _ _ _) ?_)
    rw [show 8 * src + 5 + 1 - 8 * src = 6 by omega]; decide
  · exact Reports.refl s

theorem reports_setRegs (s : State) (ws : List Word) (a : Nat) (h : ∀ i, i < ws.length → reportReg (a + 4 * i) = true) :
    Reports s (s.setRegs a ws) := by
  induction ws generalizing s a with
  | nil => exact Reports.refl s
  | cons w t ih =>
    unfold State.setRegs
    refine Reports.trans (reports_setReg s w (by simpa using h 0 (by simp))) (ih _ _ ?_)
    intro i hi
    have := h (i + 1) (by simpa using hi)
    rwa [show a + 4 + 4 * i = a + 4 * (i + 1) by ring]

theorem recordWords_length (r : ErrRecord) (seq time : Nat) : (recordWords r seq time).length = 8 := rfl

theorem reports_countSat (s : State) {a : Nat} (hi lo n : Nat) (h : reportReg a = true) : Reports s (s.countSat a hi lo n) := by
  unfold State.countSat; exact reports_setFld s _ _ _ h

theorem reports_capture (s : State) (set : Nat) (r : ErrRecord) (seq time : Nat) :
    Reports s (s.capture set (recordWords r seq time)) := by
  unfold State.capture
  split
  · exact reports_countSat s _ _ _ (by decide)
  · refine Reports.trans (by unfold State.setFlag; exact reports_setFld s _ _ _ (by decide)) (reports_setRegs _ _ _ ?_)
    intro i hi
    rw [recordWords_length] at hi
    split <;> simp [reportReg, Reg.ERR_FIRST, Reg.ERR_FATAL] <;> omega

theorem reports_ringWrite (s : State) (r : ErrRecord) (seq time : Nat) :
    Reports s (s.ringWrite (recordWords r seq time)) := by
  unfold State.ringWrite
  refine Reports.trans (reports_setRegs _ _ _ ?_) (reports_setReg _ _ (by decide))
  intro i hi
  rw [recordWords_length] at hi
  have h := Nat.mod_lt (s.reg Reg.ERR_RING_WPTR).toNat (show 32 > 0 by decide)
  generalize (s.reg Reg.ERR_RING_WPTR).toNat % 32 = m at h ⊢
  have e : Reg.ERR_REC (m * 8) + 4 * i = 0x0C1000 + (m * 8) * 4 + 4 * i := rfl
  rw [e]
  unfold reportReg
  rw [Bool.or_eq_true, Bool.and_eq_true, decide_eq_true_eq, decide_eq_true_eq]
  right; constructor <;> omega

theorem reports_dropRecord (s : State) (sev seq : Nat) : Reports s (s.dropRecord sev seq) := by
  unfold State.dropRecord
  exact Reports.trans (reports_countSat s _ _ _ (by decide)) (reports_err _ _)

theorem reports_fatalAction (s : State) (r : ErrRecord) : Reports s (s.fatalAction r) := by
  unfold State.fatalAction
  split
  · exact Reports.refl s
  · split
    · unfold State.setFlag; exact reports_setFld s _ _ _ (by decide)
    · split
      · exact Reports.refl s
      · exact reports_err _ _

/-- The collector takes a record. -/
theorem reports_collect (s : State) (r : ErrRecord) (time : Nat) : Reports s (s.collect r time) := by
  unfold State.collect
  dsimp only
  have h0 : Reports s (s.setReg Reg.ERR_SEQ (BitVec.ofNat 32 ((s.reg Reg.ERR_SEQ).toNat + 1))) :=
    reports_setReg s _ (by decide)
  generalize hs0 : s.setReg Reg.ERR_SEQ (BitVec.ofNat 32 ((s.reg Reg.ERR_SEQ).toNat + 1)) = s0 at h0 ⊢
  have h1 : Reports s (if s0.fld Reg.ERR_CTRL 1 0 ≤ r.sev then s0.capture 0 (recordWords r (s.reg Reg.ERR_SEQ).toNat time) else s0) :=
    reports_ite (h0.trans (reports_capture _ _ _ _ _)) h0
  generalize hs1 : (if s0.fld Reg.ERR_CTRL 1 0 ≤ r.sev then s0.capture 0 (recordWords r (s.reg Reg.ERR_SEQ).toNat time) else s0) = s1 at h1 ⊢
  have h2 : Reports s (if r.sev = 3 then s1.capture 1 (recordWords r (s.reg Reg.ERR_SEQ).toNat time) else s1) :=
    reports_ite (h1.trans (reports_capture _ _ _ _ _)) h1
  generalize (if r.sev = 3 then s1.capture 1 (recordWords r (s.reg Reg.ERR_SEQ).toNat time) else s1) = s2 at h2 ⊢
  exact Reports.trans (Reports.trans (reports_ite (h2.trans (reports_ringWrite _ _ _ _)) (h2.trans (reports_dropRecord _ _ _)))
    (reports_fatalAction _ _)) (reports_raiseHif _ _)

/-- A detected error. -/
theorem reports_record (s : State) (r : ErrRecord) : Reports s (s.record r) := by
  unfold State.record
  split
  · exact reports_collect _ _ _
  · split
    · exact reports_err _ _
    · exact reports_err _ _

theorem reports_rec0 (s : State) (code unit sev lo hi : Nat) : Reports s (s.rec0 code unit sev lo hi) := reports_record _ _

theorem reports_recC (s : State) (code unit sev ctx lo hi : Nat) : Reports s (s.recC code unit sev ctx lo hi) :=
  reports_record _ _

/-- The report of dropped records. -/
theorem reports_reportDrops (s : State) : Reports s s.reportDrops := by
  unfold State.reportDrops
  refine reports_ite ?_ (Reports.refl s)
  dsimp only
  have h0 : Reports s { s.setReg Reg.ERR_SEQ (BitVec.ofNat 32 ((s.reg Reg.ERR_SEQ).toNat + 1)) with
      err := { (s.setReg Reg.ERR_SEQ (BitVec.ofNat 32 ((s.reg Reg.ERR_SEQ).toNat + 1))).err with dropCount := 0, dropFirst := 0 } } :=
    Reports.trans (reports_setReg s (a := Reg.ERR_SEQ) _ (by decide)) (reports_err _ _)
  generalize { s.setReg Reg.ERR_SEQ (BitVec.ofNat 32 ((s.reg Reg.ERR_SEQ).toNat + 1)) with
      err := { (s.setReg Reg.ERR_SEQ (BitVec.ofNat 32 ((s.reg Reg.ERR_SEQ).toNat + 1))).err with dropCount := 0, dropFirst := 0 } } = s0 at h0 ⊢
  exact Reports.trans (Reports.trans (reports_ite (h0.trans (reports_capture _ _ _ _ _)) h0) (reports_ringWrite _ _ _ _))
    (reports_raiseHif _ _)

theorem reports_collectHeld (s : State) : Reports s s.collectHeld := by
  have fold1 : ∀ (l : List HeldRecord) (s : State), Reports s (l.foldl (fun s r => s.collect r.rec_ r.time) s) := by
    intro l
    induction l with
    | nil => exact fun s => Reports.refl s
    | cons r t ih => exact fun s => Reports.trans (reports_collect s _ _) (ih _)
  have fold2 : ∀ (l : List Nat) (s : State), Reports s (l.foldl (fun s sev =>
      ((s.setReg Reg.ERR_SEQ (BitVec.ofNat 32 ((s.reg Reg.ERR_SEQ).toNat + 1))).dropRecord sev (s.reg Reg.ERR_SEQ).toNat).raiseHif 1) s) := by
    intro l
    induction l with
    | nil => exact fun s => Reports.refl s
    | cons r t ih =>
      exact fun s => Reports.trans (Reports.trans (Reports.trans (reports_setReg s (a := Reg.ERR_SEQ) _ (by decide)) (reports_dropRecord _ _ _))
        (reports_raiseHif _ _)) (ih _)
  unfold State.collectHeld
  exact Reports.trans (Reports.trans (Reports.trans (reports_err s _) (fold1 _ _)) (fold2 _ _)) (reports_reportDrops _)

end Sys2Proof.Machine
end

