-- ==== Sys2Proof/Laws/Memory.lean ====
section
/-! SUPPORT. The memories keep their canonical form: what counting, recording and reading leave of them, and that every operation that
writes device memory keeps `Memory.wf`. -/

namespace Sys2Proof.Machine

/-- What the canonical form is about: the bytes of DRAM, those the L2 holds dirty, the marks of code words. -/
def State.mem (s : State) : List Host.Cell × List Host.Cell × List (Nat × CwMark) := (s.dram.bytes, s.l2.dirty, s.dram.marks)

/-- The canonical form depends on the memories alone. -/
theorem Memory.wf_of_mem {s t : State} (h : t.mem = s.mem) (w : Memory.wf s = true) : Memory.wf t = true := by
  simp only [State.mem, Prod.mk.injEq] at h
  simpa only [Memory.wf, h] using w

theorem mem_ite {c : Prop} [Decidable c] {t u : State} {m : List Host.Cell × List Host.Cell × List (Nat × CwMark)} (ht : t.mem = m)
    (hu : u.mem = m) : (if c then t else u).mem = m := by split <;> assumption

theorem wf_ite {c : Prop} [Decidable c] {t u : State} (ht : Memory.wf t = true) (hu : Memory.wf u = true) :
    Memory.wf (if c then t else u) = true := by split <;> assumption

theorem mem_lastCorr (s : State) (l : List (Nat × Nat)) : { s with dram := { s.dram with lastCorr := l } }.mem = s.mem := rfl

theorem mem_lastScrub (s : State) (l : List (Nat × Nat)) : { s with dram := { s.dram with lastScrub := l } }.mem = s.mem := rfl

theorem mem_lines (s : State) (l : List (Nat × Bool)) : { s with l2 := { s.l2 with lines := l } }.mem = s.mem := rfl

theorem mem_poison (s : State) (l p : List (Nat × Bool)) : { s with l2 := { s.l2 with lines := l, dirtyPoison := p } }.mem = s.mem := rfl

theorem mem_draws (s : State) (n : Nat) : { s with draws := n }.mem = s.mem := rfl

theorem mem_setReg (s : State) (a : Nat) (v : Word) : (s.setReg a v).mem = s.mem := rfl

theorem mem_setFld (s : State) (a hi lo v : Nat) : (s.setFld a hi lo v).mem = s.mem := by unfold State.setFld; exact mem_setReg ..

theorem mem_count64 (s : State) (a n : Nat) : (s.count64 a n).mem = s.mem := by
  unfold State.count64 State.setReg64
  exact (mem_setReg ..).trans (mem_setReg ..)

theorem mem_countSat (s : State) (a hi lo n : Nat) : (s.countSat a hi lo n).mem = s.mem := by unfold State.countSat; exact mem_setFld ..

theorem mem_reports {s t : State} (h : Reports s t) : t.mem = s.mem := by
  obtain ⟨⟨r, e, l, m, n, o, rfl⟩, -⟩ := h
  rfl

theorem mem_rec0 (s : State) (code unit sev lo hi : Nat) : (s.rec0 code unit sev lo hi).mem = s.mem := mem_reports (reports_rec0 ..)

theorem mem_drawBool (s : State) : s.drawBool.2.mem = s.mem := rfl

theorem mem_maxFld (s : State) (a hi lo n : Nat) : (s.maxFld a hi lo n).mem = s.mem := by unfold State.maxFld; exact mem_setFld ..

theorem mem_noteInflight (s : State) (ch : Nat) : (s.noteInflight ch).mem = s.mem := by
  unfold State.noteInflight State.drawNat
  exact (mem_maxFld ..).trans (mem_setFld ..)

theorem mem_countBytes (s : State) (a n : Nat) : (s.countBytes a n).mem = s.mem := by
  unfold State.countBytes
  have h : (if s.eccAt a then s.drawNat else (0, s)).2.mem = s.mem := by split <;> rfl
  generalize (if s.eccAt a then s.drawNat else (0, s)) = d at h ⊢
  exact (mem_noteInflight ..).trans ((mem_count64 ..).trans h)

theorem mem_correctCw (s : State) (n : Nat) : (s.correctCw n).mem = s.mem := by
  unfold State.correctCw
  refine mem_ite ?_ ?_
  · exact (mem_rec0 ..).trans ((mem_lastCorr ..).trans ((mem_countSat ..).trans (mem_countSat ..)))
  · exact (mem_countSat ..).trans (mem_countSat ..)

theorem mem_readCw (s : State) (n : Nat) : (s.readCw n).2.mem = s.mem := by
  unfold State.readCw
  simp only []
  split
  · exact mem_countSat ..
  split
  · exact (mem_rec0 ..).trans (mem_countSat ..)
  split
  · exact (mem_rec0 ..).trans (mem_countSat ..)
  split
  · exact mem_correctCw ..
  · rfl

/-- A fold whose step keeps the memories keeps them. -/
theorem mem_foldl {α β : Type} (f : β × State → α → β × State) (h : ∀ x a, (f x a).2.mem = x.2.mem) (l : List α) (x : β × State) :
    (l.foldl f x).2.mem = x.2.mem := by
  induction l generalizing x with
  | nil => rfl
  | cons a l ih => exact (ih _).trans (h _ _)

theorem mem_readLine (s : State) (line : Nat) : (s.readLine line).2.mem = s.mem := by
  unfold State.readLine
  simp only []
  split
  · refine (mem_foldl _ ?_ _ _).trans (mem_countBytes ..)
    intro x i
    exact mem_readCw ..
  · exact mem_countBytes ..

theorem mem_lineError (s : State) (line : Nat) (e : LineError) : (s.lineError line e).mem = s.mem := by
  unfold State.lineError
  split
  · rfl
  · exact (mem_rec0 ..).trans (mem_countSat ..)
  · exact mem_ite ((mem_rec0 ..).trans ((mem_countSat ..).trans (mem_lines ..))) (mem_poison ..)
  · exact (mem_rec0 ..).trans (mem_countSat ..)
  · exact (mem_rec0 ..).trans (mem_countSat ..)

theorem mem_errs (s : State) (l : List (Nat × LineError)) : { s with l2 := { s.l2 with errs := l } }.mem = s.mem := rfl

theorem mem_lineCheck (s : State) (line : Nat) : (s.lineCheck line).mem = s.mem := by
  unfold State.lineCheck
  split
  · rfl
  · exact (mem_lineError ..).trans (mem_errs ..)

theorem mem_countHit (s : State) (line : Nat) (hit : Bool) : (s.countHit line hit).mem = s.mem := by
  unfold State.countHit; exact mem_count64 ..

/-- Looking for a line in the L2 changes no memory: what it may lose is clean. -/
theorem mem_l2Held (s : State) (line : Nat) : (s.l2Held line).2.mem = s.mem := by
  unfold State.l2Held
  dsimp only
  have h := mem_lineCheck s line
  generalize s.lineCheck line = u at h ⊢
  split
  · have hd := (mem_drawBool u).trans h
    generalize u.drawBool = d at hd ⊢
    obtain ⟨b, v⟩ := d
    dsimp only at hd ⊢
    split
    · exact (mem_countHit ..).trans hd
    · split
      · exact (mem_countHit ..).trans ((mem_lines ..).trans hd)
      · exact (mem_countHit ..).trans hd
  · exact (mem_countHit ..).trans h

theorem mem_l2Look (s : State) (cls line : Nat) (noAlloc : Bool) : (s.l2Look cls line noAlloc).2.mem = s.mem := by
  unfold State.l2Look
  have h := mem_l2Held s line
  generalize s.l2Held line = d at h ⊢
  obtain ⟨_ | poison, u⟩ := d
  · have hr := (mem_readLine u line).trans h
    dsimp only
    generalize u.readLine line = r at hr ⊢
    obtain ⟨b, v⟩ := r
    dsimp only
    split <;> exact hr
  · exact h

/-- A read changes no memory. -/
theorem mem_devRead (s : State) (cls a n : Nat) (noAlloc : Bool) : (s.devRead cls a n noAlloc).2.2.mem = s.mem := by
  unfold State.devRead
  refine (mem_draws _ _).trans (mem_foldl _ ?_ _ _)
  intro x l
  exact mem_l2Look ..

theorem wf_devRead {s : State} (w : Memory.wf s = true) (cls a n : Nat) (noAlloc : Bool) :
    Memory.wf (s.devRead cls a n noAlloc).2.2 = true := Memory.wf_of_mem (mem_devRead ..) w

/-- A fold whose step keeps the canonical form keeps it. -/
theorem wf_foldl {α : Type} (f : State → α → State) (h : ∀ s a, Memory.wf s = true → Memory.wf (f s a) = true) (l : List α) {s : State}
    (w : Memory.wf s = true) : Memory.wf (l.foldl f s) = true := by
  induction l generalizing s with
  | nil => exact w
  | cons a l ih => exact ih (h _ _ w)

theorem wf_putCells {s : State} (w : Memory.wf s = true) (cs : List Host.Cell) : Memory.wf (s.putCells cs) = true := by
  simp only [Memory.wf, State.putCells, Bool.and_eq_true] at w ⊢
  exact ⟨⟨Sparse.sorted_merge w.1.1 cs, w.1.2⟩, w.2⟩

theorem wf_setMark {s : State} (w : Memory.wf s = true) (n : Nat) (m : CwMark) : Memory.wf (s.setMark n m) = true := by
  simp only [Memory.wf, State.setMark, Bool.and_eq_true] at w ⊢
  exact ⟨w.1, Sparse.canon_set (d := fun _ => CwMark.clear) w.2 n m⟩

theorem wf_writeCw {s : State} (w : Memory.wf s = true) (n : Nat) (cs : List Host.Cell) : Memory.wf (s.writeCw n cs) = true := by
  unfold State.writeCw
  simp only []
  split
  · exact wf_setMark (wf_putCells w _) _ _
  split
  · exact wf_putCells w _
  split
  · exact wf_setMark (wf_putCells w _) _ _
  split
  · exact Memory.wf_of_mem ((mem_rec0 ..).trans (mem_countSat ..)) (wf_setMark (wf_putCells w _) _ _)
  split
  · exact wf_setMark (wf_putCells (Memory.wf_of_mem (mem_correctCw ..) w) _) _ _
  · exact wf_putCells w _

theorem wf_dramWrite {s : State} (w : Memory.wf s = true) (a : Nat) (bs : List (Option Byte)) : Memory.wf (s.dramWrite a bs) = true := by
  unfold State.dramWrite
  refine wf_foldl _ (fun s n w => ?_) _ (Memory.wf_of_mem (mem_countBytes ..) w)
  simp only []
  split
  · exact w
  split
  · exact wf_writeCw w _ _
  · exact wf_putCells w _

/-- Bytes into the dirty data of the L2. -/
theorem wf_lineMerge {s : State} (w : Memory.wf s = true) (line : Nat) (part : List Host.Cell) (poison : Bool) :
    Memory.wf (s.lineMerge line part poison) = true := by
  simp only [Memory.wf, State.lineMerge, Bool.and_eq_true] at w ⊢
  exact ⟨⟨w.1.1, Sparse.sorted_merge w.1.2 part⟩, w.2⟩

theorem mem_fillLine (s : State) (line : Nat) (part : List Host.Cell) : (s.fillLine line part).2.mem = s.mem := by
  unfold State.fillLine
  split
  · rfl
  · dsimp only
    split
    · refine (mem_foldl _ ?_ _ _).trans (mem_countBytes ..)
      intro x i
      split
      · rfl
      · exact mem_readCw ..
    · exact mem_countBytes ..

theorem mem_dutyNote (s : State) (a : Nat) (bs : List (Option Byte)) : (s.dutyNote a bs).mem = s.mem := by
  unfold State.dutyNote
  dsimp only
  split <;> rfl

/-- A write of one line keeps the canonical form. -/
theorem wf_lineWrite {s : State} (w : Memory.wf s = true) (cls line : Nat) (part : List Host.Cell) (noAlloc : Bool) :
    Memory.wf (s.lineWrite cls line part noAlloc) = true := by
  unfold State.lineWrite
  have h := Memory.wf_of_mem (mem_l2Held s line) w
  generalize s.l2Held line = d at h ⊢
  obtain ⟨_ | poison, u⟩ := d
  · dsimp only at h ⊢
    split
    · exact wf_dramWrite h _ _
    · have hf := Memory.wf_of_mem (mem_fillLine u line part) h
      generalize u.fillLine line part = r at hf ⊢
      exact wf_lineMerge hf _ _ _
  · exact wf_lineMerge h _ _ _

/-- A write to device memory keeps the canonical form. -/
theorem wf_devWrite {s : State} (w : Memory.wf s = true) (cls a : Nat) (bs : List (Option Byte)) (noAlloc : Bool) :
    Memory.wf (s.devWrite cls a bs noAlloc) = true := by
  unfold State.devWrite
  refine wf_foldl _ (fun s n w => ?_) _ (Memory.wf_of_mem (mem_dutyNote ..) w)
  simp only []
  split
  · exact w
  · exact wf_lineWrite w _ _ _ _

theorem wf_undirty {s : State} (w : Memory.wf s = true) (f : Host.Cell → Bool) (l p : List (Nat × Bool))
    (e : List (Nat × LineError)) :
    Memory.wf { s with l2 := { s.l2 with lines := l, dirty := s.l2.dirty.filter f, dirtyPoison := p, errs := e } } = true := by
  simp only [Memory.wf, Bool.and_eq_true] at w ⊢
  exact ⟨⟨w.1.1, Sparse.sorted_filter f w.1.2⟩, w.2⟩

theorem wf_writeBack {s : State} (w : Memory.wf s = true) (line : Nat) : Memory.wf (s.writeBack line) = true := by
  unfold State.writeBack
  refine wf_ite w ?_
  dsimp only
  have wc := Memory.wf_of_mem (mem_lineCheck s line) w
  generalize s.lineCheck line = v at wc ⊢
  have wu := wf_dramWrite wc (line * 128) (v.wholeLine line)
  generalize v.dramWrite (line * 128) (v.wholeLine line) = u at wu ⊢
  have w1 : ∀ p, Memory.wf { u with l2 := { u.l2 with dirty := Sparse.dropRange u.l2.dirty (line * 128) 128, dirtyPoison := p } } = true :=
    fun p => wf_undirty wu _ u.l2.lines p u.l2.errs
  refine wf_ite (wf_ite (wf_foldl _ (fun s i w => wf_setMark w _ _) _ (w1 _)) ?_) (w1 u.l2.dirtyPoison)
  exact Memory.wf_of_mem ((mem_rec0 ..).trans (mem_countSat ..)) (w1 _)

theorem wf_flushLines {s : State} (w : Memory.wf s = true) (f : Nat → Bool) : Memory.wf (s.flushLines f) = true :=
  wf_foldl _ (fun _ _ w => wf_writeBack w _) _ w

theorem wf_dropLines {s : State} (w : Memory.wf s = true) (f : Nat → Bool) : Memory.wf (s.dropLines f) = true :=
  wf_undirty w _ _ _ _

theorem wf_zeroLine {s : State} (w : Memory.wf s = true) (line : Nat) : Memory.wf (s.zeroLine line) = true := by
  unfold State.zeroLine
  have h := fun b => Memory.wf_of_mem (mem_countHit s line b) w
  refine wf_ite (wf_dramWrite (h _) _ _) (wf_lineMerge (Memory.wf_of_mem (mem_errs ..) (h _)) _ _ _)

/-- Every maintenance operation of the L2 keeps the canonical form. -/
theorem wf_l2Do {s : State} (w : Memory.wf s = true) (op a n : Nat) : Memory.wf (s.l2Do op a n) = true := by
  unfold State.l2Do
  split
  · exact wf_flushLines w _
  · exact wf_dropLines (wf_flushLines w _) _
  · exact wf_flushLines w _
  · exact wf_dropLines (wf_flushLines w _) _
  · exact wf_dropLines w _
  · exact wf_foldl _ (fun _ _ w => wf_zeroLine w _) _ w
  · exact w

theorem wf_lineError {s : State} (w : Memory.wf s = true) (line : Nat) (e : LineError) : Memory.wf (s.lineError line e) = true :=
  Memory.wf_of_mem (mem_lineError ..) w

theorem wf_remapCopy {s : State} (w : Memory.wf s = true) (line : Nat) : Memory.wf (s.remapCopy line) = true := by
  unfold State.remapCopy
  refine wf_foldl _ (fun s i w => ?_) _ (Memory.wf_of_mem (mem_countBytes ..) w)
  simp only []
  split
  · exact w
  split
  · exact Memory.wf_of_mem ((mem_rec0 ..).trans (mem_countSat ..)) (wf_setMark w _ _)
  · exact wf_setMark w _ _

theorem wf_upset {s : State} (w : Memory.wf s = true) (line : Nat) (es : List (Fin 4 × Bool)) : Memory.wf (s.upset line es) = true := by
  unfold State.upset
  refine wf_foldl _ (fun s e w => ?_) _ w
  simp only []
  split <;> exact wf_setMark w _ _

theorem wf_scrubCw {s : State} (w : Memory.wf s = true) (n : Nat) : Memory.wf (s.scrubCw n) = true := by
  unfold State.scrubCw
  have w1 : Memory.wf (((s.setMark n ⟨true, false, false, false⟩).countBytes (n * 32) 32).countSat
      (Reg.DMC_CH_CORR (channelOf (n * 32))) 31 0 1) = true :=
    Memory.wf_of_mem ((mem_countSat ..).trans (mem_countBytes ..)) (wf_setMark w _ _)
  refine wf_ite w (wf_ite (Memory.wf_of_mem (mem_rec0 ..) w) (wf_ite (wf_ite ?_ w1) w))
  exact Memory.wf_of_mem ((mem_rec0 ..).trans (mem_lastScrub ..)) w1

/-! ## A map commit moves the data of the regions that stay (R478) -/

theorem sorted_append {α : Type} {m n : List (Nat × α)} (hm : Sparse.sorted m = true) (hn : Sparse.sorted n = true)
    (h : ∀ x ∈ m, ∀ y ∈ n, x.1 < y.1) : Sparse.sorted (m ++ n) = true := by
  induction m with
  | nil => exact hn
  | cons a m ih =>
    refine Sparse.sorted_cons (ih (Sparse.sorted_tail hm) (fun x hx => h x (List.mem_cons_of_mem _ hx))) (fun y hy => ?_)
    rcases List.mem_append.1 hy with hy | hy
    · exact Sparse.sorted_lt hm y hy
    · exact h a List.mem_cons_self y hy

theorem sorted_shift {α : Type} {m : List (Nat × α)} (hm : Sparse.sorted m = true) (lo d : Nat) (h : ∀ x ∈ m, lo ≤ x.1) :
    Sparse.sorted (m.map (fun x => (x.1 - lo + d, x.2))) = true := by
  induction m with
  | nil => rfl
  | cons a m ih =>
    refine Sparse.sorted_cons (ih (Sparse.sorted_tail hm) (fun x hx => h x (List.mem_cons_of_mem _ hx))) (fun y hy => ?_)
    obtain ⟨x, hx, rfl⟩ := List.mem_map.1 hy
    have := Sparse.sorted_lt hm x hx
    have := h a List.mem_cons_self
    simp only
    omega

/-- What the placed regions contribute in turn is sorted where each contributes sorted keys of its own place. -/
theorem sorted_placed {α : Type} (f : Placed → List (Nat × α)) (unit : Nat) (hs : ∀ p, Sparse.sorted (f p) = true)
    (hb : ∀ p, ∀ x ∈ f p, p.base / unit ≤ x.1 ∧ x.1 < p.base / unit + p.r.dataBytes / unit) (new : List Region) (n raw base : Nat) :
    Sparse.sorted ((placeMap new n raw base).flatMap f) = true ∧ ∀ x ∈ (placeMap new n raw base).flatMap f, base / unit ≤ x.1 := by
  induction new generalizing n raw base with
  | nil => exact ⟨rfl, fun x hx => nomatch hx⟩
  | cons r t ih =>
    unfold placeMap
    split
    · exact ⟨rfl, fun x hx => nomatch hx⟩
    · obtain ⟨h1, h2⟩ := ih (n + 1) (raw + r.raw) (base + r.dataBytes)
      have hd : base / unit + r.dataBytes / unit ≤ (base + r.dataBytes) / unit := Nat.div_add_div_le_add_div ..
      refine ⟨sorted_append (hs _) h1 (fun x hx y hy => ?_), fun x hx => ?_⟩
      · have := (hb _ x hx).2
        have := h2 y hy
        simp only at *
        omega
      · rcases List.mem_append.1 hx with hx | hx
        · exact (hb _ x hx).1
        · exact Nat.le_trans (Nat.le_trans (Nat.le_add_right ..) hd) (h2 x hx)

/-- What a kept region contributes to the new map. -/
def moved {α : Type} (old : List Placed) (unit : Nat) (m : List (Nat × α)) (p : Placed) : List (Nat × α) :=
  match p.kept old with
  | some o => (Sparse.range m (o.base / unit) (o.r.dataBytes / unit)).map (fun x => (x.1 - o.base / unit + p.base / unit, x.2))
  | none => []

theorem mem_range {α : Type} {m : List (Nat × α)} {lo n : Nat} {x : Nat × α} (h : x ∈ Sparse.range m lo n) :
    x ∈ m ∧ lo ≤ x.1 ∧ x.1 < lo + n := by simpa [Sparse.range] using h

theorem sorted_moved {α : Type} {m : List (Nat × α)} (hm : Sparse.sorted m = true) (old : List Placed) (unit : Nat) (new : List Region) :
    Sparse.sorted ((placeMap new 0 0 0).flatMap (moved old unit m)) = true := by
  refine (sorted_placed (moved old unit m) unit (fun p => ?_) (fun p x hx => ?_) new 0 0 0).1
  · unfold moved
    split
    · exact sorted_shift (Sparse.sorted_filter _ hm) _ _ (fun x hx => (mem_range hx).2.1)
    · rfl
  · unfold moved at hx
    split at hx
    · rename_i o ho
      have hr : o.r = p.r := by
        have := List.find?_some ho
        simp only [Bool.and_eq_true, beq_iff_eq] at this
        exact this.2
      obtain ⟨y, hy, rfl⟩ := List.mem_map.1 hx
      have := (mem_range hy).2
      simp only [← hr]
      omega
    · exact nomatch hx

theorem mem_foldl_setReg (l : List Nat) (f : Nat → Nat) (g : Nat → Word) (s : State) :
    (l.foldl (fun s r => s.setReg (f r) (g r)) s).mem = s.mem := by
  induction l generalizing s with
  | nil => rfl
  | cons a l ih => exact (ih _).trans (mem_setReg ..)

/-- A map commit keeps the canonical form. -/
theorem wf_mapApply {s : State} (w : Memory.wf s = true) (new : List Region) : Memory.wf (s.mapApply new) = true := by
  unfold State.mapApply
  have wu := wf_l2Do w 2 0 0
  generalize s.l2Do 2 0 0 = u at wu ⊢
  have hv : Memory.wf { u with dram := { u.dram with
      bytes := (placeMap new 0 0 0).flatMap (moved (placeMap s.dram.map 0 0 0) 1 u.dram.bytes),
      marks := (placeMap new 0 0 0).flatMap (moved (placeMap s.dram.map 0 0 0) 32 u.dram.marks), map := new } } = true := by
    simp only [Memory.wf, Sparse.canon, Bool.and_eq_true, List.all_eq_true, decide_eq_true_eq] at wu ⊢
    refine ⟨⟨sorted_moved wu.1.1 _ _ _, wu.1.2⟩, sorted_moved wu.2.1 _ _ _, fun x hx => ?_⟩
    obtain ⟨p, -, hp⟩ := List.mem_flatMap.1 hx
    unfold moved at hp
    split at hp
    · obtain ⟨y, hy, rfl⟩ := List.mem_map.1 hp
      exact wu.2.2 y (mem_range hy).1
    · exact nomatch hp
  refine Memory.wf_of_mem ((mem_setFld ..).trans ?_) hv
  unfold State.setReg64
  exact (mem_setReg ..).trans ((mem_setReg ..).trans (mem_foldl_setReg _ Reg.DMC_RGN_BASE _ _))

/-- The machine after reset holds the memories in canonical form. -/
theorem wf_reset : Memory.wf State.reset = true := by decide

end Sys2Proof.Machine
end

