-- ==== Sys2Proof/Tests/Slice0.lean ====
section
/-! SUPPORT. The model's own tests: ill-formed commands, a few results that the spec gives as numbers, and one witness or more for each
statement with hypotheses: a state and operands that meet them together. -/

namespace Sys2Proof.Tests

open Sys2Proof Sys2Proof.Machine

/-! ## Small states -/

/-- The block while it runs: every domain on, the start finished. -/
def up : State := { State.reset with regs := [(Reg.GLB_BOOT, 1)], uncOn := true, dispOn := true, cluOn := true }

/-- `up` with registers beside it. -/
def upWith (l : List (Nat × Word)) : State := { up with regs := (Reg.GLB_BOOT, 1) :: l }

def xl : Xlat := ⟨0, 0, 0, false, false, 0, 0, 0, 0, 0, 0, 0⟩
def ctx0 : Ctx := ⟨0, 0, 0, 0, false, xl, [], [], [], 0⟩

/-- A TLB entry through which a requester reads host memory, whose bytes the host brings. -/
def page (t : TlbId) : TlbEntry := ⟨t, 0, false, 0, 65536, 2 ^ 40, .host, true, true, true, 3, false⟩

def plainBuf : GrdBuf := ⟨0, 1, 1, 0, 0⟩
def ringBuf : GrdBuf := ⟨1, 2, 1, 2, 1⟩
def kern : Kernel := ⟨0, 0, 1, 1, 1, 32, 1, 1, 32, 0, 0, 0, 0, 0, 1, false, 0, 0, [plainBuf, ringBuf], 0, 0, 0, 0, 0⟩
def block0 : Block := ⟨0, 1, 0, 0, kern, 1, [], [], [], none⟩
def group0 : Group := ⟨0, 0, 0, 0xFFFFFFFF, 0xFFFFFFFF, [], [], [], .ready, [], none, none⟩
def scratch0 : Scratch := ⟨0, 1, 0, false, 0, 4, [plainBuf, ringBuf], [], []⟩

/-- One group with 32 live lanes on core 0. -/
def shader : State := { up with
  ctxs := [(0, ctx0)], mmu := { up.mmu with tlb := [page (.cluster 0)] },
  cores := [(0, { Core.empty with blocks := [(0, block0)], groups := [(0, group0)] })],
  clusters := [(0, { Cluster.empty with scratch := [scratch0] })] }

def insn (cls : BitVec 4) (op : BitVec 8) : Insn := ⟨false, false, 7, false, cls, op, 0, 0, 0, 0, 0, 0, 7, 0, false, 0, 0, 0, 0⟩
def long (cls : BitVec 4) (op : BitVec 8) : Insn := { insn cls op with long := true }
def issueA (i : Insn) : Issue := ⟨0, 0, false, false, i⟩
def issueB (i : Insn) : Issue := ⟨0, 0, true, false, i⟩

/-- Where an instruction of the one group of `shader` has its effect, and the state there. -/
def here (x : Issue) : At := ⟨0, 0, { group0 with pc := x.i.size }, block0, 0, x.i⟩
def after (x : Issue) (f : Form) : State :=
  ((shader.fetchInsn 0 0 0 4 (leBytes x.i.size x.i.word)).2.issued x f).putGroup 0 0 (here x).g

/-- What makes an instruction reach its effect on `shader`. -/
theorem issues_here (x : Issue) (cls : Nat) (f : Form) (hc : x.core = 0) (hs : x.slot = 0) (hz : x.i.size % 2 ^ 48 = x.i.size)
    (hr : shader.ready x f = some (group0, block0))
    (hf : (shader.fetchInsn 0 0 0 4 (leBytes x.i.size x.i.word)).1 = .agree) (hcls : x.i.cls.toNat = cls) (hok : f.ok x.i = true)
    (hb : f.bad (after x f) (here x) = false)
    (hm : (f.runs x.i ++ f.more (after x f) (here x)).any (fun r => 32 < r.1 + r.2) = false)
    (hl : (if f.always then group0.lanes else group0.run x.i) ≠ []) : Issues shader x cls f (here x) (after x f) := by
  refine ⟨group0, block0, _, hr, Prod.ext (by rw [hc]; exact hf) rfl, hcls, hok, hb, hm, hl, ?_, ?_⟩
  · simp only [here, hc, hs, group0, Nat.zero_add, hz]; rfl
  · simp only [after, here, hc]; rfl


/-! ## Queues and engines -/

def q0 : Queue := ⟨0, false, 0, 12, 0, 0, false, 0, 1, 0, [], none, none, [], none, 0, 0, 0, 0, 0, 0, 0, 0, 0, 0, 0, none, 0, []⟩
def qregs : List (Nat × Word) :=
  [(Reg.CPR_CTX_CTRL 0, 1), (Reg.CPR_CTX_STATUS 0, 1), (Reg.CPR_Q_CTRL 0, 1), (Reg.CPR_Q_STATUS 0, 1), (Reg.DB_WPTR 0, 4096)]

/-- Queue 0 of context 0 with packets waiting in a ring of host memory. -/
def queued : State := { upWith qregs with
  ctxs := [(0, ctx0)], mmu := { up.mmu with tlb := [page .command] }, queues := [(0, q0)] }

/-- A packet of NBODY words. -/
def pkt (op : Nat) (body : List Word) : Pkt := ⟨0, BitVec.ofNat 32 (op + body.length * 256), body⟩

/-- The state once a packet of `queued` has been fetched. -/
def fetched (p : Pkt) : State := (queued.fetchPkt q0 p).2

theorem runs_in {s : State} {p : Pkt} {op : Nat} (h0 : s.settleQ 0 = s) (hs : s.queue 0 = some q0) (hc : s.qReady 0 q0 = true)
    (hq : p.q = 0) (h1 : hdrOk p = true) (h2 : pktOp p = op) (h3 : pktOrder p = false)
    (h4 : (s.fetchPkt q0 p).1 = .ok) (h5 : (s.fetchPkt q0 p).2.skipping 0 q0 = false) :
    PktRuns s p op (q0.pass_ (pktLen p)) 0 (s.fetchPkt q0 p).2 := by
  unfold PktRuns
  simp only [hq]
  rw [show ((0 : Fin 64).val) = 0 from rfl, h0]
  exact ⟨q0, hs, hc, h1, h2, .inl h3, Prod.ext h4 rfl, .inl h5, .inl (by decide), rfl, rfl⟩

theorem runs_here (p : Pkt) (op : Nat) (hq : p.q = 0) (h1 : hdrOk p = true) (h2 : pktOp p = op) (h3 : pktOrder p = false)
    (h4 : (queued.fetchPkt q0 p).1 = .ok) (h5 : (fetched p).skipping 0 q0 = false) :
    PktRuns queued p op (q0.pass_ (pktLen p)) 0 (fetched p) := by
  unfold PktRuns
  simp only [hq]
  exact ⟨q0, by decide, by decide, h1, h2, .inl h3, Prod.ext h4 rfl, .inl h5, .inl (by decide), rfl, rfl⟩

theorem room_here : RoomForUnit queued 0 := ⟨q0, by decide, by decide⟩
theorem earlier_here : EarlierDone queued 0 := ⟨q0, by decide, by decide⟩

/-- A Tongs program of context 0 on cluster 0. -/
def tongs0 : Tongs := ⟨0, 1, 0, 0, [0, 0, 0, 0, 0, 0, 0, 0], [(3, 2, 64)], .running, [], 0, 0, false⟩
def tongsUp : State := { shader with clusters := [(0, { Cluster.empty with scratch := [scratch0], tongsN := some tongs0 })] }
def tcmd (op : Nat) : TongsCmd := ⟨BitVec.ofNat 32 op, 0, 0, 0⟩

theorem tongs_here (c : TongsCmd) (op : Nat) (h1 : c.op = op)
    (h2 : (tongsUp.rawRead (.cluster 0) 7 0 0 16).1 = none) (h3 : (tongsUp.rawRead (.cluster 0) 7 0 0 16).2.1 = none)
    (h4 : bytesAgree (tongsUp.rawRead (.cluster 0) 7 0 0 16).2.2.1 (wordBytes c.words) = true) (h5 : tongsListed op = true)
    (h6 : c.clean = true) : TongsRuns tongsUp 0 false c op { tongs0 with buf := c.buf } (tongsUp.rawRead (.cluster 0) 7 0 0 16).2.2.2 :=
  ⟨tongs0, _, rfl, by decide, h1, Prod.ext h2 (Prod.ext h3 rfl), h4, h5, h6, rfl⟩

def flowD : FlowDesc := ⟨0, 0, 0, false, false, 0, 0, 1, 1, 2, 2, 64, 64, 0, 256, 64, 64, 256, 0, 1, 0, 100, 0, false, 0, 0, 0, 0, 0, 0, 0, 0, 0, [], [],
  0, 0, 0, 0, 0, 0, 0, 0, 0⟩
def flow0 : Flow := ⟨flowD, none, none, none, 0, false, false, false, none, none, [], [], [], false, false, none, [], [], 0, 0, 0, none⟩

/-! ## Ill-formed commands -/

theorem test_packet_body_short : (Instr.nop ⟨0, 0x100, []⟩).wf = false := by decide
theorem test_short_form_upper_bits : (Instr.faluAdd (issueA { insn 0 0 with imm := 1 })).wf = false := by decide
theorem test_frame_rows_differ : (Instr.dpCaptureFrame ⟨false, [[(0, 0, 0)], []]⟩).wf = false := by decide
theorem test_record_unit_reserved : (Instr.errorRecord ⟨0x0202, 0x06, 1, none, 0, 0⟩).wf = false := by decide
theorem test_record_severity : (Instr.errorRecord ⟨0x0202, 0x10, 4, none, 0, 0⟩).wf = false := by decide
theorem test_ladle_queue : (Instr.ladlePost ⟨64, 0, 0, 0x10, 0⟩).wf = false := by decide
theorem test_completion_empty : (Instr.hostReadCompletion 0 (.data [])).wf = false := by decide
theorem test_bar2_read_none : (Instr.bar2Read 0 0).wf = false := by decide
theorem test_bar2_write_past_end : (Instr.bar2Write (BitVec.ofNat 36 (2 ^ 36 - 1)) [none, none]).wf = false := by decide
theorem test_i2c_long : (Instr.ident ⟨List.replicate 256 0, true⟩).wf = false := by decide +kernel

/-! ## Results the spec gives as numbers -/

/-- R53: a short FALU ADD with PG 7, DST 1, SRCA 2, SRCB 3 and PD 7, its bits written out. -/
theorem test_word_of_add : Insn.ofWord (0x7 * 2 ^ 2 + 1 * 2 ^ 18 + 2 * 2 ^ 26 + 3 * 2 ^ 34 + 7 * 2 ^ 58)
    = { insn 0 0 with dst := 1, srca := 2, srcb := 3 } := by decide
/-- R323: sequence numbers start at 1. -/
theorem test_first_sequence_number : ({ q0 with seq := 0 } : Queue).nextSeq.1 = 1 := by decide
/-- R22: the shader rail stands at 650 mV at SOP3. -/
theorem test_sop3_voltage : sopMv 3 = 650 := by decide
/-- R58: 1.0 + 1.0 is 2.0 in F32. -/
theorem test_f32_add : fapply 0 ⟨.rne, false, false⟩ (fun _ => 0) (faluOp 0 .rne) [0x3F800000, 0x3F800000] = 0x40000000 := by decide
/-- The time base counts ten nanoseconds a tick. -/
theorem test_interval_tick : us 1 = 100 := by decide
/-- R573: KEY_HASH has eight words of 32 bits, LIFECYCLE one word of 4 bits. -/
theorem test_otp_words : otpMask 1 7 = 0xFFFFFFFF ∧ otpMask 1 8 = 0 ∧ otpMask 5 0 = 15 := by decide
/-- R528: without L2 a request for S1 is refused with 0x74 by the host interface. -/
theorem test_request_without_l2 : up.pwrCode 2 = some (0x74, 0x40) := by decide
/-- R576: without an OPEN path nothing answers: JTAG reaches the block only with UNC on. -/
theorem test_jtag_needs_unc : execDebugClose .jtag State.reset = .next State.reset := rfl
/-- R11: GLB_RST without its key does nothing. -/
theorem test_glb_rst_key : execGlbRst 0x57A60001 up = .next up := rfl
/-- R353: a signal raises the generation by one. -/
theorem test_event_generation : (up.evtFire 5).fld (Reg.CPR_EVT_GEN 5) 31 0 = 1 := by decide

/-! ## Witnesses -/

theorem triple_of {α β γ : Type} (p : α × β × γ) : ∃ a b c, p = (a, b, c) := ⟨p.1, p.2.1, p.2.2, rfl⟩
theorem ok_of (p : VRead × State) (h : ∃ d q, p.1 = .ok d q) : ∃ d q s, p = (.ok d q, s) := by
  obtain ⟨d, q, h⟩ := h
  exact ⟨d, q, p.2, Prod.ext h rfl⟩
theorem some_of {α β : Type} (p : Option α × β) (h : p.1.isSome = true) : ∃ v s, p = (some v, s) := by
  obtain ⟨o, s⟩ := p
  cases o with
  | none => simp at h
  | some v => exact ⟨v, s, rfl⟩
theorem none_of {α β : Type} (p : Option α × β) (h : p.1.isSome = false) : ∃ s, p = (none, s) := by
  obtain ⟨o, s⟩ := p
  cases o with
  | none => exact ⟨s, rfl⟩
  | some v => simp at h

theorem witness_StepRunsFront : step { State.reset with pending := [.sysrst] } = exec .sysrst State.reset ∧ State.reset.pending = [] :=
  ⟨rfl, rfl⟩
theorem witness_QueueUntouched : ∃ t, exec .idcode up = .next t := ⟨_, rfl⟩
theorem witness_OtpNeverCleared :
    let s : State := { up with dbg := { up.dbg with otp := [(8, 1)] } }
    Sparse.get s.dbg.otp 0 8 &&& 1#32 = 1#32 ∧ step s = .next s := ⟨by decide, rfl⟩
theorem witness_TimeBase : up.hearthKeeps = false
    ∧ ({ up with pwr := { up.pwr with entry := some ⟨3, 0x40, 4, [], false, none⟩ } } : State).hearthKeeps = true := by decide
theorem witness_DspCommitOutcomes : up.dispRuns = true ∧ up.flag Reg.DSP_STATUS 0 = false
    ∧ (upWith [(Reg.DSP_STATUS, 1)]).dispRuns = true ∧ (upWith [(Reg.DSP_STATUS, 1)]).flag Reg.DSP_STATUS 0 = true := by decide
theorem witness_DspCoefWrite :
    let s : State := { up with active := [(Reg.DSP_LAY_CTRL 7, 1)] }
    (s.dispRuns = true ∧ (s.dspActive.layer 7).en = true ∧ (s.dspActive.layer 7).cbank = 0)
      ∧ ¬((s.dspActive.layer 7).en = true ∧ (s.dspActive.layer 7).cbank = 1) := by decide
theorem witness_DisplayTiming :
    let s : State := { up with disp := { up.disp with running := true, tap1 := ⟨0, some 2, 7, false, true, []⟩ } }
    s.dispRuns = true ∧ s.disp.running = true ∧ (s.tap 1).cur = some 2 ∧ (s.tap 1).written = true ∧ (s.tap 1).dropped = false := by decide
theorem witness_FlowCommands : up.dispRuns = true ∧ up.flow = none ∧ ({ up with flow := some flow0 } : State).flow = some flow0
    ∧ ∃ code d s', (up.setReg Reg.WSK_FF_CMD 2).flowCheck up.ffDesc 1 = (code, d, s') := ⟨by decide, rfl, rfl, triple_of _⟩
theorem witness_FlowArrivals :
    let s : State := { upWith [(Reg.WSK_FF_STATUS, 8)] with flow := some flow0, time := us 100000 }
    s.dispRuns = true ∧ s.flow = some flow0 ∧ s.ffState = 2 ∧ flow0.lastArrival + us (1000 * flow0.d.srcTimeout) ≤ s.time
      ∧ flow0.d.input = 0 ∧ (2 : Word).toNat % 16 ≤ flow0.d.nsrc := by decide
theorem witness_DimmingCommands :
    let s : State := { upWith [(Reg.LDM_CTRL, 0x1F)] with ldm := { up.ldm with cap := [(Reg.LDM_CTRL, 0x1F)], awaiting := some 3, readNow := [3], diagDue := [0], readDue := [3] } }
    s.dispRuns = true ∧ s.flag Reg.LDM_CTRL 0 = true ∧ s.ldm.awaiting = some 3 ∧ s.ldm.diagDue.contains 0 = true
      ∧ s.ldm.readDue.contains 3 = true ∧ s.ldmPortList.contains 3 = true ∧ s.ldm.readNow.contains 3 = true ∧ up.flag Reg.LDM_CTRL 0 = false := by decide
theorem witness_StatsPublish :
    let s : State := { up with ldm := { up.ldm with cap := [(Reg.LDM_CTRL, 0x21)], gathering := some 0, lastIn := true } }
    s.ldm.gathering = some 0 ∧ s.ldm.lastIn = true ∧ s.ldmc Reg.LDM_CTRL 6 5 ≠ 0 ∧ s.flag Reg.LDM_MAP3 31 = false := by decide
theorem witness_TransmitterCommands :
    let s : State := { upWith [(Reg.DPT_CTRL, 1), (Reg.DPT_STATUS, 1)] with dp := { up.dp with hdcpRetry := true, ctrl := 0xFFFFFFFF } }
    s.dispRuns = true ∧ s.flag Reg.DPT_CTRL 0 = true ∧ s.flag Reg.DPT_STATUS 0 = true ∧ s.dp.hdcpRetry = true ∧ s.hdcpOn = true
      ∧ up.flag Reg.DPT_CTRL 0 = false := by decide
theorem witness_HdcpOutcome : ∃ code, code = up.srmRead.2.hdcpCode ⟨true, 1, [], true⟩ up.srmRead.1 := ⟨_, rfl⟩
theorem witness_ReceiverCommands :
    let s : State := { upWith [(Reg.DPR_CTRL, 0x59), (Reg.DPR_STATUS, 1)] with dp := { up.dp with rxCtrl := 0x69 } }
    up.dispRuns = true ∧ up.flag Reg.DPR_CTRL 0 = false ∧ 4 < bits ((0xB : Word).toNat % 128) 3 1
      ∧ s.flag Reg.DPR_CTRL 0 = true ∧ (4 : Nat) ≤ bits s.dp.rxCtrl.toNat 3 1 ∧ (2 : Nat) ≤ bits s.dp.rxCtrl.toNat 5 4
      ∧ s.flag Reg.DPR_STATUS 0 = true ∧ bit s.dp.rxCtrl.toNat 6 = true := by decide
theorem witness_Doorbells : queued.uncRuns = true ∧ queued.queue 0 = some q0 ∧ (4096 : Word).toNat = queued.wptr 0
    ∧ queued.qState 0 = 1 ∧ diff32 (4100 : Word).toNat (queued.rptr 0) ≤ 2 ^ 13 ∧ (queued.fetchPkt q0 (pkt 0 [])).1 = .ok := by decide
theorem witness_ContextLifecycle :
    (up.flag (Reg.CPR_CTX_CTRL 0) 0 = false ∧ up.fld (Reg.CPR_CTX_STATUS 0) 1 0 = 0)
      ∧ (queued.flag (Reg.CPR_CTX_CTRL 0) 0 = true ∧ queued.fld (Reg.CPR_CTX_STATUS 0) 1 0 ≠ 0 ∧ queued.queuesOf 0 ≠ [] ∧ queued.sched.quench = none)
      ∧ ({ queued with queues := [] } : State).queuesOf 0 = [] := by decide
theorem witness_QueueLifecycle : up.uncRuns = true ∧ up.flag (Reg.CPR_Q_CTRL 0) 0 = false ∧ up.qState 0 = 0
    ∧ queued.flag (Reg.CPR_Q_CTRL 0) 0 = true ∧ queued.qState 0 < 3 ∧ queued.queue 0 = some q0 := by decide
theorem witness_EventRegisters : queued.uncRuns = true ∧ ∀ p ∈ queued.queues, p.2.wait = none := by decide
theorem witness_ControlPackets :
    PktRuns queued (pkt 0x00 []) 0x00 (q0.pass_ 4) 0 (fetched (pkt 0x00 [])) ∧ PktRuns queued (pkt 0x10 [0, 0, 0]) 0x10 (q0.pass_ 16) 0 (fetched (pkt 0x10 [0, 0, 0]))
      ∧ PktRuns queued (pkt 0x11 [0, 0, 0]) 0x11 (q0.pass_ 16) 0 (fetched (pkt 0x11 [0, 0, 0])) ∧ PktRuns queued (pkt 0x19 [2]) 0x19 (q0.pass_ 8) 0 (fetched (pkt 0x19 [2]))
      ∧ PktRuns queued (pkt 0x1A []) 0x1A (q0.pass_ 4) 0 (fetched (pkt 0x1A [])) ∧ PktRuns queued (pkt 0x1D [0, 0, 4]) 0x1D (q0.pass_ 16) 0 (fetched (pkt 0x1D [0, 0, 4]))
      ∧ EarlierDone queued 0 ∧ (q0.pass_ 4).stream = none ∧ (q0.pass_ 4).loops = [] := by
  refine ⟨?_, ?_, ?_, ?_, ?_, ?_, earlier_here, by decide, by decide⟩ <;> apply runs_here <;> decide
theorem witness_MemoryPackets :
    PktRuns queued (pkt 0x18 [0, 0, 0, 0, 0, 0]) 0x18 (q0.pass_ 28) 0 (fetched (pkt 0x18 [0, 0, 0, 0, 0, 0]))
      ∧ PktRuns queued (pkt 0x1B [0, 0, 0, 0, 0, 0, 1000]) 0x1B (q0.pass_ 32) 0 (fetched (pkt 0x1B [0, 0, 0, 0, 0, 0, 1000]))
      ∧ PktRuns queued (pkt 0x1C [0, 0, 0, 7, 0]) 0x1C (q0.pass_ 24) 0 (fetched (pkt 0x1C [0, 0, 0, 7, 0]))
      ∧ PktRuns queued (pkt 0x24 []) 0x24 (q0.pass_ 4) 0 (fetched (pkt 0x24 [])) ∧ EarlierDone queued 0
      ∧ (∃ v s1, (fetched (pkt 0x18 [0, 0, 0, 0, 0, 0])).cpValue 0 0 4 = (some v, s1))
      ∧ (∃ s1, (fetched (pkt 0x1C [0, 0, 0, 7, 0])).vwrite .command 0 0 cpClass (full (leBytes 4 7)) false false = (none, s1)) := by
  refine ⟨?_, ?_, ?_, ?_, earlier_here, some_of _ (by decide), none_of _ (by decide)⟩ <;> apply runs_here <;> decide
theorem witness_EventWait : ∃ u : Queue, u.wait = some (.event 4095 1 0 false (some 0)) := ⟨{ q0 with wait := _ }, rfl⟩
theorem witness_ControlPacketMoves : q0.stream = none ∧ ∃ s2, ((queued.setQueue 0 q0).advanceRptr 0 q0.fetch).putStatus 0 = (none, s2) :=
  ⟨rfl, none_of _ (by decide)⟩
theorem witness_UnitPackets :
    PktRuns queued (pkt 0x01 (List.replicate 20 0)) 0x01 (q0.pass_ 84) 0 (fetched (pkt 0x01 (List.replicate 20 0)))
      ∧ PktRuns queued (pkt 0x08 (List.replicate 11 0)) 0x08 (q0.pass_ 48) 0 (fetched (pkt 0x08 (List.replicate 11 0)))
      ∧ PktRuns queued (pkt 0x20 [2, 0, 0, 0]) 0x20 (q0.pass_ 20) 0 (fetched (pkt 0x20 [2, 0, 0, 0]))
      ∧ PktRuns queued (pkt 0x2A (List.replicate 7 0)) 0x2A (q0.pass_ 32) 0 (fetched (pkt 0x2A (List.replicate 7 0)))
      ∧ RoomForUnit queued 0 := by
  refine ⟨?_, ?_, ?_, ?_, room_here⟩ <;> apply runs_here <;> decide
/-- Bytes as cells from an address on. -/
def cellsAt : Nat → List Byte → List Host.Cell
  | _, [] => []
  | a, b :: l => (a, b) :: cellsAt (a + 1) l

theorem find_cellsAt (a i : Nat) (l : List Byte) : Sparse.find (cellsAt a l) (a + i) = l[i]? := by
  induction l generalizing a i with
  | nil => rfl
  | cons b l ih =>
    cases i with
    | zero => simp [cellsAt, Sparse.find]
    | succ i =>
      have h := ih (a + 1) i
      rw [show a + 1 + i = a + (i + 1) by omega] at h
      simp only [cellsAt, Sparse.find, if_neg (show a ≠ a + (i + 1) by omega), h, List.getElem?_cons_succ]

/-- The whole of what device memory holds from an address on is what a read of it brings. -/
theorem devBytes_of {s : State} {a : Nat} {l : List Byte} {m : List (Nat × CwMark)} (h : s.mem = (cellsAt a l, [], m)) :
    s.devBytes a l.length = l := by
  have h1 : s.dram.bytes = cellsAt a l := congrArg (fun x => x.1) h
  have h2 : s.l2.dirty = [] := congrArg (fun x => x.2.1) h
  apply List.ext_getElem
  · simp [State.devBytes]
  · intro i hi hl
    simp [State.devBytes, State.devByte, h1, h2, Sparse.find, find_cellsAt, List.getElem?_eq_getElem hl]

/-- A read of one page of device memory that finds no poison. -/
theorem vread_one {s s1 : State} {t : TlbId} {c va cls a : Nat} {l : List Byte} {o : XOut} {m : List (Nat × CwMark)}
    (hp : pagesOf va l.length = [(va, l.length)]) (hx : s.xlate t c va .read = (.ok o, s1)) (hd : o.cls = .device) (ho : o.out = a)
    (hc : s1.ctxMayAccess c a = true) (hm : s1.mem = (cellsAt a l, [], m)) (hq : (s1.devRead cls a l.length false).2.1 = false) :
    s.vread t c va l.length cls false false = (.ok l none, (s1.devRead cls a l.length false).2.2) := by
  have hb : (s1.devRead cls a l.length false).1 = l := by
    have := mem_devRead s1 cls a l.length false
    unfold State.devRead at this ⊢
    exact devBytes_of (this.trans hm)
  unfold State.vread
  rw [hp]
  subst ho
  simp only [List.foldl_cons, List.foldl_nil, hx, State.readOut, hd, hc, Bool.not_true, Bool.and_false, Bool.false_eq_true, if_false, hb, hq,
    List.nil_append]
  rfl

/-- No error waits in the L2, no line of it is poisoned, and no memory has ECC. -/
def Clean (s : State) : Prop := s.l2.errs = [] ∧ (∀ a p, Sparse.find s.l2.lines a = some p → p = false) ∧ s.dram.map = [⟨1, false⟩]

theorem find_drop {α : Type} (m : List (Nat × α)) (a b : Nat) (v : α) (h : Sparse.find (Sparse.drop m a) b = some v) :
    Sparse.find m b = some v := by
  by_cases e : b = a
  · subst e; simp at h
  · rwa [Sparse.find_drop_ne m e] at h

theorem Clean.ecc {s : State} (h : Clean s) (a : Nat) : s.eccAt a = false := by
  unfold State.eccAt
  rw [h.2.2]
  unfold regionAt
  simp only [regionAt]
  split <;> rename_i h1
  · split at h1
    · simp at h1
    · split at h1 <;> simp at h1
      obtain ⟨-, -, rfl⟩ := h1; rfl
  · rfl

theorem Clean.of {s t : State} (h : Clean s) (h1 : t.l2 = s.l2) (h2 : t.dram.map = s.dram.map) : Clean t := by
  unfold Clean at *
  rw [h1, h2]
  exact h

theorem kept_count64 (s : State) (a n : Nat) : (s.count64 a n).l2 = s.l2 ∧ (s.count64 a n).dram = s.dram := by
  unfold State.count64 State.setReg64
  exact ⟨(State.setReg_l2 ..).trans (State.setReg_l2 ..), (State.setReg_dram ..).trans (State.setReg_dram ..)⟩
theorem kept_countHit (s : State) (line : Nat) (b : Bool) : (s.countHit line b).l2 = s.l2 ∧ (s.countHit line b).dram = s.dram := by
  unfold State.countHit
  exact kept_count64 ..
theorem Clean.hit {s : State} (h : Clean s) (line : Nat) (b : Bool) : Clean (s.countHit line b) :=
  h.of (kept_countHit ..).1 (congrArg (fun d => d.map) (kept_countHit ..).2)
theorem kept_noteInflight (s : State) (ch : Nat) : (s.noteInflight ch).l2 = s.l2 ∧ (s.noteInflight ch).dram = s.dram := by
  simp [State.noteInflight, State.drawNat, State.maxFld, State.setFld]

theorem clean_l2Held {s : State} (h : Clean s) (line : Nat) : Clean (s.l2Held line).2 ∧ ∀ p, (s.l2Held line).1 = some p → p = false := by
  have e : s.lineCheck line = s := by simp [State.lineCheck, h.1, Sparse.find]
  unfold State.l2Held
  rw [e]
  dsimp only
  split
  · next p hf =>
    obtain rfl := h.2.1 line p hf
    have hd : Clean s.drawBool.2 := h
    generalize s.drawBool = d at hd ⊢
    obtain ⟨b, v⟩ := d
    dsimp only at hd ⊢
    split
    · exact ⟨hd.hit _ _, fun p e => Option.some.inj e.symm⟩
    · split
      · refine ⟨Clean.hit ?_ _ _, fun p e => nomatch e⟩
        exact ⟨hd.1, fun a p hh => hd.2.1 a p (find_drop _ _ _ _ hh), hd.2.2⟩
      · exact ⟨hd.hit _ _, fun p e => Option.some.inj e.symm⟩
  · exact ⟨h.hit _ _, fun p e => nomatch e⟩

theorem clean_readLine {s : State} (h : Clean s) (line : Nat) : Clean (s.readLine line).2 ∧ (s.readLine line).1 = false := by
  have hc : Clean (s.countBytes (line * 128) 128) := by
    unfold State.countBytes
    rw [h.ecc]
    refine Clean.of (s := { s with dram := { s.dram with
        lastReq := Sparse.put s.dram.lastReq (channelOf (line * 128)) s.time, powerDown := Sparse.drop s.dram.powerDown (channelOf (line * 128)) } })
      ⟨h.1, h.2.1, h.2.2⟩ ?_ ?_
    · exact (kept_noteInflight ..).1.trans (kept_count64 ..).1
    · exact congrArg (fun d => d.map) ((kept_noteInflight ..).2.trans (kept_count64 ..).2)
  unfold State.readLine
  simp only [hc.ecc]
  exact ⟨hc, rfl⟩

theorem clean_l2Look {s : State} (h : Clean s) (cls line : Nat) (na : Bool) :
    Clean (s.l2Look cls line na).2 ∧ (s.l2Look cls line na).1 = false := by
  have h1 := clean_l2Held h line
  unfold State.l2Look
  generalize s.l2Held line = r at h1
  obtain ⟨o, u⟩ := r
  cases o with
  | some p => exact ⟨h1.1, h1.2 p rfl⟩
  | none =>
    have h2 := clean_readLine h1.1 line
    dsimp only
    generalize u.readLine line = r at h2
    obtain ⟨q, v⟩ := r
    obtain ⟨hv, rfl⟩ := h2
    dsimp only
    split
    · exact ⟨hv, rfl⟩
    · refine ⟨⟨hv.1, fun a p hh => ?_, hv.2.2⟩, rfl⟩
      by_cases e : a = line
      · subst e; simp at hh; exact hh
      · dsimp only at hh; rw [Sparse.find_put_ne _ _ e] at hh; exact hv.2.1 a p hh

theorem clean_devRead {s : State} (h : Clean s) (cls a n : Nat) (na : Bool) : (s.devRead cls a n na).2.1 = false := by
  unfold State.devRead
  have key : ∀ (l : List Nat) (p : Bool × State), Clean p.2 → p.1 = false →
      (l.foldl (fun (p, s) line => let (q, s) := s.l2Look cls line na; (p || q, s)) p).1 = false := by
    intro l
    induction l with
    | nil => intro p _ hp; exact hp
    | cons x l ih =>
      intro p hc hp
      obtain ⟨b, u⟩ := p
      have := clean_l2Look hc cls x na
      exact ih _ this.1 (by simp [show b = false from hp, this.2])
  exact key _ _ h rfl

/-- A slot descriptor of one page; a sequence record of one token. -/
def slotDesc : List Byte := (List.range 576).map (fun i => if i == 0 || i == 24 then 1 else 0)
def seqDesc : List Byte := (List.range 128).map (fun i => if i == 12 || i == 40 then 1 else 0)

/-- `queued` with bytes of device memory at virtual address 65536. -/
def described (l : List Byte) : State := { queued with
  mmu := { queued.mmu with tlb := [page .command, ⟨.command, 0, false, 65536, 65536, 0, .device, true, true, true, 3, false⟩] },
  dram := { queued.dram with bytes := cellsAt 0 l, map := [⟨1, false⟩] } }

def defineP : Pkt := pkt 0x28 [0, 65536, 0]
def submitP : Pkt := pkt 0x29 [0, 65536, 0]
def fetchedAt (l : List Byte) (p : Pkt) : State := ((described l).fetchPkt q0 p).2

theorem runs_define : PktRuns (described slotDesc) defineP 0x28 (q0.pass_ 16) 0 (fetchedAt slotDesc defineP) :=
  runs_in rfl rfl rfl rfl (by decide) rfl (by decide) (by decide +kernel) (by decide +kernel)

theorem runs_submit : PktRuns (described seqDesc) submitP 0x29 (q0.pass_ 16) 0 (fetchedAt seqDesc submitP) :=
  runs_in rfl rfl rfl rfl (by decide) rfl (by decide) (by decide +kernel) (by decide +kernel)

def found (l : List Byte) (p : Pkt) : State := ((fetchedAt l p).xlate .command 0 65536 .read).2
theorem define_xlate : (fetchedAt slotDesc defineP).xlate .command 0 65536 .read = (.ok ⟨.device, 0, true, true, 3⟩, found slotDesc defineP) :=
  Prod.ext (by decide +kernel) rfl
theorem define_mem : (found slotDesc defineP).mem = (cellsAt 0 slotDesc, [], []) := by decide +kernel
theorem define_lines : (found slotDesc defineP).l2.lines = [] := by decide +kernel
theorem define_clean : ((found slotDesc defineP).devRead cpClass 0 slotDesc.length false).2.1 = false :=
  clean_devRead ⟨by decide +kernel, fun a p h => (by rw [define_lines] at h; exact nomatch h), by decide +kernel⟩ ..
theorem define_parses : (((found slotDesc defineP).devRead cpClass 0 576 false).2.2.parseSlot 0 slotDesc).isSome = true := by decide +kernel
theorem define_allowed : (found slotDesc defineP).ctxMayAccess 0 0 = true := by decide +kernel
theorem define_length : slotDesc.length = 576 := by decide +kernel
theorem submit_xlate : (fetchedAt seqDesc submitP).xlate .command 0 65536 .read = (.ok ⟨.device, 0, true, true, 3⟩, found seqDesc submitP) :=
  Prod.ext (by decide +kernel) rfl
theorem submit_mem : (found seqDesc submitP).mem = (cellsAt 0 seqDesc, [], []) := by decide +kernel
theorem submit_lines : (found seqDesc submitP).l2.lines = [] := by decide +kernel
theorem submit_clean : ((found seqDesc submitP).devRead cpClass 0 seqDesc.length false).2.1 = false :=
  clean_devRead ⟨by decide +kernel, fun a p h => (by rw [submit_lines] at h; exact nomatch h), by decide +kernel⟩ ..
theorem submit_parses : (parseSeq 0 0 65536 0 seqDesc).isSome = true := by decide +kernel
theorem submit_allowed : (found seqDesc submitP).ctxMayAccess 0 0 = true := by decide +kernel
theorem submit_length : seqDesc.length = 128 := by decide +kernel

theorem read_define : ∃ s1, (fetchedAt slotDesc defineP).vread .command 0 65536 576 cpClass false false = (.ok slotDesc none, s1)
    ∧ ∃ x, s1.parseSlot 0 slotDesc = some x := by
  have hp : pagesOf 65536 slotDesc.length = [(65536, slotDesc.length)] :=
    define_length.symm ▸ (by decide +kernel : pagesOf 65536 576 = [(65536, 576)])
  have h := vread_one (a := 0) (cls := cpClass) hp define_xlate rfl rfl define_allowed define_mem define_clean
  rw [define_length] at h
  exact ⟨_, h, Option.isSome_iff_exists.mp define_parses⟩

theorem read_submit : ∃ s1, (fetchedAt seqDesc submitP).vread .command 0 65536 128 cpClass false false = (.ok seqDesc none, s1)
    ∧ ∃ x, parseSeq 0 0 65536 0 seqDesc = some x := by
  have hp : pagesOf 65536 seqDesc.length = [(65536, seqDesc.length)] :=
    submit_length.symm ▸ (by decide +kernel : pagesOf 65536 128 = [(65536, 128)])
  have h := vread_one (a := 0) (cls := cpClass) hp submit_xlate rfl rfl submit_allowed submit_mem submit_clean
  rw [submit_length] at h
  exact ⟨_, h, Option.isSome_iff_exists.mp submit_parses⟩

theorem witness_SlotsAndSequences :
    (PktRuns (described slotDesc) defineP 0x28 (q0.pass_ 16) 0 (fetchedAt slotDesc defineP)
        ∧ ∃ s1, (fetchedAt slotDesc defineP).vread .command 0 65536 576 cpClass false false = (.ok slotDesc none, s1)
          ∧ ∃ x, s1.parseSlot 0 slotDesc = some x)
      ∧ (PktRuns (described seqDesc) submitP 0x29 (q0.pass_ 16) 0 (fetchedAt seqDesc submitP)
        ∧ ∃ s1, (fetchedAt seqDesc submitP).vread .command 0 65536 128 cpClass false false = (.ok seqDesc none, s1)
          ∧ ∃ x, parseSeq 0 0 65536 0 seqDesc = some x)
      ∧ PktRuns queued (pkt 0x28 [16, 0, 0]) 0x28 (q0.pass_ 16) 0 (fetched (pkt 0x28 [16, 0, 0]))
      ∧ PktRuns queued (pkt 0x29 [256, 0, 0]) 0x29 (q0.pass_ 16) 0 (fetched (pkt 0x29 [256, 0, 0])) := by
  refine ⟨⟨runs_define, read_define⟩, ⟨runs_submit, read_submit⟩, ?_, ?_⟩
  all_goals (apply runs_here <;> decide)
def unit0 (k : UnitKind) : WorkUnit := ⟨1, false, 0, 4, k, none, 0, none, false, 0⟩
def withUnit0 (w : WorkUnit) : State := { queued with queues := [(0, { q0 with units := [w] })] }
theorem witness_UnitLifecycle :
    let w := unit0 (.dispatch { kern with split := 6 })
    let s := withUnit0 w
    let u : Queue := { q0 with units := [w] }
    (s.queue 0 = some u ∧ u.units.find? (fun w => w.started.isNone) = some w ∧ w.kernel = some { kern with split := 6 } ∧ s.ctx 0 = some ctx0
        ∧ s.uncRuns = true ∧ s.coresTake = true ∧ s.qState 0 = 1 ∧ s.fld (Reg.CPR_CTX_STATUS 0) 1 0 = 1 ∧ s.sched.quench = none ∧ u.inflight < 16)
      ∧ ({ kern with split := 6 } : Kernel).shapeBad = false ∧ 5 < 6 ∧ s.flow = none
      ∧ ({ w with status := some 0 } : WorkUnit).status = some 0 := by decide
theorem witness_VectorArithmetic :
    Issues shader (issueA (insn 0 0)) 0 faluForm (here (issueA (insn 0 0))) (after (issueA (insn 0 0)) faluForm)
      ∧ Issues shader (issueA { insn 1 13 with type := 3 }) 1 ialuForm (here (issueA { insn 1 13 with type := 3 })) (after (issueA { insn 1 13 with type := 3 }) ialuForm)
      ∧ Issues shader (issueB (insn 2 1)) 2 cmpForm (here (issueB (insn 2 1))) (after (issueB (insn 2 1)) cmpForm)
      ∧ Issues shader (issueA (insn 3 0)) 3 cvtForm (here (issueA (insn 3 0))) (after (issueA (insn 3 0)) cvtForm)
      ∧ Issues shader (issueA (insn 4 6)) 4 sfuForm (here (issueA (insn 4 6))) (after (issueA (insn 4 6)) sfuForm)
      ∧ (after (issueA (insn 0 0)) faluForm).bsrc (here (issueA (insn 0 0))) false = (some .reg, after (issueA (insn 0 0)) faluForm) := by
  refine ⟨?_, ?_, ?_, ?_, ?_, rfl⟩ <;> apply issues_here <;> decide
theorem witness_IntegerResults : (3 ≤ 3 ∧ 3 ≤ 7 ∧ 32 = typeBits 3) ∧ (3 ≤ 6 ∧ 6 ≤ 7 ∧ 64 = typeBits 6) := by decide
theorem witness_FloatResults : (bits (0x7F800001 : BitVec 32).toNat 30 23 = 255 ∧ bits (0x7F800001 : BitVec 32).toNat 22 0 ≠ 0)
    ∧ bits (0x3F800000 : BitVec 32).toNat 30 23 ≠ 255 := by decide
theorem witness_FlagsAndLanes :
    Issues shader (issueB (insn 2 0)) 2 cmpForm (here (issueB (insn 2 0))) (after (issueB (insn 2 0)) cmpForm)
      ∧ Issues shader (issueB { insn 5 2 with mod := 5 }) 5 (xlnForm false) (here (issueB { insn 5 2 with mod := 5 })) (after (issueB { insn 5 2 with mod := 5 }) (xlnForm false))
      ∧ Issues shader (issueB { insn 5 1 with mod := 2, pg := 0 }) 5 (xlnForm true) (here (issueB { insn 5 1 with mod := 2, pg := 0 })) (after (issueB { insn 5 1 with mod := 2, pg := 0 }) (xlnForm true))
      ∧ Issues shader (issueB { long 13 0 with imm := 0x11 }) 13 specForm (here (issueB { long 13 0 with imm := 0x11 })) (after (issueB { long 13 0 with imm := 0x11 }) specForm)
      ∧ Issues shader (issueB (long 13 1)) 13 specForm (here (issueB (long 13 1))) (after (issueB (long 13 1)) specForm) := by
  refine ⟨?_, ?_, ?_, ?_, ?_⟩ <;> apply issues_here <;> decide
def deep : State := { shader with
  cores := [(0, { Core.empty with blocks := [(0, block0)], groups := [(0, { group0 with stack := List.replicate 32 (.split 1) })] })] }
theorem witness_FullDivergenceStack : (deep.ready (issueB (long 11 1)) brForm).map (fun x => x.1.stack.length) = some 32
    ∧ brForm.ok (long 11 1) = true ∧ (deep.fetchInsn 0 0 0 4 (leBytes 16 (long 11 1).word)).1 = .agree := by decide
theorem witness_ControlFlow : ∀ op : Fin 9,
    let x := issueB (long 11 (BitVec.ofNat 8 op.val))
    Issues shader x 11 brForm (here x) (after x brForm) := by
  intro op; fin_cases op <;> (apply issues_here <;> decide)
theorem witness_YieldExpire : Sparse.find (shader.core 0).groups 0 = some group0 ∧ group0.wait ≠ .yield := by decide
theorem witness_BarriersAndFences :
    (∀ op : Fin 2, let x := issueB (long 10 (BitVec.ofNat 8 op.val)); Issues shader x 10 barForm (here x) (after x barForm))
      ∧ Issues shader (issueB (long 10 2)) 10 fenceForm (here (issueB (long 10 2))) (after (issueB (long 10 2)) fenceForm)
      ∧ (here (issueB (long 10 2))).g.ops = [] ∧ (here (issueB (long 10 2))).g.hostWrite = none := by
  refine ⟨fun op => ?_, ?_, rfl, rfl⟩
  · fin_cases op <;> (apply issues_here <;> decide)
  · apply issues_here <;> decide
theorem witness_DeadBarrier :
    let b : Block := { block0 with bars := [(0, ⟨some 0, [0], [0], false⟩)] }
    ({ block0 with bars := [(31, ⟨some 2, [0], [0], false⟩)] } : Block).bars.all (fun p => !p.2.complete [0]) = true
      ∧ b.bars.all (fun p => p.2.complete [0]) = true := by decide
theorem witness_GlobalAccesses :
    (∀ op ∈ [(4 : BitVec 8), 8, 16], let x := issueB (long 7 op); Issues shader x 7 (memForm false) (here x) (after x (memForm false)))
      ∧ (let x := issueB { long 9 7 with type := 3, srcc := 4, dst := 2 }; Issues shader x 9 atomForm (here x) (after x atomForm))
      ∧ (here (issueB (long 7 0))).gaddr 31 % 1 = 0 := by
  refine ⟨?_, ?_, by decide⟩
  · intro op h
    simp only [List.mem_cons, List.mem_nil_iff, or_false] at h
    rcases h with rfl | rfl | rfl <;> (apply issues_here <;> decide)
  · apply issues_here <;> decide
def op0 (k : MemKind) (st : LineState) : MemOp := ⟨1, 0, k, 4, false, false, 0, 0, [⟨0, 0, 0, 0, none⟩], [⟨0, st, true⟩], []⟩
def flying (o : MemOp) : State := { shader with
  cores := [(0, { Core.empty with blocks := [(0, block0)], groups := [(0, { group0 with ops := [o] })] })] }
theorem witness_Responses :
    ((flying (op0 .load .performed)).groupAt 0 0).isSome = true ∧ ({ group0 with ops := [op0 .load .performed] } : Group).op 1 = some (op0 .load .performed)
      ∧ (op0 .load (.sent .device 0 false)).kind = .load ∧ (op0 .store .performed).kind = .store := by decide
theorem witness_Walks :
    let w : Walk := ⟨1, 0, 0, false, 0, 0, .read, 0x10, .core 0, 0, 0, .host, true, true, false⟩
    let s : State := { shader with mmu := { shader.mmu with walks := [w] } }
    s.mmu.walks.find? (fun w => w.id == 1) = some w ∧ s.ctx w.ctx = some ctx0 ∧ (∃ d c s2, s.walkData w (.data (leBytes 8 0)) = (d, c, s2))
      ∧ ∀ v ∈ s.mmu.walks, v.id ≠ 2 := ⟨by decide, by decide, triple_of _, by decide⟩
theorem witness_SharedMemory :
    (∀ op ∈ [(0 : BitVec 8), 8], let x := issueB (long 8 op); Issues shader x 8 (memForm true) (here x) (after x (memForm true)))
      ∧ (let x := issueB { long 9 128 with type := 3 }; Issues shader x 9 atomForm (here x) (after x atomForm)) := by
  refine ⟨?_, ?_⟩
  · intro op h
    simp only [List.mem_cons, List.mem_nil_iff, or_false] at h
    rcases h with rfl | rfl <;> (apply issues_here <;> decide)
  · apply issues_here <;> decide
theorem witness_GriddleAccesses :
    ∀ i ∈ [long 12 2, long 12 0x0A, { long 12 0x10 with ext := 1 }, { long 12 0x11 with ext := 1 }, { long 12 0x12 with ext := 1 }, { long 12 0x13 with ext := 1 }],
      let x := issueB i; Issues shader x 12 grdForm (here x) (after x grdForm) := by
  intro i h
  simp only [List.mem_cons, List.mem_nil_iff, or_false] at h
  rcases h with rfl | rfl | rfl | rfl | rfl | rfl <;> (apply issues_here <;> decide)
theorem witness_GriddleTargets :
    (∃ base size, (after (issueB (long 12 2)) grdForm).grdTarget (here (issueB (long 12 2))) = .plain base size)
      ∧ ∃ base size m count r, (after (issueB { long 12 0x10 with ext := 1 }) grdForm).grdTarget (here (issueB { long 12 0x10 with ext := 1 }))
        = .ring true base size m count r := ⟨⟨_, _, rfl⟩, ⟨_, _, _, _, _, rfl⟩⟩
def mmaI (op : BitVec 8) (t : BitVec 4) (e : BitVec 8) : Insn := { long 6 op with type := t, ext := e, srcc := 8, dst := 16 }
theorem witness_S32Accumulation : (let x := issueA (mmaI 0 3 0x66); Issues shader x 6 mmaForm (here x) (after x mmaForm))
    ∧ (∀ l, l < 32 → l ∈ (here (issueA (mmaI 0 3 0x66))).g.run (mmaI 0 3 0x66)) ∧ mmaShape 6 6 3 = some 32 := by
  refine ⟨?_, by decide, by decide⟩
  apply issues_here <;> decide
theorem witness_MatrixUnit : ∀ i ∈ [mmaI 0 0 0x11, mmaI 1 0 0x83, mmaI 2 0 0x11, { mmaI 3 0 0x10 with srcc := 0 }, { mmaI 4 0 1 with srcc := 0 }],
    let x := issueA i; Issues shader x 6 mmaForm (here x) (after x mmaForm) := by
  intro i h
  simp only [List.mem_cons, List.mem_nil_iff, or_false] at h
  rcases h with rfl | rfl | rfl | rfl | rfl <;> (apply issues_here <;> decide)
theorem witness_MmaLanes : (∀ l, l < 32 → l ∈ (here (issueA (mmaI 0 0 0x11))).g.run (mmaI 0 0 0x11))
    ∧ ¬(∀ l, l < 32 → l ∈ (here (issueA (mmaI 0 0 0x11))).g.run { mmaI 0 0 0x11 with pg := 0 }) := by decide

theorem witness_RegisterReads : up.uncOn = true ∧ (Reg.GLB_BOOT : Nat) % 4 = 0 ∧ up.reaches .host Reg.GLB_BOOT = true
    ∧ (regRow Reg.GLB_BOOT).isSome = true ∧ mailboxAt Reg.GLB_BOOT = none ∧ isLowWord Reg.GLB_BOOT = false
    ∧ up.reaches .host 0x010FFC = true := by decide
theorem witness_CopyOperandWrites : up.reaches .host Reg.CPY_SRC_LO = true := by decide
theorem witness_DeviceMemory : Memory.wf up = true ∧ up.uncOn = true ∧ ¬ up.usable < 0 := by decide
theorem witness_TongsCommands : ∀ op : Fin 64, tongsListed op.val = true →
    ∃ t s', TongsRuns tongsUp 0 false (tcmd op.val) op.val t s' := by
  intro op h
  refine ⟨_, _, tongs_here (tcmd op.val) op.val ?_ rfl rfl rfl h ?_⟩ <;> (revert h; revert op; decide)
theorem witness_CachesAndLadle :
    up.uncRuns = true ∧ (grdResv (0x1C : Word).toNat ≤ 28 ∧ 28 < grdResv (0x1D : Word).toNat)
      ∧ (up.cluster 11).pendRegion = none ∧ up.l2.queue = [] ∧ up.srcStalled 0x20 0 = false ∧ up.sched.ladle = [] := by decide
theorem witness_CopyEngine : up.uncRuns = true ∧ up.sched.quench = none
    ∧ Sparse.find ((upWith [(Reg.CPY_STATUS, 1)]).copyArb 4).sched.copies 3 = none
    ∧ (let r : CopyRun := ⟨0, 1, 0, ⟨true, 1, 0, 0, 0, 0, 1, 1, 0⟩, false⟩
      Sparse.find (({ up with sched := { up.sched with copies := [(4, r)] } } : State).copyArb 4).sched.copies 4 = some r) := by decide
theorem witness_GraphicsPackets :
    PktRuns queued (pkt 0x40 [0, 0]) 0x40 (q0.pass_ 12) 0 (fetched (pkt 0x40 [0, 0])) ∧ PktRuns queued (pkt 0x44 []) 0x44 (q0.pass_ 4) 0 (fetched (pkt 0x44 []))
      ∧ PktRuns queued (pkt 0x41 [0, 0]) 0x41 (q0.pass_ 12) 0 (fetched (pkt 0x41 [0, 0]))
      ∧ PktRuns queued (pkt 0x42 (List.replicate 8 0)) 0x42 (q0.pass_ 36) 0 (fetched (pkt 0x42 (List.replicate 8 0)))
      ∧ PktRuns queued (pkt 0x43 (List.replicate 7 0)) 0x43 (q0.pass_ 32) 0 (fetched (pkt 0x43 (List.replicate 7 0)))
      ∧ PktRuns queued (pkt 0x45 [0, 0]) 0x45 (q0.pass_ 12) 0 (fetched (pkt 0x45 [0, 0]))
      ∧ PktRuns queued (pkt 0x46 (List.replicate 10 0)) 0x46 (q0.pass_ 44) 0 (fetched (pkt 0x46 (List.replicate 10 0)))
      ∧ PktRuns queued (pkt 0x47 (List.replicate 7 0)) 0x47 (q0.pass_ 32) 0 (fetched (pkt 0x47 (List.replicate 7 0)))
      ∧ RoomForUnit queued 0 ∧ (q0.pass_ 12).inProgram = false ∧ (q0.pass_ 12).pass = none := by
  refine ⟨?_, ?_, ?_, ?_, ?_, ?_, ?_, ?_, room_here, by decide, by decide⟩ <;> apply runs_here <;> decide
def pass0 (ph : PassPhase) (ts : List TileRun) : GfxPass :=
  ⟨0, 0, 1, false, List.replicate 160 0, none, [], 0, true, true, ph, 0, [], [], [], [], [], 0, 0, [], [], 0, false, false, 0, ts, [], [], [], [], []⟩
theorem witness_TilesAndPlacement :
    let t : TileRun := ⟨0, 0, 0, [], [], [], none, [], [], 0⟩
    let s (ph : PassPhase) : State := { up with gfx := { up.gfx with passes := [pass0 ph [t]] } }
    ((s .done).runningPass = some (pass0 .done [t]) ∧ (pass0 .done [t]).tiles.find? (fun t => t.cluster == 0 && t.tile == 0) = some t
        ∧ t.prims = [] ∧ t.cur = none ∧ (s .done).sched.quench = none)
      ∧ (up.cluster 11).mode = .compute := by decide
theorem witness_PreemptionAndModes :
    up.cluOn = true ∧ up.sched.quench = none ∧ up.placeables 0 = [] ∧ (up.cluster 11).preempt = none
      ∧ (({ up with clusters := [(11, { Cluster.empty with preempt := some ⟨0, [.normal]⟩, drain := some 0 })] } : State).cluster 11).preempt = some ⟨0, [.normal]⟩
      ∧ up.gfxWaiting = false ∧ up.clusterBlocks 11 = [] ∧ up.gfx.units = [] := by decide
theorem witness_SchedulerEvents :
    (queued.queue 0 = some q0 ∧ (∀ w ∈ q0.units, False)) ∧ up.hung 11 = false ∧ up.sched.quench = none ∧ up.uncRuns = true
      ∧ (0x9E4C0001 : Word).toNat / 2 ^ 16 = 0x9E4C ∧ bit (0x9E4C0001 : Word).toNat 0 = true ∧ up.fld Reg.GLB_BOOT 1 0 = 1
      ∧ ({ up with sched := { up.sched with quench := some (1, 0) } } : State).sched.quench = some (1, 0) := by decide
theorem witness_LayoutsAndApertures : up.uncRuns = true ∧ up.flag (Reg.MMU_LAYOUT_CTRL 3) 0 = false
    ∧ (upWith [(Reg.MMU_LAYOUT_CTRL 3, 1)]).flag (Reg.MMU_LAYOUT_CTRL 3) 0 = true ∧ up.flag Reg.MMU_APER_EN 7 = false := by decide
theorem witness_Withdrawals :
    (PktRuns queued (pkt 0x21 [0, 0, 0, 0]) 0x21 (q0.pass_ 20) 0 (fetched (pkt 0x21 [0, 0, 0, 0])) ∧ (fetched (pkt 0x21 [0, 0, 0, 0])).ctx 0 = some ctx0
        ∧ RoomForUnit queued 0)
      ∧ up.mmu.inval.length < 16 ∧ up.mmu.pinval = []
      ∧ (let w : Withdrawal := ⟨none, 0, 0, true, false, false, 0, 0, true, []⟩
        w.effective = true ∧ (∀ y ∈ w.waits, up.outstanding y = false) ∧ queued.ctx w.ctx = some ctx0) := by
  refine ⟨⟨?_, by decide, room_here⟩, by decide, by decide, by decide, by decide, by decide⟩
  apply runs_here <;> decide
theorem witness_AdviceAndPrefetch :
    (PktRuns queued (pkt 0x23 [0, 0, 1, 4, 0, 0]) 0x23 (q0.pass_ 28) 0 (fetched (pkt 0x23 [0, 0, 1, 4, 0, 0])) ∧ (fetched (pkt 0x23 [0, 0, 1, 4, 0, 0])).ctx 0 = some ctx0)
      ∧ (PktRuns queued (pkt 0x22 [0, 0, 1, 0, 0, 0]) 0x22 (q0.pass_ 28) 0 (fetched (pkt 0x22 [0, 0, 1, 0, 0, 0])) ∧ RoomForUnit queued 0) := by
  refine ⟨⟨?_, by decide⟩, ?_, room_here⟩ <;> apply runs_here <;> decide
theorem witness_HostLink :
    let r : HostRead := ⟨1, 0x10, 0, 0, 8, 0, .dma 4, false⟩
    let s : State := { up with hif := { up.hif with reads := [r] } }
    s.hif.reads.find? (fun x => x.id == r.id) = some r ∧ r.abandoned = false ∧ s.time < r.since + ctvTicks s.hif.ctv
      ∧ (∀ r ∈ s.hif.reads, r.id ≠ 2) ∧ up.uncOn = true ∧ up.flag Reg.HIF_STATUS 0 = false
      ∧ (upWith [(Reg.HIF_STATUS, 1)]).flag Reg.HIF_STATUS 0 = true := by decide
theorem witness_MessagesAndMailboxes :
    Sparse.find ({ up with hif := { up.hif with merged := [(63, 0)] } } : State).hif.merged 63 = some 0 ∧ Sparse.find up.hif.merged 63 = none
      ∧ up.mbFull 9 = false ∧ up.uncOn = true
      ∧ (let s : State := { up with hif := { up.hif with i2cAddressed := true } }
        s.hif.i2cAddressed = true ∧ (⟨[], true⟩ : I2cRequest).pecOk = true ∧ s.sched.quench = none) := by decide
theorem witness_DramControllers :
    up.uncRuns = true ∧ bit (0xF01 : Word).toNat 0 = true ∧ up.flag Reg.DMC_LOCK 0 = false ∧ (upWith [(Reg.DMC_LOCK, 1)]).flag Reg.DMC_LOCK 0 = true
      ∧ up.nextProt 0 = none ∧ (upWith [(Reg.PWR_STATUS, 1)]).fld Reg.PWR_STATUS 1 0 = 1 ∧ Sparse.find up.dram.lastReq 15 = none := by decide
theorem witness_FlashPath :
    up.uncOn = true ∧ bit (7 : Word).toNat 0 = true ∧ bits (7 : Word).toNat 3 1 = 3
      ∧ ((upWith [(Reg.GLB_BOOT, 0x41)]).flag Reg.CFG_FL_STATUS 0 = false)
      ∧ ({ up with regs := [(Reg.GLB_BOOT, 0x41)] } : State).flashOpen = true
      ∧ (65536 * 15 % flashUnit 3 = 0 ∧ 65536 * 15 + flashUnit 3 ≤ 2 ^ 20)
      ∧ ({ up with boot := { up.boot with flashOp := some (1, 0) } } : State).boot.flashOp = some (1, 0) ∧ up.boot.flashOp = none
      ∧ 2 ^ 20 ≤ flashBytes ∧ flashBytes ≤ 2 ^ 28 := by
  refine ⟨by decide, by decide, by decide, by decide, by decide, by decide, by decide, by decide, ?_, ?_⟩
  · exact Nat.pow_le_pow_right (by decide) (Nat.le_add_right ..)
  · exact Nat.pow_le_pow_right (by decide) (Nat.add_le_add_left (Nat.le_of_lt_succ (Nat.mod_lt _ (by decide))) 20)
def startingUp : State := { up with regs := [], boot := { up.boot with hearth := true, rails := true } }
theorem witness_StartUp :
    State.reset.boot.hearth = false
      ∧ (let s : State := { State.reset with boot := { State.reset.boot with hearth := true } }
        s.boot.hearth = true ∧ s.boot.rails = false ∧ s.fld Reg.GLB_BOOT 1 0 ≠ 3 ∧ s.fld Reg.GLB_BOOT 1 0 = 0)
      ∧ startingUp.starting = true ∧ startingUp.boot.trained = false ∧ startingUp.boot.kind = 0 ∧ startingUp.boot.tested = false
      ∧ startingUp.boot.loaded = false ∧ startingUp.param 0x0004 0 ≠ 1 ∧ (startingUp.trainFrom 4 [1]).1 = none
      ∧ (startingUp.trainFrom 3 [1]).1 = some 4 ∧ bit startingUp.boot.fence 11 = false
      ∧ (let b := { startingUp.boot with trained := true, tested := true, loaded := true, selftest := true }
        let s : State := { startingUp with boot := b }
        s.starting = true ∧ s.boot.config = [] ∧ s.boot.failing = []) ∧ up.uncRuns = true ∧ up.flag Reg.GLB_BOOT 6 = false := by decide
theorem witness_ResetsAndSupplies :
    up.uncOn = true ∧ bits (0x57A70001 : Word).toNat 31 16 = 0x57A7 ∧ State.reset.uncOn = false
      ∧ ({ up with err := { up.err with fatalAt := some 0 } } : State).err.fatalAt = some 0 ∧ up.err.fatalAt = none
      ∧ up.flag Reg.PWR_STATUS 18 = false ∧ (upWith [(Reg.PWR_STATUS, 0x40000)]).flag Reg.PWR_STATUS 18 = true
      ∧ (upWith [(Reg.PWR_VBAK, 0x7D00000)]).fld Reg.PWR_VBAK 31 16 = (2000 : BitVec 16).toNat ∧ up.pwrChanging = false := by decide
theorem witness_PowerStates :
    let e : Entry := ⟨2, 0x40, 5, [], false, none⟩
    let x : ExitRun := ⟨2, 3, 3, 0⟩
    up.uncRuns = true ∧ up.pwrCode 0 = some (0x70, 0x01)
      ∧ ({ up with pwr := { up.pwr with pend := some (2, 0) } } : State).pwr.pend = some (2, 0)
      ∧ ({ up with pwr := { up.pwr with entry := some e } } : State).pwr.entry = some e ∧ e.committed = false
      ∧ ({ up with pwr := { up.pwr with entry := some e } } : State).railsBusy .undo = false
      ∧ (5 : Fin 6).val = 5 ∧ (upWith [(Reg.PWR_WAKE, 0x20)]).flag Reg.PWR_WAKE 5 = true
      ∧ ({ up with pwr := { up.pwr with exit := some x } } : State).pwr.exit = some x ∧ up.pwr.exit = none := by decide
theorem witness_SensorsAndErrors :
    let r : RailReq := ⟨7, 650, .entry, some 0, true⟩
    let s : State := { up with pwr := { up.pwr with reqs := [r], tripped := true, tripCool := some 0, entry := some ⟨2, 0x40, 6, [], true, none⟩ } }
    s.pwr.reqs = r :: [] ∧ railAck r.mv 0 650 = true ∧ railAck r.mv 0 664 = false ∧ r.sent = some 0 ∧ s.pwr.tripped = true
      ∧ s.pwr.entry.isSome = true ∧ unitListed 0x42 = true ∧ up.uncOn = true ∧ up.ringRoom = true ∧ up.err.dropCount = 0
      ∧ ({ up with pwr := { up.pwr with kwsEn := true } } : State).kwsOn = true := by decide
theorem witness_DebugPort :
    up.dbgReached .jtag = true ∧ bit (0x80000001 : Word).toNat 31 = true ∧ bits (0x80000001 : Word).toNat 1 0 ∈ [1, 2] ∧ up.dbg.lockedOut = false
      ∧ up.dbg.scope = 0 ∧ State.reset.dbgReached .jtag = false
      ∧ ({ up with dbg := { up.dbg with challenge := some 5 } } : State).challenge = some 5
      ∧ (up.uncRuns = true ∧ bit (0x7403 : Word).toNat 0 = true ∧ otpMask 4 7 ≠ 0 ∧ otpMask 5 1 = 0)
      ∧ (let s : State := { up with dbg := { up.dbg with scope := 1, halted := [4] } }
        s.dbg.scope = 1 ∧ (4 : Fin 5).val ∈ s.dbg.halted ∧ (0 : Fin 5).val ∉ s.dbg.halted) := by decide
theorem witness_InsnRoundTrip : (insn 0 0).wf = true ∧ (2 ^ 128 - 1 : Nat) < 2 ^ 128 := by decide

end Sys2Proof.Tests
end

section
/-! PROOFS. Reset and the time base (O4, O5): what a tick's other work leaves of the clock. -/

namespace Sys2Proof.Machine

/-! ## The clock -/

/-- The time base and the fraction that the Hearth's crystal carries: what the statement about ticks is about. -/
def State.clock (s : State) : Nat × Nat := (s.time, s.timeFrac)

@[simp] theorem clock_setReg (s : State) (a : Nat) (v : Word) : (s.setReg a v).clock = s.clock := by
  simp [State.clock]

@[simp] theorem clock_setFld (s : State) (a hi lo v : Nat) : (s.setFld a hi lo v).clock = s.clock := by
  simp [State.clock]

@[simp] theorem clock_clearFlag (s : State) (a i : Nat) : (s.clearFlag a i).clock = s.clock := by
  simp [State.clock]

@[simp] theorem clock_setCluster (s : State) (k : Nat) (c : Cluster) : (s.setCluster k c).clock = s.clock := by
  simp [State.clock]

@[simp] theorem clock_setQueue (s : State) (q : Nat) (u : Queue) : (s.setQueue q u).clock = s.clock := by
  simp [State.clock]

@[simp] theorem clock_drawNat (s : State) : s.drawNat.2.clock = s.clock := rfl

@[simp] theorem clock_count64 (s : State) (a n : Nat) : (s.count64 a n).clock = s.clock :=
  (clock_setReg ..).trans (clock_setReg ..)

@[simp] theorem clock_countCycles (s : State) (a : Nat) : (s.countCycles a).clock = s.clock :=
  (clock_count64 ..).trans (clock_drawNat s)

theorem clock_ite {c : Prop} [Decidable c] {t u : State} {x : Nat × Nat} (ht : t.clock = x) (hu : u.clock = x) :
    (if c then t else u).clock = x := by split <;> assumption

theorem clock_foldl {α : Type} {f : State → α → State} (h : ∀ s a, (f s a).clock = s.clock) (l : List α) (s : State) :
    (l.foldl f s).clock = s.clock := by
  induction l generalizing s with
  | nil => rfl
  | cons a l ih => exact (ih (f s a)).trans (h s a)

theorem clock_a1Exit (s : State) : s.a1Exit.clock = s.clock :=
  clock_ite (clock_ite ((clock_clearFlag ..).trans (clock_setFld ..)) (clock_setFld ..)) rfl

/-! ## Accounting of one tick (R373, R374, R378) -/

theorem clock_chargeCtx (s : State) (c part : Nat) : (s.chargeCtx c part).clock = s.clock := by
  unfold State.chargeCtx
  cases s.ctx c with
  | none => rfl
  | some x => exact clock_count64 ..

theorem clock_charge (s : State) (k q num den : Nat) (gfx : Bool) : (s.charge k q num den gfx).clock = s.clock := by
  unfold State.charge
  cases s.queue q with
  | none => rfl
  | some u =>
    cases gfx with
    | true => simp
    | false => simp [clock_chargeCtx]

theorem clock_chargeCores (s : State) : s.chargeCores.clock = s.clock := by
  unfold State.chargeCores
  refine (clock_foldl (fun s p => ?_) _ _).trans (clock_foldl (fun s p => ?_) _ _)
  · refine clock_ite ?_ rfl
    split
    · exact clock_charge ..
    · rfl
  · exact clock_ite rfl (clock_foldl (fun s h => clock_charge ..) _ _)

theorem clock_chargeCopies (s : State) : s.chargeCopies.clock = s.clock := by
  unfold State.chargeCopies
  refine clock_foldl (fun s p => ?_) _ _
  cases s.queue p.2.q with
  | none => rfl
  | some u => exact (clock_count64 ..).trans (clock_setQueue ..)

/-! ## Counters of one tick (R165, R171, R463) -/

theorem clock_drainInflight (s : State) (ch : Nat) : (s.drainInflight ch).clock = s.clock :=
  clock_ite rfl ((clock_setFld ..).trans (clock_drawNat s))

theorem clock_tickCounters (s : State) : s.tickCounters.clock = s.clock := by
  unfold State.tickCounters
  exact (clock_foldl (fun s p => clock_countCycles ..) _ _).trans
    (clock_ite ((clock_countCycles ..).trans (clock_foldl clock_drainInflight _ _)) (clock_foldl clock_drainInflight _ _))

/-! ## The two ticks (R7, R25) -/

theorem timeBaseTick_of_hearthKeeps {s : State} (h : s.hearthKeeps = true) : exec .timeBaseTick s = .next s := by
  change execTimeBaseTick s = _
  rw [execTimeBaseTick, if_pos h]

/-- While the Hearth does not keep the time base, a tick completes and moves the clock on by one tick. -/
theorem timeBaseTick_counts {s : State} (h : s.hearthKeeps = false) :
    ∃ t, exec .timeBaseTick s = .next t ∧ t.clock = ((s.time + 1) % 2 ^ 64, s.timeFrac) := by
  have hw : (if s.a1Quiet = true then s else s.a1Exit).clock = s.clock := clock_ite rfl (clock_a1Exit s)
  obtain ⟨htime, hfrac⟩ := Prod.mk.inj hw
  change ∃ t, execTimeBaseTick s = .next t ∧ _
  rw [execTimeBaseTick, h]
  refine ⟨_, rfl, ?_⟩
  rw [clock_tickCounters, clock_chargeCopies, clock_chargeCores]
  simp only [State.clock, htime, hfrac]

theorem hearthTimekeepingTick_of_hearthKeeps {s : State} (h : s.hearthKeeps = true) :
    exec .hearthTimekeepingTick s = .next
      { s with time := (s.time + 3051 + (s.timeFrac + 24832) / 32768) % 2 ^ 64, timeFrac := (s.timeFrac + 24832) % 32768 } := by
  change execHearthTimekeepingTick s = _
  simp [execHearthTimekeepingTick, h]

/-- Settles O5: nothing else that a tick of TBCLK does touches the clock. -/
theorem timeBase : Obligations.TimeBase := by
  intro s
  refine ⟨fun h => ?_, timeBaseTick_of_hearthKeeps, hearthTimekeepingTick_of_hearthKeeps⟩
  obtain ⟨t, ht, hc⟩ := timeBaseTick_counts h
  exact ⟨t, ht, congrArg Prod.fst hc, congrArg Prod.snd hc⟩

/-! ## Power-on reset (R487) -/

/-- Right after reset no register is listed, so each field reads as in its register's reset word. -/
theorem fld_reset (a hi lo : Nat) : State.reset.fld a hi lo = bits (regReset a).toNat hi lo := rfl

theorem otp_reset (n : Nat) : Sparse.get State.reset.dbg.otp 0 n = 0 := rfl

/-- GLB_BOOT resets to STATE 0, starting (R487, R517). -/
theorem bootState_reset : bits (regReset Reg.GLB_BOOT).toNat 1 0 = 0 := by decide

/-- Settles O4: the reset state's own fields, with GLB_BOOT's reset word and the empty memories. -/
theorem powerOnState : Obligations.PowerOnState :=
  ⟨rfl, rfl, rfl, rfl, rfl, (fld_reset ..).trans bootState_reset, rfl, rfl, rfl, rfl, rfl, rfl, otp_reset, wf_reset⟩

end Sys2Proof.Machine
end

section
/-! PROOFS. Register reads (O38): what a read answers and does in each of its cases (R10, R11, R14, R438). -/

namespace Sys2Proof.Machine

/-! ## Fields that clear on a read (R11) -/

/-- A register whose fields of access RC are PEAKs of an OCC in bits 8 to 0: the Ladle's status and each channel's. -/
abbrev holdsPeak (a : Nat) : Prop :=
  a = Reg.L2C_LADLE_STATUS ∨ (0x0A0400 ≤ a ∧ a < 0x0A0500 ∧ a % 16 = 12)

/-- What a field that clears on a read takes. -/
def State.clearedValue (s : State) (a : Nat) (f : RegField) : Nat :=
  if holdsPeak a then s.fld a 8 0 else bits (regReset a).toNat f.hi f.lo

/-- A read's clearing of one field. -/
def State.clearField (a : Nat) (s : State) (f : RegField) : State :=
  match f.acc with
  | .rc => s.setFld a f.hi f.lo (s.clearedValue a f)
  | _ => s

/-- The clearing of a read goes through the row's fields in order. -/
theorem readClears_of_regRow {s : State} {a : Nat} {row : RegRow} (h : regRow a = some row) :
    s.readClears a = row.fields.foldl (State.clearField a) s := by
  rw [State.readClears, h]; rfl

theorem clearField_of_rc {s : State} {a : Nat} {f : RegField} (h : f.acc = .rc) :
    s.clearField a f = s.setFld a f.hi f.lo (s.clearedValue a f) := by
  rw [State.clearField, h]

theorem clearField_of_ne_rc {s : State} {a : Nat} {f : RegField} (h : f.acc ≠ .rc) : s.clearField a f = s := by
  unfold State.clearField
  split
  · contradiction
  · rfl

theorem reg_clearField_ne (s : State) {a b : Nat} (f : RegField) (h : b ≠ a) : (s.clearField a f).reg b = s.reg b := by
  by_cases hf : f.acc = .rc
  · rw [clearField_of_rc hf, s.reg_setFld_ne _ _ _ h]
  · rw [clearField_of_ne_rc hf]

/-- Clearing a field leaves every field apart from it alone. -/
theorem fld_clearField_apart (s : State) (a : Nat) {f : RegField} {hi lo : Nat} (hf : f.lo ≤ f.hi ∧ f.hi ≤ 31)
    (h : f.acc = .rc → hi < f.lo ∨ f.hi < lo) : (s.clearField a f).fld a hi lo = s.fld a hi lo := by
  by_cases hrc : f.acc = .rc
  · rw [clearField_of_rc hrc, s.fld_setFld_apart a _ hf.1 hf.2 (h hrc)]
  · rw [clearField_of_ne_rc hrc]

theorem reg_foldl_clearField_ne (l : List RegField) (s : State) {a b : Nat} (h : b ≠ a) :
    (l.foldl (State.clearField a) s).reg b = s.reg b := by
  induction l generalizing s with
  | nil => rfl
  | cons f l ih => exact (ih _).trans (reg_clearField_ne s f h)

theorem fld_foldl_clearField_apart (l : List RegField) (s : State) (a : Nat) {hi lo : Nat}
    (hl : ∀ f ∈ l, f.lo ≤ f.hi ∧ f.hi ≤ 31) (h : ∀ f ∈ l, f.acc = .rc → hi < f.lo ∨ f.hi < lo) :
    (l.foldl (State.clearField a) s).fld a hi lo = s.fld a hi lo := by
  induction l generalizing s with
  | nil => rfl
  | cons f l ih =>
    rw [List.forall_mem_cons] at hl h
    exact (ih _ hl.2 h.2).trans (fld_clearField_apart s a hl.1 h.1)

/-- The value a field takes stays the same while fields above OCC are cleared. -/
theorem clearedValue_foldl_clearField (l : List RegField) (s : State) (a : Nat) (f : RegField)
    (hl : ∀ g ∈ l, g.lo ≤ g.hi ∧ g.hi ≤ 31) (h : holdsPeak a → ∀ g ∈ l, g.acc = .rc → 8 < g.lo) :
    (l.foldl (State.clearField a) s).clearedValue a f = s.clearedValue a f := by
  unfold State.clearedValue
  split
  · rename_i hp
    exact fld_foldl_clearField_apart l s a hl (fun g hg hrc => .inl (h hp g hg hrc))
  · rfl

/-- A field of access RC, apart from the row's other fields, takes its value: the last clearing of it gives it, and no other touches
it. -/
theorem fld_foldl_clearField_self (l : List RegField) (s : State) (a : Nat) {f : RegField} (hf : f ∈ l) (hrc : f.acc = .rc)
    (hl : ∀ g ∈ l, g.lo ≤ g.hi ∧ g.hi ≤ 31) (hapart : ∀ g ∈ l, g ≠ f → g.hi < f.lo ∨ f.hi < g.lo)
    (h : holdsPeak a → ∀ g ∈ l, g.acc = .rc → 8 < g.lo) :
    (l.foldl (State.clearField a) s).fld a f.hi f.lo = s.clearedValue a f % 2 ^ (f.hi + 1 - f.lo) := by
  induction l using List.reverseRecOn with
  | nil => cases hf
  | append_singleton l g ih =>
    simp only [List.forall_mem_append, List.forall_mem_singleton] at hl hapart h
    rw [List.foldl_append, List.foldl_cons, List.foldl_nil]
    by_cases hg : g = f
    · subst hg
      rw [clearField_of_rc hrc, State.fld_setFld_self _ a _ hl.2.1 hl.2.2,
        clearedValue_foldl_clearField l s a g hl.1 (fun hp => (h hp).1)]
    · have hmem : f ∈ l := (List.mem_append.1 hf).resolve_right (fun hm => hg (List.mem_singleton.1 hm).symm)
      rw [fld_clearField_apart _ a hl.2 (fun _ => (hapart.2 hg).symm)]
      exact ih hmem hl.1 hapart.1 (fun hp => (h hp).1)

theorem reg_readClears_ne {s : State} {a b : Nat} {row : RegRow} (hrow : regRow a = some row) (h : b ≠ a) :
    (s.readClears a).reg b = s.reg b := by
  rw [readClears_of_regRow hrow, reg_foldl_clearField_ne _ _ h]

/-- A register without fields of access RC keeps them all. -/
theorem readClears_of_no_rc {s : State} {a : Nat} {row : RegRow} (hrow : regRow a = some row)
    (h : ∀ f ∈ row.fields, f.acc ≠ .rc) : s.readClears a = s := by
  rw [readClears_of_regRow hrow]
  exact List.foldlRecOn row.fields _ (motive := fun t => t = s) rfl
    (fun t ht f hf => (clearField_of_ne_rc (h f hf)).trans ht)

theorem fld_readClears_apart {s : State} {a : Nat} {row : RegRow} (hrow : regRow a = some row)
    (hfit : ∀ f ∈ row.fields, f.lo ≤ f.hi ∧ f.hi ≤ 31) {hi lo : Nat}
    (h : ∀ f ∈ row.fields, f.acc = .rc → hi < f.lo ∨ f.hi < lo) : (s.readClears a).fld a hi lo = s.fld a hi lo := by
  rw [readClears_of_regRow hrow, fld_foldl_clearField_apart _ _ _ hfit h]

/-- R11: a field that clears on a read takes its reset value. -/
theorem fld_readClears_of_not_peak {s : State} {a : Nat} {row : RegRow} (hrow : regRow a = some row)
    (hfit : ∀ f ∈ row.fields, f.lo ≤ f.hi ∧ f.hi ≤ 31) {f : RegField} (hf : f ∈ row.fields) (hrc : f.acc = .rc)
    (hapart : ∀ g ∈ row.fields, g ≠ f → g.hi < f.lo ∨ f.hi < g.lo) (hp : ¬holdsPeak a) :
    (s.readClears a).fld a f.hi f.lo = bits (regReset a).toNat f.hi f.lo := by
  rw [readClears_of_regRow hrow, fld_foldl_clearField_self _ s a hf hrc hfit hapart (fun h => absurd h hp),
    State.clearedValue, if_neg hp]
  exact Nat.mod_eq_of_lt (Nat.mod_lt _ (Nat.two_pow_pos _))

/-- A PEAK of OCC's nine bits takes the current OCC. -/
theorem fld_readClears_of_peak {s : State} {a : Nat} {row : RegRow} (hrow : regRow a = some row)
    (hfit : ∀ f ∈ row.fields, f.lo ≤ f.hi ∧ f.hi ≤ 31) {f : RegField} (hf : f ∈ row.fields) (hrc : f.acc = .rc)
    (hapart : ∀ g ∈ row.fields, g ≠ f → g.hi < f.lo ∨ f.hi < g.lo) (hp : holdsPeak a)
    (hocc : ∀ g ∈ row.fields, g.acc = .rc → 8 < g.lo) (hwidth : f.hi = f.lo + 8) :
    (s.readClears a).fld a f.hi f.lo = s.fld a 8 0 := by
  rw [readClears_of_regRow hrow, fld_foldl_clearField_self _ s a hf hrc hfit hapart (fun _ => hocc),
    State.clearedValue, if_pos hp, show f.hi + 1 - f.lo = 9 by omega]
  exact Nat.mod_eq_of_lt (fld_lt s a 8 0)

/-! ## Captures of high words (R10) -/

theorem readShadows_of_not_low {s : State} {p : Path} {a : Nat} (h : isLowWord a = false) : s.readShadows p a = s := by
  simp [State.readShadows, h]

theorem shadow_dropShadow_self (s : State) (p : Path) (a : Nat) : (s.dropShadow p a).shadow p a = none := by
  rw [State.shadow, Option.map_eq_none_iff, List.find?_eq_none]
  intro x hx
  simpa only [Bool.not_eq_true, Bool.not_eq_true'] using (List.mem_filter.1 hx).2

theorem shadow_dropShadow_ne (s : State) {p p' : Path} (a b : Nat) (h : p' ≠ p) :
    (s.dropShadow p a).shadow p' b = s.shadow p' b := by
  have hkept : ∀ x : Path × Nat × Word,
      decide ((!(decide (x.1 = p) && x.2.1 == a)) = true ∧ (decide (x.1 = p') && x.2.1 == b) = true) =
        (decide (x.1 = p') && x.2.1 == b) := by
    intro x
    by_cases hx : x.1 = p' <;> simp [hx, h, Bool.beq_eq_decide_eq]
  simp only [State.shadow, State.dropShadow, List.find?_filter, hkept]

/-- A capture listed last is found by its path for its low word where none is listed before it. -/
theorem shadow_append (s : State) (p p' : Path) (a b : Nat) (v : Word) :
    ({ s with shadows := s.shadows ++ [(p, a, v)] } : State).shadow p' b =
      (s.shadow p' b).or (if p = p' ∧ a = b then some v else none) := by
  simp only [State.shadow, List.find?_append, Option.map_or]
  by_cases h : p = p' ∧ a = b <;> simp [h]

theorem readShadows_of_low {s : State} (p : Path) {a : Nat} (h : isLowWord a = true) :
    s.readShadows p a = { s.dropShadow p a with
      shadows := (s.dropShadow p a).shadows ++ [(p, a, BitVec.ofNat 32 (s.live (a + 4)))] } := by
  rw [State.readShadows, if_pos h]

/-- The read of a low word keeps the high word for its path. -/
theorem shadow_readShadows_self {s : State} {p : Path} {a : Nat} (h : isLowWord a = true) :
    (s.readShadows p a).shadow p a = some (BitVec.ofNat 32 (s.live (a + 4))) := by
  rw [readShadows_of_low p h, shadow_append, shadow_dropShadow_self]
  simp

/-- A path's captures are its own. -/
theorem shadow_readShadows_ne {s : State} {p p' : Path} {a : Nat} (b : Nat) (hlow : isLowWord a = true) (h : p' ≠ p) :
    (s.readShadows p a).shadow p' b = s.shadow p' b := by
  rw [readShadows_of_low p hlow, shadow_append, shadow_dropShadow_ne s a b h]
  simp [h.symm]

theorem readShadows_out (s : State) (p : Path) (a : Nat) : (s.readShadows p a).out = s.out := by
  unfold State.readShadows
  split <;> rfl

theorem readShadows_regs (s : State) (p : Path) (a : Nat) : (s.readShadows p a).regs = s.regs := by
  unfold State.readShadows
  split <;> rfl

theorem readTakes_of_not_mailbox {s : State} {p : Path} {a : Nat} (h : mailboxAt a = none) : s.readTakes p a = s := by
  simp [State.readTakes, h]

/-! ## One read, case by case -/

/-- While UNC is on a path's read is the read of the register, its word sent out. -/
theorem pathRead_of_uncOn {s : State} (p : Path) (a : Nat) (h : s.uncOn = true) :
    s.pathRead p a = (s.regRead p a).2.emit (.readData p (s.regRead p a).1) := by
  simp [State.pathRead, h]

theorem regRead_of_reserved {s : State} {p : Path} {a : Nat} (hal : a % 4 = 0) (hre : s.reaches p a = true)
    (hrow : regRow a = none) : s.regRead p a = (BitVec.ofNat 32 ((s.capWord a).getD 0), s) := by
  simp [State.regRead, hal, hre, hrow]

/-- A read that finds a capture of the high word returns it and uses it up. -/
theorem regRead_of_captured {s : State} {p : Path} {a : Nat} {row : RegRow} {v : Word} (hal : a % 4 = 0)
    (hre : s.reaches p a = true) (hrow : regRow a = some row) (h4 : 4 ≤ a) (hlow : isLowWord (a - 4) = true)
    (hv : s.shadow p (a - 4) = some v) : s.regRead p a = (v, s.dropShadow p (a - 4)) := by
  simp [State.regRead, hal, hre, hrow, h4, hlow, hv]

/-- A read that finds no capture of its register returns the register's value. -/
theorem regRead_of_not_captured {s : State} {p : Path} {a : Nat} {row : RegRow} (hal : a % 4 = 0) (hre : s.reaches p a = true)
    (hrow : regRow a = some row) (hno : 4 ≤ a → s.shadow p (a - 4) = none) :
    s.regRead p a = (BitVec.ofNat 32 (s.live a), ((s.readShadows p a).readClears a).readTakes p a) := by
  have hcapture : (if 4 ≤ a ∧ isLowWord (a - 4) then s.shadow p (a - 4) else none) = none := by
    split
    · rename_i h; exact hno h.1
    · rfl
  simp [State.regRead, hal, hre, hrow, hcapture]

theorem rcFieldRead_eq (p : Path) (a : BitVec 25) {s : State} (h : s.uncOn = true) :
    exec (.rcFieldRead p a) s = .next ((s.regRead p a.toNat).2.emit (.readData p (s.regRead p a.toNat).1)) :=
  congrArg Host.Outcome.next (pathRead_of_uncOn p a.toNat h)

theorem lowWordShadowRead_eq (p : Path) (a : BitVec 25) {s : State} (h : s.uncOn = true) :
    exec (.lowWordShadowRead p a) s = .next ((s.regRead p a.toNat).2.emit (.readData p (s.regRead p a.toNat).1)) :=
  congrArg Host.Outcome.next (pathRead_of_uncOn p a.toNat h)

/-! ## Writes of reserved offsets (R14) -/

theorem plainWrite_of_reserved {s : State} {p : Path} {a : Nat} (v : Word) (h : regRow a = none) : s.plainWrite p a v = s := by
  simp [State.plainWrite, h]

/-- The way masks have a row. -/
theorem regRow_waymask (c : Fin 16) : (regRow (Reg.L2C_WAYMASK c.val)).isSome = true := by
  revert c; decide

theorem not_waymask_of_reserved {a : Nat} (hal : a % 4 = 0) (h : regRow a = none) :
    ¬(Reg.L2C_WAYMASK 0 ≤ a ∧ a < Reg.L2C_WAYMASK 16) := by
  simp only [Reg.L2C_WAYMASK]
  intro ⟨hlo, hhi⟩
  have hc := regRow_waymask ⟨(a - 0x090040) / 4, by omega⟩
  rw [Reg.L2C_WAYMASK, show 0x090040 + (a - 0x090040) / 4 * 0x4 = a by omega, h] at hc
  cases hc

/-- In the CPY and L2C blocks a write of a reserved offset does nothing. -/
theorem regWrite_of_reserved {s : State} {p : Path} {a : Nat} (v : Word) (k : SinkInfo) (hal : a % 4 = 0)
    (hre : s.reaches p a = true) (hrow : regRow a = none) (hb : a / 0x10000 = 0x0B ∨ a / 0x10000 = 0x09) :
    s.regWrite p a v k = s := by
  have hcpy : a ≠ Reg.CPY_CTRL := by rintro rfl; exact absurd hrow (by decide)
  have hmaint : a ≠ Reg.L2C_MAINT_CMD := by rintro rfl; exact absurd hrow (by decide)
  have hwindow : ¬0x400000 ≤ a := by omega
  have hdoorbell : ¬(0x020000 ≤ a ∧ a < 0x060000) := by omega
  unfold State.regWrite
  rw [if_neg (by simp [hal, hre]), if_neg hwindow, if_neg hdoorbell]
  rcases hb with hb | hb
  · simp only [hb, if_neg hcpy]
    exact plainWrite_of_reserved v hrow
  · simp only [hb, if_neg hmaint, if_neg (not_waymask_of_reserved hal hrow)]
    exact plainWrite_of_reserved v hrow

/-! ## Accesses of a bad size (R438) -/

theorem bar0BadSizeAccess_eq (w : Bool) (a : BitVec 25) (rq : BitVec 16) {s : State} (h : s.uncOn = true) :
    exec (.bar0BadSizeAccess w a rq) s =
      let t := (s.setFlag Reg.HIF_STATUS 8).rec0 0x0C01 0x40 1 a.toNat rq.toNat
      .next (if w then t else t.emit (.readData .host 0xFFFFFFFF)) := by
  change execBar0BadSizeAccess w a rq s = _
  simp [execBar0BadSizeAccess, h]

/-! ## The statement -/

/-- Settles O38, by the cases of one read: a reserved offset, a capture outstanding, and a register read live. -/
theorem registerReads : Obligations.RegisterReads := by
  intro p a s hunc hal hre
  refine ⟨?_, ?_, ?_, ?_, ?_, fun w rq => bar0BadSizeAccess_eq w a rq hunc⟩
  · intro row hrow hno hmb hlow
    refine ⟨?_, fun b hb => reg_readClears_ne hrow hb, fun hfit => ⟨fun hi lo h => fld_readClears_apart hrow hfit h, ?_⟩⟩
    · rw [rcFieldRead_eq p a hunc, regRead_of_not_captured hal hre hrow hno, readTakes_of_not_mailbox hmb,
        readShadows_of_not_low hlow]
    · intro f hf hrc hapart
      exact ⟨fld_readClears_of_not_peak hrow hfit hf hrc hapart, fld_readClears_of_peak hrow hfit hf hrc hapart⟩
  · intro hrow hcap
    have hread : s.regRead p a.toNat = (0, s) := by rw [regRead_of_reserved hal hre hrow, hcap]; rfl
    rw [rcFieldRead_eq p a hunc, lowWordShadowRead_eq p a hunc, hread]
    exact ⟨rfl, rfl⟩
  · intro hrow v _ hb
    exact congrArg Host.Outcome.next (regWrite_of_reserved v noSink hal hre hrow hb)
  · intro row hrow hlow hall hno hmb
    have hrc : ∀ f ∈ row.fields, f.acc ≠ .rc := by simpa using hall
    have hread : s.regRead p a.toNat = (BitVec.ofNat 32 (s.live a.toNat), s.readShadows p a.toNat) := by
      rw [regRead_of_not_captured hal hre hrow hno, readTakes_of_not_mailbox hmb, readClears_of_no_rc hrow hrc]
    rw [lowWordShadowRead_eq p a hunc, hread]
    exact ⟨_, rfl, congrArg (· ++ [_]) (readShadows_out s p a.toNat), shadow_readShadows_self hlow,
      readShadows_regs s p a.toNat, fun p' hp b => shadow_readShadows_ne b hlow hp⟩
  · intro row v hrow h4 hlow hv
    rw [rcFieldRead_eq p a hunc, regRead_of_captured hal hre hrow h4 hlow hv]

end Sys2Proof.Machine
end

section
/-! PROOFS. Griddle regions, the maintenance of the L2 with its way masks, and the Ladle (O42): what each command does, and which
bytes of device memory an operation on a range of lines changes (R135, R160 to R165). -/

namespace Sys2Proof.Machine

/-! ## Griddle regions (R135) -/

theorem grdRegionWrite_of_fits {s : State} {k : Fin 12} {v : Word} (hunc : s.uncRuns = true) (hresv : grdResv v.toNat ≤ 28)
    (hsum : grdResv v.toNat + grdRts v.toNat + grdSlot v.toNat ≤ 64) :
    exec (.grdRegionWrite k v) s =
      let s1 := s.setReg (Reg.CLU_GRD_REGION k.val) (BitVec.ofNat 32 (v.toNat % 2 ^ 17))
      .next ((s1.setCluster k.val { s1.cluster k.val with pendRegion := some (v.toNat % 2 ^ 17) }).setFlag
        (Reg.CLU_GRD_STATUS k.val) 0) := by
  change execGrdRegionWrite k v s = _
  have hfits : ¬(28 < grdResv v.toNat ∨ 64 < grdResv v.toNat + grdRts v.toNat + grdSlot v.toNat) := by omega
  simp [execGrdRegionWrite, hunc, hfits]

theorem grdRegionWrite_of_not_fits {s : State} {k : Fin 12} {v : Word} (hunc : s.uncRuns = true)
    (h : 28 < grdResv v.toNat ∨ 64 < grdResv v.toNat + grdRts v.toNat + grdSlot v.toNat) :
    exec (.grdRegionWrite k v) s = .next (s.setFlag (Reg.CLU_GRD_STATUS k.val) 1) := by
  change execGrdRegionWrite k v s = _
  simp [execGrdRegionWrite, hunc, h]

theorem regionApply_of_none {s : State} {k : Nat} (h : (s.cluster k).pendRegion = none) : s.regionApply k = s := by
  simp [State.regionApply, h]

theorem regionApply_of_held {s : State} {k : Nat} (h : s.regionIdle k = false) : s.regionApply k = s := by
  cases hpend : (s.cluster k).pendRegion with
  | none => exact regionApply_of_none hpend
  | some r => simp [State.regionApply, hpend, h]

theorem regionApply_of_idle {s : State} {k r : Nat} (hpend : (s.cluster k).pendRegion = some r) (h : s.regionIdle k = true) :
    s.regionApply k = (s.setCluster k { s.cluster k with region := r, pendRegion := none, slotData := [] }).clearFlag
      (Reg.CLU_GRD_STATUS k) 0 := by
  simp [State.regionApply, hpend, h]

/-! ## Maintenance commands (R161, R172) -/

/-- A command with GO and an OP that the rule lists is rejected or joins the queue. -/
theorem maintCmd_of_listed {s : State} {v : Word} (hgo : bit v.toNat 0 = true) (h1 : 1 ≤ bits v.toNat 3 1) (h6 : bits v.toNat 3 1 ≤ 6) :
    s.maintCmd v =
      let op := bits v.toNat 3 1
      let a := (s.reg Reg.L2C_MAINT_ADDR_LO).toNat + s.fld Reg.L2C_MAINT_ADDR_HI 7 0 * 2 ^ 32
      let n := (s.reg Reg.L2C_MAINT_LINES).toNat
      let s1 := s.setReg Reg.L2C_MAINT_CMD (BitVec.ofNat 32 (op * 2))
      if s.flag Reg.L2C_MAINT_STATUS 1 = true ∨ (3 ≤ op ∧ (a % 128 ≠ 0 ∨ n = 0)) then s1.setFlag Reg.L2C_MAINT_STATUS 2
      else s1.maintAdd ⟨op, a, n, none⟩ := by
  unfold State.maintCmd
  generalize bits v.toNat 3 1 = op at h1 h6 ⊢
  have hreg : ∀ a, a ≠ Reg.L2C_MAINT_CMD →
      (s.setReg Reg.L2C_MAINT_CMD (BitVec.ofNat 32 (op * 2))).reg a = s.reg a := fun a h => s.reg_setReg_ne _ h
  simp only [State.flag_of_reg (hreg Reg.L2C_MAINT_STATUS (by decide)), hreg Reg.L2C_MAINT_ADDR_LO (by decide),
    State.fld_of_reg (hreg Reg.L2C_MAINT_ADDR_HI (by decide)), hreg Reg.L2C_MAINT_LINES (by decide)]
  have h0 : op ≠ 0 := by omega
  have h7 : op ≠ 7 := by omega
  simp [hgo, h0, h7, h6, rangeOp]

/-- A row of the register path is its command where it carries the row's OP. -/
theorem maintRow_of_op {s : State} {v : Word} {op : Nat} (hunc : s.uncRuns = true) (hgo : bit v.toNat 0 = true)
    (hop : bits v.toNat 3 1 = op) : s.maintRow v op = .next (s.maintCmd v) := by
  simp [State.maintRow, hunc, hgo, hop]

theorem maintRegs_l2 (s : State) : s.maintRegs.l2 = s.l2 := by simp [State.maintRegs]

/-- BUSY reads 1 while the queue holds an operation. -/
theorem flag_maintRegs_busy {s : State} (h : s.l2.queue ≠ []) : s.maintRegs.flag Reg.L2C_MAINT_STATUS 0 = true := by
  unfold State.maintRegs State.flag
  rw [State.fld_setFld_apart _ _ _ (by omega) (by omega) (by omega), State.fld_setFld_self _ _ _ (by omega) (by omega)]
  simp [h]

theorem maintAdd_queue (s : State) (m : L2Maint) : (s.maintAdd m).l2.queue = s.l2.queue ++ [m] := by
  rw [State.maintAdd, maintRegs_l2]

theorem flag_maintAdd_busy (s : State) (m : L2Maint) : (s.maintAdd m).flag Reg.L2C_MAINT_STATUS 0 = true :=
  flag_maintRegs_busy (by simp)

/-- The operation at the head has its effect, leaves the queue and reports to whoever asked for it. -/
theorem l2MaintComplete_of_head {s : State} {m : L2Maint} {rest : List L2Maint} (hunc : s.uncRuns = true)
    (hqueue : s.l2.queue = m :: rest) (hstall : s.srcStalled 0x20 0 = false) :
    exec .l2MaintComplete s =
      let s1 := s.l2Do m.op m.addr m.lines
      let s2 := ({ s1 with l2 := { s1.l2 with queue := rest } }).maintRegs
      let s3 := match m.unit with
        | none => s2.setFlag Reg.L2C_MAINT_STATUS 4
        | some (q, seq) => if rest.any (fun x => x.unit = some (q, seq)) then s2 else s2.ladleDue ⟨q, seq, 0, 0x20, 0⟩
      .next (s3.maskLeft (s3.l2.maskWait - 1)) := by
  change execL2MaintComplete s = _
  simp only [execL2MaintComplete, hqueue, hunc, hstall]
  rfl

/-! ## Way masks (R162) -/

theorem wayMaskReg_ne_status (c : Nat) : Reg.L2C_WAYMASK c ≠ Reg.L2C_MAINT_STATUS := by
  unfold Reg.L2C_WAYMASK Reg.L2C_MAINT_STATUS; omega

/-- A mask that no write holds back is its register's. -/
theorem wayMask_of_not_held {s : State} {c : Nat} (h : Sparse.find s.l2.oldMask c = none) :
    s.wayMask c = (s.reg (Reg.L2C_WAYMASK c)).toNat := by
  simp [State.wayMask, h]

/-- The held writes take effect with the last operation they wait for. -/
theorem wayMask_maskLeft_zero {s : State} (h : s.l2.maskWait ≠ 0) (c : Nat) :
    (s.maskLeft 0).wayMask c = (s.reg (Reg.L2C_WAYMASK c)).toNat := by
  have heq : s.maskLeft 0 = ({ s with l2 := { s.l2 with maskWait := 0, oldMask := [] } } : State).clearFlag Reg.L2C_MAINT_STATUS 3 := by
    simp [State.maskLeft, h]
  rw [heq, wayMask_of_not_held (by rw [State.clearFlag_l2]; rfl), State.reg_clearFlag_ne _ _ (wayMaskReg_ne_status c)]
  rfl

theorem fullFlush_iff (op : Nat) : fullFlush op = true ↔ op = 1 ∨ op = 2 := by simp [fullFlush]

theorem flushDepth_eq_zero_iff (q : List L2Maint) : flushDepth q = 0 ↔ ∀ m ∈ q, m.op ≠ 1 ∧ m.op ≠ 2 := by
  have hnil : flushDepth q = 0 ↔ q.zipIdx.filter (fun x => fullFlush x.1.op) = [] := by
    rw [← List.getLast?_eq_none_iff, flushDepth]
    cases (q.zipIdx.filter (fun x => fullFlush x.1.op)).getLast? <;> simp
  have hfst : ∀ m, m ∈ q ↔ ∃ x ∈ q.zipIdx, x.1 = m := fun m => by
    rw [← List.mem_map, List.zipIdx_map_fst]
  simp only [hnil, List.filter_eq_nil_iff, fullFlush_iff, not_or, hfst]
  exact ⟨fun h m ⟨x, hx, hm⟩ => hm ▸ h x hx, fun h x hx => h x.1 ⟨x, hx, rfl⟩⟩

theorem l2cWaymaskWrite_of_no_flush {s : State} {c : Fin 16} {v : Word} (hunc : s.uncRuns = true)
    (h : ∀ m ∈ s.l2.queue, m.op ≠ 1 ∧ m.op ≠ 2) :
    exec (.l2cWaymaskWrite c v) s = .next (s.setReg (Reg.L2C_WAYMASK c.val) (BitVec.ofNat 32 (v.toNat % 65536))) := by
  change execL2cWaymaskWrite c v s = _
  simp [execL2cWaymaskWrite, hunc, (flushDepth_eq_zero_iff _).2 h]

/-- A mask's register with its new value while the ways of before stay in force (R162). -/
def State.holdWays (s : State) (c : Nat) (r : Word) : State :=
  { s.setReg (Reg.L2C_WAYMASK c) r with l2 := { s.l2 with
    oldMask := Sparse.put s.l2.oldMask c (s.wayMask c), maskWait := max (flushDepth s.l2.queue) s.l2.maskWait } }

theorem l2cWaymaskWrite_of_flush {s : State} {c : Fin 16} {v : Word} (hunc : s.uncRuns = true)
    (h : ∃ m ∈ s.l2.queue, m.op = 1 ∨ m.op = 2) :
    exec (.l2cWaymaskWrite c v) s = .next ((s.holdWays c.val (BitVec.ofNat 32 (v.toNat % 65536))).setFlag Reg.L2C_MAINT_STATUS 3) := by
  change execL2cWaymaskWrite c v s = _
  have hn : flushDepth s.l2.queue ≠ 0 := by
    rw [Ne, flushDepth_eq_zero_iff]
    obtain ⟨m, hm, hop⟩ := h
    exact fun hall => hop.elim (hall m hm).1 (hall m hm).2
  simp [execL2cWaymaskWrite, hunc, hn, State.holdWays]

theorem reg_holdWays (s : State) (c : Nat) (r : Word) (a : Nat) :
    (s.holdWays c r).reg a = (s.setReg (Reg.L2C_WAYMASK c) r).reg a := rfl

theorem wayMask_setFlag_status (s : State) (i c : Nat) : (s.setFlag Reg.L2C_MAINT_STATUS i).wayMask c = s.wayMask c := by
  rw [State.wayMask, State.wayMask, State.setFlag_l2, State.reg_setFlag_ne _ _ (wayMaskReg_ne_status c)]

/-- A held write leaves the ways in force of every class. -/
theorem wayMask_holdWays (s : State) (c d : Nat) (r : Word) : (s.holdWays c r).wayMask d = s.wayMask d := by
  by_cases h : d = c
  · subst h
    simp [State.wayMask, State.holdWays]
  · have ha : Reg.L2C_WAYMASK d ≠ Reg.L2C_WAYMASK c := by unfold Reg.L2C_WAYMASK; omega
    rw [State.wayMask, reg_holdWays, State.reg_setReg_ne _ _ ha, State.holdWays, Sparse.find_put_ne _ _ h, State.wayMask]

/-! ## Looking up cells after a range has been dropped or zeroed -/

/-- Dropping entries by their keys. -/
theorem Sparse.find_filter_key {α : Type} (m : List (Nat × α)) (f : Nat → Bool) (a : Nat) :
    Sparse.find (m.filter (fun p => f p.1)) a = if f a then Sparse.find m a else none := by
  induction m with
  | nil => simp [Sparse.find]
  | cons p t ih =>
    obtain ⟨k, v⟩ := p
    by_cases hk : k = a
    · subst hk
      by_cases hf : f k <;> simp_all [Sparse.find]
    · by_cases hf : f k <;> simp [hf, Sparse.find, hk, ih]

theorem Sparse.find_eq_none {α : Type} {m : List (Nat × α)} {a : Nat} (h : ∀ p ∈ m, p.1 ≠ a) : Sparse.find m a = none := by
  induction m with
  | nil => rfl
  | cons p t ih =>
    rw [List.forall_mem_cons] at h
    rw [Sparse.find, if_neg h.1, ih h.2]

theorem Sparse.find_merge_of_not_key {α : Type} (m n : List (Nat × α)) {a : Nat} (h : ∀ p ∈ n, p.1 ≠ a) :
    Sparse.find (Sparse.merge m n) a = Sparse.find m a := by
  induction n generalizing m with
  | nil => rfl
  | cons p t ih =>
    rw [List.forall_mem_cons] at h
    rw [Sparse.merge, ih _ h.2, Sparse.find_put_ne _ _ h.1.symm]

/-- Merged entries that all hold one value give it at each of their keys. -/
theorem Sparse.find_merge_of_key {α : Type} (m n : List (Nat × α)) {a : Nat} {w : α} (hw : ∀ p ∈ n, p.2 = w)
    (h : ∃ p ∈ n, p.1 = a) :
    Sparse.find (Sparse.merge m n) a = some w := by
  induction n generalizing m with
  | nil => simp at h
  | cons p t ih =>
    rw [List.forall_mem_cons] at hw
    rw [Sparse.merge]
    by_cases ht : ∃ q ∈ t, q.1 = a
    · exact ih _ hw.2 ht
    · rw [Sparse.find_merge_of_not_key _ _ (fun q hq hqa => ht ⟨q, hq, hqa⟩)]
      have hp : p.1 = a := by simpa [ht] using h
      rw [hp, hw.1, Sparse.find_put_self]

/-- `n` zero bytes from an address. -/
def zeroCells (a n : Nat) : List Host.Cell := (List.range n).map (fun i => (a + i, (0 : Byte)))

theorem mem_zeroCells {a n : Nat} {p : Host.Cell} : p ∈ zeroCells a n ↔ (a ≤ p.1 ∧ p.1 < a + n) ∧ p.2 = 0 := by
  simp only [zeroCells, List.mem_map, List.mem_range]
  constructor
  · rintro ⟨i, hi, rfl⟩
    exact ⟨⟨by omega, by simp only; omega⟩, rfl⟩
  · rintro ⟨⟨hlo, hhi⟩, hv⟩
    exact ⟨p.1 - a, by omega, Prod.ext (by simp only; omega) hv.symm⟩

theorem find_merge_zeroCells (m : List Host.Cell) (a n x : Nat) :
    Sparse.find (Sparse.merge m (zeroCells a n)) x = if a ≤ x ∧ x < a + n then some 0 else Sparse.find m x := by
  split
  next h => exact Sparse.find_merge_of_key m _ (fun p hp => (mem_zeroCells.1 hp).2) ⟨(x, 0), mem_zeroCells.2 ⟨h, rfl⟩, rfl⟩
  next h => exact Sparse.find_merge_of_not_key m _ (fun p hp hx => h (hx ▸ (mem_zeroCells.1 hp).1))

theorem enabled_zeros (a n : Nat) : enabled a (List.replicate n (some 0)) = zeroCells a n := by
  induction n generalizing a with
  | zero => rfl
  | succ n ih =>
    rw [List.replicate_succ, enabled, ih, zeroCells, zeroCells, List.range_succ_eq_map, List.map_cons, List.map_map]
    congr 1
    refine List.map_congr_left (fun i _ => ?_)
    simp only [Function.comp]
    congr 1
    omega

/-- A code word's share of a line of zeros is whole. -/
theorem range_zeroCells (line : Nat) {j : Nat} (hj : j < 4) :
    Sparse.range (zeroCells (line * 128) 128) ((line * 4 + j) * 32) 32 = zeroCells ((line * 4 + j) * 32) 32 := by
  have hkeep : (List.range 128).filter (fun i => decide (32 * j ≤ i) && decide (i < 32 * j + 32))
      = (List.range 32).map (fun i => 32 * j + i) := by
    interval_cases j <;> decide
  have hpred : ((fun p : Host.Cell => decide ((line * 4 + j) * 32 ≤ p.1) && decide (p.1 < (line * 4 + j) * 32 + 32)) ∘
      fun i => (line * 128 + i, (0 : Byte))) = fun i => decide (32 * j ≤ i) && decide (i < 32 * j + 32) := by
    funext i
    simp only [Function.comp]
    congr 2
    · exact propext (by omega)
    · exact propext (by omega)
  rw [Sparse.range, zeroCells, List.filter_map, hpred, hkeep, List.map_map, zeroCells]
  refine List.map_congr_left (fun i _ => ?_)
  simp only [Function.comp]
  congr 1
  omega

/-! ## What a zeroed line reads and leaves (R160) -/

/-- What decides where a line of zeros goes and what a byte of device memory reads: the L2, the stored bytes, the ways of class 14. -/
def State.lineView (s : State) : L2State × List Host.Cell × List (Nat × Nat) × Word :=
  (s.l2, s.dram.bytes, s.boot.ways, s.reg (Reg.L2C_WAYMASK 14))

theorem lineView_setReg (s : State) {a : Nat} (v : Word) (h : Reg.L2C_WAYMASK 14 < a) : (s.setReg a v).lineView = s.lineView := by
  simp [State.lineView, s.reg_setReg_ne v (Nat.ne_of_lt h)]

theorem lineView_setFld (s : State) {a : Nat} (hi lo v : Nat) (h : Reg.L2C_WAYMASK 14 < a) :
    (s.setFld a hi lo v).lineView = s.lineView := lineView_setReg s _ h

theorem lineView_count64 (s : State) {a : Nat} (n : Nat) (h : Reg.L2C_WAYMASK 14 < a) : (s.count64 a n).lineView = s.lineView :=
  (lineView_setReg _ _ (Nat.lt_add_right 4 h)).trans (lineView_setReg s _ h)

theorem lineView_drawNat (s : State) : s.drawNat.2.lineView = s.lineView := rfl

theorem lineView_noteInflight (s : State) (ch : Nat) : (s.noteInflight ch).lineView = s.lineView := by
  have ha : Reg.L2C_WAYMASK 14 < Reg.DMC_CH_INFLIGHT ch := by unfold Reg.L2C_WAYMASK Reg.DMC_CH_INFLIGHT; omega
  exact (lineView_setFld _ _ _ _ ha).trans ((lineView_setFld _ _ _ _ ha).trans (lineView_drawNat s))

theorem lineView_countBytes (s : State) (a n : Nat) : (s.countBytes a n).lineView = s.lineView := by
  unfold State.countBytes
  have hdraw : (if s.eccAt a then s.drawNat else (0, s)).2.lineView = s.lineView := by split <;> rfl
  generalize (if s.eccAt a then s.drawNat else (0, s)) = d at hdraw ⊢
  have ha : Reg.L2C_WAYMASK 14 < Reg.DMC_CH_BYTES_LO (channelOf a) := by unfold Reg.L2C_WAYMASK Reg.DMC_CH_BYTES_LO; omega
  exact (lineView_noteInflight ..).trans ((lineView_count64 _ _ ha).trans hdraw)

theorem lineView_countHit (s : State) (line : Nat) (hit : Bool) : (s.countHit line hit).lineView = s.lineView := by
  refine lineView_count64 _ _ ?_
  split
  · unfold Reg.L2C_WAYMASK Reg.L2C_SLICE_HIT_LO; omega
  · unfold Reg.L2C_WAYMASK Reg.L2C_SLICE_MISS_LO; omega

theorem allocates_of_lineView {s t : State} (h : t.lineView = s.lineView) (l : Nat) : t.allocates 14 l = s.allocates 14 l := by
  simp only [State.lineView, Prod.mk.injEq] at h
  obtain ⟨hl2, -, hways, hreg⟩ := h
  rw [State.allocates, State.allocates, State.wayMask, State.wayMask, hl2, hways, hreg]

/-- `t` agrees with `s` about one line: its bytes, its place in the L2, and where a write of zeros would put it. -/
structure KeepsLine (l : Nat) (s t : State) : Prop where
  bytes : ∀ x, x / 128 = l → Sparse.find t.dram.bytes x = Sparse.find s.dram.bytes x
  dirty : ∀ x, x / 128 = l → Sparse.find t.l2.dirty x = Sparse.find s.l2.dirty x
  present : Sparse.find t.l2.lines l = Sparse.find s.l2.lines l
  allocates : t.allocates 14 l = s.allocates 14 l

theorem KeepsLine.trans {l : Nat} {s t u : State} (h : KeepsLine l s t) (k : KeepsLine l t u) : KeepsLine l s u :=
  ⟨fun x hx => (k.bytes x hx).trans (h.bytes x hx), fun x hx => (k.dirty x hx).trans (h.dirty x hx), k.present.trans h.present,
    k.allocates.trans h.allocates⟩

theorem keepsLine_of_lineView {s t : State} (h : t.lineView = s.lineView) (l : Nat) : KeepsLine l s t := by
  have hall := allocates_of_lineView h l
  simp only [State.lineView, Prod.mk.injEq] at h
  obtain ⟨hl2, hbytes, -, -⟩ := h
  exact ⟨fun x _ => by rw [hbytes], fun x _ => by rw [hl2], by rw [hl2], hall⟩

theorem devByte_of_keepsLine {s t : State} {x : Nat} (h : KeepsLine (x / 128) s t) : t.devByte x = s.devByte x := by
  rw [State.devByte, State.devByte, h.bytes x rfl, h.dirty x rfl]

/-- A code word of zeros stored in DRAM. -/
def State.zeroWord (s : State) (n : Nat) : State :=
  if s.eccAt (n * 32) then s.writeCw n (zeroCells (n * 32) 32) else s.putCells (zeroCells (n * 32) 32)

/-- The first `k` code words of a line stored as zeros in DRAM. -/
def State.zeroWords (s : State) (line k : Nat) : State := (List.range k).foldl (fun s j => s.zeroWord (line * 4 + j)) s

theorem lineView_setMark (s : State) (n : Nat) (m : CwMark) : (s.setMark n m).lineView = s.lineView := rfl

theorem lineView_putCells (s : State) (cs : List Host.Cell) :
    (s.putCells cs).lineView = (s.l2, Sparse.merge s.dram.bytes cs, s.boot.ways, s.reg (Reg.L2C_WAYMASK 14)) := rfl

theorem lineView_zeroWord (s : State) (n : Nat) :
    (s.zeroWord n).lineView = (s.l2, Sparse.merge s.dram.bytes (zeroCells (n * 32) 32), s.boot.ways, s.reg (Reg.L2C_WAYMASK 14)) := by
  have hlen : (zeroCells (n * 32) 32).length = 32 := by simp [zeroCells]
  rw [State.zeroWord, State.writeCw, if_pos hlen]
  split
  · rw [lineView_setMark, lineView_putCells]
  · rw [lineView_putCells]

theorem zeroWords_succ (s : State) (line k : Nat) : s.zeroWords line (k + 1) = (s.zeroWords line k).zeroWord (line * 4 + k) := by
  rw [State.zeroWords, List.range_succ, List.foldl_append]
  rfl

/-- Zeros in DRAM change the bytes of their code words alone. -/
theorem lineView_zeroWords (s : State) (line k : Nat) :
    ∃ bs, (s.zeroWords line k).lineView = (s.l2, bs, s.boot.ways, s.reg (Reg.L2C_WAYMASK 14))
      ∧ ∀ x, Sparse.find bs x = if line * 128 ≤ x ∧ x < line * 128 + 32 * k then some 0 else Sparse.find s.dram.bytes x := by
  induction k with
  | zero => exact ⟨_, rfl, fun x => (if_neg (by omega)).symm⟩
  | succ k ih =>
    obtain ⟨bs, hview, hbs⟩ := ih
    have hstep := lineView_zeroWord (s.zeroWords line k) (line * 4 + k)
    rw [← zeroWords_succ] at hstep
    simp only [State.lineView, Prod.mk.injEq] at hview
    obtain ⟨hl2, hbytes, hways, hreg⟩ := hview
    rw [hl2, hbytes, hways, hreg] at hstep
    refine ⟨_, hstep, fun x => ?_⟩
    rw [find_merge_zeroCells, hbs, ← ite_or]
    exact if_congr (by omega) rfl rfl

theorem unitsOf_line (line : Nat) : unitsOf 32 (line * 128) 128 = (List.range 4).map (fun j => line * 4 + j) := by
  have hfirst : line * 128 / 32 = line * 4 := by omega
  have hlast : (line * 128 + 128 - 1) / 32 = line * 4 + 3 := by omega
  rw [unitsOf, if_neg (by decide), hfirst, hlast, span, show line * 4 + 3 + 1 - line * 4 = 4 by omega]

/-- A line of zeros written past the L2. -/
theorem dramWrite_zeroLine (s : State) (line : Nat) :
    s.dramWrite (line * 128) (List.replicate 128 (some 0)) = (s.countBytes (line * 128) 128).zeroWords line 4 := by
  have hlen : (zeroCells (line * 128) 128).length = 128 := by simp [zeroCells]
  unfold State.dramWrite
  simp only [enabled_zeros, hlen, List.length_replicate, unitsOf_line, List.foldl_map]
  refine List.foldl_ext _ _ _ (fun t j hj => ?_)
  rw [range_zeroCells line (List.mem_range.1 hj)]
  rfl

/-- Where a line of zeros goes into the L2: it is present, or class 14 has a way for it. -/
def State.zeroHeld (s : State) (line : Nat) : Bool := (Sparse.find s.l2.lines line).isSome || s.allocates 14 line

/-- A line of zeros in the L2: dirty and sound. -/
def State.zeroDirty (s : State) (line : Nat) : State :=
  { s with l2 := { s.l2 with errs := Sparse.drop s.l2.errs line } }.lineMerge line (zeroCells (line * 128) 128) false

theorem zeroLine_of_held {s : State} {line : Nat} (h : s.zeroHeld line = true) :
    s.zeroLine line = (s.countHit line (Sparse.find s.l2.lines line).isSome).zeroDirty line := by
  unfold State.zeroLine
  simp only [allocates_of_lineView (lineView_countHit s line _)]
  have hput : ¬(!(Sparse.find s.l2.lines line).isSome && !s.allocates 14 line) = true := by
    rw [← Bool.not_or]
    simpa only [State.zeroHeld, Bool.not_eq_true', Bool.not_eq_false] using h
  rw [if_neg hput]
  rfl

theorem zeroLine_of_not_held {s : State} {line : Nat} (h : s.zeroHeld line = false) :
    s.zeroLine line = ((s.countHit line false).countBytes (line * 128) 128).zeroWords line 4 := by
  obtain ⟨hgone, hall⟩ : (Sparse.find s.l2.lines line).isSome = false ∧ s.allocates 14 line = false := by
    simpa only [State.zeroHeld, Bool.or_eq_false_iff] using h
  unfold State.zeroLine
  simp only [allocates_of_lineView (lineView_countHit s line _), hgone, hall, Bool.not_false, Bool.and_self, if_true]
  exact dramWrite_zeroLine _ _

theorem dirty_lineMerge (s : State) (line : Nat) (part : List Host.Cell) (poison : Bool) :
    (s.lineMerge line part poison).l2.dirty = Sparse.merge s.l2.dirty part := rfl

theorem keepsLine_errs (s : State) (errs : List (Nat × LineError)) (l : Nat) :
    KeepsLine l s { s with l2 := { s.l2 with errs := errs } } := ⟨fun _ _ => rfl, fun _ _ => rfl, rfl, rfl⟩

/-- Bytes merged into one line of the L2 leave every other. -/
theorem keepsLine_lineMerge (s : State) {line l : Nat} {part : List Host.Cell} (poison : Bool) (hpart : ∀ p ∈ part, p.1 / 128 = line)
    (h : l ≠ line) : KeepsLine l s (s.lineMerge line part poison) where
  bytes _ _ := rfl
  dirty x hx := Sparse.find_merge_of_not_key _ _ (fun p hp hpx => h (by rw [← hx, ← hpx, hpart p hp]))
  present := Sparse.find_put_ne _ _ h
  allocates := rfl

theorem find_dirty_zeroDirty (s : State) (line x : Nat) :
    Sparse.find (s.zeroDirty line).l2.dirty x = if x / 128 = line then some 0 else Sparse.find s.l2.dirty x := by
  have hline : (line * 128 ≤ x ∧ x < line * 128 + 128) ↔ x / 128 = line := by omega
  rw [State.zeroDirty, dirty_lineMerge, find_merge_zeroCells]
  simp only [hline]

theorem keepsLine_zeroDirty (s : State) {line l : Nat} (h : l ≠ line) : KeepsLine l s (s.zeroDirty line) := by
  have hcells : ∀ p ∈ zeroCells (line * 128) 128, p.1 / 128 = line := fun p hp => by
    have := (mem_zeroCells.1 hp).1
    omega
  exact (keepsLine_errs s _ l).trans (keepsLine_lineMerge _ false hcells h)

/-- Where zeros are written past the L2, what is stored and what stays. -/
theorem zeroWords_line (s : State) (line : Nat) : (s.zeroWords line 4).l2 = s.l2
    ∧ (∀ l, (s.zeroWords line 4).allocates 14 l = s.allocates 14 l)
    ∧ ∀ x, Sparse.find (s.zeroWords line 4).dram.bytes x = if x / 128 = line then some 0 else Sparse.find s.dram.bytes x := by
  obtain ⟨bs, hview, hbs⟩ := lineView_zeroWords s line 4
  simp only [State.lineView, Prod.mk.injEq] at hview
  obtain ⟨hl2, hbytes, hways, hreg⟩ := hview
  refine ⟨hl2, fun l => ?_, fun x => ?_⟩
  · rw [State.allocates, State.allocates, State.wayMask, State.wayMask, hl2, hways, hreg]
  · have hline : (line * 128 ≤ x ∧ x < line * 128 + 32 * 4) ↔ x / 128 = line := by omega
    rw [hbytes, hbs]
    simp only [hline]

theorem keepsLine_zeroWords (s : State) {line l : Nat} (h : l ≠ line) : KeepsLine l s (s.zeroWords line 4) := by
  obtain ⟨hl2, hall, hbytes⟩ := zeroWords_line s line
  exact ⟨fun x hx => by rw [hbytes, if_neg (by omega)], fun x _ => by rw [hl2], by rw [hl2], hall l⟩

/-- Zeroing one line leaves every other. -/
theorem keepsLine_zeroLine (s : State) {line l : Nat} (h : l ≠ line) : KeepsLine l s (s.zeroLine line) := by
  cases hheld : s.zeroHeld line with
  | true =>
    rw [zeroLine_of_held hheld]
    exact (keepsLine_of_lineView (lineView_countHit ..) l).trans (keepsLine_zeroDirty _ h)
  | false =>
    rw [zeroLine_of_not_held hheld]
    exact (keepsLine_of_lineView ((lineView_countBytes ..).trans (lineView_countHit ..)) l).trans (keepsLine_zeroWords _ h)

/-- A zeroed line reads zeros: from the L2, or from DRAM where the L2 keeps no other bytes of it. -/
theorem devByte_zeroLine_self {s : State} {x : Nat} (h : s.zeroHeld (x / 128) = true ∨ Sparse.find s.l2.dirty x = none) :
    (s.zeroLine (x / 128)).devByte x = some 0 := by
  cases hheld : s.zeroHeld (x / 128) with
  | true => rw [zeroLine_of_held hheld, State.devByte, find_dirty_zeroDirty, if_pos rfl]
  | false =>
    have hdirty : Sparse.find s.l2.dirty x = none := h.resolve_left (by simp [hheld])
    rw [zeroLine_of_not_held hheld]
    have hkeep := keepsLine_of_lineView ((lineView_countBytes (s.countHit (x / 128) false) (x / 128 * 128) 128).trans
      (lineView_countHit s (x / 128) false)) (x / 128)
    obtain ⟨hl2, -, hbytes⟩ := zeroWords_line ((s.countHit (x / 128) false).countBytes (x / 128 * 128) 128) (x / 128)
    rw [State.devByte, hl2, hkeep.dirty x rfl, hdirty, hbytes]
    exact if_pos rfl

/-! ## Operations on a range (R160, R161) -/

/-- The zeroing of `n` lines in ascending order. -/
def State.zeroLines (s : State) (first n : Nat) : State := (List.range n).foldl (fun s i => s.zeroLine (first + i)) s

theorem l2Do_zero (s : State) (a n : Nat) : s.l2Do 6 a n = s.zeroLines (a / 128) n := rfl

theorem zeroLines_succ (s : State) (first n : Nat) : s.zeroLines first (n + 1) = (s.zeroLines first n).zeroLine (first + n) := by
  rw [State.zeroLines, List.range_succ, List.foldl_append]
  rfl

theorem keepsLine_zeroLines (s : State) {first n l : Nat} (h : l < first ∨ first + n ≤ l) : KeepsLine l s (s.zeroLines first n) := by
  induction n with
  | zero => exact keepsLine_of_lineView rfl l
  | succ n ih =>
    rw [zeroLines_succ]
    exact (ih (by omega)).trans (keepsLine_zeroLine _ (by omega))

theorem zeroHeld_of_keepsLine {l : Nat} {s t : State} (h : KeepsLine l s t) : t.zeroHeld l = s.zeroHeld l := by
  rw [State.zeroHeld, State.zeroHeld, h.present, h.allocates]

theorem devByte_zeroLines {s : State} {first n x : Nat} (hlo : first ≤ x / 128) (hhi : x / 128 < first + n)
    (h : s.zeroHeld (x / 128) = true ∨ Sparse.find s.l2.dirty x = none) : (s.zeroLines first n).devByte x = some 0 := by
  induction n with
  | zero => omega
  | succ n ih =>
    rw [zeroLines_succ]
    by_cases hx : x / 128 = first + n
    · have hkeep := keepsLine_zeroLines s (first := first) (n := n) (l := x / 128) (by omega)
      rw [← hx]
      refine devByte_zeroLine_self ?_
      rwa [zeroHeld_of_keepsLine hkeep, hkeep.dirty x rfl]
    · rw [devByte_of_keepsLine (keepsLine_zeroLine _ hx)]
      exact ih (by omega)

/-- An invalidation discards the dirty bytes of its lines, so that they read from DRAM, and no others. -/
theorem devByte_l2Do_inval (s : State) (a n x : Nat) : (s.l2Do 5 a n).devByte x =
    if a / 128 ≤ x / 128 ∧ x / 128 < a / 128 + n then Sparse.find s.dram.bytes x else s.devByte x := by
  have hdirty : Sparse.find (s.l2Do 5 a n).l2.dirty x =
      if !(decide (a / 128 ≤ x / 128) && decide (x / 128 < a / 128 + n)) then Sparse.find s.l2.dirty x else none :=
    Sparse.find_filter_key s.l2.dirty (fun y => !(decide (a / 128 ≤ y / 128) && decide (y / 128 < a / 128 + n))) x
  rw [State.devByte, hdirty]
  by_cases h : a / 128 ≤ x / 128 ∧ x / 128 < a / 128 + n
  · simp only [h.1, h.2]
    rfl
  · have hout : (decide (a / 128 ≤ x / 128) && decide (x / 128 < a / 128 + n)) = false := by simpa using h
    rw [hout, if_neg h]
    rfl

/-! ## The Ladle (R164, R165) -/

theorem ladlePost_of_held {s : State} {e : LadleEntry}
    (h : 256 ≤ s.sched.ladle.length ∨ s.sched.stalled.find? (fun x => s.unitSent x.q x.seq) ≠ some e) :
    exec (.ladlePost e) s = .next s := by
  change execLadlePost e s = _
  rw [execLadlePost, if_pos (by simpa using h)]

/-- The Ladle with an entry accepted. -/
def State.ladleAccept (s : State) (e : LadleEntry) : State :=
  { s with sched := { s.sched with ladle := s.sched.ladle ++ [⟨e, s.time⟩], stalled := s.sched.stalled.erase e } }

theorem ladlePost_of_room {s : State} {e : LadleEntry}
    (he : s.sched.stalled.find? (fun x => s.unitSent x.q x.seq) = some e) (hroom : s.sched.ladle.length < 256) :
    exec (.ladlePost e) s = .next (((s.ladleAccept e).setFld Reg.L2C_LADLE_STATUS 8 0 (s.sched.ladle.length + 1)).maxFld
      Reg.L2C_LADLE_STATUS 24 16 (s.sched.ladle.length + 1)) := by
  change execLadlePost e s = _
  rw [execLadlePost, if_neg (by simp [he, hroom])]
  rfl

/-- OCC and PEAK after an acceptance: both fields have room for 256. -/
theorem ladle_occ_peak (s : State) {n : Nat} (hn : n ≤ 256) :
    let t := (s.setFld Reg.L2C_LADLE_STATUS 8 0 n).maxFld Reg.L2C_LADLE_STATUS 24 16 n
    t.fld Reg.L2C_LADLE_STATUS 8 0 = n ∧ t.fld Reg.L2C_LADLE_STATUS 24 16 = max (s.fld Reg.L2C_LADLE_STATUS 24 16) n := by
  have hpeak : s.fld Reg.L2C_LADLE_STATUS 24 16 < 512 := fld_lt s _ 24 16
  have hmax : max (s.fld Reg.L2C_LADLE_STATUS 24 16) (min n 511) = max (s.fld Reg.L2C_LADLE_STATUS 24 16) n := by omega
  unfold State.maxFld
  constructor
  · rw [State.fld_setFld_apart _ _ _ (by decide) (by decide) (by decide), State.fld_setFld_self _ _ _ (by decide) (by decide)]
    exact Nat.mod_eq_of_lt (by omega)
  · rw [State.fld_setFld_self _ _ _ (by decide) (by decide), State.fld_setFld_apart _ _ _ (by decide) (by decide) (by decide)]
    change max _ (min n 511) % 512 = _
    rw [hmax]
    exact Nat.mod_eq_of_lt (by omega)

theorem ladleDrain_of_empty {s : State} (h : s.sched.ladle = []) : exec .ladleDrain s = .next s.flowSettle := by
  change execLadleDrain s = _
  rw [execLadleDrain, State.ladleDrain, h]

theorem ladleDrain_of_head {s : State} {h : LadleHeld} {rest : List LadleHeld} (hl : s.sched.ladle = h :: rest) :
    exec .ladleDrain s =
      let s1 := ({ s with sched := { s.sched with ladle := rest } }).setFld Reg.L2C_LADLE_STATUS 8 0 rest.length
      .next (((s1.updUnit h.entry.q h.entry.seq (fun w => { w with entries := w.entries - 1 })).unitCheck
        h.entry.q h.entry.seq).flowSync h.time).flowSettle := by
  change execLadleDrain s = _
  rw [execLadleDrain, State.ladleDrain, hl]

/-! ## The statement -/

/-- Settles O42, by the parts above: regions, the L2's operations and masks, the Ladle. -/
theorem cachesAndLadle : Obligations.CachesAndLadle := by
  intro s hunc
  refine ⟨fun k v => grdRegionWrite_of_fits hunc, fun k v => grdRegionWrite_of_not_fits hunc,
    fun k r hpend => ⟨fun h => congrArg _ (regionApply_of_idle hpend h), fun h => congrArg _ (regionApply_of_held h)⟩,
    fun k h => congrArg _ (regionApply_of_none h), ?_,
    fun m h => ⟨_, rfl, by rw [maintAdd_queue, h, List.nil_append], flag_maintAdd_busy s m⟩, ?_, ?_, ?_, ?_,
    fun e => ladlePost_of_held, fun h rest => ladleDrain_of_head, ladleDrain_of_empty⟩
  · intro v hgo
    have hrow : ∀ op, 1 ≤ op → op ≤ 6 → bits v.toNat 3 1 = op → s.maintRow v op = .next _ := fun op h1 h6 hop =>
      (maintRow_of_op hunc hgo hop).trans (congrArg _ (maintCmd_of_listed hgo (hop ▸ h1) (hop ▸ h6)))
    exact ⟨hrow 1 (by decide) (by decide), hrow 2 (by decide) (by decide), hrow 3 (by decide) (by decide),
      hrow 4 (by decide) (by decide), hrow 5 (by decide) (by decide), hrow 6 (by decide) (by decide)⟩
  · intro m rest hqueue hstall
    refine ⟨l2MaintComplete_of_head hunc hqueue hstall, fun hwait c _ => ?_⟩
    rw [hwait]
    exact wayMask_maskLeft_zero (by rw [hwait]; decide) c
  · intro a n x
    refine ⟨fun hout => ⟨?_, ?_⟩, fun hlo hhi => ⟨?_, fun h => ?_⟩⟩
    · rw [devByte_l2Do_inval, if_neg (by omega)]
    · rw [l2Do_zero, devByte_of_keepsLine (keepsLine_zeroLines s hout)]
    · rw [devByte_l2Do_inval, if_pos ⟨hlo, hhi⟩]
    · refine devByte_zeroLines hlo hhi ?_
      rcases h with h | h | h
      · exact .inl (by simp [State.zeroHeld, h])
      · exact .inl (by simp [State.zeroHeld, h])
      · exact .inr (Sparse.find_eq_none (fun p hp hpx => h p hp (by rw [hpx])))
  · intro c v
    refine ⟨l2cWaymaskWrite_of_no_flush hunc, fun h => ⟨_, l2cWaymaskWrite_of_flush hunc h, ?_, ?_, ?_, fun d _ => ?_, ?_⟩⟩
    · rw [State.reg_setFlag_ne _ _ (wayMaskReg_ne_status _), reg_holdWays, State.reg_setReg_self]
    · exact State.flag_setFlag_self _ _ (by decide)
    · rw [State.setFlag_l2]; rfl
    · rw [wayMask_setFlag_status, wayMask_holdWays]
    · rw [State.setFlag_l2]; rfl
  · intro e he hroom
    obtain ⟨hocc, hpeak⟩ := ladle_occ_peak (s.ladleAccept e) (n := s.sched.ladle.length + 1) hroom
    exact ⟨_, ladlePost_of_room he hroom, by rw [State.maxFld, State.setFld_sched, State.setFld_sched]; rfl, hocc, hpeak⟩

end Sys2Proof.Machine
end

section
/-! PROOFS. Preemption and the modes of clusters (O46): what a slice asks, when a request is answered and with what, and each step of a
switch between compute and graphics mode (R33, R90, R155, R384 to R389). -/

namespace Sys2Proof.Machine

theorem cluster_setCluster_self (s : State) (k : Nat) (c : Cluster) : (s.setCluster k c).cluster k = c := by
  simp [State.cluster, State.setCluster, Sparse.get]

theorem cluster_setCluster_ne (s : State) {k j : Nat} (c : Cluster) (h : j ≠ k) : (s.setCluster k c).cluster j = s.cluster j := by
  simp [State.cluster, State.setCluster, Sparse.get, Sparse.find_put_ne _ _ h]

/-! ## Requests (R387, R389) -/

/-- A cluster without a request takes one with the time and its one scope; every other cluster stays. -/
theorem preemptAsk_of_none {s : State} {k : Nat} (x : PreemptScope) (h : (s.cluster k).preempt = none) :
    s.preemptAsk k x = s.setCluster k { s.cluster k with preempt := some ⟨s.time, [x]⟩ } := by
  simp [State.preemptAsk, h]

theorem slicePreempt_of_target {s : State} {q : Fin 64} {u : Queue} {p : Nat × Kernel} {k t : Nat} (hquench : s.sched.quench = none)
    (hq : s.queue q.val = some u) (hp : (s.placeables q.val).head? = some p) (hrt : u.rt = false) (hsince : u.placeableSince = some t)
    (hwaited : t + us (s.fld Reg.SCH_SLICE 15 0) ≤ s.time) (htarget : s.sliceTarget u p.2 = some k) :
    exec (.slicePreempt q) s =
      .next ((s.setCluster k { s.cluster k with lastSlice := some s.time }).preemptAsk k (.aboveV u.v)) := by
  change execSlicePreempt q s = _
  simp [execSlicePreempt, hq, hp, hsince, hwaited, htarget, hrt, hquench]

/-- A slice asks nothing for a real-time queue, before a slice is over, or without a cluster to ask. -/
theorem slicePreempt_of_not {s : State} {q : Fin 64} {u : Queue} {p : Nat × Kernel} (hq : s.queue q.val = some u)
    (hp : (s.placeables q.val).head? = some p)
    (h : u.rt = true ∨ (¬∃ t, u.placeableSince = some t ∧ t + us (s.fld Reg.SCH_SLICE 15 0) ≤ s.time)
      ∨ s.sliceTarget u p.2 = none) :
    exec (.slicePreempt q) s = .next s := by
  change execSlicePreempt q s = _
  cases htarget : s.sliceTarget u p.2 with
  | none => simp [execSlicePreempt, hq, hp, htarget]
  | some k =>
    rcases h with h | h | h
    · simp [execSlicePreempt, hq, hp, htarget, h]
    · cases hsince : u.placeableSince with
      | none => simp [execSlicePreempt, hq, hp, htarget, hsince]
      | some t =>
        have hlt : ¬t + us (s.fld Reg.SCH_SLICE 15 0) ≤ s.time := fun hle => h ⟨t, hsince, hle⟩
        simp [execSlicePreempt, hq, hp, htarget, hsince, hlt]
    · rw [htarget] at h; cases h

theorem slicePreempt_of_not_placeable {s : State} {q : Fin 64} (h : s.placeables q.val = []) : exec (.slicePreempt q) s = .next s := by
  change execSlicePreempt q s = _
  cases hq : s.queue q.val <;> simp [execSlicePreempt, hq, h]

/-- A compute cluster with a group of a normal queue whose virtual time is larger counts it. -/
theorem largerHeld_pos {s : State} {u : Queue} {k n : Nat} {h : Nat × Nat} (hmode : (s.cluster k).mode = .compute) (hn : n < 4)
    (hh : h ∈ (s.core (4 * k + n)).holders) (hrt : s.isRt h.1 = false) (hv : u.v < s.vOf h.1) (hpos : 0 < h.2) :
    0 < s.largerHeld u k := by
  rw [State.largerHeld, if_neg (by rw [hmode]; decide)]
  have hcore : h.2 ≤ (((s.core (4 * k + n)).holders.filter (fun h => !s.isRt h.1 && u.v < s.vOf h.1)).map (fun h => h.2)).sum :=
    List.le_sum_of_mem (List.mem_map_of_mem (List.mem_filter.2 ⟨hh, by simp [hrt, hv]⟩))
  exact lt_of_lt_of_le (lt_of_lt_of_le hpos hcore) (List.le_sum_of_mem (List.mem_map_of_mem (List.mem_range.2 hn)))

theorem sliceTarget_of_only {s : State} {u : Queue} {kn : Kernel} {k : Nat} (honly : s.kernelClusters kn = [k])
    (hlast : (s.cluster k).lastSlice = none) (hheld : 0 < s.largerHeld u k) : s.sliceTarget u kn = some k := by
  simp [State.sliceTarget, honly, hlast, hheld]

/-! ## Answers (R90, R155, R388) -/

/-- Whether what a request takes has come to rest: its blocks' groups, and the copies of its Tongs programs. -/
def State.atRest (s : State) (k : Nat) (p : Preempt) : Bool :=
  (s.taken k p).all (fun b => (s.core b.1).groups.all (fun g => g.2.block ≠ b.2.1 || g.2.quiet))
    && [true, false].all (fun rt => match (s.cluster k).tongs rt with
      | some t => !s.takesTongs k p t || t.copies.isEmpty
      | none => true)

theorem atRest_iff (s : State) (k : Nat) (p : Preempt) : s.atRest k p = true ↔
    (∀ b ∈ s.taken k p, ∀ g ∈ (s.core b.1).groups, g.2.block = b.2.1 → g.2.quiet = true)
      ∧ (∀ rt t, (s.cluster k).tongs rt = some t → s.takesTongs k p t = true → t.copies = []) := by
  rw [State.atRest, Bool.and_eq_true, List.all_eq_true, List.all_eq_true]
  refine and_congr (forall₂_congr fun b _ => by simp [imp_iff_not_or]) (forall_congr' fun rt => ?_)
  rw [imp_iff_right (show rt ∈ [true, false] by cases rt <;> decide)]
  cases (s.cluster k).tongs rt with
  | none => simp
  | some t =>
    simp only [Option.some.injEq, forall_eq']
    simp [imp_iff_not_or]

theorem preemptAnswer_of_none {s : State} {k : Fin 12} (h : (s.cluster k.val).preempt = none) :
    exec (.preemptAnswer k) s = .next s := by
  change execPreemptAnswer k s = _
  rw [execPreemptAnswer, h]

theorem preemptAnswer_of_not_at_rest {s : State} {k : Fin 12} {p : Preempt} (hp : (s.cluster k.val).preempt = some p)
    (h : s.atRest k.val p = false) : exec (.preemptAnswer k) s = .next s := by
  change execPreemptAnswer k s = _
  simp only [execPreemptAnswer, hp]
  have hwaits : (!s.atRest k.val p || s.sched.quench.isSome) = true := by rw [h]; rfl
  exact if_pos hwaits

theorem preemptAnswer_of_at_rest {s : State} {k : Fin 12} {p : Preempt} (hquench : s.sched.quench = none)
    (hp : (s.cluster k.val).preempt = some p) (h : s.atRest k.val p = true) :
    exec (.preemptAnswer k) s =
      let s1 := s.discardLosing k.val
      let bs := s1.taken k.val p
      let held := ((s1.cluster k.val).saved.filter (fun b => b.inReserve)).foldl (fun m b => max m (b.base + b.block.stateBytes)) 0
      let inReserve := decide (grdResv (s1.cluster k.val).region = 28)
        || held + s1.answerBytes k.val bs ≤ grdResv (s1.cluster k.val).region * 65536
      let s2 := s1.saveAll k.val inReserve (if inReserve then held else 0) bs
      let s3 := ((s2.setCluster k.val { s2.cluster k.val with preempt := none }).stopTongs k.val p).suspendPass k.val p
      let s4 := s3.countWrap (Reg.SCH_CLU_PREEMPT k.val) 31 0 1
      .next ((s4.maxFld (Reg.SCH_CLU_PLAT k.val) 15 0 (ceilDiv (s4.time - p.since) 100)).loseCheck).placeSync := by
  change execPreemptAnswer k s = _
  simp only [execPreemptAnswer, hp]
  have hgoes : ¬(!s.atRest k.val p || s.sched.quench.isSome) = true := by rw [h, hquench]; decide
  exact if_neg hgoes

/-! ## Switches to graphics mode (R384) -/

theorem modeSwitchToGraphics_of_next {s : State} {k : Nat} (hclu : s.cluOn = true) (hquench : s.sched.quench = none)
    (hwaiting : s.gfxWaiting = true) (hroom : s.gfxCount < s.sched.gfxMax) (hnext : s.nextGraphics 12 = some k) :
    exec .modeSwitchToGraphics s = .next (s.drainStart k) := by
  change execModeSwitchToGraphics s = _
  simp [execModeSwitchToGraphics, hclu, hquench, hwaiting, hroom, hnext]

theorem modeSwitchToGraphics_of_not {s : State}
    (h : s.gfxWaiting = false ∨ s.sched.gfxMax ≤ s.gfxCount ∨ s.nextGraphics 12 = none) : exec .modeSwitchToGraphics s = .next s := by
  change execModeSwitchToGraphics s = _
  rcases h with h | h | h <;> simp [execModeSwitchToGraphics, h]

section Drain
variable {s : State} {k : Fin 12}

theorem drainSliceExpired_of_not_due
    (h : (s.cluster k.val).drain = none
      ∨ ∃ t, (s.cluster k.val).drain = some t ∧ s.time < t + us (s.fld Reg.SCH_SLICE 15 0)) :
    exec (.drainSliceExpired k) s = .next s := by
  change execDrainSliceExpired k s = _
  rcases h with h | ⟨t, h, hlt⟩
  · simp [execDrainSliceExpired, h]
  · simp [execDrainSliceExpired, h, hlt]

variable {t : Nat} (hquench : s.sched.quench = none) (hdrain : (s.cluster k.val).drain = some t)
  (hdue : t + us (s.fld Reg.SCH_SLICE 15 0) ≤ s.time)
include hquench hdrain hdue

/-- A cluster with normal scratch is given up, its blocks untouched. -/
theorem drainSliceExpired_of_scratch (hscratch : (s.cluster k.val).normalScratch = true) :
    exec (.drainSliceExpired k) s =
      let s1 := s.setCluster k.val { s.cluster k.val with drain := none }
      .next ((s1.nextGraphics k.val).elim s1 s1.drainStart) := by
  change execDrainSliceExpired k s = _
  simp only [execDrainSliceExpired, hdrain, hquench, hscratch, Nat.not_lt.2 hdue]
  cases (s.setCluster k.val { s.cluster k.val with drain := none }).nextGraphics k.val <;> rfl

theorem drainSliceExpired_of_normal_block (hscratch : (s.cluster k.val).normalScratch = false)
    (hblock : ∃ b ∈ s.clusterBlocks k.val, s.isRt b.2.2.q = false) :
    exec (.drainSliceExpired k) s = .next (s.preemptAsk k.val .noScratch) := by
  change execDrainSliceExpired k s = _
  have hany : (s.clusterBlocks k.val).any (fun b => !s.isRt b.2.2.q) = true := by
    simpa only [List.any_eq_true, Bool.not_eq_true'] using hblock
  simp [execDrainSliceExpired, hdrain, hquench, hscratch, Nat.not_lt.2 hdue, hany]

theorem drainSliceExpired_of_rt_blocks (hscratch : (s.cluster k.val).normalScratch = false)
    (hblocks : ∀ b ∈ s.clusterBlocks k.val, s.isRt b.2.2.q = true) : exec (.drainSliceExpired k) s = .next s := by
  change execDrainSliceExpired k s = _
  have hany : (s.clusterBlocks k.val).any (fun b => !s.isRt b.2.2.q) = false := by
    simpa only [List.any_eq_false, Bool.not_eq_true', Bool.not_eq_false] using hblocks
  simp [execDrainSliceExpired, hdrain, hquench, hscratch, Nat.not_lt.2 hdue, hany]

end Drain

/-! ## Drained clusters (R33, R384, R385) -/

section Switch
variable {s : State} {k : Fin 12}

theorem modeSwitchComplete_of_busy (h : s.clusterBlocks k.val ≠ [] ∨ (s.cluster k.val).preempt ≠ none) :
    exec (.modeSwitchComplete k) s = .next s := by
  change execModeSwitchComplete k s = _
  have hidle : ((s.clusterBlocks k.val).isEmpty && (s.cluster k.val).preempt.isNone) = false := by
    simpa only [Bool.and_eq_false_iff, List.isEmpty_eq_false_iff, Option.isNone_eq_false_iff, Option.isSome_iff_ne_none] using h
  simp [execModeSwitchComplete, hidle]

variable (hclu : s.cluOn = true) (hquench : s.sched.quench = none) (hblocks : s.clusterBlocks k.val = [])
  (hpreempt : (s.cluster k.val).preempt = none)
include hclu hquench hblocks hpreempt

theorem modeSwitchComplete_of_drained (hdrain : (s.cluster k.val).drain.isSome = true)
    (hscratch : (s.cluster k.val).normalScratch = false) :
    exec (.modeSwitchComplete k) s =
      let s1 := s.setCluster k.val { s.cluster k.val with mode := .graphics, drain := none, idleSince := s.time, gfxUnit := none }
      .next ((s1.setFlag Reg.SCH_STATUS k.val).countWrap (Reg.SCH_CLU_SWITCH k.val) 31 0 1) := by
  change execModeSwitchComplete k s = _
  simp [execModeSwitchComplete, hclu, hquench, hblocks, hpreempt, hdrain, hscratch]

theorem modeSwitchComplete_of_return (hdrain : (s.cluster k.val).drain = none ∨ (s.cluster k.val).normalScratch = true)
    (hswitch : (s.cluster k.val).switchTo = some .compute) :
    exec (.modeSwitchComplete k) s =
      let s1 := (s.setCluster k.val { s.cluster k.val with mode := .compute, switchTo := none, gfxUnit := none }).clearFlag
        Reg.SCH_STATUS k.val
      .next ((s1.countWrap (Reg.SCH_CLU_SWITCH k.val) 31 0 1).placeSync) := by
  change execModeSwitchComplete k s = _
  rcases hdrain with h | h <;> simp [execModeSwitchComplete, hclu, hquench, hblocks, hpreempt, h, hswitch]

theorem modeSwitchComplete_of_no_switch (hdrain : (s.cluster k.val).drain = none ∨ (s.cluster k.val).normalScratch = true)
    (hswitch : (s.cluster k.val).switchTo ≠ some .compute) : exec (.modeSwitchComplete k) s = .next s := by
  change execModeSwitchComplete k s = _
  rcases hdrain with h | h <;> simp [execModeSwitchComplete, hclu, hquench, hblocks, hpreempt, h, hswitch]

end Switch

theorem gfxIdleReturn_of_idle {s : State} {k : Fin 12} (hunits : s.gfx.units = [])
    (hdue : max s.gfx.lastWork (s.cluster k.val).idleSince + us (10 * s.fld Reg.SCH_GFX_CTRL 31 24) ≤ s.time) :
    exec (.gfxIdleReturn k) s = .next (s.toCompute k.val) := by
  change execGfxIdleReturn k s = _
  simp [execGfxIdleReturn, hunits, hdue]

theorem gfxIdleReturn_of_not {s : State} {k : Fin 12} (h : s.gfx.units ≠ []
      ∨ s.time < max s.gfx.lastWork (s.cluster k.val).idleSince + us (10 * s.fld Reg.SCH_GFX_CTRL 31 24)) :
    exec (.gfxIdleReturn k) s = .next s := by
  change execGfxIdleReturn k s = _
  rcases h with h | h <;> simp [execGfxIdleReturn, h]

/-! ## The statement -/

/-- Settles O46, by the parts above: requests, answers, and the steps of a switch. -/
theorem preemptionAndModes : Obligations.PreemptionAndModes := by
  intro s hclu hquench
  refine ⟨?_, fun q => slicePreempt_of_not_placeable, ?_, fun k => preemptAnswer_of_none, ?_,
    fun k => modeSwitchToGraphics_of_next hclu hquench, modeSwitchToGraphics_of_not, ?_, fun k => drainSliceExpired_of_not_due, ?_,
    fun k => modeSwitchComplete_of_busy, fun k => ⟨gfxIdleReturn_of_idle, gfxIdleReturn_of_not⟩⟩
  · intro q u kn key hq hp
    refine ⟨fun k hrt ⟨t, hsince, hwaited⟩ htarget => slicePreempt_of_target hquench hq hp hrt hsince hwaited htarget,
      slicePreempt_of_not hq hp, fun k honly hlast hmode ⟨n, h, hn, hh, hrt, hv, hpos⟩ => ?_⟩
    exact sliceTarget_of_only honly hlast (largerHeld_pos hmode hn hh hrt hv hpos)
  · intro k x h
    rw [preemptAsk_of_none x h]
    exact ⟨by rw [cluster_setCluster_self], fun j hj => cluster_setCluster_ne s _ hj⟩
  · intro k p hp
    exact ⟨fun h => preemptAnswer_of_not_at_rest hp (Bool.eq_false_iff.2 (mt (atRest_iff s k.val p).1 h)),
      fun h => preemptAnswer_of_at_rest hquench hp ((atRest_iff s k.val p).2 h)⟩
  · intro k t hdrain hdue
    refine ⟨drainSliceExpired_of_normal_block hquench hdrain hdue, drainSliceExpired_of_rt_blocks hquench hdrain hdue,
      fun hscratch => ⟨fun j hj => ?_, fun hj => ?_⟩⟩
    · rw [drainSliceExpired_of_scratch hquench hdrain hdue hscratch]
      simp only [hj]
      rfl
    · rw [drainSliceExpired_of_scratch hquench hdrain hdue hscratch]
      simp only [hj]
      rfl
  · intro k hblocks hpreempt
    exact ⟨modeSwitchComplete_of_drained hclu hquench hblocks hpreempt, fun hdrain =>
      ⟨modeSwitchComplete_of_return hclu hquench hblocks hpreempt hdrain,
        modeSwitchComplete_of_no_switch hclu hquench hblocks hpreempt hdrain⟩⟩

end Sys2Proof.Machine
end

section
/-! PROOFS. The words of shader instructions (O60): a word is its fields one above the other, each of which a division and a remainder
give back (R53, R54). -/

namespace Sys2Proof

/-- A field of `n` bits with the number that stands above it. -/
def joinField {n : Nat} (v : BitVec n) (w : Nat) : Nat := v.toNat + 2 ^ n * w

/-! ## Reading a field -/

theorem joinField_div {n : Nat} (v : BitVec n) (w : Nat) : joinField v w / 2 ^ n = w := by
  rw [joinField, Nat.add_mul_div_left _ _ (Nat.two_pow_pos n), Nat.div_eq_of_lt v.isLt, Nat.zero_add]

theorem joinField_div_skip {n k : Nat} (v : BitVec n) (w : Nat) (h : n ≤ k) : joinField v w / 2 ^ k = w / 2 ^ (k - n) := by
  rw [← Nat.add_sub_cancel' h, pow_add, ← Nat.div_div_eq_div_mul, joinField_div, Nat.add_sub_cancel_left]

theorem wordField_joinField_self {n : Nat} (v : BitVec n) (w : Nat) : wordField (joinField v w) 0 n = v := by
  apply BitVec.eq_of_toNat_eq
  rw [wordField, pow_zero, Nat.div_one, BitVec.toNat_ofNat, joinField, Nat.add_mul_mod_self_left, Nat.mod_eq_of_lt v.isLt]

theorem wordField_joinField_skip {n lo m : Nat} (v : BitVec n) (w : Nat) (h : n ≤ lo) :
    wordField (joinField v w) lo m = wordField w (lo - n) m := by
  rw [wordField, joinField_div_skip v w h, wordField]

theorem wordBit_joinField_self (x : Bool) (w : Nat) : wordBit (joinField (BitVec.ofBool x) w) 0 = x := by
  cases x <;> simp [wordBit, joinField, Nat.add_mul_mod_self_left]

theorem wordBit_joinField_skip {n k : Nat} (v : BitVec n) (w : Nat) (h : n ≤ k) :
    wordBit (joinField v w) k = wordBit w (k - n) := by
  rw [wordBit, joinField_div_skip v w h, wordBit]

theorem wordField_zero (lo n : Nat) : wordField 0 lo n = 0 := by simp [wordField]

theorem wordField_div (w j lo n : Nat) : wordField (w / 2 ^ j) lo n = wordField w (j + lo) n := by
  rw [wordField, Nat.div_div_eq_div_mul, ← pow_add, wordField]

/-! ## Putting the fields together again -/

theorem joinField_wordField {w lo n hi : Nat} (h : hi = lo + n) : joinField (wordField w lo n) (w / 2 ^ hi) = w / 2 ^ lo := by
  rw [joinField, wordField, BitVec.toNat_ofNat, h, pow_add, ← Nat.div_div_eq_div_mul, Nat.mod_add_div]

theorem ofBool_wordBit (w k : Nat) : BitVec.ofBool (wordBit w k) = wordField w k 1 := by
  apply BitVec.eq_of_toNat_eq
  rw [BitVec.toNat_ofBool, wordField, BitVec.toNat_ofNat, pow_one, wordBit]
  rcases Nat.mod_two_eq_zero_or_one (w / 2 ^ k) with h | h <;> rw [h] <;> rfl

theorem joinField_wordBit {w k hi : Nat} (h : hi = k + 1) :
    joinField (BitVec.ofBool (wordBit w k)) (w / 2 ^ hi) = w / 2 ^ k := by
  rw [ofBool_wordBit, joinField_wordField h]

/-! ## The two halves of an instruction -/

/-- The lower 64 bits of an instruction under the number `hi` (R53). -/
def Insn.lower (i : Insn) (hi : Nat) : Nat :=
  joinField (.ofBool i.long) <| joinField (.ofBool i.pair) <| joinField i.pg <| joinField (.ofBool i.pgn) <| joinField i.cls <|
  joinField i.op <| joinField i.dst <| joinField i.srca <| joinField i.srcb <| joinField i.srcc <| joinField i.mod <|
  joinField i.type <| joinField i.pd <| joinField i.bsel <| joinField (.ofBool i.rsv63) hi

/-- The upper 64 bits, which the long form has (R54). -/
def Insn.upper (i : Insn) : Nat := joinField i.imm <| joinField i.srcd <| joinField i.ext <| joinField i.rsvHi 0

theorem toNat_ofBool_mul (x : Bool) (k : Nat) : (BitVec.ofBool x).toNat * k = if x then k else 0 := by cases x <;> simp

theorem Insn.word_eq_lower (i : Insn) : i.word = i.lower (if i.long then i.upper else 0) := by
  have hbit : ∀ (x : Bool) (k : Nat), (if x then 2 ^ k else 0) = (BitVec.ofBool x).toNat * 2 ^ k := fun x k =>
    (toNat_ofBool_mul x _).symm
  simp only [Insn.word, Insn.lower, Insn.upper, joinField, hbit]
  split <;> ring

theorem Insn.lower_div (i : Insn) (hi : Nat) : i.lower hi / 2 ^ 64 = hi := by
  have hlast : joinField (.ofBool i.rsv63) hi / 2 = hi := joinField_div _ hi
  simp [Insn.lower, joinField_div_skip, hlast, -Nat.reducePow]

theorem Insn.lower_eq_add (i : Insn) (hi : Nat) : i.lower hi = i.lower 0 + 2 ^ 64 * hi := by
  simp only [Insn.lower, joinField]
  ring

theorem Insn.lower_mod (i : Insn) (hi : Nat) : i.lower hi % 2 ^ 64 = i.lower 0 := by
  have hlt : i.lower 0 < 2 ^ 64 := Nat.lt_of_div_eq_zero (Nat.two_pow_pos 64) (i.lower_div 0)
  rw [i.lower_eq_add, Nat.add_mul_mod_self_left, Nat.mod_eq_of_lt hlt]

/-- A word put together in the order of R53 and R54 reads back: the lower fields, and the upper ones where the form is long. -/
theorem Insn.ofWord_lower (i : Insn) (hi : Nat) :
    Insn.ofWord (i.lower hi) =
      let up := if i.long then hi else 0
      { i with imm := wordField up 0 32, srcd := wordField up 32 8, ext := wordField up 40 8, rsvHi := wordField up 48 16 } := by
  rw [Insn.ofWord, Insn.lower_div]
  simp [Insn.lower, wordField_joinField_self, wordField_joinField_skip, wordBit_joinField_self, wordBit_joinField_skip]

theorem Insn.ofWord_word {i : Insn} (h : i.wf = true) : Insn.ofWord i.word = i := by
  rw [Insn.word_eq_lower, Insn.ofWord_lower]
  cases hl : i.long with
  | true => simp [Insn.upper, wordField_joinField_self, wordField_joinField_skip, ← hl]
  | false =>
    cases i
    simp_all [Insn.wf, wordField_zero]

theorem Insn.lower_ofWord (w : Nat) : (Insn.ofWord w).lower (w / 2 ^ 64) = w := by
  have hlong : joinField (.ofBool (wordBit w 0)) (w / 2 ^ 1) = w := (joinField_wordBit rfl).trans (Nat.div_one w)
  simpa [Insn.lower, Insn.ofWord, joinField_wordField, joinField_wordBit, -Nat.reducePow] using hlong

theorem Insn.upper_ofWord {w : Nat} (h : w < 2 ^ 128) (hl : wordBit w 0 = true) : (Insn.ofWord w).upper = w / 2 ^ 64 := by
  have hrsv : joinField (wordField w 112 16) 0 = w / 2 ^ 112 := by
    rw [← Nat.div_eq_of_lt h, joinField_wordField rfl]
  simp [Insn.upper, Insn.ofWord, hl, wordField_div, hrsv, joinField_wordField, -Nat.reducePow]

/-- The short form's upper half is not of the word (R54). -/
theorem Insn.word_ofWord_short {w : Nat} (h : wordBit w 0 = false) : (Insn.ofWord w).word = w % 2 ^ 64 := by
  have hlong : (Insn.ofWord w).long = false := h
  rw [Insn.word_eq_lower, hlong, if_neg (by decide), ← Insn.lower_mod _ (w / 2 ^ 64), Insn.lower_ofWord]

theorem Insn.word_ofWord_long {w : Nat} (h : w < 2 ^ 128) (hl : wordBit w 0 = true) : (Insn.ofWord w).word = w := by
  have hlong : (Insn.ofWord w).long = true := hl
  rw [Insn.word_eq_lower, if_pos hlong, Insn.upper_ofWord h hl, Insn.lower_ofWord]

theorem Insn.wf_ofWord (w : Nat) : (Insn.ofWord w).wf = true := by
  cases h : wordBit w 0 <;> simp [Insn.wf, Insn.ofWord, h, wordField_zero]

/-- Settles O60: the fields of a word and the word of its fields, in the long and in the short form. -/
theorem insnRoundTrip : Obligations.InsnRoundTrip := by
  refine ⟨fun i => Insn.ofWord_word, fun w hw => ⟨Insn.wf_ofWord w, ?_⟩⟩
  cases hl : wordBit w 0 with
  | true => rw [Insn.word_ofWord_long hw hl, if_pos (by simpa [wordBit] using hl)]
  | false => rw [Insn.word_ofWord_short hl, if_neg (by simpa [wordBit] using hl)]

end Sys2Proof
end

section
/-! PROOFS. The integer opcodes (O27): each as the operation on bit vectors of its operand width (R57, R606, R607). -/

namespace Sys2Proof.Machine

/-! ## Readings of a word -/

theorem typeBits_cases (t : Nat) : typeBits t = 32 ∨ typeBits t = 64 := by
  unfold typeBits
  split
  · exact .inr rfl
  · exact .inl rfl

theorem typeBits_pos (t : Nat) : 0 < typeBits t := by rcases typeBits_cases t with h | h <;> omega

theorem wrapInt_lt (n : Nat) (i : Int) : wrapInt n i < 2 ^ n := by
  have hpos : (0 : Int) < (2 ^ n : Nat) := by exact_mod_cast Nat.two_pow_pos n
  have hlt := Int.emod_lt_of_pos i hpos
  have hnonneg := Int.emod_nonneg i hpos.ne'
  unfold wrapInt
  omega

theorem ofNat_wrapInt (w : Nat) (i : Int) : BitVec.ofNat w (wrapInt w i) = BitVec.ofInt w i := by
  apply BitVec.eq_of_toNat_eq
  rw [BitVec.toNat_ofNat, BitVec.toNat_ofInt, Nat.mod_eq_of_lt (wrapInt_lt w i), wrapInt]

theorem signed_toNat {w : Nat} (a : BitVec w) (h : 0 < w) : signed w a.toNat = a.toInt := by
  obtain ⟨n, rfl⟩ := Nat.exists_eq_succ_of_ne_zero h.ne'
  have hhalf : 2 ^ (n + 1) = 2 * 2 ^ n := by ring
  rw [signed, BitVec.toInt_eq_toNat_cond, Nat.mod_eq_of_lt a.isLt, Nat.succ_sub_one]
  simp only [Nat.succ_eq_add_one, hhalf, Nat.mul_lt_mul_left two_pos]

theorem typeVal_toNat (t : Nat) (a : BitVec (typeBits t)) :
    typeVal t a.toNat = if typeSigned t then a.toInt else (a.toNat : Int) := by
  rw [typeVal, signed_toNat a (typeBits_pos t), Nat.mod_eq_of_lt a.isLt]

/-! ## Products and shifts -/

theorem emod_mul_self_ediv {m : Int} (h : 0 < m) (i : Int) : i % (m * m) / m = i / m % m := by
  have hlow := Int.emod_add_mul_ediv i m
  have hhigh := Int.emod_add_mul_ediv (i / m) m
  have hr := Int.emod_nonneg i h.ne'
  have hr' := Int.emod_lt_of_pos i h
  have hq := Int.emod_nonneg (i / m) h.ne'
  have hq' := Int.emod_lt_of_pos (i / m) h
  have hmod : i % (m * m) = i % m + m * (i / m % m) :=
    ((Int.ediv_emod_unique (q := i / m / m) (mul_pos h h)).2 ⟨by linear_combination hlow + m * hhigh, by positivity, by nlinarith⟩).2
  rw [hmod, Int.add_mul_ediv_left _ _ h.ne', Int.ediv_eq_zero_of_lt hr hr', zero_add]

/-- The high half of a product modulo `2 ^ (2 * w)` is the product divided by `2 ^ w`. -/
theorem extractLsb'_ofInt_high (w : Nat) (i : Int) :
    (BitVec.ofInt (2 * w) i).extractLsb' w w = BitVec.ofInt w (i / (2 ^ w : Nat)) := by
  have hpow : ((2 ^ (2 * w) : Nat) : Int) = (2 ^ w : Nat) * (2 ^ w : Nat) := by rw [two_mul, pow_add]; push_cast; rfl
  have hpos : (0 : Int) < (2 ^ w : Nat) := by exact_mod_cast Nat.two_pow_pos w
  apply BitVec.eq_of_toNat_eq
  rw [BitVec.extractLsb'_toNat, BitVec.toNat_ofInt, BitVec.toNat_ofInt, Nat.shiftRight_eq_div_pow, hpow]
  apply Int.ofNat_inj.1
  rw [Int.natCast_emod, Int.natCast_ediv, Int.toNat_of_nonneg (Int.emod_nonneg _ (mul_pos hpos hpos).ne'),
    Int.toNat_of_nonneg (Int.emod_nonneg _ hpos.ne'), emod_mul_self_ediv hpos, Int.emod_emod_of_dvd _ dvd_rfl]

theorem shiftVal_left (t n : Nat) (a : BitVec (typeBits t)) :
    BitVec.ofNat (typeBits t) (shiftVal false t a.toNat n) = a <<< n := by
  apply BitVec.eq_of_toNat_eq
  rw [BitVec.toNat_ofNat, BitVec.toNat_shiftLeft, Nat.shiftLeft_eq, shiftVal]
  rcases Nat.le_total n (typeBits t) with h | h
  · simp [Nat.min_eq_left h]
  · simp [Nat.min_eq_right h, Nat.mod_eq_zero_of_dvd (Dvd.dvd.mul_left (Nat.pow_dvd_pow 2 h) a.toNat)]

/-- A divisor beyond a number's magnitude leaves its sign. -/
theorem ediv_eq_sign {i N : Int} (hlo : -N ≤ i) (hhi : i < N) : i / N = if i < 0 then -1 else 0 := by
  split
  · exact ((Int.ediv_emod_unique (by omega)).2 ⟨(by ring : i + N + N * -1 = i), by omega, by omega⟩).1
  · exact Int.ediv_eq_zero_of_lt (by omega) hhi

/-- A count of the width or more leaves the sign of a signed value. -/
theorem toInt_ediv_two_pow {w n : Nat} (a : BitVec w) (h : w ≤ n) : a.toInt / (2 ^ n : Nat) = a.toInt / (2 ^ w : Nat) := by
  have hpow : ((2 ^ w : Nat) : Int) ≤ (2 ^ n : Nat) := by exact_mod_cast Nat.pow_le_pow_right two_pos h
  have hlo := BitVec.le_two_mul_toInt (x := a)
  have hhi := BitVec.two_mul_toInt_lt (x := a)
  push_cast at hpow ⊢
  rw [ediv_eq_sign (N := 2 ^ n) (by omega) (by omega), ediv_eq_sign (N := 2 ^ w) (by omega) (by omega)]

theorem shiftVal_right (t n : Nat) (a : BitVec (typeBits t)) :
    BitVec.ofNat (typeBits t) (shiftVal true t a.toNat n) = if typeSigned t then a.sshiftRight n else a >>> n := by
  unfold shiftVal
  rw [if_pos rfl]
  split
  · rw [ofNat_wrapInt, signed_toNat a (typeBits_pos t), BitVec.sshiftRight_eq, Int.shiftRight_eq_div_pow]
    rcases Nat.le_total n (typeBits t) with h | h
    · rw [Nat.min_eq_left h]
    · rw [Nat.min_eq_right h, toInt_ediv_two_pow a h]
  · apply BitVec.eq_of_toNat_eq
    rw [BitVec.toNat_ofNat, BitVec.toNat_ushiftRight, Nat.shiftRight_eq_div_pow, Nat.mod_eq_of_lt a.isLt,
      Nat.mod_eq_of_lt (lt_of_le_of_lt (Nat.div_le_self ..) a.isLt)]
    rcases Nat.le_total n (typeBits t) with h | h
    · rw [Nat.min_eq_left h]
    · rw [Nat.min_eq_right h, Nat.div_eq_of_lt a.isLt, Nat.div_eq_of_lt (lt_of_lt_of_le a.isLt (Nat.pow_le_pow_right two_pos h))]

/-! ## Results stay in the operand width -/

theorem popcount_le (n v : Nat) : popcount n v ≤ n := by
  induction n generalizing v with
  | zero => exact le_rfl
  | succ n ih =>
    have hbit := Nat.mod_lt v two_pos
    have htail := ih (v / 2)
    simp only [popcount]
    omega

theorem lzc_le (n v : Nat) : lzc n v ≤ n := by
  unfold lzc
  split <;> omega

theorem shiftVal_lt (right : Bool) (t v n : Nat) : shiftVal right t v n < 2 ^ typeBits t := by
  have hmod : ∀ k, k % 2 ^ typeBits t < 2 ^ typeBits t := fun k => Nat.mod_lt k (Nat.two_pow_pos _)
  unfold shiftVal
  split
  · split
    · exact wrapInt_lt ..
    · exact lt_of_le_of_lt (Nat.div_le_self ..) (hmod v)
  · exact hmod _

theorem ialuVal_lt {op t : Nat} (a b c : BitVec (typeBits t)) (h : op ≤ 12) :
    ialuVal op t a.toNat b.toNat c.toNat < 2 ^ typeBits t := by
  have hmod : ∀ k, k % 2 ^ typeBits t < 2 ^ typeBits t := fun k => Nat.mod_lt k (Nat.two_pow_pos _)
  have hle : ∀ k, k ≤ typeBits t → k < 2 ^ typeBits t := fun k hk => lt_of_le_of_lt hk Nat.lt_two_pow_self
  interval_cases op
  · exact hmod _
  · exact wrapInt_lt ..
  · exact hmod _
  · exact wrapInt_lt ..
  · exact hmod _
  · exact Nat.and_lt_two_pow _ b.isLt
  · exact Nat.or_lt_two_pow a.isLt b.isLt
  · exact Nat.xor_lt_two_pow a.isLt b.isLt
  · have hpos := Nat.two_pow_pos (typeBits t)
    simp only [ialuVal]
    omega
  · exact shiftVal_lt false ..
  · exact shiftVal_lt true ..
  · exact hle _ (popcount_le ..)
  · exact hle _ (lzc_le ..)

/-! ## Leading zeros and bit fields -/

theorem lzc_zero (n : Nat) : lzc n 0 = n := by simp [lzc]

theorem lzc_of_highest {n k v : Nat} (hk : k < n) (hv : v / 2 ^ k = 1) : lzc n v = n - 1 - k := by
  have hpow : 2 ^ (k + 1) ≤ 2 ^ n := Nat.pow_le_pow_right two_pos hk
  have hdiv := Nat.div_add_mod v (2 ^ k)
  have hmod := Nat.mod_lt v (Nat.two_pow_pos k)
  rw [hv] at hdiv
  have hv0 : v ≠ 0 := by
    rintro rfl
    simp at hv
  have hlog : Nat.log2 v = k := (Nat.log2_eq_iff hv0).2 ⟨by omega, by rw [pow_succ]; omega⟩
  rw [lzc, Nat.mod_eq_of_lt (by rw [pow_succ] at hpow; omega), if_neg hv0, hlog]

theorem xbit_eq (t : Nat) (a b : BitVec 32) :
    xbit t a.toNat b.toNat =
      let n := bits b.toNat 12 8 + 1
      let f := a.toNat / 2 ^ bits b.toNat 4 0 % 2 ^ n
      if typeSigned t ∧ 2 ^ (n - 1) ≤ f then f + 2 ^ 32 - 2 ^ n else f := by
  have hn : bits b.toNat 12 8 + 1 ≤ 32 := by unfold bits; omega
  simp only [xbit, Nat.mod_eq_of_lt a.isLt, Nat.add_sub_cancel]
  generalize bits b.toNat 12 8 = m at hn ⊢
  have hf := Nat.mod_lt (a.toNat / 2 ^ bits b.toNat 4 0) (Nat.two_pow_pos (m + 1))
  generalize a.toNat / 2 ^ bits b.toNat 4 0 % 2 ^ (m + 1) = f at hf ⊢
  have hpow : 2 ^ (m + 1) ≤ 2 ^ 32 := Nat.pow_le_pow_right two_pos hn
  cases typeSigned t with
  | false => simp
  | true =>
    simp only [true_and, if_true, signed, Nat.mod_eq_of_lt hf, Nat.add_sub_cancel, wrapInt]
    split <;> split <;> omega

/-! ## The statement -/

section Ops
variable {t : Nat} (a b c : BitVec (typeBits t))

theorem ialuVal_add : BitVec.ofNat (typeBits t) (ialuVal 0 t a.toNat b.toNat c.toNat) = a + b :=
  BitVec.eq_of_toNat_eq (by simp [ialuVal])

theorem ialuVal_sub : BitVec.ofNat (typeBits t) (ialuVal 1 t a.toNat b.toNat c.toNat) = a - b := by
  rw [ialuVal, ofNat_wrapInt, Int.sub_eq_add_neg, BitVec.ofInt_add, BitVec.ofInt_neg, BitVec.ofInt_natCast, BitVec.ofInt_natCast,
    BitVec.ofNat_toNat, BitVec.ofNat_toNat, BitVec.setWidth_eq, BitVec.setWidth_eq, BitVec.sub_eq_add_neg]

theorem ialuVal_mul : BitVec.ofNat (typeBits t) (ialuVal 2 t a.toNat b.toNat c.toNat) = a * b :=
  BitVec.eq_of_toNat_eq (by simp [ialuVal])

theorem ialuVal_mad : BitVec.ofNat (typeBits t) (ialuVal 4 t a.toNat b.toNat c.toNat) = a * b + c :=
  BitVec.eq_of_toNat_eq (by simp [ialuVal])

theorem ialuVal_and : BitVec.ofNat (typeBits t) (ialuVal 5 t a.toNat b.toNat c.toNat) = a &&& b := by
  change BitVec.ofNat _ (a.toNat &&& b.toNat) = _
  simp [BitVec.ofNat_and]

theorem ialuVal_or : BitVec.ofNat (typeBits t) (ialuVal 6 t a.toNat b.toNat c.toNat) = a ||| b := by
  change BitVec.ofNat _ (a.toNat ||| b.toNat) = _
  simp [BitVec.ofNat_or]

theorem ialuVal_xor : BitVec.ofNat (typeBits t) (ialuVal 7 t a.toNat b.toNat c.toNat) = a ^^^ b := by
  change BitVec.ofNat _ (a.toNat ^^^ b.toNat) = _
  simp [BitVec.ofNat_xor]

theorem ialuVal_mulh : BitVec.ofNat (typeBits t) (ialuVal 3 t a.toNat b.toNat c.toNat) =
    if typeSigned t then (a.signExtend (2 * typeBits t) * b.signExtend (2 * typeBits t)).extractLsb' (typeBits t) (typeBits t)
    else (a.setWidth (2 * typeBits t) * b.setWidth (2 * typeBits t)).extractLsb' (typeBits t) (typeBits t) := by
  simp only [ialuVal, ofNat_wrapInt, ← extractLsb'_ofInt_high, BitVec.ofInt_mul, typeVal_toNat]
  split
  · rfl
  · simp only [BitVec.ofInt_natCast, BitVec.ofNat_toNat]

theorem ialuVal_not : BitVec.ofNat (typeBits t) (ialuVal 8 t a.toNat b.toNat c.toNat) = ~~~a := by
  apply BitVec.eq_of_toNat_eq
  have hlt := a.isLt
  rw [BitVec.toNat_ofNat, BitVec.toNat_not, ialuVal, Nat.mod_eq_of_lt hlt, Nat.mod_eq_of_lt (by omega)]

end Ops

/-- Settles O27, opcode by opcode. -/
theorem integerResults : Obligations.IntegerResults := by
  rintro t w - - rfl
  refine ⟨fun a b c n => ⟨ialuVal_add a b c, ialuVal_sub a b c, ialuVal_mul a b c, ialuVal_mad a b c, ialuVal_and a b c,
    ialuVal_or a b c, ialuVal_xor a b c, ialuVal_not a b c, ialuVal_mulh a b c, shiftVal_left t n a, shiftVal_right t n a,
    fun op => ialuVal_lt a b c, lzc_zero _, fun k => lzc_of_highest⟩, fun _ _ a b => xbit_eq t a b⟩

end Sys2Proof.Machine
end

section
/-! PROOFS. Floating-point results (O28): rounding a value that a format has gives its code, so the NaN, the sign and the order of the
operands decide the results that R58, R101 and R103 state. -/

namespace Sys2Proof.Machine

/-! ## Rounding a value that the format has -/

theorem roundDiv_mul (m : Rnd) (neg : Bool) (n : Nat) {d : Nat} (h : 0 < d) : roundDiv m neg (n * d) d = n := by
  have hup : m.up neg n 0 d = false := by cases m <;> simp [Rnd.up, h.ne']
  rw [roundDiv, if_neg h.ne', Nat.mul_div_cancel _ h, Nat.mul_mod_left, hup]
  rfl

theorem dyadic_of_nonneg (n k : Nat) : dyadic n k = (n * 2 ^ k, 1) := by simp [dyadic]

theorem dyadic_of_neg (n k : Nat) : dyadic n (-k) = (n, 2 ^ k) := by
  unfold dyadic
  split
  · obtain rfl : k = 0 := by omega
    simp
  · simp

theorem log2_one : Nat.log2 1 = 0 := Nat.log2_two_pow (n := 0)

theorem log2_mul_two_pow {n : Nat} (h : n ≠ 0) (k : Nat) : Nat.log2 (n * 2 ^ k) = Nat.log2 n + k := by
  have hlt : n < 2 ^ (Nat.log2 n + 1) := Nat.lt_log2_self
  refine (Nat.log2_eq_iff (Nat.mul_ne_zero h (Nat.two_pow_pos k).ne')).2 ⟨?_, ?_⟩
  · rw [pow_add]
    exact Nat.mul_le_mul_right _ (Nat.log2_self_le h)
  · rw [Nat.add_right_comm, pow_add]
    exact Nat.mul_lt_mul_of_pos_right hlt (Nat.two_pow_pos k)

/-- Where the difference of the two logarithms is not too large, it is the quotient's. -/
theorem floorLog2Div_eq {n d : Nat} {k : Int} (hk : (Nat.log2 n : Int) - Nat.log2 d = k) (hpos : 0 ≤ k → d * 2 ^ k.toNat ≤ n)
    (hneg : k < 0 → d ≤ n * 2 ^ (-k).toNat) : floorLog2Div n d = k := by
  rw [floorLog2Div, hk]
  by_cases h : 0 ≤ k
  · simp [h, hpos h]
  · simp [h, hneg (by omega)]

theorem floorLog2Div_dyadic {n : Nat} (h : n ≠ 0) (e : Int) : floorLog2Div (dyadic n e).1 (dyadic n e).2 = Nat.log2 n + e := by
  have hle : 2 ^ Nat.log2 n ≤ n := Nat.log2_self_le h
  obtain ⟨k, rfl | rfl⟩ := e.eq_nat_or_neg
  · rw [dyadic_of_nonneg]
    refine floorLog2Div_eq (by rw [log2_mul_two_pow h, log2_one]; simp) (fun _ => ?_) (fun _ => by omega)
    rw [one_mul, ← Nat.cast_add, Int.toNat_natCast, pow_add]
    exact Nat.mul_le_mul_right _ hle
  · rw [dyadic_of_neg]
    refine floorLog2Div_eq (by rw [Nat.log2_two_pow]; ring) (fun hk => ?_) (fun hk => ?_)
    · rw [← pow_add, show k + (Nat.log2 n + -(k : Int)).toNat = Nat.log2 n by omega]
      exact hle
    · calc 2 ^ k = 2 ^ Nat.log2 n * 2 ^ (-(Nat.log2 n + -(k : Int))).toNat := by rw [← pow_add]; congr 1; omega
        _ ≤ n * 2 ^ (-(Nat.log2 n + -(k : Int))).toNat := Nat.mul_le_mul_right _ hle

/-- Dividing a value by the unit of its own exponent leaves the significand. -/
theorem roundDiv_dyadic (m : Rnd) (neg : Bool) (n : Nat) (e : Int) :
    (if 0 ≤ e then roundDiv m neg (dyadic n e).1 ((dyadic n e).2 * 2 ^ e.toNat)
      else roundDiv m neg ((dyadic n e).1 * 2 ^ (-e).toNat) (dyadic n e).2) = n := by
  unfold dyadic
  split
  · simp only [one_mul, roundDiv_mul m neg n (Nat.two_pow_pos _)]
  · simp only [roundDiv_mul m neg n (Nat.two_pow_pos _)]

/-- The exponent of a format's least unit. -/
def unitExp (eb mb : Nat) : Int := 1 - (2 ^ (eb - 1) - 1) - mb

/-- A significand that fits keeps its exponent: its unit is the format's least one, or its leading bit stands at `2 ^ mb`. -/
theorem magCode_dyadic (m : Rnd) {eb mb n : Nat} (neg : Bool) {e : Int} (h0 : n ≠ 0) (hlt : n < 2 ^ (mb + 1))
    (he : unitExp eb mb ≤ e) (hlead : 2 ^ mb ≤ n ∨ e = unitExp eb mb) :
    magCode m eb mb neg (dyadic n e).1 (dyadic n e).2 = (e - unitExp eb mb).toNat * 2 ^ mb + n := by
  have hn : (dyadic n e).1 ≠ 0 ∧ (dyadic n e).2 ≠ 0 := by
    unfold dyadic
    split <;> simp [h0]
  have hlog : Nat.log2 n < mb + 1 := (Nat.log2_lt h0).2 hlt
  have hlead' : mb ≤ Nat.log2 n ∨ e = unitExp eb mb := hlead.imp_left (Nat.le_log2 h0).2
  have hu : max (Nat.log2 n + e - mb) (unitExp eb mb) = e := by omega
  rw [magCode, if_neg (by tauto)]
  simp only [floorLog2Div_dyadic h0]
  change (max _ (unitExp eb mb) - unitExp eb mb).toNat * 2 ^ mb + (if 0 ≤ max _ (unitExp eb mb) then
    roundDiv m neg _ (_ * 2 ^ (max _ (unitExp eb mb)).toNat) else roundDiv m neg (_ * 2 ^ (-max _ (unitExp eb mb)).toNat) _) = _
  rw [hu, roundDiv_dyadic]

/-! ## Words of F32 -/

/-- A word of F32 that is a NaN (R58). -/
abbrev nan32 (w : Nat) : Prop := bits w 30 23 = 255 ∧ bits w 22 0 ≠ 0

/-- A magnitude with a sign. -/
def FVal.withSign (neg : Bool) : FVal → FVal
  | .nan => .nan
  | .inf _ => .inf neg
  | .fin _ n e => .fin neg n e

theorem FVal.withSign_isNeg (v : FVal) : v.withSign v.isNeg = v := by cases v <;> rfl

theorem FVal.abs_eq (v : FVal) : v.abs = v.withSign false := by cases v <;> rfl

theorem FVal.negate_eq (v : FVal) : v.negate = v.withSign (!v.isNeg) := by cases v <;> rfl

theorem f32_of_nan {w : Nat} (h : nan32 w) : f32 w = .nan := by
  obtain ⟨hex, hm⟩ := h
  have hm' : ¬w % 8388608 = 0 := by simpa [bits] using hm
  simp [f32, fdecode, hex, hm']

theorem mantissa_of_inf {w : Nat} (h : ¬nan32 w) (hex : bits w 30 23 = 255) : w % 2 ^ 23 = 0 := by
  by_contra hm
  exact h ⟨hex, by simpa [bits] using hm⟩

theorem f32_of_inf {w : Nat} (hex : bits w 30 23 = 255) (hm : w % 2 ^ 23 = 0) : f32 w = .inf (bit w 31) := by
  norm_num at hm
  simp [f32, fdecode, hex, hm]

theorem f32_of_subnormal {w : Nat} (hex : bits w 30 23 = 0) : f32 w = .fin (bit w 31) (w % 2 ^ 23) (unitExp 8 23) := by
  simp [f32, fdecode, hex, unitExp]

theorem f32_of_normal {w : Nat} (h0 : bits w 30 23 ≠ 0) (h1 : bits w 30 23 ≠ 255) :
    f32 w = .fin (bit w 31) (2 ^ 23 + w % 2 ^ 23) (unitExp 8 23 - 1 + bits w 30 23) := by
  have hex : ¬bits w 30 23 + 1 = 256 := by omega
  simp [f32, fdecode, hex, h0, unitExp]
  omega

theorem mod_two_pow_31 (w : Nat) : w % 2 ^ 31 = bits w 30 23 * 2 ^ 23 + w % 2 ^ 23 := by unfold bits; omega

theorem f32_isNeg {w : Nat} (h : ¬nan32 w) : (f32 w).isNeg = bit w 31 := by
  by_cases h1 : bits w 30 23 = 255
  · rw [f32_of_inf h1 (mantissa_of_inf h h1)]
    rfl
  · by_cases h0 : bits w 30 23 = 0
    · rw [f32_of_subnormal h0]
      rfl
    · rw [f32_of_normal h0 h1]
      rfl

theorem fenc_of_magCode {r : Rnd} {s : Bool} {n c : Nat} {e : Int} (h : magCode r 8 23 s (dyadic n e).1 (dyadic n e).2 = c)
    (hc : c < infCode 8 23) : fenc r 8 23 (.fin s n e) = fsign 8 23 s c := by
  simp only [fenc, h, if_pos hc]

/-- Whatever the rounding, a value of F32 under either sign has the code of its magnitude. -/
theorem fenc_withSign_f32 (r : Rnd) (s : Bool) {w : Nat} (h : ¬nan32 w) :
    fenc r 8 23 ((f32 w).withSign s) = fsign 8 23 s (w % 2 ^ 31) := by
  have hw := mod_two_pow_31 w
  have hlt : w % 2 ^ 23 < 2 ^ 23 := Nat.mod_lt _ (by decide)
  have hex : bits w 30 23 < 256 := Nat.mod_lt _ (by decide)
  have hinf : infCode 8 23 = 255 * 2 ^ 23 := rfl
  by_cases h1 : bits w 30 23 = 255
  · have hm := mantissa_of_inf h h1
    rw [f32_of_inf h1 hm, hw, h1, hm]
    rfl
  by_cases h0 : bits w 30 23 = 0
  · rw [f32_of_subnormal h0]
    refine fenc_of_magCode ?_ (by omega)
    by_cases hm : w % 2 ^ 23 = 0
    · rw [hw, h0, hm]
      rfl
    · rw [magCode_dyadic r s hm (by omega) le_rfl (.inr rfl), sub_self]
      omega
  · rw [f32_of_normal h0 h1]
    refine fenc_of_magCode ?_ (by omega)
    rw [magCode_dyadic r s (by omega) (by omega) (by omega) (.inl (by omega))]
    omega

theorem bit_eq_testBit (v i : Nat) : bit v i = v.testBit i := by
  rw [Nat.testBit_eq_decide_div_mod_eq, bit]
  rfl

theorem fsign_bit31 {w : Nat} (h : w < 2 ^ 32) : fsign 8 23 (bit w 31) (w % 2 ^ 31) = w := by
  rcases Nat.lt_or_ge w (2 ^ 31) with hlt | hge
  · have hbit : bit w 31 = false := by simp only [bit, beq_eq_false_iff_ne]; omega
    rw [hbit, fsign, if_neg (by decide)]
    omega
  · have hbit : bit w 31 = true := by simp only [bit, beq_iff_eq]; omega
    rw [hbit, fsign, if_pos rfl]
    omega

theorem fenc_f32 (r : Rnd) {a : BitVec 32} (h : ¬nan32 a.toNat) : fenc r 8 23 (f32 a.toNat) = a.toNat := by
  rw [← (f32 a.toNat).withSign_isNeg, f32_isNeg h, fenc_withSign_f32 r _ h, fsign_bit31 a.isLt]

theorem fenc_f32_abs (r : Rnd) {a : BitVec 32} (h : ¬nan32 a.toNat) : fenc r 8 23 (f32 a.toNat).abs = a.toNat % 2 ^ 31 := by
  rw [FVal.abs_eq, fenc_withSign_f32 r _ h, fsign, if_neg (by decide), Nat.zero_add]

theorem fenc_f32_negate (r : Rnd) {a : BitVec 32} (h : ¬nan32 a.toNat) : fenc r 8 23 (f32 a.toNat).negate = (a ^^^ 0x80000000).toNat := by
  have hflip : bit (a ^^^ 0x80000000).toNat 31 = !bit a.toNat 31 := by
    rw [bit_eq_testBit, bit_eq_testBit, BitVec.toNat_xor, Nat.testBit_xor]
    exact Bool.xor_true _
  have hrest : (a ^^^ 0x80000000).toNat % 2 ^ 31 = a.toNat % 2 ^ 31 := by
    rw [BitVec.toNat_xor, Nat.xor_mod_two_pow]
    exact Nat.xor_zero _
  rw [FVal.negate_eq, f32_isNeg h, fenc_withSign_f32 r _ h, ← hflip, ← hrest, fsign_bit31 (a ^^^ 0x80000000).isLt]

/-! ## NaN operands (R58) -/

theorem FVal.plus_nan_right (m : Rnd) (x : FVal) : FVal.plus m x .nan = .nan := by cases x <;> rfl

theorem FVal.times_nan_right (x : FVal) : FVal.times x .nan = .nan := by cases x <;> rfl

theorem FVal.minmax_nan_right (isMax : Bool) (x : FVal) : FVal.minmax isMax x .nan = x := by cases x <;> rfl

theorem cmpFloat_of_nan {mod a b : Nat} (h : nan32 a ∨ nan32 b) : cmpFloat mod a b = decide (8 ≤ mod) := by
  rcases h with h | h
  · rw [cmpFloat, f32_of_nan h]
  · rw [cmpFloat, f32_of_nan h]
    cases f32 a <;> rfl

/-- An arithmetic opcode with a NaN among the operands it reads gives the canonical NaN (R58). -/
theorem faluOp_of_nan {op : Nat} (r : Rnd) {x y : FVal} (z : FVal) (hop : op ≤ 3) (h : x = .nan ∨ y = .nan) :
    faluOp op r [x, y, z] = .nan := by
  rcases h with rfl | rfl
  · interval_cases op <;> rfl
  · interval_cases op
    · exact FVal.plus_nan_right r x
    · exact FVal.plus_nan_right r x
    · exact FVal.times_nan_right x
    · exact congrArg (FVal.plus r · z) (FVal.times_nan_right x)

/-! ## The statement -/

/-- Without SAT and FTZ an operation on F32 is the operation on the words' values, rounded once. -/
theorem fapply_f32 (r : Rnd) (free : Nat → Nat) (op : List FVal → FVal) (ws : List Nat) :
    fapply 0 ⟨r, false, false⟩ free op ws = fenc r 8 23 (op (ws.map f32)) := by
  have hin : (fun w => ftzIn 8 23 w false) = f32 := by funext w; rfl
  simp [fapply, packed, typeFmt, felem, felemOut, ftzOut, hin]

/-- Settles O28: the operands' NaNs decide, and where there is none the values of the words are rounded exactly. -/
theorem floatResults : Obligations.FloatResults := by
  intro r free a b c
  have hz0 : ¬nan32 (0 : BitVec 32).toNat := by decide
  have hz1 : ¬nan32 (0x80000000 : BitVec 32).toNat := by decide
  simp only [fapply_f32, List.map_cons, List.map_nil]
  refine ⟨?_, ?_, ?_, ?_, ?_, ?_, ?_, ?_, ?_, ?_, fun mod _ => cmpFloat_of_nan⟩
  · intro h
    have hnan := h.imp f32_of_nan f32_of_nan
    refine ⟨?_, ?_, ?_, ?_⟩ <;> exact congrArg (fenc r 8 23) (faluOp_of_nan r _ (by decide) hnan)
  · intro h
    rw [f32_of_nan h]
    exact congrArg (fenc r 8 23) (FVal.plus_nan_right r _)
  · intro ha hb
    rw [f32_of_nan ha]
    exact ⟨fenc_f32 r hb, fenc_f32 r hb⟩
  · intro hb ha
    rw [f32_of_nan hb]
    exact ⟨(congrArg _ (FVal.minmax_nan_right ..)).trans (fenc_f32 r ha), (congrArg _ (FVal.minmax_nan_right ..)).trans (fenc_f32 r ha)⟩
  · intro ha hb
    rw [f32_of_nan ha, f32_of_nan hb]
    exact ⟨rfl, rfl⟩
  · exact fenc_f32 r hz1
  · exact fenc_f32 r hz1
  · exact fenc_f32 r hz0
  · exact fenc_f32 r hz0
  · intro ha
    exact ⟨fenc_f32 r ha, fenc_f32_abs r ha, fenc_f32_negate r ha⟩

end Sys2Proof.Machine
end

section
/-! PROOFS. Groups at issue: the rules of a core's and a group's state that the proofs about shader instructions share, the registers that
a write leaves, what an issue says of its instruction, and the check of each running lane. -/

namespace Sys2Proof.Machine

/-! ## Cores, groups and blocks -/

@[simp] theorem core_setCore_self (s : State) (n : Nat) (k : Core) : (s.setCore n k).core n = k := by
  simp [State.core, State.setCore, Sparse.get]

theorem core_setCore_ne (s : State) {n m : Nat} (k : Core) (h : m ≠ n) : (s.setCore n k).core m = s.core m := by
  simp [State.core, State.setCore, Sparse.get, Sparse.find_put_ne _ _ h]

@[simp] theorem core_putGroup_self (s : State) (core slot : Nat) (g : Group) :
    (s.putGroup core slot g).core core = { s.core core with groups := Sparse.put (s.core core).groups slot g } :=
  core_setCore_self ..

theorem core_putGroup_ne (s : State) {core n : Nat} (slot : Nat) (g : Group) (h : n ≠ core) :
    (s.putGroup core slot g).core n = s.core n :=
  core_setCore_ne _ _ h

theorem find_putGroup_self (s : State) (core slot : Nat) (g : Group) :
    Sparse.find ((s.putGroup core slot g).core core).groups slot = some g := by simp

theorem updGroup_of_some {s : State} {core slot : Nat} {g : Group} (f : Group → Group)
    (h : Sparse.find (s.core core).groups slot = some g) : s.updGroup core slot f = s.putGroup core slot (f g) := by
  simp [State.updGroup, h]

theorem groupAt_eq_some {s : State} {core slot : Nat} {g : Group} {b : Block} : s.groupAt core slot = some (g, b) ↔
    Sparse.find (s.core core).groups slot = some g ∧ Sparse.find (s.core core).blocks g.block = some b := by
  unfold State.groupAt
  cases Sparse.find (s.core core).groups slot with
  | none => simp
  | some g' =>
    simp only [Option.map_eq_some_iff, Prod.mk.injEq, Option.some.injEq]
    refine ⟨fun ⟨c, hc, hg, hb⟩ => ⟨hg, hg ▸ hb ▸ hc⟩, fun ⟨hg, hb⟩ => ⟨b, hg ▸ hb, hg, rfl⟩⟩

theorem groupAt_putGroup_self {s : State} {core slot : Nat} {g h : Group} {b : Block} (hg : s.groupAt core slot = some (g, b))
    (hblock : h.block = g.block) : (s.putGroup core slot h).groupAt core slot = some (h, b) := by
  obtain ⟨-, hb⟩ := groupAt_eq_some.1 hg
  exact groupAt_eq_some.2 ⟨find_putGroup_self .., by rw [core_putGroup_self, hblock, hb]⟩

theorem updGroup_of_groupAt {s : State} {core slot : Nat} {g : Group} {b : Block} (f : Group → Group)
    (hg : s.groupAt core slot = some (g, b)) : s.updGroup core slot f = s.putGroup core slot (f g) :=
  updGroup_of_some f (groupAt_eq_some.1 hg).1

/-! ## Registers of a group -/

@[simp] theorem Group.reg_setReg_self (g : Group) (l r v : Nat) : (g.setReg l r v).reg l r = v % 2 ^ 32 := by
  simp [Group.reg, Group.setReg]

theorem Group.reg_setReg_ne (g : Group) {l r k q : Nat} (v : Nat) (hr : r < 256) (hq : q < 256) (h : k ≠ l ∨ q ≠ r) :
    (g.setReg l r v).reg k q = g.reg k q := by
  rw [Group.reg, Group.setReg, Sparse.get_set_ne _ _ _ _ (by omega), Group.reg]

/-- What one lane's write leaves: DST, of a pair the next register too, and nothing of another lane. -/
theorem Group.reg_setVal (g : Group) {wide : Bool} {l r k q : Nat} (v : Nat) (hr : r < 256)
    (hpair : wide = true → r % 2 = 0) (hq : q < 256) :
    (g.setVal wide l r v).reg k q =
      if k ≠ l then g.reg k q else if q = r then v % 2 ^ 32
      else if wide = true ∧ q = r + 1 then v / 2 ^ 32 % 2 ^ 32 else g.reg k q := by
  cases wide with
  | false =>
    by_cases hk : k = l ∧ q = r
    · simp [Group.setVal, hk]
    · rw [Group.setVal, if_neg (by decide), g.reg_setReg_ne v hr hq (by omega)]
      by_cases hkl : k = l
      · simp [hkl, show q ≠ r by tauto]
      · simp [hkl]
  | true =>
    have heven := hpair rfl
    rw [Group.setVal, if_pos rfl]
    by_cases hk : k = l ∧ q = r + 1
    · obtain ⟨rfl, rfl⟩ := hk
      simp
    · rw [Group.reg_setReg_ne _ _ (by omega) hq (by omega)]
      by_cases hk' : k = l ∧ q = r
      · simp [hk']
      · rw [g.reg_setReg_ne v hr hq (by omega)]
        by_cases hkl : k = l
        · simp [hkl, show q ≠ r by tauto, show q ≠ r + 1 by tauto]
        · simp [hkl]

/-- `g` with its registers replaced: everything else of a group stays. -/
theorem Group.setVal_frame (g : Group) (wide : Bool) (l r v : Nat) :
    g.setVal wide l r v = { g with regs := (g.setVal wide l r v).regs } := by cases wide <;> rfl

/-- Writes of one register, or pair, in several lanes. -/
def Group.setLanes (g : Group) (wide : Bool) (r : Nat) (f : Nat → Nat) (ls : List Nat) : Group :=
  ls.foldl (fun g l => g.setVal wide l r (f l)) g

theorem Group.setLanes_frame (g : Group) (wide : Bool) (r : Nat) (f : Nat → Nat) (ls : List Nat) :
    g.setLanes wide r f ls = { g with regs := (g.setLanes wide r f ls).regs } := by
  induction ls generalizing g with
  | nil => rfl
  | cons l ls ih =>
    have htail := ih (g.setVal wide l r (f l))
    rw [g.setVal_frame wide l r (f l)] at htail
    rw [Group.setLanes, List.foldl_cons, ← Group.setLanes, g.setVal_frame wide l r (f l)]
    exact htail

theorem Group.reg_setLanes (g : Group) {wide : Bool} {r : Nat} (f : Nat → Nat) (ls : List Nat) {k q : Nat} (hr : r < 256)
    (hpair : wide = true → r % 2 = 0) (hq : q < 256) :
    (g.setLanes wide r f ls).reg k q =
      if k ∉ ls then g.reg k q else if q = r then f k % 2 ^ 32
      else if wide = true ∧ q = r + 1 then f k / 2 ^ 32 % 2 ^ 32 else g.reg k q := by
  induction ls generalizing g with
  | nil => simp [Group.setLanes]
  | cons l ls ih =>
    have htail := ih (g.setVal wide l r (f l))
    rw [g.reg_setVal (f l) hr hpair hq] at htail
    rw [Group.setLanes, List.foldl_cons, ← Group.setLanes, htail]
    by_cases hk : k = l
    · subst hk
      by_cases hmem : k ∈ ls
      · simp only [hmem, not_true_eq_false, if_false, ne_eq, List.mem_cons, or_true]
        split_ifs <;> rfl
      · simp [hmem]
    · simp [hk]

theorem writes_write (a : At) {wide : Bool} (v : Nat → Nat) (h : wide = true → a.i.dst.toNat % 2 = 0) :
    Writes a wide v (a.write wide v) :=
  ⟨a.g.setLanes_frame .., fun _ _ _ hr => a.g.reg_setLanes v _ a.i.dst.isLt h hr⟩

theorem writes_setLanes (a : At) {g : Group} {wide : Bool} (v : Nat → Nat) (hregs : g.regs = a.g.regs)
    (h : wide = true → a.i.dst.toNat % 2 = 0) :
    Writes a wide v { a.g with regs := (g.setLanes wide a.i.dst.toNat v (a.g.run a.i)).regs } := by
  have hreg : ∀ l r, g.reg l r = a.g.reg l r := fun l r => by rw [Group.reg, hregs, Group.reg]
  refine ⟨rfl, fun l r _ hr => ?_⟩
  rw [← hreg]
  exact g.reg_setLanes v _ a.i.dst.isLt h hr

/-! ## What an issue says -/

section Issue
variable {s s' : State} {x : Issue} {a : At} {cls : Nat} {f : Form}

theorem insn_of_issues (h : Issues s x cls f a s') : a.i = x.i := by
  obtain ⟨g, b, s0, -, -, -, -, -, -, -, rfl, -⟩ := h
  rfl

/-- The registers of a pair that a form names start at an even one (R55). -/
theorem even_of_issues {r : Nat} (h : Issues s x cls f a s') (hr : (r, 2) ∈ f.runs x.i) : r % 2 = 0 := by
  obtain ⟨g, b, s0, -, -, -, hok, -⟩ := h
  simp only [Form.ok, Bool.and_eq_true, List.all_eq_true] at hok
  simpa using hok.2 _ hr

theorem run_ne_nil_of_issues (h : Issues s x cls f a s') (hf : f.always = false) : a.g.run a.i ≠ [] := by
  obtain ⟨g, b, s0, -, -, -, -, -, -, hrun, rfl, -⟩ := h
  rwa [hf, if_neg (by decide)] at hrun

end Issue

/-! ## The check of each running lane (R77) -/

section Checked
variable {s : State} {a : At} {f : Nat → Option (Nat × Nat)} (k : State → State)

theorem checked_of_none (h : ∀ l ∈ a.g.run a.i, f l = none) : s.checked a f k = k s := by
  have hnone : a.firstFault f = none := List.findSome?_eq_none_iff.2 fun l hl => by rw [h l hl]; rfl
  rw [State.checked, hnone]

theorem checked_of_first {l code v : Nat} {pre post : List Nat} (hrun : a.g.run a.i = pre ++ l :: post)
    (hpre : ∀ m ∈ pre, f m = none) (hl : f l = some (code, v)) : s.checked a f k = s.exc a code l v := by
  have hfirst : a.firstFault f = some (l, code, v) := by
    have hnone : pre.findSome? (fun l => (f l).map (fun (c, x) => (l, c, x))) = none :=
      List.findSome?_eq_none_iff.2 fun m hm => by rw [hpre m hm]; rfl
    rw [At.firstFault, hrun, List.findSome?_append, hnone, List.findSome?_cons, hl]
    rfl
  rw [State.checked, hfirst]

end Checked

end Sys2Proof.Machine
end

section
/-! PROOFS. Vector arithmetic (O26): the value that each class writes to DST in the running lanes. -/

namespace Sys2Proof.Machine

/-! ## The frame of an arithmetic instruction -/

/-- An answer in which an arithmetic instruction has written the value `v` of each running lane to DST and nothing else. -/
def WritesDst (e : Ans) (a : At) (s : State) (wide : Bool) (v : Nat → Nat) : Prop :=
  ∃ g, e = .next { s.putAt a g with draws := s.draws + 1 } ∧ Writes a wide v g

theorem arith_of_b {s s1 : State} {a : At} {b : BSrc} {wideB wideD : Bool} (f : State → (Nat → Nat) → Nat → Nat)
    (hb : s.bsrc a wideB = (some b, s1)) (h : wideD = true → a.i.dst.toNat % 2 = 0) :
    WritesDst (.next (s.arith a true wideB wideD f)) a s1 wideD (f s1 (a.bval b wideB)) :=
  ⟨_, by simp only [State.arith, hb]; rfl, writes_write a _ h⟩

theorem arith_of_no_b (s : State) {a : At} (wideB : Bool) {wideD : Bool} (f : State → (Nat → Nat) → Nat → Nat)
    (h : wideD = true → a.i.dst.toNat % 2 = 0) :
    WritesDst (.next (s.arith a false wideB wideD f)) a s wideD (f s (a.bval .reg wideB)) :=
  ⟨_, rfl, writes_write a _ h⟩

section Classes
variable {s s' s1 : State} {x : Issue} {a : At} {b : BSrc} {op : BitVec 8}

theorem falu_of_b (h : Issues s x 0 faluForm a s') (hb : s'.bsrc a false = (some b, s1)) (h5 : op.toNat ≤ 5) (hop : x.i.op = op) :
    WritesDst (s.falu x op.toNat) a s1 false (fun l => fapply a.i.type.toNat (modeOf a.i) (s1.freeOf l)
      (faluOp op.toNat (modeOf a.i).rnd) [a.g.reg l a.i.srca.toNat, a.bval b false l, a.g.reg l a.i.srcc.toNat]) := by
  rw [State.falu, withInsn_issues _ _ h (by simp [hop])]
  simp only [h5, decide_true]
  exact arith_of_b _ hb (by simp)

/-- MOV, ABS and NEG read their first operand only. -/
theorem faluOp_first {op : Nat} (m : Rnd) (h : 6 ≤ op) (v : FVal) (vs ws : List FVal) :
    faluOp op m (v :: vs) = faluOp op m (v :: ws) := by
  match op, h with
  | 6, _ | 7, _ | _ + 8, _ => rfl

theorem fapply_first {f : List FVal → FVal} (hf : ∀ v vs ws, f (v :: vs) = f (v :: ws)) (t : Nat) (m : FMode) (free : Nat → Nat)
    (v : Nat) (vs : List Nat) : fapply t m free f (v :: vs) = fapply t m free f [v] := by
  simp only [fapply, packed, felem, List.map_cons, hf _ (List.map _ _) []]

theorem falu_of_no_b (h : Issues s x 0 faluForm a s') (h6 : 6 ≤ op.toNat) (hop : x.i.op = op) :
    WritesDst (s.falu x op.toNat) a s' false (fun l => fapply a.i.type.toNat (modeOf a.i) (s'.freeOf l)
      (faluOp op.toNat (modeOf a.i).rnd) [a.g.reg l a.i.srca.toNat, a.g.reg l a.i.srca.toNat, a.g.reg l a.i.srcc.toNat]) := by
  rw [State.falu, withInsn_issues _ _ h (by simp [hop])]
  simp only [show ¬op.toNat ≤ 5 by omega, decide_false]
  simpa only [fapply_first (faluOp_first _ h6)] using arith_of_no_b s' false _ (by simp)

theorem ialu_dst_even (h : Issues s x 1 ialuForm a s') (hw : a.i.wide = true) : a.i.dst.toNat % 2 = 0 := by
  rw [insn_of_issues h] at hw ⊢
  exact even_of_issues h (by simp [ialuForm, hw])

theorem ialu_of_b (h : Issues s x 1 ialuForm a s') {wideB : Bool} (hb : s'.bsrc a wideB = (some b, s1))
    (hwide : wideB = (a.i.wide && !isShift op.toNat)) (hu : ialuUsesB op.toNat = true) (hop : x.i.op = op) :
    WritesDst (s.ialu x op.toNat) a s1 a.i.wide (fun l => ialuVal op.toNat a.i.type.toNat (a.g.val a.i.wide l a.i.srca.toNat)
      (a.bval b wideB l) (a.g.val a.i.wide l a.i.srcc.toNat)) := by
  subst hwide
  rw [State.ialu, withInsn_issues _ _ h (by simp [hop])]
  simp only [hu]
  exact arith_of_b _ hb (ialu_dst_even h)

theorem ialu_of_no_b (h : Issues s x 1 ialuForm a s') (hu : ialuUsesB op.toNat = false) (hop : x.i.op = op) :
    WritesDst (s.ialu x op.toNat) a s' a.i.wide (fun l => ialuVal op.toNat a.i.type.toNat (a.g.val a.i.wide l a.i.srca.toNat)
      (a.bval .reg (a.i.wide && !isShift op.toNat) l) (a.g.val a.i.wide l a.i.srcc.toNat)) := by
  rw [State.ialu, withInsn_issues _ _ h (by simp [hop])]
  simp only [hu]
  exact arith_of_no_b _ _ _ (ialu_dst_even h)

theorem sel_of_b (h : Issues s x 2 cmpForm a s') (hop : x.i.op = 1) (hb : s'.bsrc a a.i.wide = (some b, s1)) :
    WritesDst (exec (.sel x) s) a s1 a.i.wide (fun l => selVal a.i.type.toNat (modeOf a.i) (s1.freeOf l)
      (if a.g.flag (bits a.i.srcc.toNat 2 0) l then a.g.val a.i.wide l a.i.srca.toNat else a.bval b a.i.wide l)) := by
  change WritesDst (execSel x s) _ _ _ _
  rw [execSel, withInsn_issues _ _ h (by simp [hop])]
  refine arith_of_b _ hb fun hw => ?_
  rw [insn_of_issues h] at hw ⊢
  exact even_of_issues h (by simp [cmpForm, hop, hw])

theorem selVal_of_kept {t v : Nat} {m : FMode} {free : Nat → Nat} (h : 3 ≤ t ∨ (m.sat = false ∧ m.ftz = false)) :
    selVal t m free v = v := by
  rw [selVal, if_neg]
  rintro ⟨ht, hm⟩
  rcases h with h | ⟨hsat, hftz⟩
  · omega
  · simp [hsat, hftz] at hm

/-- A conversion of F32 to a packed type reads operand B and writes one register (R104). -/
theorem cvt_of_b (h : Issues s x 3 cvtForm a s') (hop : x.i.op = 0) (hsrc : cvtSrc x.i = 0 ∧ (x.i.type = 1 ∨ x.i.type = 2))
    (hb : s'.bsrc a false = (some b, s1)) :
    WritesDst (exec (.cvt x) s) a s1 false (fun l => cvtVal 0 a.i.type.toNat (modeOf a.i) (s1.freeOf l)
      (a.g.reg l a.i.srca.toNat) (a.bval b false l)) := by
  have hpair : cvtPair x.i = false := by
    obtain ⟨hsrc, htype | htype⟩ := hsrc <;> simp [cvtPair, Insn.wide, htype]
  change WritesDst (execCvt x s) _ _ _ _
  rw [← insn_of_issues h] at hsrc hpair
  rw [execCvt, withInsn_issues _ _ h (by simp [hop])]
  simp only [hsrc, hpair, and_self, decide_true]
  exact arith_of_b _ hb (by simp)

theorem cvt_of_no_b (h : Issues s x 3 cvtForm a s') (hop : x.i.op = 0) (hsrc : ¬(cvtSrc x.i = 0 ∧ (x.i.type = 1 ∨ x.i.type = 2))) :
    WritesDst (exec (.cvt x) s) a s' (cvtPair a.i) (fun l => cvtVal (cvtSrc a.i) a.i.type.toNat (modeOf a.i) (s'.freeOf l)
      (a.g.val (typeBits (cvtSrc a.i) == 64) l a.i.srca.toNat) (a.g.reg l a.i.srcb.toNat)) := by
  change WritesDst (execCvt x s) _ _ _ _
  rw [← insn_of_issues h] at hsrc
  rw [execCvt, withInsn_issues _ _ h (by simp [hop])]
  simp only [hsrc, decide_false]
  refine arith_of_no_b _ _ _ fun hw => ?_
  rw [insn_of_issues h] at hw ⊢
  exact even_of_issues h (by simp [cvtForm, hw])

theorem sfu_of_issues (h : Issues s x 4 sfuForm a s') (hop : x.i.op = op) :
    WritesDst (s.sfu x op.toNat) a s' false (fun l => packed a.i.type.toNat (fun h ws => sfuElem (typeFmt a.i.type.toNat).1
      (typeFmt a.i.type.toNat).2 op.toNat (modeOf a.i) (s'.freeOf l h) (ws.getD 0 0)) [a.g.reg l a.i.srca.toNat]) := by
  rw [State.sfu, withInsn_issues _ _ h (by simp [hop])]
  exact arith_of_no_b _ _ _ (by simp)

theorem sqrt_of_issues (h : Issues s x 4 sfuForm a s') (hop : x.i.op = 2) :
    WritesDst (exec (.sqrt x) s) a s' false (fun l => fapply a.i.type.toNat (modeOf a.i) (s'.freeOf l)
      (fun xs => (xs.getD 0 .nan).sqrt) [a.g.reg l a.i.srca.toNat]) := by
  change WritesDst (execSqrt x s) _ _ _ _
  rw [execSqrt, withInsn_issues _ _ h (by simp [hop])]
  exact arith_of_no_b _ _ _ (by simp)

end Classes

/-! ## The statement -/

/-- Settles O26, class by class. -/
theorem vectorArithmetic : Obligations.VectorArithmetic := by
  intro s s' s1 x a b
  refine ⟨fun h => ⟨fun hb => ?_, falu_of_no_b h (by decide), falu_of_no_b h (by decide), falu_of_no_b h (by decide)⟩,
    fun h => ⟨fun hb => ?_, fun hb => ?_, ialu_of_no_b h (by decide), ialu_of_no_b h (by decide), ialu_of_no_b h (by decide)⟩,
    fun h => sel_of_b h, fun t v m free => selVal_of_kept, fun h => cvt_of_b h, fun h => cvt_of_no_b h, fun h => ?_⟩
  · exact ⟨falu_of_b h hb (by decide), falu_of_b h hb (by decide), falu_of_b h hb (by decide), falu_of_b h hb (by decide),
      falu_of_b h hb (by decide), falu_of_b h hb (by decide)⟩
  · have hwide : a.i.wide = (a.i.wide && !false) := (Bool.and_true _).symm
    exact ⟨ialu_of_b h hb hwide (by decide), ialu_of_b h hb hwide (by decide), ialu_of_b h hb hwide (by decide),
      ialu_of_b h hb hwide (by decide), ialu_of_b h hb hwide (by decide), ialu_of_b h hb hwide (by decide),
      ialu_of_b h hb hwide (by decide), ialu_of_b h hb hwide (by decide), ialu_of_b h hb hwide (by decide)⟩
  · have hwide : false = (a.i.wide && !true) := (Bool.and_false _).symm
    exact ⟨ialu_of_b h hb hwide (by decide), ialu_of_b h hb hwide (by decide)⟩
  · exact ⟨sfu_of_issues h, sfu_of_issues h, sfu_of_issues h, sfu_of_issues h, sfu_of_issues h, sfu_of_issues h, sqrt_of_issues h⟩

end Sys2Proof.Machine
end

section
/-! PROOFS. Control flow (O30, O31): what each instruction of class BR does to the group, and the exceptions of the divergence stack
(R65 to R70). -/

namespace Sys2Proof.Machine

/-! ## Effects on a group -/

section Branch
variable {g : Group} {taken : List Nat} (target : Nat)

theorem branch_of_all (h : taken ≠ []) (hall : g.lanes.filter (fun l => !taken.contains l) = []) :
    g.branch taken target = some { g with pc := target } := by
  rw [Group.branch, hall, if_neg (by simpa using h)]
  rfl

variable (h : taken ≠ []) (hrest : g.lanes.filter (fun l => !taken.contains l) ≠ [])
include h hrest

theorem branch_of_room (hroom : g.stack.length < 32) : g.branch taken target = some { g with
    stack := .path target (maskOf taken) :: g.stack, active := maskOf (g.lanes.filter (fun l => !taken.contains l)) } := by
  have hdepth : ¬divDepth ≤ g.stack.length := Nat.not_le.2 hroom
  simp only [Group.branch, List.isEmpty_iff, h, hrest, hdepth, if_false]

theorem branch_of_full (hfull : 32 ≤ g.stack.length) : g.branch taken target = none := by
  have hdepth : divDepth ≤ g.stack.length := hfull
  simp only [Group.branch, List.isEmpty_iff, h, hrest, hdepth, if_false, if_true]

end Branch

/-- An entry of the stack whose mask is empty. -/
def DivEntry.vacant (d : DivEntry) : Prop := (∃ m, d = .split m ∧ m = 0) ∨ ∃ pc m, d = .path pc m ∧ m = 0

theorem joinFrom_append (g : Group) {e : List DivEntry} (t : List DivEntry) (h : ∀ d ∈ e, d.vacant) :
    g.joinFrom (e ++ t) = g.joinFrom t := by
  induction e with
  | nil => rfl
  | cons d e ih =>
    obtain ⟨hd, he⟩ := List.forall_mem_cons.1 h
    rcases hd with ⟨m, rfl, rfl⟩ | ⟨pc, m, rfl, rfl⟩ <;> exact ih he

theorem joinFrom_split (g : Group) {m : Word} (t : List DivEntry) (h : m ≠ 0) :
    g.joinFrom (.split m :: t) = some { g with stack := t, active := m } := if_neg h

theorem joinFrom_path (g : Group) (pc : Nat) {m : Word} (t : List DivEntry) (h : m ≠ 0) :
    g.joinFrom (.path pc m :: t) = some { g with stack := t, active := m, pc := pc } := if_neg h

/-! ## Instructions of class BR at issue -/

section Issued
variable {s s' : State} {x : Issue} {a : At} (h : Issues s x 11 brForm a s')
include h

theorem br_run_ne_nil : a.g.run a.i ≠ [] := run_ne_nil_of_issues h rfl

theorem bra_of_branch {g : Group} (hb : a.g.branch (a.g.run a.i) a.target = some g) (hop : x.i.op = 0) :
    exec (.bra x) s = .next (s'.putAt a g) := by
  change execBra x s = _
  rw [execBra, withInsn_issues _ _ h (by simp [hop])]
  simp only [hb]

theorem bra_of_full (hb : a.g.branch (a.g.run a.i) a.target = none) (hop : x.i.op = 0) :
    exec (.bra x) s = .next (s'.exc a 0x0106 a.low 0) := by
  change execBra x s = _
  rw [execBra, withInsn_issues _ _ h (by simp [hop])]
  simp only [hb]

theorem call_of_branch {g : Group} (hb : a.g.branch (a.g.run a.i) a.target = some g) (hop : x.i.op = 3) :
    exec (.call x) s = .next (s'.putAt a (g.setLanes true a.i.dst.toNat (fun _ => a.g.pc) (a.g.run a.i))) := by
  change execCall x s = _
  rw [execCall, withInsn_issues _ _ h (by simp [hop])]
  simp only [hb]
  rfl

theorem call_of_full (hb : a.g.branch (a.g.run a.i) a.target = none) (hop : x.i.op = 3) :
    exec (.call x) s = .next (s'.exc a 0x0106 a.low 0) := by
  change execCall x s = _
  rw [execCall, withInsn_issues _ _ h (by simp [hop])]
  simp only [hb]

/-- The pair that a call writes starts at an even register (R55). -/
theorem call_dst_even (hop : x.i.op = 3) : a.i.dst.toNat % 2 = 0 := by
  rw [insn_of_issues h]
  exact even_of_issues h (by simp [brForm, hop])

theorem split_of_room (hop : x.i.op = 1) (hroom : a.g.stack.length < 32) :
    exec (.split x) s = .next (s'.putAt a { a.g with stack := .split a.g.active :: a.g.stack }) := by
  change execSplit x s = _
  rw [execSplit, withInsn_issues _ _ h (by simp [hop])]
  exact congrArg _ (if_neg (Nat.not_le.2 hroom))

theorem split_of_full (hop : x.i.op = 1) (hfull : 32 ≤ a.g.stack.length) :
    exec (.split x) s = .next (s'.exc a 0x0106 a.low 0) := by
  change execSplit x s = _
  rw [execSplit, withInsn_issues _ _ h (by simp [hop])]
  exact congrArg _ (if_pos hfull)

theorem join_of_some {g : Group} (hop : x.i.op = 2) (hj : a.g.joinFrom a.g.stack = some g) :
    exec (.join x) s = .next (s'.putAt a g) := by
  change execJoin x s = _
  rw [execJoin, withInsn_issues _ _ h (by simp [hop])]
  simp only [hj]

theorem join_of_none (hop : x.i.op = 2) (hj : a.g.joinFrom a.g.stack = none) :
    exec (.join x) s = .next (s'.exc a 0x0107 a.low 0) := by
  change execJoin x s = _
  rw [execJoin, withInsn_issues _ _ h (by simp [hop])]
  simp only [hj]

/-- A return and a vector jump have one effect. -/
theorem jump_of_issues {t : State} (hjump : s'.jumpLanes a = t) :
    (x.i.op = 4 → exec (.ret x) s = .next t) ∧ (x.i.op = 8 → exec (.jvec x) s = .next t) := by
  refine ⟨fun hop => ?_, fun hop => ?_⟩
  · change execRet x s = _
    rw [execRet, withInsn_issues _ _ h (by simp [hop]), hjump]
  · change execJvec x s = _
    rw [execJvec, withInsn_issues _ _ h (by simp [hop]), hjump]

theorem exit_of_issues (hop : x.i.op = 5) :
    exec (.exit x) s = .next ((s'.exitLanes a (fun core slot s => s.stageDone core slot)).gfxPump) := by
  change execExit x s = _
  rw [execExit, withInsn_issues _ _ h (by simp [hop])]

theorem trap_of_issues (hop : x.i.op = 6) :
    exec (.trap x) s = .next (s'.exc a 0x010D a.low (a.i.imm.toNat % 65536)) := by
  change execTrap x s = _
  rw [execTrap, withInsn_issues _ _ h (by simp [hop])]

theorem yield_of_issues (hop : x.i.op = 7) : exec (.yield x) s = .next (s'.putAt a { a.g with wait := .yield }) := by
  change execYield x s = _
  rw [execYield, withInsn_issues _ _ h (by simp [hop])]

end Issued

/-! ## Jumps lane by lane (R68) -/

section Jump
variable (s : State) (a : At)

/-- Where a return or vector jump takes a lane: a running one to the address in its pair, another to the next instruction. -/
def At.jumpTo (l : Nat) : Nat := if (a.g.run a.i).contains l then a.g.val true l a.i.srca.toNat else a.g.pc

/-- The distinct addresses that a jump takes the active lanes to, in the order of their lowest lanes. -/
def At.jumpTargets : List Nat := targetsOf (a.g.lanes.map (fun l => (l, a.jumpTo l)))

/-- The exception of a lane's jump. -/
def At.jumpFault (l : Nat) : Option (Nat × Nat) :=
  if a.jumpTo l / 2 ^ 48 ≠ 0 then some (0x0104, a.jumpTo l) else if a.jumpTo l % 8 ≠ 0 then some (0x0103, a.jumpTo l) else none

/-- The group whose lanes have jumped: those of `t` go on, the other targets wait as paths. -/
def At.jumped (t : Nat) (rest : List Nat) : Group :=
  let mask (t : Nat) : Word := maskOf (a.g.lanes.filter (fun l => a.jumpTo l == t))
  { a.g with stack := rest.map (fun t => .path t (mask t)) ++ a.g.stack, active := mask t, pc := t }

variable {a}

theorem jumpFault_of_range {l : Nat} (h : 2 ^ 48 ≤ a.jumpTo l) : a.jumpFault l = some (0x0104, a.jumpTo l) :=
  if_pos (by omega)

theorem jumpFault_of_misaligned {l : Nat} (h : a.jumpTo l < 2 ^ 48) (h8 : a.jumpTo l % 8 ≠ 0) :
    a.jumpFault l = some (0x0103, a.jumpTo l) := by
  rw [At.jumpFault, if_neg (by omega), if_pos h8]

theorem jumpFault_of_ok {l : Nat} (h : ¬(2 ^ 48 ≤ a.jumpTo l ∨ a.jumpTo l % 8 ≠ 0)) : a.jumpFault l = none := by
  rw [At.jumpFault, if_neg (by omega), if_neg (by omega)]

theorem jumpLanes_of_fault {l code v : Nat} {pre post : List Nat} (hrun : a.g.run a.i = pre ++ l :: post)
    (hpre : ∀ m ∈ pre, ¬(2 ^ 48 ≤ a.jumpTo m ∨ a.jumpTo m % 8 ≠ 0)) (hl : a.jumpFault l = some (code, v)) :
    s.jumpLanes a = s.exc a code l v := by
  rw [State.jumpLanes]
  exact checked_of_first (f := a.jumpFault) _ hrun (fun m hm => jumpFault_of_ok (hpre m hm)) hl

variable (hok : ∀ l ∈ a.g.run a.i, ¬(2 ^ 48 ≤ a.jumpTo l ∨ a.jumpTo l % 8 ≠ 0)) {t : Nat} {rest : List Nat}
  (htargets : a.jumpTargets = t :: rest)
include hok htargets

theorem jumpLanes_of_room (hroom : a.g.stack.length + rest.length ≤ 32) : s.jumpLanes a = s.putAt a (a.jumped t rest) := by
  rw [State.jumpLanes]
  refine (checked_of_none (f := a.jumpFault) _ fun l hl => jumpFault_of_ok (hok l hl)).trans ?_
  change (match a.jumpTargets with | [] => s | t :: rest => _) = _
  rw [htargets]
  exact if_neg (Nat.not_lt.2 hroom)

theorem jumpLanes_of_full (hfull : 32 < a.g.stack.length + rest.length) : s.jumpLanes a = s.exc a 0x0106 a.low 0 := by
  rw [State.jumpLanes]
  refine (checked_of_none (f := a.jumpFault) _ fun l hl => jumpFault_of_ok (hok l hl)).trans ?_
  change (match a.jumpTargets with | [] => s | t :: rest => _) = _
  rw [htargets]
  exact if_pos hfull

end Jump

/-- A group with an active lane jumps somewhere, first to where its lowest lane goes. -/
theorem jumpTargets_of_head {a : At} {l : Nat} (h : a.g.lanes.head? = some l) :
    a.jumpTargets = a.jumpTo l :: a.jumpTargets.tail := by
  obtain ⟨ls, hls⟩ := List.head?_eq_some_iff.1 h
  rw [At.jumpTargets, hls]
  rfl

theorem lanes_head_of_issues {s s' : State} {x : Issue} {a : At} (h : Issues s x 11 brForm a s') :
    ∃ l, a.g.lanes.head? = some l := by
  have hlanes : a.g.lanes ≠ [] := fun hnil => br_run_ne_nil h (by rw [Group.run, hnil]; rfl)
  exact ⟨_, List.head?_eq_some_head hlanes⟩

/-! ## EXIT (R69) -/

section Exit
variable (s : State) (a : At) (onStage : Nat → Nat → State → State)

/-- The group that is left once the running lanes have ended. -/
def At.left : Group := { a.g with
  live := a.g.live &&& ~~~maskOf (a.g.run a.i), active := a.g.active &&& ~~~maskOf (a.g.run a.i)
  stack := dropLanes (maskOf (a.g.run a.i)) a.g.stack }

variable {a}

theorem exitLanes_of_dead (h : a.left.live = 0) : s.exitLanes a onStage = (s.putAt a a.left).groupEnd a.core a.slot onStage :=
  if_pos h

variable (hlive : a.left.live ≠ 0)
include hlive

theorem exitLanes_of_active (h : a.left.active ≠ 0) : s.exitLanes a onStage = s.putAt a a.left :=
  (if_neg hlive).trans (if_pos h)

variable (hactive : a.left.active = 0)
include hactive

theorem exitLanes_of_join {g : Group} (h : a.left.joinFrom a.left.stack = some g) : s.exitLanes a onStage = s.putAt a g := by
  refine (if_neg hlive).trans ((if_neg (not_not.2 hactive)).trans ?_)
  change (match a.left.joinFrom a.left.stack with | some g => s.putAt a g | none => _) = _
  rw [h]

theorem exitLanes_of_no_join (h : a.left.joinFrom a.left.stack = none) : s.exitLanes a onStage = s.exc a 0x0107 a.low 0 := by
  refine (if_neg hlive).trans ((if_neg (not_not.2 hactive)).trans ?_)
  change (match a.left.joinFrom a.left.stack with | some g => s.putAt a g | none => _) = _
  rw [h]

end Exit

/-! ## YIELD_EXPIRE (R70) -/

theorem yieldExpire_of_some {s : State} {core : Fin 48} {slot : Fin 64} {g : Group}
    (h : Sparse.find (s.core core.val).groups slot.val = some g) :
    exec (.yieldExpire core slot) s =
      .next (s.putGroup core.val slot.val (if g.wait = .yield then { g with wait := .ready } else g)) :=
  congrArg Host.Outcome.next (updGroup_of_some _ h)

/-! ## The statements -/

/-- Settles O30: each push meets the full stack, and what an exception stops is the group at issue. -/
theorem fullDivergenceStack : Obligations.FullDivergenceStack := by
  intro s s' x a h
  refine ⟨split_of_full h, fun hop hrest hfull => bra_of_full h (branch_of_full _ (br_run_ne_nil h) hrest hfull) hop,
    fun hop hrest hfull => call_of_full h (branch_of_full _ (br_run_ne_nil h) hrest hfull) hop,
    fun hok hfull => jump_of_issues h ?_, find_putGroup_self .., rfl⟩
  obtain ⟨l, hl⟩ := lanes_head_of_issues h
  have htargets := jumpTargets_of_head hl
  have hlength : 33 < a.g.stack.length + a.jumpTargets.length := hfull
  rw [htargets, List.length_cons] at hlength
  refine jumpLanes_of_full _ (fun m hm hbad => ?_) htargets (by omega)
  exact hbad.elim (Nat.not_le.2 (hok m hm).1) (fun h8 => h8 (hok m hm).2)

/-- Settles O31, instruction by instruction. -/
theorem controlFlow : Obligations.ControlFlow := by
  intro s s' x a
  refine ⟨fun h => ⟨fun hop hrest => bra_of_branch h (branch_of_all _ (br_run_ne_nil h) hrest) hop,
    fun hop hrest hroom => bra_of_branch h (branch_of_room _ (br_run_ne_nil h) hrest hroom) hop,
    split_of_room h, ?_, ?_, ?_, ?_, ?_, ?_, ?_, ?_, trap_of_issues h, yield_of_issues h⟩, ?_⟩
  · intro e t hop hstack he
    have hjoin := joinFrom_append a.g t he
    rw [← hstack] at hjoin
    refine ⟨fun m u ht hm => join_of_some h hop ?_, fun pc m u ht hm => join_of_some h hop ?_, fun ht => join_of_none h hop ?_⟩
    · rw [hjoin, ht, joinFrom_split _ _ hm]
    · rw [hjoin, ht, joinFrom_path _ _ _ hm]
    · rw [hjoin, ht]
      rfl
  · intro hop hrest
    refine ⟨_, call_of_branch h (branch_of_all _ (br_run_ne_nil h) hrest) hop, ?_, ?_⟩
    · rw [Group.setLanes_frame]
    · rw [Group.setLanes_frame]
      exact writes_setLanes a _ rfl fun _ => call_dst_even h hop
  · intro hop hrest hroom
    refine ⟨_, call_of_branch h (branch_of_room _ (br_run_ne_nil h) hrest hroom) hop, ?_, ?_, ?_⟩
    · rw [Group.setLanes_frame]
    · rw [Group.setLanes_frame]
    · rw [Group.setLanes_frame]
      exact writes_setLanes a _ rfl fun _ => call_dst_even h hop
  · intro l t hl ht hok others g hroom
    have htargets : a.jumpTargets = t :: others := ht ▸ jumpTargets_of_head hl
    exact jump_of_issues h (jumpLanes_of_room _ hok htargets hroom)
  · intro l pre post hrun hpre
    refine ⟨fun hrange => ?_, fun hrange h8 => ?_⟩
    · exact jump_of_issues h (jumpLanes_of_fault s' hrun hpre (jumpFault_of_range hrange))
    · exact jump_of_issues h (jumpLanes_of_fault s' hrun hpre (jumpFault_of_misaligned hrange h8))
  · intro hop hactive hlive
    rw [exit_of_issues h hop, exitLanes_of_active _ _ hlive hactive]
    rfl
  · intro hop hactive hlive
    rw [exit_of_issues h hop]
    exact ⟨fun g hg => by rw [exitLanes_of_join _ _ hlive hactive hg], fun hn => by rw [exitLanes_of_no_join _ _ hlive hactive hn]; rfl⟩
  · intro hop hlive
    rw [exit_of_issues h hop, exitLanes_of_dead _ _ hlive]
    rfl
  · intro core slot g hg
    rw [yieldExpire_of_some hg]
    refine ⟨fun hw => ?_, fun hw => by rw [if_neg hw]⟩
    rw [if_pos hw]
    exact ⟨rfl, _, rfl, find_putGroup_self .., rfl, fun n hn => core_putGroup_ne _ _ _ hn⟩

end Sys2Proof.Machine
end

section
/-! PROOFS. What the fetch of an instruction leaves of the cores: reads of memory and translations change no core, and the fetch itself
only what an L1 holds. So a group at issue is on its core with its block (R60, R82). -/

namespace Sys2Proof.Machine

/-! ## Reads of memory change no core -/

theorem cores_ite {c : Prop} [Decidable c] {t u : State} {m : List (Nat × Core)} (ht : t.cores = m) (hu : u.cores = m) :
    (if c then t else u).cores = m := by split <;> assumption

/-- A fold whose step keeps the cores keeps them. -/
theorem cores_foldl {α β : Type} (f : β × State → α → β × State) (h : ∀ x a, (f x a).2.cores = x.2.cores) (l : List α) (x : β × State) :
    (l.foldl f x).2.cores = x.2.cores := by
  induction l generalizing x with
  | nil => rfl
  | cons a l ih => exact (ih _).trans (h _ _)

theorem cores_reports {s t : State} (h : Reports s t) : t.cores = s.cores := by
  obtain ⟨⟨r, e, l, m, n, o, rfl⟩, -⟩ := h
  rfl

theorem cores_rec0 (s : State) (code unit sev lo hi : Nat) : (s.rec0 code unit sev lo hi).cores = s.cores := cores_reports (reports_rec0 ..)

theorem cores_count64 (s : State) (a n : Nat) : (s.count64 a n).cores = s.cores := by
  unfold State.count64 State.setReg64
  exact (State.setReg_cores ..).trans (State.setReg_cores ..)

theorem cores_countSat (s : State) (a hi lo n : Nat) : (s.countSat a hi lo n).cores = s.cores := by
  unfold State.countSat
  exact State.setFld_cores ..

theorem cores_noteInflight (s : State) (ch : Nat) : (s.noteInflight ch).cores = s.cores := by
  unfold State.noteInflight State.drawNat State.maxFld
  exact (State.setFld_cores ..).trans (State.setFld_cores ..)

theorem cores_countBytes (s : State) (a n : Nat) : (s.countBytes a n).cores = s.cores := by
  unfold State.countBytes
  have h : (if s.eccAt a then s.drawNat else (0, s)).2.cores = s.cores := by split <;> rfl
  generalize (if s.eccAt a then s.drawNat else (0, s)) = d at h ⊢
  exact (cores_noteInflight ..).trans ((cores_count64 ..).trans h)

theorem cores_correctCw (s : State) (n : Nat) : (s.correctCw n).cores = s.cores := by
  have hcount := (cores_countSat (s.countSat Reg.DMC_ECC_COUNT 15 0 1) (Reg.DMC_CH_CORR (channelOf (n * 32))) 31 0 1).trans
    (cores_countSat ..)
  unfold State.correctCw
  exact cores_ite ((cores_rec0 ..).trans hcount) hcount

theorem cores_readCw (s : State) (n : Nat) : (s.readCw n).2.cores = s.cores := by
  unfold State.readCw
  dsimp only
  split
  · exact cores_countSat ..
  split
  · exact (cores_rec0 ..).trans (cores_countSat ..)
  split
  · exact (cores_rec0 ..).trans (cores_countSat ..)
  split
  · exact cores_correctCw ..
  · rfl

theorem cores_readLine (s : State) (line : Nat) : (s.readLine line).2.cores = s.cores := by
  unfold State.readLine
  dsimp only
  split
  · refine (cores_foldl _ ?_ _ _).trans (cores_countBytes ..)
    intro x i
    exact cores_readCw ..
  · exact cores_countBytes ..

theorem cores_lineError (s : State) (line : Nat) (e : LineError) : (s.lineError line e).cores = s.cores := by
  unfold State.lineError
  cases e with
  | sound => rfl
  | single => exact (cores_rec0 ..).trans (cores_countSat ..)
  | double => exact cores_ite ((cores_rec0 ..).trans (cores_countSat ..)) rfl
  | tagCopy set way => exact (cores_rec0 ..).trans (cores_countSat ..)
  | tagBoth set way => exact (cores_rec0 ..).trans (cores_countSat ..)

theorem cores_lineCheck (s : State) (line : Nat) : (s.lineCheck line).cores = s.cores := by
  unfold State.lineCheck
  split
  · rfl
  · exact cores_lineError ..

theorem cores_countHit (s : State) (line : Nat) (hit : Bool) : (s.countHit line hit).cores = s.cores := by
  unfold State.countHit
  exact cores_count64 ..

theorem cores_l2Held (s : State) (line : Nat) : (s.l2Held line).2.cores = s.cores := by
  unfold State.l2Held
  have h := cores_lineCheck s line
  generalize s.lineCheck line = u at h ⊢
  dsimp only
  split
  · have hd : u.drawBool.2.cores = s.cores := h
    generalize u.drawBool = d at hd ⊢
    obtain ⟨b, v⟩ := d
    dsimp only at hd ⊢
    split
    · exact (cores_countHit ..).trans hd
    · split
      · exact (cores_countHit ..).trans hd
      · exact (cores_countHit ..).trans hd
  · exact (cores_countHit ..).trans h

theorem cores_l2Look (s : State) (cls line : Nat) (noAlloc : Bool) : (s.l2Look cls line noAlloc).2.cores = s.cores := by
  unfold State.l2Look
  have h := cores_l2Held s line
  generalize s.l2Held line = d at h ⊢
  obtain ⟨_ | poison, u⟩ := d
  · have hr := (cores_readLine u line).trans h
    dsimp only
    generalize u.readLine line = r at hr ⊢
    obtain ⟨b, v⟩ := r
    dsimp only
    split <;> exact hr
  · exact h

theorem cores_devRead (s : State) (cls a n : Nat) (noAlloc : Bool) : (s.devRead cls a n noAlloc).2.2.cores = s.cores := by
  unfold State.devRead
  refine (cores_foldl _ ?_ (unitsOf 128 a n) (false, s))
  intro x l
  exact cores_l2Look ..

theorem cores_post (s : State) (o : Output) : (s.post o).cores = s.cores := cores_reports (reports_post ..)

theorem cores_hostBytes (s : State) (a n : Nat) (noSnoop : Bool) : (s.hostBytes a n noSnoop).2.cores = s.cores := by
  unfold State.hostBytes
  exact cores_post s _

/-! ## Translations change no core -/

theorem cores_tlbRoom (s : State) (t : TlbId) : (s.tlbRoom t).cores = s.cores := by
  unfold State.tlbRoom
  exact cores_ite rfl rfl

theorem cores_install (s : State) (t : TlbId) (asid : Nat) (host : Bool) (ia phys out size : Nat) (cls : OutClass) (wr ex dv : Bool)
    (level : Nat) : (s.install t asid host ia phys out size cls wr ex dv level).cores = s.cores := by
  have hfold : ∀ (l : List TlbEntry) (s : State), (l.foldl (fun s e => s.tlbRoom e.tlb) s).cores = s.cores := by
    intro l
    induction l with
    | nil => exact fun s => rfl
    | cons e l ih => exact fun s => (ih _).trans (cores_tlbRoom ..)
  exact hfold _ s

theorem cores_wcachePut (s : State) (e : Option WalkCacheEntry) : (s.wcachePut e).cores = s.cores := by
  unfold State.wcachePut
  cases e with
  | none => rfl
  | some e =>
    dsimp only
    split <;> rfl

theorem cores_descRead (s : State) (cls : OutClass) (out : Nat) : (s.descRead cls out).2.cores = s.cores := by
  unfold State.descRead
  split
  · exact cores_devRead ..
  · exact cores_hostBytes ..

theorem cores_walkRun (s : State) (c : Nat) (x : Xlat) (host : Bool) (ia n : Nat) (w : WalkStep) :
    (s.walkRun c x host ia n w).2.cores = s.cores := by
  induction n generalizing s w with
  | zero => rfl
  | succ n ih =>
    cases w with
    | readAt level addr cls out wr ex =>
      have h := cores_descRead s cls out
      rw [State.walkRun]
      generalize s.descRead cls out = d at h ⊢
      obtain ⟨_ | d, u⟩ := d
      · exact h
      · exact (ih ..).trans ((cores_wcachePut ..).trans h)
    | done out size wr ex dv level => rfl
    | fault f => rfl

theorem cores_walkEnd (s : State) (t : TlbId) (x : Xlat) (host : Bool) (ia out size : Nat) (wr ex dv : Bool) (level : Nat)
    (access : AccessKind) (covered : Bool) :
    (s.walkEnd t x host ia out size wr ex dv level access covered).2.cores = s.cores := by
  unfold State.walkEnd
  exact cores_ite (cores_install ..) rfl

theorem cores_walkNow (s : State) (t : TlbId) (c : Nat) (x : Xlat) (host : Bool) (ia : Nat) (access : AccessKind) :
    (s.walkNow t c x host ia access).2.cores = s.cores := by
  unfold State.walkNow
  dsimp only
  have h := (cores_walkRun (s.count64 Reg.MMU_WALKS_LO 1) c x host ia 6
    ((s.count64 Reg.MMU_WALKS_LO 1).walkStart c x host ia)).trans (cores_count64 ..)
  split
  · rename_i he
    rw [he] at h
    exact (cores_walkEnd ..).trans h
  · rename_i he
    rw [he] at h
    exact h
  · rename_i he
    rw [he] at h
    exact h

theorem cores_xlate (s : State) (t : TlbId) (c va : Nat) (access : AccessKind) : (s.xlate t c va access).2.cores = s.cores := by
  unfold State.xlate
  split
  · rfl
  · dsimp only
    split
    · split
      · exact cores_walkNow ..
      · rfl
    · split
      · rfl
      · exact cores_walkNow ..

/-! ## The fetch changes what an L1 holds -/

/-- The blocks of every core are the same. -/
structure SameBlocks (s t : State) : Prop where
  blocks : ∀ n, (t.core n).blocks = (s.core n).blocks

theorem SameBlocks.refl (s : State) : SameBlocks s s := ⟨fun _ => rfl⟩

theorem SameBlocks.trans {s t u : State} (h : SameBlocks s t) (k : SameBlocks t u) : SameBlocks s u :=
  ⟨fun n => (k.blocks n).trans (h.blocks n)⟩

theorem SameBlocks.of_cores {s t : State} (h : t.cores = s.cores) : SameBlocks s t := ⟨fun n => by rw [State.core, State.core, h]⟩

theorem sameBlocks_setCore (s : State) (n : Nat) {k : Core} (h : k.blocks = (s.core n).blocks) : SameBlocks s (s.setCore n k) := by
  refine ⟨fun m => ?_⟩
  by_cases hm : m = n
  · rw [hm, core_setCore_self, h]
  · rw [core_setCore_ne _ _ hm]

theorem sameBlocks_l1Put (s : State) (core : Nat) (l : L1Line) : SameBlocks s (s.l1Put core l) := by
  have hdraw : SameBlocks s s.drawNat.2 := SameBlocks.of_cores rfl
  unfold State.l1Put
  dsimp only
  split
  · exact sameBlocks_setCore s core rfl
  · exact hdraw.trans (sameBlocks_setCore s.drawNat.2 core (hdraw.blocks core).symm)

theorem sameBlocks_l1Drop (s : State) (core : Nat) (cls : OutClass) (line : Nat) : SameBlocks s (s.l1Drop core cls line) :=
  sameBlocks_setCore s core rfl

theorem sameBlocks_l1Look (s : State) (core : Nat) (cls : OutClass) (line : Nat) : SameBlocks s (s.l1Look core cls line).2 := by
  have hdraw : SameBlocks s s.drawBool.2 := SameBlocks.of_cores rfl
  unfold State.l1Look
  generalize s.drawBool = d at hdraw ⊢
  obtain ⟨kept, u⟩ := d
  dsimp only at hdraw ⊢
  split
  · exact hdraw
  · split
    · exact (hdraw.trans (sameBlocks_l1Drop ..)).trans (SameBlocks.of_cores (cores_rec0 ..))
    · exact hdraw

theorem sameBlocks_fetchPart (s : State) (core c va cls : Nat) (x : XOut) (want : List Byte) :
    SameBlocks s (s.fetchPart core c va cls x want).2 := by
  unfold State.fetchPart
  dsimp only
  split
  · exact SameBlocks.refl s
  split
  · exact SameBlocks.of_cores (cores_hostBytes ..)
  have hlook := sameBlocks_l1Look s core x.cls (x.out / 128)
  generalize s.l1Look core x.cls (x.out / 128) = d at hlook ⊢
  obtain ⟨_ | l, u⟩ := d
  · dsimp only at hlook ⊢
    split
    · have hread := hlook.trans (SameBlocks.of_cores (cores_devRead u cls (x.out / 128 * 128) 128 false))
      generalize u.devRead cls (x.out / 128 * 128) 128 false = r at hread ⊢
      obtain ⟨got, p, v⟩ := r
      dsimp only at hread ⊢
      split
      · exact hread
      split
      · exact hread.trans (sameBlocks_l1Put ..)
      · exact SameBlocks.refl s
    · have hread := hlook.trans (SameBlocks.of_cores (cores_hostBytes u (x.out / 128 * 128) 128 (u.noSnoopAt c va)))
      generalize u.hostBytes (x.out / 128 * 128) 128 (u.noSnoopAt c va) = r at hread ⊢
      exact hread.trans (sameBlocks_l1Put ..)
  · dsimp only at hlook ⊢
    split
    · exact hlook
    · exact SameBlocks.refl s

/-- A fold whose step keeps the blocks keeps them. -/
theorem sameBlocks_foldl {α β : Type} (f : β × State → α → β × State) (h : ∀ x a, SameBlocks x.2 (f x a).2) (l : List α)
    (x : β × State) : SameBlocks x.2 (l.foldl f x).2 := by
  induction l generalizing x with
  | nil => exact SameBlocks.refl _
  | cons a l ih => exact (h x a).trans (ih _)

theorem sameBlocks_fetchInsn (s : State) (core c pc cls : Nat) (bs : List Byte) : SameBlocks s (s.fetchInsn core c pc cls bs).2 := by
  unfold State.fetchInsn
  refine sameBlocks_foldl _ (fun ⟨r, u⟩ ⟨a, k⟩ => ?_) _ (InsnFetch.agree, s)
  cases r with
  | agree =>
    have hx := SameBlocks.of_cores (cores_xlate u (.core core) c a .exec)
    dsimp only
    generalize u.xlate (.core core) c a .exec = d at hx ⊢
    obtain ⟨o | f, v⟩ := d
    · exact hx.trans (sameBlocks_fetchPart ..)
    · exact hx
  | differ => exact SameBlocks.refl u
  | fail f => exact SameBlocks.refl u
  | poison pa => exact SameBlocks.refl u

theorem sameBlocks_issued (s : State) (x : Issue) (f : Form) : SameBlocks s (s.issued x f) := by
  have hcount : ∀ (u : State) (b : Bool) (p q : Nat), SameBlocks s u →
      SameBlocks s (if b then (u.count64 p 1).count64 q 1 else u.count64 p 1) := fun u b p q hu =>
    hu.trans (SameBlocks.of_cores (cores_ite ((cores_count64 ..).trans (cores_count64 ..)) (cores_count64 ..)))
  unfold State.issued
  dsimp only
  refine hcount _ _ _ _ (sameBlocks_setCore s _ ?_)
  dsimp only
  split
  · split <;> rfl
  · rfl

/-! ## The group at issue -/

section Issue
variable {s s' : State} {x : Issue} {a : At} {cls : Nat} {f : Form}

/-- A group that can issue is ready, and its block is on its core (R59). -/
theorem of_ready {g : Group} {b : Block} (h : s.ready x f = some (g, b)) :
    g.wait = .ready ∧ Sparse.find (s.core x.core.val).blocks g.block = some b := by
  unfold State.ready at h
  obtain ⟨-, h⟩ := Option.ite_none_left_eq_some.1 h
  split at h
  · cases h
  · split at h
    · cases h
    · rename_i hblock
      obtain ⟨hwaits, h⟩ := Option.ite_none_left_eq_some.1 h
      cases h
      simp only [Bool.or_eq_true, not_or, decide_eq_true_eq, not_not] at hwaits
      exact ⟨hwaits.1.1.1, hblock⟩

/-- An issuing group was ready, and stands on its core with its block when its effect begins. -/
theorem groupAt_of_issues (h : Issues s x cls f a s') : a.g.wait = .ready ∧ s'.groupAt a.core a.slot = some (a.g, a.b) := by
  obtain ⟨g, b, s0, hready, hfetch, -, -, -, -, -, rfl, rfl⟩ := h
  obtain ⟨hwait, hblock⟩ := of_ready hready
  have hsame := sameBlocks_fetchInsn s x.core.val b.ctx g.pc (s.blockClass b) (leBytes x.i.size x.i.word)
  rw [hfetch] at hsame
  have hblocks := ((hsame.trans (sameBlocks_issued s0 x f)).blocks x.core.val).trans rfl
  refine ⟨hwait, ?_⟩
  rw [State.groupAt, core_putGroup_self]
  simp only [Sparse.find_put_self, hblocks, hblock, Option.map_some]

end Issue

end Sys2Proof.Machine
end

section
/-! PROOFS. Barriers and fences (O32): an arrival, its deferral and its count, the deadlock of a block, and what a fence waits for
(R72 to R76, R86). -/

namespace Sys2Proof.Machine

/-! ## Arrivals (R72, R74, R75) -/

/-- The groups of the block that are at barrier `n`, or on the way to it, with their lowest lanes there. -/
def groupsAtBarrier (s : State) (a : At) (n : Nat) : List (Nat × Nat × Nat) :=
  ((s.core a.core).groupsOf a.g.block).filterMap (fun g => match g.2.atBarrier with
    | some (m, low) => if m = n then some (g.1, n, low) else none
    | none => none)

section Arrival
variable {s s' : State} {x : Issue} {a : At} (h : Issues s x 10 barForm a s')
include h

theorem arrive_of_count {wait : Bool} (hop : x.i.op.toNat = if wait then 0 else 1) (h32 : bits a.i.imm.toNat 9 4 ≤ 32)
    (hgroups : bits a.i.imm.toNat 9 4 ≤ a.b.groups) :
    s.arrive x wait = .next (((s'.putAt a { a.g with wait := .arrive (a.i.imm.toNat % 16) (bits a.i.imm.toNat 9 4) wait a.low }).settleAll
      a.core a.slot).fenceCheck a.core a.slot) := by
  rw [State.arrive, withInsn_issues _ _ h (by simp [hop])]
  exact congrArg _ (if_neg (by omega))

theorem arrive_of_bad_count {wait : Bool} (hop : x.i.op.toNat = if wait then 0 else 1)
    (hbad : 32 < bits a.i.imm.toNat 9 4 ∨ a.b.groups < bits a.i.imm.toNat 9 4) :
    s.arrive x wait = .next (s'.excMany a.core 0x0109
      (insertSlot (a.slot, a.i.imm.toNat % 16, a.low) (groupsAtBarrier s' a (a.i.imm.toNat % 16)))) := by
  rw [State.arrive, withInsn_issues _ _ h (by simp [hop])]
  exact congrArg _ (if_pos hbad)

end Arrival

section Check
variable {s : State} {core slot : Nat} {g : Group} {b : Block} (hg : s.groupAt core slot = some (g, b))
include hg

theorem fenceCheck_of_ready (hwait : g.wait = .ready) : s.fenceCheck core slot = s := by
  simp only [State.fenceCheck, hg, hwait]

variable {n cnt low : Nat} {wait : Bool} (hwait : g.wait = .arrive n cnt wait low)
include hwait

theorem fenceCheck_of_held (hheld : g.hostPending = true) : s.fenceCheck core slot = s := by
  simp only [State.fenceCheck, hg, hwait, hheld, if_true]

theorem fenceCheck_of_arrival (hgo : g.hostPending = false) : s.fenceCheck core slot = s.arriveNow core slot n cnt wait low := by
  simp only [State.fenceCheck, hg, hwait, hgo, Bool.false_eq_true, if_false]

omit hwait in
theorem arriveNow_of_agrees (wait : Bool) (low : Nat) (hcount : (Sparse.get b.bars ⟨none, [], [], false⟩ n).count = none
      ∨ (Sparse.get b.bars ⟨none, [], [], false⟩ n).count = some cnt) :
    s.arriveNow core slot n cnt wait low =
      let bar := Sparse.get b.bars ⟨none, [], [], false⟩ n
      let arrived := if bar.arrived.contains g.num then bar.arrived else bar.arrived ++ [g.num]
      let nb : Barrier := ⟨some cnt, arrived, if wait then bar.waiting ++ [g.num] else bar.waiting, false⟩
      ((s.putBlock core g.block { b with bars := Sparse.put b.bars n nb }).putGroup core slot
        { g with wait := if wait then .barrier n low else .ready }).barrierCheck core g.block := by
  simp only [State.arriveNow, hg]
  exact if_neg (by tauto)

omit hwait in
theorem arriveNow_of_differs (wait : Bool) (low : Nat) (hsome : (Sparse.get b.bars ⟨none, [], [], false⟩ n).count ≠ none)
    (hother : (Sparse.get b.bars ⟨none, [], [], false⟩ n).count ≠ some cnt) :
    s.arriveNow core slot n cnt wait low = s.excMany core 0x0109 [(slot, n, low)] := by
  simp only [State.arriveNow, hg]
  exact if_pos ⟨hsome, hother⟩

end Check

theorem complete_of_zero {b : Barrier} (live : List Nat) (h : b.count = some 0) :
    b.complete live = true ↔ ∀ n ∈ live, n ∈ b.arrived := by
  simp [Barrier.complete, h]

theorem complete_of_pos {b : Barrier} (live : List Nat) {c : Nat} (hc : 0 < c) (h : b.count = some c) :
    b.complete live = true ↔ c ≤ b.arrived.length := by
  obtain ⟨k, rfl⟩ := Nat.exists_eq_succ_of_ne_zero hc.ne'
  simp [Barrier.complete, h]

/-! ## The deadlock (R76) -/

/-- What a group that waits at a barrier raises at the deadlock. -/
def deadlockOf (w : Nat × GroupWait) : Option (Nat × Nat × Nat) := match w.2 with
  | .barrier n low => some (w.1, n, low)
  | _ => none

theorem filterMap_deadlockOf {gs : List (Nat × Group)} {waits : List (Nat × Nat × Nat)}
    (h : gs.map (fun g => (g.1, g.2.wait)) = waits.map (fun w => (w.1, GroupWait.barrier w.2.1 w.2.2))) :
    gs.filterMap (fun g => deadlockOf (g.1, g.2.wait)) = waits := by
  have hmap := List.filterMap_map (f := fun g : Nat × Group => (g.1, g.2.wait)) (g := deadlockOf) (l := gs)
  rw [h, List.filterMap_map] at hmap
  exact hmap.symm.trans (List.filterMap_some ..)

theorem barrierDeadlock_of_waits {s : State} {core : Fin 48} {bs : Fin 32} {b : Block} {waits : List (Nat × Nat × Nat)}
    (hb : Sparse.find (s.core core.val).blocks bs.val = some b) (hne : (s.core core.val).groupsOf bs.val ≠ [])
    (hwaits : ((s.core core.val).groupsOf bs.val).map (fun g => (g.1, g.2.wait)) =
      waits.map (fun w => (w.1, GroupWait.barrier w.2.1 w.2.2)))
    (hbars : ∀ p ∈ b.bars, p.2.complete (((s.core core.val).groupsOf bs.val).map (fun g => g.2.num)) = false) :
    exec (.barrierDeadlock core bs) s = .next (s.excMany core.val 0x0108 waits) := by
  have hlength := congrArg List.length hwaits
  have hopen : b.bars.any (fun p => p.2.complete (((s.core core.val).groupsOf bs.val).map (fun g => g.2.num))) = false := by
    simpa using hbars
  rw [List.length_map, List.length_map] at hlength
  change execBarrierDeadlock core bs s = _
  rw [execBarrierDeadlock]
  simp only [hb]
  change (if (((s.core core.val).groupsOf bs.val).isEmpty
      || decide ((((s.core core.val).groupsOf bs.val).filterMap (fun g => deadlockOf (g.1, g.2.wait))).length ≠ _) || _) = true then _
    else Host.Outcome.next (s.excMany core.val 0x0108
      (((s.core core.val).groupsOf bs.val).filterMap (fun g => deadlockOf (g.1, g.2.wait))))) = _
  rw [filterMap_deadlockOf hwaits, hopen, if_neg (by simp [hne, hlength])]

/-! ## Fences (R86) -/

section Fence
variable {s s' : State} {x : Issue} {a : At} (h : Issues s x 10 fenceForm a s') (hop : x.i.op = 2)
include h hop

theorem fence_of_block (hscope : bits a.i.mod.toNat 1 0 = 0) : exec (.fence x) s = .next (s'.blockFence a.core a.slot) := by
  change execFence x s = _
  rw [execFence, withInsn_issues _ _ h (by simp [hop])]
  exact congrArg _ (if_pos hscope)

theorem fence_of_wider (hscope : bits a.i.mod.toNat 1 0 ≠ 0) :
    exec (.fence x) s = .next ((s'.updGroup a.core a.slot (fun g => { g with
      wait := .fence (decide (bits a.i.mod.toNat 3 2 ≠ 1)) (bits a.i.mod.toNat 1 0 + (if bits a.i.mod.toNat 3 2 ≠ 0 then 4 else 0)) })).fenceCheck
        a.core a.slot) := by
  change execFence x s = _
  rw [execFence, withInsn_issues _ _ h (by simp [hop])]
  exact congrArg _ (if_neg hscope)

end Fence

/-! Fences of a group that has nothing outstanding. -/

section Idle
variable {s : State} {core slot : Nat} {g : Group} {b : Block} (hg : s.groupAt core slot = some (g, b)) (hops : g.ops = [])
include hg hops

theorem settleAll_of_idle : s.settleAll core slot = s := by
  simp [State.settleAll, hg, hops]

theorem blockFence_of_idle : s.blockFence core slot = s.putGroup core slot g := by
  have hheld : g.hostPending = false := by simp [Group.hostPending, hops]
  rw [State.blockFence, settleAll_of_idle hg hops, updGroup_of_groupAt _ hg]
  simp only [hheld, Bool.false_and, Bool.false_eq_true, if_false]

/-- A fence with nothing to wait for ends, and an acquire beyond the block leaves no line in the L1. -/
theorem fenceCheck_of_idle {acq : Bool} {scope : Nat} (hwait : g.wait = .fence acq scope) (hwrite : g.hostWrite = none) :
    s.fenceCheck core slot =
      let t := s.putGroup core slot { g with wait := .ready }
      if acq = true ∧ scope % 4 ≠ 0 then t.l1Clear core else t := by
  have hopen : g.fenceOpen acq scope = false := by simp [Group.fenceOpen, hops]
  simp only [State.fenceCheck, hg, hwait, hopen, Bool.false_eq_true, if_false, hwrite, Option.isSome_none, and_false, ite_self]

/-- A ready group passes a fence beyond its block at once. -/
theorem fence_passes_of_idle (acq : Bool) (scope : Nat) (hready : g.wait = .ready) (hwrite : g.hostWrite = none) :
    (s.updGroup core slot (fun g => { g with wait := .fence acq scope })).fenceCheck core slot =
      let t := (s.putGroup core slot { g with wait := .fence acq scope }).putGroup core slot g
      if acq = true ∧ scope % 4 ≠ 0 then t.l1Clear core else t := by
  have hback : { g with wait := .ready } = g := by rw [← hready]
  have hg' := groupAt_putGroup_self hg (h := { g with wait := .fence acq scope }) rfl
  rw [updGroup_of_groupAt _ hg, fenceCheck_of_idle hg' hops rfl hwrite]
  dsimp only at hback ⊢
  rw [hback]

end Idle

theorem groupAt_putGroup_putGroup {s : State} {core slot : Nat} {g h : Group} {b : Block} (hg : s.groupAt core slot = some (g, b))
    (hblock : h.block = g.block) : ((s.putGroup core slot h).putGroup core slot g).groupAt core slot = some (g, b) :=
  groupAt_putGroup_self (groupAt_putGroup_self hg hblock) hblock.symm

theorem groupAt_l1Clear (s : State) (core slot : Nat) : (s.l1Clear core).groupAt core slot = s.groupAt core slot := by
  simp only [State.groupAt, State.l1Clear, core_setCore_self]

theorem l1_l1Clear (s : State) (core : Nat) : ((s.l1Clear core).core core).l1 = [] := by
  rw [State.l1Clear, core_setCore_self]

/-! ## The statement -/

/-- Settles O32, by the parts above. -/
theorem barriersAndFences : Obligations.BarriersAndFences := by
  intro s s' x a
  refine ⟨fun h => ⟨fun h32 hgroups => ?_, fun hbad => ?_⟩, fun core slot n cnt wait low g b hg hwait => ?_, fun b live => ?_,
    fun core bs b waits hb hne hwaits hbars => barrierDeadlock_of_waits hb hne hwaits hbars, fun h hop => ?_⟩
  · exact ⟨fun hop => arrive_of_count h (congrArg BitVec.toNat hop) h32 hgroups,
      fun hop => arrive_of_count h (congrArg BitVec.toNat hop) h32 hgroups⟩
  · exact ⟨fun hop => arrive_of_bad_count h (congrArg BitVec.toNat hop) hbad,
      fun hop => arrive_of_bad_count h (congrArg BitVec.toNat hop) hbad⟩
  · exact ⟨fenceCheck_of_held hg hwait,
      fun hgo hcount => (fenceCheck_of_arrival hg hwait hgo).trans (arriveNow_of_agrees hg wait low hcount),
      fun hgo hsome hother => (fenceCheck_of_arrival hg hwait hgo).trans (arriveNow_of_differs hg wait low hsome hother)⟩
  · exact ⟨complete_of_zero live, fun c => complete_of_pos live⟩
  · obtain ⟨hwait, hg⟩ := groupAt_of_issues h
    refine ⟨fence_of_block h hop, fence_of_wider h hop, fun hops hwrite => ⟨fun hscope => ?_, fun hscope => ?_⟩⟩
    · refine ⟨_, fence_of_block h hop hscope, ?_⟩
      rw [blockFence_of_idle hg hops]
      exact ⟨groupAt_putGroup_self hg rfl, rfl⟩
    · have hlt : bits a.i.mod.toNat 1 0 < 4 := Nat.mod_lt _ (by decide)
      have hwider : (bits a.i.mod.toNat 1 0 + if bits a.i.mod.toNat 3 2 ≠ 0 then 4 else 0) % 4 ≠ 0 := by split <;> omega
      refine ⟨_, fence_of_wider h hop hscope, ?_⟩
      rw [fence_passes_of_idle hg hops _ _ hwait hwrite]
      by_cases hkind : bits a.i.mod.toNat 3 2 = 1
      · rw [if_neg (by simp [hkind])]
        exact ⟨groupAt_putGroup_putGroup hg rfl, fun hne => absurd hkind hne, fun _ => by simp⟩
      · rw [if_pos ⟨decide_eq_true hkind, hwider⟩, groupAt_l1Clear]
        exact ⟨groupAt_putGroup_putGroup hg rfl, fun _ => l1_l1Clear .., fun heq => absurd heq hkind⟩

end Sys2Proof.Machine
end

section
/-! PROOFS. Global accesses (O33): the check of the lanes' addresses and the operation it starts, the responses that end one, and the
descriptor reads of the walks that its lines wait for (R77 to R90, R405). -/

namespace Sys2Proof.Machine

/-! ## The addresses of a global access (R77) -/

section Address
variable {a : At} {n l : Nat}

/-- A lane's pair and its sum with IMM lie in the 48-bit space. -/
def At.inSpace (a : At) (l : Nat) : Prop :=
  a.g.val true l a.i.srca.toNat < 2 ^ 48 ∧ 0 ≤ a.gaddr l ∧ a.gaddr l < 2 ^ 48

theorem globalFault_of_outside (h : ¬a.inSpace l) : a.globalFault n l = some (0x0104, wrapInt 64 (a.gaddr l)) := by
  unfold At.inSpace at h
  exact if_pos (by omega)

theorem globalFault_of_misaligned (h : a.inSpace l) (hn : a.gaddr l % n ≠ 0) :
    a.globalFault n l = some (0x0103, (a.gaddr l).toNat) := by
  obtain ⟨hpair, hlo, hhi⟩ := h
  exact (if_neg (by omega)).trans (if_pos hn)

theorem globalFault_of_fits (h : a.inSpace l) (hn : a.gaddr l % n = 0) : a.globalFault n l = none := by
  obtain ⟨hpair, hlo, hhi⟩ := h
  exact (if_neg (by omega)).trans (if_neg (not_not.2 hn))

variable {s t : State} {i : Instr} {k : State → State} (hexec : exec i s = .next (t.checked a (a.globalFault n) k))
include hexec

theorem exec_of_fits (h : ∀ l ∈ a.g.run a.i, a.inSpace l ∧ a.gaddr l % n = 0) : exec i s = .next (k t) := by
  rw [hexec, checked_of_none k fun l hl => globalFault_of_fits (h l hl).1 (h l hl).2]

/-- The lowest lane that fails raises its exception, and the range comes before the alignment. -/
theorem exec_of_globalFault (l : Nat) (pre post : List Nat) (hrun : a.g.run a.i = pre ++ l :: post)
    (hpre : ∀ m ∈ pre, a.inSpace m ∧ a.gaddr m % n = 0) :
    (¬a.inSpace l → exec i s = .next (t.exc a 0x0104 l (wrapInt 64 (a.gaddr l))))
      ∧ (a.inSpace l → a.gaddr l % n ≠ 0 → exec i s = .next (t.exc a 0x0103 l (a.gaddr l).toNat)) := by
  have hnone : ∀ m ∈ pre, a.globalFault n m = none := fun m hm => globalFault_of_fits (hpre m hm).1 (hpre m hm).2
  exact ⟨fun h => by rw [hexec, checked_of_first k hrun hnone (globalFault_of_outside h)],
    fun h hn => by rw [hexec, checked_of_first k hrun hnone (globalFault_of_misaligned h hn)]⟩

end Address

/-! ## Loads, stores and atomics at issue (R78, R84) -/

section Issued
variable {s s' s1 : State} {x : Issue} {a : At} {b : BSrc}

theorem gmemLoad_of_issues (h : Issues s x 7 (memForm false) a s') (hload : bit x.i.op.toNat 3 = false) :
    exec (.gmemLoad x) s = .next (s'.checked a (a.globalFault (memBytes a.i)) (fun s =>
      s.startOp a .load (memBytes a.i) (bit a.i.op.toNat 4) false (bits a.i.ext.toNat 1 0) a.i.dst.toNat
        ((a.g.run a.i).map (fun l => ⟨l, (a.gaddr l).toNat, 0, 0, none⟩)))) := by
  change execGmemLoad x s = _
  rw [execGmemLoad, withInsn_issues _ _ h (by simp [hload])]

theorem gmemStore_of_issues (h : Issues s x 7 (memForm false) a s') (hstore : bit x.i.op.toNat 3 = true) :
    exec (.gmemStore x) s = .next (s'.checked a (a.globalFault (memBytes a.i)) (fun s => s.storeData a (memBytes a.i) (fun v s =>
      s.startOp a .store (memBytes a.i) false false (bits a.i.ext.toNat 1 0) 0
        ((a.g.run a.i).map (fun l => ⟨l, (a.gaddr l).toNat, v l, 0, none⟩))))) := by
  change execGmemStore x s = _
  rw [execGmemStore, withInsn_issues _ _ h hstore]

theorem storeData_of_words {n : Nat} (k : (Nat → Nat) → State → State) (hb : s.bwords a (memRegs n) = (some b, s1)) :
    s.storeData a n k = k (fun l => a.storeVal b n l) s1 := by
  simp only [State.storeData, hb]

theorem atom_of_issues {op : Nat} (h : Issues s x 9 atomForm a s') (hglobal : bit a.i.op.toNat 7 = false)
    (hb : s'.bsrc a a.i.wide = (some b, s1)) (h7 : op ≤ 7) (hop : x.i.op.toNat = op) :
    s.atom x op = .next (s1.checked a (a.globalFault (if a.i.wide then 8 else 4)) (fun s =>
      s.startOp a (.atomic op true) (if a.i.wide then 8 else 4) false (typeSigned a.i.type.toNat) 1 a.i.dst.toNat
        ((a.g.run a.i).map (fun l => ⟨l, (a.gaddr l).toNat, a.bval b a.i.wide l, a.g.val a.i.wide l a.i.srcc.toNat, none⟩)))) := by
  have hmine : (x.i.op.toNat % 128 == op) = true := by rw [hop, beq_iff_eq]; omega
  rw [State.atom, withInsn_issues _ _ h hmine]
  simp only [hb, hglobal, Bool.false_eq_true, if_false]

end Issued

/-! ## Responses (R86, R90) -/

section Response
variable {s : State} {core : Fin 48} {slot : Fin 64} {g : Group} {blk : Block} {o : MemOp}

theorem loadResponse_of_not_answered (hg : s.groupAt core.val slot.val = some (g, blk)) (hop : g.op o.id = some o)
    (h : o.answered = false) : exec (.loadResponse core slot o.id []) s = .next s := by
  change execLoadResponse core slot o.id [] s = _
  simp only [execLoadResponse, State.ariseAll, List.foldl_nil, hg, hop, Option.bind_some, Option.map_some, h, Bool.not_false, if_true]

variable (hg : s.groupAt core.val slot.val = some (g, blk)) (hop : g.op o.id = some o) (h : o.answered = true) {g1 : Group}
  {b1 : Block} {o1 : MemOp} (hg1 : (s.settleLines core.val slot.val o).groupAt core.val slot.val = some (g1, b1))
  (hop1 : g1.op o.id = some o1)
include hg hop h hg1 hop1

theorem loadResponse_of_answered (hp : o1.poisonAt = none) :
    exec (.loadResponse core slot o.id []) s = .next (((s.settleLines core.val slot.val o).putGroup core.val slot.val
      (g1.loaded o1 o1.lineData)).fenceCheck core.val slot.val) := by
  change execLoadResponse core slot o.id [] s = _
  simp only [execLoadResponse, State.ariseAll, List.foldl_nil, hg, hop, Option.bind_some, Option.map_some, h, Bool.not_true,
    Bool.false_eq_true, if_false, hg1, hop1, hp, updGroup_of_groupAt _ hg1]

theorem loadResponse_of_poisoned {pa : Nat} (hp : o1.poisonAt = some pa) :
    exec (.loadResponse core slot o.id []) s = .next (((s.settleLines core.val slot.val o).cutOp core.val slot.val o.id
      (fun _ => false)).poisonFault blk.ctx pa (some (blk.q, blk.seq))) := by
  change execLoadResponse core slot o.id [] s = _
  simp only [execLoadResponse, State.ariseAll, List.foldl_nil, hg, hop, Option.bind_some, Option.map_some, h, Bool.not_true,
    Bool.false_eq_true, if_false, hg1, hop1, hp]

end Response

theorem Group.setMany_frame (g : Group) (l r n v : Nat) : g.setMany l r n v = { g with regs := (g.setMany l r n v).regs } := by
  unfold Group.setMany
  induction List.range n generalizing g with
  | nil => rfl
  | cons j js ih => exact ih (g.setReg l (r + j) (v / 2 ^ (32 * j)))

/-- A response writes registers and takes its operation off the group: block and wait state stay. -/
theorem Group.loaded_keeps (g : Group) (o : MemOp) (lines : List (Nat × List Byte)) :
    (g.loaded o lines).block = g.block ∧ (g.loaded o lines).wait = g.wait := by
  have hfold : ∀ (f : LaneAcc → Nat) (ls : List LaneAcc) (u : Group),
      (ls.foldl (fun g x => g.setMany x.lane o.dst (memRegs o.width) (f x)) u).block = u.block
        ∧ (ls.foldl (fun g x => g.setMany x.lane o.dst (memRegs o.width) (f x)) u).wait = u.wait := by
    intro f ls
    induction ls with
    | nil => exact fun u => ⟨rfl, rfl⟩
    | cons x ls ih =>
      intro u
      rw [List.foldl_cons, Group.setMany_frame u]
      exact ih _
  exact hfold _ o.lanes { g with ops := g.ops.filter (fun y => y.id != o.id) }

/-- What a line adds to the bytes that an operation has brought. -/
def LineReq.bring (m : List (Nat × List Byte)) (l : LineReq) : List (Nat × List Byte) := match l.st with
  | .arrived _ _ bs => Sparse.put m l.va (lineBytes bs)
  | _ => m

theorem MemOp.lineData_eq (o : MemOp) : o.lineData = o.lines.foldl LineReq.bring [] := rfl

theorem LineReq.find_bring_self {l : LineReq} {cls : OutClass} {out : Nat} {bs : List (Option Byte)} (m : List (Nat × List Byte))
    (h : l.st = .arrived cls out bs) : Sparse.find (LineReq.bring m l) l.va = some (lineBytes bs) := by
  rw [LineReq.bring, h, Sparse.find_put_self]

theorem LineReq.find_bring_ne {l : LineReq} {va : Nat} (m : List (Nat × List Byte)) (h : va ≠ l.va) :
    Sparse.find (LineReq.bring m l) va = Sparse.find m va := by
  unfold LineReq.bring
  split
  · exact Sparse.find_put_ne _ _ h
  · rfl

/-- Of lines with addresses of their own each one's bytes are found at its address. -/
theorem find_lineData {o : MemOp} {l : LineReq} {cls : OutClass} {out : Nat} {bs : List (Option Byte)} (hl : l ∈ o.lines)
    (hst : l.st = .arrived cls out bs) (hown : ∀ m ∈ o.lines, m.va = l.va → m = l) :
    Sparse.find o.lineData l.va = some (lineBytes bs) := by
  rw [o.lineData_eq]
  have hfold : ∀ (ls : List LineReq) (m : List (Nat × List Byte)), (∀ k ∈ ls, k.va = l.va → k = l) →
      l ∈ ls ∨ Sparse.find m l.va = some (lineBytes bs) → Sparse.find (ls.foldl LineReq.bring m) l.va = some (lineBytes bs) := by
    intro ls
    induction ls with
    | nil => exact fun m _ h => h.resolve_left List.not_mem_nil
    | cons k ks ih =>
      intro m hone h
      refine ih _ (fun j hj => hone j (List.mem_cons_of_mem k hj)) ?_
      by_cases hk : k = l
      · right
        rw [hk]
        exact LineReq.find_bring_self m hst
      · have hva : l.va ≠ k.va := fun h => hk (hone k List.mem_cons_self h.symm)
        rw [LineReq.find_bring_ne m hva]
        exact h.imp_left fun h => (List.mem_cons.1 h).resolve_left (Ne.symm hk)
  exact hfold o.lines [] hown (.inl hl)

theorem settleLines_of_arrived {s : State} {core slot : Nat} {o : MemOp}
    (h : ∀ l ∈ o.lines, ∃ cls out bs, l.st = .arrived cls out bs) : s.settleLines core slot o = s := by
  unfold State.settleLines
  generalize o.lines = ls at h ⊢
  induction ls with
  | nil => rfl
  | cons l ls ih =>
    obtain ⟨⟨cls, out, bs, hst⟩, hrest⟩ := List.forall_mem_cons.1 h
    rw [List.foldl_cons, hst]
    exact ih hrest

theorem answered_of_arrived {o : MemOp} (hkind : o.kind = .load) (h : ∀ l ∈ o.lines, ∃ cls out bs, l.st = .arrived cls out bs) :
    o.answered = true := by
  unfold MemOp.answered
  rw [Bool.and_eq_true, List.all_eq_true]
  refine ⟨by simp [hkind], fun l hl => ?_⟩
  obtain ⟨cls, out, bs, hst⟩ := h l hl
  rw [hst]

theorem poisonAt_of_arrived {o : MemOp} (h : ∀ l ∈ o.lines, ∃ cls out bs, l.st = .arrived cls out bs) : o.poisonAt = none := by
  refine List.findSome?_eq_none_iff.2 fun l hl => ?_
  obtain ⟨cls, out, bs, hst⟩ := h l hl
  rw [hst]

section StoreAck
variable {s : State} {core : Fin 48} {slot : Fin 64} {g : Group} {blk : Block} {o : MemOp}
  (hg : s.groupAt core.val slot.val = some (g, blk)) (hop : g.op o.id = some o)
include hg hop

theorem storeAck_of_acked (hkind : o.kind = .store) (h : ∀ l ∈ o.lines, s.acked l = true) :
    exec (.storeAck core slot o.id) s = .next ((s.putGroup core.val slot.val
      { g with ops := g.ops.filter (fun y => y.id != o.id) }).fenceCheck core.val slot.val) := by
  have hall : o.lines.all (fun l => s.acked l) = true := List.all_eq_true.2 h
  change execStoreAck core slot o.id s = _
  simp only [execStoreAck, hg, hop]
  exact if_neg (by simp [hkind, hall])

theorem storeAck_of_not_acked (h : ∃ l ∈ o.lines, s.acked l = false) : exec (.storeAck core slot o.id) s = .next s := by
  have hall : o.lines.all (fun l => s.acked l) = false := List.all_eq_false.2 (by simpa using h)
  change execStoreAck core slot o.id s = _
  simp only [execStoreAck, hg, hop]
  exact if_pos (by simp [hall])

end StoreAck

/-! ## Descriptor reads (R405, R413, R417) -/

theorem walkReadResponse_of_none {s : State} {id : Nat} (r : ReadResult) (h : ∀ v ∈ s.mmu.walks, v.id ≠ id) :
    exec (.walkReadResponse id r) s = .next s := by
  have hnone : s.mmu.walks.find? (fun w => w.id == id) = none := List.find?_eq_none.2 fun v hv => by simpa using h v hv
  change execWalkReadResponse id r s = _
  simp only [execWalkReadResponse, State.walkResponse, hnone]

section Walk
variable {s s2 : State} {id : Nat} {r : ReadResult} {w : Walk} {cx : Ctx} {c : Nat}

/-- The state without the host read of a walk. -/
def State.dropWalkRead (s : State) (id : Nat) : State :=
  { s with hif := { s.hif with reads := s.hif.reads.filter (fun x => x.for_ ≠ HostReadFor.walk id) } }

/-- The state without a walk. -/
def State.dropWalk (s : State) (id : Nat) : State := { s with mmu := { s.mmu with walks := s.mmu.walks.filter (fun x => x.id ≠ id) } }

/-- The state in which a walk stands at its next descriptor. -/
def State.nextRead (s : State) (id : Nat) (w : Walk) : State :=
  { s with mmu := { s.mmu with walks := s.mmu.walks.map (fun (y : Walk) => if y.id = id then w else y) } }

/-- What a descriptor's step makes of its walk: a fault or a translation for the accesses that wait for it, or its next read. -/
def State.walkFed (s : State) (id : Nat) (w : Walk) (x : Xlat) : WalkStep → State
  | .fault f => (s.dropWalk id).walkDeliver w.core id (.fault f)
  | .done out size wr ex dv level =>
    let end_ := s.walkEnd w.tlb x w.host w.ia out size wr ex dv level w.access w.covered
    (end_.2.dropWalk id).walkDeliver w.core id end_.1
  | .readAt level _ cls out wr ex =>
    let next := s.nextRead id { w with level := level, addr := out, cls := cls, wr := wr, ex := ex }
    if cls = .device then next else next.hostReadStart w.unit w.ctx out 8 false (.walk id)

/-- What the response of a walk's read makes of it, the read being taken off: a fault without data, and otherwise the step of its
descriptor. -/
def State.walkAnswered (s : State) (id : Nat) (w : Walk) (x : Xlat) (r : ReadResult) : State :=
  match s.walkData w r with
  | (none, cause, s2) => (s2.dropWalk id).walkDeliver w.core id (.fault ⟨5, w.level, s.walkAddr x w, cause, w.host⟩)
  | (some d, _, s2) =>
    let fed := s2.walkFeed w.ctx x w.host w.ia w.level (s.walkAddr x w) d w.wr w.ex
    (if w.covered then s2 else s2.wcachePut fed.2).walkFed id w x fed.1

theorem walkReadResponse_of_walk (hw : s.mmu.walks.find? (fun w => w.id == id) = some w) (hcx : s.ctx w.ctx = some cx) :
    exec (.walkReadResponse id r) s = .next ((s.dropWalkRead id).walkAnswered id w cx.xlat r) := by
  change Host.Outcome.next (s.walkResponse id r) = _
  rw [State.walkResponse, hw]
  change Host.Outcome.next (match s.ctx w.ctx with
    | none => (s.dropWalkRead id).dropWalk id
    | some cx => (s.dropWalkRead id).walkAnswered id w cx.xlat r) = _
  rw [hcx]

theorem walkAnswered_of_no_data {x : Xlat} (h : s.walkData w r = (none, c, s2)) :
    s.walkAnswered id w x r = (s2.dropWalk id).walkDeliver w.core id (.fault ⟨5, w.level, s.walkAddr x w, c, w.host⟩) := by
  rw [State.walkAnswered, h]

theorem walkAnswered_of_data {x : Xlat} {v : Nat} {step : WalkStep} {e : Option WalkCacheEntry} (h : s.walkData w r = (some v, c, s2))
    (hfeed : s2.walkFeed w.ctx x w.host w.ia w.level (s.walkAddr x w) v w.wr w.ex = (step, e)) :
    s.walkAnswered id w x r = (if w.covered then s2 else s2.wcachePut e).walkFed id w x step := by
  rw [State.walkAnswered, h]
  dsimp only
  rw [hfeed]

end Walk

/-! ## A load whose lines have all arrived -/

theorem loadResponse_of_arrived {s : State} {core : Fin 48} {slot : Fin 64} {g : Group} {blk : Block} {o : MemOp}
    (hg : s.groupAt core.val slot.val = some (g, blk)) (hop : g.op o.id = some o) (hkind : o.kind = .load)
    (h : ∀ l ∈ o.lines, ∃ cls out bs, l.st = .arrived cls out bs) (hready : g.wait = .ready) :
    exec (.loadResponse core slot o.id []) s = .next (s.putGroup core.val slot.val (g.loaded o o.lineData))
      ∧ (s.putGroup core.val slot.val (g.loaded o o.lineData)).groupAt core.val slot.val = some (g.loaded o o.lineData, blk) := by
  obtain ⟨hblock, hwait⟩ := g.loaded_keeps o o.lineData
  have hsettled : s.settleLines core.val slot.val o = s := settleLines_of_arrived h
  have hput := groupAt_putGroup_self hg hblock
  have hresponse := loadResponse_of_answered hg hop (answered_of_arrived hkind h) (hsettled.symm ▸ hg) hop (poisonAt_of_arrived h)
  rw [hsettled, fenceCheck_of_ready hput (hwait.trans hready)] at hresponse
  exact ⟨hresponse, hput⟩

/-! ## O33 -/

/-- Settles O33, clause by clause from the rules of the accesses at issue, of their responses and of the walks' reads. -/
theorem globalAccesses : Obligations.GlobalAccesses := by
  unfold Obligations.GlobalAccesses
  intro s s' s1 x a b
  refine ⟨?gmem, ?atom, ?responses, fun _ _ _ _ => rfl, fun _ r h => walkReadResponse_of_none r h, ?walks⟩
  case gmem =>
    intro h
    dsimp only
    exact ⟨fun hload hfits => exec_of_fits (gmemLoad_of_issues h hload) hfits, fun hstore hfits hb =>
        (exec_of_fits (gmemStore_of_issues h hstore) hfits).trans (congrArg _ (storeData_of_words _ hb)),
      fun hload => exec_of_globalFault (gmemLoad_of_issues h hload),
      fun hstore => exec_of_globalFault (gmemStore_of_issues h hstore)⟩
  case atom =>
    intro h hglobal hb
    have hexec : ∀ {op : Nat} {i : Instr}, op ≤ 7 → exec i s = s.atom x op → x.i.op.toNat = op → _ := fun h7 hi hop =>
      hi.trans (atom_of_issues h hglobal hb h7 hop)
    have does : ∀ {op : Nat} {i : Instr} (h7 : op ≤ 7) (hi : exec i s = s.atom x op) (hop : x.i.op.toNat = op), _ ∧ _ :=
      fun h7 hi hop => ⟨exec_of_fits (hexec h7 hi hop), exec_of_globalFault (hexec h7 hi hop)⟩
    exact ⟨does (by decide) rfl, does (by decide) rfl, does (by decide) rfl, does (by decide) rfl, does (by decide) rfl,
      does (by decide) rfl, does (by decide) rfl, does (by decide) rfl⟩
  case responses =>
    intro core slot g blk o hg hop
    refine ⟨fun _ hnot => loadResponse_of_not_answered hg hop hnot, fun g1 b1 o1 hans hg1 hop1 =>
      ⟨fun hp => loadResponse_of_answered hg hop hans hg1 hop1 hp, fun pa hp => loadResponse_of_poisoned hg hop hans hg1 hop1 hp⟩, ?_, ?_,
      fun h => storeAck_of_not_acked hg hop h⟩
    · intro hkind h hown hready
      obtain ⟨hnext, hgroup⟩ := loadResponse_of_arrived hg hop hkind h hready
      exact ⟨_, _, hnext, hgroup, fun l _ _ _ hl hst => find_lineData hl hst fun m hm hva => hown m l hm hl hva⟩
    · intro hkind hacked
      have hack := storeAck_of_acked hg hop hkind hacked
      have hput := groupAt_putGroup_self (h := { g with ops := g.ops.filter (fun y => y.id != o.id) }) hg rfl
      exact ⟨hack, fun hready => ⟨_, hack, by rw [fenceCheck_of_ready hput hready, hput]⟩⟩
  case walks =>
    intro id r w cx d c s2 hw hcx
    dsimp only
    intro hd
    have hanswer := walkReadResponse_of_walk (r := r) hw hcx
    refine ⟨fun hnone => ?_, fun v e hv => ⟨fun f hfeed => ?_, fun out size wr ex dv level hfeed => ?_,
      fun level addr cls out wr ex hfeed => ?_⟩⟩
    · subst hnone
      exact hanswer.trans (congrArg _ (walkAnswered_of_no_data hd))
    all_goals
      subst hv
      exact hanswer.trans (congrArg _ (walkAnswered_of_data hd hfeed))

end Sys2Proof.Machine
end

section
/-! PROOFS. Runs of registers: what several writes leave of a group's registers, in the running lanes from DST and beyond. -/

namespace Sys2Proof.Machine

/-! ## Writes of several registers -/

/-- Writes of registers one after the other, each a lane, a register and a value. -/
def Group.setRegs (g : Group) (ws : List (Nat × Nat × Nat)) : Group := ws.foldl (fun g w => g.setReg w.1 w.2.1 w.2.2) g

theorem Group.setRegs_cons (g : Group) (w : Nat × Nat × Nat) (ws : List (Nat × Nat × Nat)) :
    g.setRegs (w :: ws) = (g.setReg w.1 w.2.1 w.2.2).setRegs ws := rfl

theorem Group.setRegs_frame (g : Group) (ws : List (Nat × Nat × Nat)) : g.setRegs ws = { g with regs := (g.setRegs ws).regs } := by
  induction ws generalizing g with
  | nil => rfl
  | cons w ws ih => exact ih (g.setReg w.1 w.2.1 w.2.2)

theorem Group.reg_setRegs_of_not_written (g : Group) {ws : List (Nat × Nat × Nat)} {l r : Nat} (hr : r < 256)
    (hws : ∀ w ∈ ws, w.2.1 < 256) (h : ∀ w ∈ ws, l ≠ w.1 ∨ r ≠ w.2.1) : (g.setRegs ws).reg l r = g.reg l r := by
  induction ws generalizing g with
  | nil => rfl
  | cons w ws ih =>
    rw [List.forall_mem_cons] at hws h
    rw [g.setRegs_cons, ih _ hws.2 h.2, g.reg_setReg_ne _ hws.1 hr h.1]

/-- A register that is written holds its value, where no two writes disagree. -/
theorem Group.reg_setRegs_of_written (g : Group) {ws : List (Nat × Nat × Nat)} {l r v : Nat} (hws : ∀ w ∈ ws, w.2.1 < 256)
    (hmem : (l, r, v) ∈ ws) (hone : ∀ w ∈ ws, w.1 = l → w.2.1 = r → w.2.2 = v) : (g.setRegs ws).reg l r = v % 2 ^ 32 := by
  induction ws generalizing g with
  | nil => cases hmem
  | cons w ws ih =>
    rw [List.forall_mem_cons] at hws hone
    rw [g.setRegs_cons]
    by_cases hlater : (l, r, v) ∈ ws
    · exact ih _ hws.2 hlater hone.2
    · obtain rfl : (l, r, v) = w := (List.mem_cons.1 hmem).resolve_right hlater
      refine (Group.reg_setRegs_of_not_written _ hws.1 hws.2 fun u hu => ?_).trans (g.reg_setReg_self ..)
      by_contra hsame
      obtain ⟨rfl, rfl⟩ : l = u.1 ∧ r = u.2.1 := by tauto
      exact hlater (hone.2 u hu rfl rfl ▸ hu)

/-- `g` is the issuing group but for the `n` registers from DST in the running lanes. -/
def KeepsBeyond (a : At) (n : Nat) (g : Group) : Prop :=
  g = { a.g with regs := g.regs }
    ∧ ∀ l r, l < 32 → r < 256 → r < a.i.dst.toNat ∨ a.i.dst.toNat + n ≤ r ∨ l ∉ a.g.run a.i → g.reg l r = a.g.reg l r

theorem keepsBeyond_setRegs {a : At} {n : Nat} {ws : List (Nat × Nat × Nat)} (hdst : a.i.dst.toNat + n ≤ 256)
    (hws : ∀ w ∈ ws, w.1 ∈ a.g.run a.i ∧ a.i.dst.toNat ≤ w.2.1 ∧ w.2.1 < a.i.dst.toNat + n) : KeepsBeyond a n (a.g.setRegs ws) := by
  refine ⟨a.g.setRegs_frame ws, fun l r _ hr hout => a.g.reg_setRegs_of_not_written hr (fun w hw => ?_) fun w hw => ?_⟩
  · have := (hws w hw).2.2
    omega
  · obtain ⟨hrun, hlo, hhi⟩ := hws w hw
    by_contra hsame
    obtain ⟨rfl, rfl⟩ : l = w.1 ∧ r = w.2.1 := by tauto
    rcases hout with hout | hout | hout
    · omega
    · omega
    · exact hout hrun

/-- The writes of `n` registers from DST in each running lane, `v` the value of a lane and a register of the run. -/
def laneWrites (a : At) (n : Nat) (v : Nat → Nat → Nat) : List (Nat × Nat × Nat) :=
  (a.g.run a.i).flatMap (fun l => (List.range n).map (fun j => (l, a.i.dst.toNat + j, v l j)))

theorem mem_laneWrites {a : At} {n : Nat} {v : Nat → Nat → Nat} {w : Nat × Nat × Nat} :
    w ∈ laneWrites a n v ↔ ∃ l ∈ a.g.run a.i, ∃ j < n, w = (l, a.i.dst.toNat + j, v l j) := by
  simp [laneWrites, eq_comm]

theorem keepsBeyond_laneWrites {a : At} {n : Nat} (v : Nat → Nat → Nat) (hdst : a.i.dst.toNat + n ≤ 256) :
    KeepsBeyond a n (a.g.setRegs (laneWrites a n v)) := by
  refine keepsBeyond_setRegs hdst fun w hw => ?_
  obtain ⟨l, hl, j, hj, rfl⟩ := mem_laneWrites.1 hw
  exact ⟨hl, Nat.le_add_right .., Nat.add_lt_add_left hj _⟩

theorem reg_laneWrites {a : At} {n l j : Nat} (v : Nat → Nat → Nat) (hdst : a.i.dst.toNat + n ≤ 256) (hl : l ∈ a.g.run a.i) (hj : j < n) :
    (a.g.setRegs (laneWrites a n v)).reg l (a.i.dst.toNat + j) = v l j % 2 ^ 32 := by
  refine a.g.reg_setRegs_of_written (fun w hw => ?_) (mem_laneWrites.2 ⟨l, hl, j, hj, rfl⟩) fun w hw hlane hreg => ?_
  · obtain ⟨l', -, j', hj', rfl⟩ := mem_laneWrites.1 hw
    exact (Nat.add_lt_add_left hj' _).trans_le hdst
  · obtain ⟨l', -, j', -, rfl⟩ := mem_laneWrites.1 hw
    obtain rfl : l' = l := hlane
    obtain rfl : j' = j := Nat.add_left_cancel hreg
    rfl

/-- A register run that a form names starts at a multiple of its length (R55). -/
theorem run_aligned_of_issues {s s' : State} {x : Issue} {a : At} {cls : Nat} {f : Form} {r n : Nat} (h : Issues s x cls f a s')
    (hr : (r, n) ∈ f.runs a.i) : r % n = 0 := by
  rw [insn_of_issues h] at hr
  obtain ⟨g, b, s0, -, -, -, hok, -⟩ := h
  simp only [Form.ok, Bool.and_eq_true, List.all_eq_true] at hok
  simpa using hok.2 _ hr

end Sys2Proof.Machine
end

section
/-! PROOFS. S32 accumulation (O36): D of an MMA, its kinds at issue, and the exact sum that the accumulation wraps or clamps. -/

namespace Sys2Proof.Machine

/-! ## D of an MMA (R113) -/

/-- The writes of D: element (m, n) to its lane and register. -/
def accWrites (dst : Nat) (d : Nat → Nat → Nat) : List (Nat × Nat × Nat) :=
  (List.range 16).flatMap fun m => (List.range 16).map fun n => ((accAt m n).1, dst + (accAt m n).2, d m n)

theorem storeD_eq (g : Group) (dst : Nat) (d : Nat → Nat → Nat) : storeD g dst d = g.setRegs (accWrites dst d) := by
  simp only [Group.setRegs, accWrites, List.foldl_flatMap, List.foldl_map]
  rfl

theorem mem_accWrites {dst : Nat} {d : Nat → Nat → Nat} {w : Nat × Nat × Nat} :
    w ∈ accWrites dst d ↔ ∃ m < 16, ∃ n < 16, w = (m % 8 * 4 + n / 4, dst + (m / 8 * 4 + n % 4), d m n) := by
  simp [accWrites, accAt, eq_comm]

/-- No two elements share a lane and a register. -/
theorem accAt_injective {m n m' n' : Nat} (hn : n < 16) (hn' : n' < 16)
    (hlane : m % 8 * 4 + n / 4 = m' % 8 * 4 + n' / 4) (hreg : m / 8 * 4 + n % 4 = m' / 8 * 4 + n' % 4) : m = m' ∧ n = n' := by omega

theorem reg_storeD (g : Group) {dst : Nat} (d : Nat → Nat → Nat) {m n : Nat} (hdst : dst + 8 ≤ 256) (hm : m < 16) (hn : n < 16) :
    (storeD g dst d).reg (m % 8 * 4 + n / 4) (dst + (m / 8 * 4 + n % 4)) = d m n % 2 ^ 32 := by
  rw [storeD_eq]
  refine g.reg_setRegs_of_written (fun w hw => ?_) (mem_accWrites.2 ⟨m, hm, n, hn, rfl⟩) fun w hw hlane hreg => ?_
  · obtain ⟨m', hm', n', hn', rfl⟩ := mem_accWrites.1 hw
    dsimp only
    omega
  · obtain ⟨m', hm', n', hn', rfl⟩ := mem_accWrites.1 hw
    obtain ⟨rfl, rfl⟩ := accAt_injective hn' hn hlane (by simpa using hreg)
    rfl

/-- Every lane runs an instruction. -/
abbrev AllRun (a : At) : Prop := ∀ l, l < 32 → l ∈ a.g.run a.i

theorem keepsBeyond_storeD {a : At} (d : Nat → Nat → Nat) (hall : AllRun a) (hdst : a.i.dst.toNat + 8 ≤ 256) :
    KeepsBeyond a 8 (storeD a.g a.i.dst.toNat d) := by
  rw [storeD_eq]
  refine keepsBeyond_setRegs hdst fun w hw => ?_
  obtain ⟨m, hm, n, hn, rfl⟩ := mem_accWrites.1 hw
  exact ⟨hall _ (by omega), by dsimp only; omega, by dsimp only; omega⟩

/-! ## The kinds of MMA at issue (R109, R112) -/

theorem mmaRun_of_all (s : State) {a : At} (k : At → State → State) (h : AllRun a) : s.mmaRun a k = k a s := by
  have hnone : (List.range 32).find? (fun l => !(a.g.run a.i).contains l) = none := by
    rw [List.find?_eq_none]
    intro l hl
    simpa using h l (List.mem_range.1 hl)
  rw [State.mmaRun, hnone]

theorem mmaRun_of_not_all (s : State) {a : At} (k : At → State → State) (h : ¬AllRun a) :
    s.mmaRun a k = s.exc a 0x010E ((a.g.run a.i).headD 0) 0 := by
  obtain ⟨l, hl⟩ : ∃ l, (List.range 32).find? (fun l => !(a.g.run a.i).contains l) = some l := by
    rw [← Option.isSome_iff_exists, List.find?_isSome]
    simpa using h
  rw [State.mmaRun, hl]

/-- Element `j` of row or column `h` of the operand whose run starts at `base`, elements of width `w` laid out as those of width `nat`. -/
def At.operandElem (a : At) (base w nat h j : Nat) : Nat := a.g.elem (nativeAt nat h j).1 base w (nativeAt nat h j).2

/-- The code of A's element (m, j). -/
def At.aElem (a : At) (m j : Nat) : Nat := a.operandElem a.i.srca.toNat (fmtBits (aFmt a.i)) (fmtBits (aFmt a.i)) m j

/-- The code of B's element (j, n). -/
def At.bElem (a : At) (j n : Nat) : Nat := a.operandElem a.i.srcb.toNat (fmtBits (bFmt a.i)) (fmtBits (bFmt a.i)) n j

/-- The integer products of row `m` and column `n`. -/
def At.intProducts (a : At) (k m n : Nat) : List Int :=
  (List.range k).map (fun j => fmtIntVal (aFmt a.i) (a.aElem m j) * fmtIntVal (bFmt a.i) (a.bElem j n))

/-- Element (m, n) of D of an MMA of `k` products. -/
def At.mmaElem (a : At) (k m n : Nat) : Nat :=
  if a.i.type = 3 then accS32 (bit a.i.mod.toNat 0) (mmaC a m n) (a.intProducts k m n)
  else mmaF32 k (if k = 8 then 8 else 16) (fun m j => fmtDecode (aFmt a.i) (a.aElem m j))
    (fun j n => fmtDecode (bFmt a.i) (a.bElem j n)) (mmaC a) m n

section Mma
variable {s s' : State} {x : Issue} {a : At}

theorem dst_add_of_issues {n : Nat} (h : Issues s x 6 mmaForm a s') (hn : n ∣ 256) (hr : (a.i.dst.toNat, n) ∈ mmaForm.runs a.i) :
    a.i.dst.toNat + n ≤ 256 := by
  have hlt := a.i.dst.isLt
  have hrest := Nat.le_of_dvd (by omega) (Nat.dvd_sub hn (Nat.dvd_of_mod_eq_zero (run_aligned_of_issues h hr)))
  omega

theorem dst_add_eight_of_issues (h : Issues s x 6 mmaForm a s') (hop : x.i.op = 0 ∨ x.i.op = 1 ∨ x.i.op = 2 ∨ x.i.op = 4) :
    a.i.dst.toNat + 8 ≤ 256 := by
  refine dst_add_of_issues h (by decide) ?_
  rw [← insn_of_issues h] at hop
  rcases hop with hop | hop | hop | hop <;> simp [mmaForm, hop]

theorem withInsn_mmaRun_of_all {mine : Nat → Bool} (k : At → State → State) (h : Issues s x 6 mmaForm a s')
    (hop : mine x.i.op.toNat = true) (hall : AllRun a) :
    s.withInsn x 6 mine mmaForm (fun a s => s.mmaRun a k) = .next (k a s') := by
  rw [withInsn_issues _ _ h hop, mmaRun_of_all _ _ hall]

/-- A kind of MMA with a lane that does not run raises MMA_LANES (R109). -/
theorem withInsn_mmaRun_of_not_all {mine : Nat → Bool} (k : At → State → State) (h : Issues s x 6 mmaForm a s')
    (hop : mine x.i.op.toNat = true) (hall : ¬AllRun a) :
    s.withInsn x 6 mine mmaForm (fun a s => s.mmaRun a k) = .next (s'.exc a 0x010E ((a.g.run a.i).headD 0) 0) := by
  rw [withInsn_issues _ _ h hop, mmaRun_of_not_all _ _ hall]

theorem mma_of_issues (h : Issues s x 6 mmaForm a s') (hop : x.i.op = 0) (hall : AllRun a) {t k : Nat}
    (htype : a.i.type.toNat = t) (hk : mmaShape (aFmt a.i) (bFmt a.i) t = some k) :
    exec (.mma x) s = .next ((s'.putAt a (storeD a.g a.i.dst.toNat (a.mmaElem k))).macs a.core (256 * k)) := by
  subst htype
  obtain rfl : (mmaShape (aFmt a.i) (bFmt a.i) a.i.type.toNat).getD 16 = k := by rw [hk]; rfl
  exact withInsn_mmaRun_of_all _ h (by simp [hop]) hall

end Mma

/-! ## S32 accumulation (R117) -/

theorem accS32_lt (sat : Bool) (c : Nat) (ps : List Int) : accS32 sat c ps < 2 ^ 32 := wrapInt_lt ..

theorem ofNat_accS32_wrapped (c : BitVec 32) (ps : List Int) :
    BitVec.ofNat 32 (accS32 false c.toNat ps) = BitVec.ofInt 32 (c.toInt + ps.sum) := by
  rw [accS32, ofNat_wrapInt, signed_toNat c (by decide), if_neg (by decide)]

theorem toInt_accS32_clamped (c : BitVec 32) (ps : List Int) :
    (BitVec.ofNat 32 (accS32 true c.toNat ps)).toInt = max (-2 ^ 31) (min (2 ^ 31 - 1) (c.toInt + ps.sum)) := by
  rw [accS32, ofNat_wrapInt, signed_toNat c (by decide), if_pos rfl, BitVec.toInt_ofInt_eq_self (by decide)] <;> norm_num

theorem fmtIntVal_ofInt {f w : Nat} {i : Int} (h : fmtDecode f w = .ofInt i) : fmtIntVal f w = i := by
  simp only [fmtIntVal, h, FVal.ofInt]
  split_ifs with hneg <;> simp only [decide_eq_true_eq] at hneg <;> omega

/-- A byte of either sign. -/
theorem abs_fmtIntVal_byte {f : Nat} (h : f = 6 ∨ f = 7) (w : Nat) : |fmtIntVal f w| ≤ 255 := by
  rcases h with rfl | rfl
  · rw [fmtIntVal_ofInt rfl, signed, abs_le]
    split <;> omega
  · rw [fmtIntVal_ofInt rfl, abs_le]
    omega

theorem abs_fmtIntVal_nibble (w : Nat) : |fmtIntVal 8 w| ≤ 8 := by
  rw [fmtIntVal_ofInt rfl, signed, abs_le]
  split <;> omega

/-- The shapes of S32 accumulation: K32 of bytes and K64 of nibbles (R107). -/
theorem mmaShape_s32 {fa fb k : Nat} (h : mmaShape fa fb 3 = some k) :
    ((fa = 6 ∨ fa = 7) ∧ (fb = 6 ∨ fb = 7) ∧ k = 32) ∨ (fa = 8 ∧ fb = 8 ∧ k = 64) := by
  unfold mmaShape at h
  split_ifs at h <;> simp_all

theorem abs_sum_products_le {k b : Nat} {u v : Nat → Int} (hu : ∀ j, |u j| ≤ b) (hv : ∀ j, |v j| ≤ b) :
    |((List.range k).map (fun j => u j * v j)).sum| ≤ k * (b * b) := by
  have hprod : ∀ y ∈ (List.range k).map (fun j => u j * v j), |y| ≤ b * b := by
    intro y hy
    obtain ⟨j, -, rfl⟩ := List.mem_map.1 hy
    rw [abs_mul]
    exact mul_le_mul (hu j) (hv j) (abs_nonneg _) (by positivity)
  have hlo := List.card_nsmul_le_sum _ (-((b : Int) * b)) fun y hy => (abs_le.1 (hprod y hy)).1
  have hhi := List.sum_le_card_nsmul _ ((b : Int) * b) fun y hy => (abs_le.1 (hprod y hy)).2
  simp only [List.length_map, List.length_range, nsmul_eq_mul] at hlo hhi
  exact abs_le.2 ⟨by linarith, hhi⟩

theorem abs_sum_intProducts_le {a : At} {k : Nat} (h : mmaShape (aFmt a.i) (bFmt a.i) 3 = some k) (m n : Nat) :
    |(a.intProducts k m n).sum| ≤ 2 ^ 23 := by
  rcases mmaShape_s32 h with ⟨ha, hb, rfl⟩ | ⟨ha, hb, rfl⟩
  · exact (abs_sum_products_le (b := 255) (fun _ => abs_fmtIntVal_byte ha _) fun _ => abs_fmtIntVal_byte hb _).trans (by norm_num)
  · rw [At.intProducts, ha, hb]
    exact (abs_sum_products_le (b := 8) (fun _ => abs_fmtIntVal_nibble _) fun _ => abs_fmtIntVal_nibble _).trans (by norm_num)

/-- Settles O36: the accumulation is a wrap of an exact sum, and D holds one of C's element and the products for each element. -/
theorem s32Accumulation : Obligations.S32Accumulation := by
  refine ⟨fun c ps => ⟨ofNat_accS32_wrapped c ps, accS32_lt .., accS32_lt .., toInt_accS32_clamped c ps⟩, ?_⟩
  intro s s' x a k h hop htype hall hk
  refine ⟨_, mma_of_issues h hop hall (congrArg BitVec.toNat htype) hk,
    fun m n hm hn => ⟨abs_le.1 (abs_sum_intProducts_le hk m n), ?_⟩⟩
  rw [reg_storeD _ _ (dst_add_eight_of_issues h (.inl hop)) hm hn, At.mmaElem, if_pos htype]
  exact Nat.mod_eq_of_lt (accS32_lt ..)

end Sys2Proof.Machine
end

section
/-! PROOFS. What each kind of MMA, OCVT and UNPK write (O37). -/

namespace Sys2Proof.Machine

/-! ## Packed runs (R114) -/

/-- The codes of a packed run are the digits of its number. -/
theorem foldr_codes_eq_ofDigits (w : Nat) (es : List Nat) :
    es.foldr (fun e acc => e % 2 ^ w + acc * 2 ^ w) 0 = Nat.ofDigits (2 ^ w) (es.map (· % 2 ^ w)) := by
  rw [Nat.ofDigits_eq_foldr, List.foldr_map]
  simp only [Nat.cast_id, Nat.mul_comm]

/-- The number of a packed run. -/
def packedNat (w : Nat) (es : List Nat) : Nat := Nat.ofDigits (2 ^ w) (es.map (· % 2 ^ w))

theorem packedNat_lt {w : Nat} (hw : 0 < w) (es : List Nat) : packedNat w es < 2 ^ (w * es.length) := by
  have hlt := Nat.ofDigits_lt_base_pow_length (b := 2 ^ w) (l := es.map (· % 2 ^ w)) (Nat.one_lt_two_pow hw.ne')
    (by simp [Nat.mod_lt])
  rwa [List.length_map, ← pow_mul] at hlt

theorem packedNat_div_mod {w e : Nat} {es : List Nat} (he : e < es.length) :
    packedNat w es / 2 ^ (w * e) % 2 ^ w = es[e] % 2 ^ w := by
  rw [packedNat, pow_mul, Nat.ofDigits_div_pow_eq_ofDigits_drop _ (Nat.two_pow_pos w) _ (by simp [Nat.mod_lt]),
    List.drop_eq_getElem_cons (by simpa using he), Nat.ofDigits_cons]
  simp

theorem packRun_eq (g : Group) (lane dst w : Nat) (es : List Nat) : packRun g lane dst w es = g.setRegs
    ((List.range (max 1 (ceilDiv (es.length * w) 32))).map (fun j => (lane, dst + j, packedNat w es / 2 ^ (32 * j)))) := by
  rw [packRun, foldr_codes_eq_ofDigits, Group.setRegs, List.foldl_map]
  rfl

theorem fmtBits_cases (f : Nat) : fmtBits f = 32 ∨ fmtBits f = 16 ∨ fmtBits f = 8 ∨ fmtBits f = 4 ∨ fmtBits f = 2 := by
  unfold fmtBits
  split <;> simp

theorem fmtBits_pos (f : Nat) : 0 < fmtBits f := by
  unfold fmtBits
  split <;> decide

theorem packedRun_eight (f : Nat) : packedRun 8 f = max 1 (8 * fmtBits f / 32) := by
  unfold packedRun ceilDiv
  rcases fmtBits_cases f with h | h | h | h | h <;> simp [h]

theorem packedRun_eight_dvd (f : Nat) : packedRun 8 f ∣ 256 := by
  rw [packedRun_eight]
  rcases fmtBits_cases f with h | h | h | h | h <;> rw [h] <;> decide

/-- A field that crosses no word of a number is that field of its word. -/
theorem word_field {b w : Nat} (v : Nat) (h : b % 32 + w ≤ 32) :
    v / 2 ^ (32 * (b / 32)) % 2 ^ 32 / 2 ^ (b % 32) % 2 ^ w = v / 2 ^ b % 2 ^ w := by
  have hword : 2 ^ 32 = 2 ^ (b % 32) * 2 ^ (32 - b % 32) := by rw [← pow_add]; congr 1; omega
  rw [hword, Nat.mod_mul_right_div_self, Nat.mod_mod_of_dvd _ (Nat.pow_dvd_pow 2 (by omega)), Nat.div_div_eq_div_mul, ← pow_add,
    Nat.div_add_mod]

/-- An element of a packed run of eight lies in one register of the run. -/
theorem element_in_run {f e : Nat} (he : e < 8) :
    fmtBits f * e % 32 + fmtBits f ≤ 32 ∧ fmtBits f * e / 32 < packedRun 8 f := by
  rw [packedRun_eight]
  rcases fmtBits_cases f with h | h | h | h | h <;> rw [h] <;> omega

/-! ## OCVT (R126 to R128) -/

/-- The codes of the eight converted elements of a lane. -/
def ocvtCodes (a : At) (l : Nat) : List Nat := (List.range 8).map (fun e => (ocvtElem a l e).1)

/-- Register `j` of the packed codes of a lane. -/
def ocvtWord (a : At) (l j : Nat) : Nat := packedNat (fmtBits (bFmt a.i)) (ocvtCodes a l) / 2 ^ (32 * j)

/-- The group after OCVT. -/
def ocvtGroup (a : At) : Group := a.g.setRegs (laneWrites a (packedRun 8 (bFmt a.i)) (ocvtWord a))

/-- Every element that OCVT converts. -/
def ocvtAll (a : At) : List (Nat × Bool × Bool) := (a.g.run a.i).flatMap (fun l => (List.range 8).map (fun e => ocvtElem a l e))

section Ocvt
variable {a : At} {l : Nat} (hdst : a.i.dst.toNat + packedRun 8 (bFmt a.i) ≤ 256) (hl : l ∈ a.g.run a.i)
include hdst hl

theorem elem_ocvt {e : Nat} (he : e < 8) :
    (ocvtGroup a).elem l a.i.dst.toNat (fmtBits (bFmt a.i)) e = (ocvtElem a l e).1 % 2 ^ fmtBits (bFmt a.i) := by
  obtain ⟨hword, hrun⟩ := element_in_run (f := bFmt a.i) he
  rw [Group.elem, ocvtGroup, reg_laneWrites _ hdst hl hrun, ocvtWord, word_field _ hword, packedNat_div_mod (by simpa [ocvtCodes] using he)]
  simp [ocvtCodes]

theorem reg_ocvt_lt : (ocvtGroup a).reg l a.i.dst.toNat < 2 ^ (8 * fmtBits (bFmt a.i)) := by
  have hlt := packedNat_lt (fmtBits_pos (bFmt a.i)) (ocvtCodes a l)
  have hreg := reg_laneWrites (ocvtWord a) hdst hl (lt_max_of_lt_left one_pos)
  rw [ocvtCodes, List.length_map, List.length_range, Nat.mul_comm] at hlt
  rw [Nat.add_zero, ocvtWord, Nat.mul_zero, pow_zero, Nat.div_one] at hreg
  exact hreg ▸ (Nat.mod_le ..).trans_lt hlt

end Ocvt

/-! ## UNPK (R129) -/

/-- The F32 word of an element that UNPK reads. -/
def unpkWord (a : At) (l e : Nat) : Nat :=
  let w := a.g.elem l a.i.srca.toNat (fmtBits (aFmt a.i)) e
  if aFmt a.i = 0 then w else fenc .rne 8 23 (fmtDecode (aFmt a.i) w)

/-! ## MMA_X (R119 to R123) -/

/-- K of MMA_X. -/
def At.xShape (a : At) : Nat := if xTgt a.i = 1 then 16 else 32

/-- Element `j` of channel `h` of the narrow operand, expanded. -/
def At.xNarrowElem (a : At) (h j : Nat) : Nat × Bool × Bool :=
  xExpand a h (a.operandElem (if xOp a.i then a.i.srca.toNat else a.i.srcb.toNat) (fmtBits (xNarrow a.i)) (fmtBits (xTgt a.i)) h j)

/-- The value of element `j` of row or column `h` of the other operand. -/
def At.xWideElem (a : At) (h j : Nat) : FVal :=
  fmtDecode (xWide a.i) (a.operandElem (if xOp a.i then a.i.srcb.toNat else a.i.srca.toNat) (fmtBits (xWide a.i)) (fmtBits (xWide a.i)) h j)

/-- Every element that MMA_X expands. -/
def At.xAll (a : At) : List (Nat × Bool × Bool) :=
  (List.range 16).flatMap (fun h => (List.range a.xShape).map (fun j => a.xNarrowElem h j))

/-! ## The instructions at issue -/

section Issued
variable {s s' : State} {x : Issue} {a : At}

theorem mmaX_of_issues (h : Issues s x 6 mmaForm a s') (hop : x.i.op = 1) (hall : AllRun a) :
    exec (.mmaX x) s = .next (((s'.anvCount a (a.xAll.filter (fun y => y.2.1)).length (a.xAll.filter (fun y => y.2.2)).length).putAt a
      (storeD a.g a.i.dst.toNat (mmaF32 a.xShape 16
        (fun m j => if xOp a.i then fmtDecode (xTgt a.i) (a.xNarrowElem m j).1 else a.xWideElem m j)
        (fun j n => if xOp a.i then a.xWideElem n j else fmtDecode (xTgt a.i) (a.xNarrowElem n j).1) (mmaC a)))).macs a.core
      (256 * a.xShape)) :=
  withInsn_mmaRun_of_all _ h (by simp [hop]) hall

theorem mmaP_of_issues (h : Issues s x 6 mmaForm a s') (hop : x.i.op = 2) (hall : AllRun a) :
    exec (.mmaP x) s = .next ((s'.putAt a (storeD a.g a.i.dst.toNat (mmaF32 16 16
      (fun m j => e8m13 (aFmt a.i) (a.operandElem a.i.srca.toNat (fmtBits (aFmt a.i)) 16 m j))
      (fun j n => e8m13 (bFmt a.i) (a.operandElem a.i.srcb.toNat (fmtBits (bFmt a.i)) 16 n j)) (mmaC a)))).macs a.core 4096) :=
  withInsn_mmaRun_of_all _ h (by simp [hop]) hall

theorem ocvt_of_issues (h : Issues s x 6 mmaForm a s') (hop : x.i.op = 3) :
    exec (.ocvt x) s = .next ((s'.putAt a (ocvtGroup a)).anvCount a ((ocvtAll a).filter (fun y => y.2.1)).length
      ((ocvtAll a).filter (fun y => y.2.2)).length) := by
  change execOcvt x s = _
  rw [execOcvt, withInsn_issues _ _ h (by simp [hop])]
  simp only [packRun_eq, List.flatMap_map, List.foldl_map, List.map_map, Group.setRegs, ocvtGroup, laneWrites, List.foldl_flatMap]
  rfl

theorem unpk_of_issues (h : Issues s x 6 mmaForm a s') (hop : x.i.op = 4) :
    exec (.unpk x) s = .next (s'.putAt a (a.g.setRegs (laneWrites a 8 (unpkWord a)))) := by
  change execUnpk x s = _
  rw [execUnpk, withInsn_issues _ _ h (by simp [hop])]
  simp only [Group.setRegs, laneWrites, List.foldl_flatMap, List.foldl_map]
  rfl

theorem dst_add_packedRun_of_issues (h : Issues s x 6 mmaForm a s') (hop : x.i.op = 3) :
    a.i.dst.toNat + packedRun 8 (bFmt a.i) ≤ 256 := by
  refine dst_add_of_issues h (packedRun_eight_dvd _) ?_
  rw [← insn_of_issues h] at hop
  simp [mmaForm, hop]

end Issued

/-! ## The statement -/

/-- Settles O37, instruction by instruction. -/
theorem matrixUnit : Obligations.MatrixUnit := by
  intro s s' x a h
  have hdst := dst_add_eight_of_issues h
  refine ⟨fun k hall hop htype hk => ?mma, fun hall hop => ?mmaX, fun hall hop => ?mmaP,
    fun hall => ?stopped, fun hop => ?ocvt, fun hop => ?unpk⟩
  case mma =>
    refine ⟨_, mma_of_issues h hop hall (congrArg BitVec.toNat htype) hk, keepsBeyond_storeD _ hall (hdst (by simp [hop])),
      fun m n hm hn => (reg_storeD _ _ (hdst (by simp [hop])) hm hn).trans ?_⟩
    rw [At.mmaElem, if_neg (by rw [htype]; decide)]
    rfl
  case mmaX =>
    exact ⟨_, mmaX_of_issues h hop hall, keepsBeyond_storeD _ hall (hdst (by simp [hop])),
      fun m n hm hn => reg_storeD _ _ (hdst (by simp [hop])) hm hn⟩
  case mmaP =>
    exact ⟨_, mmaP_of_issues h hop hall, keepsBeyond_storeD _ hall (hdst (by simp [hop])),
      fun m n hm hn => reg_storeD _ _ (hdst (by simp [hop])) hm hn⟩
  case stopped =>
    refine ⟨fun hop => ?_, fun hop => ?_, fun hop => ?_⟩ <;> exact withInsn_mmaRun_of_not_all _ h (by simp [hop]) hall
  case ocvt =>
    have hrun := dst_add_packedRun_of_issues h hop
    exact ⟨_, ocvt_of_issues h hop, packedRun_eight (bFmt a.i) ▸ keepsBeyond_laneWrites _ hrun,
      fun l e hl => elem_ocvt hrun hl, fun l => reg_ocvt_lt hrun⟩
  case unpk =>
    exact ⟨_, unpk_of_issues h hop, keepsBeyond_laneWrites _ (hdst (by simp [hop])),
      fun l e => reg_laneWrites _ (hdst (by simp [hop]))⟩

end Sys2Proof.Machine
end

section
/-! PROOFS. Operand registers of the copy engine (O39): a write stores their field and nothing else (R174). -/

namespace Sys2Proof.Machine

/-- A write of a register whose only field is plain stores the field. -/
theorem plainWrite_of_rw {s : State} {p : Path} {a hi lo : Nat} {row : RegRow} (v : Word) (hrow : regRow a = some row)
    (hf : row.fields = [⟨hi, lo, .rw⟩]) : s.plainWrite p a v = s.setFld a hi lo (bits v.toNat hi lo) := by
  simp [State.plainWrite, hrow, hf, State.writeFields, State.writeField, State.setFld]

/-- The operand registers of a direct operation (R173). -/
abbrev copyOperands : List Nat :=
  [Reg.CPY_SRC_LO, Reg.CPY_SRC_HI, Reg.CPY_DST_LO, Reg.CPY_DST_HI, Reg.CPY_SPITCH, Reg.CPY_DPITCH, Reg.CPY_WIDTH, Reg.CPY_HEIGHT,
    Reg.CPY_PAT_LO, Reg.CPY_PAT_HI]

/-- The top bit of an operand register's field. -/
abbrev copyOperandTop (a : Nat) : Nat := if a = Reg.CPY_SRC_HI ∨ a = Reg.CPY_DST_HI then 7 else 31

/-- An operand register is a word of the CPY block, neither CPY_CTRL nor CPY_STATUS, with one plain field from bit 0. -/
theorem copyOperand_row : ∀ a ∈ copyOperands, a % 4 = 0 ∧ a / 0x10000 = 0x0B ∧ a ≠ Reg.CPY_CTRL ∧ a ≠ Reg.CPY_STATUS
    ∧ regRow a = some ⟨a, [], 0, [⟨copyOperandTop a, 0, .rw⟩]⟩ := by decide

theorem copyOperandTop_le (a : Nat) : copyOperandTop a ≤ 31 := by unfold copyOperandTop; split <;> omega

/-- In the CPY block a write of any register but CPY_CTRL is a plain one. -/
theorem regWrite_of_cpy {s : State} {p : Path} {a : Nat} (v : Word) (k : SinkInfo) (hal : a % 4 = 0) (hre : s.reaches p a = true)
    (hb : a / 0x10000 = 0x0B) (hctrl : a ≠ Reg.CPY_CTRL) : s.regWrite p a v k = s.plainWrite p a v := by
  have hwindow : ¬0x400000 ≤ a := by omega
  have hdoorbell : ¬(0x020000 ≤ a ∧ a < 0x060000) := by omega
  unfold State.regWrite
  rw [if_neg (by simp [hal, hre]), if_neg hwindow, if_neg hdoorbell]
  simp only [hb, if_neg hctrl]

theorem registerWrite_of_copyOperand {s : State} {p : Path} {a : BitVec 25} (v : Word) (hre : s.reaches p a.toNat = true)
    (ha : a.toNat ∈ copyOperands) : exec (.registerWrite p a v) s
      = .next (s.setFld a.toNat (copyOperandTop a.toNat) 0 (bits v.toNat (copyOperandTop a.toNat) 0)) := by
  obtain ⟨hal, hb, hctrl, -, hrow⟩ := copyOperand_row _ ha
  change Host.Outcome.next (s.regWrite p a.toNat v noSink) = _
  rw [regWrite_of_cpy v noSink hal hre hb hctrl, plainWrite_of_rw v hrow rfl]

/-- Settles O39: the write is the store of one field, of a register that is not CPY_STATUS. -/
theorem copyOperandWrites : Obligations.CopyOperandWrites := by
  intro p a v s hre ha
  obtain ⟨-, -, -, hstatus, -⟩ := copyOperand_row _ ha
  refine ⟨_, registerWrite_of_copyOperand v hre ha, ?_, State.setFld_sched .., fun b hb => s.reg_setFld_ne _ _ _ hb,
    State.flag_of_reg (s.reg_setFld_ne _ _ _ hstatus.symm) 0⟩
  rw [State.fld_setFld_self _ _ _ (Nat.zero_le _) (copyOperandTop_le _)]
  simp [bits]

end Sys2Proof.Machine
end

section
/-! PROOFS. Device memory through BAR2 (O40): after a start that ended in recovery or failed every BAR2 access is refused as one that
leaves usable memory is (R516), also one that touches protected memory. -/

namespace Sys2Proof.Machine

/-- With STATE recovery or failed the check of a BAR2 access does not come to the protected ranges. -/
theorem bar2Check_of_start_failed {s : State} (h : 2 ≤ s.fld Reg.GLB_BOOT 1 0) (a n : Nat) : s.bar2Check a n = some false := by
  simp [State.bar2Check, h]

theorem bar2Write_of_start_failed {s : State} (hunc : s.uncOn = true) (h : 2 ≤ s.fld Reg.GLB_BOOT 1 0) (off : BitVec 36)
    (bs : List (Option Byte)) : exec (.bar2Write off bs) s
      = .next ((s.setFlag Reg.HIF_STATUS 11).rec0 0x0C06 0x40 1 (off.toNat % 2 ^ 32) (off.toNat / 2 ^ 32)) := by
  change execBar2Write off bs s = _
  simp [execBar2Write, hunc, bar2Check_of_start_failed h, State.bar2Refuse]

/-- The block after a start that ended in recovery, with one protected range at address 0 of one region of DRAM. -/
def recoveredProtected : State :=
  { State.reset with
    regs := [(Reg.GLB_BOOT, 2), (Reg.ERR_PROT_BASE 0, 0x80000000)], uncOn := true,
    dram := { State.reset.dram with map := [⟨1, false⟩] } }

/-- Refutes O40: after a start that ended in recovery a BAR2 write to protected memory inside usable memory is answered by record
0x0C06, which R516 gives every access then, and not by 0x1003. -/
theorem not_deviceMemory : ¬ Obligations.DeviceMemory := by
  intro h
  obtain ⟨-, -, -, hbar2⟩ := h recoveredProtected 0 0 [some 0] false 0
  obtain ⟨-, -, -, -, hprot⟩ := hbar2 0 rfl
  have hwrite := hprot (by decide) (by decide) (by decide)
  rw [bar2Write_of_start_failed rfl (by decide)] at hwrite
  have hfirst := congrArg (fun t => t.reg (Reg.ERR_FIRST 0)) (Host.Outcome.next.inj hwrite)
  exact absurd hfirst (by decide)

end Sys2Proof.Machine
end

section
/-! PROOFS. The copy engine (O43): the register path, the completion of copies, and the suspension of a normal copy. -/

namespace Sys2Proof.Machine

/-! ## The register path (R167, R173) -/

/-- A write of CPY_CTRL with GO stores OP and PATSZ, posts the check's code, and with code 0 makes the direct operation run. -/
theorem cpyCmd_of_go {s : State} {v : Word} (hgo : bit v.toNat 0 = true) :
    s.cpyCmd v =
      let op := bits v.toNat 2 1
      let s1 := s.setReg Reg.CPY_CTRL (BitVec.ofNat 32 (op * 2 + bits v.toNat 5 4 * 16))
      let c := s1.directCopy v.toNat
      let prot := s1.touchesProt c.dst (c.extent c.dpitch) || (!c.fill && s1.touchesProt c.src (c.extent c.spitch))
      let code := c.check op (if prot then 0 else s1.usable) (s1.flag Reg.CPY_STATUS 0)
      let s2 := s1.setFld Reg.CPY_STATUS 15 8 code
      if code ≠ 0 then s2
      else ({ s2 with sched := { s2.sched with copies := Sparse.put s2.sched.copies 4 ⟨64, 0, 32, c, false⟩ } }).setFlag Reg.CPY_STATUS 0 := by
  simp only [State.cpyCmd, hgo, Bool.not_true, Bool.false_eq_true, if_false]

theorem cpyCopy_of_go {s : State} {v : Word} (hunc : s.uncRuns = true) (hgo : bit v.toNat 0 = true) (hop : bits v.toNat 2 1 ≠ 1) :
    exec (.cpyCopy v) s = .next (s.cpyCmd v) := by
  change execCpyCopy v s = _
  simp [execCpyCopy, hunc, hgo, hop]

theorem cpyFill_of_go {s : State} {v : Word} (hunc : s.uncRuns = true) (hgo : bit v.toNat 0 = true) (hop : bits v.toNat 2 1 = 1) :
    exec (.cpyFill v) s = .next (s.cpyCmd v) := by
  change execCpyFill v s = _
  simp [execCpyFill, hunc, hgo, hop]

theorem ite_ne_zero {p : Prop} [Decidable p] {a b : Nat} (ha : a ≠ 0) (hb : b ≠ 0) : (if p then a else b) ≠ 0 := by
  split <;> assumption

/-- While a direct operation runs no operands pass the check: each case that comes before the busy one has a code. -/
theorem copyCheck_busy (c : CopyOp) (op limit : Nat) : c.check op limit true ≠ 0 := by
  simp only [CopyOp.check, if_true]
  iterate 6 refine ite_ne_zero (by decide) ?_
  decide

/-! ## The arbitration of channels (R378) -/

/-- The arbitration changes only which copies hold a channel and which wait for one. -/
theorem copyArb_same (s : State) (n : Nat) :
    ∃ copies wait, s.copyArb n = { s with sched := { s.sched with copies := copies, copyWait := wait } } := by
  induction n generalizing s with
  | zero => exact ⟨_, _, rfl⟩
  | succ n ih =>
    unfold State.copyArb
    split
    · exact ih _
    · exact ⟨_, _, rfl⟩

theorem copyArb_uncRuns (s : State) (n : Nat) : (s.copyArb n).uncRuns = s.uncRuns := by
  obtain ⟨copies, wait, h⟩ := copyArb_same s n
  rw [h]; rfl

theorem copyArb_quench (s : State) (n : Nat) : (s.copyArb n).sched.quench = s.sched.quench := by
  obtain ⟨copies, wait, h⟩ := copyArb_same s n
  rw [h]

/-! ## Completions (R166, R169, R324) -/

/-- A state whose copy on a channel has left it. -/
def State.copyLeaves (s : State) (ch : Nat) : State := { s with sched := { s.sched with copies := Sparse.drop s.sched.copies ch } }

theorem copyComplete_of_none {s : State} {ch : Fin 5} (h : Sparse.find (s.copyArb 4).sched.copies ch.val = none) :
    exec (.copyComplete ch) s = .next (s.copyArb 4) := by
  change execCopyComplete ch s = _
  simp [execCopyComplete, h]

/-- The end of a direct operation. -/
def State.directEnds (s : State) : CopyEnd → State
  | .ok => (s.clearFlag Reg.CPY_STATUS 0).setFlag Reg.CPY_STATUS 1
  | .fail .. => (s.clearFlag Reg.CPY_STATUS 0).setFlag Reg.CPY_STATUS 2
  | .poison pa => (((s.clearFlag Reg.CPY_STATUS 0).setFlag Reg.CPY_STATUS 2).countSat Reg.L2C_ECC_COUNT 31 16 1).rec0 0x0302 0x20 2
    (pa % 2 ^ 32) (pa / 2 ^ 32)

/-- The end of a queue's copy on a channel. -/
def State.channelEnds (s : State) (ch : Nat) (r : CopyRun) : CopyEnd → State
  | .ok => s.ladleDue ⟨r.q, r.seq, 0, 0x23, ch⟩
  | .fail k f => s.accessFault r.ctx 0x23 k f (some (r.q, r.seq))
  | .poison pa => s.poisonFault r.ctx pa (some (r.q, r.seq))

section Completes

variable {s s1 : State} {r : CopyRun} {e : CopyEnd} (hunc : s.uncRuns = true) (hq : s.sched.quench = none)
include hunc hq

theorem copyComplete_direct {ch : Fin 5} (hch : ch.val = 4) (hr : Sparse.find (s.copyArb 4).sched.copies ch.val = some r)
    (hrun : ((s.copyArb 4).copyLeaves ch.val).cpyRun none r.op = (e, s1)) : exec (.copyComplete ch) s = .next (s1.directEnds e) := by
  have hgo : (!(s.copyArb 4).uncRuns || (s.copyArb 4).sched.quench.isSome) = false := by simp [copyArb_uncRuns, copyArb_quench, hunc, hq]
  change execCopyComplete ch s = _
  unfold State.copyLeaves at hrun
  unfold execCopyComplete
  simp only [hr, hgo, Bool.false_eq_true, if_false, hrun, if_pos hch]
  cases e <;> rfl

theorem copyComplete_channel {ch : Fin 5} (hch : ch.val < 4) (hr : Sparse.find (s.copyArb 4).sched.copies ch.val = some r)
    (hrun : ((s.copyArb 4).copyLeaves ch.val).cpyRun (some (r.q, r.seq, r.ctx)) r.op = (e, s1)) :
    exec (.copyComplete ch) s = .next ((s1.channelEnds ch.val r e).copyArb 4) := by
  have hgo : (!(s.copyArb 4).uncRuns || (s.copyArb 4).sched.quench.isSome) = false := by simp [copyArb_uncRuns, copyArb_quench, hunc, hq]
  change execCopyComplete ch s = _
  unfold State.copyLeaves at hrun
  unfold execCopyComplete
  simp only [hr, hgo, Bool.false_eq_true, if_false, hrun, if_neg (Nat.ne_of_lt hch)]
  cases e <;> rfl

end Completes

/-! ## Suspension (R378) -/

/-- The later of two copies where its queue's copy virtual time is greater, else the earlier. -/
def State.laterCopy (s : State) (b : Option (Nat × CopyRun)) (p : Nat × CopyRun) : Option (Nat × CopyRun) :=
  match b with
  | some x => if s.copyV x.2.q < s.copyV p.2.q then some p else b
  | none => some p

/-- A copy that every later one does not exceed stays the greatest. -/
theorem foldl_laterCopy_of_le {s : State} {x : Nat × CopyRun} {l : List (Nat × CopyRun)}
    (h : ∀ p ∈ l, s.copyV p.2.q ≤ s.copyV x.2.q) : l.foldl s.laterCopy (some x) = some x := by
  induction l with
  | nil => rfl
  | cons p l ih =>
    rw [List.forall_mem_cons] at h
    rw [List.foldl_cons, State.laterCopy, if_neg (by omega)]
    exact ih h.2

/-- Copies that `x` exceeds leave none of them, or one that `x` exceeds. -/
theorem foldl_laterCopy_lt {s : State} {x : Nat × CopyRun} {l : List (Nat × CopyRun)} (h : ∀ p ∈ l, s.copyV p.2.q < s.copyV x.2.q)
    {b : Option (Nat × CopyRun)} (hb : ∀ y ∈ b, s.copyV y.2.q < s.copyV x.2.q) :
    s.laterCopy (l.foldl s.laterCopy b) x = some x := by
  induction l generalizing b with
  | nil =>
    cases b with
    | none => rfl
    | some y => exact if_pos (hb y rfl)
  | cons p l ih =>
    rw [List.forall_mem_cons] at h
    refine ih h.2 (fun y hy => ?_)
    cases b with
    | none => cases hy; exact h.1
    | some z =>
      rw [State.laterCopy] at hy
      split at hy
      · cases hy; exact h.1
      · exact hb y hy

/-- Of a list of copies the first with the greatest copy virtual time is chosen. -/
theorem foldl_laterCopy_append {s : State} {x : Nat × CopyRun} {l1 l2 : List (Nat × CopyRun)}
    (h1 : ∀ p ∈ l1, s.copyV p.2.q < s.copyV x.2.q) (h2 : ∀ p ∈ l2, s.copyV p.2.q ≤ s.copyV x.2.q) :
    (l1 ++ x :: l2).foldl s.laterCopy none = some x := by
  rw [List.foldl_append, List.foldl_cons, foldl_laterCopy_lt h1 (by simp)]
  exact foldl_laterCopy_of_le h2

/-- The copies on the channels, the direct operation apart. -/
def State.channelCopies (s : State) : List (Nat × CopyRun) := s.sched.copies.filter (fun p => p.1 ≠ 4)

theorem mem_channelCopies {s : State} {p : Nat × CopyRun} : p ∈ s.channelCopies ↔ p ∈ s.sched.copies ∧ p.1 ≠ 4 := by
  simp [State.channelCopies]

/-- Whether a real-time copy of a queue waits and every channel is held by a normal copy. -/
def State.suspends (s : State) (q : Nat) : Bool :=
  s.isRt q && s.copyReady.any (fun r => r.q == q) && decide (s.channelCopies.length = 4) && !s.channelCopies.any (fun p => s.isRt p.2.q)

/-- The test that a suspension makes, as the command writes it. -/
theorem suspends_eq_false_iff (s : State) (q : Nat) : s.suspends q = false ↔
    (!s.isRt q || !(s.copyReady.any (fun r => r.q == q)) || s.channelCopies.length ≠ 4 || s.channelCopies.any (fun p => s.isRt p.2.q)) = true := by
  rw [← Bool.not_eq_true', State.suspends]
  simp only [Bool.not_and, Bool.not_not, ne_eq, decide_not]

theorem suspends_iff (s : State) (q : Nat) : s.suspends q = true ↔
    s.isRt q = true ∧ (∃ r ∈ s.copyReady, r.q = q) ∧ s.channelCopies.length = 4
      ∧ ∀ p ∈ s.sched.copies, p.1 ≠ 4 → s.isRt p.2.q = false := by
  simp [State.suspends, mem_channelCopies, and_assoc]

theorem copySuspend_of_not_suspends {s : State} {q : Fin 64} (h : (s.copyArb 4).suspends q.val = false) :
    exec (.copySuspend q) s = .next (s.copyArb 4) := if_pos ((suspends_eq_false_iff _ _).1 h)

theorem copySuspend_of_suspends {s : State} {q : Fin 64} {c0 : Nat} {r0 : CopyRun} (h : (s.copyArb 4).suspends q.val = true)
    (hmax : (s.copyArb 4).channelCopies.foldl (s.copyArb 4).laterCopy none = some (c0, r0)) :
    exec (.copySuspend q) s =
      let s0 := s.copyArb 4
      .next (({ s0 with sched := { s0.sched with
          copies := Sparse.drop s0.sched.copies c0, copyWait := (r0.q, { r0 with suspended := true }) :: s0.sched.copyWait } }).copyArb 4) := by
  refine (if_neg (fun hc => ?_)).trans ?_
  · rw [(suspends_eq_false_iff _ _).2 hc] at h
    cases h
  · change (match (s.copyArb 4).channelCopies.foldl (s.copyArb 4).laterCopy none with
      | none => _
      | some (c, r) => _) = _
    rw [hmax]

/-- Keys before an entry of a sorted list are below its key. -/
theorem Sparse.lt_of_sorted_append {α : Type} {x : Nat × α} {l1 l2 : List (Nat × α)} (h : Sparse.sorted (l1 ++ x :: l2) = true) :
    ∀ p ∈ l1, p.1 < x.1 := by
  induction l1 with
  | nil => simp
  | cons y l1 ih =>
    intro p hp
    rcases List.mem_cons.1 hp with rfl | hp
    · exact Sparse.sorted_lt h x (by simp)
    · exact ih (Sparse.sorted_tail h) p hp

/-- The copy that is suspended: the greatest copy virtual time, of equal ones the lowest channel. -/
theorem foldl_laterCopy_channelCopies {s : State} {c0 : Nat} {r0 : CopyRun} (hmem : (c0, r0) ∈ s.sched.copies) (hc : c0 ≠ 4)
    (hsort : Sparse.sorted s.sched.copies = true)
    (hmax : ∀ p ∈ s.sched.copies, p.1 ≠ 4 → (p.1 < c0 → s.copyV p.2.q < s.copyV r0.q) ∧ s.copyV p.2.q ≤ s.copyV r0.q) :
    s.channelCopies.foldl s.laterCopy none = some (c0, r0) := by
  have hall : ∀ p ∈ s.channelCopies, (p.1 < c0 → s.copyV p.2.q < s.copyV r0.q) ∧ s.copyV p.2.q ≤ s.copyV r0.q :=
    fun p hp => hmax p (mem_channelCopies.1 hp).1 (mem_channelCopies.1 hp).2
  have hkeys : Sparse.sorted s.channelCopies = true := Sparse.sorted_filter _ hsort
  obtain ⟨l1, l2, hl⟩ := List.append_of_mem (mem_channelCopies.2 ⟨hmem, hc⟩)
  rw [hl] at hall hkeys ⊢
  exact foldl_laterCopy_append (fun p hp => (hall p (by simp [hp])).1 (Sparse.lt_of_sorted_append hkeys p hp))
    (fun p hp => (hall p (by simp [hp])).2)

/-! ## The statement -/

/-- Settles O43, by the parts above: the register path, completions, suspensions. -/
theorem copyEngine : Obligations.CopyEngine := by
  intro s hunc
  refine ⟨fun v hgo => ?register, fun r s1 k f pa hq => ?direct, fun ch r s1 k f pa hq hch => ?channel,
    fun ch => copyComplete_of_none, fun q c0 r0 => ?suspend, fun q => ?stays⟩
  case register =>
    refine ⟨fun hop => (cpyCopy_of_go hunc hgo hop).trans (congrArg _ (cpyCmd_of_go hgo)),
      fun hop => (cpyFill_of_go hunc hgo hop).trans (congrArg _ (cpyCmd_of_go hgo)), fun hbusy => ?_⟩
    rw [State.flag_of_reg (s.reg_setReg_ne _ (by decide)), hbusy]
    exact copyCheck_busy _ _ _
  case direct =>
    intro s0 s' hr
    have hends : ∀ e, (s0.copyLeaves 4).cpyRun none r.op = (e, s1) → exec (.copyComplete 4) s = .next (s1.directEnds e) :=
      fun e => copyComplete_direct (ch := 4) hunc hq rfl hr
    exact ⟨hends .ok, hends (.fail k f), hends (.poison pa)⟩
  case channel =>
    intro s0 s' hr
    have hends : ∀ e, (s0.copyLeaves ch.val).cpyRun (some (r.q, r.seq, r.ctx)) r.op = (e, s1) →
        exec (.copyComplete ch) s = .next ((s1.channelEnds ch.val r e).copyArb 4) := fun e => copyComplete_channel hunc hq hch hr
    exact ⟨hends .ok, hends (.fail k f), hends (.poison pa)⟩
  case suspend =>
    intro s0 hrt hready hlen hnormal hmem hc hsort hmax
    exact copySuspend_of_suspends ((suspends_iff ..).2 ⟨hrt, hready, hlen, hnormal⟩) (foldl_laterCopy_channelCopies hmem hc hsort hmax)
  case stays =>
    intro s0 h
    refine copySuspend_of_not_suspends ((Bool.not_eq_true _).mp fun hs => ?_)
    obtain ⟨hrt, ⟨r, hr, hrq⟩, -, hnormal⟩ := (suspends_iff ..).1 hs
    rcases h with h | h | ⟨p, hp, h4, h⟩
    · exact Bool.false_ne_true (h.symm.trans hrt)
    · exact h r hr hrq
    · exact Bool.false_ne_true ((hnormal p hp h4).symm.trans h)

end Sys2Proof.Machine
end

section
/-! PROOFS. Tiles, pass ends and placement (O45): what a tile's store comes to, the completion of a pass, and the block or stage group
that a core takes. -/

namespace Sys2Proof.Machine

/-! ## The store of a tile (R205, R206, R208) -/

theorem ariseAll_nil (s : State) : s.ariseAll [] = s := rfl

section TileStore

variable {s : State} {k : Fin 12} {tile : BitVec 18} {p : GfxPass} {t : TileRun} (hpass : s.runningPass = some p)
  (htile : p.tiles.find? (fun t => t.cluster == k.val && t.tile == tile.toNat) = some t)
include hpass htile

theorem tileStore_of_primitives_left (h : t.prims ≠ [] ∨ t.cur ≠ none) : exec (.tileStore k tile []) s = .next s := by
  change execTileStore k tile [] s = _
  have hleft : (!t.prims.isEmpty || t.cur.isSome) = true := by
    simpa only [Bool.or_eq_true, Bool.not_eq_true', List.isEmpty_eq_false_iff, Option.isSome_iff_ne_none] using h
  simp [execTileStore, ariseAll_nil, hpass, htile, hleft]

variable (hquench : s.sched.quench = none) (hprims : t.prims = []) (hcur : t.cur = none) (hk : k.val ∈ s.passClusters p)
include hquench hprims hcur hk

theorem tileStore_of_bad_buffer {off : Nat} {s1 : State} (hmeets : s.tileMeets k.val p t = (some off, s1)) :
    exec (.tileStore k tile []) s = .next (s1.withhold k.val p t.tile 0 3 0x0202 off k.val) := by
  change execTileStore k tile [] s = _
  simp [execTileStore, ariseAll_nil, hpass, htile, hquench, hprims, hcur, hk, hmeets]

variable {s0 : State} (hmeets : s.tileMeets k.val p t = (none, s0))
include hmeets

theorem tileStore_of_failed_check {i kind : Nat} {f : VFail} {s1 : State}
    (hcheck : s0.drawNat.2.checkTile k.val p t.tile ((pdAtts p.desc).map (fun a => (a, s0.drawNat.2.storePlan p t a s0.drawNat.1)))
      = (some (i, kind, f), s1)) :
    exec (.tileStore k tile []) s
      = .next ((s1.captureFail p.ctx (0x10 + k.val) .write f).withhold k.val p t.tile i kind 0x0221 (f.va % 2 ^ 32) (f.va / 2 ^ 32)) := by
  change execTileStore k tile [] s = _
  simp [execTileStore, ariseAll_nil, hpass, htile, hquench, hprims, hcur, hk, hmeets, hcheck]

/-- A tile that its checks pass is stored; where the pass still runs it leaves its buffer. -/
theorem tileStore_of_checked {s1 : State}
    (hcheck : s0.drawNat.2.checkTile k.val p t.tile ((pdAtts p.desc).map (fun a => (a, s0.drawNat.2.storePlan p t a s0.drawNat.1)))
      = (none, s1)) :
    exec (.tileStore k tile []) s =
      let plans := (pdAtts p.desc).map (fun a => (a, s0.drawNat.2.storePlan p t a s0.drawNat.1))
      let s2 := plans.foldl (fun s x => s.storeAtt k.val p t.tile x.1 x.2) s1
      .next (s2.runningPass.elim s2 (fun p' => (s2.tileLeaves p' k.val t.tile plans t.clean).gfxPump)) := by
  change execTileStore k tile [] s = _
  simp only [execTileStore, ariseAll_nil, hpass, htile, hquench, hprims, hcur, List.contains_iff_mem.2 hk, hmeets, hcheck]
  cases (((pdAtts p.desc).map (fun a => (a, s0.drawNat.2.storePlan p t a s0.drawNat.1))).foldl
    (fun s x => s.storeAtt k.val p t.tile x.1 x.2) s1).runningPass <;> rfl

end TileStore

/-! ## The end of a pass (R178, R206) -/

section PassEnd

variable {s : State} {p : GfxPass} (hpass : s.runningPass = some p) (hphase : p.phase = .done) (hquench : s.sched.quench = none)
include hpass hphase hquench

theorem passComplete_of_faulted (h : (s.passWrites p).passAt p.q p.seq = none) : exec .passComplete s = .next (s.passWrites p) := by
  change execPassComplete s = _
  simp [execPassComplete, hpass, hphase, hquench, h]

theorem passComplete_of_written (h : ((s.passWrites p).passAt p.q p.seq).isSome = true) :
    exec .passComplete s = .next (((p.took.foldl (fun s k => s.ladleDue ⟨p.q, p.seq, 0, 0x10 + k, 4⟩) (s.passWrites p)).dropPass
      p.q p.seq).passBoundary p.q p.seq).gfxPump := by
  change execPassComplete s = _
  have hthere : ((s.passWrites p).passAt p.q p.seq).isNone = false := by simpa using h
  simp [execPassComplete, hpass, hphase, hquench, hthere]

end PassEnd

/-- A pass whose attachments have neither flags that it cleared nor tracked changes to put out writes nothing at its end. -/
theorem passWrites_of_nothing {s : State} {p : GfxPass}
    (h : ∀ a ∈ pdAtts p.desc, ¬(a.track = 2 ∧ a.load = 1) ∧ ¬(a.track = 1 ∧ a.exp ≠ 0)) : s.passWrites p = s := by
  unfold State.passWrites
  dsimp only
  generalize pdAtts p.desc = l at h
  induction l with
  | nil => rfl
  | cons a l ih =>
    rw [List.forall_mem_cons] at h
    obtain ⟨⟨hflags, htracked⟩, hl⟩ := h
    rw [List.foldl_cons, if_neg hflags, if_neg htracked, ite_self]
    exact ih hl

/-! ## Placement (R376) -/

/-- A queue places a block, or faults trying, or leaves the state. -/
theorem placeFrom_cases (s : State) (core q : Nat) : (s.placeFrom core q).1 = true ∨ s.placeFrom core q = (false, s) := by
  unfold State.placeFrom
  dsimp only
  split
  next seq kn u hcand hqueue =>
    split
    next himpossible => exact .inl rfl
    split
    next hunfit => exact .inr rfl
    split
    next j b hsaved => split <;> exact .inl rfl
    next hnew =>
      split
      next hleft => exact .inl rfl
      next hdone => exact .inr rfl
  next hnone => exact .inr rfl

theorem placeFrom_of_not {s : State} {core q : Nat} (h : (s.placeFrom core q).1 = false) : s.placeFrom core q = (false, s) :=
  (placeFrom_cases s core q).resolve_left (by simp [h])

/-- A dispatch without a preempted block to resume, or whose cluster has real-time work waiting, starts its next block. -/
theorem placeFrom_of_new {s : State} {core q seq : Nat} {u : Queue} {kn : Kernel} (hcand : s.candidate (core / 4) q = some (seq, kn))
    (hqueue : s.queue q = some u) (hpossible : s.launchImpossible q kn = false) (htakes : s.clusterTakes (core / 4) q seq = true)
    (hfits : s.coreFits core kn = true) (hscratch : s.scratchFits (core / 4) q seq kn = true)
    (hnew : (s.rtWaits (core / 4) = true ∧ s.isRt q = false) ∨ s.savedFor (core / 4) q seq = none) (hleft : kn.next < kn.total) :
    s.placeFrom core q =
      let k := core / 4
      let s1 := (s.allocScratch k q seq u.ctx kn).updKernel q seq (fun kn => { kn with next := kn.next + 1, live := kn.live + 1 })
      (true, (s1.putOnCore core ⟨q, seq, u.ctx, kn.next, kn, kn.groups, [], [], [], none⟩
        ((List.range kn.groups).map (fun g => newGroup g kn.code (kn.laneMask g))) false).noteRt k q seq (!s.unitOnCluster k q seq)) := by
  have hnone : (if (s.rtWaits (core / 4) && !s.isRt q) = true then none else s.savedFor (core / 4) q seq) = none := by
    rcases hnew with ⟨hwaits, hrt⟩ | hnone
    · rw [if_pos (by simp [hwaits, hrt])]
    · rw [hnone, ite_self]
  simp only [State.placeFrom, hcand, hqueue, hpossible, htakes, hfits, hscratch, hnone, hleft]
  rfl

/-- One queue asked for a block, where none before it has placed one (R376). -/
def placeStep (core : Nat) (r : Bool × State) (q : Nat) : Bool × State :=
  if r.1 then r
  else match r.2.placeFrom core q with
    | (true, s) => (true, s.placedNow q)
    | (false, s) => (false, s)

/-- A decision for a core: what the queues in their order come to, once stopped Tongs programs have resumed. -/
theorem placeOn_eq (s : State) (core : Nat) : s.placeOn core =
    let r := ((s.tongsResume (core / 4)).placeOrder (core / 4)).foldl (placeStep core) (false, s.tongsResume (core / 4))
    if r.1 then r.2.placeSync else r.2.reservePreempt (core / 4) := rfl

theorem foldl_placeStep_of_none {s : State} {core : Nat} {l : List Nat} (h : ∀ q ∈ l, (s.placeFrom core q).1 = false) :
    l.foldl (placeStep core) (false, s) = (false, s) := by
  induction l with
  | nil => rfl
  | cons q l ih =>
    rw [List.forall_mem_cons] at h
    rw [List.foldl_cons, placeStep, placeFrom_of_not h.1]
    exact ih h.2

theorem foldl_placeStep_of_done (core : Nat) (l : List Nat) (s : State) : l.foldl (placeStep core) (true, s) = (true, s) := by
  induction l with
  | nil => rfl
  | cons q l ih => exact ih

/-- The first queue of the order that can place a block places it. -/
theorem foldl_placeStep_of_first {s s1 : State} {core q : Nat} {pre rest : List Nat} (hpre : ∀ x ∈ pre, (s.placeFrom core x).1 = false)
    (hq : s.placeFrom core q = (true, s1)) :
    (pre ++ q :: rest).foldl (placeStep core) (false, s) = (true, s1.placedNow q) := by
  rw [List.foldl_append, foldl_placeStep_of_none hpre, List.foldl_cons, placeStep, hq]
  exact foldl_placeStep_of_done ..

theorem placeOn_of_first {s s1 : State} {core q : Nat} {pre rest : List Nat}
    (horder : (s.tongsResume (core / 4)).placeOrder (core / 4) = pre ++ q :: rest)
    (hpre : ∀ x ∈ pre, ((s.tongsResume (core / 4)).placeFrom core x).1 = false)
    (hq : (s.tongsResume (core / 4)).placeFrom core q = (true, s1)) : s.placeOn core = (s1.placedNow q).placeSync := by
  rw [placeOn_eq, horder, foldl_placeStep_of_first hpre hq]
  rfl

theorem placeOn_of_none {s : State} {core : Nat}
    (hnone : ∀ x ∈ (s.tongsResume (core / 4)).placeOrder (core / 4), ((s.tongsResume (core / 4)).placeFrom core x).1 = false) :
    s.placeOn core = (s.tongsResume (core / 4)).reservePreempt (core / 4) := by
  rw [placeOn_eq, foldl_placeStep_of_none hnone]
  rfl

theorem blockPlace_of_compute {s : State} {core : Fin 48} (h : (s.cluster (core.val / 4)).mode = .compute) :
    exec (.blockPlace core) s = .next (s.placeOn core.val) := if_pos h

theorem blockPlace_of_graphics {s : State} {core : Fin 48} (h : (s.cluster (core.val / 4)).mode = .graphics) :
    exec (.blockPlace core) s =
      let s0 := (s.reservePreempt (core.val / 4)).gfxPump
      .next (if s0.inGraphics (core.val / 4) = true ∧ s0.sched.quench = none then s0.stagePlace core.val else s0) := by
  change execBlockPlace core s = _
  rw [execBlockPlace, if_neg (by rw [h]; decide)]
  simp only [Bool.and_eq_true, Option.isNone_iff_eq_none]
  split <;> rfl

/-! ## The statement -/

/-- Settles O45, by the parts above: a tile's store, a pass's end, placement. -/
theorem tilesAndPlacement : Obligations.TilesAndPlacement := by
  intro s
  refine ⟨fun k tile es => rfl, fun k tile p t hpass htile hquench => ⟨tileStore_of_primitives_left hpass htile, ?tile⟩,
    fun p hpass hphase hquench => ⟨passComplete_of_written hpass hphase hquench, passComplete_of_faulted hpass hphase hquench,
      passWrites_of_nothing⟩, fun core => ?compute, fun core => blockPlace_of_graphics⟩
  case tile =>
    intro hprims hcur hk
    refine ⟨fun off s1 => tileStore_of_bad_buffer hpass htile hquench hprims hcur hk, fun s0 hmeets => 
      ⟨fun i kind f s1 => tileStore_of_failed_check hpass htile hquench hprims hcur hk hmeets, fun s1 hcheck => ?_⟩⟩
    have hstored := tileStore_of_checked hpass htile hquench hprims hcur hk hmeets hcheck
    exact ⟨fun p' hp' => hstored.trans (congrArg (fun r => Host.Outcome.next (Option.elim r _ _)) hp'),
      fun hnone => hstored.trans (congrArg (fun r => Host.Outcome.next (Option.elim r _ _)) hnone)⟩
  case compute =>
    intro k hmode s0
    have hplace := blockPlace_of_compute hmode
    exact ⟨fun pre q rest s1 horder hpre hq => hplace.trans (congrArg _ (placeOn_of_first horder hpre hq)),
      fun hnone => hplace.trans (congrArg _ (placeOn_of_none hnone)), fun q u seq kn => placeFrom_of_new⟩

end Sys2Proof.Machine
end

section
/-! PROOFS. Scratch allocations in the Griddle: what a change of a kernel's scratch and a wipe of errors leave of a cluster, and the bytes
of a run that has been stored (R138, R140). -/

namespace Sys2Proof.Machine

/-! ## A kernel's scratch on a cluster -/

/-- A change that keeps whose scratch it is finds its result in the scratch's place. -/
theorem scratchOf_updScratch (s : State) (k q seq : Nat) {f : Scratch → Scratch} (hf : ∀ x, (f x).q = x.q ∧ (f x).seq = x.seq) :
    ((s.updScratch k q seq f).cluster k).scratchOf q seq = ((s.cluster k).scratchOf q seq).map f := by
  have hsame : (fun x : Scratch => x.q == q && x.seq == seq) ∘ (fun x => if x.q = q ∧ x.seq = seq then f x else x)
      = fun x => x.q == q && x.seq == seq := by
    funext x
    simp only [Function.comp]
    split
    · rw [(hf x).1, (hf x).2]
    · rfl
  rw [State.updScratch, cluster_setCluster_self, Cluster.scratchOf, Cluster.scratchOf, List.find?_map, hsame]
  cases h : (s.cluster k).scratch.find? (fun x => x.q == q && x.seq == seq) with
  | none => rfl
  | some x =>
    have hx : x.q = q ∧ x.seq = seq := by simpa using List.find?_some h
    simp [hx]

theorem region_updScratch (s : State) (k q seq : Nat) (f : Scratch → Scratch) :
    ((s.updScratch k q seq f).cluster k).region = (s.cluster k).region := by
  rw [State.updScratch, cluster_setCluster_self]

theorem cluster_updScratch_ne (s : State) {k j : Nat} (q seq : Nat) (f : Scratch → Scratch) (h : j ≠ k) :
    (s.updScratch k q seq f).cluster j = s.cluster j := cluster_setCluster_ne s _ h

/-- A write stores sound words: it changes at most the errors listed for its cluster. -/
theorem grdWipe_cases (s : State) (k off n : Nat) : s.grdWipe k off n = s
    ∨ s.grdWipe k off n = s.setCluster k { s.cluster k with errs := Sparse.dropRange (s.cluster k).errs off n } := ite_eq_or_eq ..

theorem scratchOf_grdWipe (s : State) (k off n q seq : Nat) :
    ((s.grdWipe k off n).cluster k).scratchOf q seq = (s.cluster k).scratchOf q seq := by
  rcases grdWipe_cases s k off n with h | h
  · rw [h]
  · rw [h, cluster_setCluster_self, Cluster.scratchOf, Cluster.scratchOf]

theorem region_grdWipe (s : State) (k off n : Nat) : ((s.grdWipe k off n).cluster k).region = (s.cluster k).region := by
  rcases grdWipe_cases s k off n with h | h
  · rw [h]
  · rw [h, cluster_setCluster_self]

theorem cluster_grdWipe_ne (s : State) {k j : Nat} (off n : Nat) (h : j ≠ k) : (s.grdWipe k off n).cluster j = s.cluster j := by
  rcases grdWipe_cases s k off n with hw | hw
  · rw [hw]
  · rw [hw, cluster_setCluster_ne _ _ h]

/-! ## Bytes of a run -/

/-- A run of bytes stored from `base` on reads back there, and every other byte reads as before. -/
theorem get_foldl_set_zipIdx (bs : List Byte) (base i : Nat) (m : List (Nat × Byte)) (x : Nat) :
    Sparse.get ((bs.zipIdx i).foldl (fun m p => Sparse.set m 0 (base + p.2) p.1) m) 0 x =
      if base + i ≤ x ∧ x < base + i + bs.length then bs.getD (x - (base + i)) 0 else Sparse.get m 0 x := by
  induction bs generalizing i m with
  | nil => rw [if_neg (fun h => Nat.lt_irrefl _ (lt_of_lt_of_le h.2 h.1))]; rfl
  | cons b bs ih =>
    rw [List.zipIdx_cons, List.foldl_cons, ih, List.length_cons]
    by_cases hx : x = base + i
    · subst hx
      rw [if_neg (by omega), if_pos (by omega), Sparse.get_set_self, Nat.sub_self]
      rfl
    · rw [Sparse.get_set_ne _ _ _ _ hx]
      refine if_ctx_congr (by omega) (fun h => ?_) (fun _ => rfl)
      rw [show x - (base + i) = x - (base + (i + 1)) + 1 by omega, List.getD_cons_succ]

end Sys2Proof.Machine
end

section
/-! PROOFS. Tongs programs (O41): the command at a program's counter, row by row, the completion of a copy, and the bytes that a row moves
into the scratch. -/

namespace Sys2Proof.Machine

/-! ## A command at its turn (R151, R152) -/

section Fetched

variable {s s' : State} {k : Nat} {rt : Bool} {cmd : TongsCmd} {op : Nat} {t : Tongs} (f : Tongs → State → Option (Tongs × State))

/-- A command that reaches its effect has it, or faults the program where the row gives none. -/
theorem withTongs_runs (h : TongsRuns s k rt cmd op t s') :
    s.withTongs k rt cmd op f = .next ((f t s').elim (s'.tongsFault k rt t) (fun x => x.2.putTongs k rt x.1)) := by
  obtain ⟨t0, bs, ht, hturn, rfl, hread, hagree, hlisted, hclean, rfl⟩ := h
  have hmine : ¬(!s.tongsTurn k rt t0 || (tongsListed cmd.op && cmd.op ≠ cmd.op)) = true := by simp [hturn]
  unfold State.withTongs
  rw [ht]
  dsimp only
  rw [if_neg hmine]
  simp only [hread, hagree, hlisted, hclean]
  cases f { t0 with buf := cmd.buf } s' <;> rfl

theorem withTongs_some {u : Tongs} {s1 : State} (h : TongsRuns s k rt cmd op t s') (hf : f t s' = some (u, s1)) :
    s.withTongs k rt cmd op f = .next (s1.putTongs k rt u) := by
  rw [withTongs_runs f h, hf]; rfl

theorem withTongs_none (h : TongsRuns s k rt cmd op t s') (hf : f t s' = none) :
    s.withTongs k rt cmd op f = .next (s'.tongsFault k rt t) := by
  rw [withTongs_runs f h, hf]; rfl

/-- A command that is not listed, or with a reserved field, faults the program under every row. -/
theorem withTongs_of_ill_formed {bs : List (Option Byte)} (ht : (s.cluster k).tongs rt = some t) (hturn : s.tongsTurn k rt t = true)
    (hread : s.rawRead (.cluster k) (tongsClass rt) t.ctx t.pc 16 = (none, none, bs, s')) (hagree : bytesAgree bs (wordBytes cmd.words) = true)
    (hbad : tongsListed cmd.op = false ∨ (cmd.op = op ∧ cmd.clean = false)) :
    s.withTongs k rt cmd op f = .next (s'.tongsFault k rt { t with buf := cmd.buf }) := by
  have hmine : ¬(!s.tongsTurn k rt t || (tongsListed cmd.op && cmd.op ≠ op)) = true := by rcases hbad with h | h <;> simp [hturn, h]
  have hill : (!tongsListed cmd.op || !cmd.clean) = true := by rcases hbad with h | h <;> simp [h]
  unfold State.withTongs
  simp only [ht, if_neg hmine, hread, hagree, if_pos hill]
  rfl

end Fetched

/-! ## Loops -/

section Rows

variable {s s' : State} {k : Fin 12} {rt : Bool} {cmd : TongsCmd} {t : Tongs}

theorem tongsLoop_opens (h1 : 1 ≤ cmd.len) (hmax : cmd.len ≤ 16777216) (hfree : ∀ l ∈ t.loops, l.1 ≠ cmd.lvl)
    (h : TongsRuns s k.val rt cmd 0x04 t s') : exec (.tongsLoop k rt cmd) s
      = .next (s'.putTongs k.val rt { t.step with loops := (cmd.lvl, cmd.len, t.step.pc) :: t.loops }) := by
  have hno : ¬(cmd.len = 0 ∨ 16777216 < cmd.len ∨ t.loops.any (fun l => l.1 == cmd.lvl) = true) := by
    simp only [List.any_eq_true, beq_iff_eq]
    rintro (h | h | ⟨l, hl, h⟩)
    · omega
    · omega
    · exact hfree l hl h
  exact show execTongsLoop k rt cmd s = _ from withTongs_some _ h (if_neg hno)

theorem tongsLoop_faults (hbad : cmd.len = 0 ∨ 16777216 < cmd.len ∨ ∃ l ∈ t.loops, l.1 = cmd.lvl) (h : TongsRuns s k.val rt cmd 0x04 t s') :
    exec (.tongsLoop k rt cmd) s = .next (s'.tongsFault k.val rt t) :=
  show execTongsLoop k rt cmd s = _ from withTongs_none _ h (if_pos (by simpa only [List.any_eq_true, beq_iff_eq] using hbad))

theorem tongsEndl_faults (hnone : ∀ l ∈ t.loops, l.1 ≠ cmd.lvl) (h : TongsRuns s k.val rt cmd 0x05 t s') :
    exec (.tongsEndl k rt cmd) s = .next (s'.tongsFault k.val rt t) := by
  have hfind : t.loops.find? (fun l => l.1 == cmd.lvl) = none := by simpa using hnone
  change execTongsEndl k rt cmd s = _
  refine withTongs_none _ h ?_
  simp only [hfind]

section Open

variable {n body : Nat} (hfind : t.loops.find? (fun l => l.1 == cmd.lvl) = some (cmd.lvl, n, body))
  (h : TongsRuns s k.val rt cmd 0x05 t s')
include hfind h

theorem tongsEndl_closes (hn : n ≤ 1) : exec (.tongsEndl k rt cmd) s
    = .next (s'.putTongs k.val rt { t.step with loops := t.loops.filter (fun l => l.1 != cmd.lvl) }) := by
  change execTongsEndl k rt cmd s = _
  refine withTongs_some _ h ?_
  simp only [hfind, if_pos hn]

theorem tongsEndl_repeats (hn : 2 ≤ n) : exec (.tongsEndl k rt cmd) s
    = .next (s'.putTongs k.val rt { t with pc := body, loops := (cmd.lvl, n - 1, body) :: t.loops.filter (fun l => l.1 != cmd.lvl) }) := by
  change execTongsEndl k rt cmd s = _
  refine withTongs_some _ h ?_
  simp only [hfind, if_neg (Nat.not_le.2 hn)]

end Open

/-! ## Copies of a command (R151) -/

/-- Whether the engine's next slot of a ring is ready for a FILL, or for a DRAIN. -/
def RingReady (inb : Bool) (d : GrdBuf) (r : Ring) : Prop := if inb then diff32 r.next r.free < d.slots else laterThan r.fill r.next = true

section Copies

variable {k : Nat} {inb : Bool} {x : Scratch} (hx : (s'.cluster k).scratchOf t.q t.seq = some x)
include hx

section Ring

variable (h : TongsRuns s k rt cmd (if inb then 0x10 else 0x11) t s')
include h

theorem ringCopy_faults (hbad : copyFits cmd (x.buf cmd.buf) = false ∨ (x.buf cmd.buf).kind ≠ if inb then 2 else 3) :
    s.ringCopy k rt cmd inb = .next (s'.tongsFault k rt t) := by
  have hc : (x.buf cmd.buf).kind ≠ (if inb then 2 else 3) ∨ (!copyFits cmd (x.buf cmd.buf)) = true := by simpa using hbad.symm
  refine withTongs_none _ h ?_
  simp only [hx, if_pos hc]

variable (hfits : copyFits cmd (x.buf cmd.buf) = true) (hkind : (x.buf cmd.buf).kind = if inb then 2 else 3)
include hfits hkind

theorem ringCopy_begins (hready : RingReady inb (x.buf cmd.buf) (x.ring cmd.buf)) :
    s.ringCopy k rt cmd inb =
      let d := x.buf cmd.buf
      let r := x.ring cmd.buf
      .next ((s'.putRing k t.q t.seq cmd.buf (if cmd.post then { r with next := (r.next + 1) % 2 ^ 32 } else r)).putTongs k rt
        (t.begin cmd inb r.next ((d.base + r.next % d.slots * d.units) * 256 + cmd.off))) := by
  have hc : ¬((x.buf cmd.buf).kind ≠ (if inb then 2 else 3) ∨ (!copyFits cmd (x.buf cmd.buf)) = true) := by simp [hfits, hkind]
  unfold RingReady at hready
  refine withTongs_some _ h ?_
  simp only [hx, if_neg hc, hready]
  rfl

theorem ringCopy_waits (hready : ¬RingReady inb (x.buf cmd.buf) (x.ring cmd.buf)) :
    s.ringCopy k rt cmd inb = .next (s'.putTongs k rt
      { t with run := if t.lastExited then .ended else if inb then .waitFree else .waitFilled }) := by
  have hc : ¬((x.buf cmd.buf).kind ≠ (if inb then 2 else 3) ∨ (!copyFits cmd (x.buf cmd.buf)) = true) := by simp [hfits, hkind]
  unfold RingReady at hready
  refine withTongs_some _ h ?_
  simp only [hx, if_neg hc, hready]
  rfl

end Ring

variable (h : TongsRuns s k rt cmd (if inb then 0x12 else 0x13) t s')
include h

theorem plainCopy_faults (hbad : copyFits cmd (x.buf cmd.buf) = false ∨ (x.buf cmd.buf).kind ≠ 1) :
    s.plainCopy k rt cmd inb = .next (s'.tongsFault k rt t) := by
  have hc : (x.buf cmd.buf).kind ≠ 1 ∨ (!copyFits cmd (x.buf cmd.buf)) = true := by simpa using hbad.symm
  refine withTongs_none _ h ?_
  simp only [hx, if_pos hc]

theorem plainCopy_begins (hfits : copyFits cmd (x.buf cmd.buf) = true) (hkind : (x.buf cmd.buf).kind = 1) :
    s.plainCopy k rt cmd inb = .next (s'.putTongs k rt (t.begin cmd inb 0 ((x.buf cmd.buf).base * 256 + cmd.off))) := by
  have hc : ¬((x.buf cmd.buf).kind ≠ 1 ∨ (!copyFits cmd (x.buf cmd.buf)) = true) := by simp [hfits, hkind]
  refine withTongs_some _ h ?_
  simp only [hx, if_neg hc]

end Copies

end Rows

/-! ## The completion of a copy (R149) -/

/-- A program once its copy has been performed: past a FENCE that waited for it alone. -/
def Tongs.copied (t : Tongs) (id : Nat) : Tongs :=
  let v : Tongs := { t with copies := t.copies.filter (fun x => x.id != id) }
  if v.run = .waitFence ∧ v.copies = [] then { v.step with run := .running } else v

theorem copied_isEmpty (t : Tongs) (id : Nat) : t.copied id =
    let v : Tongs := { t with copies := t.copies.filter (fun x => x.id != id) }
    if v.run = .waitFence ∧ v.copies.isEmpty then { v.step with run := .running } else v := by
  simp only [Tongs.copied, List.isEmpty_iff]

/-- The state once all rows of a copy have been moved: its bytes counted, the copy ended, its ring settled. -/
def State.afterCopy (s : State) (k : Nat) (rt : Bool) (t : Tongs) (c : TongsCopy) : State :=
  let s2 := s.count64 (Reg.CLU_TNG_BYTES_LO k) (c.len * c.rows)
  (s2.setCluster k ((s2.cluster k).setTongs rt (some (t.copied c.id)))).settleRing k (t.copied c.id) c.buf

section Completion

variable {s s1 : State} {k : Fin 12} {rt : Bool} {t : Tongs} {c : TongsCopy} (ht : (s.cluster k.val).tongs rt = some t)
  (hc : t.copies.find? (fun x => x.id == c.id) = some c) (hclu : s.cluOn = true) (hquench : s.sched.quench = none)
include ht hc hclu hquench

theorem tongsCopyComplete_of_fault (hrows : s.copyRows k.val rt t c = (false, s1)) : exec (.tongsCopyComplete k rt c.id) s = .next s1 := by
  change execTongsCopyComplete k rt c.id s = _
  simp [execTongsCopyComplete, ht, hc, hclu, hquench, hrows]

theorem tongsCopyComplete_of_moved (hrows : s.copyRows k.val rt t c = (true, s1)) {w : Tongs}
    (hw : (((s1.afterCopy k.val rt t c).cluster k.val).tongs rt) = some w) :
    exec (.tongsCopyComplete k rt c.id) s = .next ((s1.afterCopy k.val rt t c).putTongs k.val rt w) := by
  have hcopied := copied_isEmpty t c.id
  change execTongsCopyComplete k rt c.id s = _
  unfold State.afterCopy at hw ⊢
  rw [hcopied] at hw ⊢
  simp only [execTongsCopyComplete, ht, hc, hclu, hquench, hrows]
  simp only [Bool.not_true, Option.isSome_none, Bool.or_self, Bool.false_eq_true, if_false]
  rw [hw]

end Completion

/-! ## The rows of a copy into the scratch (R149) -/

/-- A scratch with a run of bytes stored. -/
def Scratch.storeBytes (x : Scratch) (base : Nat) (bs : List Byte) : Scratch :=
  { x with data := bs.zipIdx.foldl (fun m p => Sparse.set m 0 (base + p.2) p.1) x.data }

/-- A row's bytes at their place of a program's scratch. -/
def State.storeRow (s : State) (k : Nat) (t : Tongs) (goff len : Nat) (bs : List Byte) : State :=
  let u := s.updScratch k t.q t.seq (fun x => x.storeBytes goff bs)
  u.grdWipe k (s.scratchAt k t.q t.seq + goff) len

theorem copyRow_of_read {s s' : State} {k : Nat} {rt : Bool} {t : Tongs} {c : TongsCopy} {i : Nat} {bs : List Byte} (hto : c.toGrd = true)
    (hread : s.vread (.cluster k) t.ctx (wrapInt 48 ((c.addr : Int) + (i : Int) * signed 32 c.pitch)) c.len (tongsClass rt) false false
      = (.ok bs none, s')) :
    s.copyRow k rt t c i = (some (s'.storeRow k t (c.goff + i * c.len) c.len bs), s'.storeRow k t (c.goff + i * c.len) c.len bs) := by
  unfold State.copyRow
  simp only [hto, hread]
  rfl

theorem scratchOf_storeRow {s : State} {k : Nat} {t : Tongs} {x : Scratch} (goff len : Nat) (bs : List Byte)
    (hx : (s.cluster k).scratchOf t.q t.seq = some x) :
    ((s.storeRow k t goff len bs).cluster k).scratchOf t.q t.seq = some (x.storeBytes goff bs) := by
  rw [State.storeRow, scratchOf_grdWipe, scratchOf_updScratch (f := fun x => x.storeBytes goff bs) _ _ _ _ (fun _ => ⟨rfl, rfl⟩), hx]
  rfl

/-! ## The statement -/

/-- The rows of the commands, with the OP of each (R151). -/
abbrev tongsRows (k : Fin 12) (rt : Bool) (cmd : TongsCmd) : List (Nat × Instr) :=
  [(0x00, Instr.tongsNop k rt cmd), (0x01, .tongsSeta k rt cmd), (0x02, .tongsAdda k rt cmd), (0x03, .tongsAddr k rt cmd),
    (0x04, .tongsLoop k rt cmd), (0x05, .tongsEndl k rt cmd), (0x10, .tongsFill k rt cmd), (0x11, .tongsDrain k rt cmd),
    (0x12, .tongsGload k rt cmd), (0x13, .tongsGstore k rt cmd), (0x20, .tongsFence k rt cmd), (0x3F, .tongsEnd k rt cmd)]

/-- Every row runs one command of the program under its OP. -/
theorem tongsRows_withTongs (s : State) (k : Fin 12) (rt : Bool) (cmd : TongsCmd) :
    ∀ p ∈ tongsRows k rt cmd, ∃ f, exec p.2 s = s.withTongs k.val rt cmd p.1 f := by
  simp only [tongsRows, List.forall_mem_cons]
  exact ⟨⟨_, show execTongsNop k rt cmd s = _ from rfl⟩, ⟨_, show execTongsSeta k rt cmd s = _ from rfl⟩,
    ⟨_, show execTongsAdda k rt cmd s = _ from rfl⟩, ⟨_, show execTongsAddr k rt cmd s = _ from rfl⟩,
    ⟨_, show execTongsLoop k rt cmd s = _ from rfl⟩, ⟨_, show execTongsEndl k rt cmd s = _ from rfl⟩,
    ⟨_, show s.ringCopy k.val rt cmd true = _ from rfl⟩, ⟨_, show s.ringCopy k.val rt cmd false = _ from rfl⟩,
    ⟨_, show s.plainCopy k.val rt cmd true = _ from rfl⟩, ⟨_, show s.plainCopy k.val rt cmd false = _ from rfl⟩,
    ⟨_, show execTongsFence k rt cmd s = _ from rfl⟩, ⟨_, show execTongsEnd k rt cmd s = _ from rfl⟩, by simp⟩

/-- Settles O41, row by row, with the completion of a copy and what a row stores. -/
theorem tongsCommands : Obligations.TongsCommands := by
  intro s s' k rt cmd t Out Bad
  refine ⟨fun h => show execTongsNop k rt cmd s = _ from withTongs_some _ h rfl,
    fun h => show execTongsSeta k rt cmd s = _ from withTongs_some _ h rfl,
    fun h => show execTongsAdda k rt cmd s = _ from withTongs_some _ h rfl,
    fun h => show execTongsAddr k rt cmd s = _ from withTongs_some _ h rfl, tongsLoop_opens, tongsLoop_faults, tongsEndl_faults,
    fun n body hfind => ⟨fun hn h => tongsEndl_closes hfind h hn, fun hn h => tongsEndl_repeats hfind h hn⟩, fun x hx => ?copies, ?fence,
    fun h => show execTongsEnd k rt cmd s = _ from withTongs_some _ h rfl, fun bs ht hturn hread hagree p hp hbad => ?illFormed,
    fun c s1 ht hc hclu hquench => ?completion, fun c i bs x hto hread hx => ?row⟩
  case copies =>
    intro d r go
    have hfill : exec (.tongsFill k rt cmd) s = s.ringCopy k.val rt cmd true := rfl
    have hdrain : exec (.tongsDrain k rt cmd) s = s.ringCopy k.val rt cmd false := rfl
    have hgload : exec (.tongsGload k rt cmd) s = s.plainCopy k.val rt cmd true := rfl
    have hgstore : exec (.tongsGstore k rt cmd) s = s.plainCopy k.val rt cmd false := rfl
    refine ⟨fun hfits => ⟨fun hkind hready h => ?_, fun hkind hready h => ?_, fun hkind hready h => ?_, fun hkind hready h => ?_,
      fun hkind h => ?_, fun hkind h => ?_⟩, fun hbad h => ?_, fun hbad h => ?_, fun hbad => ⟨fun h => ?_, fun h => ?_⟩⟩
    · exact hfill.trans (ringCopy_begins (inb := true) hx h hfits hkind hready)
    · exact hfill.trans (ringCopy_waits (inb := true) hx h hfits hkind hready)
    · exact hdrain.trans (ringCopy_begins (inb := false) hx h hfits hkind hready)
    · exact hdrain.trans (ringCopy_waits (inb := false) hx h hfits hkind (fun hr => Bool.false_ne_true (hready.symm.trans hr)))
    · exact hgload.trans (plainCopy_begins (inb := true) hx h hfits hkind)
    · exact hgstore.trans (plainCopy_begins (inb := false) hx h hfits hkind)
    · exact hfill.trans (ringCopy_faults (inb := true) hx h hbad)
    · exact hdrain.trans (ringCopy_faults (inb := false) hx h hbad)
    · exact hgload.trans (plainCopy_faults (inb := true) hx h hbad)
    · exact hgstore.trans (plainCopy_faults (inb := false) hx h hbad)
  case fence =>
    intro h
    change execTongsFence k rt cmd s = _
    refine withTongs_some _ h ?_
    simp only [List.isEmpty_iff]
  case illFormed =>
    obtain ⟨f, hf⟩ := tongsRows_withTongs s k rt cmd p hp
    rw [hf]
    exact withTongs_of_ill_formed f ht hturn hread hagree hbad
  case completion =>
    refine ⟨tongsCopyComplete_of_fault ht hc hclu hquench, fun hrows => ?_⟩
    intro s2 v u s3 w hw
    exact tongsCopyComplete_of_moved ht hc hclu hquench hrows hw
  case row =>
    refine ⟨_, _, copyRow_of_read hto hread, scratchOf_storeRow _ _ _ hx, fun j => ?_⟩
    exact get_foldl_set_zipIdx bs (c.goff + i * c.len) 0 x.data j

end Sys2Proof.Machine
end

section
/-! PROOFS. Griddle accesses (O35): the spans of the lanes and their check, the registers that a load writes, the bytes that a store
writes, and the credit instructions of a ring (R140 to R148). -/

namespace Sys2Proof.Machine

/-! ## The spans of the lanes (R142, R148) -/

section Spans
variable {a : At} {t : GrdTarget} {n l : Nat}

/-- A lane's access lies inside its span. -/
def At.inSpan (a : At) (t : GrdTarget) (n l : Nat) : Prop := 0 ≤ a.saddr l ∧ a.saddr l + n ≤ ((a.span t l).2.1 : Int)

/-- A lane's access lies inside its span, aligned, on a slot that it may use. -/
def At.grdFits (a : At) (t : GrdTarget) (n l : Nat) : Prop := a.inSpan t n l ∧ a.saddr l % n = 0 ∧ (a.span t l).2.2 = true

theorem grdFault_eq (a : At) (t : GrdTarget) (n l : Nat) : a.grdFault t n l =
    if a.saddr l < 0 ∨ ((a.span t l).2.1 : Int) < a.saddr l + n then some (0x010F, 0)
    else if a.saddr l % n ≠ 0 then some (0x0103, 0) else if !(a.span t l).2.2 then some (0x0110, 0) else none := rfl

theorem grdFault_of_outside (h : ¬a.inSpan t n l) : a.grdFault t n l = some (0x010F, 0) := by
  unfold At.inSpan at h
  rw [grdFault_eq, if_pos (by omega)]

theorem grdFault_of_inside (h : a.inSpan t n l) : a.grdFault t n l =
    if a.saddr l % n ≠ 0 then some (0x0103, 0) else if !(a.span t l).2.2 then some (0x0110, 0) else none := by
  obtain ⟨hlo, hhi⟩ := h
  rw [grdFault_eq, if_neg (by omega)]

theorem grdFault_of_misaligned (h : a.inSpan t n l) (hn : a.saddr l % n ≠ 0) : a.grdFault t n l = some (0x0103, 0) := by
  rw [grdFault_of_inside h, if_pos hn]

theorem grdFault_of_not_usable (h : a.inSpan t n l) (hn : a.saddr l % n = 0) (hslot : (a.span t l).2.2 = false) :
    a.grdFault t n l = some (0x0110, 0) := by
  rw [grdFault_of_inside h, if_neg (not_not.2 hn), hslot]
  rfl

theorem grdFault_of_fits (h : a.grdFits t n l) : a.grdFault t n l = none := by
  obtain ⟨hin, hn, hslot⟩ := h
  rw [grdFault_of_inside hin, if_neg (not_not.2 hn), hslot]
  rfl

end Spans

section Access
variable {s t : State} {a : At} {k : GrdTarget → State → State}

theorem grdAccess_of_unused (h : t.grdTarget a = .unused) : t.grdAccess a k = t.exc a 0x010F a.low 0 := by
  rw [State.grdAccess, h]

theorem grdAccess_of_used (h : t.grdTarget a ≠ .unused) :
    t.grdAccess a k = t.checked a (a.grdFault (t.grdTarget a) (grdBytes a.i)) (k (t.grdTarget a)) := by
  rw [State.grdAccess]
  split
  next hunused => exact absurd hunused h
  next => rfl

variable {i : Instr} (hexec : exec i s = .next (t.grdAccess a k))
include hexec

theorem exec_of_grdFits (hused : t.grdTarget a ≠ .unused) (h : ∀ l ∈ a.g.run a.i, a.grdFits (t.grdTarget a) (grdBytes a.i) l) :
    exec i s = .next (k (t.grdTarget a) t) := by
  rw [hexec, grdAccess_of_used hused, checked_of_none _ fun l hl => grdFault_of_fits (h l hl)]

/-- An unused buffer, or else the lowest lane that fails, raises the exception: the range before the alignment, that before the slot. -/
theorem exec_of_grdFault : (t.grdTarget a = .unused → exec i s = .next (t.exc a 0x010F a.low 0))
    ∧ ∀ l pre post, t.grdTarget a ≠ .unused → a.g.run a.i = pre ++ l :: post →
      (∀ m ∈ pre, a.grdFits (t.grdTarget a) (grdBytes a.i) m) →
      (¬a.inSpan (t.grdTarget a) (grdBytes a.i) l → exec i s = .next (t.exc a 0x010F l 0))
      ∧ (a.inSpan (t.grdTarget a) (grdBytes a.i) l → a.saddr l % grdBytes a.i ≠ 0 → exec i s = .next (t.exc a 0x0103 l 0))
      ∧ (a.inSpan (t.grdTarget a) (grdBytes a.i) l → a.saddr l % grdBytes a.i = 0 → (a.span (t.grdTarget a) l).2.2 = false →
        exec i s = .next (t.exc a 0x0110 l 0)) := by
  refine ⟨fun h => by rw [hexec, grdAccess_of_unused h], fun l pre post hused hrun hpre => ?_⟩
  have hnone : ∀ m ∈ pre, a.grdFault (t.grdTarget a) (grdBytes a.i) m = none := fun m hm => grdFault_of_fits (hpre m hm)
  rw [hexec, grdAccess_of_used hused]
  exact ⟨fun h => by rw [checked_of_first _ hrun hnone (grdFault_of_outside h)],
    fun h hn => by rw [checked_of_first _ hrun hnone (grdFault_of_misaligned h hn)],
    fun h hn hslot => by rw [checked_of_first _ hrun hnone (grdFault_of_not_usable h hn hslot)]⟩

end Access

/-! ## Loads (R140, R142) -/

theorem leNat_eq_ofDigits (bs : List Byte) : leNat bs = Nat.ofDigits 256 (bs.map BitVec.toNat) := by
  induction bs with
  | nil => rfl
  | cons b bs ih => rw [leNat, ih, List.map_cons, Nat.ofDigits_cons]

/-- A word of a little-endian number is that of its four bytes. -/
theorem leNat_word (bs : List Byte) (j : Nat) : leNat bs / 2 ^ (32 * j) % 2 ^ 32 = leNat ((bs.drop (4 * j)).take 4) := by
  have hbyte : ∀ d ∈ bs.map BitVec.toNat, d < 256 := by
    intro d hd
    obtain ⟨b, -, rfl⟩ := List.mem_map.1 hd
    exact b.isLt
  have hbyte' : ∀ d ∈ (bs.map BitVec.toNat).drop (4 * j), d < 256 := fun d hd => hbyte d (List.mem_of_mem_drop hd)
  rw [leNat_eq_ofDigits, leNat_eq_ofDigits, List.map_take, List.map_drop, show 2 ^ (32 * j) = 256 ^ (4 * j) by
    rw [show 32 * j = 8 * (4 * j) by omega, pow_mul]; rfl, show 2 ^ 32 = 256 ^ 4 from rfl,
    Nat.ofDigits_div_pow_eq_ofDigits_drop _ (by decide) _ hbyte, Nat.ofDigits_mod_pow_eq_ofDigits_take _ (by decide) _ hbyte']

/-- A word of a run of bytes. -/
theorem leNat_range_word (f : Nat → Byte) {n j : Nat} (h : 4 * j + 4 ≤ n) :
    leNat ((List.range n).map f) / 2 ^ (32 * j) % 2 ^ 32 = leNat ((List.range 4).map (fun i => f (4 * j + i))) := by
  rw [leNat_word]
  congr 1
  refine List.ext_getElem ?_ fun i h1 h2 => ?_
  · simp only [List.length_take, List.length_drop, List.length_map, List.length_range]
    omega
  · simp

/-- The number that a load finds at a lane's place. -/
def State.grdNat (s : State) (a : At) (n at_ : Nat) : Nat := leNat ((List.range n).map (fun j => s.grdByte a (at_ + j)))

/-- The place of a lane's access in its buffers. -/
def At.grdPlace (a : At) (t : GrdTarget) (l : Nat) : Nat := (a.span t l).1 + (a.saddr l).toNat

/-- The registers that a load writes, from the bytes as they stand in `s`. -/
def At.grdLoaded (a : At) (t : GrdTarget) (s : State) : Group :=
  a.g.setRegs (laneWrites a (memRegs (grdBytes a.i)) (fun l j => s.grdNat a (grdBytes a.i) (a.grdPlace t l) / 2 ^ (32 * j)))

section Load
variable {s s' : State} {x : Issue} {a : At}

theorem gld_of_issues (h : Issues s x 12 grdForm a s') (hload : 2 ≤ a.i.op.toNat ∧ a.i.op.toNat ≤ 4) :
    ∃ k, exec (.gld x []) s = .next (s'.grdAccess a k)
      ∧ (∀ t u v, u.grdLanes a t (grdBytes a.i) = (true, v) →
        k t u = v.contextFault a.b.ctx 0x0202 (cluUnit a.core) (some (a.b.q, a.b.seq)))
      ∧ ∀ t u v, u.grdLanes a t (grdBytes a.i) = (false, v) → k t u = v.putAt a (a.grdLoaded t v) := by
  have hmine : (decide (2 ≤ x.i.op.toNat) && decide (x.i.op.toNat ≤ 4)) = true := by
    rw [insn_of_issues h] at hload
    simpa using hload
  refine ⟨_, show execGld x [] s = _ from withInsn_issues _ _ h hmine, fun t u v hv => by simp only [hv], fun t u v hv => ?_⟩
  simp only [hv, At.grdLoaded, Group.setRegs, laneWrites, List.foldl_flatMap, List.foldl_map]
  rfl

/-- A load's destination run lies within the registers: it starts at a multiple of its length. -/
theorem dst_add_memRegs_of_issues (h : Issues s x 12 grdForm a s') (hload : 2 ≤ a.i.op.toNat ∧ a.i.op.toNat ≤ 4) :
    a.i.dst.toNat + memRegs (grdBytes a.i) ≤ 256 := by
  have hlt := a.i.dst.isLt
  have hrun : (a.i.dst.toNat, memRegs (grdBytes a.i)) ∈ grdForm.runs a.i := by
    simp [grdForm, show a.i.op.toNat ≠ 0x13 by omega, show ¬0x10 ≤ a.i.op.toNat by omega, show a.i.op.toNat < 8 by omega]
  have hdvd : memRegs (grdBytes a.i) ∣ 256 := by
    obtain ⟨hlo, hhi⟩ := hload
    unfold memRegs grdBytes
    interval_cases a.i.op.toNat <;> decide
  have hrest := Nat.le_of_dvd (by omega) (Nat.dvd_sub hdvd (Nat.dvd_of_mod_eq_zero (run_aligned_of_issues h hrun)))
  omega

/-- What a load leaves in a register: the word of its lane's bytes, where it is one of the run. -/
theorem reg_grdLoaded (h : Issues s x 12 grdForm a s') (hload : 2 ≤ a.i.op.toNat ∧ a.i.op.toNat ≤ 4) (t : GrdTarget) (u : State) {l r : Nat}
    (hl : l < 32) (hr : r < 256) : (a.grdLoaded t u).reg l r =
      if l ∈ a.g.run a.i ∧ a.i.dst.toNat ≤ r ∧ r < a.i.dst.toNat + grdBytes a.i / 4
      then leNat ((List.range 4).map (fun j => u.grdByte a (a.grdPlace t l + 4 * (r - a.i.dst.toNat) + j))) else a.g.reg l r := by
  have hdst := dst_add_memRegs_of_issues h hload
  have hregs : memRegs (grdBytes a.i) = grdBytes a.i / 4 := by
    obtain ⟨hlo, hhi⟩ := hload
    unfold memRegs grdBytes
    interval_cases a.i.op.toNat <;> decide
  split
  next hin =>
    obtain ⟨hrun, hlo, hhi⟩ := hin
    obtain ⟨j, rfl⟩ := Nat.exists_eq_add_of_le hlo
    rw [At.grdLoaded, reg_laneWrites _ hdst hrun (by omega), State.grdNat, leNat_range_word _ (by omega), Nat.add_sub_cancel_left]
    simp only [Nat.add_assoc]
  next hout => exact (keepsBeyond_laneWrites _ hdst).2 l r hl hr (by rw [hregs]; by_contra hcon; push Not at hcon; exact hout ⟨hcon.2.2, hcon.1, hcon.2.1⟩)

end Load

/-! ## Stores (R79, R142) -/

/-- The bytes of `v` from `at_` on in a memory. -/
def storeBytes (m : List (Nat × Byte)) (at_ n v : Nat) : List (Nat × Byte) :=
  (List.range n).foldl (fun m j => Sparse.set m 0 (at_ + j) (BitVec.ofNat 8 (v / 2 ^ (8 * j)))) m

theorem get_storeBytes (m : List (Nat × Byte)) (at_ n v x : Nat) : Sparse.get (storeBytes m at_ n v) 0 x =
    if at_ ≤ x ∧ x < at_ + n then BitVec.ofNat 8 (v / 2 ^ (8 * (x - at_))) else Sparse.get m 0 x := by
  unfold storeBytes
  induction n with
  | zero => rw [if_neg (by omega)]; rfl
  | succ n ih =>
    rw [List.range_succ, List.foldl_append, List.foldl_cons, List.foldl_nil]
    by_cases hx : x = at_ + n
    · subst hx
      rw [Sparse.get_set_self, if_pos (by omega), Nat.add_sub_cancel_left]
    · rw [Sparse.get_set_ne _ _ _ _ hx, ih]
      exact if_congr (by omega) rfl rfl

/-- The bytes of a kernel's scratch, where it has one. -/
def State.grdData (s : State) (a : At) : Option (List (Nat × Byte)) :=
  ((s.cluster (a.core / 4)).scratchOf a.b.q a.b.seq).map Scratch.data

/-- A block without a stage group reads the bytes of its kernel's scratch. -/
theorem grdByte_of_grdData {s : State} {a : At} {m : List (Nat × Byte)} (hstage : a.b.stage = none) (h : s.grdData a = some m) (off : Nat) :
    s.grdByte a off = Sparse.get m 0 off := by
  obtain ⟨x, hx, rfl⟩ := Option.map_eq_some_iff.1 h
  rw [State.grdByte, hstage]
  simp only [hx]

theorem grdData_of_used {s : State} {a : At} (hstage : a.b.stage = none) (h : s.grdTarget a ≠ .unused) : ∃ m, s.grdData a = some m := by
  unfold State.grdData
  cases hx : (s.cluster (a.core / 4)).scratchOf a.b.q a.b.seq with
  | some x => exact ⟨x.data, rfl⟩
  | none => exact absurd (by rw [State.grdTarget, hstage]; simp only [hx]) h

/-- From `s` to `u` the bytes of the kernel's scratch change by `f`, and the other clusters, the cores and the registers stay. -/
structure GrdStores (a : At) (f : List (Nat × Byte) → List (Nat × Byte)) (s u : State) : Prop where
  data : u.grdData a = (s.grdData a).map f
  cluster : ∀ k, k ≠ a.core / 4 → u.cluster k = s.cluster k
  cores : u.cores = s.cores
  regs : u.regs = s.regs

section Store
variable {s t u : State} {a : At}

theorem GrdStores.refl (s : State) (a : At) : GrdStores a id s s := ⟨Option.map_id.symm ▸ rfl, fun _ _ => rfl, rfl, rfl⟩

theorem GrdStores.trans {f g : List (Nat × Byte) → List (Nat × Byte)} (h : GrdStores a f s t) (h' : GrdStores a g t u) :
    GrdStores a (g ∘ f) s u :=
  ⟨by rw [h'.data, h.data, Option.map_map], fun k hk => (h'.cluster k hk).trans (h.cluster k hk), h'.cores.trans h.cores, h'.regs.trans h.regs⟩

/-- Stores one after another. -/
theorem GrdStores.foldl {α : Type} {f : α → List (Nat × Byte) → List (Nat × Byte)} {step : State → α → State}
    (h : ∀ s x, GrdStores a (f x) s (step s x)) (xs : List α) (s : State) :
    GrdStores a (fun m => xs.foldl (fun m x => f x m) m) s (xs.foldl step s) := by
  induction xs generalizing s with
  | nil => exact .refl s a
  | cons x xs ih => exact (h s x).trans (ih (step s x))

theorem grdStores_grdSet (hstage : a.b.stage = none) (s : State) (off : Nat) (v : Byte) :
    GrdStores a (fun m => Sparse.set m 0 off v) s (s.grdSet a off v) := by
  have hset : s.grdSet a off v = s.updScratch (a.core / 4) a.b.q a.b.seq (fun x => { x with data := Sparse.set x.data 0 off v }) := by
    rw [State.grdSet, hstage]
  rw [hset]
  refine ⟨?_, fun k hk => cluster_updScratch_ne s _ _ _ hk, rfl, rfl⟩
  rw [State.grdData, scratchOf_updScratch (f := fun x => { x with data := Sparse.set x.data 0 off v }) _ _ _ _ (fun _ => ⟨rfl, rfl⟩),
    State.grdData, Option.map_map, Option.map_map]
  rfl

theorem grdStores_grdWipe (s : State) (off n : Nat) : GrdStores a id s (s.grdWipe (a.core / 4) off n) := by
  have hrest : (s.grdWipe (a.core / 4) off n).cores = s.cores ∧ (s.grdWipe (a.core / 4) off n).regs = s.regs := by
    rcases grdWipe_cases s (a.core / 4) off n with h | h
    · rw [h]; exact ⟨rfl, rfl⟩
    · rw [h]; exact ⟨rfl, rfl⟩
  exact ⟨by rw [State.grdData, scratchOf_grdWipe, State.grdData, Option.map_id, id], fun k hk => cluster_grdWipe_ne s _ _ hk, hrest.1, hrest.2⟩

/-! ### Where a store's bytes lie -/

theorem scratchAt_updScratch (s : State) (k q seq : Nat) {f : Scratch → Scratch}
    (hf : ∀ x, (f x).q = x.q ∧ (f x).seq = x.seq ∧ (f x).rt = x.rt ∧ (f x).base = x.base) :
    (s.updScratch k q seq f).scratchAt k q seq = s.scratchAt k q seq := by
  rw [State.scratchAt, scratchOf_updScratch _ _ _ _ (fun x => ⟨(hf x).1, (hf x).2.1⟩), region_updScratch, State.scratchAt]
  cases (s.cluster k).scratchOf q seq with
  | none => rfl
  | some x => simp only [Option.map_some, hf x]

/-- A byte stored moves no buffer. -/
theorem grdAt_grdSet (s : State) (a : At) (off : Nat) (v : Byte) (at_ : Nat) :
    (s.grdSet a off v).grdAt (a.core / 4) a.b at_ = s.grdAt (a.core / 4) a.b at_ := by
  unfold State.grdSet State.grdAt
  cases a.b.stage with
  | some r =>
    dsimp only
    split
    · rfl
    · rfl
  | none => exact congrArg (· + at_) (scratchAt_updScratch s _ _ _ fun _ => ⟨rfl, rfl, rfl, rfl⟩)

/-- The bytes of `v` stored one after another. -/
def State.grdPut (s : State) (a : At) (at_ n v : Nat) : State :=
  (List.range n).foldl (fun s j => s.grdSet a (at_ + j) (BitVec.ofNat 8 (v / 2 ^ (8 * j)))) s

/-- A lane's store: its bytes, as sound words. -/
def State.grdStore (s : State) (a : At) (at_ n v : Nat) : State :=
  (s.grdPut a at_ n v).grdWipe (a.core / 4) (s.grdAt (a.core / 4) a.b at_) n

theorem grdAt_grdPut (s : State) (a : At) (at_ n v off : Nat) :
    (s.grdPut a at_ n v).grdAt (a.core / 4) a.b off = s.grdAt (a.core / 4) a.b off := by
  unfold State.grdPut
  induction n with
  | zero => rfl
  | succ n ih => rw [List.range_succ, List.foldl_append, List.foldl_cons, List.foldl_nil, grdAt_grdSet, ih]

/-- Whether the places are looked up before or after the bytes are stored is the same. -/
theorem grdStore_eq (s : State) (a : At) (at_ n v : Nat) : s.grdStore a at_ n v =
    (s.grdPut a at_ n v).grdWipe (a.core / 4) ((s.grdPut a at_ n v).grdAt (a.core / 4) a.b at_) n := by
  rw [grdAt_grdPut, State.grdStore]

theorem grdStores_grdStore (hstage : a.b.stage = none) (s : State) (at_ n v : Nat) :
    GrdStores a (fun m => storeBytes m at_ n v) s (s.grdStore a at_ n v) :=
  (GrdStores.foldl (fun s j => grdStores_grdSet hstage s (at_ + j) (BitVec.ofNat 8 (v / 2 ^ (8 * j)))) (List.range n) s).trans
    (grdStores_grdWipe _ _ _)

/-- Bytes outside every store of a list stay. -/
theorem get_foldl_storeBytes_outside {n x : Nat} (at_ v : Nat → Nat) (ls : List Nat) (m : List (Nat × Byte))
    (h : ∀ l ∈ ls, x < at_ l ∨ at_ l + n ≤ x) :
    Sparse.get (ls.foldl (fun m l => storeBytes m (at_ l) n (v l)) m) 0 x = Sparse.get m 0 x := by
  induction ls generalizing m with
  | nil => rfl
  | cons l ls ih =>
    have hl := h l List.mem_cons_self
    rw [List.foldl_cons, ih _ fun l' hl' => h l' (List.mem_cons_of_mem _ hl'), get_storeBytes, if_neg (by omega)]

/-- What a GST leaves of a state, with its lanes' places and values. -/
def State.grdStoreLanes (s : State) (a : At) (at_ v : Nat → Nat) (n : Nat) : State :=
  (a.g.run a.i).foldl (fun s l => s.grdStore a (at_ l) n (v l)) s

/-- A store of a kernel's block changes its scratch alone, and there the bytes of the lanes' spans alone. -/
theorem grdStoreLanes_frame (hstage : a.b.stage = none) (hused : s.grdTarget a ≠ .unused) (at_ v : Nat → Nat) (n : Nat) :
    (s.grdStoreLanes a at_ v n).regs = s.regs ∧ (s.grdStoreLanes a at_ v n).cores = s.cores
      ∧ (∀ k, k ≠ a.core / 4 → (s.grdStoreLanes a at_ v n).cluster k = s.cluster k)
      ∧ (∀ x, (∀ l ∈ a.g.run a.i, x < at_ l ∨ at_ l + n ≤ x) → (s.grdStoreLanes a at_ v n).grdByte a x = s.grdByte a x)
      ∧ ∀ l j, a.g.run a.i = [l] → j < n → (s.grdStoreLanes a at_ v n).grdByte a (at_ l + j) = BitVec.ofNat 8 (v l / 2 ^ (8 * j)) := by
  obtain ⟨m, hm⟩ := grdData_of_used hstage hused
  have hall := GrdStores.foldl (fun s l => grdStores_grdStore hstage s (at_ l) n (v l)) (a.g.run a.i) s
  have hdata : (s.grdStoreLanes a at_ v n).grdData a = some ((a.g.run a.i).foldl (fun m l => storeBytes m (at_ l) n (v l)) m) :=
    hall.data.trans (by rw [hm, Option.map_some])
  refine ⟨hall.regs, hall.cores, hall.cluster, fun x hx => ?_, fun l j hrun hj => ?_⟩
  · rw [grdByte_of_grdData hstage hdata, get_foldl_storeBytes_outside at_ v _ m hx, grdByte_of_grdData hstage hm]
  · rw [grdByte_of_grdData hstage hdata, hrun, List.foldl_cons, List.foldl_nil, get_storeBytes, if_pos (by omega), Nat.add_sub_cancel_left]

theorem gst_of_issues {x : Issue} {s' : State} (h : Issues s x 12 grdForm a s') (hstore : 10 ≤ a.i.op.toNat ∧ a.i.op.toNat ≤ 12) :
    ∃ k, exec (.gst x) s = .next (s'.grdAccess a k) ∧ ∀ t u, k t u =
      u.grdStoreLanes a (a.grdPlace t) (fun l => a.g.many l a.i.srcb.toNat (memRegs (grdBytes a.i))) (grdBytes a.i) := by
  have hmine : (decide (0xA ≤ x.i.op.toNat) && decide (x.i.op.toNat ≤ 0xC)) = true := by
    rw [insn_of_issues h] at hstore
    simpa using hstore
  refine ⟨_, show execGst x s = _ from withInsn_issues _ _ h hmine, fun t u => ?_⟩
  simp only [State.grdStoreLanes, grdStore_eq]
  rfl

end Store

/-! ## Credit instructions (R145, R146, R147, R148) -/

section Credit
variable {s s' : State} {x : Issue} {a : At} {k : Bool → Nat → Nat → Ring → Nat → State → State}
  {inb : Bool} {base size m count : Nat} {r : Ring}

/-- The slot that a credit instruction names. -/
def At.creditSlot (a : At) : Nat := a.g.reg (a.g.lanes.headD 0) a.i.srca.toNat

/-- A release or a post counted on a slot, and the ring advanced. -/
def State.creditDone (s : State) (a : At) (inb : Bool) (m count : Nat) (r : Ring) : State :=
  s.putRing (a.core / 4) a.b.q a.b.seq (a.i.ext.toNat % 16)
    (({ r with counts := Sparse.bump r.counts a.creditSlot 1 } : Ring).advance inb count m)

theorem credit_of_ring (h : s.grdTarget a = .ring inb base size m count r) : s.credit a k = k inb m count r a.creditSlot s := by
  rw [State.credit, h]
  rfl

theorem credit_of_not_ring (h : ∀ inb base size m count r, s.grdTarget a ≠ .ring inb base size m count r) :
    s.credit a k = s.exc a 0x010F a.low 0 := by
  rw [State.credit]
  split
  next hring => exact absurd hring (h _ _ _ _ _ _)
  next => rfl

theorem creditAdd_eq (s : State) (a : At) (inb : Bool) (m count : Nat) (r : Ring) : s.creditAdd a inb m count r a.creditSlot =
    if r.usable inb m a.creditSlot = true then s.creditDone a inb m count r else s.exc a 0x0110 a.low 0 := by
  cases hu : r.usable inb m a.creditSlot with
  | true => simp only [State.creditAdd, hu]; rfl
  | false => simp only [State.creditAdd, hu]; rfl

theorem not_gone_of_usable {n sl : Nat} (h : r.usable inb n sl = true) : r.gone inb sl = false := by
  rw [Ring.usable, Bool.and_eq_true, Bool.not_eq_true'] at h
  exact h.2

/-- A counter whose slot is not complete stays. -/
theorem advance_of_incomplete (r : Ring) (inb : Bool) (count m : Nat) (h : Sparse.get r.counts 0 (if inb then r.free else r.fill) < count) :
    r.advance inb count m = r := by
  cases m with
  | zero => rfl
  | succ m => rw [Ring.advance, if_pos h]

variable (h : Issues s x 12 grdForm a s')
include h

theorem mine_of_op {n : BitVec 8} (hop : a.i.op = n) : (x.i.op.toNat == n.toNat) = true := by
  rw [← hop, insn_of_issues h, beq_self_eq_true]

theorem cwait_of_issues (hop : a.i.op = 16) : exec (.cwait x) s = .next (s'.credit a (fun inb m _ r sl s =>
    if r.gone inb sl then s.exc a 0x0110 a.low 0 else if r.usable inb m sl then s
    else s.putAt a { a.g with wait := .credit (a.i.ext.toNat % 16) sl })) :=
  show execCwait x s = _ from withInsn_issues _ _ h (mine_of_op h hop)

theorem crel_of_issues (hop : a.i.op = 17) : exec (.crel x) s = .next (s'.credit a (fun inb m count r sl s =>
    if inb then s.creditAdd a true m count r sl else s.exc a 0x0110 a.low 0)) :=
  show execCrel x s = _ from withInsn_issues _ _ h (mine_of_op h hop)

theorem cpost_of_issues (hop : a.i.op = 18) : exec (.cpost x) s = .next (s'.credit a (fun inb m count r sl s =>
    if inb then s.exc a 0x010F a.low 0 else s.creditAdd a false m count r sl)) :=
  show execCpost x s = _ from withInsn_issues _ _ h (mine_of_op h hop)

theorem cqry_of_issues (hop : a.i.op = 19) :
    exec (.cqry x) s = .next (s'.credit a (fun _ _ _ r _ s => s.putAt a (a.write false (fun _ => r.fill)))) :=
  show execCqry x s = _ from withInsn_issues _ _ h (mine_of_op h hop)

theorem cwait_of_ring (ht : s'.grdTarget a = .ring inb base size m count r) (hop : a.i.op = 16) :
    (r.gone inb a.creditSlot = true → exec (.cwait x) s = .next (s'.exc a 0x0110 a.low 0))
      ∧ (r.usable inb m a.creditSlot = true → exec (.cwait x) s = .next s')
      ∧ (r.gone inb a.creditSlot = false → r.usable inb m a.creditSlot = false →
        exec (.cwait x) s = .next (s'.putAt a { a.g with wait := .credit (a.i.ext.toNat % 16) a.creditSlot })) := by
  rw [cwait_of_issues h hop, credit_of_ring ht]
  exact ⟨fun hg => by rw [if_pos hg], fun hu => by simp only [not_gone_of_usable hu, hu]; rfl, fun hg hu => by simp only [hg, hu]; rfl⟩

theorem crel_of_ring (ht : s'.grdTarget a = .ring inb base size m count r) (hop : a.i.op = 17) : exec (.crel x) s = .next
    (if inb = true ∧ r.usable true m a.creditSlot = true then s'.creditDone a inb m count r else s'.exc a 0x0110 a.low 0) := by
  rw [crel_of_issues h hop, credit_of_ring ht]
  cases inb with
  | true => rw [if_pos rfl, creditAdd_eq]; simp only [true_and]
  | false => rw [if_neg Bool.false_ne_true, if_neg fun hin => Bool.false_ne_true hin.1]

theorem cpost_of_ring (ht : s'.grdTarget a = .ring inb base size m count r) (hop : a.i.op = 18) : exec (.cpost x) s = .next
    (if inb = true then s'.exc a 0x010F a.low 0
      else if r.usable false m a.creditSlot = true then s'.creditDone a inb m count r else s'.exc a 0x0110 a.low 0) := by
  rw [cpost_of_issues h hop, credit_of_ring ht]
  cases inb with
  | true => rw [if_pos rfl, if_pos rfl]
  | false => rw [if_neg Bool.false_ne_true, if_neg Bool.false_ne_true, creditAdd_eq]

theorem cqry_of_ring (ht : s'.grdTarget a = .ring inb base size m count r) (hop : a.i.op = 19) :
    ∃ g, exec (.cqry x) s = .next (s'.putAt a g) ∧ Writes a false (fun _ => r.fill) g :=
  ⟨_, by rw [cqry_of_issues h hop, credit_of_ring ht], writes_write a _ Bool.noConfusion⟩

/-- On a buffer that is no ring each raises GRIDDLE_RANGE. -/
theorem credit_exc_of_not_ring (ht : ∀ inb base size m count r, s'.grdTarget a ≠ .ring inb base size m count r) :
    (a.i.op = 16 → exec (.cwait x) s = .next (s'.exc a 0x010F a.low 0)) ∧ (a.i.op = 17 → exec (.crel x) s = .next (s'.exc a 0x010F a.low 0))
      ∧ (a.i.op = 18 → exec (.cpost x) s = .next (s'.exc a 0x010F a.low 0))
      ∧ (a.i.op = 19 → exec (.cqry x) s = .next (s'.exc a 0x010F a.low 0)) :=
  ⟨fun hop => by rw [cwait_of_issues h hop, credit_of_not_ring ht], fun hop => by rw [crel_of_issues h hop, credit_of_not_ring ht],
    fun hop => by rw [cpost_of_issues h hop, credit_of_not_ring ht], fun hop => by rw [cqry_of_issues h hop, credit_of_not_ring ht]⟩

end Credit

/-! ## O35 -/

/-- The bit errors that a load brings have arisen before it (log entry 10). -/
theorem exec_gld_of_ariseAll {s u : State} {es : List Upset} (x : Issue) (h : u.ariseAll es = s) : exec (.gld x es) u = exec (.gld x []) s := by
  subst h
  rfl

/-- Settles O35: each access either stops at its lowest failing lane or has its effect, which the lemmas above give for a load, a store
and the credit instructions of a ring. -/
theorem griddleAccesses : Obligations.GriddleAccesses := by
  intro s s' x a h n low sl t at_ inside fits load store Faults
  refine ⟨fun hload => ?_, fun hstore => ?_, fun u es hu => exec_gld_of_ariseAll x hu, fun hload hused hfits => ?_,
    fun hstore hused hfits => ?_, fun inb base size m count r ht => ?_, credit_exc_of_not_ring h⟩
  · obtain ⟨k, hexec, -⟩ := gld_of_issues h hload
    exact exec_of_grdFault hexec
  · obtain ⟨k, hexec, -⟩ := gst_of_issues h hstore
    exact exec_of_grdFault hexec
  · obtain ⟨k, hexec, hbad, hgood⟩ := gld_of_issues h hload
    have heffect := exec_of_grdFits hexec hused hfits
    refine ⟨fun s2 hs2 => heffect.trans (congrArg _ (hbad t s' s2 hs2)), fun s2 hs2 => ⟨a.grdLoaded t s2, ?_, ?_, ?_⟩⟩
    · exact heffect.trans (congrArg _ (hgood t s' s2 hs2))
    · exact (keepsBeyond_laneWrites _ (dst_add_memRegs_of_issues h hload)).1
    · exact fun l r hl hr => reg_grdLoaded h hload t s2 hl hr
  · obtain ⟨k, hexec, heffect⟩ := gst_of_issues h hstore
    have hstored := (exec_of_grdFits hexec hused hfits).trans (congrArg _ (heffect t s'))
    exact ⟨hstored, fun hstage => ⟨_, hstored, grdStoreLanes_frame hstage hused _ _ _⟩⟩
  · exact ⟨fun hop => (cwait_of_ring h ht hop).1, fun hop => (cwait_of_ring h ht hop).2.1, fun hop => (cwait_of_ring h ht hop).2.2,
      crel_of_ring h ht, cpost_of_ring h ht, cqry_of_ring h ht,
      fun _ _ hcount => by rw [advance_of_incomplete r inb count m hcount]; exact ⟨rfl, rfl⟩⟩

end Sys2Proof.Machine
end

section
/-! PROOFS. Graphics packets (O44): passes, the packets inside them, and the sequencer's maintenance units. -/

namespace Sys2Proof.Machine

section GraphicsPackets
variable {s s' s1 : State} {p : Pkt} {u : Queue} {ptr op : Nat}

/-! ## Pass begin (R175, R219, R221) -/

/-- A new pass joins those of the graphics units, and unless it is refused its unit joins the sequencer. -/
def State.joinPass (s : State) (u : Queue) (q n : Nat) (d : List Nat) (code : Nat) : State :=
  { s with gfx := { s.gfx with
    passes := s.gfx.passes ++ [newPass u q n d code],
    units := if code = 0 then s.gfx.units ++ [(⟨q, n, u.ctx, u.rt, 0x40, [], passSlots d⟩ : GfxUnit)] else s.gfx.units } }

/-- A pass takes its queue's context and its kind, which a refusal leaves. -/
theorem joinPass_refuse (s : State) (u : Queue) (ptr st q n : Nat) (d : List Nat) (code : Nat) :
    s.joinPass (if code = 0 then u else u.refuse ptr st) q n d code = s.joinPass u q n d code := by
  split <;> rfl

/-- A queue that is inside pass `n` from here on. -/
def State.enterPass (s : State) (q n : Nat) : State := match s.queue q with
  | some u => s.setQueue q { u with pass := some n }
  | none => s

theorem enterPass_of_queue {q n : Nat} (h : s.queue q = some u) : s.enterPass q n = s.setQueue q { u with pass := some n } := by
  rw [State.enterPass, h]

/-- Inside a pass the packet refuses that pass; outside one it adds its unit whether or not the descriptor's check gives a code. -/
theorem gfxPassBegin_of_runs (hroom : RoomForUnit s p.q.val) (h : PktRuns s p 0x40 u ptr s') (hring : u.inProgram = false) :
    (∀ n, u.pass = some n → exec (.gfxPassBegin p) s = .next ((s'.passRefuse p.q.val u ptr 0x1F).endStream p.q.val))
      ∧ (∀ bs s1, u.pass = none → s'.vread .command u.ctx (pd p 0) 640 cpClass false false = (.ok bs none, s1) →
        let q := p.q.val
        let d := (List.range 160).map (fun i => wordAt bs (4 * i))
        let code := if pd p 0 % 64 ≠ 0 then 0x1F else s1.passCode u.ctx d
        let a := s1.addUnit q (if code = 0 then u else u.refuse ptr (256 + code)) ptr (pktOrder p) true (.pass 0)
        exec (.gfxPassBegin p) s = .next ((((a.2.joinPass u q a.1 d code).enterPass q a.1).a1Exit.gfxPump).endStream q)) := by
  obtain ⟨u0, hqueue, hlt⟩ := hroom
  have hexec : exec (.gfxPassBegin p) s = execGfxPassBegin p s := rfl
  unfold execGfxPassBegin at hexec
  -- The address becomes opaque: comparing terms, the kernel would unfold its product with 2 ^ 32 step by step.
  obtain ⟨va, hva⟩ : ∃ va, pd p 0 = va := ⟨_, rfl⟩
  rw [hva] at hexec ⊢
  extract_lets q addr at hexec
  rw [hqueue] at hexec
  have hrun := hexec.trans ((if_neg (Nat.not_le.mpr hlt)).trans (withPkt_runs _ _ h rfl))
  rw [hring] at hrun
  refine ⟨fun n hpass => ?_, fun bs s1 hpass hread => ?_⟩
  · rw [hrun, hpass]
    rfl
  · intro q d code a
    replace hread : s'.vread .command u.ctx addr 640 cpClass false false = (.ok bs none, s1) := hread
    rw [hrun, hpass, hread, ← joinPass_refuse _ u ptr (256 + code)]
    rfl

/-! ## A packet inside a pass, outside one and in a refused one (R175, R221) -/

/-- A packet that a refused pass passes over only moves its queue. -/
theorem withPkt_of_passed (k : Queue → Nat → State → State) (h : PktPassed s p op u s') :
    s.withPkt p op true k = .next ((s'.setQueue p.q.val u).endStream p.q.val) := by
  obtain ⟨u0, hqueue, hready, hhdr, hop, horder, hfetch, hskip, hend, rfl⟩ := h
  have hheld : (pktOrder p && !(0x41 ≤ op && op ≤ 0x44) && !(s.settleQ p.q.val).skipping p.q.val u0 && !u0.earlierComplete) = false := by
    rcases horder with ho | ho | ho <;> simp [ho]
  unfold State.withPkt
  simp only [hqueue]
  rw [if_neg (by simp [hready, hop]), if_neg (by rw [hheld]; decide)]
  simp [hfetch, hhdr, hskip, hend]

theorem inPass_of_passed (k : GfxPass → Queue → Nat → State → State) (h : PktPassed s p op u s') :
    s.inPass p op k = .next ((s'.setQueue p.q.val u).endStream p.q.val) :=
  withPkt_of_passed _ h

theorem inPass_of_outside (k : GfxPass → Queue → Nat → State → State) (h : PktRuns s p op u ptr s')
    (hring : u.inProgram = false) (hpass : u.pass = none) : s.inPass p op k = .next (s'.refuseCtrl p.q.val u ptr 0x1F) := by
  rw [State.inPass, withPkt_runs _ _ h rfl]
  simp [hring, hpass]

theorem inPass_of_open {n : Nat} {g : GfxPass} (k : GfxPass → Queue → Nat → State → State) (hring : u.inProgram = false)
    (hpass : u.pass = some n) (hat : s'.passAt p.q.val n = some g) (h : PktRuns s p op u ptr s') :
    s.inPass p op k = .next ((k g u ptr (s'.setQueue p.q.val u)).endStream p.q.val) := by
  rw [State.inPass, withPkt_runs _ _ h rfl]
  simp [hring, hpass, hat]

/-! ## Draws (R184) -/

/-- The draws that rows of five words give under a state block. -/
def drawsOf (st : List Nat) (index size : Nat) (ds : List (List Nat)) : List GfxDraw :=
  ds.map (fun d => ⟨st, d.getD 0 0, d.getD 1 0, d.getD 2 0, d.getD 3 0, d.getD 4 0, index, size⟩)

section AddDraws
variable {q index size : Nat} {g : GfxPass} {ds : List (List Nat)} {st : List Nat}

theorem addDraws_of_stateless (hcur : g.cur = none) : s.addDraws q u ptr g index size ds = s.passRefuse q u ptr 0x1F := by
  rw [State.addDraws, hcur]

theorem addDraws_of_unindexed (hcur : g.cur = some st) (hindex : index ≠ 0) (htype : stFld st 0x80 11 10 = 0) :
    s.addDraws q u ptr g index size ds = s.passRefuse q u ptr 0x1F := by
  rw [State.addDraws, hcur]
  exact if_pos ⟨hindex, htype⟩

theorem addDraws_of_state (hcur : g.cur = some st) (hok : index = 0 ∨ stFld st 0x80 11 10 ≠ 0) :
    s.addDraws q u ptr g index size ds = (s.setPass { g with draws := g.draws ++ drawsOf st index size ds }).gfxPump := by
  rw [State.addDraws, hcur]
  exact if_neg fun hbad => hok.elim hbad.1 fun htype => htype hbad.2

end AddDraws

/-- A fold that answers a list has added one entry for each step, as no step goes on after an answer of none. -/
theorem length_of_foldl_some {α σ ι : Type} {f : Option (List α) × σ → ι → Option (List α) × σ}
    (hstep : ∀ x i l', (f x i).1 = some l' → ∃ l, x.1 = some l ∧ l'.length = l.length + 1) :
    ∀ (is : List ι) (x : Option (List α) × σ) (l' : List α), (is.foldl f x).1 = some l' →
      ∃ l, x.1 = some l ∧ l'.length = l.length + is.length
  | [], _, l', h => ⟨l', h, rfl⟩
  | i :: is, x, l', h => by
    obtain ⟨l1, hl1, hlen1⟩ := length_of_foldl_some hstep is (f x i) l' h
    obtain ⟨l, hl, hlen⟩ := hstep x i l1 hl1
    exact ⟨l, hl, by rw [hlen1, hlen, List.length_cons]; omega⟩

/-- The table of an indirect draw holds as many draws as the packet says. -/
theorem length_drawTable {c : Nat} {unit : Nat × Nat} {ds : List (List Nat)} (h : s.drawTable c p unit = (some ds, s1)) :
    ds.length = pw p 2 := by
  unfold State.drawTable at h
  -- The table's address becomes opaque, as in `gfxPassBegin_of_runs`.
  obtain ⟨va, hva⟩ : ∃ va, pd p 0 = va := ⟨_, rfl⟩
  rw [hva] at h
  refine (length_of_foldl_some (fun x i l' hx => ?_) _ _ ds (congrArg Prod.fst h)).elim fun l ⟨hl, hlen⟩ => ?_
  · obtain ⟨r, t⟩ := x
    cases r with
    | none => cases hx
    | some l =>
      refine ⟨l, rfl, ?_⟩
      dsimp only at hx
      split at hx
      · cases hx
      · cases hx
        simp
  · cases hl
    simpa using hlen

/-! ## The packets inside an open pass -/

section OpenPass
variable {n : Nat} {g : GfxPass} (hring : u.inProgram = false) (hpass : u.pass = some n) (hat : s'.passAt p.q.val n = some g)
include hring hpass hat

theorem gfxState_of_misaligned (h : PktRuns s p 0x41 u ptr s') (ha : pd p 0 % 64 ≠ 0) :
    exec (.gfxState p) s = .next (((s'.setQueue p.q.val u).passRefuse p.q.val u ptr 0x1F).endStream p.q.val) := by
  show execGfxState p s = _
  rw [execGfxState, inPass_of_open _ hring hpass hat h]
  extract_lets a
  rw [if_pos ha]

theorem gfxState_of_read {bs : List Byte} (h : PktRuns s p 0x41 u ptr s') (ha : pd p 0 % 64 = 0)
    (hread : (s'.setQueue p.q.val u).vread .command u.ctx (pd p 0) 256 cpClass false false = (.ok bs none, s1)) :
    let st := (List.range 64).map (fun i => wordAt bs (4 * i))
    exec (.gfxState p) s = .next
      ((if stateBad g.desc st then s1.passRefuse p.q.val u ptr 0x1F else s1.setPass { g with cur := some st }).endStream p.q.val) := by
  show execGfxState p s = _
  rw [execGfxState, inPass_of_open _ hring hpass hat h]
  extract_lets a
  replace hread : (s'.setQueue p.q.val u).vread .command u.ctx a 256 cpClass false false = (.ok bs none, s1) := hread
  rw [if_neg (not_not.mpr ha), hread]

theorem gfxDraw_of_open (h : PktRuns s p 0x42 u ptr s') : exec (.gfxDraw p) s = .next (((s'.setQueue p.q.val u).addDraws p.q.val u ptr g
    (pd p 5) (pw p 7) [[pw p 0, pw p 1, pw p 2, pw p 3, pw p 4]]).endStream p.q.val) :=
  show execGfxDraw p s = _ from inPass_of_open _ hring hpass hat h

theorem gfxDrawIndirect_of_bad (h : PktRuns s p 0x43 u ptr s')
    (hbad : pw p 2 = 0 ∨ 4096 < pw p 2 ∨ pw p 3 < 20 ∨ pw p 3 % 4 ≠ 0) :
    exec (.gfxDrawIndirect p) s = .next (((s'.setQueue p.q.val u).passRefuse p.q.val u ptr 0x1F).endStream p.q.val) := by
  show execGfxDrawIndirect p s = _
  rw [execGfxDrawIndirect, inPass_of_open _ hring hpass hat h]
  extract_lets n stride
  rw [if_pos hbad]

theorem gfxDrawIndirect_of_table (h : PktRuns s p 0x43 u ptr s')
    (hok : ¬(pw p 2 = 0 ∨ 4096 < pw p 2 ∨ pw p 3 < 20 ∨ pw p 3 % 4 ≠ 0)) :
    ((s'.setQueue p.q.val u).drawTable u.ctx p (p.q.val, g.seq) = (none, s1) → exec (.gfxDrawIndirect p) s = .next (s1.endStream p.q.val))
      ∧ (∀ ds, (s'.setQueue p.q.val u).drawTable u.ctx p (p.q.val, g.seq) = (some ds, s1) →
        exec (.gfxDrawIndirect p) s = .next ((s1.addDraws p.q.val u ptr g (pd p 4) (pw p 6) ds).endStream p.q.val)) := by
  have hrun : exec (.gfxDrawIndirect p) s = _ := (show execGfxDrawIndirect p s = _ from inPass_of_open _ hring hpass hat h)
  extract_lets n stride at hrun
  rw [hrun, if_neg hok]
  exact ⟨fun htable => by rw [htable], fun ds htable => by rw [htable]⟩

theorem gfxPassEnd_of_open (h : PktRuns s p 0x44 u ptr s') :
    let q := p.q.val
    let s2 := (s'.setQueue q u).setQueue q { u with pass := none }
    let s3 := if u.stream.isNone then s2.updUnit q g.seq (fun w => { w with endPtr := u.fetch }) else s2
    (g.code = 0 → exec (.gfxPassEnd p) s = .next (((s3.setPass { g with ended := true }).gfxPump).endStream q))
      ∧ (g.code ≠ 0 → let s4 := s3.gfxPump
        exec (.gfxPassEnd p) s = .next ((((({ s4 with gfx := { s4.gfx with
          passes := s4.gfx.passes.filter (fun x => !(x.q == q && x.seq == g.seq)) } } : State)).completeUnit q g.seq 1 g.code).updStatus q).endStream q)) := by
  intro q s2 s3
  have hrun : exec (.gfxPassEnd p) s = _ := (show execGfxPassEnd p s = _ from inPass_of_open _ hring hpass hat h)
  refine ⟨fun hcode => ?_, fun hcode => ?_⟩
  · rw [hrun, if_neg (not_not.mpr hcode)]
  · rw [hrun, if_pos hcode]

end OpenPass

/-! ## Maintenance units (R211, R216, R218) -/

/-- What a maintenance packet that runs does: its unit waits for the sequencer, or completes refused with its check's code. -/
def State.maintPacket (s : State) (p : Pkt) (u : Queue) (ptr op code : Nat) (slots : List Nat) : State :=
  if code ≠ 0 then s.refuseUnit p.q.val u ptr code (pktOrder p) (.maint op p.body)
  else
    let a := s.addUnit p.q.val u ptr (pktOrder p) true (.maint op p.body)
    (({ a.2 with gfx := { a.2.gfx with
      units := a.2.gfx.units ++ [(⟨p.q.val, a.1, u.ctx, u.rt, op, p.body.map BitVec.toNat, slots⟩ : GfxUnit)] } }).a1Exit.gfxPump).endStream p.q.val

theorem gfxMaint_of_runs {sel : Bool} (code : Nat) (slots : List Nat) (hroom : RoomForUnit s p.q.val) (h : PktRuns s p op u ptr s')
    (hsel : sel = true) : s.gfxMaint p op sel code slots = .next (s'.maintPacket p u ptr op code slots) :=
  withUnit_runs _ _ _ _ _ h hsel hroom

theorem gfxTrack_of_runs (hroom : RoomForUnit s p.q.val) (h : PktRuns s p 0x45 u ptr s') :
    let after := s'.maintPacket p u ptr 0x45 0 [bits (pw p 0) 5 4]
    (bits (pw p 0) 1 0 = 0 ∨ bits (pw p 0) 1 0 = 3 → exec (.gfxTrackClaim p) s = .next after)
      ∧ (bits (pw p 0) 1 0 = 1 → exec (.gfxTrackInvalidate p) s = .next after)
      ∧ (bits (pw p 0) 1 0 = 2 → exec (.gfxTrackRelease p) s = .next after) :=
  ⟨fun hop => gfxMaint_of_runs 0 _ hroom h (by rcases hop with hop | hop <;> simp [hop]),
    fun hop => gfxMaint_of_runs 0 _ hroom h (by simp [hop]), fun hop => gfxMaint_of_runs 0 _ hroom h (by simp [hop])⟩

/-- A check of a surface goes from its size to its layout, so that a size of 0 gives 0x18 whatever else is wrong. -/
theorem signCode_of_empty (s : State) (h : bits (pw p 1) 15 0 = 0 ∨ bits (pw p 1) 31 16 = 0) : s.signCode p = 0x18 :=
  if_pos (h.imp_right .inl)

theorem bounds_of_signCode_zero (h : s.signCode p = 0) :
    pd p 8 % 64 = 0 ∧ bits (pw p 1) 15 0 ≤ 16384 ∧ bits (pw p 1) 31 16 ≤ 16384 := by
  unfold State.signCode at h
  extract_lets w ht planes bpp row at h
  split at h
  · cases h
  next hsize =>
  split at h
  · cases h
  split at h
  · cases h
  split at h
  · cases h
  next haddr => exact ⟨not_not.mp haddr, by omega, by omega⟩

theorem resolveCode_of_empty (h : bits (pw p 4) 15 0 = 0 ∨ bits (pw p 4) 31 16 = 0) : resolveCode p = 0x18 :=
  if_pos (h.imp_right .inl)

theorem bounds_of_resolveCode_zero (h : resolveCode p = 0) :
    pd p 5 ≠ 0 ∧ pd p 5 % 16 = 0 ∧ bits (pw p 4) 15 0 ≤ 16384 ∧ bits (pw p 4) 31 16 ≤ 16384 := by
  unfold resolveCode at h
  extract_lets w ht f b layout at h
  split at h
  · cases h
  next hsize =>
  split at h
  · cases h
  split at h
  · cases h
  next haddr => exact ⟨by omega, by omega, by omega, by omega⟩

end GraphicsPackets

/-! ## O44 -/

/-- Settles O44, packet by packet: a pass's begin, the packets inside it, outside any and passed over, and the maintenance units. -/
theorem graphicsPackets : Obligations.GraphicsPackets := by
  intro s s' s1 p u ptr q
  refine ⟨fun bs hroom h hring hpass hread w hw => ?_, fun n d code => ⟨rfl, rfl, rfl⟩,
    fun n hroom h hring hpass => (gfxPassBegin_of_runs hroom h hring).1 n hpass, fun n g hring hpass hat => ?_,
    fun hring hpass => ⟨fun h => show execGfxState p s = _ from inPass_of_outside _ h hring hpass,
      fun h => show execGfxDraw p s = _ from inPass_of_outside _ h hring hpass,
      fun h => show execGfxDrawIndirect p s = _ from inPass_of_outside _ h hring hpass,
      fun h => show execGfxPassEnd p s = _ from inPass_of_outside _ h hring hpass⟩,
    ⟨fun h => show execGfxState p s = _ from inPass_of_passed _ h, fun h => show execGfxDraw p s = _ from inPass_of_passed _ h,
      fun h => show execGfxDrawIndirect p s = _ from inPass_of_passed _ h⟩,
    fun hroom _ => ⟨gfxTrack_of_runs hroom,
      fun h => ⟨gfxMaint_of_runs _ _ hroom h rfl, signCode_of_empty s, bounds_of_signCode_zero⟩,
      fun h => ⟨gfxMaint_of_runs _ _ hroom h rfl, resolveCode_of_empty, bounds_of_resolveCode_zero⟩⟩⟩
  · exact ((gfxPassBegin_of_runs hroom h hring).2 bs s1 hpass hread).trans
      (congrArg (fun t : State => Host.Outcome.next ((t.a1Exit.gfxPump).endStream q)) (enterPass_of_queue hw))
  · refine ⟨fun bs h ha hread => ?_, gfxState_of_misaligned hring hpass hat, fun h => ?_, gfxDrawIndirect_of_bad hring hpass hat,
      fun h hn hmax hstride halign => ?_, gfxPassEnd_of_open hring hpass hat⟩
    · have hstate := gfxState_of_read hring hpass hat h ha hread
      exact ⟨fun hgood => by rw [hstate, hgood]; rfl, fun hbad => by rw [hstate, hbad]; rfl⟩
    · have hdraw := gfxDraw_of_open hring hpass hat h
      exact ⟨fun st hcur hok => by rw [hdraw, addDraws_of_state hcur hok]; rfl,
        fun st hcur hindex htype => by rw [hdraw, addDraws_of_unindexed hcur hindex htype],
        fun hcur => by rw [hdraw, addDraws_of_stateless hcur]⟩
    · obtain ⟨hfault, htable⟩ := gfxDrawIndirect_of_table (s1 := s1) hring hpass hat h (by omega)
      refine ⟨hfault, fun ds hds => ⟨length_drawTable hds, fun st hcur hok => ?_, fun hbad => ?_⟩⟩
      · rw [htable ds hds, addDraws_of_state hcur hok]
        rfl
      · rw [htable ds hds]
        obtain hcur | ⟨st, hcur, hindex, htype⟩ := hbad
        · rw [addDraws_of_stateless hcur]
        · rw [addDraws_of_unindexed hcur hindex htype]

end Sys2Proof.Machine
end

section
/-! PROOFS. Flow commands (O9): what a start, a stop, an update and a clearing of the statistics answer and leave (R229 to R231,
R255). -/

namespace Sys2Proof.Machine

/-! ## STATE and the completion of a command (R255) -/

@[simp] theorem setFfState_flow (s : State) (n : Nat) : (s.setFfState n).flow = s.flow := State.setFld_flow ..
@[simp] theorem setFfState_active (s : State) (n : Nat) : (s.setFfState n).active = s.active := State.setFld_active ..

theorem ffState_setFfState (s : State) (n : Nat) : (s.setFfState n).ffState = n % 8 :=
  s.fld_setFld_self _ n (by decide) (by decide)

theorem reg_setFfState_ne (s : State) (n : Nat) {a : Nat} (h : a ≠ Reg.WSK_FF_STATUS) : (s.setFfState n).reg a = s.reg a :=
  s.reg_setFld_ne _ _ _ h

@[simp] theorem ffDone_flow (s : State) (code : Nat) : (s.ffDone code).flow = s.flow := by
  rw [State.ffDone, State.setFld_flow, State.setFlag_flow]

@[simp] theorem ffDone_active (s : State) (code : Nat) : (s.ffDone code).active = s.active := by
  rw [State.ffDone, State.setFld_active, State.setFlag_active]

theorem reg_ffDone_ne (s : State) (code : Nat) {a : Nat} (h : a ≠ Reg.WSK_FF_STATUS) : (s.ffDone code).reg a = s.reg a := by
  rw [State.ffDone, State.reg_setFld_ne _ _ _ _ h, State.reg_setFlag_ne _ _ h]

/-- REASON holds the code of the command that has completed. -/
theorem reason_ffDone (s : State) (code : Nat) : (s.ffDone code).fld Reg.WSK_FF_STATUS 15 8 = code % 256 :=
  State.fld_setFld_self _ _ code (by decide) (by decide)

theorem done_ffDone (s : State) (code : Nat) : (s.ffDone code).flag Reg.WSK_FF_STATUS 1 = true := by
  rw [State.flag, State.ffDone, State.fld_setFld_apart _ _ _ (by decide) (by decide) (by decide)]
  exact s.flag_setFlag_self _ (by decide)

/-- A command's completion leaves STATE alone. -/
theorem ffState_ffDone (s : State) (code : Nat) : (s.ffDone code).ffState = s.ffState := by
  rw [State.ffState, State.ffDone, State.fld_setFld_apart _ _ _ (by decide) (by decide) (by decide), State.setFlag,
    State.fld_setFld_apart _ _ _ (by decide) (by decide) (by decide), State.ffState]

/-! ## Start, stop and update (R229 to R231) -/

theorem ffStart_of_flowCheck {s s' : State} {code : Nat} {d : FlowDesc} (hrun : s.dispRuns = true)
    (h : (s.setReg Reg.WSK_FF_CMD 2).flowCheck s.ffDesc 1 = (code, d, s')) :
    exec .ffStart s = .next (if code ≠ 0 then s'.ffDone code else (s'.flowBegin d none).ffDone 0) := by
  change execFfStart s = _
  rw [execFfStart, hrun, State.flowStart, h]
  rfl

theorem ffStop_of_no_flow {s : State} (hrun : s.dispRuns = true) (h : s.flow = none) :
    exec .ffStop s = .next ((s.setReg Reg.WSK_FF_CMD 4).ffDone 0x3F) := by
  change execFfStop s = _
  simp [execFfStop, hrun, h]

/-- The flow is changed, stops at the next fetch deadline, and the command that asked for it has completed. -/
def State.ffStopping (s : State) (f : Flow → Flow) : State := ((s.updFlow f).setFfState 5).ffDone 0

theorem ffStopping_flow {s : State} {fl : Flow} (f : Flow → Flow) (h : s.flow = some fl) : (s.ffStopping f).flow = some (f fl) := by
  rw [State.ffStopping, ffDone_flow, setFfState_flow, State.updFlow, h, Option.map_some]

theorem ffStopping_active (s : State) (f : Flow → Flow) : (s.ffStopping f).active = s.active := by
  rw [State.ffStopping, ffDone_active, setFfState_active, State.updFlow_active]

/-- STATE reads stopping. -/
theorem ffState_ffStopping (s : State) (f : Flow → Flow) : (s.ffStopping f).ffState = 5 := by
  rw [State.ffStopping, ffState_ffDone, ffState_setFfState]

theorem reg_ffStopping_ne (s : State) (f : Flow → Flow) {a : Nat} (h : a ≠ Reg.WSK_FF_STATUS) :
    (s.ffStopping f).reg a = s.reg a := by
  rw [State.ffStopping, reg_ffDone_ne _ _ h, reg_setFfState_ne _ _ h]
  rfl

theorem ffStop_of_flow {s : State} {fl : Flow} (hrun : s.dispRuns = true) (h : s.flow = some fl) :
    exec .ffStop s = .next ((s.setReg Reg.WSK_FF_CMD 4).ffStopping (fun fl =>
      { fl with stopAtNext := !fl.draining, next := none, repeatOld := if fl.draining then none else fl.repeatOld })) := by
  change execFfStop s = _
  simp [execFfStop, State.ffStopping, hrun, h]

theorem ffUpdate_of_flowCheck {s s' : State} {code : Nat} {d : FlowDesc} (hrun : s.dispRuns = true)
    (h : (s.setReg Reg.WSK_FF_CMD 6).flowCheck (s.setReg Reg.WSK_FF_CMD 6).ffDesc 3 = (code, d, s')) :
    exec .ffUpdate s = .next (if code ≠ 0 then s'.ffDone code
      else s'.ffStopping (fun fl => { fl with stopAtNext := !fl.draining, next := some d })) := by
  change execFfUpdate s = _
  rw [execFfUpdate, hrun, if_neg (by decide)]
  extract_lets s1
  rw [show s1.flowCheck s1.ffDesc 3 = _ from h]
  exact (apply_ite Host.Outcome.next ..).symm

/-! ## The statistics (R255) -/

/-- The first `k` counters written with 0. -/
def State.clearStats (s : State) (k : Nat) : State := (List.range k).foldl (fun s n => s.setReg (Reg.WSK_FF_STAT n) 0) s

theorem clearStats_succ (s : State) (k : Nat) : s.clearStats (k + 1) = (s.clearStats k).setReg (Reg.WSK_FF_STAT k) 0 := by
  simp [State.clearStats, List.range_succ]

theorem clearStats_flow (s : State) (k : Nat) : (s.clearStats k).flow = s.flow := by
  induction k with
  | zero => rfl
  | succ k ih => rw [clearStats_succ, State.setReg_flow, ih]

theorem ffStatReg_inj {m n : Nat} : Reg.WSK_FF_STAT m = Reg.WSK_FF_STAT n ↔ m = n := by
  simp [Reg.WSK_FF_STAT]

theorem ffStatReg_ne_status (n : Nat) : Reg.WSK_FF_STAT n ≠ Reg.WSK_FF_STATUS := by
  unfold Reg.WSK_FF_STAT Reg.WSK_FF_STATUS
  omega

theorem reg_clearStats {n k : Nat} (s : State) (h : n < k) : (s.clearStats k).reg (Reg.WSK_FF_STAT n) = 0 := by
  induction k with
  | zero => omega
  | succ k ih =>
    rw [clearStats_succ]
    by_cases hn : n = k
    · rw [hn, State.reg_setReg_self]
    · rw [State.reg_setReg_ne _ _ (mt ffStatReg_inj.1 hn), ih (by omega)]

theorem ffClearStats_eq {s : State} (hrun : s.dispRuns = true) :
    exec .ffClearStats s = .next (((s.setReg Reg.WSK_FF_CMD 8).clearStats 8).ffDone 0) := by
  change execFfClearStats s = _
  rw [execFfClearStats, hrun]
  rfl

/-! ## The statement -/

/-- Settles O9, command by command. -/
theorem flowCommands : Obligations.FlowCommands := by
  intro s hrun
  refine ⟨fun code d s' => ffStart_of_flowCheck hrun, ffStop_of_no_flow hrun, fun fl hflow => ?_,
    fun code d s' hcheck hcode => (ffUpdate_of_flowCheck hrun hcheck).trans (congrArg _ (if_pos hcode)),
    fun d s' fl hcheck hflow => ?_, ?_⟩
  · refine ⟨_, ffStop_of_flow hrun hflow, ffStopping_flow _ hflow, ffState_ffStopping .., reason_ffDone .., done_ffDone ..,
      fun a hstatus hcmd => ?_, ffStopping_active ..⟩
    rw [reg_ffStopping_ne _ _ hstatus, State.reg_setReg_ne _ _ hcmd]
  · exact ⟨_, ffUpdate_of_flowCheck hrun hcheck, ffStopping_flow _ hflow, ffState_ffStopping .., reason_ffDone ..⟩
  · refine ⟨_, ffClearStats_eq hrun, fun n hn => ?_, reason_ffDone .., ?_⟩
    · rw [reg_ffDone_ne _ _ (ffStatReg_ne_status n), reg_clearStats _ hn]
    · rw [ffDone_flow, clearStats_flow, State.setReg_flow]

end Sys2Proof.Machine
end

section
/-! PROOFS. Arrivals of a flow and its timeouts (O10): posts, captured frames, the source's timeouts and the signature
operation's (R233 to R235, R242). -/

namespace Sys2Proof.Machine

/-! ## Posts (R234) -/

/-- What R234 asks of a post of buffer `i` beside a running flow: its input is PCIe and has the buffer, the flow's STATE takes
sources, and the buffer is free. -/
def State.postTaken (s : State) (fl : Flow) (i : Nat) : Bool :=
  fl.d.input == 0 && i ≤ fl.d.nsrc && 1 ≤ s.ffState && s.ffState ≤ 4 && s.flag Reg.WSK_FF_SRC_FREE i

theorem sourcePost_of_flow {s : State} {fl : Flow} (v : Word) (hrun : s.dispRuns = true) (hflow : s.flow = some fl) :
    exec (.sourcePost v) s =
      let s1 := s.setReg Reg.WSK_FF_SRC_POST (BitVec.ofNat 32 (v.toNat % 16))
      if s1.postTaken fl (v.toNat % 16) then .next (s1.flowArrive (v.toNat % 16) 0)
      else .next ((s1.setFlag Reg.WSK_FF_STATUS 5).ffCount 7 1) := by
  change execSourcePost v s = _
  simp only [execSourcePost, State.postTaken, hrun, State.setReg_flow, hflow]
  rfl

theorem postTaken_of_free {s : State} {fl : Flow} {i : Nat} (hinput : fl.d.input = 0) (hi : i ≤ fl.d.nsrc) (hlo : 1 ≤ s.ffState)
    (hhi : s.ffState ≤ 4) (hfree : s.flag Reg.WSK_FF_SRC_FREE i = true) : s.postTaken fl i = true := by
  simp [State.postTaken, hinput, hi, hlo, hhi, hfree]

theorem postTaken_of_bad {s : State} {fl : Flow} {i : Nat}
    (h : fl.d.input ≠ 0 ∨ fl.d.nsrc < i ∨ s.flag Reg.WSK_FF_SRC_FREE i = false) : s.postTaken fl i = false := by
  unfold State.postTaken
  obtain hinput | hi | hfree := h
  · simp [hinput]
  · simp [Nat.not_le.2 hi]
  · simp [hfree]

/-! ## Captured frames (R235) -/

/-- A received frame goes into buffer `b` of the running flow: the receiver captures a stream, the flow takes its sources from it,
and `b` is the lowest buffer that is free. -/
structure CaptureInto (s : State) (fl : Flow) (b : Nat) : Prop where
  runs : s.dispRuns = true
  flow : s.flow = some fl
  enabled : s.flag Reg.DPR_CTRL 0 = true
  locked : s.flag Reg.DPR_STATUS 0 = true
  stream : s.dp.streamOk = true
  input : fl.d.input = 1
  started : 1 ≤ s.ffState
  taking : s.ffState ≤ 4
  lowest : (List.range (fl.d.nsrc + 1)).find? (fun i => s.flag Reg.WSK_FF_SRC_FREE i) = some b

/-- The receiver does not pass the frame over. -/
theorem CaptureInto.not_passed {s : State} {fl : Flow} {b : Nat} (h : CaptureInto s fl b) :
    (!(s.dispRuns && s.flag Reg.DPR_CTRL 0 && s.flag Reg.DPR_STATUS 0 && s.dp.streamOk) || fl.d.input ≠ 1 || s.ffState < 1
      || 4 < s.ffState) = false := by
  simp [h.runs, h.enabled, h.locked, h.stream, h.input, Nat.not_lt.2 h.taking, Nat.one_le_iff_ne_zero.1 h.started]

theorem dpCaptureFrame_of_linkError {s : State} {fl : Flow} {b : Nat} {f : RxFrame} (h : CaptureInto s fl b)
    (hlink : f.linkError = true) : exec (.dpCaptureFrame f) s = .next s.captureLink := by
  change execDpCaptureFrame f s = _
  simp only [execDpCaptureFrame, h.flow, h.not_passed, h.lowest, hlink]
  rfl

theorem dpCaptureFrame_of_differs {s : State} {fl : Flow} {b : Nat} {f : RxFrame} (h : CaptureInto s fl b)
    (hlink : f.linkError = false) (hdiff : s.captureDiffers fl.d = true) :
    exec (.dpCaptureFrame f) s = .next s.captureDrop := by
  change execDpCaptureFrame f s = _
  simp only [execDpCaptureFrame, h.flow, h.not_passed, h.lowest, hlink, hdiff]
  rfl

/-- One row of a captured frame written at its offset, unless an earlier row has failed. -/
def captureRow (c base : Nat) (w : Option VFail × State) (row : Nat × List Byte) : Option VFail × State :=
  match w.1 with
  | some e => (some e, w.2)
  | none => w.2.vwrite .display c (base + row.1) 2 (full row.2) false true

/-- The answer once the rows have been written: a failed row discards the frame, otherwise buffer `b` arrives. -/
def captureAnswer (c b : Nat) (w : Option VFail × State) : Ans :=
  match w.1 with
  | some e => .next (w.2.accessFault c 0x33 .write e none).captureDrop
  | none => .next (w.2.flowArrive b 0)

theorem dpCaptureFrame_of_clear {s : State} {fl : Flow} {b : Nat} {f : RxFrame} (h : CaptureInto s fl b)
    (hlink : f.linkError = false) (hdiff : s.captureDiffers fl.d = false) (henc : s.flag Reg.DPR_STATUS 9 = false) :
    exec (.dpCaptureFrame f) s = captureAnswer fl.d.ctx b
      ((captureRows fl.d (s.fld Reg.DPR_STATUS 8 6) f.px).foldl (captureRow fl.d.ctx (fl.d.srcAddr b)) (none, s)) := by
  change execDpCaptureFrame f s = _
  simp only [execDpCaptureFrame, h.flow, h.not_passed, h.lowest, hlink, hdiff, henc]
  rfl

/-! ## The source's timeouts (R233) -/

theorem sourceHoldTimeout_of_late {s : State} {fl : Flow} (hrun : s.dispRuns = true) (hflow : s.flow = some fl) (hstate : s.ffState = 2)
    (hlate : (s.arrivalError fl ((s.srcCount + 1) % 2 ^ 32) s.time).2 ≤ (s.arrivalError fl ((s.srcCount + 1) % 2 ^ 32) s.time).1) :
    exec .sourceHoldTimeout s = .next (s.setFfState 3) := by
  change execSourceHoldTimeout s = _
  rw [execSourceHoldTimeout, hflow]
  exact if_pos ⟨hrun, hstate, hlate⟩

theorem sourceTimeout_of_late {s : State} {fl : Flow} (hrun : s.dispRuns = true) (hflow : s.flow = some fl) (hlo : 1 ≤ s.ffState)
    (hhi : s.ffState ≤ 3) (hlate : fl.lastArrival + us (1000 * fl.d.srcTimeout) ≤ s.time) :
    exec .sourceTimeout s = .next ((s.updFlow (fun fl =>
      { fl with first := none, mapped := none, old := none, noPrev := true })).setFfState 4).flowSettle := by
  change execSourceTimeout s = _
  rw [execSourceTimeout, hflow]
  exact if_pos ⟨hrun, hlo, hhi, hlate⟩

/-! ## The signature operation's timeout (R242) -/

/-- The first signature operation of a flow that was queued 1 ms ago or more. -/
def State.lateSign (s : State) (fl : Flow) : Option Invocation :=
  fl.invs.find? (fun i => i.kind == .sign && i.status == .queued && i.at_ + us 1000 ≤ s.time)

/-- A signature operation cancelled: it leaves the sequencer and the waiting entries of the Ladle and completes with outcome 3. -/
def State.cancelSign (s : State) (q : Nat) (i : Invocation) : State :=
  let s1 : State := { s with gfx := { s.gfx with units := s.gfx.units.filter (fun u => !(u.q == q && u.seq == i.seq)) } }
  let s2 := s1.updUnit q i.seq (fun w => { w with started := w.started <|> some s1.time, entries := 0 })
  let s3 : State := { s2 with sched := { s2.sched with stalled := s2.sched.stalled.filter (fun e => !(e.q == q && e.seq == i.seq)) } }
  ((s3.completeUnit q i.seq 3 0).updStatus q).invEnded i 3 s3.time

theorem gateTimeout_of_none {s : State} {fl : Flow} (hflow : s.flow = some fl) (h : s.lateSign fl = none) :
    exec .gateTimeout s = .next s := by
  change execGateTimeout s = _
  unfold State.lateSign at h
  simp only [execGateTimeout, hflow, h]

theorem gateTimeout_of_late {s : State} {fl : Flow} {i : Invocation} (hflow : s.flow = some fl) (h : s.lateSign fl = some i) :
    exec .gateTimeout s = .next (s.cancelSign fl.d.queue i).flowSettle := by
  change execGateTimeout s = _
  rw [execGateTimeout]
  split
  next hnone => cases hflow.symm.trans hnone
  next fl' hsome =>
    obtain rfl : fl = fl' := Option.some.inj (hflow.symm.trans hsome)
    split
    next hnone => cases h.symm.trans hnone
    next i' hlate =>
      obtain rfl : i = i' := Option.some.inj (h.symm.trans hlate)
      rfl

/-! ## The statement -/

/-- Settles O10: a post, a captured frame, and the three timeouts. -/
theorem flowArrivals : Obligations.FlowArrivals := by
  intro s hrun
  refine ⟨fun v fl hflow => ⟨fun hinput hi hlo hhi hfree => ?_, fun hbad => ?_⟩,
    fun f fl b hflow henabled hlocked hstream hinput hstarted htaking hlowest => ?_,
    fun fl => sourceHoldTimeout_of_late hrun, fun fl => sourceTimeout_of_late hrun,
    fun fl hflow => ⟨gateTimeout_of_none hflow, fun i => gateTimeout_of_late hflow⟩⟩
  · rw [sourcePost_of_flow v hrun hflow]
    exact if_pos (postTaken_of_free hinput hi hlo hhi hfree)
  · rw [sourcePost_of_flow v hrun hflow]
    exact if_neg (by rw [postTaken_of_bad hbad]; decide)
  · have h : CaptureInto s fl b := ⟨hrun, hflow, henabled, hlocked, hstream, hinput, hstarted, htaking, hlowest⟩
    exact ⟨dpCaptureFrame_of_linkError h, dpCaptureFrame_of_differs h,
      fun hlink hdiff henc s' hrows => (dpCaptureFrame_of_clear h hlink hdiff henc).trans (congrArg (captureAnswer fl.d.ctx b) hrows)⟩

end Sys2Proof.Machine
end

section
/-! PROOFS. What the statements about the display and its ports share: fields that lie inside a stored field, what a report leaves
alone, and what a read of device memory may change. -/

namespace Sys2Proof.Machine

/-! ## Fields inside a stored field -/

theorem bits_setBits_inside (v : Nat) {hi lo hi' lo' : Nat} (w : Nat) (hlo : lo ≤ lo') (hhi : hi' ≤ hi) (h : lo' ≤ hi') :
    bits (setBits v hi lo w) hi' lo' = bits w (hi' - lo) (lo' - lo) := by
  apply Nat.eq_of_testBit_eq
  intro i
  rw [testBit_bits, testBit_bits, show hi' - lo + 1 - (lo' - lo) = hi' + 1 - lo' by omega]
  by_cases hi : i < hi' + 1 - lo'
  · rw [testBit_setBits _ _ _ _ _ (by omega), if_neg (by omega), if_pos (by omega), show i + (lo' - lo) = i + lo' - lo by omega]
  · simp [hi]

theorem State.fld_setFld_inside (s : State) (a : Nat) {hi lo hi' lo' : Nat} (v : Nat) (hlo : lo ≤ lo') (hhi : hi' ≤ hi) (h : lo' ≤ hi')
    (hh : hi ≤ 31) : (s.setFld a hi lo v).fld a hi' lo' = bits v (hi' - lo) (lo' - lo) := by
  rw [State.fld, s.reg_setFld_self a v (by omega) hh, bits_setBits_inside _ _ hlo hhi h]

/-- A flag is the field of its one bit. -/
theorem State.flag_eq_true_iff (s : State) (a i : Nat) : s.flag a i = true ↔ s.fld a i i = 1 := beq_iff_eq

theorem State.flag_eq_false_iff (s : State) (a i : Nat) : s.flag a i = false ↔ s.fld a i i = 0 := by
  have h : s.fld a i i < 2 := (fld_lt s a i i).trans_eq (by rw [Nat.add_sub_cancel_left, Nat.pow_one])
  rw [State.flag, beq_eq_false_iff_ne]
  omega

/-! ## The state of the display's ports -/

/-- The state with another state of the display's ports. -/
def State.setDp (s : State) (d : DpState) : State := { s with dp := d }

@[simp] theorem State.setDp_dp (s : State) (d : DpState) : (s.setDp d).dp = d := rfl
@[simp] theorem State.setDp_reg (s : State) (d : DpState) (a : Nat) : (s.setDp d).reg a = s.reg a := rfl
@[simp] theorem State.setDp_fld (s : State) (d : DpState) (a hi lo : Nat) : (s.setDp d).fld a hi lo = s.fld a hi lo := rfl
@[simp] theorem State.setDp_flag (s : State) (d : DpState) (a i : Nat) : (s.setDp d).flag a i = s.flag a i := rfl
@[simp] theorem State.setDp_active (s : State) (d : DpState) : (s.setDp d).active = s.active := rfl
@[simp] theorem State.setDp_out (s : State) (d : DpState) : (s.setDp d).out = s.out := rfl

/-! ## What a report leaves alone -/

theorem Reports.active {s t : State} (h : Reports s t) : t.active = s.active := by
  obtain ⟨⟨r, e, l, m, n, o, rfl⟩, -⟩ := h
  rfl

theorem Reports.disp {s t : State} (h : Reports s t) : t.disp = s.disp := by
  obtain ⟨⟨r, e, l, m, n, o, rfl⟩, -⟩ := h
  rfl

theorem Reports.time {s t : State} (h : Reports s t) : t.time = s.time := by
  obtain ⟨⟨r, e, l, m, n, o, rfl⟩, -⟩ := h
  rfl

theorem Reports.dram {s t : State} (h : Reports s t) : t.dram = s.dram := by
  obtain ⟨⟨r, e, l, m, n, o, rfl⟩, -⟩ := h
  rfl

theorem Reports.l2 {s t : State} (h : Reports s t) : t.l2 = s.l2 := by
  obtain ⟨⟨r, e, l, m, n, o, rfl⟩, -⟩ := h
  rfl

theorem Reports.fld {s t : State} (h : Reports s t) {a : Nat} (ha : reportReg a = false) (hi lo : Nat) :
    t.fld a hi lo = s.fld a hi lo := State.fld_of_reg (h.reg a ha) hi lo

theorem Reports.flag {s t : State} (h : Reports s t) {a : Nat} (ha : reportReg a = false) (i : Nat) : t.flag a i = s.flag a i :=
  State.flag_of_reg (h.reg a ha) i

/-! ## What a read of device memory may change -/

/-- The registers that a read of device memory may change: those of the L2, of the DRAM controllers, and of a report. -/
def readReg (a : Nat) : Bool := reportReg a || (decide (0x090000 ≤ a) && decide (a < 0x0B0000))

/-- `t` is `s` after reads of device memory: reports, the counts and lines of the L2 and of DRAM, and free choices. -/
structure Reads (s t : State) : Prop where
  same : ∃ regs err hif out dram l2 draws,
    t = { s with regs := regs, err := err, hif := hif, out := out, dram := dram, l2 := l2, draws := draws }
  reg : ∀ a, readReg a = false → t.reg a = s.reg a

theorem Reads.refl (s : State) : Reads s s := ⟨⟨_, _, _, _, _, _, _, rfl⟩, fun _ _ => rfl⟩

theorem Reads.trans {s t u : State} (h : Reads s t) (k : Reads t u) : Reads s u := by
  obtain ⟨⟨_, _, _, _, _, _, _, rfl⟩, hr⟩ := h
  obtain ⟨⟨_, _, _, _, _, _, _, rfl⟩, kr⟩ := k
  exact ⟨⟨_, _, _, _, _, _, _, rfl⟩, fun a ha => (kr a ha).trans (hr a ha)⟩

theorem Reads.active {s t : State} (h : Reads s t) : t.active = s.active := by
  obtain ⟨⟨_, _, _, _, _, _, _, rfl⟩, -⟩ := h
  rfl

theorem Reads.disp {s t : State} (h : Reads s t) : t.disp = s.disp := by
  obtain ⟨⟨_, _, _, _, _, _, _, rfl⟩, -⟩ := h
  rfl

theorem reads_of_reports {s t : State} (h : Reports s t) : Reads s t := by
  refine ⟨?_, fun a ha => h.reg a (Bool.or_eq_false_iff.1 ha).1⟩
  obtain ⟨⟨_, _, _, _, _, _, rfl⟩, -⟩ := h
  exact ⟨_, _, _, _, _, _, _, rfl⟩

theorem reads_dram (s : State) (d : DramState) : Reads s { s with dram := d } := ⟨⟨_, _, _, _, _, _, _, rfl⟩, fun _ _ => rfl⟩

theorem reads_l2 (s : State) (c : L2State) : Reads s { s with l2 := c } := ⟨⟨_, _, _, _, _, _, _, rfl⟩, fun _ _ => rfl⟩

theorem reads_draws (s : State) (n : Nat) : Reads s { s with draws := n } := ⟨⟨_, _, _, _, _, _, _, rfl⟩, fun _ _ => rfl⟩

theorem readReg_of_range {a : Nat} (hlo : 0x090000 ≤ a) (hhi : a < 0x0B0000) : readReg a = true := by
  simp [readReg, hlo, hhi]

theorem reads_setReg (s : State) {a : Nat} (v : Word) (h : readReg a = true) : Reads s (s.setReg a v) :=
  ⟨⟨_, _, _, _, _, _, _, rfl⟩, fun _ hb => s.reg_setReg_ne v (by rintro rfl; simp [h] at hb)⟩

theorem reads_setFld (s : State) {a : Nat} (hi lo v : Nat) (h : readReg a = true) : Reads s (s.setFld a hi lo v) :=
  reads_setReg s _ h

theorem reads_count64 (s : State) {a : Nat} (n : Nat) (hlo : 0x090000 ≤ a) (hhi : a + 4 < 0x0B0000) : Reads s (s.count64 a n) :=
  (reads_setReg s _ (readReg_of_range hlo (by omega))).trans (reads_setReg _ _ (readReg_of_range (by omega) hhi))

theorem reads_ite {s t u : State} {c : Prop} [Decidable c] (ht : Reads s t) (hu : Reads s u) : Reads s (if c then t else u) := by
  split <;> assumption

/-- A fold whose step only reads only reads. -/
theorem reads_foldl {α β : Type} (f : β × State → α → β × State) (h : ∀ x a, Reads x.2 (f x a).2) (l : List α) (x : β × State) :
    Reads x.2 (l.foldl f x).2 := by
  induction l generalizing x with
  | nil => exact Reads.refl _
  | cons a l ih => exact (h x a).trans (ih _)

theorem channelOf_lt (a : Nat) : channelOf a < 16 := by
  have h : ∀ hi lo, hi + 1 - lo = 4 → bits a hi lo < 2 ^ 4 := fun hi lo hn => hn ▸ Nat.mod_lt _ (Nat.two_pow_pos _)
  exact Nat.xor_lt_two_pow (Nat.xor_lt_two_pow (Nat.xor_lt_two_pow (h 11 8 rfl) (h 15 12 rfl)) (h 19 16 rfl)) (h 23 20 rfl)

theorem sliceOf_lt (a : Nat) : sliceOf a < 4 := Nat.div_lt_of_lt_mul (channelOf_lt a)

theorem reads_noteInflight (s : State) {ch : Nat} (h : ch < 16) : Reads s (s.noteInflight ch) := by
  have hreg : readReg (Reg.DMC_CH_INFLIGHT ch) = true := by
    apply readReg_of_range <;> unfold Reg.DMC_CH_INFLIGHT <;> omega
  unfold State.noteInflight State.drawNat State.maxFld
  exact (reads_draws s _).trans ((reads_setFld _ _ _ _ hreg).trans (reads_setFld _ _ _ _ hreg))

theorem reads_countBytes (s : State) (a n : Nat) : Reads s (s.countBytes a n) := by
  have hdraw : Reads s (if s.eccAt a then s.drawNat else (0, s)).2 := by
    split
    · exact reads_draws s _
    · exact Reads.refl s
  have hch := channelOf_lt a
  have hbytes : 0x090000 ≤ Reg.DMC_CH_BYTES_LO (channelOf a) ∧ Reg.DMC_CH_BYTES_LO (channelOf a) + 4 < 0x0B0000 := by
    unfold Reg.DMC_CH_BYTES_LO
    omega
  unfold State.countBytes
  generalize (if s.eccAt a then s.drawNat else (0, s)) = d at hdraw ⊢
  obtain ⟨extra, u⟩ := d
  dsimp only
  exact hdraw.trans ((reads_dram u _).trans ((reads_count64 _ _ hbytes.1 hbytes.2).trans (reads_noteInflight _ hch)))

theorem reads_countSat (s : State) {a : Nat} (hi lo n : Nat) (h : readReg a = true) : Reads s (s.countSat a hi lo n) := by
  unfold State.countSat
  exact reads_setFld s _ _ _ h

theorem reads_correctCw (s : State) (n : Nat) : Reads s (s.correctCw n) := by
  have hch := channelOf_lt (n * 32)
  have hreg : readReg (Reg.DMC_CH_CORR (channelOf (n * 32))) = true := by
    apply readReg_of_range <;> unfold Reg.DMC_CH_CORR <;> omega
  have hcount : Reads s ((s.countSat Reg.DMC_ECC_COUNT 15 0 1).countSat (Reg.DMC_CH_CORR (channelOf (n * 32))) 31 0 1) :=
    (reads_countSat s _ _ _ (by decide)).trans (reads_countSat _ _ _ _ hreg)
  unfold State.correctCw
  exact reads_ite (hcount.trans ((reads_dram _ _).trans (reads_of_reports (reports_rec0 ..)))) hcount

theorem reads_readCw (s : State) (n : Nat) : Reads s (s.readCw n).2 := by
  have hbad : Reads s (s.countSat Reg.DMC_ECC_COUNT 31 16 1) := reads_countSat s _ _ _ (by decide)
  unfold State.readCw
  dsimp only
  split
  · exact hbad
  split
  · exact hbad.trans (reads_of_reports (reports_rec0 ..))
  split
  · exact hbad.trans (reads_of_reports (reports_rec0 ..))
  split
  · exact reads_correctCw ..
  · exact Reads.refl s

theorem reads_readLine (s : State) (line : Nat) : Reads s (s.readLine line).2 := by
  unfold State.readLine
  dsimp only
  split
  · refine (reads_countBytes s (line * 128) 128).trans (reads_foldl _ ?_ _ (false, s.countBytes (line * 128) 128))
    intro x i
    exact reads_readCw ..
  · exact reads_countBytes ..

theorem reads_lineError (s : State) (line : Nat) (e : LineError) : Reads s (s.lineError line e) := by
  have hcount : ∀ (t : State) (hi lo : Nat), Reads t (t.countSat Reg.L2C_ECC_COUNT hi lo 1) := fun t hi lo => reads_countSat t _ _ _ (by decide)
  have hrec : ∀ (t : State) (hi lo code sev x y : Nat), Reads t ((t.countSat Reg.L2C_ECC_COUNT hi lo 1).rec0 code 0x20 sev x y) :=
    fun t hi lo code sev x y => (hcount t hi lo).trans (reads_of_reports (reports_rec0 ..))
  cases e with
  | sound => exact Reads.refl s
  | single => exact hrec ..
  | double => exact reads_ite ((reads_l2 s _).trans (hrec ..)) (reads_l2 s _)
  | tagCopy set way => exact hrec ..
  | tagBoth set way => exact hrec ..

theorem reads_lineCheck (s : State) (line : Nat) : Reads s (s.lineCheck line) := by
  unfold State.lineCheck
  split
  · exact Reads.refl s
  · exact (reads_l2 s _).trans (reads_lineError ..)

theorem reads_countHit (s : State) (line : Nat) (hit : Bool) : Reads s (s.countHit line hit) := by
  have h := sliceOf_lt (line * 128)
  unfold State.countHit
  generalize sliceOf (line * 128) = c at h ⊢
  apply reads_count64 <;> unfold Reg.L2C_SLICE_HIT_LO Reg.L2C_SLICE_MISS_LO <;> split <;> omega

theorem reads_l2Held (s : State) (line : Nat) : Reads s (s.l2Held line).2 := by
  have h := reads_lineCheck s line
  unfold State.l2Held
  generalize s.lineCheck line = u at h ⊢
  dsimp only
  split
  · have hd : Reads s u.drawBool.2 := h.trans (reads_draws u _)
    generalize u.drawBool = d at hd ⊢
    obtain ⟨kept, v⟩ := d
    dsimp only at hd ⊢
    split
    · exact hd.trans (reads_countHit ..)
    split
    · exact hd.trans ((reads_l2 v _).trans (reads_countHit ..))
    · exact hd.trans (reads_countHit ..)
  · exact h.trans (reads_countHit ..)

theorem reads_l2Look (s : State) (cls line : Nat) (noAlloc : Bool) : Reads s (s.l2Look cls line noAlloc).2 := by
  have h := reads_l2Held s line
  unfold State.l2Look
  generalize s.l2Held line = d at h ⊢
  obtain ⟨_ | poison, u⟩ := d
  · have hr := h.trans (reads_readLine u line)
    dsimp only
    generalize u.readLine line = r at hr ⊢
    obtain ⟨b, v⟩ := r
    dsimp only
    split
    · exact hr
    · exact hr.trans (reads_l2 v _)
  · exact h

theorem reads_devRead (s : State) (cls a n : Nat) (noAlloc : Bool) : Reads s (s.devRead cls a n noAlloc).2.2 := by
  unfold State.devRead
  refine (reads_foldl _ ?_ (unitsOf 128 a n) (false, s)).trans (reads_draws _ _)
  intro x line
  exact reads_l2Look ..

end Sys2Proof.Machine
end

section
/-! PROOFS. The display's commands (O6, O7, O8): commits, coefficient writes, fetch deadlines, scanned lines and published taps
(R259 to R261, R263, R282, R298). -/

namespace Sys2Proof.Machine

/-! ## The commit (R260, R261) -/

/-- An event of the display sets its bit; what it does beside is a report. -/
theorem reports_dspEvent (s : State) (statusBit ieBit : Nat) : Reports (s.setFlag Reg.DSP_STATUS statusBit) (s.dspEvent statusBit ieBit) := by
  unfold State.dspEvent
  exact reports_ite (reports_raiseHif _ _) (Reports.refl _)

/-- The check of the pending configuration has ended: its code is in REASON and DONE is set. -/
def State.dspChecked (s : State) : State := (s.setFld Reg.DSP_STATUS 15 8 (s.dspCheck s.dspPending)).dspEvent 2 3

theorem reports_dspChecked (s : State) :
    Reports ((s.setFld Reg.DSP_STATUS 15 8 (s.dspCheck s.dspPending)).setFlag Reg.DSP_STATUS 2) s.dspChecked := reports_dspEvent ..

theorem dspChecked_active (s : State) : s.dspChecked.active = s.active := by simp [(reports_dspChecked s).active]

theorem dspChecked_disp (s : State) : s.dspChecked.disp = s.disp := by simp [(reports_dspChecked s).disp]

theorem dspChecked_time (s : State) : s.dspChecked.time = s.time := by simp [(reports_dspChecked s).time]

theorem reason_dspChecked (s : State) : s.dspChecked.fld Reg.DSP_STATUS 15 8 = s.dspCheck s.dspPending % 256 := by
  rw [(reports_dspChecked s).fld (by decide), State.setFlag, State.fld_setFld_apart _ _ _ (by decide) (by decide) (by decide)]
  exact s.fld_setFld_self _ _ (by decide) (by decide)

theorem done_dspChecked (s : State) : s.dspChecked.flag Reg.DSP_STATUS 2 = true := by
  rw [(reports_dspChecked s).flag (by decide)]
  exact State.flag_setFlag_self _ _ (by decide)

/-- An accepted configuration waits for the next fetch deadline: PEND is 1. -/
def State.dspWaits (s : State) (m : DspCfg) : State :=
  { s.setFlag Reg.DSP_STATUS 1 with disp := { s.disp with accepted := some m, acceptedAt := s.time } }

/-- An accepted configuration is active at once, and starts the timing where it has OUT_EN 1. -/
def State.dspActivates (s : State) (m : DspCfg) : State := if m.outEn then (s.dspApply m).startTiming else s.dspApply m

theorem dspCommit_of_busy {s : State} (hrun : s.dispRuns = true) (hbusy : s.flag Reg.DSP_STATUS 0 = true) :
    exec .dspCommit s = .next (s.setFlag Reg.DSP_STATUS 3) := by
  change execDspCommit s = _
  rw [execDspCommit, hrun, hbusy]
  rfl

theorem dspCommit_of_idle {s : State} (hrun : s.dispRuns = true) (hidle : s.flag Reg.DSP_STATUS 0 = false) :
    exec .dspCommit s =
      if s.dspCheck s.dspPending ≠ 0 then .next s.dspChecked
      else if s.dspActive.outEn = true then .next (s.dspChecked.dspWaits s.dspPending)
      else .next (s.dspChecked.dspActivates s.dspPending) := by
  rw [show exec .dspCommit s = execDspCommit s from rfl, execDspCommit, if_neg (by simp [hrun]), if_neg (by simp [hidle])]
  extract_lets m code s1 s2
  have hactive : s1.dspActive = s.dspActive := dspChecked_active s
  rw [hactive]
  rfl

theorem dspApply_active {s t : State} (h : t.active = s.active) (m : DspCfg) : (t.dspApply m).active = (s.dspApply m).active := by
  unfold State.dspApply
  rw [show t.dspActive = s.dspActive from h]

theorem startTiming_active (s : State) : s.startTiming.active = s.active := by simp [State.startTiming]

theorem startTiming_reg (s : State) {a : Nat} (h : a ≠ Reg.DSP_LINE) : s.startTiming.reg a = s.reg a := by
  unfold State.startTiming
  exact s.reg_setFld_ne _ _ _ h

theorem dspActivates_active (s : State) (m : DspCfg) : (s.dspActivates m).active = (s.dspApply m).active := by
  unfold State.dspActivates
  split
  · exact startTiming_active _
  · rfl

theorem dspActivates_reg (s : State) (m : DspCfg) {a : Nat} (h : a ≠ Reg.DSP_LINE) : (s.dspActivates m).reg a = s.reg a := by
  unfold State.dspActivates
  split
  · exact startTiming_reg _ h
  · rfl

theorem dspWaits_active (s : State) (m : DspCfg) : (s.dspWaits m).active = s.active := by simp [State.dspWaits]

theorem dspWaits_disp (s : State) (m : DspCfg) :
    (s.dspWaits m).disp = { s.disp with accepted := some m, acceptedAt := s.time } := rfl

theorem dspWaits_reason (s : State) (m : DspCfg) : (s.dspWaits m).fld Reg.DSP_STATUS 15 8 = s.fld Reg.DSP_STATUS 15 8 :=
  s.fld_setFld_apart _ _ (by decide) (by decide) (by decide)

theorem dspWaits_done (s : State) (m : DspCfg) : (s.dspWaits m).flag Reg.DSP_STATUS 2 = s.flag Reg.DSP_STATUS 2 :=
  s.flag_setFlag_apart _ (by decide) (by decide)

theorem dspWaits_pend (s : State) (m : DspCfg) : (s.dspWaits m).flag Reg.DSP_STATUS 1 = true := s.flag_setFlag_self _ (by decide)

/-- Settles O6: a write while BUSY, then the three ends of a check. -/
theorem dspCommitOutcomes : Obligations.DspCommitOutcomes := by
  intro s hrun
  refine ⟨dspCommit_of_busy hrun, fun hidle => ?_⟩
  rw [dspCommit_of_idle hrun hidle]
  by_cases hcode : s.dspCheck s.dspPending = 0
  · rw [if_neg (not_not_intro hcode)]
    by_cases hout : s.dspActive.outEn = true
    · rw [if_pos hout]
      refine ⟨_, rfl, ?_, ?_, absurd hcode, fun _ _ => ⟨?_, dspWaits_pend .., ?_⟩, fun _ hoff => absurd (hout.symm.trans hoff) (by decide)⟩
      · rw [dspWaits_reason, reason_dspChecked]
      · rw [dspWaits_done, done_dspChecked]
      · rw [dspWaits_active, dspChecked_active]
      · rw [dspWaits_disp, dspChecked_disp, dspChecked_time]
    · rw [if_neg hout]
      have hstatus : (s.dspChecked.dspActivates s.dspPending).reg Reg.DSP_STATUS = s.dspChecked.reg Reg.DSP_STATUS :=
        dspActivates_reg _ _ (by decide)
      refine ⟨_, rfl, ?_, ?_, absurd hcode, fun _ hon => absurd hon hout, fun _ _ => ?_⟩
      · rw [State.fld_of_reg hstatus, reason_dspChecked]
      · rw [State.flag_of_reg hstatus, done_dspChecked]
      · rw [dspActivates_active, dspApply_active (dspChecked_active s)]
  · rw [if_pos hcode]
    exact ⟨_, rfl, reason_dspChecked s, done_dspChecked s, fun _ => ⟨dspChecked_active s, dspChecked_disp s⟩,
      fun h => absurd h hcode, fun h => absurd h hcode⟩

/-! ## Coefficient writes (R298) -/

theorem dspCoefWrite_of_used {s : State} (n : Fin 8) (b : Fin 2) (w : Fin 512) (v : Word) (hrun : s.dispRuns = true)
    (hen : (s.dspActive.layer n.val).en = true) (hbank : (s.dspActive.layer n.val).cbank = b.val) :
    exec (.dspCoefWrite n b w v) s = .next (s.setFlag Reg.DSP_STATUS 6) := by
  rw [show exec (.dspCoefWrite n b w v) s = execDspCoefWrite n b w v s from rfl, execDspCoefWrite, hrun, if_neg (by decide)]
  exact if_pos (by simp [hen, hbank])

theorem dspCoefWrite_of_unused {s : State} (n : Fin 8) (b : Fin 2) (w : Fin 512) (v : Word) (hrun : s.dispRuns = true)
    (h : ¬((s.dspActive.layer n.val).en = true ∧ (s.dspActive.layer n.val).cbank = b.val)) :
    exec (.dspCoefWrite n b w v) s = .next
      (s.setReg (Reg.DSP_COEF (n.val * 1024 + b.val * 512 + w.val)) (v &&& 0x0FFF0FFF)) := by
  rw [show exec (.dspCoefWrite n b w v) s = execDspCoefWrite n b w v s from rfl, execDspCoefWrite, hrun, if_neg (by decide)]
  exact if_neg (by simpa using h)

/-- Settles O7: the bank in use, and every other. -/
theorem dspCoefWrite : Obligations.DspCoefWrite := by
  intro n b w v s
  exact ⟨dspCoefWrite_of_used n b w v, dspCoefWrite_of_unused n b w v⟩

/-! ## Fetch deadlines (R259) -/

theorem active_ite {c : Prop} [Decidable c] {t u : State} {m : DspCfg} (ht : t.active = m) (hu : u.active = m) :
    (if c then t else u).active = m := by split <;> assumption

theorem dptIdle_active (s : State) : s.dptIdle.active = s.active := by simp [State.dptIdle]

theorem dptTiming_active (s : State) : s.dptTiming.active = s.active := by
  unfold State.dptTiming
  exact active_ite rfl ((dptIdle_active _).trans (active_ite rfl (State.setFld_active ..)))

theorem frameData_reg (s : State) (a : Nat) : s.frameData.reg a = s.reg a := by
  unfold State.frameData
  dsimp only
  split
  · rfl
  · split <;> rfl

/-- The line counter's part of a fetch deadline: whatever the deadline does beside, it ends 64 lines before the frame of the
configuration that the commit has left active. -/
theorem fetchDeadline_line {s : State} (hrun : s.dispRuns = true) (htiming : s.disp.running = true) :
    let a := s.dspActive.vTotal - 64
    let s1 := if s.fld Reg.DSP_LINE 12 0 = a then s else s.ldmSyncLine a
    ∃ t, exec .fetchDeadline s = .next t ∧ t.fld Reg.DSP_LINE 12 0 = (s1.dspDeadline.2.dspActive.vTotal - 64) % 2 ^ 13 := by
  intro a s1
  have hexec : exec .fetchDeadline s = execFetchDeadline s := rfl
  rw [execFetchDeadline, if_neg (by simp [hrun, htiming])] at hexec
  extract_lets at hexec
  generalize s1.dspDeadline = d at hexec ⊢
  obtain ⟨changed, s2⟩ := d
  simp -zeta only at hexec
  extract_lets s3 d3 s4 m s5 s6 s7 s8 d8 at hexec
  have hm : m = s2.dspActive := active_ite (dptTiming_active s2) rfl
  have hline : s8.fld Reg.DSP_LINE 12 0 = (s2.dspActive.vTotal - 64) % 2 ^ 13 := by
    rw [← hm]
    exact s7.fld_setFld_self _ _ (by decide) (by decide)
  refine ⟨_, hexec, ?_⟩
  split
  · exact (State.fld_of_reg (frameData_reg ..) ..).trans hline
  · exact hline

/-! ## Scanned lines (R259, R263) -/

theorem scanoutLine_of_blank {s : State} (e : LineEvents) (hrun : s.dispRuns = true) (htiming : s.disp.running = true)
    (hblank : s.dspActive.vActive ≤ (s.fld Reg.DSP_LINE 12 0 + 1) % max 1 s.dspActive.vTotal) :
    exec (.scanoutLine e) s =
      let y := (s.fld Reg.DSP_LINE 12 0 + 1) % max 1 s.dspActive.vTotal
      .next (((s.setFld Reg.DSP_LINE 12 0 y).whiskTime y e.stall).ldmSyncLine y) := by
  change execScanoutLine e s = _
  rw [execScanoutLine, if_neg (by simp [hrun, htiming])]
  exact if_pos hblank

/-- The last thing that an active line does is to send its pixels. -/
theorem scanoutLine_of_active {s : State} (e : LineEvents) (hrun : s.dispRuns = true) (htiming : s.disp.running = true)
    (hactive : (s.fld Reg.DSP_LINE 12 0 + 1) % max 1 s.dspActive.vTotal < s.dspActive.vActive) :
    ∃ t px link, exec (.scanoutLine e) s =
      .next (State.emit t (.pixels ((s.fld Reg.DSP_LINE 12 0 + 1) % max 1 s.dspActive.vTotal) px link)) := by
  change ∃ t px link, execScanoutLine e s = _
  rw [execScanoutLine, if_neg (by simp [hrun, htiming])]
  exact ⟨_, _, _, if_neg (Nat.not_le.2 hactive)⟩

theorem getLast?_emit (s : State) (o : Output) : (s.emit o).out.getLast? = some o := List.getLast?_concat

/-! ## Published taps (R282) -/

theorem tap_setTap_self (s : State) (k : Nat) (r : TapRun) : (s.setTap k r).tap k = r := by
  unfold State.setTap State.tap
  split <;> rfl

theorem setTap_reg (s : State) (k : Nat) (r : TapRun) (a : Nat) : (s.setTap k r).reg a = s.reg a := by
  unfold State.setTap
  split <;> rfl

theorem setTap_active (s : State) (k : Nat) (r : TapRun) : (s.setTap k r).active = s.active := by
  unfold State.setTap
  split <;> rfl

theorem setTap_out (s : State) (k : Nat) (r : TapRun) : (s.setTap k r).out = s.out := by
  unfold State.setTap
  split <;> rfl

/-- The registers of a tap show the buffer and the frame that it has published. -/
def State.tapShown (s : State) (k b frame : Nat) : State :=
  ((s.setFld (Reg.DSP_TAP_STATUS k) 1 0 b).setFlag (Reg.DSP_TAP_STATUS k) 2).setReg (Reg.DSP_TAP_FRAME k) (BitVec.ofNat 32 frame)

theorem tapStatus_tapShown (s : State) (k b frame : Nat) : (s.tapShown k b frame).reg (Reg.DSP_TAP_STATUS k) =
    ((s.setFld (Reg.DSP_TAP_STATUS k) 1 0 b).setFlag (Reg.DSP_TAP_STATUS k) 2).reg (Reg.DSP_TAP_STATUS k) :=
  State.reg_setReg_ne _ _ (by unfold Reg.DSP_TAP_STATUS Reg.DSP_TAP_FRAME; omega)

theorem last_tapShown (s : State) (k b frame : Nat) : (s.tapShown k b frame).fld (Reg.DSP_TAP_STATUS k) 1 0 = b % 4 := by
  rw [State.fld_of_reg (tapStatus_tapShown ..), State.setFlag, State.fld_setFld_apart _ _ _ (by decide) (by decide) (by decide)]
  exact s.fld_setFld_self _ _ (by decide) (by decide)

theorem lastValid_tapShown (s : State) (k b frame : Nat) : (s.tapShown k b frame).flag (Reg.DSP_TAP_STATUS k) 2 = true := by
  rw [State.flag_of_reg (tapStatus_tapShown ..)]
  exact State.flag_setFlag_self _ _ (by decide)

theorem tapPublish_of_written {s : State} {k : Fin 2} {b : Nat} (hcur : (s.tap k.val).cur = some b)
    (hwritten : (s.tap k.val).written = true) (hkept : (s.tap k.val).dropped = false) :
    exec (.tapPublish k) s = .next
      ((s.tapShown k.val b (s.tap k.val).frame).setTap k.val { s.tap k.val with cur := none, written := false }) := by
  change execTapPublish k s = _
  simp only [execTapPublish, hcur, hwritten, hkept]
  rfl

/-- Settles O8: the fetch deadline, the two kinds of line, a tap that publishes. -/
theorem displayTiming : Obligations.DisplayTiming := by
  intro s
  refine ⟨fetchDeadline_line, fun e hrun htiming => ⟨scanoutLine_of_blank e hrun htiming, fun hactive => ?_⟩,
    fun k b hcur hwritten hkept => ⟨_, tapPublish_of_written hcur hwritten hkept, ?_, ?_, ?_, tap_setTap_self .., ?_, ?_⟩⟩
  · obtain ⟨t, px, link, hexec⟩ := scanoutLine_of_active e hrun htiming hactive
    exact ⟨_, px, link, hexec, getLast?_emit ..⟩
  · rw [State.fld_of_reg (setTap_reg ..), last_tapShown]
  · rw [State.flag_of_reg (setTap_reg ..), lastValid_tapShown]
  · rw [setTap_reg]
    exact State.reg_setReg_self ..
  · simp [setTap_active, State.tapShown]
  · simp [setTap_out, State.tapShown]

end Sys2Proof.Machine
end

section
/-! PROOFS. The DisplayPort transmitter (O13) and its authentication of the sink (O14): training, link loss, HPD, HDCP 2.3 (R284, R285,
R288, R291, R292, R295, R299). -/

namespace Sys2Proof.Machine

/-! ## A link that is idle, and one that begins to train (R285, R299) -/

theorem dptIdle_reg (s : State) {a : Nat} (h : a ≠ Reg.DPT_STATUS) : s.dptIdle.reg a = s.reg a := by
  rw [State.dptIdle, State.reg_setFld_ne _ _ _ _ h, State.reg_clearFlag_ne _ _ h, State.reg_clearFlag_ne _ _ h]

theorem dptIdle_out (s : State) : s.dptIdle.out = s.out := by simp [State.dptIdle]

theorem dptIdle_hdcp (s : State) : s.dptIdle.fld Reg.DPT_STATUS 9 8 = 0 := State.fld_setFld_self _ _ _ (by decide) (by decide)

/-- Bits of the status that say nothing of FEC or authentication. -/
theorem dptIdle_flag (s : State) {i : Nat} (h : i < 7 ∨ 9 < i) :
    s.dptIdle.flag Reg.DPT_STATUS i = (s.clearFlag Reg.DPT_STATUS 0).flag Reg.DPT_STATUS i := by
  rw [State.dptIdle, State.flag, State.fld_setFld_apart _ _ _ (by decide) (by decide) (by omega)]
  exact State.flag_clearFlag_apart _ _ (by decide) (by omega)

theorem dptIdle_down (s : State) : s.dptIdle.flag Reg.DPT_STATUS 0 = false := by
  rw [dptIdle_flag s (by decide), State.flag_clearFlag_self _ _ (by decide)]

/-- What a training begins with beside the link's status: DPT_CTRL and DPT_DSC as they stand. -/
def State.dpBegun (s : State) : DpState :=
  { s.dp with retrainDue := false, hdcpRetry := false, txIds := [], ctrl := s.reg Reg.DPT_CTRL, dsc := s.reg Reg.DPT_DSC }

theorem dptBegin_eq (s : State) (k : SinkInfo) :
    s.dptBegin k = (s.dptIdle.setFld Reg.DPT_STATUS 1 1 (if k.hpd then 1 else 0)).setDp s.dpBegun := rfl

theorem dptBegin_reg (s : State) (k : SinkInfo) {a : Nat} (h : a ≠ Reg.DPT_STATUS) : (s.dptBegin k).reg a = s.reg a := by
  rw [dptBegin_eq, State.setDp_reg, State.reg_setFld_ne _ _ _ _ h, dptIdle_reg s h]

theorem dptBegin_down (s : State) (k : SinkInfo) : (s.dptBegin k).flag Reg.DPT_STATUS 0 = false := by
  rw [dptBegin_eq, State.setDp_flag, State.flag, State.fld_setFld_apart _ _ _ (by decide) (by decide) (by decide)]
  exact dptIdle_down s

/-- LANES takes effect as a training begins. -/
theorem dptBegin_lanes (s : State) (k : SinkInfo) : (s.dptBegin k).dptLanesSet = s.fld Reg.DPT_CTRL 5 4 := rfl

/-! ## The end of a training (R285, R295) -/

theorem dptCode_lt (s : State) (k : SinkInfo) : s.dptCode k < 256 := by
  unfold State.dptCode
  dsimp only
  split
  · decide
  split
  · decide
  split
  · decide
  split
  · decide
  split <;> decide

/-- A training that ends with a code leaves the link as it began. -/
theorem down_of_reason {s : State} (code : Nat) (h : s.flag Reg.DPT_STATUS 0 = false) :
    (s.setFld Reg.DPT_STATUS 23 16 code).fld Reg.DPT_STATUS 23 16 = code % 256
      ∧ (s.setFld Reg.DPT_STATUS 23 16 code).flag Reg.DPT_STATUS 0 = false := by
  refine ⟨s.fld_setFld_self _ _ (by decide) (by decide), ?_⟩
  rw [State.flag, s.fld_setFld_apart _ _ (by decide) (by decide) (by decide)]
  exact h

/-- The fields of the status of a link that has trained, authentication apart. -/
def State.dptTrained (s : State) (r fec : Nat) : State :=
  ((((s.setFlag Reg.DPT_STATUS 0).setFld Reg.DPT_STATUS 4 2 r).setFld Reg.DPT_STATUS 6 5 s.dptLanesSet).setFld Reg.DPT_STATUS 7 7 fec).setFld
    Reg.DPT_STATUS 23 16 0

theorem dptUp_cases (s : State) (r : Nat) : ∃ fec, s.dptUp r = s.dptTrained r fec ∨
    s.dptUp r = (s.dptTrained r fec).setFld Reg.DPT_STATUS 9 8 1 := by
  refine ⟨if s.dscOn || decide (4 ≤ r) then 1 else 0, ?_⟩
  unfold State.dptUp State.dptTrained
  exact (ite_eq_or_eq ..).symm

/-- A link that has trained is up at its rate, with the lanes that were set and REASON 0. -/
theorem dptUp_status (s : State) (r : Nat) :
    (s.dptUp r).flag Reg.DPT_STATUS 0 = true ∧ (s.dptUp r).fld Reg.DPT_STATUS 4 2 = r % 8
      ∧ (s.dptUp r).fld Reg.DPT_STATUS 6 5 = s.dptLanesSet % 4 ∧ (s.dptUp r).fld Reg.DPT_STATUS 23 16 = 0 := by
  obtain ⟨fec, h | h⟩ := dptUp_cases s r <;> rw [h] <;>
    simp (disch := decide) [State.flag, State.setFlag, State.dptTrained, State.fld_setFld_self, State.fld_setFld_apart]

theorem dptUp_reg (s : State) (r : Nat) {a : Nat} (h : a ≠ Reg.DPT_STATUS) : (s.dptUp r).reg a = s.reg a := by
  have htrained : ∀ fec, (s.dptTrained r fec).reg a = s.reg a := fun fec => by
    simp only [State.dptTrained, State.reg_setFld_ne _ _ _ _ h, State.reg_setFlag_ne _ _ h]
  obtain ⟨fec, hup | hup⟩ := dptUp_cases s r <;> rw [hup]
  · exact htrained fec
  · exact (State.reg_setFld_ne _ _ _ _ h).trans (htrained fec)

theorem dptEnd_reg (s : State) (code : Nat) (rate : Option Nat) {a : Nat} (h : a ≠ Reg.DPT_STATUS) :
    (s.dptEnd code rate).reg a = s.reg a := by
  unfold State.dptEnd
  split
  · exact s.reg_setFld_ne _ _ _ h
  cases rate with
  | none => exact s.reg_setFld_ne _ _ _ h
  | some r => exact dptUp_reg s r h

theorem dptTrain_reg (s : State) (k : SinkInfo) {a : Nat} (h : a ≠ Reg.DPT_STATUS) : (s.dptTrain k).reg a = s.reg a := by
  rw [State.dptTrain, dptEnd_reg _ _ _ h, dptBegin_reg s k h]

theorem dptTrain_of_code {s : State} {k : SinkInfo} (h : (s.dptBegin k).dptCode k ≠ 0) :
    s.dptTrain k = (s.dptBegin k).setFld Reg.DPT_STATUS 23 16 ((s.dptBegin k).dptCode k) := if_pos h

theorem dptTrain_of_no_rate {s : State} {k : SinkInfo} (h : (s.dptBegin k).dptCode k = 0) (hrate : (s.dptBegin k).dptRate k = none) :
    s.dptTrain k = (s.dptBegin k).setFld Reg.DPT_STATUS 23 16 0x93 := by
  unfold State.dptTrain State.dptEnd
  rw [if_neg (not_not_intro h), hrate]

theorem dptTrain_of_rate {s : State} {k : SinkInfo} {r : Nat} (h : (s.dptBegin k).dptCode k = 0)
    (hrate : (s.dptBegin k).dptRate k = some r) : s.dptTrain k = (s.dptBegin k).dptUp r := by
  unfold State.dptTrain State.dptEnd
  rw [if_neg (not_not_intro h), hrate]

/-! ## The commands (R285, R288, R299) -/

/-- What stopping the link leaves of the transmitter's own state. -/
def DpState.stopped (d : DpState) : DpState := { d with retrainDue := false, hdcpRetry := false, txIds := [] }

theorem dptEnable_of_off {s : State} (v : Word) (k : SinkInfo) (hrun : s.dispRuns = true) (hoff : s.flag Reg.DPT_CTRL 0 = false)
    (hen : bit v.toNat 0 = true) :
    exec (.dptEnable v k) s = .next ((s.setReg Reg.DPT_CTRL (BitVec.ofNat 32 (v.toNat % 256))).dptTrain k) := by
  have hset : (s.setReg Reg.DPT_CTRL (BitVec.ofNat 32 (v.toNat % 256))).flag Reg.DPT_CTRL 0 = true := by
    rw [State.flag_eq_true_iff, State.fld_setReg_self, BitVec.toNat_ofNat, bits]
    simp only [bit, beq_iff_eq] at hen
    omega
  rw [show exec (.dptEnable v k) s = execDptEnable v k s from rfl, execDptEnable, if_neg (by simp [hrun])]
  simp only [hoff, hset, Bool.not_false, Bool.and_self, if_true]

theorem dptDisable_of_on {s : State} (v : Word) (hrun : s.dispRuns = true) (hon : s.flag Reg.DPT_CTRL 0 = true) :
    exec (.dptDisable v) s = .next
      ((s.setReg Reg.DPT_CTRL (BitVec.ofNat 32 (v.toNat % 256 / 2 * 2))).dptIdle.setDp s.dp.stopped) := by
  rw [show exec (.dptDisable v) s = execDptDisable v s from rfl, execDptDisable, if_neg (by simp [hrun])]
  exact congrArg _ (if_pos hon)

theorem dptRetrain_of_on {s : State} (k : SinkInfo) (hrun : s.dispRuns = true) (hon : s.flag Reg.DPT_CTRL 0 = true) :
    exec (.dptRetrain k) s = .next (s.dptTrain k) := by
  rw [show exec (.dptRetrain k) s = execDptRetrain k s from rfl, execDptRetrain, if_pos (by simp [hrun, hon])]

theorem hdcpAuthenticate_of_up {s : State} (r : HdcpResult) (hup : s.flag Reg.DPT_STATUS 0 = true) (hon : s.hdcpOn = true) :
    exec (.hdcpAuthenticate r) s = .next (s.hdcpRun r) := by
  rw [show exec (.hdcpAuthenticate r) s = execHdcpAuthenticate r s from rfl, execHdcpAuthenticate, if_pos (by simp [hup, hon])]

theorem hdcpRetry_of_due {s : State} (r : HdcpResult) (hdue : s.dp.hdcpRetry = true) (hup : s.flag Reg.DPT_STATUS 0 = true) :
    exec (.hdcpRetry r) s = .next (s.hdcpRun r) := by
  rw [show exec (.hdcpRetry r) s = execHdcpRetry r s from rfl, execHdcpRetry, if_pos (by simp [hdue, hup])]

theorem dptIrqHpd_of_on {s : State} (k : SinkInfo) (hrun : s.dispRuns = true) (hon : s.flag Reg.DPT_CTRL 0 = true) :
    exec (.dptIrqHpd k) s = .next ((s.dptLost 0).dptTrain k) := by
  rw [show exec (.dptIrqHpd k) s = execDptIrqHpd k s from rfl, execDptIrqHpd, if_pos (by simp [hrun, hon])]

theorem dptHpdReturn_of_runs {s : State} (k : SinkInfo) (hrun : s.dispRuns = true) :
    exec (.dptHpdReturn k) s = .next (if s.dp.retrainDue = true ∧ s.flag Reg.DPT_CTRL 0 = true
      then (s.setFlag Reg.DPT_STATUS 1).dptTrain k else s.setFlag Reg.DPT_STATUS 1) := by
  have hctrl : (s.setFlag Reg.DPT_STATUS 1).flag Reg.DPT_CTRL 0 = s.flag Reg.DPT_CTRL 0 :=
    State.flag_of_reg (s.reg_setFlag_ne _ (by decide)) _
  rw [show exec (.dptHpdReturn k) s = execDptHpdReturn k s from rfl, execDptHpdReturn, if_neg (by simp [hrun])]
  simp only [hctrl, State.setFlag_dp, Bool.and_eq_true, apply_ite Host.Outcome.next]

/-! ## A link that is lost (R288) -/

/-- Beside its flag, its count and its record a loss changes nothing. -/
theorem reports_dptLost (s : State) (cause : Nat) :
    Reports ((s.setFlag Reg.DPT_STATUS 10).countSat Reg.DPT_RETRAINS 31 0 1) (s.dptLost cause) := reports_rec0 ..

theorem dptLost_active (s : State) (cause : Nat) : (s.dptLost cause).active = s.active := by
  rw [(reports_dptLost s cause).active, State.countSat, State.setFld_active, State.setFlag_active]

theorem dptLost_status (s : State) (cause : Nat) :
    (s.dptLost cause).reg Reg.DPT_STATUS = (s.setFlag Reg.DPT_STATUS 10).reg Reg.DPT_STATUS := by
  rw [(reports_dptLost s cause).reg _ (by decide), State.countSat, State.reg_setFld_ne _ _ _ _ (by decide)]

/-- The link is down until HPD returns. -/
def State.dptWaitsHpd (s : State) : State := (s.dptLost 1).dptIdle.setDp { s.dp.stopped with retrainDue := true }

theorem dptHpdLowTimeout_of_on {s : State} (hrun : s.dispRuns = true) (hon : s.flag Reg.DPT_CTRL 0 = true) :
    exec .dptHpdLowTimeout s = .next (s.clearFlag Reg.DPT_STATUS 1).dptWaitsHpd := by
  have hctrl : (s.clearFlag Reg.DPT_STATUS 1).flag Reg.DPT_CTRL 0 = true := by
    rw [State.flag_of_reg (s.reg_clearFlag_ne _ (by decide)), hon]
  rw [show exec .dptHpdLowTimeout s = execDptHpdLowTimeout s from rfl, execDptHpdLowTimeout, if_neg (by simp [hrun])]
  exact if_pos hctrl

theorem dptWaitsHpd_flag (s : State) {i : Nat} (h0 : i ≠ 0) (h : i < 7 ∨ 9 < i) :
    s.dptWaitsHpd.flag Reg.DPT_STATUS i = (s.setFlag Reg.DPT_STATUS 10).flag Reg.DPT_STATUS i := by
  rw [State.dptWaitsHpd, State.setDp_flag, dptIdle_flag _ h, State.flag_clearFlag_apart _ _ (by decide) h0,
    State.flag_of_reg (dptLost_status s 1)]

/-- Settles O13, command by command. -/
theorem transmitterCommands : Obligations.TransmitterCommands := by
  intro s
  refine ⟨fun v k => dptEnable_of_off v k,
    fun v hrun hon => ⟨_, dptDisable_of_on v hrun hon, ?_, ?_, ?_, fun a hctrl hstatus => ?_, ?_, ?_⟩,
    fun k hrun hon => ⟨_, dptRetrain_of_on k hrun hon, fun hcode => ?_, fun hcode hrate => ?_, fun hcode r hrate => ?_,
      fun a ha => dptTrain_reg s k ha⟩,
    hdcpAuthenticate_of_up, hdcpRetry_of_due, dptIrqHpd_of_on,
    fun hrun hon => ⟨_, dptHpdLowTimeout_of_on hrun hon, ?_, ?_, ?_, rfl, ?_⟩, dptHpdReturn_of_runs⟩
  · rw [State.setDp_flag, State.flag_of_reg (dptIdle_reg _ (by decide)), State.flag_eq_false_iff, State.fld_setReg_self,
      BitVec.toNat_ofNat, bits]
    omega
  · rw [State.setDp_flag, dptIdle_down]
  · rw [State.setDp_fld, dptIdle_hdcp]
  · rw [State.setDp_reg, dptIdle_reg _ hstatus, State.reg_setReg_ne _ _ hctrl]
  · rw [State.setDp_active, dptIdle_active, State.setReg_active]
  · rw [State.setDp_out, dptIdle_out, State.setReg_out]
  · rw [dptTrain_of_code hcode]
    refine (down_of_reason _ (dptBegin_down s k)).imp_left (fun h => ?_)
    rw [h, Nat.mod_eq_of_lt (dptCode_lt ..)]
  · rw [dptTrain_of_no_rate hcode hrate]
    exact down_of_reason _ (dptBegin_down s k)
  · rw [dptTrain_of_rate hcode hrate]
    obtain ⟨hup, hspeed, hlanes, hreason⟩ := dptUp_status (s.dptBegin k) r
    refine ⟨hup, hspeed, ?_, hreason⟩
    rw [hlanes, dptBegin_lanes]
    exact Nat.mod_eq_of_lt (fld_lt s _ 5 4)
  · rw [State.dptWaitsHpd, State.setDp_flag, dptIdle_down]
  · rw [dptWaitsHpd_flag _ (by decide) (by decide), State.flag_setFlag_apart _ _ (by decide) (by decide),
      s.flag_clearFlag_self _ (by decide)]
  · rw [dptWaitsHpd_flag _ (by decide) (by decide), State.flag_setFlag_self _ _ (by decide)]
  · rw [State.dptWaitsHpd, State.setDp_active, dptIdle_active, dptLost_active, State.clearFlag_active]

/-! ## Authentication (R291, R292) -/

/-- Reading the SRM only reads. -/
theorem reads_srmRead (s : State) : Reads s s.srmRead.2 := by
  have h := reads_devRead s 13 (s.reg64 Reg.DPT_SRM_LO) 5120 false
  unfold State.srmRead
  extract_lets a
  generalize s.devRead 13 a 5120 false = d at h ⊢
  obtain ⟨b, poison, u⟩ := d
  split
  · exact Reads.refl s
  split
  · exact Reads.refl s
  · exact h

theorem srmRead_of_none {s : State} (h : s.reg64 Reg.DPT_SRM_LO = 0) : s.srmRead = (none, s) := if_pos h

theorem hdcpRun_of_code {s : State} {r : HdcpResult} (h : s.srmRead.2.hdcpCode r s.srmRead.1 ≠ 0) :
    s.hdcpRun r = s.srmRead.2.hdcpFailed (s.srmRead.2.hdcpCode r s.srmRead.1) := if_pos h

theorem hdcpRun_of_success {s : State} {r : HdcpResult} (h : s.srmRead.2.hdcpCode r s.srmRead.1 = 0) :
    s.hdcpRun r = s.srmRead.2.hdcpDone r := if_neg (not_not_intro h)

theorem hdcpCode_of_keysHeld {s : State} (r : HdcpResult) (srm : Option (List Byte)) (h : s.keysHeld = true) :
    s.hdcpCode r srm = 0x98 := by simp [State.hdcpCode, h]

theorem hdcpCode_of_tooBig {s : State} {r : HdcpResult} (srm : Option (List Byte)) (hkeys : s.keysHeld = false) (h : r.tooBig = true) :
    s.hdcpCode r srm = 0x99 := by simp [State.hdcpCode, hkeys, h]

theorem hdcpCode_of_revoked {s : State} {r : HdcpResult} {b : List Byte} {i : BitVec 40} (hi : i ∈ r.ids)
    (hlists : Config.srmLists b i.toNat = true) (hsmall : r.tooBig = false) : s.hdcpCode r (some b) = 0x98 := by
  have hrevoked : r.ids.any (fun i => Config.srmLists b i.toNat) = true := List.any_eq_true.2 ⟨i, hi, hlists⟩
  simp [State.hdcpCode, hsmall, hrevoked]

/-- The status of authentication and REASON as an authentication stores them. -/
def State.hdcpStatus (s : State) (status code : Nat) : State := (s.setFld Reg.DPT_STATUS 9 8 status).setFld Reg.DPT_STATUS 23 16 code

theorem hdcpStatus_status (s : State) (status code : Nat) : (s.hdcpStatus status code).fld Reg.DPT_STATUS 9 8 = status % 4 := by
  rw [State.hdcpStatus, State.fld_setFld_apart _ _ _ (by decide) (by decide) (by decide),
    State.fld_setFld_self _ _ _ (by decide) (by decide)]
  rfl

theorem hdcpFailed_eq (s : State) (code : Nat) : s.hdcpFailed code =
    ((s.hdcpStatus 0 code).rec0 0x0708 0x34 1 code 0).setDp
      { ((s.hdcpStatus 0 code).rec0 0x0708 0x34 1 code 0).dp with hdcpRetry := true, txIds := [] } := rfl

theorem hdcpDone_eq (s : State) (r : HdcpResult) : ∃ rxIds, s.hdcpDone r = (s.hdcpStatus (2 + r.type.val) 0).setDp
    { (s.hdcpStatus (2 + r.type.val) 0).dp with hdcpRetry := false, txIds := r.ids.map BitVec.toNat, rxIds := rxIds } := ⟨_, rfl⟩

theorem hdcpFailed_status (s : State) (code : Nat) : (s.hdcpFailed code).fld Reg.DPT_STATUS 9 8 = 0 := by
  rw [hdcpFailed_eq, State.setDp_fld, (reports_rec0 ..).fld (by decide), hdcpStatus_status]

theorem hdcpDone_status (s : State) (r : HdcpResult) : (s.hdcpDone r).fld Reg.DPT_STATUS 9 8 = 2 + r.type.val := by
  obtain ⟨rxIds, h⟩ := hdcpDone_eq s r
  rw [h, State.setDp_fld, hdcpStatus_status, Nat.mod_eq_of_lt (by omega)]

/-- What an authentication leaves alone: the active configuration, the display, device memory, the receiver's control register. -/
structure SameOutside (s t : State) : Prop where
  active : t.active = s.active
  disp : t.disp = s.disp
  dram : t.dram = s.dram
  l2 : t.l2 = s.l2
  receiver : t.reg Reg.DPR_CTRL = s.reg Reg.DPR_CTRL

theorem SameOutside.trans {s t u : State} (h : SameOutside s t) (k : SameOutside t u) : SameOutside s u :=
  ⟨k.active.trans h.active, k.disp.trans h.disp, k.dram.trans h.dram, k.l2.trans h.l2, k.receiver.trans h.receiver⟩

theorem SameOutside.of_reports {s t : State} (h : Reports s t) : SameOutside s t :=
  ⟨h.active, h.disp, h.dram, h.l2, h.reg _ (by decide)⟩

theorem sameOutside_setDp (s : State) (d : DpState) : SameOutside s (s.setDp d) := ⟨rfl, rfl, rfl, rfl, rfl⟩

theorem sameOutside_hdcpStatus (s : State) (status code : Nat) : SameOutside s (s.hdcpStatus status code) := by
  have hset : ∀ (t : State) (hi lo v : Nat), SameOutside t (t.setFld Reg.DPT_STATUS hi lo v) := fun t hi lo v =>
    ⟨t.setFld_active .., t.setFld_disp .., t.setFld_dram .., t.setFld_l2 .., t.reg_setFld_ne _ _ _ (by decide)⟩
  unfold State.hdcpStatus
  exact (hset ..).trans (hset ..)

/-- Beside reading the SRM an authentication touches nothing outside the transmitter. -/
theorem sameOutside_hdcpRun (s : State) (r : HdcpResult) : SameOutside s.srmRead.2 (s.hdcpRun r) := by
  by_cases h : s.srmRead.2.hdcpCode r s.srmRead.1 = 0
  · obtain ⟨rxIds, hdone⟩ := hdcpDone_eq s.srmRead.2 r
    rw [hdcpRun_of_success h, hdone]
    exact (sameOutside_hdcpStatus ..).trans (sameOutside_setDp ..)
  · rw [hdcpRun_of_code h, hdcpFailed_eq]
    exact ((sameOutside_hdcpStatus ..).trans (.of_reports (reports_rec0 ..))).trans (sameOutside_setDp ..)

/-- Settles O14: the two ends of an authentication, the causes of its codes, and what it leaves alone. -/
theorem hdcpOutcome : Obligations.HdcpOutcome := by
  intro r s s1 code
  have hread := reads_srmRead s
  have hrun := sameOutside_hdcpRun s r
  refine ⟨fun hcode => ?_, fun hcode => ?_, hdcpCode_of_keysHeld r _, hdcpCode_of_tooBig _, fun b i hsrm hi hlists hsmall => ?_,
    hrun.active.trans hread.active, hrun.disp.trans hread.disp, fun hnone => ?_, hrun.receiver.trans (hread.reg _ (by decide))⟩
  · rw [hdcpRun_of_code hcode]
    exact ⟨rfl, rfl, hdcpFailed_status ..⟩
  · rw [hdcpRun_of_success hcode]
    exact ⟨rfl, rfl, hdcpDone_status ..⟩
  · unfold code
    rw [hsrm]
    exact hdcpCode_of_revoked hi hlists hsmall
  · rw [hrun.dram, hrun.l2, srmRead_of_none hnone]
    exact ⟨rfl, rfl⟩

end Sys2Proof.Machine
end

section
/-! PROOFS. The DisplayPort receiver (O15): its enable, an upstream link's training and loss, authentication as a repeater and the AUX
channel (R283, R289, R291, R295, R299). -/

namespace Sys2Proof.Machine

/-! ## Enable and disable (R283, R295, R299) -/

/-- The code of an enable (R295): a reserved rate or lane count, a write port without room for the capture, or 0. -/
def State.dprCode (s : State) (v : Word) : Nat :=
  if 4 < bits (v.toNat % 128) 3 1 ∨ bits (v.toNat % 128) 5 4 = 3 then 0x96 else if s.dspActive.writeFails true then 0x9A else 0

/-- The fields of DPR_CTRL are stored with EN 0, and the code of the check is in REASON. -/
def State.dprChecked (s : State) (v : Word) : State :=
  ((s.setReg Reg.DPR_CTRL (BitVec.ofNat 32 (v.toNat % 128))).clearFlag Reg.DPR_CTRL 0).setFld Reg.DPR_STATUS 23 16 (s.dprCode v)

theorem dprChecked_reason (s : State) (v : Word) : (s.dprChecked v).fld Reg.DPR_STATUS 23 16 = s.dprCode v := by
  have hlt : s.dprCode v < 256 := by
    unfold State.dprCode
    split
    · decide
    · split <;> decide
  rw [State.dprChecked, State.fld_setFld_self _ _ _ (by decide) (by decide)]
  exact Nat.mod_eq_of_lt hlt

theorem dprChecked_off (s : State) (v : Word) : (s.dprChecked v).flag Reg.DPR_CTRL 0 = false := by
  rw [State.dprChecked, State.flag_of_reg (State.reg_setFld_ne _ _ _ _ (by decide))]
  exact State.flag_clearFlag_self _ _ (by decide)

theorem dprChecked_dp (s : State) (v : Word) : (s.dprChecked v).dp = s.dp := by simp [State.dprChecked]

/-- Beside EN the fields of DPR_CTRL stand as they are written when the check reads them. -/
theorem dprCtrl_fld (s : State) (v : Word) (hi : Nat) {lo : Nat} (h : 0 < lo) :
    ((s.setReg Reg.DPR_CTRL (BitVec.ofNat 32 (v.toNat % 128))).clearFlag Reg.DPR_CTRL 0).fld Reg.DPR_CTRL hi lo
      = bits (v.toNat % 128) hi lo := by
  rw [State.clearFlag, State.fld_setFld_apart _ _ _ (by decide) (by decide) (.inr h), State.fld_setReg_self, BitVec.toNat_ofNat,
    Nat.mod_eq_of_lt (by omega)]

/-- The settings that an enable captures. -/
def DpState.captures (d : DpState) (w : Word) : DpState := { d with rxCtrl := w }

/-- An enable ends with the code of its check, or with EN 1 and its settings captured. -/
theorem dprEnable_of_off {s : State} (v : Word) (hrun : s.dispRuns = true) (hoff : s.flag Reg.DPR_CTRL 0 = false) :
    exec (.dprEnable v) s = .next (if s.dprCode v = 0 then
      ((s.dprChecked v).setFlag Reg.DPR_CTRL 0).setDp ((s.dprChecked v).dp.captures (BitVec.ofNat 32 (v.toNat % 128)))
      else s.dprChecked v) := by
  rw [show exec (.dprEnable v) s = execDprEnable v s from rfl, execDprEnable, if_neg (by simp [hrun])]
  extract_lets w s1 code s2
  rw [if_neg (by simp [hoff])]
  have hactive : s1.dspActive = s.dspActive := (State.clearFlag_active ..).trans (State.setReg_active ..)
  have hcode : code = s.dprCode v := by
    unfold code State.dprCode
    rw [hactive, dprCtrl_fld s v 3 (by decide), dprCtrl_fld s v 5 (by decide)]
  have hs2 : s2 = s.dprChecked v := by
    unfold s2
    rw [hcode]
    rfl
  rw [← hcode, ← hs2]
  rfl

theorem dprEnable_of_code {s : State} {v : Word} (hrun : s.dispRuns = true) (hoff : s.flag Reg.DPR_CTRL 0 = false)
    (hcode : s.dprCode v ≠ 0) : exec (.dprEnable v) s = .next (s.dprChecked v) := by
  rw [dprEnable_of_off v hrun hoff, if_neg hcode]

theorem dprDown_eq (s : State) : s.dprDown = ((s.clearFlag Reg.DPR_STATUS 0).setFld Reg.DPR_STATUS 10 9 0).setDp
    { ((s.clearFlag Reg.DPR_STATUS 0).setFld Reg.DPR_STATUS 10 9 0).dp with streamOk := false } := rfl

/-- The link is down, with no authentication. -/
theorem dprDown_status (s : State) : s.dprDown.flag Reg.DPR_STATUS 0 = false ∧ s.dprDown.fld Reg.DPR_STATUS 10 9 = 0 := by
  rw [dprDown_eq, State.setDp_flag, State.setDp_fld]
  refine ⟨?_, State.fld_setFld_self _ _ _ (by decide) (by decide)⟩
  rw [State.flag, State.fld_setFld_apart _ _ _ (by decide) (by decide) (by decide)]
  exact s.flag_clearFlag_self _ (by decide)

theorem dprDown_reg (s : State) {a : Nat} (h : a ≠ Reg.DPR_STATUS) : s.dprDown.reg a = s.reg a := by
  rw [dprDown_eq, State.setDp_reg, State.reg_setFld_ne _ _ _ _ h, s.reg_clearFlag_ne _ h]

theorem dprDown_dp (s : State) : s.dprDown.dp = { s.dp with streamOk := false } := by
  rw [dprDown_eq, State.setDp_dp, State.setFld_dp, State.clearFlag_dp]

theorem dprDisable_of_on {s : State} (v : Word) (hrun : s.dispRuns = true) (hon : s.flag Reg.DPR_CTRL 0 = true) :
    exec (.dprDisable v) s = .next (s.setReg Reg.DPR_CTRL (BitVec.ofNat 32 (v.toNat % 128 / 2 * 2))).dprDown := by
  rw [show exec (.dprDisable v) s = execDprDisable v s from rfl, execDprDisable, if_neg (by simp [hrun])]
  exact congrArg _ (if_pos hon)

/-! ## The upstream link (R289, R299) -/

/-- R289's limits of an accepted stream. -/
theorem rxAccepted_iff (st : RxStream) : rxAccepted st = true ↔ st.w.toNat ≤ 7680 ∧ st.h.toNat ≤ 4320 ∧ st.khz ≤ 2000000 := by
  simp [rxAccepted, and_assoc]

/-- The status of an upstream link that has trained: up, its rate, lanes and format, no authentication. -/
def State.dprTrained (s : State) (rate lanes fmt : Nat) : State :=
  ((((s.setFlag Reg.DPR_STATUS 0).setFld Reg.DPR_STATUS 3 1 rate).setFld Reg.DPR_STATUS 5 4 lanes).setFld Reg.DPR_STATUS 8 6 fmt).setFld
    Reg.DPR_STATUS 10 9 0

/-- The upstream link is up, and its stream has been checked. -/
def State.dprUp (s : State) (rate lanes : Nat) (st : RxStream) : State :=
  ((s.dprTrained rate lanes st.fmt.val).setReg Reg.DPR_MSA (BitVec.ofNat 32 (st.w.toNat + st.h.toNat * 65536))).setFld
    Reg.DPR_STATUS 23 16 (if rxAccepted st then 0 else 0x97)

/-- The receiver's stream is accepted, or is not. -/
def DpState.withStream (d : DpState) (ok : Bool) : DpState := { d with streamOk := ok }

theorem dprLinkTraining_of_on {s : State} {rate : Fin 5} {lanes : Fin 3} (st : RxStream) (hrun : s.dispRuns = true)
    (hon : s.flag Reg.DPR_CTRL 0 = true) (hrate : rate.val ≤ bits s.dp.rxCtrl.toNat 3 1) (hlanes : lanes.val ≤ bits s.dp.rxCtrl.toNat 5 4) :
    exec (.dprLinkTraining rate lanes st) s = .next ((s.dprUp rate.val lanes.val st).setDp
      ((s.dprUp rate.val lanes.val st).dp.withStream (rxAccepted st))) := by
  rw [show exec (.dprLinkTraining rate lanes st) s = execDprLinkTraining rate lanes st s from rfl, execDprLinkTraining,
    if_neg (by simp [hrun, hon, hrate, hlanes])]
  unfold State.dprUp State.dprTrained
  rfl

theorem dprUp_dp (s : State) (rate lanes : Nat) (st : RxStream) : (s.dprUp rate lanes st).dp = s.dp := by
  rw [State.dprUp, State.setFld_dp, State.setReg_dp, State.dprTrained, State.setFld_dp, State.setFld_dp, State.setFld_dp,
    State.setFld_dp, State.setFlag_dp]

theorem dprTrained_status (s : State) (rate lanes fmt : Nat) :
    (s.dprTrained rate lanes fmt).fld Reg.DPR_STATUS 0 0 = 1 ∧ (s.dprTrained rate lanes fmt).fld Reg.DPR_STATUS 3 1 = rate % 8
      ∧ (s.dprTrained rate lanes fmt).fld Reg.DPR_STATUS 5 4 = lanes % 4 ∧ (s.dprTrained rate lanes fmt).fld Reg.DPR_STATUS 10 9 = 0 := by
  simp (disch := decide) [State.setFlag, State.dprTrained, State.fld_setFld_self, State.fld_setFld_apart]

/-- The check of the stream leaves every field of the status below REASON alone. -/
theorem dprUp_fld (s : State) (rate lanes : Nat) (st : RxStream) {hi : Nat} (lo : Nat) (h : hi < 16) :
    (s.dprUp rate lanes st).fld Reg.DPR_STATUS hi lo = (s.dprTrained rate lanes st.fmt.val).fld Reg.DPR_STATUS hi lo := by
  rw [State.dprUp, State.fld_setFld_apart _ _ _ (by decide) (by decide) (.inl h), State.fld_setReg_ne _ _ _ _ (by decide)]

theorem dprUp_reason (s : State) (rate lanes : Nat) (st : RxStream) :
    (s.dprUp rate lanes st).fld Reg.DPR_STATUS 23 16 = if rxAccepted st then 0 else 0x97 := by
  rw [State.dprUp, State.fld_setFld_self _ _ _ (by decide) (by decide)]
  split <;> rfl

theorem dprLinkLoss_of_runs {s : State} (n : Nat) (hrun : s.dispRuns = true) :
    exec (.dprLinkLoss n) s = .next (s.dprDown.countSat Reg.DPR_ERRCNT 31 0 n) := by
  rw [show exec (.dprLinkLoss n) s = execDprLinkLoss n s from rfl, execDprLinkLoss, if_neg (by simp [hrun])]

/-- A count that has a register of its own stops at the register's largest value. -/
theorem reg_countSat (s : State) (a n : Nat) : ((s.countSat a 31 0 n).reg a).toNat = min (2 ^ 32 - 1) ((s.reg a).toNat + n) := by
  have hwhole : ∀ t : State, t.fld a 31 0 = (t.reg a).toNat := fun t => by
    rw [State.fld, bits, Nat.pow_zero, Nat.div_one]
    exact Nat.mod_eq_of_lt (t.reg a).isLt
  rw [← hwhole, State.countSat, State.fld_setFld_self _ _ _ (by decide) (by decide), hwhole, satAdd]
  exact Nat.mod_eq_of_lt (by omega)

/-! ## Authentication and the AUX channel (R289, R291) -/

/-- The receiver is authenticated at a type. -/
def State.dprAuthenticated (s : State) (type : Nat) : State := s.setFld Reg.DPR_STATUS 10 9 (1 + 2 * type)

theorem dprHdcpAuthentication_of_up {s : State} (type : Fin 2) (hup : s.flag Reg.DPR_STATUS 0 = true)
    (hon : bit s.dp.rxCtrl.toNat 6 = true) (hkeys : s.keysHeld = false) :
    ∃ d, exec (.dprHdcpAuthentication type) s = .next ((s.dprAuthenticated type.val).setDp d) := by
  rw [show exec (.dprHdcpAuthentication type) s = execDprHdcpAuthentication type s from rfl, execDprHdcpAuthentication,
    if_pos (by simp [hup, hon, hkeys])]
  exact ⟨_, rfl⟩

theorem dprAuthenticated_status (s : State) (type : Fin 2) : (s.dprAuthenticated type.val).flag Reg.DPR_STATUS 9 = true
    ∧ (s.dprAuthenticated type.val).fld Reg.DPR_STATUS 10 10 = type.val := by
  have hinside : ∀ i, 9 ≤ i → i ≤ 10 → (s.dprAuthenticated type.val).fld Reg.DPR_STATUS i i = bits (1 + 2 * type.val) (i - 9) (i - 9) :=
    fun i h9 h10 => s.fld_setFld_inside _ _ h9 h10 (Nat.le_refl i) (by decide)
  rw [State.flag, hinside 9 (by decide) (by decide), hinside 10 (by decide) (by decide)]
  fin_cases type <;> decide

theorem dprAuxTransaction_of_dpcdRead {s : State} (a : BitVec 20) (n : Nat) (hrun : s.dispRuns = true)
    (hon : s.flag Reg.DPR_CTRL 0 = true) :
    exec (.dprAuxTransaction (.dpcdRead a n)) s = .next (s.emit (.aux ((List.range n).map (fun i => Config.dpcd (a.toNat + i))))) :=
  show execDprAuxTransaction (.dpcdRead a n) s = _ from if_neg (by simp [hrun, hon])

theorem dprAuxTransaction_of_edidRead {s : State} (off n : Nat) (hrun : s.dispRuns = true) (hon : s.flag Reg.DPR_CTRL 0 = true) :
    exec (.dprAuxTransaction (.i2cRead 0x50#7 off n)) s = .next (s.emit (.aux ((s.dp.edid.drop off).take n))) :=
  show execDprAuxTransaction (.i2cRead 0x50#7 off n) s = _ from (if_neg (by simp [hrun, hon])).trans (if_pos rfl)

/-- Settles O15, command by command. -/
theorem receiverCommands : Obligations.ReceiverCommands := by
  intro s
  refine ⟨fun v hrun hoff => ⟨fun hreserved => ?_, fun hrate hlanes hroom => ?_, fun hrate hlanes hfull => ?_⟩,
    fun v hrun hon => ⟨_, dprDisable_of_on v hrun hon, ?_, (dprDown_status _).1, (dprDown_status _).2, ?_, fun a hctrl hstatus => ?_⟩,
    fun rate lanes st hrun hon hrate hlanes => ⟨_, dprLinkTraining_of_on st hrun hon hrate hlanes, ?_⟩,
    fun n hrun => ⟨_, dprLinkLoss_of_runs n hrun, ?_, ?_, ?_⟩, fun type hup hon hkeys => ?_,
    dprAuxTransaction_of_dpcdRead, dprAuxTransaction_of_edidRead⟩
  · have hcode : s.dprCode v = 0x96 := if_pos hreserved
    exact ⟨_, dprEnable_of_code hrun hoff (by rw [hcode]; decide), dprChecked_off s v, (dprChecked_reason s v).trans hcode,
      dprChecked_dp s v⟩
  · have hcode : s.dprCode v = 0 := by rw [State.dprCode, if_neg (by omega), hroom]; rfl
    refine ⟨_, (dprEnable_of_off v hrun hoff).trans (congrArg _ (if_pos hcode)), ?_, ?_, ?_⟩
    · rw [State.setDp_flag, State.flag_setFlag_self _ _ (by decide)]
    · rw [State.setDp_fld, State.fld_of_reg (State.reg_setFlag_ne _ _ (by decide)), dprChecked_reason, hcode]
    · rw [State.setDp_dp, dprChecked_dp]
      rfl
  · have hcode : s.dprCode v = 0x9A := by rw [State.dprCode, if_neg (by omega), hfull]; rfl
    exact ⟨_, dprEnable_of_code hrun hoff (by rw [hcode]; decide), dprChecked_off s v, (dprChecked_reason s v).trans hcode,
      dprChecked_dp s v⟩
  · rw [State.flag_of_reg (dprDown_reg _ (by decide)), State.flag_eq_false_iff, State.fld_setReg_self, BitVec.toNat_ofNat, bits]
    omega
  · rw [dprDown_dp, State.setReg_dp]
  · rw [dprDown_reg _ hstatus, State.reg_setReg_ne _ _ hctrl]
  · obtain ⟨hup, hspeed, hcount, hhdcp⟩ := dprTrained_status s rate.val lanes.val st.fmt.val
    refine ⟨?_, ?_, ?_, ?_, ?_, ?_⟩
    · rw [State.setDp_flag, State.flag_eq_true_iff, dprUp_fld _ _ _ _ _ (by decide), hup]
    · rw [State.setDp_fld, dprUp_fld _ _ _ _ _ (by decide), hspeed, Nat.mod_eq_of_lt (by omega)]
    · rw [State.setDp_fld, dprUp_fld _ _ _ _ _ (by decide), hcount, Nat.mod_eq_of_lt (by omega)]
    · rw [State.setDp_fld, dprUp_fld _ _ _ _ _ (by decide), hhdcp]
    · rw [State.setDp_fld, dprUp_reason]
      exact if_congr (rxAccepted_iff st) rfl rfl
    · rw [State.setDp_dp, dprUp_dp]
      rfl
  · rw [State.countSat, State.flag_of_reg (State.reg_setFld_ne _ _ _ _ (by decide)), (dprDown_status s).1]
  · rw [State.countSat, State.setFld_dp, dprDown_dp]
  · rw [reg_countSat, dprDown_reg s (by decide)]
  · obtain ⟨d, hexec⟩ := dprHdcpAuthentication_of_up type hup hon hkeys
    obtain ⟨hauth, htype⟩ := dprAuthenticated_status s type
    refine ⟨_, hexec, ?_, ?_, ?_⟩
    · rw [State.setDp_flag, hauth]
    · rw [State.setDp_fld, htype]
    · rw [State.setDp_out, State.dprAuthenticated, State.setFld_out]

end Sys2Proof.Machine
end

section
/-! PROOFS. What a write of device memory may change, and the dimming controller's own state under it. -/

namespace Sys2Proof.Machine

/-! ## The state of the dimming controller -/

/-- The state with another state of the dimming controller. -/
def State.setLdm (s : State) (l : LdmState) : State := { s with ldm := l }

@[simp] theorem State.setLdm_ldm (s : State) (l : LdmState) : (s.setLdm l).ldm = l := rfl
@[simp] theorem State.setLdm_reg (s : State) (l : LdmState) (a : Nat) : (s.setLdm l).reg a = s.reg a := rfl
@[simp] theorem State.setLdm_fld (s : State) (l : LdmState) (a hi lo : Nat) : (s.setLdm l).fld a hi lo = s.fld a hi lo := rfl
@[simp] theorem State.setLdm_flag (s : State) (l : LdmState) (a i : Nat) : (s.setLdm l).flag a i = s.flag a i := rfl
@[simp] theorem State.setLdm_regs (s : State) (l : LdmState) : (s.setLdm l).regs = s.regs := rfl
@[simp] theorem State.setLdm_out (s : State) (l : LdmState) : (s.setLdm l).out = s.out := rfl

theorem Reports.ldm {s t : State} (h : Reports s t) : t.ldm = s.ldm := by
  obtain ⟨⟨_, _, _, _, _, _, rfl⟩, -⟩ := h
  rfl

theorem Reads.ldm {s t : State} (h : Reads s t) : t.ldm = s.ldm := by
  obtain ⟨⟨_, _, _, _, _, _, _, rfl⟩, -⟩ := h
  rfl

/-! ## A write of device memory changes what a read may, and notes a write into a duty buffer (R311) -/

theorem reads_foldl_state {α : Type} (f : State → α → State) (h : ∀ s a, Reads s (f s a)) (l : List α) (s : State) :
    Reads s (l.foldl f s) := by
  induction l generalizing s with
  | nil => exact Reads.refl s
  | cons a l ih => exact (h s a).trans (ih _)

theorem reads_setMark (s : State) (n : Nat) (m : CwMark) : Reads s (s.setMark n m) := reads_dram s _

theorem reads_putCells (s : State) (cs : List Host.Cell) : Reads s (s.putCells cs) := reads_dram s _

theorem reads_writeCw (s : State) (n : Nat) (cs : List Host.Cell) : Reads s (s.writeCw n cs) := by
  have hmarked : ∀ cs m, Reads s ((s.putCells cs).setMark n m) := fun cs m => (reads_putCells s cs).trans (reads_setMark ..)
  unfold State.writeCw
  extract_lets m a
  refine reads_ite (hmarked ..) (reads_ite (reads_putCells ..) (reads_ite (hmarked ..) (reads_ite ?_ (reads_ite ?_ (reads_putCells ..)))))
  · exact (hmarked ..).trans ((reads_countSat _ _ _ _ (by decide)).trans (reads_of_reports (reports_rec0 ..)))
  · exact (reads_correctCw ..).trans ((reads_putCells ..).trans (reads_setMark ..))

theorem reads_dramWrite (s : State) (a : Nat) (bs : List (Option Byte)) : Reads s (s.dramWrite a bs) :=
  (reads_countBytes ..).trans (reads_foldl_state _ (fun s _ =>
    reads_ite (Reads.refl s) (reads_ite (reads_writeCw ..) (reads_putCells ..))) _ _)

theorem reads_fillLine (s : State) (line : Nat) (part : List Host.Cell) : Reads s (s.fillLine line part).2 := by
  have hcount := reads_countBytes s (line * 128) 128
  unfold State.fillLine
  extract_lets t
  split
  · exact Reads.refl s
  split
  · refine hcount.trans (reads_foldl _ (fun x i => ?_) _ (false, t))
    dsimp only
    split
    · exact Reads.refl _
    · exact reads_readCw ..
  · exact hcount

theorem reads_lineWrite (s : State) (cls line : Nat) (part : List Host.Cell) (noAlloc : Bool) :
    Reads s (s.lineWrite cls line part noAlloc) := by
  have hmerge : ∀ (t : State) (poison : Bool), Reads t (t.lineMerge line part poison) := fun t poison => reads_l2 t _
  have hheld := reads_l2Held s line
  unfold State.lineWrite
  generalize s.l2Held line = d at hheld ⊢
  obtain ⟨_ | poison, u⟩ := d
  · exact hheld.trans (reads_ite (reads_dramWrite ..) ((reads_fillLine u line part).trans (hmerge ..)))
  · exact hheld.trans (hmerge ..)

theorem reads_devWrite (s : State) (cls a : Nat) (bs : List (Option Byte)) (noAlloc : Bool) :
    Reads (s.dutyNote a bs) (s.devWrite cls a bs noAlloc) :=
  reads_foldl_state _ (fun s _ => reads_ite (Reads.refl s) (reads_lineWrite ..)) _ _

/-- A write notes which duty buffers it breaks and whether it stores the awaited tag. -/
theorem dutyNote_cases (s : State) (a : Nat) (bs : List (Option Byte)) :
    ∃ broken tagStored, s.dutyNote a bs = s.setLdm { s.ldm with broken := broken, tagStored := tagStored } := by
  unfold State.dutyNote
  extract_lets
  split <;> exact ⟨_, _, rfl⟩

theorem devWrite_ldm (s : State) (cls a : Nat) (bs : List (Option Byte)) (noAlloc : Bool) :
    ∃ broken tagStored, (s.devWrite cls a bs noAlloc).ldm = { s.ldm with broken := broken, tagStored := tagStored } := by
  obtain ⟨broken, tagStored, hnote⟩ := dutyNote_cases s a bs
  exact ⟨broken, tagStored, by rw [(reads_devWrite ..).ldm, hnote, State.setLdm_ldm]⟩

theorem devWrite_reg (s : State) (cls a : Nat) (bs : List (Option Byte)) (noAlloc : Bool) {r : Nat} (h : readReg r = false) :
    (s.devWrite cls a bs noAlloc).reg r = s.reg r := by
  obtain ⟨_, _, hnote⟩ := dutyNote_cases s a bs
  rw [(reads_devWrite ..).reg r h, hnote, State.setLdm_reg]

end Sys2Proof.Machine
end

section
/-! PROOFS. The publication of a frame's statistics (O12): a failed write, and a frame that is published (R302, R303, R318). -/

namespace Sys2Proof.Machine

/-! ## A frame that is held, and what follows a duty transfer (R308, R312, R314) -/

@[simp] theorem ldmAfterDuty_reg (s : State) (f a : Nat) : (s.ldmAfterDuty f).reg a = s.reg a := rfl
@[simp] theorem ldmAfterDuty_flag (s : State) (f a i : Nat) : (s.ldmAfterDuty f).flag a i = s.flag a i := rfl
@[simp] theorem ldmAfterDuty_out (s : State) (f : Nat) : (s.ldmAfterDuty f).out = s.out := rfl
@[simp] theorem ldmAfterDuty_dram (s : State) (f : Nat) : (s.ldmAfterDuty f).dram = s.dram := rfl
@[simp] theorem ldmAfterDuty_l2 (s : State) (f : Nat) : (s.ldmAfterDuty f).l2 = s.l2 := rfl
@[simp] theorem ldmAfterDuty_awaiting (s : State) (f : Nat) : (s.ldmAfterDuty f).ldm.awaiting = none := rfl
@[simp] theorem ldmAfterDuty_gathering (s : State) (f : Nat) : (s.ldmAfterDuty f).ldm.gathering = s.ldm.gathering := rfl
@[simp] theorem ldmAfterDuty_acc (s : State) (f : Nat) : (s.ldmAfterDuty f).ldm.acc = s.ldm.acc := rfl
@[simp] theorem ldmAfterDuty_shadowDuty (s : State) (f : Nat) : (s.ldmAfterDuty f).ldm.shadowDuty = s.ldm.shadowDuty := rfl

@[simp] theorem ldmHeld_ldm (s : State) : s.ldmHeld.ldm = s.ldm := by simp [State.ldmHeld, State.countSat]
@[simp] theorem ldmHeld_out (s : State) : s.ldmHeld.out = s.out := by simp [State.ldmHeld, State.countSat]
@[simp] theorem ldmHeld_dram (s : State) : s.ldmHeld.dram = s.dram := by simp [State.ldmHeld, State.countSat]
@[simp] theorem ldmHeld_l2 (s : State) : s.ldmHeld.l2 = s.l2 := by simp [State.ldmHeld, State.countSat]

theorem ldmHeld_reg (s : State) {a : Nat} (hstatus : a ≠ Reg.LDM_STATUS) (hcount : a ≠ Reg.LDM_COUNT) :
    s.ldmHeld.reg a = s.reg a := by
  rw [State.ldmHeld, State.countSat, State.reg_setFld_ne _ _ _ _ hcount, State.reg_setFlag_ne _ _ hstatus]

theorem ldmHeld_held (s : State) : s.ldmHeld.flag Reg.LDM_STATUS 2 = true := by
  rw [State.ldmHeld, State.countSat, State.flag_of_reg (State.reg_setFld_ne _ _ _ _ (by decide)), State.flag_setFlag_self _ _ (by decide)]

/-! ## The publication (R302, R303, R318) -/

/-- A failed statistics write at `a`: the duties of frame `f` are held, and the failure is recorded. -/
def State.statsFailed (s : State) (f : Nat) (a : BitVec 40) : State :=
  (s.gatherEnd.ldmHeld.rec0 0x0804 0x32 2 (a.toNat % 2 ^ 32) (a.toNat / 2 ^ 32)).ldmAfterDuty f

/-- The statistics of frame `f` are stored in its buffer and shown. -/
def State.statsStored (s : State) (f : Nat) : State :=
  (s.gatherEnd.devWrite 2 (s.statsBase (f % 2)) (full (s.statsBytes f s.zoneStats)) false).statsShown f

theorem statsShown_eq (s : State) (f : Nat) :
    s.statsShown f = ((s.setReg Reg.LDM_FRAME (BitVec.ofNat 32 f)).setFlag Reg.LDM_STATUS 1).setLdm
      { s.ldm with awaiting := some f, tagStored := false } := by
  simp [State.statsShown, State.setLdm]

theorem statsShown_reg (s : State) (f : Nat) {a : Nat} (hframe : a ≠ Reg.LDM_FRAME) (hstatus : a ≠ Reg.LDM_STATUS) :
    (s.statsShown f).reg a = s.reg a := by
  rw [statsShown_eq, State.setLdm_reg, State.reg_setFlag_ne _ _ hstatus, State.reg_setReg_ne _ _ hframe]

theorem statsShown_frame (s : State) (f : Nat) : (s.statsShown f).reg Reg.LDM_FRAME = BitVec.ofNat 32 f := by
  rw [statsShown_eq, State.setLdm_reg, State.reg_setFlag_ne _ _ (by decide), State.reg_setReg_self]

theorem statsShown_stats (s : State) (f : Nat) : (s.statsShown f).flag Reg.LDM_STATUS 1 = true := by
  rw [statsShown_eq, State.setLdm_flag, State.flag_setFlag_self _ _ (by decide)]

theorem statsPublish_of_early {s : State} {f : Nat} (h : s.ldm.gathering = some f) (hearly : s.ldm.lastIn = false)
    (failed : Option (BitVec 40)) : exec (.statsPublish failed) s = .next s := by
  change execStatsPublish failed s = _
  simp [execStatsPublish, h, hearly]

theorem statsPublish_of_failed {s : State} {f : Nat} (h : s.ldm.gathering = some f) (hlast : s.ldm.lastIn = true) (a : BitVec 40) :
    exec (.statsPublish (some a)) s = .next (s.statsFailed f a) := by
  change execStatsPublish (some a) s = _
  rw [execStatsPublish, h]
  exact if_neg (by simp [hlast])

theorem gatherEnd_statsBase (s : State) (b : Nat) : s.gatherEnd.statsBase b = s.statsBase b := rfl

theorem gatherEnd_statsBytes (s : State) (f : Nat) (zones : List ZoneAcc) : s.gatherEnd.statsBytes f zones = s.statsBytes f zones := rfl

theorem statsPublish_of_stored {s : State} {f : Nat} (h : s.ldm.gathering = some f) (hlast : s.ldm.lastIn = true) :
    exec (.statsPublish none) s = .next (if (s.statsStored f).ldmc Reg.LDM_CTRL 6 5 = 0
      then (s.statsStored f).cc3Map f s.zoneStats else s.statsStored f).statsEvent := by
  change execStatsPublish none s = _
  rw [execStatsPublish, h]
  dsimp only
  rw [if_neg (by simp [hlast]), gatherEnd_statsBase, gatherEnd_statsBytes, ← State.statsStored]

theorem reports_statsFailed (s : State) (f : Nat) (a : BitVec 40) :
    ∃ t, Reports s.gatherEnd.ldmHeld t ∧ s.statsFailed f a = t.ldmAfterDuty f := ⟨_, reports_rec0 .., rfl⟩

theorem statsStored_ldm (s : State) (f : Nat) : ∃ broken,
    (s.statsStored f).ldm = { s.gatherEnd.ldm with broken := broken, awaiting := some f, tagStored := false } := by
  obtain ⟨broken, _, h⟩ := devWrite_ldm s.gatherEnd 2 (s.statsBase (f % 2)) (full (s.statsBytes f s.zoneStats)) false
  refine ⟨broken, ?_⟩
  rw [State.statsStored, statsShown_eq, State.setLdm_ldm, h]

theorem statsStored_ldmc (s : State) (f a hi lo : Nat) : (s.statsStored f).ldmc a hi lo = s.ldmc a hi lo := by
  obtain ⟨_, h⟩ := statsStored_ldm s f
  rw [State.ldmc, h]
  rfl

/-- Whether a publication signals EVENT is what it was before. -/
theorem statsStored_event (s : State) (f : Nat) : (s.statsStored f).flag Reg.LDM_MAP3 31 = s.flag Reg.LDM_MAP3 31 :=
  State.flag_of_reg ((statsShown_reg _ f (by decide) (by decide)).trans (devWrite_reg _ _ _ _ _ (by decide))) 31

/-- With another map source and no EVENT, a publication does nothing more. -/
theorem statsPublish_of_quiet {s : State} {f : Nat} (h : s.ldm.gathering = some f) (hlast : s.ldm.lastIn = true)
    (hsource : s.ldmc Reg.LDM_CTRL 6 5 ≠ 0) (hevent : s.flag Reg.LDM_MAP3 31 = false) :
    exec (.statsPublish none) s = .next (s.statsStored f) := by
  rw [statsPublish_of_stored h hlast, if_neg (by rwa [statsStored_ldmc]), State.statsEvent, statsStored_event, hevent]
  rfl

/-- Settles O12: before the last line, a failed write, a publication, and what one without a map and an event leaves. -/
theorem statsPublish : Obligations.StatsPublish := by
  intro s f h
  refine ⟨statsPublish_of_early h, fun hlast a => ⟨statsPublish_of_failed h hlast a, _, statsPublish_of_failed h hlast a, ?_⟩,
    statsPublish_of_stored h, fun hlast hsource hevent => ⟨_, statsPublish_of_quiet h hlast hsource hevent, ?_⟩⟩
  · obtain ⟨t, hreport, heq⟩ := reports_statsFailed s f a
    have hldm : t.ldm = s.gatherEnd.ldm := hreport.ldm.trans (ldmHeld_ldm _)
    rw [heq]
    refine ⟨?_, ?_, rfl, ?_, ?_, ?_⟩
    · rw [ldmAfterDuty_gathering, hldm]
      rfl
    · rw [ldmAfterDuty_acc, hldm]
      rfl
    · rw [ldmAfterDuty_reg, hreport.reg _ (by decide), ldmHeld_reg _ (by decide) (by decide)]
      rfl
    · rw [ldmAfterDuty_dram, hreport.dram, ldmHeld_dram]
      rfl
    · rw [ldmAfterDuty_l2, hreport.l2, ldmHeld_l2]
      rfl
  · obtain ⟨broken, hldm⟩ := statsStored_ldm s f
    rw [hldm]
    exact ⟨rfl, rfl, statsShown_frame .., statsShown_stats ..⟩

end Sys2Proof.Machine
end

section
/-! PROOFS. The commands of the dimming controller (O11): enable and disable, the duties of a frame, diagnostic transfers and status
reads, the fault input (R303, R308, R312 to R317). -/

namespace Sys2Proof.Machine

/-! ## Enable and disable (R313, R316, R317) -/

/-- LDM_CTRL as an enable stores it before its check, with EN 0. -/
def State.ldmOff (s : State) (v : Word) : State :=
  (s.setReg Reg.LDM_CTRL (BitVec.ofNat 32 (v.toNat % 512))).clearFlag Reg.LDM_CTRL 0

/-- The code of the check at an enable that writes `v`. -/
def State.ldmCode (s : State) (v : Word) : Nat :=
  ldmCheck (fun a => if a = Reg.LDM_CTRL then (BitVec.ofNat 32 (v.toNat % 512)).toNat else ((s.ldmOff v).reg a).toNat)
    (s.ldmOff v).dspActive (s.ldmOff v).usable

/-- The check has ended: its code is in REASON. -/
def State.ldmChecked (s : State) (v : Word) : State := (s.ldmOff v).setFld Reg.LDM_STATUS 15 8 (s.ldmCode v)

/-- The settings are captured, to start with the next frame. -/
def State.ldmArmed (s : State) : State :=
  let s := s.setFlag Reg.LDM_CTRL 0
  s.setLdm { s.ldm with startNext := some s.ldmCapture }

/-- A passing enable: EN is set, the settings are captured, and the zone bitmaps are those of the grid. -/
def State.ldmEnabled (s : State) : State := s.ldmArmed.ldmBitmaps (s.ldmArmed.fld Reg.LDM_GRID 6 0 * s.ldmArmed.fld Reg.LDM_GRID 22 16)

theorem ldmEnable_of_off {s : State} (v : Word) (hrun : s.dispRuns = true) (hoff : s.flag Reg.LDM_CTRL 0 = false) :
    exec (.ldmEnable v) s = .next (if s.ldmCode v ≠ 0 then s.ldmChecked v else (s.ldmChecked v).ldmEnabled) := by
  change execLdmEnable v s = _
  rw [execLdmEnable, if_neg (by simp [hrun])]
  refine (if_neg (by simp [hoff])).trans ?_
  exact (apply_ite Host.Outcome.next ..).symm

/-- The bitmaps lie beyond the controller's other registers. -/
theorem ldmBitmaps_reg (s : State) (n : Nat) {a : Nat} (h : a < Reg.LDM_UNDIAG 0) : (s.ldmBitmaps n).reg a = s.reg a := by
  unfold State.ldmBitmaps
  refine List.foldlRecOn (motive := fun t : State => t.reg a = s.reg a) _ _ rfl (fun t ht i _ => ?_)
  unfold Reg.LDM_UNDIAG at h
  rw [State.reg_setReg_ne _ _ (by unfold Reg.LDM_SHORT; omega), State.reg_setReg_ne _ _ (by unfold Reg.LDM_OPEN; omega),
    State.reg_setReg_ne _ _ (by unfold Reg.LDM_UNDIAG; omega), ht]

theorem ldmBitmaps_ldm (s : State) (n : Nat) : (s.ldmBitmaps n).ldm = s.ldm := by
  unfold State.ldmBitmaps
  refine List.foldlRecOn (motive := fun t : State => t.ldm = s.ldm) _ _ rfl (fun t ht i _ => ?_)
  rw [State.setReg_ldm, State.setReg_ldm, State.setReg_ldm, ht]

theorem ldmChecked_en (s : State) (v : Word) : (s.ldmChecked v).flag Reg.LDM_CTRL 0 = false := by
  rw [State.ldmChecked, State.flag_of_reg (State.reg_setFld_ne _ _ _ _ (by decide)), State.ldmOff,
    State.flag_clearFlag_self _ _ (by decide)]

theorem ldmChecked_reason (s : State) (v : Word) : (s.ldmChecked v).fld Reg.LDM_STATUS 15 8 = s.ldmCode v % 256 :=
  State.fld_setFld_self _ _ _ (by decide) (by decide)

theorem ldmChecked_ldm (s : State) (v : Word) : (s.ldmChecked v).ldm = s.ldm := by
  rw [State.ldmChecked, State.setFld_ldm, State.ldmOff, State.clearFlag_ldm, State.setReg_ldm]

theorem ldmEnabled_en (s : State) : s.ldmEnabled.flag Reg.LDM_CTRL 0 = true := by
  rw [State.ldmEnabled, State.flag_of_reg (ldmBitmaps_reg _ _ (by decide)), State.ldmArmed, State.setLdm_flag,
    State.flag_setFlag_self _ _ (by decide)]

theorem ldmEnabled_reason (s : State) : s.ldmEnabled.fld Reg.LDM_STATUS 15 8 = s.fld Reg.LDM_STATUS 15 8 := by
  rw [State.ldmEnabled, State.fld_of_reg (ldmBitmaps_reg _ _ (by decide)), State.ldmArmed, State.setLdm_fld,
    State.fld_of_reg (State.reg_setFlag_ne _ _ (by decide))]

theorem ldmEnabled_startNext (s : State) : s.ldmEnabled.ldm.startNext = some (s.setFlag Reg.LDM_CTRL 0).ldmCapture := by
  rw [State.ldmEnabled, ldmBitmaps_ldm, State.ldmArmed, State.setLdm_ldm]

theorem ldmDisable_of_on {s : State} (v : Word) (hrun : s.dispRuns = true) (hon : s.flag Reg.LDM_CTRL 0 = true) :
    exec (.ldmDisable v) s = .next ((s.setReg Reg.LDM_CTRL (BitVec.ofNat 32 (v.toNat % 512 / 2 * 2))).setLdm
      { s.ldm with stopNext := true, startNext := none }) := by
  change execLdmDisable v s = _
  rw [execLdmDisable, if_neg (by simp [hrun])]
  exact if_pos hon

/-! ## The duties of a frame (R303, R308) -/

theorem dutyTagPoll_of_static {s : State} {f : Nat} (h : s.ldm.awaiting = some f) (hstatic : s.ldmc Reg.LDM_CTRL 6 5 = 2) :
    exec .dutyTagPoll s = .next (s.sendDuties 0 f) := by
  change execDutyTagPoll s = _
  rw [execDutyTagPoll, h]
  exact if_pos hstatic

theorem dutyTagPoll_of_read {s s' : State} {f : Nat} {bs : List Byte} (h : s.ldm.awaiting = some f)
    (hsource : s.ldmc Reg.LDM_CTRL 6 5 ≠ 2) (hread : s.devRead 2 (s.dutyBase (f % 2)) 4 false = (bs, false, s')) :
    exec .dutyTagPoll s = .next (if leNat bs = f then s'.sendDuties (f % 2) f else s') := by
  change execDutyTagPoll s = _
  rw [execDutyTagPoll, h]
  refine (if_neg hsource).trans ?_
  rw [hread, apply_ite Host.Outcome.next]
  exact if_neg Bool.false_ne_true

theorem dutyHeld_of_static {s : State} {f : Nat} (h : s.ldm.awaiting = some f) (hstatic : s.ldmc Reg.LDM_CTRL 6 5 = 2) :
    exec .dutyHeld s = .next s := by
  change execDutyHeld s = _
  rw [execDutyHeld, h]
  exact if_pos hstatic

theorem dutyHeld_of_late {s : State} {f : Nat} (h : s.ldm.awaiting = some f) (hsource : s.ldmc Reg.LDM_CTRL 6 5 ≠ 2) :
    exec .dutyHeld s = .next (s.ldmHeld.ldmAfterDuty f) := by
  change execDutyHeld s = _
  rw [execDutyHeld, h]
  exact if_neg hsource

/-! ## Diagnostic transfers and status reads (R312 to R314) -/

@[simp] theorem spiSend_out (s : State) (p : Nat) (words : List Nat) :
    (s.spiSend p words).out = s.out ++ [Output.spi p (s.ldmc Reg.LDM_SPI 9 8) words] := rfl
@[simp] theorem spiSend_regs (s : State) (p : Nat) (words : List Nat) : (s.spiSend p words).regs = s.regs := State.emit_regs ..
@[simp] theorem spiSend_reg (s : State) (p : Nat) (words : List Nat) (a : Nat) : (s.spiSend p words).reg a = s.reg a :=
  State.reg_emit ..
@[simp] theorem spiSend_ldm (s : State) (p : Nat) (words : List Nat) : (s.spiSend p words).ldm = s.ldm := State.emit_ldm ..

/-- What a diagnostic transfer sends after DIAG_CMD and DIAG_W: the bitmap of the port's low zones, and a CRC where one is enabled. -/
def State.diagBitmap (s : State) (p : Nat) : List Nat :=
  let marks := packBits ((s.ldmBand p).map (fun z => s.zoneLow z && s.ldmc Reg.LDM_DIAG1 24 24 == 0))
  marks ++ (if s.ldmc Reg.LDM_SPI 12 12 = 1 then [crc16 (s.ldmc Reg.LDM_DIAG 15 8 :: marks)] else [])

theorem diagTransfer_of_due {s : State} {p : Fin 4} (h : s.ldm.diagDue.contains p.val = true) :
    exec (.diagTransfer p) s = .next
      ((s.spiSend p.val (s.ldmc Reg.LDM_CMD 31 16 :: s.ldmc Reg.LDM_DIAG 15 8 :: s.diagBitmap p.val)).setLdm
        { s.ldm with diagDue := s.ldm.diagDue.filter (fun q => q != p.val) }) := by
  change execDiagTransfer p s = _
  rw [execDiagTransfer, if_pos h]
  rfl

theorem statusRead_of_due {s : State} {p : Fin 4} (hdue : s.ldm.readDue.contains p.val = true)
    (hport : s.ldmPortList.contains p.val = true) :
    exec (.statusRead p) s = .next
      (((s.spiSend p.val [s.ldmc Reg.LDM_STATCMD 15 0]).setFlag Reg.LDM_STATUS 6).setLdm
        { s.ldm with readDue := s.ldm.readDue.filter (fun q => q != p.val), readNow := p.val :: s.ldm.readNow }) := by
  change execStatusRead p s = _
  rw [execStatusRead, if_pos (by rw [hdue, hport]; rfl)]
  simp [State.setLdm]

theorem statusReadComplete_of_reading {s : State} {p : Fin 4} (codes : List (BitVec 2)) (h : s.ldm.readNow.contains p.val = true) :
    let s1 := s.setLdm { s.ldm with readNow := s.ldm.readNow.filter (fun q => q != p.val) }
    exec (.statusReadComplete p codes) s = .next
      (((s1.ldmBand p.val).zip codes).foldl (fun s zc => State.zoneStatus s zc.1 zc.2.toNat) s1).ldmReadsEnd := by
  intro s1
  change execStatusReadComplete p codes s = _
  rw [execStatusReadComplete, if_pos h]
  rfl

/-! ## The fault input (R315) -/

/-- An assertion of LD_FAULT_N is flagged, counted and recorded. -/
def State.ldFaulted (s : State) : State :=
  ((s.setFlag Reg.LDM_STATUS 3).countSat Reg.LDM_COUNT 31 16 1).rec0 0x0802 0x32 1 0 (s.reg Reg.DSP_FRAME).toNat

theorem ldFaulted_status (s : State) : s.ldFaulted.reg Reg.LDM_STATUS = (s.setFlag Reg.LDM_STATUS 3).reg Reg.LDM_STATUS := by
  rw [State.ldFaulted, (reports_rec0 ..).reg _ (by decide), State.countSat, State.reg_setFld_ne _ _ _ _ (by decide)]

theorem ldFaulted_ldm (s : State) : s.ldFaulted.ldm = s.ldm := by
  rw [State.ldFaulted, (reports_rec0 ..).ldm, State.countSat, State.setFld_ldm, State.setFlag_ldm]

theorem ldFault_of_low {s : State} (hrun : s.dispRuns = true) :
    exec (.ldFault true) s = .next (s.ldFaulted.setLdm { s.ldm with
      faultPin := true,
      readNext := if s.flag Reg.LDM_STATUS 0 then s.ldm.readNext ++ [(s.reg Reg.DSP_FRAME).toNat] else s.ldm.readNext }) := by
  have hrunning : s.ldFaulted.flag Reg.LDM_STATUS 0 = s.flag Reg.LDM_STATUS 0 := by
    rw [State.flag_of_reg (ldFaulted_status s), State.flag_setFlag_apart _ _ (by decide) (by decide)]
  rw [← ldFaulted_ldm, ← hrunning]
  change execLdFault true s = _
  rw [execLdFault, if_neg (by simp [hrun])]
  rfl

theorem ldFault_of_high {s : State} (hrun : s.dispRuns = true) :
    exec (.ldFault false) s = .next (s.setLdm { s.ldm with faultPin := false }) := by
  change execLdFault false s = _
  rw [execLdFault, if_neg (by simp [hrun])]
  rfl

/-! ## The statement -/

/-- Settles O11, command by command. -/
theorem dimmingCommands : Obligations.DimmingCommands := by
  intro s
  refine ⟨fun v hrun hoff => ?_, fun v hrun hon => ⟨_, ldmDisable_of_on v hrun hon, ?_, State.setLdm_ldm ..⟩,
    fun f => dutyTagPoll_of_static, fun f bs s' => dutyTagPoll_of_read, fun f => dutyHeld_of_static,
    fun f h hsource => ⟨_, dutyHeld_of_late h hsource, ldmAfterDuty_awaiting .., ?_, ?_, ?_⟩,
    fun p h => ⟨_, s.diagBitmap p.val, diagTransfer_of_due h, ?_, ?_, State.setLdm_ldm ..⟩,
    fun p hdue hport => ⟨_, statusRead_of_due hdue hport, ?_, ?_, fun a ha => ?_, State.setLdm_ldm ..⟩,
    fun p codes => statusReadComplete_of_reading codes,
    fun hrun => ⟨_, ldFault_of_low hrun, ?_, State.setLdm_ldm ..⟩, ldFault_of_high⟩
  · intro w s1 code
    rw [ldmEnable_of_off v hrun hoff]
    by_cases hcode : s.ldmCode v = 0
    · refine ⟨_, congrArg _ (if_neg (not_not_intro hcode)), ?_, ?_, absurd hcode, fun _ => ldmEnabled_startNext _⟩
      · rw [ldmEnabled_en]
        exact (decide_eq_true hcode).symm
      · rw [ldmEnabled_reason, ldmChecked_reason]
        rfl
    · refine ⟨_, congrArg _ (if_pos hcode), ?_, ldmChecked_reason s v, fun _ => ldmChecked_ldm s v, fun h => absurd h hcode⟩
      rw [ldmChecked_en]
      exact (decide_eq_false hcode).symm
  · rw [State.setLdm_flag, State.flag_eq_false_iff, State.fld_setReg_self, BitVec.toNat_ofNat, bits]
    omega
  · rw [ldmAfterDuty_flag, ldmHeld_held]
  · rw [ldmAfterDuty_shadowDuty, ldmHeld_ldm]
  · rw [ldmAfterDuty_out, ldmHeld_out]
  · rw [State.setLdm_out, spiSend_out]
  · rw [State.setLdm_regs, spiSend_regs]
  · rw [State.setLdm_out, State.setFlag_out, spiSend_out]
  · rw [State.setLdm_flag, State.flag_setFlag_self _ _ (by decide)]
  · rw [State.setLdm_reg, State.reg_setFlag_ne _ _ ha, spiSend_reg]
  · rw [State.setLdm_flag, State.flag_of_reg (ldFaulted_status s), State.flag_setFlag_self _ _ (by decide)]

end Sys2Proof.Machine
end

section
/-! PROOFS. Queues as the command processor keeps them: what a stored queue, an advanced RPTR and the end of a control packet leave,
and the end of a control packet in the ring (O22). -/

namespace Sys2Proof.Machine

/-! ## A stored queue and its pointers (R337, R338) -/

@[simp] theorem queue_setQueue_self (s : State) (q : Nat) (u : Queue) : (s.setQueue q u).queue q = some u :=
  Sparse.find_put_self ..

theorem queue_setQueue_ne (s : State) {q q' : Nat} (u : Queue) (h : q' ≠ q) : (s.setQueue q u).queue q' = s.queue q' :=
  Sparse.find_put_ne _ _ h

theorem reg_setQueue_ne (s : State) {q a : Nat} (u : Queue) (h : a ≠ Reg.CPR_Q_STATUS q) : (s.setQueue q u).reg a = s.reg a := by
  have hregs : (s.setQueue q u).regs = (s.setFld (Reg.CPR_Q_STATUS q) 20 16 u.inflight).regs := rfl
  rw [State.reg, hregs]
  exact s.reg_setFld_ne 20 16 u.inflight h

theorem rptr_setQueue (s : State) (q : Nat) (u : Queue) : (s.setQueue q u).rptr q = s.rptr q := by
  rw [State.rptr, State.rptr, reg_setQueue_ne]
  unfold Reg.DB_RPTR Reg.CPR_Q_STATUS
  omega

theorem advanceRptr_cases (s : State) (q ptr : Nat) :
    s.advanceRptr q ptr = if laterThan ptr (s.rptr q) then s.setReg (Reg.DB_RPTR q) (BitVec.ofNat 32 ptr) else s := rfl

@[simp] theorem advanceRptr_queue (s : State) (q ptr q' : Nat) : (s.advanceRptr q ptr).queue q' = s.queue q' := by
  rw [advanceRptr_cases]
  split <;> rfl

@[simp] theorem advanceRptr_ctxs (s : State) (q ptr : Nat) : (s.advanceRptr q ptr).ctxs = s.ctxs := by
  rw [advanceRptr_cases]
  split <;> rfl

theorem rptr_advanceRptr (s : State) (q ptr : Nat) :
    (s.advanceRptr q ptr).rptr q = if laterThan ptr (s.rptr q) then ptr % 2 ^ 32 else s.rptr q := by
  rw [advanceRptr_cases]
  split
  · rw [State.rptr, State.reg_setReg_self, BitVec.toNat_ofNat]
  · rfl

/-! ## The end of a control packet (R342) -/

/-- A queue that executes the ring has no buffer to leave. -/
theorem endStream_of_ring {s : State} {q : Nat} {u : Queue} (hq : s.queue q = some u) (hring : u.stream = none) : s.endStream q = s := by
  rw [State.endStream, hq]
  simp only [hring]

theorem updStatus_of_written {s s2 : State} {q : Nat} (h : s.putStatus q = (none, s2)) : s.updStatus q = s2 := by
  rw [State.updStatus, h]

theorem ctrlDone_of_ring {s s2 : State} {q : Nat} {u : Queue} (hring : u.stream = none)
    (h : ((s.setQueue q u).advanceRptr q u.fetch).putStatus q = (none, s2)) : s.ctrlDone q u = s2 := by
  have hq : ((s.setQueue q u).advanceRptr q u.fetch).queue q = some u := by simp
  simp only [State.ctrlDone, hring, Option.isNone_none, if_true]
  rw [endStream_of_ring hq hring, updStatus_of_written h]

/-- Settles O22: the queue is stored, RPTR advances, and nothing else of the queues and contexts changes. -/
theorem controlPacketMoves : Obligations.ControlPacketMoves := by
  intro s s2 q u hring hput
  refine ⟨ctrlDone_of_ring hring hput, by simp, ?_, by simp, fun q' hq' => ?_⟩
  · rw [rptr_advanceRptr, rptr_setQueue]
  · rw [advanceRptr_queue, queue_setQueue_ne _ _ hq']

end Sys2Proof.Machine
end

section
/-! PROOFS. Doorbells (O16): the writes that a queue accepts and ignores, and a packet that lies before WPTR (R337, R338). -/

namespace Sys2Proof.Machine

section Doorbell
variable {s : State} {q : Fin 64} {w : Word} {u : Queue} (hrun : s.uncRuns = true)
include hrun

theorem doorbell_of_wptr (h : w.toNat = s.wptr q.val) : exec (.doorbell q w) s = .next s := by
  change execDoorbell q w s = _
  simp [execDoorbell, hrun, h]

variable (hne : w.toNat ≠ s.wptr q.val)
include hne

theorem doorbell_of_never_enabled (hq : s.queue q.val = none) (hoff : s.qState q.val = 0) :
    exec (.doorbell q w) s = .next (s.setFlag (Reg.CPR_Q_STATUS q.val) 3) := by
  change execDoorbell q w s = _
  simp [execDoorbell, hrun, hne, hq, hoff]

variable (hq : s.queue q.val = some u)
include hq

theorem doorbell_of_accepted (hok : s.qState q.val = 1 ∧ w.toNat % 4 = 0 ∧ diff32 w.toNat (s.rptr q.val) ≤ 2 ^ u.log2
    ∧ diff32 w.toNat (s.wptr q.val) < 2 ^ 31) : exec (.doorbell q w) s = .next (s.setReg (Reg.DB_WPTR q.val) w) := by
  change execDoorbell q w s = _
  simp only [execDoorbell, hrun, hq, Bool.not_true, Bool.false_eq_true, if_false, if_neg hne, if_pos hok]

theorem doorbell_of_ignored (hbad : ¬(s.qState q.val = 1 ∧ w.toNat % 4 = 0 ∧ diff32 w.toNat (s.rptr q.val) ≤ 2 ^ u.log2
    ∧ diff32 w.toNat (s.wptr q.val) < 2 ^ 31)) : exec (.doorbell q w) s = .next
      (if s.qState q.val = 0 then s.setFlag (Reg.CPR_Q_STATUS q.val) 3
       else (if u.errIe then (s.setFlag (Reg.CPR_Q_STATUS q.val) 3).raiseVec u.errVec
         else s.setFlag (Reg.CPR_Q_STATUS q.val) 3).recC 0x0901 0x02 1 u.ctx q.val w.toNat) := by
  have hq' : (s.setFlag (Reg.CPR_Q_STATUS q.val) 3).queue q.val = some u := hq
  change execDoorbell q w s = _
  simp only [execDoorbell, hrun, hq, Bool.not_true, Bool.false_eq_true, if_false, if_neg hne, if_neg hbad, hq']
  split <;> rfl

end Doorbell

/-- In the ring a packet is fetched only where all of it lies before WPTR. -/
theorem before_wptr_of_fetchPkt {s s' : State} {u : Queue} {p : Pkt} (hring : u.stream = none) (h : s.fetchPkt u p = (.ok, s')) :
    pktLen p ≤ diff32 (s.wptr p.q.val) u.fetch ∧ diff32 (s.wptr p.q.val) u.fetch < 2 ^ 31
      ∧ p.body.length = bits p.hdr.toNat 17 8 := by
  unfold State.fetchPkt at h
  simp only [hring, Option.any_none, Bool.or_false, Option.isNone_none, Bool.true_and] at h
  split at h
  · cases h
  next hbody =>
  split at h
  · cases h
  next havail =>
  simp only [Bool.or_eq_true, decide_eq_true_eq, not_or, not_lt, not_le, ne_eq, Decidable.not_not] at hbody havail
  exact ⟨havail.1, havail.2, hbody⟩

/-- Settles O16: the value of WPTR, a queue never enabled, the accepted and the ignored writes, and the fetch. -/
theorem doorbells : Obligations.Doorbells := by
  intro q w s hrun
  refine ⟨doorbell_of_wptr hrun, doorbell_of_never_enabled hrun, fun u hq =>
    ⟨fun hne => doorbell_of_accepted hrun hne hq, fun hne hbad hoff => ?_, fun hne hbad hon => ?_,
      fun p s' => before_wptr_of_fetchPkt⟩⟩
  · rw [doorbell_of_ignored hrun hne hq hbad, if_pos hoff]
  · rw [doorbell_of_ignored hrun hne hq hbad, if_neg hon]

end Sys2Proof.Machine
end

section
/-! PROOFS. The life of a queue (O18): its enable, the registers of a queue that becomes enabled, its disable (R336, R340). -/

namespace Sys2Proof.Machine

/-! ## Enable (R336) -/

section Enable
variable {s : State} {q : Fin 64} (hrun : s.uncRuns = true) (hen : s.flag (Reg.CPR_Q_CTRL q.val) 0 = false)
include hrun hen

theorem qEnable_of_not_disabled (hst : s.qState q.val ≠ 0) :
    exec (.qEnable q) s = .next (s.setFld (Reg.CPR_Q_STATUS q.val) 15 8 5) := by
  change execQEnable q s = _
  simp [execQEnable, hrun, hen, hst, State.qReason]

theorem qEnable_of_misplaced (hst : s.qState q.val = 0) (hdesc : s.reg64 (Reg.CPR_Q_DESC_LO q.val) % 64 ≠ 0) :
    exec (.qEnable q) s = .next (s.setFld (Reg.CPR_Q_STATUS q.val) 15 8 6) := by
  change execQEnable q s = _
  simp [execQEnable, hrun, hen, hst, hdesc, State.qReason]

end Enable

/-- A descriptor of a normal queue that breaks no rule of R335 about the queue itself. -/
structure QueueDescOk (d : List Byte) : Prop where
  version : dwordAt d 0 % 256 = 1
  high : dwordAt d 0 / 2 ^ 16 = 0
  reserved : bits (dwordAt d 0) 15 13 = 0
  small : 12 ≤ dwordAt d 0x10
  large : dwordAt d 0x10 ≤ 22
  ring : dwordAt d 8 % 4096 = 0
  status : dwordAt d 0x18 % 64 = 0
  errVec : dwordAt d 0x20 = 0
  tail : ∀ b ∈ d.drop 0x28, b = 0

/-- The normal queue that such a descriptor gives: empty, at the start of its ring. -/
def newQueue (d : List Byte) : Queue :=
  ⟨bits (dwordAt d 0) 12 8, false, dwordAt d 8, dwordAt d 0x10, dwordAt d 0x18, 0, false, 0, 0, 0, [], none, none, [], none, 0, 0, 0,
    0, 0, 0, 0, 0, 0, 0, 0, none, 0, []⟩

/-- A queue becomes enabled: EN, both pointers, its charged time, the queue itself, STATE and REASON. -/
def State.queueUp (s : State) (q : Nat) (u : Queue) : State :=
  ((((((s.setFlag (Reg.CPR_Q_CTRL q) 0).setReg (Reg.DB_WPTR q) 0).setReg (Reg.DB_RPTR q) 0).setReg64
    (Reg.SCH_Q_TIME_LO q) 0).setQueue q u).setFld (Reg.CPR_Q_STATUS q) 2 0 1).qReason q 0

theorem qEnable_of_right {s s1 : State} {q : Fin 64} {d : List Byte} (hrun : s.uncRuns = true)
    (hen : s.flag (Reg.CPR_Q_CTRL q.val) 0 = false) (hst : s.qState q.val = 0) (ha : s.reg64 (Reg.CPR_Q_DESC_LO q.val) % 64 = 0)
    (husable : s.reg64 (Reg.CPR_Q_DESC_LO q.val) + 64 ≤ s.usable)
    (hread : s.devRead cpClass (s.reg64 (Reg.CPR_Q_DESC_LO q.val)) 64 false = (d, false, s1)) (hd : QueueDescOk d)
    (hctx : s1.fld (Reg.CPR_CTX_STATUS (bits (dwordAt d 0) 12 8)) 1 0 = 1) :
    exec (.qEnable q) s = .next ((s1.queueUp q.val (newQueue d)).reserves.updStatus q.val) := by
  have hnormal : bit (dwordAt d 0) 16 = false := by rw [bit, hd.high]; rfl
  have htop : dwordAt d 0 / 2 ^ 17 = 0 := by have := hd.high; omega
  have hlog : dwordAt d 0x10 / 32 = 0 := by have := hd.large; omega
  have herr : bits (dwordAt d 0x20) 30 6 = 0 ∧ dwordAt d 0x20 / 2 ^ 32 = 0 := by rw [hd.errVec]; exact ⟨rfl, rfl⟩
  -- The address becomes opaque: comparing terms, the kernel would unfold its product with 2 ^ 32 step by step.
  generalize haddr : s.reg64 (Reg.CPR_Q_DESC_LO q.val) = a at ha husable hread
  change execQEnable q s = _
  unfold execQEnable
  extract_lets n addr
  replace haddr : addr = a := haddr
  clear_value addr
  subst haddr
  rw [if_neg (by simp [n, hrun, hen]), if_neg (not_not.2 hst), if_neg (by omega), hread]
  dsimp only
  rw [if_neg, if_neg (not_not.2 hctx), if_neg (by simp [hnormal])]
  · have hvec : bit 0 31 = false := by decide
    simp only [hnormal, hd.errVec, hvec, Nat.zero_mod]
    rw [State.queueUp, newQueue]
  · simp only [Bool.or_eq_true, decide_eq_true_eq, List.any_eq_true, not_or, not_exists, not_and, not_not, not_lt, hd.reserved, htop,
      hlog, herr.1, herr.2, hd.version, hd.ring, hd.status, Bool.false_eq_true, not_false_eq_true, true_and, and_true]
    exact ⟨⟨hd.tail, hd.small⟩, hd.large⟩

/-! ## What an enabled queue's registers hold -/

section Up
variable (s : State) (q : Fin 64) (u : Queue)

theorem queueUp_queue : (s.queueUp q.val u).queue q.val = some u := by
  rw [State.queue, State.queueUp, State.qReason, State.setFld_queues, State.setFld_queues]
  exact Sparse.find_put_self ..

/-- Of the registers below SCH's only those of the queue's page and descriptor change. -/
theorem queueUp_reg {a : Nat} (hlow : a < 0x070000) (hst : a ≠ Reg.CPR_Q_STATUS q.val) :
    (s.queueUp q.val u).reg a = (((s.setFlag (Reg.CPR_Q_CTRL q.val) 0).setReg (Reg.DB_WPTR q.val) 0).setReg (Reg.DB_RPTR q.val) 0).reg a := by
  have htime : a ≠ Reg.SCH_Q_TIME_LO q.val ∧ a ≠ Reg.SCH_Q_TIME_LO q.val + 4 := by
    unfold Reg.SCH_Q_TIME_LO
    omega
  rw [State.queueUp, State.qReason, State.reg_setFld_ne _ _ _ _ hst, State.reg_setFld_ne _ _ _ _ hst, reg_setQueue_ne _ _ hst,
    State.setReg64, State.reg_setReg_ne _ _ htime.2, State.reg_setReg_ne _ _ htime.1]

theorem queueUp_rptr : (s.queueUp q.val u).rptr q.val = 0 := by
  rw [State.rptr, queueUp_reg, State.reg_setReg_self]
  · rfl
  · unfold Reg.DB_RPTR
    omega
  · unfold Reg.DB_RPTR Reg.CPR_Q_STATUS
    omega

theorem queueUp_wptr : (s.queueUp q.val u).wptr q.val = 0 := by
  rw [State.wptr, queueUp_reg, State.reg_setReg_ne, State.reg_setReg_self]
  · rfl
  · unfold Reg.DB_WPTR Reg.DB_RPTR
    omega
  · unfold Reg.DB_WPTR
    omega
  · unfold Reg.DB_WPTR Reg.CPR_Q_STATUS
    omega

theorem queueUp_en : (s.queueUp q.val u).flag (Reg.CPR_Q_CTRL q.val) 0 = true := by
  have hreg : (s.queueUp q.val u).reg (Reg.CPR_Q_CTRL q.val) = (s.setFlag (Reg.CPR_Q_CTRL q.val) 0).reg (Reg.CPR_Q_CTRL q.val) := by
    rw [queueUp_reg, State.reg_setReg_ne, State.reg_setReg_ne]
    · unfold Reg.CPR_Q_CTRL Reg.DB_WPTR
      omega
    · unfold Reg.CPR_Q_CTRL Reg.DB_RPTR
      omega
    · unfold Reg.CPR_Q_CTRL
      omega
    · unfold Reg.CPR_Q_CTRL Reg.CPR_Q_STATUS
      omega
  rw [State.flag_of_reg hreg, State.flag_setFlag_self _ _ (by decide)]

theorem queueUp_qState : (s.queueUp q.val u).qState q.val = 1 := by
  rw [State.qState, State.queueUp, State.qReason, State.fld_setFld_apart _ _ _ (by decide) (by decide) (by decide),
    State.fld_setFld_self _ _ _ (by decide) (by decide)]
  rfl

theorem queueUp_reason : (s.queueUp q.val u).fld (Reg.CPR_Q_STATUS q.val) 15 8 = 0 := by
  rw [State.queueUp, State.qReason, State.fld_setFld_self _ _ _ (by decide) (by decide), Nat.zero_mod]

end Up

/-! ## Disable (R340) -/

theorem qState_clear_en (s : State) (q : Nat) : (s.clearFlag (Reg.CPR_Q_CTRL q) 0).qState q = s.qState q :=
  State.fld_of_reg (State.reg_clearFlag_ne _ _ (by unfold Reg.CPR_Q_CTRL Reg.CPR_Q_STATUS; omega)) 2 0

section Disable
variable {s : State} {q : Fin 64} (hrun : s.uncRuns = true) (hen : s.flag (Reg.CPR_Q_CTRL q.val) 0 = true)
include hrun hen

theorem qDisable_of_stopped (hst : 3 ≤ s.qState q.val) :
    exec (.qDisable q) s = .next ((s.clearFlag (Reg.CPR_Q_CTRL q.val) 0).queueOff q.val).reserves := by
  change execQDisable q s = _
  simp [execQDisable, hrun, hen, qState_clear_en, hst]

theorem qDisable_of_running {u : Queue} (hst : s.qState q.val < 3) (hq : s.queue q.val = some u) :
    exec (.qDisable q) s = .next (((((s.clearFlag (Reg.CPR_Q_CTRL q.val) 0).setQueue q.val
      { u with units := u.units.filter (fun w => w.started.isSome), wait := none }).setQState q.val 2).drainDone q.val).putStatuses [q.val]) := by
  have hq' : (s.clearFlag (Reg.CPR_Q_CTRL q.val) 0).queue q.val = some u := hq
  change execQDisable q s = _
  simp [execQDisable, hrun, hen, qState_clear_en, Nat.not_le.2 hst, hq']

end Disable

/-- Settles O18: the enable that finds the queue in use or its descriptor misplaced, the one that passes, and the two ends of a
disable. -/
theorem queueLifecycle : Obligations.QueueLifecycle := by
  intro q s hrun
  refine ⟨qEnable_of_not_disabled hrun, qEnable_of_misplaced hrun, ?_, qDisable_of_stopped hrun, fun u hen => qDisable_of_running hrun hen⟩
  intro d s1 hen hst ha husable hread hversion hhigh hreserved hsmall hlarge hring hstatus herr htail hctx
  exact ⟨newQueue d, s1.queueUp q.val (newQueue d), qEnable_of_right hrun hen hst ha husable hread
    ⟨hversion, hhigh, hreserved, hsmall, hlarge, hring, hstatus, herr, htail⟩ hctx, queueUp_queue .., rfl, rfl, rfl, rfl, rfl, rfl,
    queueUp_en .., queueUp_qState .., queueUp_reason .., queueUp_wptr .., queueUp_rptr ..⟩

end Sys2Proof.Machine
end

section
/-! PROOFS. Event registers (O19): a signal where no queue waits, and a reset (R350 to R354). -/

namespace Sys2Proof.Machine

/-! ## A signal (R352, R353) -/

/-- An event's registers after a signal, and its vector raised where IE is 1; what follows are the waits it ends. -/
def State.evtRaised (s : State) (e : Nat) : State :=
  let s := (s.countWrap (Reg.CPR_EVT_GEN e) 31 0 1).setFlag (Reg.CPR_EVT_CTRL e) 0
  if s.flag (Reg.CPR_EVT_CTRL e) 5 then s.raiseVec (s.fld (Reg.CPR_EVT_CTRL e) 21 16) else s

theorem evtFire_eq (s : State) (e : Nat) : s.evtFire e = (s.evtRaised e).endWaits e := rfl

theorem reports_evtRaised (s : State) (e : Nat) :
    Reports ((s.countWrap (Reg.CPR_EVT_GEN e) 31 0 1).setFlag (Reg.CPR_EVT_CTRL e) 0) (s.evtRaised e) := by
  unfold State.evtRaised
  extract_lets t
  exact reports_ite (reports_raiseVec t (fld_lt t _ 21 16)) (Reports.refl t)

theorem Reports.queues {s t : State} (h : Reports s t) : t.queues = s.queues := by
  obtain ⟨⟨_, _, _, _, _, _, rfl⟩, -⟩ := h
  rfl

theorem evtRaised_queues (s : State) (e : Nat) : (s.evtRaised e).queues = s.queues := by
  rw [(reports_evtRaised s e).queues, State.setFlag_queues, State.countWrap, State.setFld_queues]

theorem endWaits_of_no_wait {s : State} (h : ∀ q u, (q, u) ∈ s.queues → u.wait = none) (e : Nat) : s.endWaits e = s := by
  unfold State.endWaits
  extract_lets hits consume t
  have hhits : hits = [] := List.filter_eq_nil_iff.2 fun p hp => by simp [h p.1 p.2 hp]
  simp only [consume, t, hhits]
  rfl

theorem evtSignal_of_no_wait {s : State} (h : ∀ q u, (q, u) ∈ s.queues → u.wait = none) (e : Nat) : s.evtSignal e = s.evtRaised e := by
  unfold State.evtSignal
  extract_lets was
  have hwas : was = [] := List.map_eq_nil_iff.2 (List.filter_eq_nil_iff.2 fun p hp => by simp [h p.1 p.2 hp])
  rw [hwas, List.foldl_nil]
  rw [evtFire_eq, endWaits_of_no_wait]
  rwa [evtRaised_queues]

/-! ## The registers of events -/

theorem reportReg_evt {e : Nat} (h : e < 4096) :
    reportReg (Reg.CPR_EVT_CTRL e) = false ∧ reportReg (Reg.CPR_EVT_GEN e) = false := by
  unfold reportReg Reg.CPR_EVT_CTRL Reg.CPR_EVT_GEN
  simp only [Bool.or_eq_false_iff, Bool.and_eq_false_iff, beq_eq_false_iff_ne, decide_eq_false_iff_not]
  omega

theorem evtCtrl_ne_gen (e e' : Nat) : Reg.CPR_EVT_CTRL e ≠ Reg.CPR_EVT_GEN e' := by
  unfold Reg.CPR_EVT_CTRL Reg.CPR_EVT_GEN
  omega

theorem flag_evtRaised_self (s : State) {e : Nat} (h : e < 4096) : (s.evtRaised e).flag (Reg.CPR_EVT_CTRL e) 0 = true := by
  rw [(reports_evtRaised s e).flag (reportReg_evt h).1, State.flag_setFlag_self _ _ (by decide)]

theorem gen_evtRaised_self (s : State) {e : Nat} (h : e < 4096) :
    (s.evtRaised e).fld (Reg.CPR_EVT_GEN e) 31 0 = ((s.reg (Reg.CPR_EVT_GEN e)).toNat + 1) % 2 ^ 32 := by
  have hgen : s.fld (Reg.CPR_EVT_GEN e) 31 0 = (s.reg (Reg.CPR_EVT_GEN e)).toNat := by
    rw [State.fld, bits, Nat.pow_zero, Nat.div_one, Nat.mod_eq_of_lt (s.reg _).isLt]
  rw [(reports_evtRaised s e).fld (reportReg_evt h).2, State.fld_of_reg (State.reg_setFlag_ne _ _ (evtCtrl_ne_gen e e).symm),
    State.countWrap, State.fld_setFld_self _ _ _ (by decide) (by decide), hgen]

theorem reg_evtRaised_of_other (s : State) {e a : Nat} (ha : reportReg a = false) (hctrl : a ≠ Reg.CPR_EVT_CTRL e)
    (hgen : a ≠ Reg.CPR_EVT_GEN e) : (s.evtRaised e).reg a = s.reg a := by
  rw [(reports_evtRaised s e).reg a ha, State.reg_setFlag_ne _ _ hctrl, State.countWrap, State.reg_setFld_ne _ _ _ _ hgen]

theorem evtRaised_other (s : State) {e e' : Nat} (h : e' < 4096) (hne : e' ≠ e) :
    (s.evtRaised e).reg (Reg.CPR_EVT_CTRL e') = s.reg (Reg.CPR_EVT_CTRL e')
      ∧ (s.evtRaised e).reg (Reg.CPR_EVT_GEN e') = s.reg (Reg.CPR_EVT_GEN e') := by
  have hctrl : Reg.CPR_EVT_CTRL e' ≠ Reg.CPR_EVT_CTRL e := by
    unfold Reg.CPR_EVT_CTRL
    omega
  have hgen : Reg.CPR_EVT_GEN e' ≠ Reg.CPR_EVT_GEN e := by
    unfold Reg.CPR_EVT_GEN
    omega
  exact ⟨reg_evtRaised_of_other s (reportReg_evt h).1 hctrl (evtCtrl_ne_gen _ _),
    reg_evtRaised_of_other s (reportReg_evt h).2 (evtCtrl_ne_gen _ _).symm hgen⟩

/-! ## The commands -/

theorem evtRegSignal_of_no_wait {s : State} (e : Fin 4096) (hrun : s.uncRuns = true) (h : ∀ q u, (q, u) ∈ s.queues → u.wait = none) :
    exec (.evtRegSignal e) s = .next (s.evtRaised e.val) := by
  change execEvtRegSignal e s = _
  rw [execEvtRegSignal, if_pos hrun, evtSignal_of_no_wait h]

theorem evtRegReset_of_runs {s : State} (e : Fin 4096) (hrun : s.uncRuns = true) :
    exec (.evtRegReset e) s = .next (s.clearFlag (Reg.CPR_EVT_CTRL e.val) 0) := by
  change execEvtRegReset e s = _
  rw [execEvtRegReset, if_pos hrun, State.evtReset]

/-- Settles O19: what a signal leaves in the registers of its event and of the others, and a reset. -/
theorem eventRegisters : Obligations.EventRegisters := by
  intro e s hrun
  refine ⟨fun h => ⟨_, evtRegSignal_of_no_wait e hrun h, flag_evtRaised_self s e.isLt, gen_evtRaised_self s e.isLt, fun e' hne => ?_,
    evtRaised_queues ..⟩, evtRegReset_of_runs e hrun, State.reg_clearFlag_ne _ _ (evtCtrl_ne_gen _ _).symm⟩
  exact evtRaised_other s e'.isLt (Fin.val_ne_of_ne hne)

end Sys2Proof.Machine
end

section
/-! PROOFS. Control packets (O20): what each does to its queue and to events (R342, R350 to R359). -/

namespace Sys2Proof.Machine

section ControlPackets
variable {s s' s1 : State} {p : Pkt} {u : Queue} {ptr : Nat}

theorem nop_of_runs (h : PktRuns s p 0x00 u ptr s') : exec (.nop p) s = .next (s'.ctrlDone p.q.val u) :=
  withCtrl_runs _ _ _ h rfl (.inl rfl)

/-! ## Events (R351, R352, R354) -/

theorem eventSignal_of_allowed (h : PktRuns s p 0x10 u ptr s') (hdone : EarlierDone s p.q.val) (hmode : bits (pw p 0) 13 12 = 0)
    (hallow : s'.evtAllowed u.ctx (bits (pw p 0) 11 0) false = true) (haddr : pd p 1 = 0) :
    exec (.eventSignal p) s = .next (((s'.setQueue p.q.val u).evtSignal (bits (pw p 0) 11 0)).ctrlDone p.q.val u) := by
  change execEventSignal p s = _
  rw [execEventSignal, withCtrl_runs _ _ _ h (by simp [hmode]) (.inr hdone)]
  rw [if_neg (by simp [hmode, hallow])]
  exact congrArg _ (if_pos haddr)

theorem eventSignal_of_refused (h : PktRuns s p 0x10 u ptr s') (hdone : EarlierDone s p.q.val) (hmode : bits (pw p 0) 13 12 = 0)
    (hallow : s'.evtAllowed u.ctx (bits (pw p 0) 11 0) false = false) :
    exec (.eventSignal p) s = .next (s'.refuseCtrl p.q.val u ptr 0x0E) := by
  change execEventSignal p s = _
  rw [execEventSignal, withCtrl_runs _ _ _ h (by simp [hmode]) (.inr hdone)]
  rw [if_pos (by simp [hallow])]

theorem eventSignalReset_of_runs (h : PktRuns s p 0x10 u ptr s') (hdone : EarlierDone s p.q.val) (hmode : bits (pw p 0) 13 12 = 1) :
    exec (.eventSignalReset p) s = .next
      (if s'.evtAllowed u.ctx (bits (pw p 0) 11 0) false = true then (s'.evtReset (bits (pw p 0) 11 0)).ctrlDone p.q.val u
       else s'.refuseCtrl p.q.val u ptr 0x0E) := by
  change execEventSignalReset p s = _
  rw [execEventSignalReset, withCtrl_runs _ _ _ h (by simp [hmode]) (.inr hdone)]
  cases hallow : s'.evtAllowed u.ctx (bits (pw p 0) 11 0) false <;> simp [hallow]

theorem eventWait_of_allowed (h : PktRuns s p 0x11 u ptr s') (hmode : bits (pw p 0) 13 12 < 2)
    (hallow : s'.evtAllowed u.ctx (bits (pw p 0) 11 0) true = true) :
    let e := bits (pw p 0) 11 0
    let mode := bits (pw p 0) 13 12
    exec (.eventWait p) s = .next
      (if s'.waitMet e mode (pw p 1) then (if bit (pw p 0) 14 then s'.evtReset e else s').ctrlDone p.q.val u
       else s'.setQueue p.q.val { u with wait := some (.event e mode (pw p 1) (bit (pw p 0) 14) (s'.deadline (pw p 2))) }) := by
  change execEventWait p s = _
  rw [execEventWait, withCtrl_runs _ _ _ h rfl (.inl rfl)]
  rw [if_neg (by simp [hallow, hmode])]

/-! ## Loops (R357, R359) -/

theorem loop_of_room (h : PktRuns s p 0x19 u ptr s') (hroom : u.loops.length < 4) :
    exec (.loop p) s = .next (s'.ctrlDone p.q.val { u with loops := (match u.stream with
      | some st => ⟨pw p 0, st.pos, false⟩
      | none => ⟨pw p 0, u.fetch, true⟩) :: u.loops }) := by
  change execLoop p s = _
  rw [execLoop, withCtrl_runs _ _ _ h rfl (.inl rfl), if_neg (Nat.not_le.2 hroom)]
  cases u.stream <;> rfl

theorem loop_of_full (h : PktRuns s p 0x19 u ptr s') (hfull : 4 ≤ u.loops.length) :
    exec (.loop p) s = .next (s'.stopQueue p.q.val ptr 0x0F) := by
  change execLoop p s = _
  rw [execLoop, withCtrl_runs _ _ _ h rfl (.inl rfl), if_pos hfull]

theorem loopEnd_of_none (h : PktRuns s p 0x1A u ptr s') (hloops : u.loops = []) :
    exec (.loopEnd p) s = .next (s'.stopQueue p.q.val ptr 0x0F) := by
  change execLoopEnd p s = _
  rw [execLoopEnd, withCtrl_runs _ _ _ h rfl (.inl rfl), hloops]

theorem loopEnd_of_last {l : LoopLevel} {t : List LoopLevel} (h : PktRuns s p 0x1A u ptr s') (hloops : u.loops = l :: t)
    (hring : l.inRing = u.stream.isNone) (hcount : l.count = 1) :
    exec (.loopEnd p) s = .next (s'.ctrlDone p.q.val { u with loops := t }) := by
  change execLoopEnd p s = _
  rw [execLoopEnd, withCtrl_runs _ _ _ h rfl (.inl rfl), hloops]
  dsimp only
  rw [if_neg (not_not.2 hring), if_pos (by omega)]

theorem loopEnd_of_more {l : LoopLevel} {t : List LoopLevel} (h : PktRuns s p 0x1A u ptr s') (hloops : u.loops = l :: t)
    (hstream : u.stream = none) (hring : l.inRing = true) (hlo : 2 ≤ l.count) (hhi : l.count < 2 ^ 32) :
    exec (.loopEnd p) s = .next (s'.ctrlDone p.q.val { u with loops := { l with count := l.count - 1 } :: t, fetch := l.body }) := by
  have hcount : (l.count + 2 ^ 32 - 1) % 2 ^ 32 = l.count - 1 := by omega
  change execLoopEnd p s = _
  rw [execLoopEnd, withCtrl_runs _ _ _ h rfl (.inl rfl), hloops]
  dsimp only
  rw [if_neg (by simp [hring, hstream]), if_neg (by omega), hcount, hstream]

/-! ## Indirect buffers (R358, R359) -/

theorem indirect_of_ring (h : PktRuns s p 0x1D u ptr s') (hring : u.stream = none) (ha : pd p 0 % 4 = 0) (hlen : pw p 2 % 4 = 0)
    (hlo : 4 ≤ pw p 2) (hhi : pw p 2 ≤ 16777216) :
    exec (.indirect p) s = .next (s'.setQueue p.q.val { u with stream := some ⟨pd p 0, pw p 2, 0, false, false⟩ }) := by
  change execIndirect p s = _
  rw [execIndirect, withCtrl_runs _ _ _ h rfl (.inl rfl)]
  dsimp only
  rw [if_neg (by simp [hring]), if_neg (by simp [ha, hlen]; omega)]

theorem indirect_of_buffer (h : PktRuns s p 0x1D u ptr s') (hbuffer : u.stream.isSome = true) :
    exec (.indirect p) s = .next (s'.stopQueue p.q.val ptr 0x0F) := by
  change execIndirect p s = _
  rw [execIndirect, withCtrl_runs _ _ _ h rfl (.inl rfl)]
  exact congrArg _ (if_pos hbuffer)

end ControlPackets

/-- Settles O20, packet by packet. -/
theorem controlPackets : Obligations.ControlPackets := fun _ _ _ _ _ =>
  ⟨nop_of_runs, eventSignal_of_allowed, eventSignal_of_refused, eventSignalReset_of_runs, eventWait_of_allowed, loop_of_room, loop_of_full,
    fun _ _ => loopEnd_of_last, fun _ _ => loopEnd_of_more, loopEnd_of_none, indirect_of_ring, indirect_of_buffer⟩

end Sys2Proof.Machine
end

section
/-! PROOFS. Control packets that read or write memory, and waits that time out (O21, R333, R354, R356). -/

namespace Sys2Proof.Machine

section MemoryPackets
variable {s s' s1 : State} {p : Pkt} {u : Queue} {ptr v : Nat}

/-! ## Conditional skips and waits on memory (R356) -/

theorem cond_of_read (h : PktRuns s p 0x18 u ptr s') (hdone : EarlierDone s p.q.val) (hring : u.stream = none) (ha : pd p 0 % 4 = 0)
    (hfunc : bits (pw p 4) 2 0 ≠ 7) (hread : s'.cpValue u.ctx (pd p 0) 4 = (some v, s1)) :
    exec (.cond p) s = .next (s1.ctrlDone p.q.val
      (if memCompare (bits (pw p 4) 2 0) v (pw p 2) (pw p 3) then u else { u with fetch := (u.fetch + pw p 5) % 2 ^ 32 })) := by
  have hpass : u.pass_ (pw p 5) = { u with fetch := (u.fetch + pw p 5) % 2 ^ 32 } := by rw [Queue.pass_, hring]
  change execCond p s = _
  rw [execCond, withCtrl_runs _ _ _ h rfl (.inr hdone)]
  dsimp only
  rw [if_neg (by simp [ha, hfunc]), if_neg (by simp [hring]), hread, hpass]

theorem cond_of_misaligned (h : PktRuns s p 0x18 u ptr s') (hdone : EarlierDone s p.q.val) (ha : pd p 0 % 4 ≠ 0) :
    exec (.cond p) s = .next (s'.refuseCtrl p.q.val u ptr 0x14) := by
  change execCond p s = _
  rw [execCond, withCtrl_runs _ _ _ h rfl (.inr hdone)]
  dsimp only
  rw [if_pos (by simp [ha])]

theorem waitMem_of_read (h : PktRuns s p 0x1B u ptr s') (hdone : EarlierDone s p.q.val) (ha : pd p 0 % 4 = 0)
    (hfunc : bits (pw p 4) 2 0 ≠ 7) (hlo : 1 ≤ pw p 6 % 65536) (hhi : pw p 6 % 65536 ≤ 1000)
    (hread : s'.cpValue u.ctx (pd p 0) 4 = (some v, s1)) :
    exec (.waitMem p) s = .next
      (if memCompare (bits (pw p 4) 2 0) v (pw p 2) (pw p 3) then s1.ctrlDone p.q.val u
       else s1.setQueue p.q.val { u with wait := some (.mem (pd p 0) (pw p 2) (pw p 3) (bits (pw p 4) 2 0) (pw p 6 % 65536)
         (s1.time + us (pw p 6 % 65536)) (s1.deadline (pw p 5))) }) := by
  have hpoll : pw p 6 % 65536 ≠ 0 := by omega
  change execWaitMem p s = _
  rw [execWaitMem, withCtrl_runs _ _ _ h rfl (.inr hdone)]
  dsimp only
  rw [if_neg (by simp [ha, hfunc, hpoll, hhi]), hread]

theorem waitMemPoll_of_read {q : Fin 64} {a mask ref func poll next : Nat} {until_ : Option Nat} (hq : s.queue q.val = some u)
    (hwait : u.wait = some (.mem a mask ref func poll next until_)) (hdue : next ≤ s.time) (hread : s.cpValue u.ctx a 4 = (some v, s1)) :
    exec (.waitMemPoll q) s = .next
      (if memCompare func v mask ref then s1.ctrlDone q.val { u with wait := none }
       else s1.setQueue q.val { u with wait := some (.mem a mask ref func poll (s1.time + us poll) until_) }) := by
  change execWaitMemPoll q s = _
  rw [execWaitMemPoll, hq]
  dsimp only
  rw [hwait]
  dsimp only
  rw [if_neg (Nat.not_lt.2 hdue), hread]
  exact (apply_ite Host.Outcome.next ..).symm

/-! ## Writes (R356) and object tables (R333) -/

/-- The bytes that a WRITE_MEM stores, by its SRC. -/
def writeSource (s : State) (p : Pkt) (u : Queue) : List Byte := match bits (pw p 2) 1 0 with
  | 0 => leBytes 4 (pw p 3)
  | 1 => leBytes 8 (pd p 3)
  | 2 => leBytes 8 s.time
  | _ => leBytes 4 u.retired

theorem writeMem_of_written (h : PktRuns s p 0x1C u ptr s') (hdone : EarlierDone s p.q.val)
    (ha : pd p 0 % (writeSource s' p u).length = 0)
    (hwrite : s'.vwrite .command u.ctx (pd p 0) cpClass (full (writeSource s' p u)) false false = (none, s1)) :
    exec (.writeMem p) s = .next (s1.ctrlDone p.q.val u) := by
  change execWriteMem p s = _
  rw [execWriteMem, withCtrl_runs _ _ _ h rfl (.inr hdone)]
  extract_lets a src bytes
  replace ha : a % bytes.length = 0 := ha
  replace hwrite : s'.vwrite .command u.ctx a cpClass (full bytes) false false = (none, s1) := hwrite
  rw [if_neg (not_not.2 ha), hwrite]

theorem writeMem_of_word (h : PktRuns s p 0x1C u ptr s') (hdone : EarlierDone s p.q.val) (hsrc : bits (pw p 2) 1 0 = 0)
    (ha : pd p 0 % 4 = 0)
    (hwrite : s'.vwrite .command u.ctx (pd p 0) cpClass (full (leBytes 4 (pw p 3))) false false = (none, s1)) :
    exec (.writeMem p) s = .next (s1.ctrlDone p.q.val u) := by
  have hbytes : writeSource s' p u = leBytes 4 (pw p 3) := by
    rw [writeSource, hsrc]
    rfl
  exact writeMem_of_written h hdone (by rw [hbytes]; exact ha) (by rw [hbytes]; exact hwrite)

theorem writeMem_of_time (h : PktRuns s p 0x1C u ptr s') (hdone : EarlierDone s p.q.val) (hsrc : bits (pw p 2) 1 0 = 2)
    (ha : pd p 0 % 8 = 0)
    (hwrite : s'.vwrite .command u.ctx (pd p 0) cpClass (full (leBytes 8 s'.time)) false false = (none, s1)) :
    exec (.writeMem p) s = .next (s1.ctrlDone p.q.val u) := by
  have hbytes : writeSource s' p u = leBytes 8 s'.time := by
    rw [writeSource, hsrc]
    rfl
  exact writeMem_of_written h hdone (by rw [hbytes]; exact ha) (by rw [hbytes]; exact hwrite)

theorem objSync_of_read {x : Ctx} {objs : List MemObject} (h : PktRuns s p 0x24 u ptr s') (hctx : s'.ctx u.ctx = some x)
    (hread : s'.readObjects u.ctx x.obj x.objCount = (some objs, s1)) :
    exec (.objSync p) s = .next
      ({ s1 with ctxs := Sparse.update s1.ctxs u.ctx (fun x => { x with objects := objs }) }.ctrlDone p.q.val u) := by
  change execObjSync p s = _
  rw [execObjSync, withCtrl_runs _ _ _ h rfl (.inl rfl), hctx]
  dsimp only
  rw [hread]

/-! ## Waits whose deadline has come (R354, R356) -/

/-- A queue goes on past the packet whose wait has timed out. -/
def State.waitGivenUp (s : State) (q : Nat) (u : Queue) : State :=
  ((s.waitTimeout q).advanceRptr q (if u.stream.isNone then u.fetch else s.rptr q)).endStream q

section Timeout
variable {q : Fin 64} {t : Nat} (hq : s.queue q.val = some u)
include hq

theorem eventWaitTimeout_of_wait (h : ∃ e mode g c, u.wait = some (.event e mode g c (some t))) :
    exec (.eventWaitTimeout q) s = .next (if t ≤ s.time then s.waitGivenUp q.val u else s) := by
  obtain ⟨e, mode, g, c, hwait⟩ := h
  change execEventWaitTimeout q s = _
  rw [execEventWaitTimeout, hq]
  dsimp only
  rw [hwait]
  exact (apply_ite Host.Outcome.next ..).symm

theorem waitMemTimeout_of_wait (h : ∃ a m r f p n, u.wait = some (.mem a m r f p n (some t))) :
    exec (.waitMemTimeout q) s = .next (if t ≤ s.time then s.waitGivenUp q.val u else s) := by
  obtain ⟨a, m, r, f, poll, n, hwait⟩ := h
  change execWaitMemTimeout q s = _
  rw [execWaitMemTimeout, hq]
  dsimp only
  rw [hwait]
  exact (apply_ite Host.Outcome.next ..).symm

end Timeout

end MemoryPackets

/-- Settles O21, packet by packet, then the two timeouts. -/
theorem memoryPackets : Obligations.MemoryPackets := fun _ _ _ _ _ _ _ =>
  ⟨cond_of_read, cond_of_misaligned, waitMem_of_read, fun _ _ _ _ _ _ _ _ _ => waitMemPoll_of_read, writeMem_of_word, writeMem_of_time,
    fun _ _ => objSync_of_read, fun _ _ _ hq => ⟨eventWaitTimeout_of_wait hq, waitMemTimeout_of_wait hq⟩⟩

end Sys2Proof.Machine
end

section
/-! PROOFS. Packets of units of work (O23): each decoded as a unit, or refused with the code of its check (R343 to R349, R364). -/

namespace Sys2Proof.Machine

/-! ## The check of a copy (R167, R348) -/

theorem check_of_empty (c : CopyOp) (op limit : Nat) (busy : Bool) (h : c.width = 0 ∨ c.height = 0) : c.check op limit busy = 0x41 :=
  if_pos h

/-- A copy that passes its check ends inside its address space (R167). -/
theorem CopyOp.end_le_of_check_zero {c : CopyOp} {op limit : Nat} {busy : Bool} (h : c.check op limit busy = 0) :
    c.dst + c.extent c.dpitch ≤ limit := by
  unfold CopyOp.check at h
  extract_lets fill at h
  split at h
  · cases h
  split at h
  · cases h
  split at h
  · cases h
  split at h
  · cases h
  split at h
  · cases h
  next hrange => exact Nat.le_of_not_lt fun hlt => hrange (.inl hlt)

/-! ## The check of a token step (R364) -/

/-- The unit of a TOKEN_STEP. -/
def stepOf (p : Pkt) : UnitKind :=
  .step (bits (pw p 0) 3 0) (bits (pw p 0) 13 8) (pd p 1) (pw p 3) (pd p 4) (pw p 6 % 4096) (bit (pw p 6) 31)

/-- Whether a context holds a model slot. -/
def State.holdsSlot (s : State) (c n : Nat) : Bool := match Sparse.find s.slots n with
  | some x => x.ctx == c
  | none => false

theorem holdsSlot_eq_true {s : State} {c n : Nat} {x : Slot} (hx : Sparse.find s.slots n = some x) (hc : x.ctx = c) : s.holdsSlot c n = true := by
  rw [State.holdsSlot, hx]
  exact beq_iff_eq.2 hc

theorem holdsSlot_eq_false {s : State} {c n : Nat} (h : ∀ x, Sparse.find s.slots n = some x → x.ctx ≠ c) : s.holdsSlot c n = false := by
  unfold State.holdsSlot
  split
  next x hx => exact beq_eq_false_iff_ne.2 (h x hx)
  · rfl

/-- Whether an operand of a TOKEN_STEP is out of range, or its queue is a real-time one. -/
def stepBad (p : Pkt) (u : Queue) : Bool :=
  u.rt || bits (pw p 0) 13 8 == 0 || 32 < bits (pw p 0) 13 8 || pd p 4 % 64 ≠ 0 || pd p 1 % 4 ≠ 0 || pw p 3 % 4 ≠ 0
    || pw p 3 < 4 || 16777216 < pw p 3

/-- The code that the check of a TOKEN_STEP gives. -/
def State.stepCode (s : State) (p : Pkt) (u : Queue) : Nat :=
  if !s.holdsSlot u.ctx (bits (pw p 0) 3 0) then 0x10 else if stepBad p u then 0x12 else 0

/-! ## The packets that run -/

section UnitPackets
variable {s s' : State} {p : Pkt} {u : Queue} {ptr : Nat} (hroom : RoomForUnit s p.q.val)
include hroom

theorem dispatch_of_runs (h : PktRuns s p 0x01 u ptr s') :
    exec (.dispatch p) s = .next (s'.addUnit p.q.val u ptr (pktOrder p) false (.dispatch (kernelOf p))).2 :=
  (withUnit_runs true false (.dispatch (kernelOf p)) (fun _ s => (0, s)) (fun _ _ s => s) h rfl hroom).trans
    (congrArg _ (if_neg (not_not.2 rfl)))

/-- What a COPY or COPY_FILL that runs comes to: refused with its check's code, or waiting for a channel. -/
def State.copyQueued (s : State) (p : Pkt) (u : Queue) (ptr : Nat) : State :=
  let code := (copyOf p).check (bits (pw p 8) 2 1) (2 ^ 48) false
  let a := s.addUnit p.q.val u ptr (pktOrder p) true (.copy (copyOf p))
  if code ≠ 0 then s.refuseUnit p.q.val u ptr code (pktOrder p) (.copy (copyOf p))
  else ({ a.2 with sched := { a.2.sched with
    copyWait := a.2.sched.copyWait ++ [(p.q.val, (⟨p.q.val, a.1, u.ctx, copyOf p, false⟩ : CopyRun))] } }).copyArb 4

theorem copyPkt_of_runs {fill : Bool} (hfill : (copyOf p).fill = fill) (h : PktRuns s p 0x08 u ptr s') :
    s.copyPkt p fill = .next (s'.copyQueued p u ptr) := by
  unfold State.copyPkt State.copyQueued
  rw [withUnit_runs _ _ _ _ _ h (beq_iff_eq.2 hfill) hroom]

/-! ## L2 maintenance (R349) -/

theorem l2Maint_of_reserved (h : PktRuns s p 0x20 u ptr s') (hop : pw p 0 % 8 = 0 ∨ pw p 0 % 8 = 7) :
    exec (.l2Maint p) s = .next (s'.refuseUnit p.q.val u ptr 0x13 (pktOrder p) (.maint 0x20 p.body)) := by
  change execL2Maint p s = _
  rw [execL2Maint, withUnit_runs _ _ _ _ _ h rfl hroom]
  rcases hop with hop | hop <;> simp [hop]

theorem l2Maint_of_whole (h : PktRuns s p 0x20 u ptr s') (hop : pw p 0 % 8 = 1 ∨ pw p 0 % 8 = 2) :
    let a := s'.addUnit p.q.val u ptr (pktOrder p) true (.maint 0x20 p.body)
    exec (.l2Maint p) s = .next (a.2.maintAdd ⟨pw p 0 % 8, 0, 0, some (p.q.val, a.1)⟩) := by
  change execL2Maint p s = _
  rw [execL2Maint, withUnit_runs _ _ _ _ _ h rfl hroom]
  rcases hop with hop | hop <;> simp [hop, rangeOp]

/-! ## Token steps (R364) -/

theorem tokenStep_of_runs (h : PktRuns s p 0x2A u ptr s') :
    exec (.tokenStep p) s = .next
      (if s'.stepCode p u ≠ 0 then s'.refuseUnit p.q.val u ptr (s'.stepCode p u) (pktOrder p) (stepOf p)
       else (s'.addUnit p.q.val u ptr (pktOrder p) false (stepOf p)).2) :=
  withUnit_runs true false (stepOf p) (fun u s => (s.stepCode p u, s)) (fun _ _ s => s) h rfl hroom

theorem tokenStep_of_foreign (h : PktRuns s p 0x2A u ptr s')
    (hslot : ∀ x, Sparse.find s'.slots (bits (pw p 0) 3 0) = some x → x.ctx ≠ u.ctx) :
    exec (.tokenStep p) s = .next (s'.refuseUnit p.q.val u ptr 0x10 (pktOrder p) (stepOf p)) := by
  have hcode : s'.stepCode p u = 0x10 := by rw [State.stepCode, holdsSlot_eq_false hslot]; rfl
  rw [tokenStep_of_runs hroom h, if_pos (by rw [hcode]; decide), hcode]

theorem tokenStep_of_owned (h : PktRuns s p 0x2A u ptr s') {x : Slot} (hx : Sparse.find s'.slots (bits (pw p 0) 3 0) = some x)
    (hc : x.ctx = u.ctx) (hok : stepBad p u = false) :
    exec (.tokenStep p) s = .next (s'.addUnit p.q.val u ptr (pktOrder p) false (stepOf p)).2 := by
  have hcode : s'.stepCode p u = 0 := by rw [State.stepCode, holdsSlot_eq_true hx hc, hok]; rfl
  rw [tokenStep_of_runs hroom h, if_neg (not_not.2 hcode)]

end UnitPackets

/-- Settles O23, packet by packet. -/
theorem unitPackets : Obligations.UnitPackets := by
  intro s s' p u ptr hroom
  refine ⟨dispatch_of_runs hroom, fun fill hfill h => ⟨fun hf => ?_, fun hf => ?_, check_of_empty _ _ _ _, CopyOp.end_le_of_check_zero⟩,
    l2Maint_of_reserved hroom, l2Maint_of_whole hroom, tokenStep_of_foreign hroom,
    fun x h hx hc hrt hlo hhi ha hprog hlen hmin hmax => tokenStep_of_owned hroom h hx hc ?_⟩
  · subst hf
    exact copyPkt_of_runs hroom hfill h
  · subst hf
    exact copyPkt_of_runs hroom hfill h
  · simp [stepBad, hrt, ha, hprog, hlen]
    omega

end Sys2Proof.Machine
end

section
/-! PROOFS. Model slots and sequences (O24): the packets that define, release, submit and cancel (R360 to R363). -/

namespace Sys2Proof.Machine

/-! ## Slot descriptors (R360) -/

/-- A slot that a descriptor gives is its context's, empty, not resident, and has run no step. -/
theorem parseSlot_new {s : State} {c : Nat} {d : List Byte} {x : Slot} (h : s.parseSlot c d = some x) :
    x.ctx = c ∧ x.usedPages = [] ∧ x.resident = false ∧ x.steps = 0 := by
  unfold State.parseSlot at h
  extract_lets at h
  split at h
  · cases h
  · cases h
    exact ⟨rfl, rfl, rfl, rfl⟩

section Packets
variable {s s' s1 : State} {p : Pkt} {u : Queue} {ptr : Nat} {d : List Byte}

/-! ## SLOT_DEFINE (R361) -/

theorem slotDefine_of_read {x : Slot} (h : PktRuns s p 0x28 u ptr s') (hop : bits (pw p 0) 5 4 = 0)
    (hfree : Sparse.find s'.slots (bits (pw p 0) 3 0) = none) (ha : pd p 1 % 64 = 0)
    (hread : s'.vread .command u.ctx (pd p 1) 576 cpClass false false = (.ok d none, s1)) (hx : s1.parseSlot u.ctx d = some x) :
    exec (.slotDefine p) s = .next
      (({ s1 with slots := Sparse.put s1.slots (bits (pw p 0) 3 0) x }.slotRegs (bits (pw p 0) 3 0)).ctrlDone p.q.val u) := by
  change execSlotDefine p s = _
  rw [execSlotDefine, withCtrl_runs _ _ _ h (by simp [hop]) (.inl rfl)]
  dsimp only
  rw [if_neg (by simp [hop, hfree, ha]), hread]
  dsimp only
  rw [hx]

theorem slotDefine_of_bad (h : PktRuns s p 0x28 u ptr s') (hop : bits (pw p 0) 5 4 ≠ 1)
    (hbad : bits (pw p 0) 5 4 ≠ 0 ∨ (Sparse.find s'.slots (bits (pw p 0) 3 0)).isSome = true ∨ pd p 1 % 64 ≠ 0) :
    exec (.slotDefine p) s = .next (s'.refuseCtrl p.q.val u ptr 0x10) := by
  change execSlotDefine p s = _
  rw [execSlotDefine, withCtrl_runs _ _ _ h (by simp [hop]) (.inl rfl)]
  dsimp only
  rw [if_pos (by simpa [or_assoc] using hbad)]

/-! ## SLOT_RELEASE (R361) -/

/-- A step of a slot that waits to start. -/
def WorkUnit.waitsOn (w : WorkUnit) (n : Nat) : Bool := match w.kind with
  | .step slot .. => slot == n && w.started.isNone
  | _ => false

theorem waitsOn_eq_true_iff (w : WorkUnit) (n : Nat) :
    w.waitsOn n = true ↔ ∃ a b c d e f, w.kind = .step n a b c d e f ∧ w.started = none := by
  unfold WorkUnit.waitsOn
  constructor
  · intro h
    split at h
    next slot a b c d e f hkind =>
      simp only [Bool.and_eq_true, beq_iff_eq, Option.isNone_iff_eq_none] at h
      exact ⟨a, b, c, d, e, f, h.1 ▸ hkind, h.2⟩
    · cases h
  · rintro ⟨a, b, c, d, e, f, hkind, hstart⟩
    rw [hkind, hstart]
    simp

/-- A slot may be released by its context while it has no sequence and no step waits on it. -/
def State.slotFree (s : State) (c n : Nat) : Prop :=
  ∃ x, Sparse.find s.slots n = some x ∧ x.ctx = c ∧ (∀ y ∈ s.seqs, y.2.slot ≠ n)
    ∧ ∀ qu ∈ s.queues, ∀ w ∈ qu.2.units, ∀ a b c d e f, w.kind = .step n a b c d e f → w.started ≠ none

/-- What keeps a slot beside its owner: a sequence, or a step that waits. -/
def State.slotHeld (s : State) (n : Nat) : Bool :=
  s.seqs.any (fun q => q.2.slot == n) || s.queues.any (fun q => q.2.units.any (fun w => w.waitsOn n))

theorem slotHeld_eq_false_iff (s : State) (n : Nat) : s.slotHeld n = false ↔ (∀ y ∈ s.seqs, y.2.slot ≠ n)
    ∧ ∀ qu ∈ s.queues, ∀ w ∈ qu.2.units, ∀ a b c d e f, w.kind = .step n a b c d e f → w.started ≠ none := by
  have hwait : ∀ w : WorkUnit, w.waitsOn n = false ↔ ∀ a b c d e f, w.kind = .step n a b c d e f → w.started ≠ none := by
    intro w
    rw [← Bool.not_eq_true, waitsOn_eq_true_iff]
    push Not
    rfl
  unfold State.slotHeld
  simp only [Bool.or_eq_false_iff, List.any_eq_false, Bool.not_eq_true, hwait, beq_eq_false_iff_ne]

theorem slotRelease_of_runs (h : PktRuns s p 0x28 u ptr s') (hop : bits (pw p 0) 5 4 = 1) :
    let n := bits (pw p 0) 3 0
    (s'.slotFree u.ctx n →
        exec (.slotRelease p) s = .next (({ s' with slots := Sparse.drop s'.slots n }.slotRegs n).ctrlDone p.q.val u))
      ∧ (¬s'.slotFree u.ctx n → exec (.slotRelease p) s = .next (s'.refuseCtrl p.q.val u ptr 0x10)) := by
  intro n
  have hrun : exec (.slotRelease p) s = .next (match Sparse.find s'.slots n with
      | none => s'.refuseCtrl p.q.val u ptr 0x10
      | some x =>
        if (decide (x.ctx ≠ u.ctx) || s'.slotHeld n) = true then s'.refuseCtrl p.q.val u ptr 0x10
        else ({ s' with slots := Sparse.drop s'.slots n }.slotRegs n).ctrlDone p.q.val u) := by
    change execSlotRelease p s = _
    rw [execSlotRelease, withCtrl_runs _ _ _ h (by simp [hop]) (.inl rfl)]
    simp only [State.slotHeld, ← Bool.or_assoc]
    rfl
  rw [hrun]
  cases hx : Sparse.find s'.slots n with
  | none => exact ⟨fun ⟨_, hfind, _⟩ => absurd (hx.symm.trans hfind) nofun, fun _ => rfl⟩
  | some x =>
    have hfree : s'.slotFree u.ctx n ↔ x.ctx = u.ctx ∧ s'.slotHeld n = false := by
      rw [slotHeld_eq_false_iff, State.slotFree, hx]
      simp
    refine ⟨fun hf => congrArg _ (if_neg ?_), fun hf => congrArg _ (if_pos ?_)⟩
    · rw [hfree] at hf
      simp [hf]
    · rw [hfree] at hf
      simpa [Classical.or_iff_not_imp_left] using hf

/-! ## SEQ_OP (R362, R363) -/

theorem seqSubmit_of_read {y : Slot} {x : Sequence} (h : PktRuns s p 0x29 u ptr s') (hop : bits (pw p 0) 9 8 = 0)
    (hfree : Sparse.find s'.seqs (bits (pw p 0) 5 0) = none) (hy : Sparse.find s'.slots (bits (pw p 0) 15 12) = some y)
    (hc : y.ctx = u.ctx) (ha : pd p 1 % 64 = 0)
    (hread : s'.vread .command u.ctx (pd p 1) 128 cpClass false false = (.ok d none, s1))
    (hx : parseSeq u.ctx (bits (pw p 0) 15 12) (pd p 1) s1.sched.order d = some x) :
    exec (.seqSubmit p) s = .next (((({ s1 with
      seqs := Sparse.put s1.seqs (bits (pw p 0) 5 0) x,
      sched := { s1.sched with order := s1.sched.order + 1 } }.slotRegs (bits (pw p 0) 15 12)).ctrlDone p.q.val u)).seqWrite u.ctx (pd p 1) 1) := by
  change execSeqSubmit p s = _
  rw [execSeqSubmit, withCtrl_runs _ _ _ h (by simp [hop]) (.inl rfl)]
  extract_lets i slot a owned
  have howned : owned = true := by simp [owned, slot, hy, hc]
  rw [if_neg (by simp [i, a, hop, hfree, howned, ha])]
  replace hread : s'.vread .command u.ctx a 128 cpClass false false = (.ok d none, s1) := hread
  replace hx : parseSeq u.ctx slot a s1.sched.order d = some x := hx
  rw [hread]
  simp only [hx]
  rfl

theorem seqSubmit_of_taken (h : PktRuns s p 0x29 u ptr s') (hop : bits (pw p 0) 9 8 = 0)
    (htaken : (Sparse.find s'.seqs (bits (pw p 0) 5 0)).isSome = true) :
    exec (.seqSubmit p) s = .next (s'.refuseCtrl p.q.val u ptr 0x11) := by
  change execSeqSubmit p s = _
  rw [execSeqSubmit, withCtrl_runs _ _ _ h (by simp [hop]) (.inl rfl)]
  extract_lets i slot a owned
  rw [if_pos (by simp [i, htaken])]

theorem seqCancel_of_owner {x : Sequence} (h : PktRuns s p 0x29 u ptr s') (hop : bits (pw p 0) 9 8 = 1)
    (hx : Sparse.find s'.seqs (bits (pw p 0) 5 0) = some x) (hc : x.ctx = u.ctx) :
    exec (.seqCancel p) s = .next
      ({ s' with seqs := Sparse.put s'.seqs (bits (pw p 0) 5 0) { x with cancel := true } }.ctrlDone p.q.val u) := by
  change execSeqCancel p s = _
  rw [execSeqCancel, withCtrl_runs _ _ _ h (by simp [hop]) (.inl rfl)]
  dsimp only
  rw [hx]
  exact congrArg _ (if_neg (not_not.2 hc))

theorem seqCancel_of_other (h : PktRuns s p 0x29 u ptr s') (hop : bits (pw p 0) 9 8 = 1)
    (hother : ∀ x, Sparse.find s'.seqs (bits (pw p 0) 5 0) = some x → x.ctx ≠ u.ctx) :
    exec (.seqCancel p) s = .next (s'.refuseCtrl p.q.val u ptr 0x11) := by
  change execSeqCancel p s = _
  rw [execSeqCancel, withCtrl_runs _ _ _ h (by simp [hop]) (.inl rfl)]
  dsimp only
  split
  next x hx => exact congrArg _ (if_pos (hother x hx))
  · rfl

end Packets

/-- Settles O24, packet by packet. -/
theorem slotsAndSequences : Obligations.SlotsAndSequences := fun _ _ _ _ _ _ _ =>
  ⟨fun _ h hop hfree ha hread hx => ⟨slotDefine_of_read h hop hfree ha hread hx, parseSlot_new hx⟩, slotDefine_of_bad,
    slotRelease_of_runs, fun _ _ => seqSubmit_of_read, seqSubmit_of_taken,
    fun h hop => ⟨fun _ => seqCancel_of_owner h hop, seqCancel_of_other h hop⟩⟩

end Sys2Proof.Machine
end

section
/-! PROOFS. The start of a dispatch (O25): the unit that may start, its checks in their order, and the invocation whose source is held
(R343, R346, R347). -/

namespace Sys2Proof.Machine

/-! ## The start of a unit of the flow -/

/-- A unit that is no queued invocation of the flow starts as any dispatch. -/
theorem execDispatchStart_of_plain {s : State} {q : Fin 64} {u : Queue} {w : WorkUnit}
    (hplain : ∀ fl, s.flow = some fl → fl.d.queue = q.val → ∀ i ∈ fl.invs, i.seq = w.seq → i.status ≠ .queued)
    (hq : s.queue q.val = some u) (hw : u.units.find? (fun w => w.started.isNone) = some w) :
    exec (.dispatchStart q) s = s.dispatchStart q := by
  change execDispatchStart q s = _
  unfold execDispatchStart
  extract_lets head mine
  have hhead : head = some w := by simp only [head, hq, Option.bind_some, hw]
  have hmine : mine = none := by
    simp only [mine, hhead]
    split
    next fl w' hfl hw' =>
      cases hw'
      split
      next hqueue =>
        rw [List.find?_eq_none]
        intro i hi hboth
        simp only [Bool.and_eq_true, beq_iff_eq] at hboth
        exact hplain fl hfl hqueue i hi hboth.2 hboth.1
      · rfl
    · rfl
  rw [hmine]
  split
  next hnone _ => cases hnone
  · rfl

/-- A seed invocation waits while its source is held. -/
theorem dispatchStart_of_held {s : State} {q : Fin 64} {u : Queue} {w : WorkUnit} {fl : Flow} {i : Invocation} {x : FlowSource}
    (hfl : s.flow = some fl) (hqueue : fl.d.queue = q.val) (hq : s.queue q.val = some u)
    (hw : u.units.find? (fun w => w.started.isNone) = some w)
    (hi : fl.invs.find? (fun i => i.status == .queued && i.seq == w.seq) = some i) (hkind : i.kind = .sr) (hx : x ∈ fl.sources)
    (hk : x.k = i.k) (hheld : x.held = true) : exec (.dispatchStart q) s = .next s := by
  have hany : fl.sources.any (fun x => x.k == i.k && x.held) = true :=
    List.any_eq_true.2 ⟨x, hx, by rw [hheld, Bool.and_true]; exact beq_iff_eq.2 hk⟩
  change execDispatchStart q s = _
  unfold execDispatchStart
  simp only [hq, Option.bind_some, hw, hfl, if_pos hqueue, hi, hkind, reduceCtorEq, or_self, if_false, if_pos hany]

/-! ## The checks of a dispatch (R346, R347) -/

/-- A dispatch that is its queue's first unit not started, and may start now (R343, R391). -/
structure Starts (s : State) (q : Fin 64) (u : Queue) (w : WorkUnit) (kn : Kernel) (cx : Ctx) : Prop where
  plain : ∀ fl, s.flow = some fl → fl.d.queue = q.val → ∀ i ∈ fl.invs, i.seq = w.seq → i.status ≠ .queued
  queue : s.queue q.val = some u
  first : u.units.find? (fun w => w.started.isNone) = some w
  kernel : w.kernel = some kn
  ctx : s.ctx u.ctx = some cx
  runs : s.uncRuns = true
  takes : s.coresTake = true
  enabled : s.qState q.val = 1
  ctxEnabled : s.fld (Reg.CPR_CTX_STATUS u.ctx) 1 0 = 1
  quench : s.sched.quench = none
  room : u.inflight < 16
  order : w.order = false ∨ ∀ x ∈ u.units, x.status.isSome = true ∨ x.seq = w.seq

/-- What becomes of a dispatch whose grid is known: done, refused, cancelled after its deadline, or started. -/
def State.gridStart (s : State) (q : Nat) (w : WorkUnit) (c : Nat) (kn : Kernel) (cx : Ctx) (x y z : Nat) : State :=
  if x = 0 ∨ y = 0 ∨ z = 0 then s.endAtStart q w 0 0
  else if !gridOk x y z then s.endAtStart q w 1 0x0A
  else if kn.deadline ≠ 0 ∧ kn.deadline < s.time then s.endAtStart q w 3 0
  else s.dispatchGo q w c { kn with gx := x, gy := y, gz := z } cx.xlat

section GridStart
variable {s : State} {q : Nat} {w : WorkUnit} {c : Nat} {kn : Kernel} {cx : Ctx} {x y z : Nat}

theorem gridStart_of_empty (h : x * y * z = 0) : s.gridStart q w c kn cx x y z = s.endAtStart q w 0 0 :=
  if_pos (by simpa [or_assoc] using h)

theorem gridStart_of_blocks (h : 0 < x * y * z) : s.gridStart q w c kn cx x y z =
    if !gridOk x y z then s.endAtStart q w 1 0x0A
    else if kn.deadline ≠ 0 ∧ kn.deadline < s.time then s.endAtStart q w 3 0
    else s.dispatchGo q w c { kn with gx := x, gy := y, gz := z } cx.xlat :=
  if_neg fun hzero => h.ne' (by simpa [or_assoc] using hzero)

end GridStart

theorem dispatchStart_of_starts {s : State} {q : Fin 64} {u : Queue} {w : WorkUnit} {kn : Kernel} {cx : Ctx}
    (h : Starts s q u w kn cx) :
    (kn.shapeBad = true → exec (.dispatchStart q) s = .next (s.a1Exit.endAtStart q.val w 1 0x0A))
      ∧ (kn.shapeBad = false → 5 < kn.split ∨ kn.split * 128 < kn.shared →
        exec (.dispatchStart q) s = .next (s.a1Exit.endAtStart q.val w 1 0x0B))
      ∧ (∀ bufs s1 s2 x y z, kn.shapeBad = false → kn.split ≤ 5 → kn.shared ≤ kn.split * 128 →
        s.a1Exit.readLayout u.ctx kn (some (q.val, w.seq)) = (some (some bufs), s1) → kn.clusters < 4096 →
        s1.kernelClusters { kn with bufs := bufs } ≠ [] → (kn.indirect = true → kn.gridAddr % 4 = 0 ∧ kn.gridAddr < 2 ^ 48) →
        s1.readGrid u.ctx { kn with bufs := bufs } (some (q.val, w.seq)) = (some (x, y, z), s2) →
        exec (.dispatchStart q) s = .next (s2.gridStart q.val w u.ctx { kn with bufs := bufs } cx x y z)) := by
  have hearlier : (!w.order || (u.units.filter (fun x => x.seq ≠ w.seq && (!w.inStep || x.inStep))).all (fun x => x.status.isSome)) = true := by
    rcases h.order with horder | horder
    · rw [horder]
      rfl
    · rw [Bool.or_eq_true, List.all_eq_true]
      refine .inr fun x hx => ?_
      obtain ⟨hmem, hne⟩ := List.mem_filter.1 hx
      simp only [Bool.and_eq_true, decide_eq_true_eq] at hne
      exact (horder x hmem).resolve_right hne.1
  have hrun : exec (.dispatchStart q) s = s.dispatchStart q := execDispatchStart_of_plain h.plain h.queue h.first
  unfold State.dispatchStart at hrun
  extract_lets n at hrun
  rw [h.queue] at hrun
  dsimp only at hrun
  rw [h.first] at hrun
  dsimp only at hrun
  rw [h.kernel, h.ctx] at hrun
  dsimp only at hrun
  rw [hearlier, if_neg (by simp [n, h.runs, h.takes, h.enabled, h.ctxEnabled, h.quench, h.room])] at hrun
  refine ⟨fun hbad => ?_, fun hshape hshared => ?_, fun bufs s1 s2 x y z hshape hsplit hshared hlayout hclusters hsome haddr hgrid => ?_⟩
  · rw [hrun, if_pos hbad]
  · rw [hrun, if_neg (by simp [hshape]), if_pos (by simpa using hshared)]
  · have haddr' : (kn.indirect && (decide (kn.gridAddr % 4 ≠ 0) || decide (2 ^ 48 ≤ kn.gridAddr))) = false := by
      cases hindirect : kn.indirect with
      | false => rfl
      | true =>
        obtain ⟨halign, hlt⟩ := haddr hindirect
        rw [decide_eq_false (not_not.2 halign), decide_eq_false (Nat.not_le.2 hlt)]
        rfl
    rw [hrun, if_neg (by simp [hshape]), if_neg (by simp [hsplit, hshared]), hlayout]
    dsimp only
    rw [haddr', if_neg (by simpa using ⟨hclusters, hsome⟩), hgrid]
    dsimp only
    rw [State.gridStart, apply_ite Host.Outcome.next, apply_ite Host.Outcome.next, apply_ite Host.Outcome.next]

end Sys2Proof.Machine
end

section
/-! PROOFS. Step boundaries and retirement (O25): a token step of a slot without sequences, and the oldest unit of a queue (R343, R394
to R396). -/

namespace Sys2Proof.Machine

/-! ## A slot without sequences (R394, R395) -/

theorem Sparse.mem_of_find {α : Type} {m : List (Nat × α)} {a : Nat} {v : α} (h : Sparse.find m a = some v) : (a, v) ∈ m := by
  induction m with
  | nil => cases h
  | cons p t ih =>
    obtain ⟨k, w⟩ := p
    rw [Sparse.find] at h
    split at h
    next hk =>
      cases h
      exact hk ▸ List.mem_cons_self
    · exact List.mem_cons_of_mem _ (ih h)

/-- A slot without sequences has none to batch and none that stalls. -/
theorem selectBatch_of_no_seq {s : State} {slot : Nat} (h : ∀ x ∈ s.seqs, x.2.slot ≠ slot) (maxb fuel : Nat) :
    s.selectBatch slot maxb (fuel + 1) = ([], s) := by
  have hmine : s.seqs.filter (fun p => p.2.slot == slot) = [] :=
    List.filter_eq_nil_iff.2 fun x hx => by simpa using h x hx
  rw [State.selectBatch, hmine]
  rfl

/-- The bytes of a batch without entries (R365). -/
def emptyBatch (step slot time : Nat) : List Byte := wordBytes [step, 0, slot, 0] ++ leBytes 8 time ++ List.replicate 2088 0

/-- A token step that is its queue's first unit not started, of a slot without sequences, and may start now (R394). -/
structure StepStarts (s : State) (q : Nat) (u : Queue) (w : WorkUnit) (slot : Nat) (y : Slot) : Prop where
  queue : s.queue q = some u
  first : u.units.find? (fun w => w.started.isNone) = some w
  find : Sparse.find s.slots slot = some y
  idle : y.running = none
  enabled : s.qState q = 1
  ctxEnabled : s.fld (Reg.CPR_CTX_STATUS u.ctx) 1 0 = 1
  quench : s.sched.quench = none
  earlier : ∀ x ∈ u.units, x.seq ≠ w.seq → x.status.isSome = true
  room : u.units.length ≤ 16
  noSeq : ∀ x ∈ s.seqs, x.2.slot ≠ slot

theorem stepBoundary_of_no_seq {s s1 : State} {q : Fin 64} {u : Queue} {w : WorkUnit} {slot maxb prog len batch ev : Nat} {en : Bool}
    {y : Slot} (h : StepStarts s q.val u w slot y) (hkind : w.kind = .step slot maxb prog len batch ev en)
    (hwrite : (s.setFld (Reg.SCH_SLOT_SEQS slot) 21 16 0).vwrite .command u.ctx batch cpClass (full (emptyBatch y.steps slot s.time)) false
      false = (none, s1)) (hq1 : s1.queue q.val = some u) :
    exec (.stepBoundary q) s = .next ((({ s1 with slots := Sparse.update s1.slots slot (fun y => { y with steps := (y.steps + 1) % 2 ^ 32 })
      }.setQueue q.val { u with units := u.units.map (fun (x : WorkUnit) => if x.seq = w.seq
        then { x with started := some s1.time, limit := s1.fld (Reg.SCH_Q_CTRL q.val) 31 16 } else x) }).completeUnit q.val w.seq 0 0).slotRegs
          slot) := by
  change execStepBoundary q s = _
  unfold execStepBoundary State.stepBoundary
  rw [h.queue]
  dsimp -zeta only
  rw [h.first]
  dsimp -zeta only
  rw [hkind]
  dsimp -zeta only
  extract_lets +onlyGivenNames earlier okNow
  rw [h.find]
  dsimp -zeta only
  have hearlier : (u.units.filter (fun x => x.seq ≠ w.seq)).all (fun x => x.status.isSome) = true :=
    List.all_eq_true.2 fun x hx => h.earlier x (List.mem_filter.1 hx).1 (of_decide_eq_true (List.mem_filter.1 hx).2)
  have hroom : (u.units.filter (fun x => x.seq ≠ w.seq)).length < 16 :=
    (List.length_filter_lt_length_iff_exists.2 ⟨w, List.mem_of_find?_eq_some h.first, by simp⟩).trans_le h.room
  have hok : okNow = true := by
    simp only [okNow, earlier, hearlier, decide_eq_true hroom, h.enabled, h.ctxEnabled, h.quench, Option.isNone_none, Bool.or_true,
      beq_self_eq_true, Bool.and_self]
  rw [hok, if_neg (by simp [h.idle])]
  extract_lets +onlyGivenNames retired
  have hretired : retired = s := List.foldl_fixed' (fun i => by
    split
    · rfl
    next x hx => exact if_pos (h.noSeq _ (Sparse.mem_of_find hx))) _
  rw [hretired]
  extract_lets +onlyGivenNames unbatched
  have hmap : s.seqs.map (fun (p : Nat × Sequence) => if p.2.slot = slot then (p.1, { p.2 with inBatch := false }) else p) = s.seqs :=
    (List.map_congr_left fun p hp => if_neg (h.noSeq p hp)).trans (List.map_id' _)
  have hunbatched : unbatched = s := by
    simp only [unbatched, hmap]
  rw [hunbatched, selectBatch_of_no_seq h.noSeq]
  extract_lets +onlyGivenNames entries hdr area s2
  have harea : area ++ List.replicate (2112 - area.length) 0 = emptyBatch y.steps slot s.time := by
    have hlen : area.length = 64 := rfl
    have hzeros : List.replicate 40 (0 : Byte) ++ List.replicate (2112 - 64) 0 = List.replicate 2088 0 :=
      List.replicate_append_replicate
    rw [hlen, emptyBatch, ← hzeros, ← List.append_assoc]
    exact congrArg (· ++ _) (List.append_nil _)
  have hs2 : s2 = s.setFld (Reg.SCH_SLOT_SEQS slot) 21 16 0 := rfl
  have hctx : s2.fld (Reg.CPR_CTX_STATUS u.ctx) 1 0 = 1 :=
    (State.fld_setFld_ne _ _ _ _ _ _ (by unfold Reg.CPR_CTX_STATUS Reg.SCH_SLOT_SEQS; omega)).trans h.ctxEnabled
  rw [if_neg (not_not.2 hctx), harea, hs2, hwrite]
  dsimp -zeta only
  rw [hq1]
  rfl

/-! ## Retirement (R343) -/

/-- The oldest unit of a settled queue, as it leaves the queue. -/
def State.oldestGone (s : State) (q : Nat) (u : Queue) (w : WorkUnit) (rest : List WorkUnit) (st : Nat) : State :=
  (s.setQueue q { u with units := rest, retired := w.seq % 2 ^ 32, ended := [(w.seq % 2 ^ 32, st)] }).advanceRptr q w.endPtr

section Retire
variable {s : State} {q : Fin 64} {u : Queue}

theorem unitRetire_of_complete {w : WorkUnit} {rest : List WorkUnit} {st : Nat} (hq : (s.settleQ q.val).queue q.val = some u)
    (hunits : u.units = w :: rest) (hst : w.status = some st) :
    ((∀ a b c d e f g, w.kind ≠ .step a b c d e f g) →
        s.unitRetire q = .next ((((s.settleQ q.val).oldestGone q.val u w rest st).updStatus q.val).drainDone q.val))
      ∧ (∀ a b c d e f g, w.kind = .step a b c d e f g → s.unitRetire q =
        .next (((((s.settleQ q.val).oldestGone q.val u w rest st).stepRetired q.val w.seq a f g (st == 0)).updStatus q.val).drainDone q.val)) := by
  unfold State.unitRetire
  extract_lets n s0
  rw [hq]
  dsimp -zeta only
  rw [hunits]
  dsimp -zeta only
  rw [hst]
  dsimp -zeta only
  refine ⟨fun hkind => ?_, fun a b c d e f g hkind => ?_⟩
  · split
    next h => exact absurd h (hkind _ _ _ _ _ _ _)
    · rfl
  · rw [hkind]
    rfl

theorem unitRetire_of_not_complete (hq : (s.settleQ q.val).queue q.val = some u) (hhead : ∀ v ∈ u.units.head?, v.status = none) :
    s.unitRetire q = .next (s.settleQ q.val) := by
  unfold State.unitRetire
  extract_lets n s0
  rw [hq]
  dsimp -zeta only
  cases hunits : u.units with
  | nil => rfl
  | cons w rest =>
    rw [hunits] at hhead
    dsimp -zeta only
    rw [hhead w rfl]

end Retire

/-- Settles O25: a dispatch by its checks in their order, a token step by the batch it writes, a retirement by the oldest unit. -/
theorem unitLifecycle : Obligations.UnitLifecycle := by
  unfold Obligations.UnitLifecycle
  intro s q u w
  refine ⟨fun kn cx hplain hq hw hkernel hcx hruns htakes hst hctx hquench hroom horder => ?_,
    fun slot maxb prog len batch ev en y s1 hq hw hkind hfind hidle hst hctx hquench hearlier hroom hseqs _ hwrite hq1 =>
      stepBoundary_of_no_seq ⟨hq, hw, hfind, hidle, hst, hctx, hquench, hearlier, hroom, hseqs⟩ hkind hwrite hq1,
    fun fl i x hfl hqueue hq hw hi hkind hx hk hheld => dispatchStart_of_held hfl hqueue hq hw hi hkind hx hk hheld,
    fun rest st hq hunits hst => unitRetire_of_complete hq hunits hst, unitRetire_of_not_complete⟩
  obtain ⟨hbad, hshared, hgrid⟩ :=
    dispatchStart_of_starts ⟨hplain, hq, hw, hkernel, hcx, hruns, htakes, hst, hctx, hquench, hroom, horder⟩
  refine ⟨hbad, hshared, fun bufs s1 s2 x y z hshape hsplit hmem hlayout hclusters hsome haddr hread => ?_⟩
  rw [hgrid bufs s1 s2 x y z hshape hsplit hmem hlayout hclusters hsome haddr hread]
  refine ⟨fun hempty => ?_, fun hblocks hok => ?_, fun hblocks hok hdeadline hpast => ?_, fun hblocks hok htime => ?_⟩
  · rw [gridStart_of_empty hempty]
  · rw [gridStart_of_blocks hblocks, if_pos (by rw [hok]; rfl)]
  · rw [gridStart_of_blocks hblocks, if_neg (by rw [hok]; decide), if_pos ⟨hdeadline, hpast⟩]
  · rw [gridStart_of_blocks hblocks, if_neg (by rw [hok]; decide),
      if_neg fun hlate => htime.elim hlate.1 (Nat.not_le.2 hlate.2)]

end Sys2Proof.Machine
end

section
/-! PROOFS. What the scheduler does by itself (O47): reserve windows, run limits, hangs and the Quench (R366, R381, R391 to R393). -/

namespace Sys2Proof.Machine

/-! ## Run limits (R391) -/

/-- A started unit that is not complete and has run for its limit. -/
def WorkUnit.Late (w : WorkUnit) (now : Nat) : Prop :=
  w.status = none ∧ w.limit ≠ 0 ∧ ∃ t, w.started = some t ∧ t + us (1000 * w.limit) ≤ now

/-- The test of `WorkUnit.Late`. -/
def WorkUnit.lateB (w : WorkUnit) (now : Nat) : Bool :=
  w.status.isNone && w.limit ≠ 0 && match w.started with
    | some t => t + us (1000 * w.limit) ≤ now
    | none => false

theorem WorkUnit.lateB_iff (w : WorkUnit) (now : Nat) : w.lateB now = true ↔ w.Late now := by
  unfold WorkUnit.lateB WorkUnit.Late
  cases w.started <;> simp [and_assoc]

theorem WorkUnit.lateB_eq_false {w : WorkUnit} {now : Nat} (h : ¬w.Late now) : w.lateB now = false :=
  Bool.eq_false_iff.2 fun hlate => h ((w.lateB_iff now).1 hlate)

theorem execRunLimitExpired_eq (s : State) (q : Fin 64) : exec (.runLimitExpired q) s =
    match s.queue q.val with
    | none => .next s
    | some u => match u.units.find? (fun w => w.lateB s.time) with
      | none => .next s
      | some w => .next ((s.recC 0x0A02 0x02 2 u.ctx q.val (w.seq % 2 ^ 32)).contextFault u.ctx 0x0A02 0x02 (some (q.val, w.seq))) := rfl

theorem execRunLimitExpired_of_late {s : State} {q : Fin 64} {u : Queue} {pre rest : List WorkUnit} {w : WorkUnit}
    (hq : s.queue q.val = some u) (hunits : u.units = pre ++ w :: rest) (hpre : ∀ x ∈ pre, ¬x.Late s.time) (hw : w.Late s.time) :
    exec (.runLimitExpired q) s
      = .next ((s.recC 0x0A02 0x02 2 u.ctx q.val (w.seq % 2 ^ 32)).contextFault u.ctx 0x0A02 0x02 (some (q.val, w.seq))) := by
  have hfind : u.units.find? (fun w => w.lateB s.time) = some w := by
    rw [hunits, List.find?_append, List.find?_eq_none.2 fun x hx => by simp [WorkUnit.lateB_eq_false (hpre x hx)], Option.none_or]
    exact List.find?_cons_of_pos ((w.lateB_iff _).2 hw)
  simp only [execRunLimitExpired_eq, hq, hfind]

theorem execRunLimitExpired_of_none_late {s : State} {q : Fin 64} {u : Queue} (hq : s.queue q.val = some u)
    (h : ∀ w ∈ u.units, ¬w.Late s.time) : exec (.runLimitExpired q) s = .next s := by
  have hfind : u.units.find? (fun w => w.lateB s.time) = none :=
    List.find?_eq_none.2 fun w hw => by simp [WorkUnit.lateB_eq_false (h w hw)]
  simp only [execRunLimitExpired_eq, hq, hfind]

/-! ## Hangs (R392) -/

/-- The records of hung clusters. -/
def State.recordHangs (s : State) (ks : List Nat) : State :=
  ks.foldl (fun s j => s.recC 0x0A01 (0x10 + j) 2 (s.hangOwner j).2 (s.hangOwner j).1 (s.hangOwner j).2) s

section Hang
variable {s : State} {k : Fin 12}

theorem execHangDetected_of_captured (hhung : s.hung k.val = true) (hq : s.sched.quench = none) (hflag : s.flag Reg.SCH_HANG 31 = true) :
    exec (.hangDetected k) s = .next ((s.recordHangs ((List.range 12).filter (fun j => s.hung j))).quenchStart 0) := by
  change execHangDetected k s = _
  unfold execHangDetected
  rw [if_neg (by simp [hhung, hq])]
  extract_lets ks s1 s2
  have hs1 : s1 = s := by
    simp only [s1]
    split
    · exact if_pos hflag
    · rfl
  simp only [s2, hs1]
  rfl

theorem execHangDetected_of_lowest {j : Nat} {js : List Nat} (hhung : s.hung k.val = true) (hq : s.sched.quench = none)
    (hflag : s.flag Reg.SCH_HANG 31 = false) (hks : (List.range 12).filter (fun j => s.hung j) = j :: js) :
    exec (.hangDetected k) s = .next (((s.setReg Reg.SCH_HANG
      (BitVec.ofNat 32 (j + (s.hangOwner j).1 * 2 ^ 8 + (s.hangOwner j).2 * 2 ^ 16 + 2 ^ 31))).recordHangs (j :: js)).quenchStart 0) := by
  change execHangDetected k s = _
  unfold execHangDetected
  rw [if_neg (by simp [hhung, hq]), hks]
  extract_lets ks s1 s2
  have hs1 : s1 = s.setReg Reg.SCH_HANG (BitVec.ofNat 32 (j + (s.hangOwner j).1 * 2 ^ 8 + (s.hangOwner j).2 * 2 ^ 16 + 2 ^ 31)) :=
    if_neg (by simp [hflag])
  simp only [s2, hs1]
  rfl

end Hang

/-! ## The Quench (R366, R566, R568) -/

theorem errQuench_of_go {s : State} {v : Word} (hkey : v.toNat / 2 ^ 16 = 0x9E4C) (hgo : bit v.toNat 0 = true)
    (hq : s.sched.quench = none) (hboot : s.fld Reg.GLB_BOOT 1 0 = 1) : s.errQuench v = s.quenchStart 1 := by
  unfold State.errQuench
  exact if_pos (by rw [show v.toNat / 65536 = 0x9E4C from hkey, hgo, hq, hboot]; rfl)

theorem errQuench_of_ignored {s : State} {v : Word}
    (h : v.toNat / 2 ^ 16 ≠ 0x9E4C ∨ bit v.toNat 0 = false ∨ s.sched.quench.isSome = true ∨ s.fld Reg.GLB_BOOT 1 0 ≠ 1) :
    s.errQuench v = s := by
  unfold State.errQuench
  refine if_neg fun hall => ?_
  simp only [Bool.and_eq_true, beq_iff_eq, Option.isNone_iff_eq_none] at hall
  obtain ⟨⟨⟨hgo, hkey⟩, hboot⟩, hq⟩ := hall
  rcases h with h | h | h | h
  · exact h hkey
  · exact absurd hgo (by simp [h])
  · exact absurd h (by simp [hq])
  · exact h hboot

theorem Sparse.find_map_value {α : Type} (f : α → α) (m : List (Nat × α)) (a : Nat) :
    Sparse.find (m.map (fun p => (p.1, f p.2))) a = (Sparse.find m a).map f := by
  induction m with
  | nil => rfl
  | cons p t ih =>
    obtain ⟨k, v⟩ := p
    rw [List.map_cons, Sparse.find, Sparse.find, ih]
    split <;> rfl

/-- The engines after a Quench hold no work of any kind. -/
theorem quenchEngines_empty (s : State) :
    s.quenchEngines.cores = [] ∧ s.quenchEngines.sched.copies = [] ∧ s.quenchEngines.sched.ladle = []
      ∧ s.quenchEngines.sched.stalled = [] ∧ s.quenchEngines.gfx.passes = [] ∧ s.quenchEngines.gfx.units = []
      ∧ s.quenchEngines.clusters = s.clusters.map (fun p => (p.1, p.2.quenched)) := by
  unfold State.quenchEngines
  extract_lets direct s1 s2
  split <;> exact ⟨rfl, rfl, rfl, rfl, rfl, rfl, rfl⟩

theorem cluster_quenchEngines (s : State) (k : Nat) :
    (s.quenchEngines.cluster k).mode = .compute ∧ (s.quenchEngines.cluster k).scratch = [] := by
  obtain ⟨_, _, _, _, _, _, hclusters⟩ := quenchEngines_empty s
  rw [State.cluster, Sparse.get, hclusters, Sparse.find_map_value]
  cases Sparse.find s.clusters k <;> exact ⟨rfl, rfl⟩

/-- Settles O47: each event by the branch of its command that its condition selects. -/
theorem schedulerEvents : Obligations.SchedulerEvents := by
  unfold Obligations.SchedulerEvents
  intro s
  refine ⟨fun h => if_neg (not_not.2 h), fun h => if_pos h,
    fun q u hq => ⟨fun pre w rest hunits hpre hw => execRunLimitExpired_of_late hq hunits hpre hw, execRunLimitExpired_of_none_late hq⟩,
    fun k => execHangDetected_of_captured, fun k j js => execHangDetected_of_lowest, fun k hnone => ?_, fun cause => rfl,
    fun v hruns hkey hgo hq hboot => ?_, fun v hignored => ?_, fun hq => ?_, fun cause since hq => ?_, ?_⟩
  · exact if_pos (by rcases hnone with h | h <;> simp [h])
  · exact (if_pos hruns).trans (congrArg _ (errQuench_of_go hkey hgo hq hboot))
  · change execErrQuench v s = _
    rw [execErrQuench, errQuench_of_ignored hignored, ite_self]
  · change execQuenchComplete s = _
    unfold execQuenchComplete State.quenchComplete
    rw [hq]
  · change execQuenchComplete s = _
    unfold execQuenchComplete State.quenchComplete
    rw [hq]
  · obtain ⟨hcores, hcopies, hladle, hstalled, hpasses, hunits, _⟩ := quenchEngines_empty s
    exact ⟨hcores, hcopies, hladle, hstalled, hpasses, hunits, cluster_quenchEngines s⟩

end Sys2Proof.Machine
end

section
/-! PROOFS. Reads of host memory and the host link (O51): completions, timeouts, the link's states and PERST_N (R435, R436, R458, R459,
R511). -/

namespace Sys2Proof.Machine

/-! ## Completions and timeouts of reads (R436) -/

/-- The state after a read has left the outstanding ones. -/
def State.readTaken (s : State) (id : Nat) : State :=
  { s with hif := { s.hif with reads := s.hif.reads.filter (fun x => x.id ≠ id) } }

section Reads
variable {s : State} {r : HostRead}

theorem hostReadTake_of_outstanding (h : s.hif.reads.find? (fun x => x.id == r.id) = some r) :
    s.hostReadTake r.id = some (r, s.readTaken r.id) := by
  rw [State.hostReadTake, h]
  rfl

theorem hostReadTake_of_none {id : Nat} (h : ∀ r ∈ s.hif.reads, r.id ≠ id) : s.hostReadTake id = none := by
  rw [State.hostReadTake, List.find?_eq_none.2 fun r hr => by simpa using h r hr]
  rfl

/-- Data of a completed read, where its purpose takes it. -/
def State.hostData (s : State) (r : HostRead) (bs : List Byte) : State :=
  match r.for_ with
  | .kernel core slot op key off => s.kernelData core slot op key off bs
  | .walk w => s.walkResponse w (.data bs)
  | .fence core slot => s.fenceRead core slot
  | .release q seq => s.releaseRead q seq
  | .dma _ => s

theorem hostReadCompletion_of_outstanding (h : s.hif.reads.find? (fun x => x.id == r.id) = some r) (x : ReadResult) :
    exec (.hostReadCompletion r.id x) s = if r.abandoned then .next (s.readTaken r.id)
      else match x with
        | .data bs => .next ((s.readTaken r.id).hostData r bs)
        | x => .next ((s.readTaken r.id).hostReadFail r false (decide (x = .poisoned))) := by
  change execHostReadCompletion r.id x s = _
  unfold execHostReadCompletion
  rw [hostReadTake_of_outstanding h]
  cases x <;> rfl

theorem hostReadTimeout_of_outstanding (h : s.hif.reads.find? (fun x => x.id == r.id) = some r) :
    exec (.hostReadTimeout r.id) s = if s.time < r.since + ctvTicks s.hif.ctv then .next s
      else .next (if r.abandoned then s.readTaken r.id else (s.readTaken r.id).hostReadFail r true false) := by
  change execHostReadTimeout r.id s = _
  unfold execHostReadTimeout
  rw [hostReadTake_of_outstanding h, apply_ite Host.Outcome.next]

theorem hostRead_of_not_outstanding {id : Nat} (h : ∀ r ∈ s.hif.reads, r.id ≠ id) :
    exec (.hostReadTimeout id) s = .next s ∧ ∀ x, exec (.hostReadCompletion id x) s = .next s := by
  refine ⟨?_, fun x => ?_⟩
  · change execHostReadTimeout id s = _
    unfold execHostReadTimeout
    rw [hostReadTake_of_none h]
  · change execHostReadCompletion id x s = _
    unfold execHostReadCompletion
    rw [hostReadTake_of_none h]

end Reads

/-! ## Configuration space (R511) -/

theorem reg_configReset_of_mem {s : State} {a : Nat} (hlo : 0x018000 ≤ a) (hhi : a < 0x019010) : s.configReset.reg a = regReset a := by
  have hfind : Sparse.find s.configReset.regs a = none :=
    (Sparse.find_filter_key s.regs (fun k => !(0x018000 ≤ k && k < 0x018000 + 0x1010)) a).trans (if_neg (by simp [hlo, hhi]))
  rw [State.reg, Sparse.get, hfind]

theorem reg_configReset_of_not_mem {s : State} {a : Nat} (h : a < 0x018000 ∨ 0x019010 ≤ a) : s.configReset.reg a = s.reg a := by
  have hfind : Sparse.find s.configReset.regs a = Sparse.find s.regs a :=
    (Sparse.find_filter_key s.regs (fun k => !(0x018000 ≤ k && k < 0x018000 + 0x1010)) a).trans
      (if_pos (by simpa [or_iff_not_imp_left] using h))
  rw [State.reg, Sparse.get, hfind, State.reg, Sparse.get]

/-! ## The link (R435, R458, R459) -/

section Link
variable {s : State}

theorem linkDown_of_up (hon : s.uncOn = true) (hup : s.flag Reg.HIF_STATUS 0 = true) (hexcused : s.linkExcused = false) :
    exec .linkDown s = .next s.linkLost ∧ exec .perstAssert s = .next s.linkLost.configReset := by
  refine ⟨if_neg (by simp [hon, hup, hexcused]), ?_⟩
  change execPerstAssert s = _
  rw [execPerstAssert, if_neg (by simp [hon]), if_pos (by simp [hup, hexcused])]

theorem linkDown_of_excused (hon : s.uncOn = true) (h : s.flag Reg.HIF_STATUS 0 = false ∨ s.linkExcused = true) :
    exec .linkDown s = .next s ∧ exec .perstAssert s = .next (s.clearFlag Reg.HIF_STATUS 0).configReset := by
  refine ⟨if_pos (by rcases h with h | h <;> simp [h]), ?_⟩
  change execPerstAssert s = _
  rw [execPerstAssert, if_neg (by simp [hon]), if_neg (by rcases h with h | h <;> simp [h])]

/-- The speed and width that a link may train to (R435, R499). -/
def State.LinkFits (s : State) (gen width : Nat) : Prop :=
  1 ≤ gen ∧ gen ≤ s.pcieMax.1 ∧ width ∈ [1, 2, 4] ∧ width ≤ s.pcieMax.2

/-- HIF_STATUS of a link that is up with a speed and a width. -/
def State.linkShown (s : State) (gen width : Nat) : State :=
  ((s.setFlag Reg.HIF_STATUS 0).setFld Reg.HIF_STATUS 3 1 gen).setFld Reg.HIF_STATUS 6 4 width

theorem linkTraining_of_fits {gen width : Fin 5} {atomics : BitVec 6} (hon : s.uncOn = true) (h : s.LinkFits gen.val width.val) :
    exec (.linkTraining gen width atomics) s = .next { s.linkShown gen.val width.val with
      out := s.out ++ s.hif.unsent,
      hif := { s.hif with hostAtomic := atomics.toNat, wakeN := true, linkL2 := false, unsent := [] } } := by
  obtain ⟨hgen, hmax, hwidth, hlanes⟩ := h
  have hgen0 : (gen.val == 0) = false := by simp; omega
  have hwidth' : (width.val == 1 || width.val == 2 || width.val == 4) = true := by simpa [or_assoc] using hwidth
  change execLinkTraining gen width atomics s = _
  unfold execLinkTraining
  dsimp -zeta only
  rw [if_neg (by simp [hon, hgen0, hwidth', hmax, hlanes])]
  rfl

theorem linkTraining_of_not_fits {gen width : Fin 5} (atomics : BitVec 6) (h : ¬s.LinkFits gen.val width.val) :
    exec (.linkTraining gen width atomics) s = .next s := by
  change execLinkTraining gen width atomics s = _
  unfold execLinkTraining
  dsimp -zeta only
  refine if_pos (Classical.byContradiction fun hall => h ?_)
  simp only [Bool.or_eq_true, not_or, Bool.not_eq_true', beq_iff_eq, decide_eq_true_eq, Bool.not_eq_false] at hall
  obtain ⟨⟨⟨⟨_, hgen⟩, hmax⟩, hwidth⟩, hlanes⟩ := hall
  exact ⟨Nat.pos_of_ne_zero hgen, Nat.not_lt.1 hmax, by simpa [or_assoc] using hwidth, Nat.not_lt.1 hlanes⟩

theorem linkShown_shows (s : State) (gen width : Fin 5) :
    (s.linkShown gen.val width.val).flag Reg.HIF_STATUS 0 = true ∧ (s.linkShown gen.val width.val).fld Reg.HIF_STATUS 3 1 = gen.val
      ∧ (s.linkShown gen.val width.val).fld Reg.HIF_STATUS 6 4 = width.val := by
  unfold State.linkShown
  refine ⟨?_, ?_, ?_⟩
  · rw [State.flag, State.fld_setFld_apart _ _ _ (by decide) (by decide) (by decide),
      State.fld_setFld_apart _ _ _ (by decide) (by decide) (by decide)]
    exact State.flag_setFlag_self _ _ (by decide)
  · rw [State.fld_setFld_apart _ _ _ (by decide) (by decide) (by decide), State.fld_setFld_self _ _ _ (by decide) (by decide)]
    exact Nat.mod_eq_of_lt (gen.isLt.trans (by decide))
  · rw [State.fld_setFld_self _ _ _ (by decide) (by decide)]
    exact Nat.mod_eq_of_lt (width.isLt.trans (by decide))

end Link

/-- Settles O51: reads by their entry among the outstanding ones, the link by its state. -/
theorem hostLink : Obligations.HostLink := by
  unfold Obligations.HostLink
  refine ⟨fun s r h => ⟨fun hab x => ?_, fun hab bs => ?_, fun hab x hx => ?_, fun hdue => ?_, fun hearly => ?_⟩,
    fun s id => hostRead_of_not_outstanding, fun s r timeout poison => ?_, fun s hon => ⟨linkDown_of_up hon, linkDown_of_excused hon,
      fun hup => if_neg (by simp [hon, hup]), fun hdown => if_pos (by simp [hdown])⟩,
    fun s => ⟨rfl, rfl, rfl, fun a => reg_configReset_of_mem, fun a => reg_configReset_of_not_mem⟩,
    fun s gen width atomics hon => ⟨fun hfits => ⟨linkTraining_of_fits hon hfits, linkShown_shows s gen width⟩,
      linkTraining_of_not_fits atomics⟩⟩
  · rw [hostReadCompletion_of_outstanding h, if_pos hab]
    rfl
  · rw [hostReadCompletion_of_outstanding h, if_neg (by simp [hab])]
    rfl
  · rw [hostReadCompletion_of_outstanding h, if_neg (by simp [hab])]
    cases x with
    | data bs => exact absurd rfl (hx bs)
    | _ => rfl
  · rw [hostReadTimeout_of_outstanding h, if_neg (Nat.not_lt.2 hdue)]
    rfl
  · rw [hostReadTimeout_of_outstanding h, if_pos hearly]
  · unfold State.hostReadFail
    cases r.for_ <;> rfl

end Sys2Proof.Machine
end

section
/-! PROOFS. What the end of a context leaves of the cores (O17): writes of memory, reports and events change no core, so that the work
dropped at its beginning stays away (R331). -/

namespace Sys2Proof.Machine

/-! ## Writes of memory and reports change no core -/

/-- A fold of steps that keep a part of the state keeps it. -/
theorem foldl_keeps {α β : Type} (p : State → β) {f : State → α → State} (h : ∀ s a, p (f s a) = p s) (l : List α) (s : State) :
    p (l.foldl f s) = p s := by
  induction l generalizing s with
  | nil => rfl
  | cons a l ih => exact (ih _).trans (h _ _)

theorem cores_reads {s t : State} (h : Reads s t) : t.cores = s.cores := by
  obtain ⟨⟨_, _, _, _, _, _, _, rfl⟩, -⟩ := h
  rfl

theorem cores_devWrite (s : State) (cls a : Nat) (bs : List (Option Byte)) (noAlloc : Bool) : (s.devWrite cls a bs noAlloc).cores = s.cores := by
  obtain ⟨_, _, hnote⟩ := dutyNote_cases s a bs
  rw [cores_reads (reads_devWrite ..), hnote]
  rfl

theorem cores_writeOut (s : State) (c cls : Nat) (noAlloc protOk : Bool) (va : Nat) (o : XOut) (bs : List (Option Byte)) :
    (s.writeOut c cls noAlloc protOk va o bs).2.cores = s.cores := by
  unfold State.writeOut
  split
  · split
    · rfl
    · exact cores_devWrite ..
  · exact cores_post ..

theorem cores_vwrite (s : State) (t : TlbId) (c va cls : Nat) (bs : List (Option Byte)) (noAlloc protOk : Bool) :
    (s.vwrite t c va cls bs noAlloc protOk).2.cores = s.cores := by
  refine cores_foldl _ (fun x a => ?_) _ _
  obtain ⟨r, s⟩ := x
  cases r with
  | some f => rfl
  | none =>
    have h := cores_xlate s t c a.1 .write
    dsimp only
    generalize s.xlate t c a.1 .write = y at h ⊢
    obtain ⟨_ | _, u⟩ := y
    · exact (cores_writeOut ..).trans h
    · exact h

theorem cores_recC (s : State) (code unit sev ctx lo hi : Nat) : (s.recC code unit sev ctx lo hi).cores = s.cores :=
  cores_reports (reports_recC ..)

theorem cores_countWrap (s : State) (a hi lo n : Nat) : (s.countWrap a hi lo n).cores = s.cores := by
  unfold State.countWrap
  exact State.setFld_cores ..

theorem cores_raiseVec (s : State) (vec : Nat) : (s.raiseVec vec).cores = s.cores := by
  unfold State.raiseVec
  exact cores_ite rfl (cores_ite (State.setFlag_cores ..) (cores_reports (reports_msixGo ..)))

theorem cores_setReg64 (s : State) (a v : Nat) : (s.setReg64 a v).cores = s.cores := by
  unfold State.setReg64
  exact (State.setReg_cores ..).trans (State.setReg_cores ..)

theorem cores_mmuCapture (s : State) (c unit va : Nat) (access : AccessKind) (f : XFault) : (s.mmuCapture c unit va access f).cores = s.cores := by
  unfold State.mmuCapture
  extract_lets s1 s2 s3 s4
  have h1 : s1.cores = s.cores := State.setReg_cores ..
  clear_value s1
  have h2 : s2.cores = s.cores := (State.setReg_cores ..).trans h1
  clear_value s2
  have h3 : s3.cores = s.cores := (cores_setReg64 ..).trans h2
  clear_value s3
  have h4 : s4.cores = s.cores := (cores_setReg64 ..).trans h3
  clear_value s4
  exact cores_ite (cores_countSat ..) (cores_ite ((cores_raiseVec ..).trans h4) h4)

theorem cores_recordFail (s : State) (c unit sev : Nat) (access : AccessKind) (f : VFail) : (s.recordFail c unit sev access f).cores = s.cores := by
  cases f with
  | xlate va x => exact cores_ite (cores_recC ..) ((cores_recC ..).trans (cores_mmuCapture ..))
  | prot va pa => exact cores_recC ..

theorem cores_putStatus (s : State) (q : Nat) : (s.putStatus q).2.cores = s.cores := by
  unfold State.putStatus
  split
  · rfl
  · exact cores_vwrite ..

theorem cores_putStatuses (s : State) (qs : List Nat) : (s.putStatuses qs).cores = s.cores := by
  refine foldl_keeps State.cores (fun s q => ?_) qs s
  have h := cores_putStatus s q
  generalize s.putStatus q = x at h ⊢
  obtain ⟨_ | f, u⟩ := x
  · exact h
  · exact (cores_recordFail ..).trans h

/-! ## Queues, events and the flow -/

theorem cores_advanceRptr (s : State) (q ptr : Nat) : (s.advanceRptr q ptr).cores = s.cores := cores_ite (State.setReg_cores ..) rfl

theorem cores_endWaits (s : State) (e : Nat) : (s.endWaits e).cores = s.cores := by
  unfold State.endWaits
  extract_lets hits consume s1
  have h1 : s1.cores = s.cores := foldl_keeps State.cores (fun s p =>
    (cores_putStatuses ..).trans (cores_ite ((cores_advanceRptr ..).trans (State.setQueue_cores ..)) (State.setQueue_cores ..))) hits s
  exact cores_ite ((State.clearFlag_cores ..).trans h1) h1

theorem cores_evtFire (s : State) (e : Nat) : (s.evtFire e).cores = s.cores := by
  unfold State.evtFire
  extract_lets s1 s2
  have h1 : s1.cores = s.cores := (State.setFlag_cores ..).trans (cores_countWrap ..)
  clear_value s1
  exact (cores_endWaits ..).trans (cores_ite ((cores_raiseVec ..).trans h1) h1)

theorem cores_signalLost (s : State) (c : Nat) : (s.signalLost c).cores = s.cores := by
  unfold State.signalLost
  split
  · exact cores_ite (cores_evtFire ..) rfl
  · rfl

theorem cores_endUnits (s : State) (q : Nat) (faulting toPtr : Option Nat) : (s.endUnits q faulting toPtr).cores = s.cores := by
  unfold State.endUnits
  split
  · rfl
  · exact State.setQueue_cores ..

theorem cores_queueOff (s : State) (q : Nat) : (s.queueOff q).cores = s.cores := by
  unfold State.queueOff
  exact (cores_putStatuses ..).trans ((State.setFld_cores ..).trans (State.clearFlag_cores ..))

theorem cores_dropModels (s : State) (c : Nat) : (s.dropModels c).cores = s.cores := by
  unfold State.dropModels
  exact foldl_keeps State.cores (fun s n => (State.setFld_cores ..).trans (State.setReg_cores ..)) _ _

theorem cores_flowCtxFault (s : State) (c : Nat) : (s.flowCtxFault c).cores = s.cores := by
  unfold State.flowCtxFault
  split
  · rfl
  · exact cores_ite rfl ((cores_rec0 ..).trans ((cores_countWrap ..).trans (State.setFlag_cores ..)))

theorem cores_maskLeft (s : State) (n : Nat) : (s.maskLeft n).cores = s.cores := cores_ite rfl (cores_ite rfl rfl)

/-! ## The context itself -/

/-- The end of a context keeps everything but its entry, its registers and the translations of its address space. -/
theorem ctxOff_eq (s : State) (c : Nat) : ∃ mmu, s.ctxOff c =
    ({ s with mmu := mmu, ctxs := Sparse.drop s.ctxs c }.clearFlag (Reg.CPR_CTX_CTRL c) 0).setFld (Reg.CPR_CTX_STATUS c) 1 0 0 := by
  unfold State.ctxOff
  split <;> exact ⟨_, rfl⟩

theorem ctxCtrl_ne_ctxStatus (c : Nat) : Reg.CPR_CTX_CTRL c ≠ Reg.CPR_CTX_STATUS c := by
  unfold Reg.CPR_CTX_CTRL Reg.CPR_CTX_STATUS
  omega

theorem ctxOff_frame (s : State) (c : Nat) :
    (s.ctxOff c).ctx c = none ∧ (s.ctxOff c).flag (Reg.CPR_CTX_CTRL c) 0 = false ∧ (s.ctxOff c).fld (Reg.CPR_CTX_STATUS c) 1 0 = 0
      ∧ (∀ c', c' ≠ c → (s.ctxOff c).ctx c' = s.ctx c') ∧ (s.ctxOff c).queues = s.queues ∧ (s.ctxOff c).cores = s.cores := by
  obtain ⟨mmu, h⟩ := ctxOff_eq s c
  rw [h]
  refine ⟨Sparse.find_drop_self _ _, ?_, ?_, fun c' hc => Sparse.find_drop_ne _ hc, rfl, rfl⟩
  · rw [State.flag, State.fld_setFld_ne _ _ _ _ _ _ (ctxCtrl_ne_ctxStatus c)]
    exact State.flag_clearFlag_self _ _ (by decide)
  · exact (State.fld_setFld_self _ _ _ (by decide) (by decide)).trans (Nat.zero_mod _)

/-- The reserves' scaling changes registers alone, those of SCH_STATUS and SCH_Qq_STATUS. -/
structure SetsReserves (s t : State) : Prop where
  same : ∃ regs, t = { s with regs := regs }
  reg : ∀ a, a ≠ Reg.SCH_STATUS → (∀ q, a ≠ Reg.SCH_Q_STATUS q) → t.reg a = s.reg a

theorem SetsReserves.trans {s t u : State} (h : SetsReserves s t) (k : SetsReserves t u) : SetsReserves s u := by
  obtain ⟨⟨r, rfl⟩, hr⟩ := h
  obtain ⟨⟨r', rfl⟩, kr⟩ := k
  exact ⟨⟨r', rfl⟩, fun a ha hq => (kr a ha hq).trans (hr a ha hq)⟩

theorem setsReserves_foldl {f : State → Nat → State} (h : ∀ s q, SetsReserves s (f s q)) (l : List Nat) (s : State) :
    SetsReserves s (l.foldl f s) := by
  induction l generalizing s with
  | nil => exact ⟨⟨_, rfl⟩, fun _ _ _ => rfl⟩
  | cons q l ih => exact (h s q).trans (ih _)

theorem setsReserves_reserves (s : State) : SetsReserves s s.reserves := by
  unfold State.reserves
  extract_lets rt sum s1
  have h1 : SetsReserves s s1 := ⟨⟨_, rfl⟩, fun a ha _ => State.reg_setFld_ne _ _ _ _ ha⟩
  refine h1.trans (setsReserves_foldl (fun s q => ?_) _ _)
  have hlow (v : Nat) : SetsReserves s (s.setFld (Reg.SCH_Q_STATUS q) 5 0 v) :=
    ⟨⟨_, rfl⟩, fun a _ hq => State.reg_setFld_ne _ _ _ _ (hq q)⟩
  exact (hlow _).trans ⟨⟨_, rfl⟩, fun a _ hq => State.reg_setFld_ne _ _ _ _ (hq q)⟩

/-! ## Work dropped (R331) -/

theorem mem_dropWork_cores {s : State} {f : Nat → Nat → Nat → Bool} {n : Nat} {k : Core} {b : Nat × Block}
    (hk : (n, k) ∈ (s.dropWork f).cores) (hb : b ∈ k.blocks) : f b.2.q b.2.seq b.2.ctx = false := by
  unfold State.dropWork at hk
  extract_lets cores keepT clusters sc keepC goes lostT idle s1 s2 s3 s4 at hk
  have hs4 : s4.cores = cores := cores_maskLeft ..
  rw [foldl_keeps State.cores (fun s k => cores_ite rfl (State.setFld_cores ..)), hs4] at hk
  obtain ⟨⟨m, k0⟩, hmem, hk0⟩ := List.mem_map.1 hk
  obtain ⟨rfl, rfl⟩ := Prod.mk.inj hk0
  obtain ⟨hin, hkept⟩ := List.mem_filter.1 hb
  refine Bool.eq_false_iff.2 fun hf => ?_
  have hgone : b.1 ∈ (k0.blocks.filter (fun b => f b.2.q b.2.seq b.2.ctx)).map (fun b => b.1) :=
    List.mem_map_of_mem (List.mem_filter.2 ⟨hin, hf⟩)
  simp [hgone] at hkept

end Sys2Proof.Machine
end

section
/-! PROOFS. Enabling, disabling and killing a context (O17): R327, R328, R331. -/

namespace Sys2Proof.Machine

/-! ## The end of a kill (R331) -/

/-- Nothing of a context is left: it is disabled and no core holds a block of it. -/
structure CtxGone (c : Nat) (t : State) : Prop where
  ctx : t.ctx c = none
  en : t.flag (Reg.CPR_CTX_CTRL c) 0 = false
  state : t.fld (Reg.CPR_CTX_STATUS c) 1 0 = 0
  blocks : ∀ n k b, (n, k) ∈ t.cores → b ∈ k.blocks → b.2.ctx ≠ c

theorem ctxGone_killEnd (s : State) {c : Nat} (hc : c < 32) : CtxGone c (s.killEnd c) := by
  unfold State.killEnd
  extract_lets qs s1 s2 s3
  have h1 : ∀ n k b, (n, k) ∈ s1.cores → b ∈ k.blocks → b.2.ctx ≠ c := fun n k b hk hb =>
    by simpa using mem_dropWork_cores hk hb
  have h2 : s2.cores = s1.cores := foldl_keeps State.cores (fun s q => (cores_queueOff ..).trans (cores_endUnits ..)) qs s1
  clear_value s1 s2
  have h3 : s3.cores = s1.cores := (cores_dropModels ..).trans h2
  clear_value s3
  have h4 : (((s3.signalLost c).displayCtxGone c).flowCtxFault c).cores = s1.cores :=
    (cores_flowCtxFault ..).trans ((cores_signalLost ..).trans h3)
  generalize ((s3.signalLost c).displayCtxGone c).flowCtxFault c = u at h4 ⊢
  obtain ⟨hctx, hen, hstate, -, -, hcores⟩ := ctxOff_frame u c
  obtain ⟨⟨regs, hsame⟩, hreg⟩ := setsReserves_reserves (u.ctxOff c)
  have hstatus : (u.ctxOff c).reserves.reg (Reg.CPR_CTX_STATUS c) = (u.ctxOff c).reg (Reg.CPR_CTX_STATUS c) :=
    hreg _ (by unfold Reg.CPR_CTX_STATUS Reg.SCH_STATUS; omega) (fun q => by unfold Reg.CPR_CTX_STATUS Reg.SCH_Q_STATUS; omega)
  have hctrl : (u.ctxOff c).reserves.reg (Reg.CPR_CTX_CTRL c) = (u.ctxOff c).reg (Reg.CPR_CTX_CTRL c) :=
    hreg _ (by unfold Reg.CPR_CTX_CTRL Reg.SCH_STATUS; omega) (fun q => by unfold Reg.CPR_CTX_CTRL Reg.SCH_Q_STATUS; omega)
  refine ⟨?_, (State.flag_of_reg hctrl _).trans hen, (State.fld_of_reg hstatus _ _).trans hstate, ?_⟩
  · rw [hsame]
    exact hctx
  · rw [hsame]
    rw [← h4, ← hcores] at h1
    exact h1

/-! ## Enable (R327) -/

/-- A context descriptor that was read and breaks no rule of its own form (R326). -/
def CtxForm (d : List Byte) (poison : Bool) : Prop :=
  poison = false ∧ dwordAt d 0 = 1 ∧ wordAt d 0x18 < 8192 ∧ bits (wordAt d 0x1C) 30 12 = 0 ∧ ∀ b ∈ (d.drop 0x20).take 0x20, b = 0

/-- Its save area is aligned, in device memory, and apart from those of the other contexts. -/
def State.CtxSaves (s : State) (c : Nat) (d : List Byte) : Prop :=
  dwordAt d 8 % 65536 = 0 ∧ dwordAt d 8 + saveBytes ≤ s.usable
    ∧ ∀ o ∈ s.otherCtxs c, overlaps (dwordAt d 8) saveBytes o.save saveBytes = false

/-- Its object table is aligned and not too long. -/
def CtxTable (d : List Byte) : Prop := dwordAt d 0x10 % 32 = 0 ∧ wordAt d 0x18 ≤ 4096

/-- The context that a descriptor gives, without objects. -/
def ctxOf (d : List Byte) : Ctx :=
  ⟨dwordAt d 8, dwordAt d 0x10, wordAt d 0x18 % 8192, wordAt d 0x1C % 4096, bit (wordAt d 0x1C) 31, parseXlat d, [], [], [], 0⟩

/-- The state in which the object table of a new context is read. -/
def State.ctxEntered (s : State) (c : Nat) (d : List Byte) : State :=
  { s.tlbDropAsid (parseXlat d).asid with ctxs := Sparse.put (s.tlbDropAsid (parseXlat d).asid).ctxs c (ctxOf d) }

/-- The last checks of an enable: the translations, then the object table. -/
def State.ctxAdmit (s : State) (c : Nat) (d : List Byte) : Ans :=
  if s.xlatCheck c d ≠ 0 then .next (s.ctxReason c (s.xlatCheck c d))
  else match (s.ctxEntered c d).readObjects c (dwordAt d 0x10) (wordAt d 0x18 % 8192) with
    | (none, t) => .next ({ t.tlbDropAsid (parseXlat d).asid with ctxs := Sparse.drop t.ctxs c }.ctxReason c 4)
    | (some objs, t) => .next (t.ctxUp c { ctxOf d with objects := objs })

section Admit
variable {s t : State} {c : Nat} {d : List Byte} (hcode : s.xlatCheck c d = 0)
include hcode

theorem ctxAdmit_of_bad_table (h : (s.ctxEntered c d).readObjects c (dwordAt d 0x10) (wordAt d 0x18 % 8192) = (none, t)) :
    s.ctxAdmit c d = .next ({ t.tlbDropAsid (parseXlat d).asid with ctxs := Sparse.drop t.ctxs c }.ctxReason c 4) := by
  rw [State.ctxAdmit, if_neg (not_not.2 hcode), h]

theorem ctxAdmit_of_objects {objs : List MemObject}
    (h : (s.ctxEntered c d).readObjects c (dwordAt d 0x10) (wordAt d 0x18 % 8192) = (some objs, t)) :
    s.ctxAdmit c d = .next (t.ctxUp c { ctxOf d with objects := objs }) := by
  rw [State.ctxAdmit, if_neg (not_not.2 hcode), h]

end Admit

section Enable
variable {s : State} {c : Fin 32} (hrun : s.uncRuns = true) (hen : s.flag (Reg.CPR_CTX_CTRL c.val) 0 = false)
include hrun hen

theorem ctxEnable_of_not_disabled (hst : s.fld (Reg.CPR_CTX_STATUS c.val) 1 0 ≠ 0) :
    exec (.ctxEnable c) s = .next (s.ctxReason c.val 1) := by
  change execCtxEnable c s = _
  unfold execCtxEnable
  extract_lets n a
  rw [if_neg (by simp [n, hrun, hen]), if_pos hst]

variable (hst : s.fld (Reg.CPR_CTX_STATUS c.val) 1 0 = 0)
include hst

theorem ctxEnable_of_misplaced
    (h : s.reg64 (Reg.CPR_CTX_DESC_LO c.val) % 128 ≠ 0 ∨ s.usable < s.reg64 (Reg.CPR_CTX_DESC_LO c.val) + 128) :
    exec (.ctxEnable c) s = .next (s.ctxReason c.val 2) := by
  change execCtxEnable c s = _
  unfold execCtxEnable
  extract_lets n a
  rw [if_neg (by simp [n, hrun, hen]), if_neg (not_not.2 hst), if_pos h]

theorem ctxEnable_of_read {d : List Byte} {poison : Bool} {s1 : State} (ha : s.reg64 (Reg.CPR_CTX_DESC_LO c.val) % 128 = 0)
    (husable : s.reg64 (Reg.CPR_CTX_DESC_LO c.val) + 128 ≤ s.usable)
    (hread : s.devRead cpClass (s.reg64 (Reg.CPR_CTX_DESC_LO c.val)) 128 false = (d, poison, s1)) :
    (¬CtxForm d poison → exec (.ctxEnable c) s = .next (s1.ctxReason c.val 2))
      ∧ (CtxForm d poison → ¬s1.CtxSaves c.val d → exec (.ctxEnable c) s = .next (s1.ctxReason c.val 3))
      ∧ (CtxForm d poison → s1.CtxSaves c.val d → ¬CtxTable d → exec (.ctxEnable c) s = .next (s1.ctxReason c.val 4))
      ∧ (CtxForm d poison → s1.CtxSaves c.val d → CtxTable d → exec (.ctxEnable c) s = s1.ctxAdmit c.val d) := by
  -- The address becomes opaque: comparing terms, the kernel would unfold its product with 2 ^ 32 step by step.
  generalize haddr : s.reg64 (Reg.CPR_CTX_DESC_LO c.val) = a at ha husable hread
  have hrunEnable : exec (.ctxEnable c) s = execCtxEnable c s := rfl
  rw [hrunEnable]
  unfold execCtxEnable
  extract_lets n addr
  replace haddr : addr = a := haddr
  clear_value addr
  subst haddr
  rw [if_neg (by simp [n, hrun, hen]), if_neg (not_not.2 hst), if_neg (by omega), hread]
  dsimp -zeta only
  extract_lets +onlyGivenNames save obj count lost others reserved
  have hform : (poison || decide (dwordAt d 0 % 256 ≠ 1) || reserved) = true ↔ ¬CtxForm d poison := by
    rw [iff_not_comm, CtxForm]
    simp only [reserved, lost, Bool.or_eq_true, decide_eq_true_eq, List.any_eq_true, not_or, not_exists, not_and, not_not, Bool.not_eq_true]
    constructor
    · rintro ⟨hpoison, hversion, hcount, hbits, htail⟩
      exact ⟨⟨hpoison, by omega⟩, ⟨⟨by omega, by omega⟩, hbits⟩, htail⟩
    · rintro ⟨⟨hpoison, hversion⟩, ⟨⟨hhigh, hcount⟩, hbits⟩, htail⟩
      exact ⟨hpoison, by omega, by omega, hbits, htail⟩
  have hsaves : (decide (save % 65536 ≠ 0) || decide (s1.usable < save + saveBytes)
      || others.any (fun o => overlaps save saveBytes o.save saveBytes)) = true ↔ ¬s1.CtxSaves c.val d := by
    rw [iff_not_comm, State.CtxSaves]
    simp only [n, save, others, Bool.or_eq_true, decide_eq_true_eq, List.any_eq_true, not_or, not_exists, not_and, not_not, not_lt,
      Bool.not_eq_true, and_assoc]
  have htable : CtxForm d poison → ((decide (obj % 32 ≠ 0) || decide (4096 < count)) = true ↔ ¬CtxTable d) := by
    rintro ⟨-, -, hcount, -, -⟩
    rw [iff_not_comm, CtxTable]
    simp only [obj, count, Nat.mod_eq_of_lt hcount, Bool.or_eq_true, decide_eq_true_eq, not_or, not_not, not_lt]
  refine ⟨fun h => ?_, fun h h' => ?_, fun h h' h'' => ?_, fun h h' h'' => ?_⟩
  · rw [if_pos (hform.2 h)]
  · rw [if_neg (mt hform.1 (not_not.2 h)), if_pos (hsaves.2 h')]
  · rw [if_neg (mt hform.1 (not_not.2 h)), if_neg (mt hsaves.1 (not_not.2 h')), if_pos ((htable h).2 h'')]
  · rw [if_neg (mt hform.1 (not_not.2 h)), if_neg (mt hsaves.1 (not_not.2 h')), if_neg (mt (htable h).1 (not_not.2 h''))]
    rfl

end Enable

/-! ## An enabled context (R327) -/

theorem reg_setReg64_ne (s : State) {a b : Nat} (v : Nat) (hlo : b ≠ a) (hhi : b ≠ a + 4) : (s.setReg64 a v).reg b = s.reg b := by
  rw [State.setReg64, State.reg_setReg_ne _ _ hhi, State.reg_setReg_ne _ _ hlo]

theorem reg64_of_regs {s t : State} {a : Nat} (hlo : t.reg a = s.reg a) (hhi : t.reg (a + 4) = s.reg (a + 4)) : t.reg64 a = s.reg64 a := by
  rw [State.reg64, State.reg64, hlo, hhi]

theorem reg64_setReg64_zero (s : State) (a : Nat) : (s.setReg64 a 0).reg64 a = 0 := by
  rw [State.reg64, State.setReg64, State.reg_setReg_ne _ _ (by omega), State.reg_setReg_self, State.reg_setReg_self]
  rfl

theorem reg64_setReg64_apart (s : State) {a b : Nat} (v : Nat) (h : b + 8 ≤ a ∨ a + 8 ≤ b) : (s.setReg64 a v).reg64 b = s.reg64 b :=
  reg64_of_regs (reg_setReg64_ne _ _ (by omega) (by omega)) (reg_setReg64_ne _ _ (by omega) (by omega))

/-- The work counters of a context at 0. -/
def State.workZeroed (s : State) (c : Nat) : State :=
  ((s.setReg64 (Reg.SCH_CTX_CMP_LO c) 0).setReg64 (Reg.SCH_CTX_GFX_LO c) 0).setReg64 (Reg.SCH_CTX_CPY_LO c) 0

theorem reg_workZeroed_of_lt (s : State) (c : Nat) {a : Nat} (h : a < Reg.SCH_CTX_CMP_LO c) : (s.workZeroed c).reg a = s.reg a := by
  have hgfx : a < Reg.SCH_CTX_GFX_LO c := h.trans (by unfold Reg.SCH_CTX_CMP_LO Reg.SCH_CTX_GFX_LO; omega)
  have hcpy : a < Reg.SCH_CTX_CPY_LO c := hgfx.trans (by unfold Reg.SCH_CTX_GFX_LO Reg.SCH_CTX_CPY_LO; omega)
  rw [State.workZeroed, reg_setReg64_ne _ _ (by omega) (by omega), reg_setReg64_ne _ _ (by omega) (by omega),
    reg_setReg64_ne _ _ (by omega) (by omega)]

theorem reg64_workZeroed (s : State) (c : Nat) :
    (s.workZeroed c).reg64 (Reg.SCH_CTX_CMP_LO c) = 0 ∧ (s.workZeroed c).reg64 (Reg.SCH_CTX_GFX_LO c) = 0
      ∧ (s.workZeroed c).reg64 (Reg.SCH_CTX_CPY_LO c) = 0 := by
  have hgfx : Reg.SCH_CTX_CMP_LO c + 8 ≤ Reg.SCH_CTX_GFX_LO c := by unfold Reg.SCH_CTX_CMP_LO Reg.SCH_CTX_GFX_LO; omega
  have hcpy : Reg.SCH_CTX_GFX_LO c + 8 ≤ Reg.SCH_CTX_CPY_LO c := by unfold Reg.SCH_CTX_GFX_LO Reg.SCH_CTX_CPY_LO; omega
  unfold State.workZeroed
  refine ⟨?_, ?_, reg64_setReg64_zero ..⟩
  · rw [reg64_setReg64_apart _ _ (by omega), reg64_setReg64_apart _ _ (by omega), reg64_setReg64_zero]
  · rw [reg64_setReg64_apart _ _ (by omega), reg64_setReg64_zero]

theorem queues_ctxUp (s : State) (c : Nat) (x : Ctx) : (s.ctxUp c x).queues = s.queues := by
  have hcounter (t : State) (a v : Nat) : (t.setReg64 a v).queues = t.queues := by
    rw [State.setReg64, State.setReg_queues, State.setReg_queues]
  rw [State.ctxUp, State.ctxReason, State.setFld_queues, hcounter, hcounter, hcounter, State.setFld_queues, State.setFlag_queues,
    State.setReg_queues]

/-- What an enabled context shows (R327): its entry, EN, STATE, REASON, no fault held, and work counters at 0. -/
structure CtxShown (c : Nat) (x : Ctx) (t : State) : Prop where
  en : t.flag (Reg.CPR_CTX_CTRL c) 0 = true
  state : t.fld (Reg.CPR_CTX_STATUS c) 1 0 = 1
  reason : t.fld (Reg.CPR_CTX_STATUS c) 15 8 = 0
  fault : t.reg (Reg.CPR_CTX_FAULT c) = 0
  ctx : t.ctx c = some x
  compute : t.reg64 (Reg.SCH_CTX_CMP_LO c) = 0
  graphics : t.reg64 (Reg.SCH_CTX_GFX_LO c) = 0
  copy : t.reg64 (Reg.SCH_CTX_CPY_LO c) = 0

theorem ctxShown_ctxUp (s : State) (c : Nat) (x : Ctx) : CtxShown c x (s.ctxUp c x) := by
  have hup : s.ctxUp c x = ((((({ s with ctxs := Sparse.put s.ctxs c x }.setReg (Reg.CPR_CTX_FAULT c) 0).setFlag (Reg.CPR_CTX_CTRL c)
    0).setFld (Reg.CPR_CTX_STATUS c) 1 0 1).workZeroed c).setFld (Reg.CPR_CTX_STATUS c) 15 8 0) := rfl
  have hctrl : Reg.CPR_CTX_CTRL c ≠ Reg.CPR_CTX_STATUS c := ctxCtrl_ne_ctxStatus c
  have hfault : Reg.CPR_CTX_FAULT c ≠ Reg.CPR_CTX_STATUS c ∧ Reg.CPR_CTX_FAULT c ≠ Reg.CPR_CTX_CTRL c := by
    unfold Reg.CPR_CTX_FAULT Reg.CPR_CTX_STATUS Reg.CPR_CTX_CTRL
    omega
  have hctrlLow : Reg.CPR_CTX_CTRL c < Reg.SCH_CTX_CMP_LO c := by unfold Reg.CPR_CTX_CTRL Reg.SCH_CTX_CMP_LO; omega
  have hstatusLow : Reg.CPR_CTX_STATUS c < Reg.SCH_CTX_CMP_LO c := by unfold Reg.CPR_CTX_STATUS Reg.SCH_CTX_CMP_LO; omega
  have hfaultLow : Reg.CPR_CTX_FAULT c < Reg.SCH_CTX_CMP_LO c := by unfold Reg.CPR_CTX_FAULT Reg.SCH_CTX_CMP_LO; omega
  have hcounter {t : State} {a : Nat} (ha : Reg.CPR_CTX_STATUS c < a) (v : Nat) :
      (t.setFld (Reg.CPR_CTX_STATUS c) 15 8 v).reg64 a = t.reg64 a :=
    reg64_of_regs (State.reg_setFld_ne _ _ _ _ (by omega)) (State.reg_setFld_ne _ _ _ _ (by omega))
  generalize hm : (({ s with ctxs := Sparse.put s.ctxs c x }.setReg (Reg.CPR_CTX_FAULT c) 0).setFlag (Reg.CPR_CTX_CTRL c) 0).setFld
    (Reg.CPR_CTX_STATUS c) 1 0 1 = m at hup
  obtain ⟨hcmp, hgfx, hcpy⟩ := reg64_workZeroed m c
  rw [hup]
  refine ⟨?_, ?_, ?_, ?_, ?_, ?_, ?_, ?_⟩
  · rw [State.flag, State.fld_setFld_ne _ _ _ _ _ _ hctrl, State.fld_of_reg (reg_workZeroed_of_lt _ _ hctrlLow), ← hm,
      State.fld_setFld_ne _ _ _ _ _ _ hctrl]
    exact State.flag_setFlag_self _ _ (by decide)
  · rw [State.fld_setFld_apart _ _ _ (by decide) (by decide) (by decide), State.fld_of_reg (reg_workZeroed_of_lt _ _ hstatusLow), ← hm,
      State.fld_setFld_self _ _ _ (by decide) (by decide)]
    rfl
  · exact (State.fld_setFld_self _ _ _ (by decide) (by decide)).trans (Nat.zero_mod _)
  · rw [State.reg_setFld_ne _ _ _ _ hfault.1, reg_workZeroed_of_lt _ _ hfaultLow, ← hm, State.reg_setFld_ne _ _ _ _ hfault.1,
      State.reg_setFlag_ne _ _ hfault.2, State.reg_setReg_self]
  · rw [State.ctx, State.setFld_ctxs, ← hm]
    exact Sparse.find_put_self ..
  · rw [hcounter hstatusLow, hcmp]
  · rw [hcounter (hstatusLow.trans (by unfold Reg.SCH_CTX_CMP_LO Reg.SCH_CTX_GFX_LO; omega)), hgfx]
  · rw [hcounter (hstatusLow.trans (by unfold Reg.SCH_CTX_CMP_LO Reg.SCH_CTX_CPY_LO; omega)), hcpy]

/-! ## Disable and kill (R328, R331, R568) -/

/-- A context whose kill begins: STATE killing, and no loss of its work that waits. -/
def State.killing (s : State) (c : Nat) : State :=
  { s.setFld (Reg.CPR_CTX_STATUS c) 1 0 3 with
    sched := { s.sched with losing := s.sched.losing.filter (fun l => l.ctx ≠ c) } }

section Kill
variable {s : State} {c : Fin 32} (hrun : s.uncRuns = true)
include hrun

theorem ctxDisable_of_enabled (hen : s.flag (Reg.CPR_CTX_CTRL c.val) 0 = true) :
    exec (.ctxDisable c) s = .next (if s.queuesOf c.val = [] then s.ctxOff c.val else s.ctxReason c.val 1) := by
  change execCtxDisable c s = _
  unfold execCtxDisable
  extract_lets n
  rw [if_neg (by simp [n, hrun, hen])]
  by_cases h : s.queuesOf c.val = []
  · rw [if_pos h, if_neg (by simp [n, h])]
  · rw [if_neg h, if_pos (by simpa [n] using h)]

theorem ctxKill_of_quench (hst : s.fld (Reg.CPR_CTX_STATUS c.val) 1 0 ≠ 0) (hq : s.sched.quench.isSome = true) :
    exec (.ctxKill c) s = .next { s.setFld (Reg.CPR_CTX_STATUS c.val) 1 0 3 with
      sched := { s.sched with heldKills := s.sched.heldKills ++ [c.val] } } := by
  change execCtxKill c s = _
  unfold execCtxKill
  extract_lets n
  rw [if_neg (by simp [n, hrun, hst]), if_pos hq]

theorem ctxKill_of_no_quench (hst : s.fld (Reg.CPR_CTX_STATUS c.val) 1 0 ≠ 0) (hq : s.sched.quench = none) :
    exec (.ctxKill c) s = .next (if s.sched.losing.any (fun l => l.ctx == c.val && l.kill) then s else s.ctxKill c.val) := by
  change execCtxKill c s = _
  unfold execCtxKill
  extract_lets n
  rw [if_neg (by simp [n, hrun, hst]), if_neg (by simp [hq]), apply_ite Host.Outcome.next]

end Kill

/-- Settles O17: an enable by its checks in their order, a disable by the context's queues, a kill by the work on the clusters. -/
theorem contextLifecycle : Obligations.ContextLifecycle := by
  unfold Obligations.ContextLifecycle
  intro c s hrun
  refine ⟨ctxEnable_of_not_disabled hrun, ctxEnable_of_misplaced hrun, fun d poison s1 hen hst ha husable hread => ?_,
    fun hen hqs => ?_, fun hen hqs => ?_, fun hen => if_pos (by simp [hen]), fun hen => if_pos (by simp [hen]),
    fun hst => if_pos (by simp [hst]), ctxKill_of_quench hrun, fun hst hq => ⟨fun hlosing => ?_, fun hlosing => ?_⟩⟩
  · obtain ⟨hform, hsaves, htable, hadmit⟩ := ctxEnable_of_read hrun hen hst ha husable hread
    refine ⟨hform, hsaves, htable, fun h h' h'' hcode => (hadmit h h' h'').trans (if_pos hcode),
      fun s3 h h' h'' hcode hobjs => (hadmit h h' h'').trans (ctxAdmit_of_bad_table hcode hobjs),
      fun objs s3 h h' h'' hcode hobjs => ?_⟩
    have hdone := (hadmit h h' h'').trans (ctxAdmit_of_objects hcode hobjs)
    obtain ⟨hctrl, hstate, hreason, hfault, hctx, hcmp, hgfx, hcpy⟩ := ctxShown_ctxUp s3 c.val { ctxOf d with objects := objs }
    exact ⟨hdone, _, hdone, hctrl, hstate, hreason, hfault, hctx, hcmp, hgfx, hcpy, queues_ctxUp ..⟩
  · rw [ctxDisable_of_enabled hrun hen, if_neg hqs]
    rfl
  · obtain ⟨hctx, hctrl, hstate, hother, hqueues, -⟩ := ctxOff_frame s c.val
    rw [ctxDisable_of_enabled hrun hen, if_pos hqs]
    exact ⟨rfl, _, rfl, hctx, hctrl, hstate, hother, hqueues⟩
  · rw [ctxKill_of_no_quench hrun hst hq, if_pos hlosing]
  · rw [ctxKill_of_no_quench hrun hst hq, if_neg (by simp [hlosing])]
    refine ⟨fun hon => congrArg _ (if_pos hon), fun hoff => ?_⟩
    have hend : s.ctxKill c.val = (s.killing c.val).killEnd c.val := if_neg (Bool.eq_false_iff.1 hoff)
    obtain ⟨hctx, hctrl, hstate, hblocks⟩ := ctxGone_killEnd (s.killing c.val) c.isLt
    rw [hend]
    exact ⟨rfl, _, rfl, hctx, hctrl, hstate, hblocks⟩

end Sys2Proof.Machine
end

section
/-! PROOFS. Layouts and apertures of the MMU (O48): enables with their checks, disables, and the bits of MMU_APER_EN (R403, R431, R433). -/

namespace Sys2Proof.Machine

/-! ## Bits of a word -/

theorem flag_eq_bit (s : State) (a i : Nat) : s.flag a i = bit (s.reg a).toNat i := by
  rw [State.flag, State.fld, bits, bit, Nat.add_sub_cancel_left, Nat.pow_one]

theorem bit_mod_two_pow {v n i : Nat} (h : i < n) : bit (v % 2 ^ n) i = bit v i := by
  rw [bit_eq_testBit, bit_eq_testBit, Nat.testBit_mod_two_pow, decide_eq_true h, Bool.true_and]

theorem bit_bits {v hi lo i : Nat} (h : i < hi + 1 - lo) : bit (bits v hi lo) i = bit v (i + lo) := by
  rw [bit_eq_testBit, bit_eq_testBit, testBit_bits, decide_eq_true h, Bool.true_and]

/-- The sum of the powers of a rising list has the bits of the list. -/
theorem bit_sum_two_pow {l : List Nat} (h : l.SortedLT) (i : Nat) : bit (l.map (fun i => 2 ^ i)).sum i = true ↔ i ∈ l := by
  rw [bit_eq_testBit, ← Nat.mem_bitIndices, Nat.bitIndices_sum_map_two_pow h]

/-! ## Layouts (R403) -/

section Layout
variable {s : State} {n : Fin 4} {v : Word} (hrun : s.uncRuns = true)
include hrun

theorem layoutEnable_of_disabled (hset : bit v.toNat 0 = true) (hoff : s.flag (Reg.MMU_LAYOUT_CTRL n.val) 0 = false) :
    let s1 := s.setReg (Reg.MMU_LAYOUT_CTRL n.val) (BitVec.ofNat 32 (v.toNat % 2 ^ 31 / 2 * 2))
    exec (.layoutEnable n v) s = .next ((if s1.layoutCheck n.val = 0 then s1.setFlag (Reg.MMU_LAYOUT_CTRL n.val) 0 else s1).mmuReason
      (s1.layoutCheck n.val)) := by
  have hcur : bit (s.reg (Reg.MMU_LAYOUT_CTRL n.val)).toNat 0 = false := (flag_eq_bit ..).symm.trans hoff
  have hbit : bit (v.toNat % 2 ^ 31) 0 = true := (bit_mod_two_pow (by decide)).trans hset
  change execLayoutEnable n v s = _
  rw [execLayoutEnable, if_pos (by simp [hrun, hset, hoff]), State.layoutWrite]
  simp only [hcur, hbit, Bool.not_true, Bool.false_eq_true, if_false]

theorem layoutDisable_of_enabled (hclear : bit v.toNat 0 = false) (hon : s.flag (Reg.MMU_LAYOUT_CTRL n.val) 0 = true) :
    exec (.layoutDisable n v) s = .next
      (if v.toNat % 2 ^ 31 / 2 ≠ (s.reg (Reg.MMU_LAYOUT_CTRL n.val)).toNat / 2 then s.setFlag Reg.MMU_STATUS 0
       else if s.layoutUsed n.val = true then s.mmuReason 0x52
       else (s.clearFlag (Reg.MMU_LAYOUT_CTRL n.val) 0).mmuReason 0) := by
  have hcur : bit (s.reg (Reg.MMU_LAYOUT_CTRL n.val)).toNat 0 = true := (flag_eq_bit ..).symm.trans hon
  have hbit : bit (v.toNat % 2 ^ 31) 0 = false := (bit_mod_two_pow (by decide)).trans hclear
  change execLayoutDisable n v s = _
  rw [execLayoutDisable, if_pos (by simp [hrun, hclear, hon]), State.layoutWrite]
  simp only [hcur, hbit, Bool.false_eq_true, if_true, if_false]

end Layout

theorem layoutCheck_of_iabits {s : State} {n : Nat}
    (h : iabitsOk (s.fld (Reg.MMU_LAYOUT_CTRL n) 2 1) (s.layout n).levels (s.layout n).iabits = false) : s.layoutCheck n = 0x50 :=
  if_pos (by simp [h])

theorem layoutCheck_ne_zero_of_addr {s : State} {n : Nat} (h : (s.layout n).addrLo < 12 ∨ 55 < (s.layout n).addrHi) :
    s.layoutCheck n ≠ 0 := by
  unfold State.layoutCheck
  extract_lets l gran inside pos
  split
  · decide
  · rw [if_pos (h.imp_right fun hhi => .inr (.inr (.inl hhi)))]
    decide

/-! ## Apertures (R431, R433) -/

/-- An aperture whose bit MMU_APER_EN keeps when a write sets it: on already, or it ends no lower than it begins. -/
def State.aperOk (s : State) (i : Nat) : Prop :=
  s.flag Reg.MMU_APER_EN i = true ∨ s.reg64 (Reg.MMU_APER_BASE_LO i) ≤ s.reg64 (Reg.MMU_APER_LIMIT_LO i)

/-- The apertures that a write of MMU_APER_EN newly sets. -/
def State.aperNew (s : State) (v : Word) : List Nat :=
  (List.range 8).filter (fun i => bit v.toNat i && !bit (s.fld Reg.MMU_APER_EN 7 0) i)

/-- Those of them that fail their check. -/
def State.aperBad (s : State) (v : Word) : List Nat :=
  (s.aperNew v).filter (fun i => s.reg64 (Reg.MMU_APER_LIMIT_LO i) < s.reg64 (Reg.MMU_APER_BASE_LO i))

/-- The apertures that a write of MMU_APER_EN leaves on. -/
def State.aperOn (s : State) (v : Word) : List Nat := (List.range 8).filter (fun i => bit v.toNat i && !(s.aperBad v).contains i)

theorem aperWrite_eq (s : State) (v : Word) :
    let t := s.setReg Reg.MMU_APER_EN (BitVec.ofNat 32 ((s.aperOn v).map (fun i => 2 ^ i)).sum)
    s.aperWrite v = if (s.aperNew v).isEmpty then t else t.mmuReason (if (s.aperBad v).isEmpty then 0 else 0x58) := rfl

theorem mem_aperNew {s : State} {v : Word} {i : Nat} :
    i ∈ s.aperNew v ↔ i < 8 ∧ bit v.toNat i = true ∧ s.flag Reg.MMU_APER_EN i = false := by
  simp only [State.aperNew, List.mem_filter, List.mem_range, Bool.and_eq_true, Bool.not_eq_true']
  refine and_congr_right fun hi => ?_
  rw [State.fld, bit_bits (by omega), Nat.add_zero, flag_eq_bit]

theorem mem_aperBad {s : State} {v : Word} {i : Nat} : i ∈ s.aperBad v ↔ i < 8 ∧ bit v.toNat i = true ∧ ¬s.aperOk i := by
  simp [State.aperBad, State.aperOk, mem_aperNew, and_assoc]

theorem mem_aperOn {s : State} {v : Word} {i : Nat} (hi : i < 8) : i ∈ s.aperOn v ↔ bit v.toNat i = true ∧ s.aperOk i := by
  simp only [State.aperOn, List.mem_filter, List.mem_range, Bool.and_eq_true, Bool.not_eq_true', List.contains_eq_mem,
    decide_eq_false_iff_not, mem_aperBad, hi, true_and]
  exact and_congr_right fun hbit => by simp [hbit]

theorem aperWrite_frame (s : State) (v : Word) :
    s.aperWrite v = { s with regs := (s.aperWrite v).regs }
      ∧ ∀ b, b ≠ Reg.MMU_APER_EN → b ≠ Reg.MMU_STATUS → (s.aperWrite v).reg b = s.reg b := by
  rw [aperWrite_eq]
  split
  · exact ⟨rfl, fun b hen _ => State.reg_setReg_ne _ _ hen⟩
  · exact ⟨rfl, fun b hen hstatus => (State.reg_setFld_ne _ _ _ _ hstatus).trans (State.reg_setReg_ne _ _ hen)⟩

theorem aperWrite_en (s : State) (v : Word) :
    (s.aperWrite v).reg Reg.MMU_APER_EN = BitVec.ofNat 32 ((s.aperOn v).map (fun i => 2 ^ i)).sum := by
  rw [aperWrite_eq]
  split
  · exact State.reg_setReg_self ..
  · exact (State.reg_setFld_ne _ _ _ _ (by decide)).trans (State.reg_setReg_self ..)

theorem aperWrite_flag (s : State) (v : Word) {i : Nat} (hi : i < 8) :
    (s.aperWrite v).flag Reg.MMU_APER_EN i = true ↔ bit v.toNat i = true ∧ s.aperOk i := by
  have hsorted : (s.aperOn v).SortedLT := (List.pairwise_lt_range.filter _).sortedLT
  rw [flag_eq_bit, aperWrite_en, BitVec.toNat_ofNat, bit_mod_two_pow (by omega), bit_sum_two_pow hsorted, mem_aperOn hi]

theorem aperWrite_reason_of_new {s : State} {v : Word} (h : s.aperNew v ≠ []) :
    (s.aperWrite v).fld Reg.MMU_STATUS 15 8 = if (s.aperBad v).isEmpty then 0 else 0x58 := by
  rw [aperWrite_eq, if_neg (by simpa using h), State.mmuReason, State.fld_setFld_self _ _ _ (by decide) (by decide)]
  split <;> rfl

theorem aperWrite_reason_of_bad {s : State} {v : Word} {i : Nat} (h : i ∈ s.aperBad v) :
    (s.aperWrite v).fld Reg.MMU_STATUS 15 8 = 0x58 := by
  rw [aperWrite_reason_of_new (List.ne_nil_of_mem (List.mem_of_mem_filter h)), if_neg (by simpa using List.ne_nil_of_mem h)]

theorem aperWrite_reason_of_good {s : State} {v : Word} {i : Nat} (hnew : i ∈ s.aperNew v) (hgood : s.aperBad v = []) :
    (s.aperWrite v).fld Reg.MMU_STATUS 15 8 = 0 := by
  rw [aperWrite_reason_of_new (List.ne_nil_of_mem hnew), if_pos (by rw [hgood]; rfl)]

theorem aperWrite_status_of_old {s : State} {v : Word} (h : s.aperNew v = []) :
    (s.aperWrite v).reg Reg.MMU_STATUS = s.reg Reg.MMU_STATUS := by
  rw [aperWrite_eq, if_pos (by rw [h]; rfl)]
  exact State.reg_setReg_ne _ _ (by decide)

/-- Settles O48: a layout's enable by its check, its disable by its users, and the apertures' bits by their checks. -/
theorem layoutsAndApertures : Obligations.LayoutsAndApertures := by
  intro s n v hrun a
  refine ⟨fun hset hoff => ⟨layoutEnable_of_disabled hrun hset hoff, layoutCheck_of_iabits, layoutCheck_ne_zero_of_addr⟩,
    layoutDisable_of_enabled hrun, s.aperWrite v, if_pos hrun, fun i => aperWrite_flag s v, fun ⟨i, hi, hbit, hbad⟩ => ?_,
    fun hok ⟨i, hi, hbit, hoff⟩ => ?_, fun hold => ?_, aperWrite_frame s v⟩
  · exact aperWrite_reason_of_bad (mem_aperBad.2 ⟨hi, hbit, hbad⟩)
  · refine aperWrite_reason_of_good (mem_aperNew.2 ⟨hi, hbit, hoff⟩) (List.eq_nil_iff_forall_not_mem.2 fun j hj => ?_)
    obtain ⟨hlt, hset, hbad⟩ := mem_aperBad.1 hj
    exact hbad (hok j hlt hset)
  · refine aperWrite_status_of_old (List.eq_nil_iff_forall_not_mem.2 fun j hj => ?_)
    obtain ⟨hlt, hset, hoff⟩ := mem_aperNew.1 hj
    exact Bool.false_ne_true (hoff.symm.trans (hold j hlt hset))

end Sys2Proof.Machine
end

section
/-! PROOFS. Withdrawals (O49): the packets and requests that join a path, what goes when a withdrawal takes effect, and the completion of
the oldest (R418 to R424, R431). -/

namespace Sys2Proof.Machine

/-! ## Unit packets by the code of their check (R345) -/

section Checked
variable {s s' : State} {p : Pkt} {op ptr : Nat} {u : Queue} {sel start : Bool} {kind : UnitKind}
  {check : Queue → State → Nat × State} {k : Queue → Nat → State → State}
  (hroom : RoomForUnit s p.q.val) (h : PktRuns s p op u ptr s') (hsel : sel = true)
include hroom h hsel

theorem withUnit_of_refused {code : Nat} (hcheck : check u s' = (code, s')) (hbad : code ≠ 0) :
    s.withUnit p op sel kind check start k = .next (s'.refuseUnit p.q.val u ptr code (pktOrder p) kind) := by
  rw [withUnit_runs _ _ _ _ _ h hsel hroom, hcheck, if_pos hbad]

theorem withUnit_of_accepted (hcheck : check u s' = (0, s')) :
    s.withUnit p op sel kind check start k = .next (k u (s'.addUnit p.q.val u ptr (pktOrder p) start kind).1
      (s'.addUnit p.q.val u ptr (pktOrder p) start kind).2) := by
  rw [withUnit_runs _ _ _ _ _ h hsel hroom, hcheck, if_neg (not_not.2 rfl)]

end Checked

/-! ## The packet path (R418) -/

/-- A TLB_INVAL whose range is misaligned, empty or leaves its region. -/
def InvalWrong (p : Pkt) (x : Xlat) : Prop :=
  bits (pw p 0) 1 0 = 0 ∧ (pd p 1 % 4096 ≠ 0 ∨ pw p 3 = 0 ∨ x.leaves (bit (pw p 0) 2) (pd p 1) (pw p 3) = true)

theorem invalCode_of_wrong {p : Pkt} {x : Xlat} (h : InvalWrong p x) : invalCode x (pw p 0) (pd p 1) (pw p 3) = 0x59 := if_pos h

theorem invalCode_of_reserved {p : Pkt} {x : Xlat} (hok : ¬InvalWrong p x) (h : 2 ≤ bits (pw p 0) 1 0 ∨ 16 ≤ pw p 0) :
    invalCode x (pw p 0) (pd p 1) (pw p 3) = 0x5A :=
  (if_neg hok).trans (if_pos (by omega))

theorem invalCode_of_sound {p : Pkt} {x : Xlat} (hok : ¬InvalWrong p x) (hscope : bits (pw p 0) 1 0 < 2) (hw : pw p 0 < 16) :
    invalCode x (pw p 0) (pd p 1) (pw p 3) = 0 :=
  (if_neg hok).trans (if_neg (by omega))

/-- The state after a TLB_INVAL that has been accepted: its unit waits for its withdrawal, which has joined the packet path. -/
def State.invalJoined (s : State) (p : Pkt) (u : Queue) (ptr : Nat) : State :=
  let a := s.addUnit p.q.val u ptr (pktOrder p) true (.maint 0x21 p.body)
  let w : Withdrawal := ⟨some (p.q.val, a.1), 0, u.ctx, bits (pw p 0) 1 0 == 1, bit (pw p 0) 2, bit (pw p 0) 3, pd p 1, pw p 3, false, []⟩
  ({ a.2 with mmu := { a.2.mmu with pinval := a.2.mmu.pinval ++ [w] } }).startWithdrawals

section Packet
variable {s s' : State} {p : Pkt} {u : Queue} {ptr : Nat} {x : Ctx} {sel : Bool} (hroom : RoomForUnit s p.q.val)
  (h : PktRuns s p 0x21 u ptr s') (hx : s'.ctx u.ctx = some x) (hsel : sel = true)
include hroom h hx hsel

theorem tlbInval_of_code {code : Nat} (hcode : invalCode x.xlat (pw p 0) (pd p 1) (pw p 3) = code) (hbad : code ≠ 0) :
    s.tlbInval p sel = .next (s'.refuseUnit p.q.val u ptr code (pktOrder p) (.maint 0x21 p.body)) := by
  rw [State.tlbInval]
  exact withUnit_of_refused hroom h hsel (by simp only [hx, hcode]) hbad

theorem tlbInval_of_sound (hok : ¬InvalWrong p x.xlat) (hscope : bits (pw p 0) 1 0 < 2) (hw : pw p 0 < 16) :
    s.tlbInval p sel = .next (s'.invalJoined p u ptr) := by
  rw [State.tlbInval]
  exact withUnit_of_accepted hroom h hsel (by simp only [hx, invalCode_of_sound hok hscope hw])

end Packet

/-! ## The register path (R419) -/

/-- MMU_INVAL_CTRL as a request stores it. -/
def State.invalCtrl (s : State) (v : Word) : State :=
  s.setReg Reg.MMU_INVAL_CTRL (BitVec.ofNat 32 (bits v.toNat 4 1 * 2 + bits v.toNat 12 8 * 256))

/-- A request for a range of a context, where the range is empty or leaves its region. -/
def State.RequestWrong (s : State) (v : Word) : Prop :=
  ∃ x, s.ctx (bits v.toNat 12 8) = some x ∧ bits v.toNat 2 1 = 0 ∧ ((s.reg Reg.MMU_INVAL_PAGES).toNat = 0
    ∨ x.xlat.leaves (bit v.toNat 3) (s.reg64 Reg.MMU_INVAL_ADDR_LO) (s.reg Reg.MMU_INVAL_PAGES).toNat = true)

/-- The code that the check of a request posts. -/
def State.requestCode (s : State) (v : Word) : Nat :=
  if 2 ≤ bits v.toNat 2 1 then 0x5A
  else match s.ctx (bits v.toNat 12 8) with
    | some x => if bits v.toNat 2 1 = 0 ∧ ((s.reg Reg.MMU_INVAL_PAGES).toNat = 0
        ∨ x.xlat.leaves (bit v.toNat 3) (s.reg64 Reg.MMU_INVAL_ADDR_LO) (s.reg Reg.MMU_INVAL_PAGES).toNat = true) then 0x59 else 0
    | none => 0

theorem requestCode_of_wrong {s : State} {v : Word} (h : s.RequestWrong v) : s.requestCode v = 0x59 := by
  obtain ⟨x, hx, hscope, hrange⟩ := h
  rw [State.requestCode, if_neg (by omega), hx]
  exact if_pos ⟨hscope, hrange⟩

theorem requestCode_of_sound {s : State} {v : Word} (hscope : bits v.toNat 2 1 < 2) (hok : ¬s.RequestWrong v) : s.requestCode v = 0 := by
  rw [State.requestCode, if_neg (by omega)]
  split
  next x hx => exact if_neg fun hwrong => hok ⟨x, hx, hwrong⟩
  · rfl

/-- The state in which a request whose check posts `code` has been numbered and has joined its path. -/
def State.requestJoined (s : State) (v : Word) (code : Nat) : State :=
  let s2 := (s.mmuReason code).countWrap Reg.MMU_INVAL_GEN 31 0 1
  let w : Withdrawal := ⟨none, (s2.reg Reg.MMU_INVAL_GEN).toNat, bits v.toNat 12 8, bits v.toNat 2 1 == 1, bit v.toNat 3, bit v.toNat 4,
    s.reg64 Reg.MMU_INVAL_ADDR_LO, (s.reg Reg.MMU_INVAL_PAGES).toNat, false, []⟩
  ({ s2 with mmu := { s2.mmu with inval := s2.mmu.inval ++ [w] } }).startWithdrawals.invalPend

/-- The last step of a request: for a context that is not enabled, it completes at once where it is alone on its path. -/
def State.requestSettled (s : State) (v : Word) : State :=
  if s.ctx (bits v.toNat 12 8) = none ∧ s.mmu.inval.length = 1 then s.withdrawDone false else s

section Request
variable {s : State} {v : Word} (hrun : s.uncRuns = true) (hgo : bit v.toNat 0 = true)
include hrun hgo

theorem mmuInvalRequest_of_go : exec (.mmuInvalRequest v) s = .next (s.invalWrite v) := if_pos (by simp [hrun, hgo])

theorem mmuInvalRequest_of_full (hfull : 16 ≤ s.mmu.inval.length) : exec (.mmuInvalRequest v) s = .next (s.setFlag Reg.MMU_STATUS 1) :=
  (mmuInvalRequest_of_go hrun hgo).trans (congrArg _ (if_pos ⟨hgo, hfull⟩))

theorem mmuInvalRequest_of_free (hfree : s.mmu.inval.length < 16) :
    let s1 := s.invalCtrl v
    let code := s1.requestCode v
    exec (.mmuInvalRequest v) s = .next (if code ≠ 0 then s1.mmuReason code else (s1.requestJoined v code).requestSettled v) := by
  rw [mmuInvalRequest_of_go hrun hgo, State.invalWrite, if_neg (by omega)]
  dsimp only
  rw [if_neg (by simp [hgo])]
  simp only [Option.isNone_iff_eq_none]
  rfl

theorem mmuInvalRequest_of_refused (hfree : s.mmu.inval.length < 16) {code : Nat} (hcode : (s.invalCtrl v).requestCode v = code)
    (hbad : code ≠ 0) : exec (.mmuInvalRequest v) s = .next ((s.invalCtrl v).mmuReason code) := by
  rw [mmuInvalRequest_of_free hrun hgo hfree, hcode, if_pos hbad]

theorem mmuInvalRequest_of_accepted (hfree : s.mmu.inval.length < 16) (hcode : (s.invalCtrl v).requestCode v = 0) :
    exec (.mmuInvalRequest v) s = .next (((s.invalCtrl v).requestJoined v 0).requestSettled v) := by
  rw [mmuInvalRequest_of_free hrun hgo hfree, hcode, if_neg (not_not.2 rfl)]

end Request

/-! ## Taking effect (R420, R421) -/

theorem mmu_reads {s t : State} (h : Reads s t) : t.mmu = s.mmu := by
  obtain ⟨⟨_, _, _, _, _, _, _, rfl⟩, -⟩ := h
  rfl

theorem mmu_devRead (s : State) (cls a n : Nat) (noAlloc : Bool) : (s.devRead cls a n noAlloc).2.2.mmu = s.mmu :=
  mmu_reads (reads_devRead ..)

theorem mmu_writeBackBlock (s : State) (c : Nat) (b : MigBlock) : (s.writeBackBlock c b).mmu = s.mmu := by
  unfold State.writeBackBlock
  split
  · rfl
  next cx hcx =>
  extract_lets s1 base
  split
  · rfl
  have hread := mmu_devRead s1 15 base 65536 false
  generalize s1.devRead 15 base 65536 false = d at hread ⊢
  obtain ⟨bs, bad, t⟩ := d
  dsimp only at hread ⊢
  split
  · exact (mmu_reads (reads_of_reports (reports_recC ..))).trans hread
  · rw [State.countSat, State.setFld_mmu]
    exact (foldl_keeps State.mmu (fun _ _ => mmu_reads (reads_of_reports (reports_post ..))) _ t).trans hread

theorem mmu_withdrawBlocks (s : State) (w : Withdrawal) : (s.withdrawBlocks w).mmu = s.mmu := by
  unfold State.withdrawBlocks
  split
  · rfl
  · exact foldl_keeps State.mmu (fun s b => mmu_writeBackBlock s w.ctx b) _ s

theorem withdrawEffect_effective (s : State) (w : Withdrawal) : (s.withdrawEffect w).1.effective = true := by
  unfold State.withdrawEffect
  split <;> rfl

theorem withdrawEffect_tlb {s : State} {w : Withdrawal} {x : Ctx} (hx : s.ctx w.ctx = some x) :
    (s.withdrawEffect w).2.mmu.tlb = s.mmu.tlb.filter (fun e => !(e.asid == x.xlat.asid && w.covers e.host e.va e.size)) := by
  unfold State.withdrawEffect
  rw [hx]
  exact congrArg MmuState.tlb (mmu_withdrawBlocks ..)

theorem mem_withdrawEffect_tlb {s : State} {w : Withdrawal} {x : Ctx} (hx : s.ctx w.ctx = some x) (e : TlbEntry) :
    e ∈ (s.withdrawEffect w).2.mmu.tlb ↔ e ∈ s.mmu.tlb ∧ ¬(e.asid = x.xlat.asid ∧ w.covers e.host e.va e.size = true) := by
  rw [withdrawEffect_tlb hx]
  simp only [List.mem_filter, Bool.not_eq_true', Bool.and_eq_false_iff, beq_eq_false_iff_ne]
  rw [not_and_or, Bool.not_eq_true]


/-! ## Completion (R419, R421, R424) -/

/-- The path of a withdrawal: of the packets, or of the registers. -/
def State.invalPath (s : State) (packet : Bool) : List Withdrawal := if packet then s.mmu.pinval else s.mmu.inval

/-- A withdrawal that may complete: in effect, with every transfer it waits for ended. -/
def State.WithdrawalEnded (s : State) (w : Withdrawal) : Prop := w.effective = true ∧ ∀ y ∈ w.waits, s.outstanding y = false

/-- The state with the oldest withdrawal of a path gone. -/
def State.withInvalPath (s : State) (packet : Bool) (rest : List Withdrawal) : State :=
  { s with mmu := if packet then { s.mmu with pinval := rest } else { s.mmu with inval := rest } }

/-- What the completion of a withdrawal answers. -/
def State.withdrawalAnswered (s : State) (w : Withdrawal) : State := match w.packet with
  | some (q, seq) => ((s.completeUnit q seq 0 0).endStream q).startWithdrawals
  | none =>
    let s1 := (s.setReg Reg.MMU_INVAL_DONE (BitVec.ofNat 32 w.gen)).invalPend
    (if s1.flag Reg.MMU_CTRL 1 = true then s1.raiseVec (s1.fld Reg.MMU_CTRL 21 16) else s1).startWithdrawals

theorem withdrawDone_of_empty {s : State} {packet : Bool} (h : s.invalPath packet = []) : s.withdrawDone packet = s := by
  unfold State.withdrawDone
  rw [show (if packet then s.mmu.pinval else s.mmu.inval) = [] from h]

section Complete
variable {s : State} {packet : Bool} {w : Withdrawal} {rest : List Withdrawal} (h : s.invalPath packet = w :: rest)
include h

theorem withdrawDone_of_oldest : s.withdrawDone packet =
    if !w.effective || w.waits.any (fun x => s.outstanding x) then s else (s.withInvalPath packet rest).withdrawalAnswered w := by
  unfold State.withdrawDone State.withdrawalAnswered
  rw [show (if packet then s.mmu.pinval else s.mmu.inval) = w :: rest from h]
  dsimp only
  generalize w.packet = o
  cases o <;> rfl

theorem withdrawDone_of_ended (hend : s.WithdrawalEnded w) : s.withdrawDone packet = (s.withInvalPath packet rest).withdrawalAnswered w := by
  obtain ⟨heff, hwaits⟩ := hend
  rw [withdrawDone_of_oldest h, if_neg (by simpa [heff] using hwaits)]

theorem withdrawDone_of_not_ended (hend : ¬s.WithdrawalEnded w) : s.withdrawDone packet = s := by
  rw [withdrawDone_of_oldest h, if_pos]
  by_contra hgo
  exact hend (by simpa [State.WithdrawalEnded] using hgo)

end Complete

/-- Settles O49: the packets and the requests by their checks, the effect by its filter of the TLBs, and the completion by the oldest. -/
theorem withdrawals : Obligations.Withdrawals := by
  refine ⟨fun s s' p u ptr x hroom h hx => ?_, fun s v hrun hgo => ?_,
    fun s w x hx => ⟨withdrawEffect_effective s w, mem_withdrawEffect_tlb hx⟩, fun s w rest => ?_,
    fun s => ⟨fun h => congrArg _ (withdrawDone_of_empty (packet := true) h), fun h => congrArg _ (withdrawDone_of_empty (packet := false) h)⟩⟩
  · intro sc wrong a w t refused
    have hrange (hsc : sc ≠ 1) : decide (bits (pw p 0) 1 0 ≠ 1) = true := decide_eq_true hsc
    refine ⟨fun hw hsc hok => ?_, fun hw hsc => ?_, fun hwrong => ?_, fun hok hsc hres => ?_, fun hsc hw => ?_⟩
    · exact tlbInval_of_sound hroom h hx (hrange (by omega)) hok (by omega) hw
    · exact tlbInval_of_sound hroom h hx (beq_iff_eq.2 hsc) (fun ⟨hscope, _⟩ => by omega) (by omega) hw
    · exact tlbInval_of_code hroom h hx (hrange (by have ⟨hscope, _⟩ := hwrong; omega)) (invalCode_of_wrong hwrong) (by decide)
    · exact tlbInval_of_code hroom h hx (hrange hsc) (invalCode_of_reserved hok hres) (by decide)
    · exact tlbInval_of_code hroom h hx (beq_iff_eq.2 hsc)
        (invalCode_of_reserved (fun ⟨hscope, _⟩ => by omega) (.inr hw)) (by decide)
  · exact ⟨mmuInvalRequest_of_full hrun hgo, fun hfree hscope => mmuInvalRequest_of_refused hrun hgo hfree (if_pos hscope) (by decide),
      fun hfree hwrong => mmuInvalRequest_of_refused hrun hgo hfree (requestCode_of_wrong hwrong) (by decide),
      fun hfree hscope hok => mmuInvalRequest_of_accepted hrun hgo hfree (requestCode_of_sound hscope hok)⟩
  · exact ⟨fun h => ⟨fun hend => congrArg _ (withdrawDone_of_ended (packet := true) h hend),
        fun hend => congrArg _ (withdrawDone_of_not_ended (packet := true) h hend)⟩,
      fun h => ⟨fun hend => congrArg _ (withdrawDone_of_ended (packet := false) h hend),
        fun hend => congrArg _ (withdrawDone_of_not_ended (packet := false) h hend)⟩⟩

end Sys2Proof.Machine
end

section
/-! PROOFS. Advice on ranges of pages and the prefetch of a range (O50): the checks of the packets and what an accepted one does (R425 to
R427, R431). -/

namespace Sys2Proof.Machine

/-! ## The advice of a page (R425, R426) -/

theorem has_eq_true_iff (a : Advice) (va : Nat) : a.has va = true ↔ a.addr ≤ va ∧ va < a.addr + a.pages * 4096 := by
  simp [Advice.has]

/-- The piece of advice that an ADVISE changes: the one of its range, or a new one. -/
def adviceAt (l : List Advice) (addr pages : Nat) : Advice :=
  (l.find? (fun a => a.addr == addr && a.pages == pages)).getD ⟨addr, pages, none, none, none⟩

theorem adviceAt_range (l : List Advice) (addr pages : Nat) : (adviceAt l addr pages).addr = addr ∧ (adviceAt l addr pages).pages = pages := by
  unfold adviceAt
  cases h : l.find? (fun a => a.addr == addr && a.pages == pages) with
  | none => exact ⟨rfl, rfl⟩
  | some a => simpa using List.find?_some h

/-- What is left of a piece of advice after a cut covers no page of the range cut out. -/
theorem has_of_mem_cut {a b : Advice} {addr pages va : Nat} (hlo : addr ≤ va) (hhi : va < addr + pages * 4096)
    (hb : b ∈ a.cut addr pages) : b.has va = false := by
  rw [← Bool.not_eq_true, has_eq_true_iff]
  unfold Advice.cut at hb
  extract_lets e f at hb
  split at hb
  next hapart =>
    rw [List.mem_singleton.1 hb]
    omega
  · rcases List.mem_append.1 hb with hb | hb
    · obtain ⟨-, rfl⟩ : a.addr < addr ∧ b = _ := by simpa [List.mem_ite_nil_right] using hb
      dsimp only
      omega
    · obtain ⟨-, rfl⟩ : f < e ∧ b = _ := by simpa [List.mem_ite_nil_right] using hb
      dsimp only
      omega

section Attrs
variable {x : Ctx} {a : Advice} {l : List Advice} {va : Nat} (h : a.has va = true)
include h

theorem attrs_loc_of_newest {loc : Nat} (hloc : a.loc = some loc) : (({ x with advice := a :: l } : Ctx).attrs va).1 = loc := by
  simp [Ctx.attrs, h, hloc]

theorem attrs_mostly_of_newest {b : Bool} (hmostly : a.mostly = some b) : (({ x with advice := a :: l } : Ctx).attrs va).2.1 = b := by
  simp [Ctx.attrs, h, hmostly]

theorem attrs_clusters_of_newest {cl : Nat} (hcl : a.clusters = some cl) : (({ x with advice := a :: l } : Ctx).attrs va).2.2 = cl := by
  simp [Ctx.attrs, h, hcl]

end Attrs

theorem attrs_after_advise (x : Ctx) (loc cl : Nat) {addr pages va : Nat} (hlo : addr ≤ va) (hhi : va < addr + pages * 4096) :
    let y (k : Nat) : Ctx := { x with advice := adviseList x.advice k loc cl addr pages }
    ((y 0).attrs va).1 = loc ∧ ((y 1).attrs va).2.1 = true ∧ ((y 2).attrs va).2.1 = false ∧ ((y 3).attrs va).2.2 = cl
      ∧ ∀ a ∈ (y 4).advice, a.has va = false := by
  obtain ⟨haddr, hpages⟩ := adviceAt_range x.advice addr pages
  have hcovers : (adviceAt x.advice addr pages).has va = true := by
    rw [has_eq_true_iff, haddr, hpages]
    exact ⟨hlo, hhi⟩
  refine ⟨attrs_loc_of_newest (a := { adviceAt x.advice addr pages with loc := some loc }) hcovers rfl,
    attrs_mostly_of_newest (a := { adviceAt x.advice addr pages with mostly := some true }) hcovers rfl,
    attrs_mostly_of_newest (a := { adviceAt x.advice addr pages with mostly := some false }) hcovers rfl,
    attrs_clusters_of_newest (a := { adviceAt x.advice addr pages with clusters := some cl }) hcovers rfl, fun a ha => ?_⟩
  obtain ⟨old, -, hcut⟩ := List.mem_flatMap.1 ha
  exact has_of_mem_cut hlo hhi hcut

/-! ## ADVISE (R426, R431) -/

/-- An ADVISE with a reserved ADVICE, location or field. -/
abbrev AdviseReserved (p : Pkt) : Prop :=
  4 < bits (pw p 3) 2 0 ∨ bits (pw p 3) 5 4 = 3 ∨ bit (pw p 3) 3 = true ∨ bits (pw p 3) 15 6 ≠ 0 ∨ bits (pw p 3) 31 28 ≠ 0
    ∨ pw p 4 ≠ 0 ∨ pw p 5 ≠ 0

/-- A context's advice after an ADVISE. -/
def Ctx.advised (x : Ctx) (p : Pkt) : List Advice :=
  adviseList x.advice (bits (pw p 3) 2 0) (bits (pw p 3) 5 4) (bits (pw p 3) 27 16) (pd p 0) (pw p 2)

/-- The code that the check of an ADVISE gives. -/
def adviseCode (p : Pkt) (x : Ctx) : Nat :=
  if pd p 0 % 4096 ≠ 0 ∨ pw p 2 = 0 then 0x59 else if AdviseReserved p then 0x5A else if 64 < (x.advised p).length then 0x5B else 0

/-- The ADVISE command of a packet's ADVICE selects the packet. -/
theorem exec_advise {p : Pkt} {i : Instr} (s : State)
    (hi : (bits (pw p 3) 2 0 = 0 ∨ 4 < bits (pw p 3) 2 0) ∧ i = .adviseLocation p ∨ bits (pw p 3) 2 0 = 1 ∧ i = .adviseSetReadMostly p
      ∨ bits (pw p 3) 2 0 = 2 ∧ i = .adviseClearReadMostly p ∨ bits (pw p 3) 2 0 = 3 ∧ i = .adviseAccessedBy p
      ∨ bits (pw p 3) 2 0 = 4 ∧ i = .adviseRemove p) : exec i s = s.advise p true := by
  rcases hi with ⟨hk, rfl⟩ | ⟨hk, rfl⟩ | ⟨hk, rfl⟩ | ⟨hk, rfl⟩ | ⟨hk, rfl⟩
  · exact congrArg (s.advise p) (by simpa using hk)
  all_goals exact congrArg (s.advise p) (beq_iff_eq.2 hk)

/-- The state after an ADVISE that has taken effect and completed. -/
def State.adviseDone (s : State) (p : Pkt) (u : Queue) (ptr : Nat) : State :=
  let a := s.addUnit p.q.val u ptr (pktOrder p) true (.maint 0x23 p.body)
  (({ a.2 with ctxs := Sparse.update a.2.ctxs u.ctx (fun x => { x with advice := x.advised p }) }).completeUnit p.q.val a.1 0 0).endStream p.q.val

section Advise
variable {s s' : State} {p : Pkt} {u : Queue} {ptr : Nat} {x : Ctx} (hroom : RoomForUnit s p.q.val) (hx : s'.ctx u.ctx = some x)
  (h : PktRuns s p 0x23 u ptr s')
include hroom hx h

theorem advise_of_refused {code : Nat} (hcode : adviseCode p x = code) (hbad : code ≠ 0) :
    s.advise p true = .next (s'.refuseUnit p.q.val u ptr code (pktOrder p) (.maint 0x23 p.body)) := by
  rw [State.advise]
  exact withUnit_of_refused hroom h rfl (by simp only [hx]; exact congrArg (·, s') hcode) hbad

theorem advise_of_accepted (hcode : adviseCode p x = 0) : s.advise p true = .next (s'.adviseDone p u ptr) := by
  rw [State.advise]
  exact withUnit_of_accepted hroom h rfl (by simp only [hx]; exact congrArg (·, s') hcode)

end Advise

/-! ## PREFETCH_RANGE (R427, R431) -/

/-- A range that lies in a context's window. -/
def InWindow (p : Pkt) (x : Xlat) : Prop :=
  x.hostEn = true ∧ x.devBase ≤ pd p 0 ∧ pd p 0 + pw p 2 * 4096 ≤ x.devBase + x.winGiB * 2 ^ 30

/-- A PREFETCH_RANGE with a reserved field. -/
abbrev PrefetchReserved (p : Pkt) : Prop :=
  bits (pw p 3) 4 3 = 3 ∨ bits (pw p 3) 15 5 ≠ 0 ∨ bits (pw p 3) 31 28 ≠ 0 ∨ pw p 4 ≠ 0 ∨ pw p 5 ≠ 0

/-- A PREFETCH_RANGE whose range is misaligned or empty, or is to be moved and lies outside the window. -/
def PrefetchWrong (p : Pkt) (x : Xlat) : Prop := pd p 0 % 4096 ≠ 0 ∨ pw p 2 = 0 ∨ (bit (pw p 3) 2 = true ∧ ¬InWindow p x)

/-- The code that the check of a PREFETCH_RANGE gives. -/
def prefetchCode (p : Pkt) (x : Xlat) : Nat :=
  let inWin := x.hostEn && x.devBase ≤ pd p 0 && pd p 0 + pw p 2 * 4096 ≤ x.devBase + x.winGiB * 2 ^ 30
  if pd p 0 % 4096 ≠ 0 ∨ pw p 2 = 0 ∨ (bit (pw p 3) 2 ∧ !inWin) then 0x59 else if PrefetchReserved p then 0x5A else 0

theorem prefetchCode_cases (p : Pkt) (x : Xlat) :
    (PrefetchWrong p x → prefetchCode p x = 0x59)
      ∧ (¬PrefetchWrong p x → PrefetchReserved p → prefetchCode p x = 0x5A)
      ∧ (¬PrefetchWrong p x → ¬PrefetchReserved p → prefetchCode p x = 0) := by
  unfold prefetchCode
  extract_lets inWin
  have hwrong : (pd p 0 % 4096 ≠ 0 ∨ pw p 2 = 0 ∨ (bit (pw p 3) 2 = true ∧ (!inWin) = true)) ↔ PrefetchWrong p x := by
    rw [PrefetchWrong, InWindow, show (!inWin) = true ↔ ¬inWin = true by simp]
    simp only [inWin, Bool.and_eq_true, decide_eq_true_eq, and_assoc]
  exact ⟨fun h => if_pos (hwrong.2 h), fun h hres => (if_neg (mt hwrong.1 h)).trans (if_pos hres),
    fun h hres => (if_neg (mt hwrong.1 h)).trans (if_neg hres)⟩

/-- What the three steps of a prefetch leave: cluster TLBs loaded, whole blocks moved, lines read. -/
def State.prefetched (s : State) (c : Nat) (p : Pkt) : State :=
  let vas := (List.range (pw p 2)).map (fun i => pd p 0 + 4096 * i)
  let blocks := vas.filter (fun va => va % 65536 = 0 && va + 65536 ≤ pd p 0 + pw p 2 * 4096)
  let s1 := if bit (pw p 3) 0 then vas.foldl (fun t va => t.prefetchPage c va (bits (pw p 3) 27 16)) s else s
  let s2 := if bit (pw p 3) 2 then blocks.foldl (fun t va => t.moveBlock c va (bits (pw p 3) 4 3)) s1 else s1
  if bit (pw p 3) 1 then vas.foldl (fun t va => t.warmPage c va (!bit (pw p 3) 0)) s2 else s2

/-- The state after a PREFETCH_RANGE that has taken its steps and completed. -/
def State.prefetchDone (s : State) (p : Pkt) (u : Queue) (ptr : Nat) : State :=
  let a := s.addUnit p.q.val u ptr (pktOrder p) true (.maint 0x22 p.body)
  ((a.2.prefetched u.ctx p).completeUnit p.q.val a.1 0 0).endStream p.q.val

section Prefetch
variable {s s' : State} {p : Pkt} {u : Queue} {ptr : Nat} {x : Ctx} (hroom : RoomForUnit s p.q.val) (hx : s'.ctx u.ctx = some x)
  (h : PktRuns s p 0x22 u ptr s')
include hroom hx h

theorem prefetch_of_refused {code : Nat} (hcode : prefetchCode p x.xlat = code) (hbad : code ≠ 0) :
    exec (.prefetchRange p) s = .next (s'.refuseUnit p.q.val u ptr code (pktOrder p) (.maint 0x22 p.body)) := by
  change execPrefetchRange p s = _
  rw [execPrefetchRange]
  exact withUnit_of_refused hroom h rfl (by simp only [hx]; exact congrArg (·, s') hcode) hbad

theorem prefetch_of_accepted (hcode : prefetchCode p x.xlat = 0) : exec (.prefetchRange p) s = .next (s'.prefetchDone p u ptr) := by
  change execPrefetchRange p s = _
  rw [execPrefetchRange]
  exact withUnit_of_accepted hroom h rfl (by simp only [hx]; exact congrArg (·, s') hcode)

end Prefetch

/-- Settles O50: each packet by the code of its check, and the attributes of a page by the newest advice that covers it. -/
theorem adviceAndPrefetch : Obligations.AdviceAndPrefetch := by
  refine ⟨fun s s' p u ptr x hroom h hx => ?_, fun x loc cl addr pages va => attrs_after_advise x loc cl, fun s s' p u ptr x hroom h hx => ?_⟩
  · intro w3 addr pages kind after reserved a t i hi
    rw [exec_advise s hi]
    refine ⟨fun hrange => ?_, fun haddr hpages hres => ?_, fun haddr hpages hres hlen => ?_, fun haddr hpages hres hlen => ?_⟩
    · exact advise_of_refused hroom hx h (if_pos hrange) (by decide)
    all_goals have hrange : ¬(pd p 0 % 4096 ≠ 0 ∨ pw p 2 = 0) := not_or.2 ⟨not_not.2 haddr, hpages⟩
    · exact advise_of_refused hroom hx h ((if_neg hrange).trans (if_pos hres)) (by decide)
    · exact advise_of_refused hroom hx h ((if_neg hrange).trans ((if_neg hres).trans (if_pos hlen))) (by decide)
    · exact advise_of_accepted hroom hx h ((if_neg hrange).trans ((if_neg hres).trans (if_neg (Nat.not_lt.2 hlen))))
  · obtain ⟨hwrong, hreserved, hsound⟩ := prefetchCode_cases p x.xlat
    exact ⟨fun hbad => prefetch_of_refused hroom hx h (hwrong hbad) (by decide),
      fun hok hres => prefetch_of_refused hroom hx h (hreserved hok hres) (by decide),
      fun hok hres => prefetch_of_accepted hroom hx h (hsound hok hres)⟩

end Sys2Proof.Machine
end

section
/-! PROOFS. What every command keeps (O2, O3): the pair of the queue and one-time storage, and the rules by which the lemmas of
the chapters below follow a state through branches, loops, pairs and outcomes. -/

namespace Sys2Proof.Machine

/-- What every command keeps of a state but for the ones that it programs: the queue and one-time storage. -/
def State.kept (s : State) : List Instr × List (Nat × Word) := (s.pending, s.dbg.otp)

theorem kept_mk (pending draws time timeFrac regs active shadows out uncOn dispOn cluOn err dbg hif dram l2 mmu ctxs queues slots
    seqs cores clusters sched disp flow ldm dp gfx pwr boot) :
    (State.mk pending draws time timeFrac regs active shadows out uncOn dispOn cluOn err dbg hif dram l2 mmu ctxs queues slots seqs
      cores clusters sched disp flow ldm dp gfx pwr boot).kept = (pending, dbg.otp) := (rfl)

theorem kept_pair (s : State) : (s.pending, s.dbg.otp) = s.kept := (rfl)

/-- A state with other fields than the queue and the debug block's replaced. -/
theorem kept_upd {s : State} {draws time timeFrac regs active shadows out uncOn dispOn cluOn err hif dram l2 mmu ctxs queues slots
    seqs cores clusters sched disp flow ldm dp gfx pwr boot} :
    (State.mk s.pending draws time timeFrac regs active shadows out uncOn dispOn cluOn err s.dbg hif dram l2 mmu ctxs queues slots
      seqs cores clusters sched disp flow ldm dp gfx pwr boot).kept = s.kept := (rfl)

theorem kept_ite {c : Prop} [Decidable c] (t u : State) : (if c then t else u).kept = if c then t.kept else u.kept :=
  apply_ite ..

theorem ite_snd {α β : Type} {c : Prop} [Decidable c] (t u : α × β) : (if c then t else u).2 = if c then t.2 else u.2 :=
  apply_ite ..

theorem kept_foldl {α : Type} {f : State → α → State} (h : ∀ s a, (f s a).kept = s.kept) (l : List α) (s : State) :
    (l.foldl f s).kept = s.kept := by
  induction l generalizing s with
  | nil => rfl
  | cons a l ih => exact (ih _).trans (h s a)

theorem kept_foldl2 {α β : Type} {f : β × State → α → β × State} (h : ∀ b s a, (f (b, s) a).2.kept = s.kept) (l : List α)
    (x : β × State) : (l.foldl f x).2.kept = x.2.kept := by
  induction l generalizing x with
  | nil => rfl
  | cons a l ih => exact (ih _).trans (h x.1 x.2 a)

theorem kept_foldl3 {α β γ : Type} {f : β × γ × State → α → β × γ × State} (h : ∀ b c s a, (f (b, c, s) a).2.2.kept = s.kept)
    (l : List α) (x : β × γ × State) : (l.foldl f x).2.2.kept = x.2.2.kept := by
  induction l generalizing x with
  | nil => rfl
  | cons a l ih => exact (ih _).trans (h x.1 x.2.1 x.2.2 a)

theorem kept_foldl4 {α β γ δ : Type} {f : β × γ × δ × State → α → β × γ × δ × State}
    (h : ∀ b c d s a, (f (b, c, d, s) a).2.2.2.kept = s.kept) (l : List α) (x : β × γ × δ × State) :
    (l.foldl f x).2.2.2.kept = x.2.2.2.kept := by
  induction l generalizing x with
  | nil => rfl
  | cons a l ih => exact (ih _).trans (h x.1 x.2.1 x.2.2.1 x.2.2.2 a)

theorem snd_of_eq {α β : Type} {e : α × β} {a : α} {b : β} (h : e = (a, b)) : e.2 = b := congrArg Prod.snd h

theorem snd2_of_eq {α β γ : Type} {e : α × β × γ} {a : α} {b : β} {c : γ} (h : e = (a, b, c)) : e.2.2 = c :=
  congrArg (·.2.2) h

/-- The state of a pair that a match took apart. Where a match were reduced in place, the kernel would evaluate what gives the pair,
for example a read of memory. This lemma names the state without that; for the same reason some proofs below first put a variable
in the place of such a function (`∃ f, f = State.vread`). -/
theorem kept_snd {α : Type} {e : α × State} {a : α} {t : State} {k} (h : e = (a, t)) (hk : e.2.kept = k) : t.kept = k := by
  subst h
  exact hk

theorem kept_snd2 {α β : Type} {e : α × β × State} {a : α} {b : β} {t : State} {k} (h : e = (a, b, t)) (hk : e.2.2.kept = k) :
    t.kept = k := by
  subst h
  exact hk

theorem kept_snd3 {α β γ : Type} {e : α × β × γ × State} {a : α} {b : β} {c : γ} {t : State} {k} (h : e = (a, b, c, t))
    (hk : e.2.2.2.kept = k) : t.kept = k := by
  subst h
  exact hk

theorem after_next (s t : State) : Ans.after (.next t) s = t := (rfl)

theorem after_ite {c : Prop} [Decidable c] (a b : Ans) (s : State) :
    Ans.after (if c then a else b) s = if c then a.after s else b.after s := apply_ite (Ans.after · s) ..

theorem kept_after {o : Ans} {s d : State} (h : (o.after s).kept = s.kept) (hd : d.kept = s.kept) : (o.after d).kept = s.kept := by
  cases o with
  | next t => exact h
  | refused r => exact hd
  | fault f => exact hd

end Sys2Proof.Machine
end

section
/-! PROOFS. The queue and one-time storage under the functions of Ops.lean: registers, free values, outputs and reports. -/

namespace Sys2Proof.Machine

theorem kept_setReg (s : State) (a : Nat) (v : Word) : (s.setReg a v).kept = s.kept := by
  simp only [State.setReg, ↓kept_mk, ↓kept_pair]

theorem kept_setFld (s : State) (a hi lo v : Nat) : (s.setFld a hi lo v).kept = s.kept := by
  simp only [State.setFld, ↓kept_setReg]

theorem kept_setFlag (s : State) (a i : Nat) : (s.setFlag a i).kept = s.kept := by
  simp only [State.setFlag, ↓kept_setFld]

theorem kept_clearFlag (s : State) (a i : Nat) : (s.clearFlag a i).kept = s.kept := by
  simp only [State.clearFlag, ↓kept_setFld]

theorem kept_setAct (s : State) (a : Nat) (v : Word) : (s.setAct a v).kept = s.kept := by
  simp only [State.setAct, ↓kept_mk, ↓kept_pair]

theorem kept_setReg64 (s : State) (lo v : Nat) : (s.setReg64 lo v).kept = s.kept := by
  simp only [State.setReg64, ↓kept_setReg]

theorem kept_count64 (s : State) (lo n : Nat) : (s.count64 lo n).kept = s.kept := by
  simp only [State.count64, ↓kept_setReg64]

theorem kept_countSat (s : State) (a hi lo n : Nat) : (s.countSat a hi lo n).kept = s.kept := by
  simp only [State.countSat, ↓kept_setFld]

theorem kept_countWrap (s : State) (a hi lo n : Nat) : (s.countWrap a hi lo n).kept = s.kept := by
  simp only [State.countWrap, ↓kept_setFld]

theorem kept_maxFld (s : State) (a hi lo n : Nat) : (s.maxFld a hi lo n).kept = s.kept := by
  simp only [State.maxFld, ↓kept_setFld]

theorem kept_drawNat (s : State) : s.drawNat.2.kept = s.kept := by
  simp only [State.drawNat, ↓kept_mk, ↓kept_pair]

theorem kept_countCycles (s : State) (a : Nat) : (s.countCycles a).kept = s.kept := by
  simp only [State.countCycles, ↓kept_drawNat, ↓kept_count64]

theorem kept_drawBool (s : State) : s.drawBool.2.kept = s.kept := by
  simp only [State.drawBool, ↓kept_mk, ↓kept_pair]

theorem kept_emit (s : State) (o : Output) : (s.emit o).kept = s.kept := by
  simp only [State.emit, ↓kept_mk, ↓kept_pair]

theorem kept_post (s : State) (o : Output) : (s.post o).kept = s.kept := by
  simp only [State.post, ↓kept_mk, ↓kept_pair, ↓kept_ite, ↓kept_emit, ite_self]

theorem kept_msixSend (s : State) (vec : Nat) : (s.msixSend vec).kept = s.kept := by
  simp only [State.msixSend, ↓kept_mk, ↓kept_pair, ↓kept_post]

theorem kept_msixGo (s : State) (vec : Nat) : (s.msixGo vec).kept = s.kept := by
  simp only [State.msixGo, ↓kept_mk, ↓kept_pair, ↓kept_ite, ↓kept_msixSend, ite_self]

theorem kept_raiseVec (s : State) (vec : Nat) : (s.raiseVec vec).kept = s.kept := by
  simp only [State.raiseVec, ↓kept_ite, ↓kept_setFlag, ↓kept_msixGo, ite_self]

theorem kept_raiseHif (s : State) (src : Nat) : (s.raiseHif src).kept = s.kept := by
  simp only [State.raiseHif, ↓kept_ite, ↓kept_raiseVec, ite_self]

theorem kept_setRegs (s : State) (a : Nat) (ws : List Word) : (s.setRegs a ws).kept = s.kept := by
  induction ws generalizing s a with
  | nil => rfl
  | cons w t ih =>
    unfold State.setRegs
    exact (ih ..).trans (kept_setReg ..)

theorem kept_capture (s : State) (set : Nat) (ws : List Word) : (s.capture set ws).kept = s.kept := by
  simp only [State.capture, ↓kept_ite, ↓kept_countSat, ↓kept_setRegs, ↓kept_setFlag, ite_self]

theorem kept_ringWrite (s : State) (ws : List Word) : (s.ringWrite ws).kept = s.kept := by
  simp only [State.ringWrite, ↓kept_setReg, ↓kept_setRegs]

theorem kept_dropRecord (s : State) (sev seq : Nat) : (s.dropRecord sev seq).kept = s.kept := by
  simp only [State.dropRecord, ↓kept_mk, ↓kept_pair, ↓kept_countSat]

theorem kept_fatalAction (s : State) (r : ErrRecord) : (s.fatalAction r).kept = s.kept := by
  simp only [State.fatalAction, ↓kept_ite, ↓kept_setFlag]
  split
  · rfl
  · split
    · rfl
    · split
      · rfl
      · simp only [↓kept_mk, ↓kept_pair]

theorem kept_collect (s : State) (r : ErrRecord) (time : Nat) : (s.collect r time).kept = s.kept := by
  simp only [State.collect, ↓kept_ite, ↓kept_setReg, ↓kept_capture, ↓kept_ringWrite, ↓kept_dropRecord, ↓kept_raiseHif,
    ↓kept_fatalAction, ite_self]

theorem kept_record (s : State) (r : ErrRecord) : (s.record r).kept = s.kept := by
  simp only [State.record, ↓kept_mk, ↓kept_pair, ↓kept_ite, ↓kept_collect, ite_self]

theorem kept_rec0 (s : State) (code unit sev lo hi : Nat) : (s.rec0 code unit sev lo hi).kept = s.kept := by
  simp only [State.rec0, ↓kept_record]

theorem kept_recC (s : State) (code unit sev ctx lo hi : Nat) : (s.recC code unit sev ctx lo hi).kept = s.kept := by
  simp only [State.recC, ↓kept_record]

theorem kept_reportDrops (s : State) : s.reportDrops.kept = s.kept := by
  simp only [State.reportDrops, ↓kept_mk, ↓kept_pair, ↓kept_ite, ↓kept_setReg, ↓kept_capture, ↓kept_raiseHif, ↓kept_ringWrite,
    ite_self]

theorem kept_collectHeld (s : State) : s.collectHeld.kept = s.kept := by
  simp only [State.collectHeld, ↓kept_mk, ↓kept_pair, ↓kept_collect, ↓kept_raiseHif, ↓kept_dropRecord, ↓kept_setReg,
    ↓kept_reportDrops, kept_foldl, implies_true]

end Sys2Proof.Machine
end

section
/-! PROOFS. The queue and one-time storage under the functions of Memory.lean: accesses of device memory. -/

namespace Sys2Proof.Machine

theorem kept_setMark (s : State) (n : Nat) (m : CwMark) : (s.setMark n m).kept = s.kept := by
  simp only [State.setMark, ↓kept_mk, ↓kept_pair]

theorem kept_noteInflight (s : State) (ch : Nat) : (s.noteInflight ch).kept = s.kept := by
  simp only [State.noteInflight, ↓kept_drawNat, ↓kept_maxFld, ↓kept_setFld]

theorem kept_countBytes (s : State) (a n : Nat) : (s.countBytes a n).kept = s.kept := by
  simp only [State.countBytes, ↓kept_mk, ↓kept_pair, ↓kept_ite, ↓ite_snd, ↓kept_drawNat, ↓kept_noteInflight, ↓kept_count64,
    ite_self]

theorem kept_correctCw (s : State) (n : Nat) : (s.correctCw n).kept = s.kept := by
  simp only [State.correctCw, ↓kept_mk, ↓kept_pair, ↓kept_ite, ↓kept_countSat, ↓kept_rec0, ite_self]

theorem kept_readCw (s : State) (n : Nat) : (s.readCw n).2.kept = s.kept := by
  simp only [State.readCw, ↓kept_ite, ↓ite_snd, ↓kept_countSat, ↓kept_rec0, ↓kept_correctCw, ite_self]

theorem kept_readLine (s : State) (line : Nat) : (s.readLine line).2.kept = s.kept := by
  simp only [State.readLine, ↓kept_ite, ↓ite_snd, ↓kept_countBytes, ↓kept_readCw, kept_foldl2, ite_self, implies_true]

theorem kept_putCells (s : State) (cs : List Host.Cell) : (s.putCells cs).kept = s.kept := by
  simp only [State.putCells, ↓kept_mk, ↓kept_pair]

theorem kept_writeCw (s : State) (n : Nat) (cs : List Host.Cell) : (s.writeCw n cs).kept = s.kept := by
  simp only [State.writeCw, ↓kept_ite, ↓kept_setMark, ↓kept_putCells, ↓kept_rec0, ↓kept_countSat, ↓kept_correctCw, ite_self]

theorem kept_dramWrite (s : State) (a : Nat) (bs : List (Option Byte)) : (s.dramWrite a bs).kept = s.kept := by
  simp only [State.dramWrite, ↓kept_ite, ↓kept_countBytes, ↓kept_writeCw, ↓kept_putCells, kept_foldl, ite_self, implies_true]

theorem kept_lineError (s : State) (line : Nat) (e : LineError) : (s.lineError line e).kept = s.kept := by
  simp only [State.lineError]
  split
  · rfl
  · simp only [↓kept_countSat, ↓kept_rec0]
  · simp only [↓kept_mk, ↓kept_pair, ↓kept_ite, ↓kept_countSat, ↓kept_rec0, ite_self]
  · simp only [↓kept_countSat, ↓kept_rec0]
  · simp only [↓kept_countSat, ↓kept_rec0]

theorem kept_lineCheck (s : State) (line : Nat) : (s.lineCheck line).kept = s.kept := by
  simp only [State.lineCheck]
  split
  · rfl
  · simp only [↓kept_mk, ↓kept_pair, ↓kept_lineError]

theorem kept_maskLeft (s : State) (n : Nat) : (s.maskLeft n).kept = s.kept := by
  simp only [State.maskLeft, ↓kept_mk, ↓kept_pair, ↓kept_ite, ↓kept_clearFlag, ite_self]

theorem kept_countHit (s : State) (line : Nat) (hit : Bool) : (s.countHit line hit).kept = s.kept := by
  simp only [State.countHit, ↓kept_count64]

theorem kept_l2Held (s : State) (line : Nat) : (s.l2Held line).2.kept = s.kept := by
  simp only [State.l2Held]
  split
  · simp only [↓kept_mk, ↓kept_pair, ↓kept_ite, ↓ite_snd, ↓kept_lineCheck, ↓kept_drawBool, ↓kept_countHit, ite_self]
  · simp only [↓kept_lineCheck, ↓kept_countHit]

theorem kept_l2Look (s : State) (cls line : Nat) (noAlloc : Bool) : (s.l2Look cls line noAlloc).2.kept = s.kept := by
  simp only [State.l2Look]
  split
  · rename_i h
    obtain rfl := snd_of_eq h
    simp only [↓kept_l2Held]
  · rename_i h
    obtain rfl := snd_of_eq h
    simp only [↓kept_mk, ↓kept_pair, ↓kept_ite, ↓ite_snd, ↓kept_l2Held, ↓kept_readLine, ite_self]

theorem kept_devRead (s : State) (cls a n : Nat) (noAlloc : Bool) : (s.devRead cls a n noAlloc).2.2.kept = s.kept := by
  simp only [State.devRead, ↓kept_mk, ↓kept_pair, ↓kept_l2Look, kept_foldl2, implies_true]

theorem kept_fillLine (s : State) (line : Nat) (part : List Host.Cell) : (s.fillLine line part).2.kept = s.kept := by
  simp only [State.fillLine, ↓kept_ite, ↓ite_snd, ↓kept_countBytes, ↓kept_readCw, kept_foldl2, ite_self, implies_true]

theorem kept_lineMerge (s : State) (line : Nat) (part : List Host.Cell) (poison : Bool) :
    (s.lineMerge line part poison).kept = s.kept := by
  simp only [State.lineMerge, ↓kept_mk, ↓kept_pair]

theorem kept_lineWrite (s : State) (cls line : Nat) (part : List Host.Cell) (noAlloc : Bool) :
    (s.lineWrite cls line part noAlloc).kept = s.kept := by
  simp only [State.lineWrite]
  split
  · rename_i h
    obtain rfl := snd_of_eq h
    simp only [↓kept_l2Held, ↓kept_lineMerge]
  · rename_i h
    obtain rfl := snd_of_eq h
    simp only [↓kept_ite, ↓kept_l2Held, ↓kept_lineMerge, ↓kept_dramWrite, ↓kept_fillLine, ite_self]

theorem kept_dutyNote (s : State) (a : Nat) (bs : List (Option Byte)) : (s.dutyNote a bs).kept = s.kept := by
  simp only [State.dutyNote, ↓kept_mk, ↓kept_pair, ↓kept_ite, ite_self]

theorem kept_devWrite (s : State) (cls a : Nat) (bs : List (Option Byte)) (noAlloc : Bool) :
    (s.devWrite cls a bs noAlloc).kept = s.kept := by
  simp only [State.devWrite, ↓kept_ite, ↓kept_dutyNote, ↓kept_lineWrite, kept_foldl, ite_self, implies_true]

theorem kept_writeBack (s : State) (line : Nat) : (s.writeBack line).kept = s.kept := by
  simp only [State.writeBack, ↓kept_mk, ↓kept_pair, ↓kept_ite, ↓kept_lineCheck, ↓kept_dramWrite, ↓kept_setMark, ↓kept_rec0,
    ↓kept_countSat, kept_foldl, ite_self, implies_true]

theorem kept_flushLines (s : State) (f : Nat → Bool) : (s.flushLines f).kept = s.kept := by
  simp only [State.flushLines, ↓kept_writeBack, kept_foldl, implies_true]

theorem kept_dropLines (s : State) (f : Nat → Bool) : (s.dropLines f).kept = s.kept := by
  simp only [State.dropLines, ↓kept_mk, ↓kept_pair]

theorem kept_zeroLine (s : State) (line : Nat) : (s.zeroLine line).kept = s.kept := by
  simp only [State.zeroLine, ↓kept_mk, ↓kept_pair, ↓kept_ite, ↓kept_countHit, ↓kept_dramWrite, ↓kept_lineMerge, ite_self]

theorem kept_l2Do (s : State) (op addr lines : Nat) : (s.l2Do op addr lines).kept = s.kept := by
  simp only [State.l2Do]
  split
  · simp only [↓kept_flushLines]
  · simp only [↓kept_flushLines, ↓kept_dropLines]
  · simp only [↓kept_flushLines]
  · simp only [↓kept_flushLines, ↓kept_dropLines]
  · simp only [↓kept_dropLines]
  · simp only [↓kept_zeroLine, kept_foldl, implies_true]
  · rfl

theorem kept_poisonUsed (s : State) (c a : Nat) : (s.poisonUsed c a).kept = s.kept := by
  simp only [State.poisonUsed, ↓kept_recC, ↓kept_countSat]

theorem kept_hostBytes (s : State) (a n : Nat) (noSnoop : Bool) : (s.hostBytes a n noSnoop).2.kept = s.kept := by
  simp only [State.hostBytes, ↓kept_mk, ↓kept_pair, ↓kept_post]

theorem kept_protRefused (s : State) (c a : Nat) : (s.protRefused c a).kept = s.kept := by
  simp only [State.protRefused, ↓kept_recC]

end Sys2Proof.Machine
end

section
/-! PROOFS. The queue and one-time storage under the functions of Translate.lean: address translation. -/

namespace Sys2Proof.Machine

theorem kept_tlbRoom (s : State) (t : TlbId) : (s.tlbRoom t).kept = s.kept := by
  simp only [State.tlbRoom, ↓kept_mk, ↓kept_pair, ↓kept_ite, ↓kept_drawNat, ite_self]

theorem kept_install (s : State) (t : TlbId) (asid : Nat) (host : Bool) (ia phys out size : Nat) (cls : OutClass) (wr ex dv :
    Bool) (level : Nat) :
    (s.install t asid host ia phys out size cls wr ex dv level).kept = s.kept := by
  simp only [State.install, ↓kept_mk, ↓kept_pair, ↓kept_tlbRoom, kept_foldl, implies_true]

theorem kept_tlbDrop (s : State) (f : TlbEntry → Bool) (g : WalkCacheEntry → Bool) : (s.tlbDrop f g).kept = s.kept := by
  simp only [State.tlbDrop, ↓kept_mk, ↓kept_pair]

theorem kept_tlbDropAsid (s : State) (asid : Nat) : (s.tlbDropAsid asid).kept = s.kept := by
  simp only [State.tlbDropAsid, ↓kept_tlbDrop]

theorem kept_wcachePut (s : State) (e : Option WalkCacheEntry) : (s.wcachePut e).kept = s.kept := by
  simp only [State.wcachePut, ↓ite_snd]
  split
  · simp only [↓kept_mk, ↓kept_pair, ↓kept_ite, ↓kept_drawNat, ite_self]
  · rfl

theorem kept_descRead (s : State) (cls : OutClass) (out : Nat) : (s.descRead cls out).2.kept = s.kept := by
  simp only [State.descRead]
  split
  · simp only [↓kept_devRead]
  · simp only [↓kept_hostBytes]

theorem kept_walkRun (s : State) (c : Nat) (x : Xlat) (host : Bool) (ia n : Nat) (w : WalkStep) : (s.walkRun c x host ia n
  w).2.kept = s.kept := by
  induction n generalizing s w with
  | zero => rfl
  | succ n ih =>
    simp only [State.walkRun]
    split
    · split
      · simp only [↓kept_descRead]
      · simp only [↓kept_wcachePut, ↓kept_descRead, ih]
    · rfl

theorem kept_walkEnd (s : State) (t : TlbId) (x : Xlat) (host : Bool) (ia out size : Nat) (wr ex dv : Bool) (level : Nat) (access
    : AccessKind) (covered : Bool) :
    (s.walkEnd t x host ia out size wr ex dv level access covered).2.kept = s.kept := by
  simp only [State.walkEnd, ↓kept_ite, ↓kept_install, ite_self]

theorem kept_walkNow (s : State) (t : TlbId) (c : Nat) (x : Xlat) (host : Bool) (ia : Nat) (access : AccessKind) :
    (s.walkNow t c x host ia access).2.kept = s.kept := by
  simp only [State.walkNow]
  split
  · rename_i h
    obtain rfl := snd_of_eq h
    simp only [↓kept_count64, ↓kept_walkRun, ↓kept_walkEnd]
  · rename_i h
    obtain rfl := snd_of_eq h
    simp only [↓kept_count64, ↓kept_walkRun]
  · rename_i h
    obtain rfl := snd_of_eq h
    simp only [↓kept_count64, ↓kept_walkRun]

theorem kept_xlate (s : State) (t : TlbId) (c : Nat) (va : Nat) (access : AccessKind) :
    (s.xlate t c va access).2.kept = s.kept := by
  simp only [State.xlate]
  split
  · rfl
  · split
    · simp only [↓kept_mk, ↓kept_pair, ↓kept_ite, ↓ite_snd, ↓kept_walkNow, ite_self]
    · split
      · rfl
      · simp only [↓kept_walkNow]

theorem kept_mmuCapture (s : State) (c unit va : Nat) (access : AccessKind) (f : XFault) :
    (s.mmuCapture c unit va access f).kept = s.kept := by
  simp only [State.mmuCapture, ↓kept_ite, ↓kept_countSat, ↓kept_setReg, ↓kept_setReg64, ↓kept_raiseVec, ite_self]

theorem kept_mmuFault (s : State) (c unit va : Nat) (access : AccessKind) (sev : Nat) (f : XFault) :
    (s.mmuFault c unit va access sev f).kept = s.kept := by
  simp only [State.mmuFault, ↓kept_ite, ↓kept_protRefused, ↓kept_recC, ↓kept_mmuCapture, ite_self]

end Sys2Proof.Machine
end

section
/-! PROOFS. The queue and one-time storage under the functions of Access.lean: accesses of device virtual addresses. -/

namespace Sys2Proof.Machine

theorem kept_readOut (s : State) (c cls : Nat) (noAlloc protOk : Bool) (va : Nat) (o : XOut) (n : Nat) :
    (s.readOut c cls noAlloc protOk va o n).2.kept = s.kept := by
  simp only [State.readOut]
  split
  · simp only [↓kept_ite, ↓ite_snd, ↓kept_devRead, ite_self]
  · simp only [↓kept_hostBytes]

theorem kept_vread (s : State) (t : TlbId) (c va n cls : Nat) (noAlloc protOk : Bool) :
    (s.vread t c va n cls noAlloc protOk).2.kept = s.kept := by
  simp only [State.vread]
  refine kept_foldl2 (fun r s x => ?_) _ _
  dsimp only
  split
  · rfl
  · split
    · rename_i h
      obtain rfl := snd_of_eq h
      simp only [↓kept_xlate]
    · rename_i h
      obtain rfl := snd_of_eq h
      split
      · rename_i h
        obtain rfl := snd_of_eq h
        simp only [↓kept_xlate, ↓kept_readOut]
      · rename_i h
        obtain rfl := snd_of_eq h
        simp only [↓kept_xlate, ↓kept_readOut]

theorem kept_rawRead (s : State) (t : TlbId) (cls c va n : Nat) : (s.rawRead t cls c va n).2.2.2.kept = s.kept := by
  simp only [State.rawRead]
  refine kept_foldl4 (fun r q p s x => ?_) _ _
  dsimp only
  split
  · rfl
  · split
    · rename_i h
      obtain rfl := snd_of_eq h
      simp only [↓kept_xlate]
    · rename_i h
      obtain rfl := snd_of_eq h
      split
      · simp only [↓kept_ite, ↓ite_snd, ↓kept_xlate, ↓kept_devRead, ite_self]
      · simp only [↓kept_xlate]

theorem kept_writeOut (s : State) (c cls : Nat) (noAlloc protOk : Bool) (va : Nat) (o : XOut) (bs : List (Option Byte)) :
    (s.writeOut c cls noAlloc protOk va o bs).2.kept = s.kept := by
  simp only [State.writeOut]
  split
  · simp only [↓kept_ite, ↓ite_snd, ↓kept_devWrite, ite_self]
  · simp only [↓kept_post]

theorem kept_vwrite (s : State) (t : TlbId) (c va cls : Nat) (bs : List (Option Byte)) (noAlloc protOk : Bool) :
    (s.vwrite t c va cls bs noAlloc protOk).2.kept = s.kept := by
  simp only [State.vwrite]
  refine kept_foldl2 (fun r s x => ?_) _ _
  dsimp only
  split
  · rfl
  · split
    · rename_i h
      obtain rfl := snd_of_eq h
      simp only [↓kept_xlate]
    · rename_i h
      obtain rfl := snd_of_eq h
      simp only [↓kept_xlate, ↓kept_writeOut]

theorem kept_unitWrote (s : State) (q seq : Nat) (addr : Option Nat) : (s.unitWrote q seq addr).kept = s.kept := by
  simp only [State.unitWrote, ↓kept_mk, ↓kept_pair]

theorem kept_vwriteBy (s : State) (q seq : Nat) (t : TlbId) (c va cls : Nat) (bs : List (Option Byte)) :
    (s.vwriteBy q seq t c va cls bs).2.kept = s.kept := by
  simp only [State.vwriteBy]
  refine kept_foldl2 (fun r s x => ?_) _ _
  dsimp only
  split
  · rfl
  · split
    · rename_i h
      obtain rfl := snd_of_eq h
      simp only [↓kept_xlate]
    · rename_i h
      obtain rfl := snd_of_eq h
      simp only [↓kept_ite, ↓kept_xlate, ↓kept_writeOut, ↓kept_unitWrote, ite_self]

theorem kept_captureFail (s : State) (c unit : Nat) (access : AccessKind) (f : VFail) :
    (s.captureFail c unit access f).kept = s.kept := by
  simp only [State.captureFail]
  split
  · simp only [↓kept_mmuCapture]
  · simp only [↓kept_protRefused]

theorem kept_recordFail (s : State) (c unit sev : Nat) (access : AccessKind) (f : VFail) :
    (s.recordFail c unit sev access f).kept = s.kept := by
  simp only [State.recordFail]
  split
  · simp only [↓kept_mmuFault]
  · simp only [↓kept_protRefused]

end Sys2Proof.Machine
end

section
/-! PROOFS. The queue and one-time storage under the functions of Compose.lean: the composition of the display's lines. -/

namespace Sys2Proof.Machine

theorem kept_fetchRow (s : State) (l : LayCfg) (base : Nat) (plane row : Nat) :
    (s.fetchRow l base plane row).2.kept = s.kept := by
  simp only [State.fetchRow, ↓kept_ite, ↓ite_snd, ↓kept_vread]
  split
  · split
    · dsimp only
      refine kept_foldl2 (fun r s x => ?_) _ _
      dsimp only
      split
      · rfl
      · split
        · rename_i h
          obtain rfl := snd_of_eq h
          simp only [↓kept_vread]
        · simp only [↓kept_vread]
    · dsimp only
      refine kept_foldl2 (fun r s x => ?_) _ _
      dsimp only
      split
      · rfl
      · split
        · rename_i h
          obtain rfl := snd_of_eq h
          simp only [↓kept_vread]
        · simp only [↓kept_vread]
  · rfl

theorem kept_fetchRows (s : State) (l : LayCfg) (base plane : Nat) (rows : List Nat) :
    (s.fetchRows l base plane rows).2.2.kept = s.kept := by
  simp only [State.fetchRows]
  refine kept_foldl3 (fun r q s x => ?_) _ _
  dsimp only
  split
  · rfl
  · split
    · rename_i h
      obtain rfl := snd_of_eq h
      simp only [↓kept_fetchRow]
    · rename_i h
      obtain rfl := snd_of_eq h
      dsimp only
      split
      · simp only [↓kept_fetchRow, ↓kept_recC, ↓kept_countSat]
      · simp only [↓kept_fetchRow]

end Sys2Proof.Machine
end

section
/-! PROOFS. The queue and one-time storage under the functions of Display.lean: the display's configuration. -/

namespace Sys2Proof.Machine

theorem kept_dspEvent (s : State) (statusBit ieBit : Nat) : (s.dspEvent statusBit ieBit).kept = s.kept := by
  simp only [State.dspEvent, ↓kept_ite, ↓kept_setFlag, ↓kept_raiseHif, ite_self]

theorem kept_dspApply (s : State) (m : DspCfg) : (s.dspApply m).kept = s.kept := by
  simp only [State.dspApply, ↓kept_mk, ↓kept_pair]

theorem kept_layerOff (s : State) (n : Nat) : (s.layerOff n).kept = s.kept := by
  simp only [State.layerOff, ↓kept_mk, ↓kept_pair, ↓kept_setReg, ↓kept_setAct]

theorem kept_tapOff (s : State) (t : Nat) : (s.tapOff t).kept = s.kept := by
  simp only [State.tapOff, ↓kept_mk, ↓kept_pair, ↓kept_setReg, ↓kept_setAct]

theorem kept_startTiming (s : State) : s.startTiming.kept = s.kept := by
  simp only [State.startTiming, ↓kept_mk, ↓kept_pair, ↓kept_setFld]

theorem kept_execDspCommit (s : State) : ((execDspCommit s).after s).kept = s.kept := by
  simp only [execDspCommit, ↓after_next, ↓after_ite, ↓kept_mk, ↓kept_pair, ↓kept_ite, ↓kept_setFlag, ↓kept_dspEvent, ↓kept_setFld,
    ↓kept_dspApply, ↓kept_startTiming, ite_self]

theorem kept_execDspCoefWrite (n : Fin 8) (bank : Fin 2) (w : Fin 512) (v : Word) (s : State) :
    ((execDspCoefWrite n bank w v s).after s).kept = s.kept := by
  simp only [execDspCoefWrite, ↓after_next, ↓after_ite, ↓kept_ite, ↓kept_setFlag, ↓kept_setReg, ite_self]

theorem kept_setTap (s : State) (t : Nat) (r : TapRun) : (s.setTap t r).kept = s.kept := by
  simp only [State.setTap, ↓kept_mk, ↓kept_pair, ↓kept_ite, ite_self]

theorem kept_tapStart (s : State) (t : Nat) : (s.tapStart t).kept = s.kept := by
  simp only [State.tapStart, ↓kept_ite, ↓kept_setTap, ↓kept_countSat]
  split
  · rfl
  · split
    · rfl
    · split
      · simp only [↓kept_setTap]
      · simp only [↓kept_setTap]

theorem kept_tapLine (s : State) (t y : Nat) (blended out : List Px) : (s.tapLine t y blended out).kept = s.kept := by
  simp only [State.tapLine]
  split
  · rfl
  · simp only [↓kept_ite, ↓kept_setTap]
    split
    · rfl
    · split
      · rfl
      · split
        · simp only [↓kept_setTap, ↓kept_vwrite, ↓kept_rec0, ↓kept_captureFail, ↓kept_dspEvent, ↓kept_setFlag, ↓kept_tapOff]
        · simp only [↓kept_setTap, ↓kept_vwrite]

theorem kept_tapDrop (s : State) (t : Nat) : (s.tapDrop t).kept = s.kept := by
  simp only [State.tapDrop, ↓kept_ite, ↓kept_rec0, ↓kept_countSat, ↓kept_setTap, ite_self]

theorem kept_execTapPublish (t : Fin 2) (s : State) : ((execTapPublish t s).after s).kept = s.kept := by
  simp only [execTapPublish]
  split
  · simp only [↓after_next, ↓after_ite, ↓kept_ite, ↓kept_setReg, ↓kept_setFlag, ↓kept_setFld, ↓kept_setTap, ite_self]
  · simp only [↓after_next]

theorem kept_dspTake (s : State) : s.dspTake.2.kept = s.kept := by
  simp only [State.dspTake]
  split
  · simp only [↓kept_mk, ↓kept_pair, ↓kept_clearFlag, ↓kept_dspApply]
  · rfl

theorem kept_dspFrameEnd (s : State) : s.dspFrameEnd.kept = s.kept := by
  simp only [State.dspFrameEnd, ↓kept_mk, ↓kept_pair, ↓kept_layerOff, ↓kept_tapOff, ↓kept_dspEvent, ↓kept_setFlag, kept_foldl,
    implies_true]

theorem kept_dspDeadline (s : State) : s.dspDeadline.2.kept = s.kept := by
  simp only [State.dspDeadline, ↓kept_countWrap, ↓kept_dspEvent, ↓kept_dspTake, ↓kept_dspFrameEnd]

theorem kept_displayCtxGone (s : State) (c : Nat) : (s.displayCtxGone c).kept = s.kept := by
  simp only [State.displayCtxGone, ↓kept_mk, ↓kept_pair]

theorem kept_layerFault (s : State) (l : LayCfg) (f : VFail) : (s.layerFault l f).kept = s.kept := by
  simp only [State.layerFault, ↓kept_mk, ↓kept_pair, ↓kept_rec0, ↓kept_captureFail, ↓kept_dspEvent, ↓kept_setFlag]

theorem kept_layLine (s : State) (l : LayCfg) (base0 y : Nat) (ev : LineEvents) (acc : List Px) :
    (s.layLine l base0 y ev acc).2.kept = s.kept := by
  simp only [State.layLine, ↓kept_ite, ↓ite_snd]
  split
  · rfl
  · split
    · simp only [↓kept_ite, ↓kept_fetchRows, ↓kept_layerFault, ite_self]
    · simp only [↓kept_mk, ↓kept_pair, ↓kept_ite, ↓kept_fetchRows, ↓kept_countSat, ↓kept_rec0, ite_self]

theorem kept_composeLine (s : State) (y : Nat) (base : LayCfg → Nat) (ev : LineEvents) :
    (s.composeLine y base ev).2.2.kept = s.kept := by
  simp only [State.composeLine, ↓kept_layLine, ↓kept_rec0, kept_foldl, kept_foldl2, implies_true]

end Sys2Proof.Machine
end

section
/-! PROOFS. The queue and one-time storage under the functions of Submit.lean: events, queues, units of work and the loss of work.
-/

namespace Sys2Proof.Machine

theorem kept_setQueue (s : State) (q : Nat) (u : Queue) : (s.setQueue q u).kept = s.kept := by
  simp only [State.setQueue, ↓kept_mk, ↓kept_pair, ↓kept_setFld]

theorem kept_putStatus (s : State) (q : Nat) : (s.putStatus q).2.kept = s.kept := by
  simp only [State.putStatus]
  split
  · rfl
  · simp only [↓kept_vwrite]

theorem kept_advanceRptr (s : State) (q ptr : Nat) : (s.advanceRptr q ptr).kept = s.kept := by
  simp only [State.advanceRptr, ↓kept_ite, ↓kept_setReg, ite_self]

theorem kept_putStatuses (s : State) (qs : List Nat) : (s.putStatuses qs).kept = s.kept := by
  simp only [State.putStatuses]
  refine kept_foldl (fun s x => ?_) _ _
  split
  · rename_i h
    obtain rfl := snd_of_eq h
    simp only [↓kept_putStatus, ↓kept_recordFail]
  · rename_i h
    obtain rfl := snd_of_eq h
    simp only [↓kept_putStatus]

theorem kept_setQState (s : State) (q st : Nat) : (s.setQState q st).kept = s.kept := by
  simp only [State.setQState]
  split
  · simp only [↓kept_ite, ↓kept_setFld, ↓kept_raiseVec, ite_self]
  · simp only [↓kept_setFld]

theorem kept_updUnit (s : State) (q seq : Nat) (f : WorkUnit → WorkUnit) : (s.updUnit q seq f).kept = s.kept := by
  simp only [State.updUnit]
  split
  · rfl
  · simp only [↓kept_setQueue]

theorem kept_completeUnit (s : State) (q seq outcome reason : Nat) : (s.completeUnit q seq outcome reason).kept = s.kept := by
  simp only [State.completeUnit, ↓kept_updUnit]

theorem kept_evtReset (s : State) (e : Nat) : (s.evtReset e).kept = s.kept := by
  simp only [State.evtReset, ↓kept_clearFlag]

theorem kept_endWaits (s : State) (e : Nat) : (s.endWaits e).kept = s.kept := by
  simp only [State.endWaits, ↓kept_ite, ↓kept_setQueue, ↓kept_putStatuses, ↓kept_advanceRptr, ↓kept_evtReset, kept_foldl,
    ite_self, implies_true]

theorem kept_evtFire (s : State) (e : Nat) : (s.evtFire e).kept = s.kept := by
  simp only [State.evtFire, ↓kept_ite, ↓kept_setFlag, ↓kept_countWrap, ↓kept_raiseVec, ↓kept_endWaits, ite_self]

theorem kept_flowCtxFault (s : State) (c : Nat) : (s.flowCtxFault c).kept = s.kept := by
  simp only [State.flowCtxFault]
  split
  · rfl
  · simp only [↓kept_mk, ↓kept_pair, ↓kept_ite, ↓kept_countWrap, ↓kept_setFlag, ↓kept_rec0, ite_self]

theorem kept_setCore (s : State) (n : Nat) (k : Core) : (s.setCore n k).kept = s.kept := by
  simp only [State.setCore, ↓kept_mk, ↓kept_pair]

theorem kept_setCluster (s : State) (k : Nat) (c : Cluster) : (s.setCluster k c).kept = s.kept := by
  simp only [State.setCluster, ↓kept_mk, ↓kept_pair]

theorem kept_preemptAsk (s : State) (k : Nat) (x : PreemptScope) : (s.preemptAsk k x).kept = s.kept := by
  simp only [State.preemptAsk, ↓kept_setCluster]

theorem kept_dropWork (s : State) (f : Nat → Nat → Nat → Bool) : (s.dropWork f).kept = s.kept := by
  simp only [State.dropWork, ↓kept_mk, ↓kept_pair, ↓kept_ite, ↓kept_maskLeft, ↓kept_setFld, kept_foldl, ite_self, implies_true]

theorem kept_endUnits (s : State) (q : Nat) (faulting : Option Nat) (toPtr : Option Nat) :
    (s.endUnits q faulting toPtr).kept = s.kept := by
  simp only [State.endUnits]
  split
  · rfl
  · simp only [↓kept_mk, ↓kept_pair, ↓kept_setReg, ↓kept_setQueue]

theorem kept_signalLost (s : State) (c : Nat) : (s.signalLost c).kept = s.kept := by
  simp only [State.signalLost]
  split
  · simp only [↓kept_ite, ↓kept_evtFire, ite_self]
  · rfl

theorem kept_faultEnd (s : State) (c : Nat) (fu : Option (Nat × Nat)) : (s.faultEnd c fu).kept = s.kept := by
  simp only [State.faultEnd, ↓kept_dropWork, ↓kept_endUnits, ↓kept_flowCtxFault, ↓kept_displayCtxGone, ↓kept_signalLost,
    ↓kept_putStatuses, kept_foldl, implies_true]

theorem kept_loseStart (s : State) (l : Losing) : (s.loseStart l).kept = s.kept := by
  simp only [State.loseStart, ↓kept_mk, ↓kept_pair, ↓kept_preemptAsk, kept_foldl, implies_true]

theorem kept_contextFault (s : State) (c code unit : Nat) (fu : Option (Nat × Nat)) :
    (s.contextFault c code unit fu).kept = s.kept := by
  simp only [State.contextFault, ↓kept_mk, ↓kept_pair, ↓kept_ite, ↓kept_setReg, ↓kept_setFld, ↓kept_setQState, ↓kept_loseStart,
    ↓kept_faultEnd, kept_foldl, ite_self, implies_true]

theorem kept_updStatus (s : State) (q : Nat) : (s.updStatus q).kept = s.kept := by
  simp only [State.updStatus]
  split
  · rename_i h
    obtain rfl := snd_of_eq h
    simp only [↓kept_putStatus]
  · rename_i h
    obtain rfl := snd_of_eq h
    simp only [↓kept_putStatus, ↓kept_contextFault, ↓kept_recordFail]

theorem kept_accessFault (s : State) (c unit : Nat) (access : AccessKind) (f : VFail) (fu : Option (Nat × Nat)) :
    (s.accessFault c unit access f fu).kept = s.kept := by
  simp only [State.accessFault, ↓kept_contextFault, ↓kept_recordFail]

theorem kept_poisonFault (s : State) (c pa : Nat) (fu : Option (Nat × Nat)) : (s.poisonFault c pa fu).kept = s.kept := by
  simp only [State.poisonFault, ↓kept_contextFault, ↓kept_poisonUsed]

theorem kept_stopQueue (s : State) (q ptr code : Nat) : (s.stopQueue q ptr code).kept = s.kept := by
  simp only [State.stopQueue]
  split
  · rfl
  · simp only [↓kept_setReg, ↓kept_setQState, ↓kept_setQueue, ↓kept_updStatus, ↓kept_recC]

theorem kept_waitTimeout (s : State) (q : Nat) : (s.waitTimeout q).kept = s.kept := by
  simp only [State.waitTimeout]
  split
  · rfl
  · simp only [↓kept_updStatus, ↓kept_setQueue]

end Sys2Proof.Machine
end

section
/-! PROOFS. The queue and one-time storage under the functions of Contexts.lean: contexts. -/

namespace Sys2Proof.Machine

theorem kept_readObjects (s : State) (c obj count : Nat) : (s.readObjects c obj count).2.kept = s.kept := by
  simp only [State.readObjects, ↓kept_ite, ↓ite_snd]
  split
  · rfl
  · split
    · rename_i h
      obtain rfl := snd_of_eq h
      simp only [↓kept_vread, ↓kept_recordFail]
    · rename_i h
      obtain rfl := snd_of_eq h
      simp only [↓ite_snd, ↓kept_vread, ite_self]

theorem kept_ctxReason (s : State) (c code : Nat) : (s.ctxReason c code).kept = s.kept := by
  simp only [State.ctxReason, ↓kept_setFld]

theorem kept_ctxUp (s : State) (c : Nat) (x : Ctx) : (s.ctxUp c x).kept = s.kept := by
  simp only [State.ctxUp, ↓kept_mk, ↓kept_pair, ↓kept_setFld, ↓kept_setFlag, ↓kept_setReg, ↓kept_setReg64, ↓kept_ctxReason]

theorem kept_execCtxEnable (c) (s : State) : ((execCtxEnable c s).after s).kept = s.kept := by
  unfold execCtxEnable
  obtain ⟨devRead, er⟩ : ∃ f, f = State.devRead := ⟨_, rfl⟩
  obtain ⟨readObjects, eo⟩ : ∃ f, f = State.readObjects := ⟨_, rfl⟩
  have hr := kept_devRead
  have ho := kept_readObjects
  rw [← er] at hr ⊢
  rw [← eo] at ho ⊢
  extract_lets c
  split
  · rfl
  split
  · exact kept_ctxReason ..
  split
  · exact kept_ctxReason ..
  split
  have h := kept_snd2 ‹_› (hr ..)
  extract_lets save obj count lost others reserved
  split
  · exact (kept_ctxReason ..).trans h
  split
  · exact (kept_ctxReason ..).trans h
  split
  · exact (kept_ctxReason ..).trans h
  split
  · exact (kept_ctxReason ..).trans h
  split
  · have h3 := (kept_snd ‹_› (ho ..)).trans (kept_upd.trans ((kept_tlbDropAsid ..).trans h))
    exact (kept_ctxReason ..).trans (kept_upd.trans ((kept_tlbDropAsid ..).trans h3))
  · have h3 := (kept_snd ‹_› (ho ..)).trans (kept_upd.trans ((kept_tlbDropAsid ..).trans h))
    exact (kept_ctxUp ..).trans h3

theorem kept_ctxOff (s : State) (c : Nat) : (s.ctxOff c).kept = s.kept := by
  simp only [State.ctxOff, ↓kept_mk, ↓kept_pair, ↓kept_setFld, ↓kept_clearFlag]
  split
  · simp only [↓kept_tlbDropAsid]
  · rfl

theorem kept_execCtxDisable (c : Fin 32) (s : State) : ((execCtxDisable c s).after s).kept = s.kept := by
  simp only [execCtxDisable, ↓after_next, ↓after_ite, ↓kept_ite, ↓kept_ctxReason, ↓kept_ctxOff, ite_self]

theorem kept_queueOff (s : State) (q : Nat) : (s.queueOff q).kept = s.kept := by
  simp only [State.queueOff, ↓kept_setFld, ↓kept_clearFlag, ↓kept_putStatuses]

theorem kept_dropModels (s : State) (c : Nat) : (s.dropModels c).kept = s.kept := by
  simp only [State.dropModels, ↓kept_mk, ↓kept_pair, ↓kept_setFld, ↓kept_setReg, kept_foldl, implies_true]

theorem kept_dropTracks (s : State) (c : Nat) : (s.dropTracks c).kept = s.kept := by
  simp only [State.dropTracks, ↓kept_mk, ↓kept_pair]

theorem kept_reserves (s : State) : s.reserves.kept = s.kept := by
  simp only [State.reserves, ↓kept_setFld, kept_foldl, implies_true]

theorem kept_killEnd (s : State) (c : Nat) : (s.killEnd c).kept = s.kept := by
  simp only [State.killEnd, ↓kept_dropWork, ↓kept_queueOff, ↓kept_endUnits, ↓kept_dropModels, ↓kept_dropTracks, ↓kept_reserves,
    ↓kept_ctxOff, ↓kept_flowCtxFault, ↓kept_displayCtxGone, ↓kept_signalLost, kept_foldl, implies_true]

theorem kept_ctxKill (s : State) (c : Nat) : (s.ctxKill c).kept = s.kept := by
  simp only [State.ctxKill, ↓kept_mk, ↓kept_pair, ↓kept_ite, ↓kept_setFld, ↓kept_loseStart, ↓kept_setQState, ↓kept_killEnd,
    kept_foldl, ite_self, implies_true]

theorem kept_loseCheck (s : State) : s.loseCheck.kept = s.kept := by
  simp only [State.loseCheck, ↓kept_mk, ↓kept_pair, ↓kept_ite, ↓kept_killEnd, ↓kept_faultEnd, kept_foldl, ite_self, implies_true]

theorem kept_execCtxKill (c : Fin 32) (s : State) : ((execCtxKill c s).after s).kept = s.kept := by
  simp only [execCtxKill, ↓after_next, ↓after_ite, ↓kept_mk, ↓kept_pair, ↓kept_ite, ↓kept_setFld, ↓kept_ctxKill, ite_self]

end Sys2Proof.Machine
end

section
/-! PROOFS. The queue and one-time storage under the functions of CmdProc.lean: the command processor. -/

namespace Sys2Proof.Machine

theorem kept_cpRead (s : State) (c va n : Nat) : (s.cpRead c va n).2.2.2.kept = s.kept := by
  simp only [State.cpRead, ↓kept_rawRead]

theorem kept_fetchPkt (s : State) (u : Queue) (p : Pkt) : (s.fetchPkt u p).2.kept = s.kept := by
  simp only [State.fetchPkt, ↓kept_ite, ↓ite_snd]
  split
  · rfl
  · split
    · split
      · rfl
      · split
        · simp only [↓kept_cpRead]
        · simp only [↓kept_cpRead]
        · simp only [↓kept_ite, ↓ite_snd, ↓kept_cpRead, ite_self]
    · simp only [↓kept_ite, ↓ite_snd]
      split
      · rfl
      · split
        · dsimp only
          refine kept_foldl4 (fun r q p s x => ?_) _ _
          dsimp only
          split
          · rfl
          · simp only [↓kept_cpRead]
        · dsimp only
          refine kept_foldl4 (fun r q p s x => ?_) _ _
          dsimp only
          split
          · rfl
          · simp only [↓kept_cpRead]
        · simp only [↓kept_ite, ↓ite_snd]
          split
          · refine kept_foldl4 (fun r q p s x => ?_) _ _
            dsimp only
            split
            · rfl
            · simp only [↓kept_cpRead]
          · rfl

theorem kept_endStream (s : State) (q : Nat) : (s.endStream q).kept = s.kept := by
  simp only [State.endStream]
  split
  · rfl
  · split
    · rfl
    · simp only [↓kept_ite, ↓kept_stopQueue, ↓kept_setQueue, ↓kept_advanceRptr]
      split
      · rfl
      · split
        · rfl
        · split
          · split
            · simp only [↓kept_ite, ↓kept_setQueue, ↓kept_completeUnit, ite_self]
            · simp only [↓kept_setQueue]
          · rfl

theorem kept_settleQ (s : State) (q : Nat) : (s.settleQ q).kept = s.kept := by
  simp only [State.settleQ]
  split
  · simp only [↓kept_ite, ↓kept_endStream, ite_self]
  · rfl

theorem kept_evtSignal (s : State) (e : Nat) : (s.evtSignal e).kept = s.kept := by
  simp only [State.evtSignal, ↓kept_ite, ↓kept_updStatus, ↓kept_settleQ, ↓kept_evtFire, kept_foldl, ite_self, implies_true]

theorem kept_withPkt {d : State} (s : State) (p : Pkt) (op : Nat) (sel : Bool) {k : Queue → Nat → State → State} (hk : ∀ u ptr s,
  (k u ptr s).kept = s.kept) :
    ((s.withPkt p op sel k).after d).kept = s.kept := by
  simp only [State.withPkt]
  split
  · simp only [↓after_next, ↓kept_settleQ]
  · simp only [↓after_next, ↓after_ite, ↓kept_ite, ↓kept_settleQ]
    split
    · rfl
    · split
      · rfl
      · split
        · rename_i h
          obtain rfl := snd_of_eq h
          simp only [↓after_next, ↓kept_settleQ, ↓kept_fetchPkt]
        · rename_i h
          obtain rfl := snd_of_eq h
          simp only [↓after_next, ↓kept_settleQ, ↓kept_fetchPkt, ↓kept_accessFault]
        · rename_i h
          obtain rfl := snd_of_eq h
          simp only [↓after_next, ↓kept_settleQ, ↓kept_fetchPkt, ↓kept_poisonFault]
        · rename_i h
          obtain rfl := snd_of_eq h
          simp only [↓after_next, ↓kept_settleQ, ↓kept_fetchPkt, ↓kept_stopQueue]
        · rename_i h
          obtain rfl := snd_of_eq h
          simp only [↓after_next, ↓after_ite, ↓kept_ite, ↓kept_settleQ, ↓kept_fetchPkt, ↓kept_stopQueue, ↓kept_endStream,
            ↓kept_setQueue, ite_self, ↓hk]

theorem kept_ctrlDone (s : State) (q : Nat) (u : Queue) : (s.ctrlDone q u).kept = s.kept := by
  simp only [State.ctrlDone, ↓kept_ite, ↓kept_setQueue, ↓kept_advanceRptr, ↓kept_updStatus, ↓kept_endStream, ite_self]

theorem kept_passMark (s : State) (q : Nat) (u : Queue) (code : Nat) : (s.passMark q u code).kept = s.kept := by
  simp only [State.passMark]
  split
  · rfl
  · simp only [↓kept_mk, ↓kept_pair, ↓kept_ite, ↓kept_dropWork, ite_self]

theorem kept_refuseCtrl (s : State) (q : Nat) (u : Queue) (ptr code : Nat) : (s.refuseCtrl q u ptr code).kept = s.kept := by
  simp only [State.refuseCtrl, ↓kept_ctrlDone, ↓kept_passMark]

theorem kept_refuseStep (s : State) (q : Nat) (u : Queue) (ptr : Nat) : (s.refuseStep q u ptr).kept = s.kept := by
  simp only [State.refuseStep, ↓kept_updStatus, ↓kept_endStream, ↓kept_setQueue]

theorem kept_addUnit (s : State) (q : Nat) (u : Queue) (ptr : Nat) (order start : Bool) (kind : UnitKind) :
    (s.addUnit q u ptr order start kind).2.kept = s.kept := by
  simp only [State.addUnit, ↓kept_setQueue]

theorem kept_refuseUnit (s : State) (q : Nat) (u : Queue) (ptr code : Nat) (order : Bool) (kind : UnitKind) :
    (s.refuseUnit q u ptr code order kind).kept = s.kept := by
  simp only [State.refuseUnit, ↓kept_addUnit, ↓kept_passMark, ↓kept_updStatus, ↓kept_endStream, ↓kept_completeUnit]

theorem kept_withUnit {d : State} (s : State) (p : Pkt) (op : Nat) (sel : Bool) (kind : UnitKind) {check : Queue → State → Nat ×
  State} (start : Bool)
    {k : Queue → Nat → State → State} (hc : ∀ u s, (check u s).2.kept = s.kept) (hk : ∀ u ptr s, (k u ptr s).kept = s.kept) :
    ((s.withUnit p op sel kind check start k).after d).kept = s.kept := by
  simp only [State.withUnit]
  split
  · simp only [↓after_next]
  · simp only [↓after_next, ↓after_ite, ↓kept_ite, ↓kept_withPkt, ↓kept_refuseStep, ↓kept_refuseUnit, ↓kept_addUnit, ite_self,
      implies_true, ↓hc, ↓hk]

theorem kept_withCtrl {d : State} (s : State) (p : Pkt) (op : Nat) (sel afterAll : Bool) {k : Queue → Nat → State → State} (hk : ∀
  u ptr s, (k u ptr s).kept = s.kept) :
    ((s.withCtrl p op sel afterAll k).after d).kept = s.kept := by
  simp only [State.withCtrl]
  split
  · simp only [↓after_next]
  · simp only [↓after_next, ↓after_ite, ↓kept_ite, ↓kept_withPkt, ↓kept_refuseStep, ite_self, implies_true, ↓hk]

theorem kept_qReason (s : State) (q code : Nat) : (s.qReason q code).kept = s.kept := by
  simp only [State.qReason, ↓kept_setFld]

theorem kept_execQEnable (q) (s : State) : ((execQEnable q s).after s).kept = s.kept := by
  unfold execQEnable
  obtain ⟨devRead, er⟩ : ∃ f, f = State.devRead := ⟨_, rfl⟩
  have hr := kept_devRead
  rw [← er] at hr ⊢
  extract_lets c
  split
  · rfl
  split
  · exact kept_qReason ..
  split
  · exact kept_qReason ..
  split
  have h := kept_snd2 ‹_› (hr ..)
  extract_lets w0 ring log2 status err c reserved
  split
  · exact (kept_qReason ..).trans h
  split
  · exact (kept_qReason ..).trans h
  split
  · exact (kept_qReason ..).trans h
  exact (kept_updStatus ..).trans ((kept_reserves ..).trans ((kept_qReason ..).trans ((kept_setFld ..).trans
    ((kept_setQueue ..).trans ((kept_setReg64 ..).trans ((kept_setReg ..).trans ((kept_setReg ..).trans
    ((kept_setFlag ..).trans h))))))))

theorem kept_drainDone (s : State) (q : Nat) : (s.drainDone q).kept = s.kept := by
  simp only [State.drainDone]
  split
  · simp only [↓kept_ite, ↓kept_reserves, ↓kept_queueOff, ite_self]
  · rfl

theorem kept_execQDisable (q : Fin 64) (s : State) : ((execQDisable q s).after s).kept = s.kept := by
  simp only [execQDisable, ↓after_next, ↓after_ite, ↓kept_ite, ↓kept_clearFlag, ↓kept_reserves, ↓kept_queueOff]
  split
  · rfl
  · split
    · rfl
    · split
      · simp only [↓after_next, ↓kept_clearFlag]
      · simp only [↓after_next, ↓kept_clearFlag, ↓kept_putStatuses, ↓kept_drainDone, ↓kept_setQState, ↓kept_setQueue]

theorem kept_execDoorbell (q : Fin 64) (w : Word) (s : State) : ((execDoorbell q w s).after s).kept = s.kept := by
  simp only [execDoorbell, ↓after_next, ↓after_ite, ↓kept_ite, ↓kept_setReg, ↓kept_setFlag]
  split
  · rfl
  · split
    · rfl
    · split
      · split
        · rfl
        · split
          · rfl
          · split
            · simp only [↓after_next, ↓kept_ite, ↓kept_setFlag, ↓kept_raiseVec, ↓kept_recC, ite_self]
            · simp only [↓after_next, ↓kept_setFlag]
      · split
        · rfl
        · split
          · rfl
          · split
            · simp only [↓after_next, ↓kept_ite, ↓kept_setFlag, ↓kept_raiseVec, ↓kept_recC, ite_self]
            · simp only [↓after_next, ↓kept_setFlag]

theorem kept_execEvtRegSignal (e : Fin 4096) (s : State) : ((execEvtRegSignal e s).after s).kept = s.kept := by
  simp only [execEvtRegSignal, ↓after_next, ↓after_ite, ↓kept_ite, ↓kept_evtSignal, ite_self]

theorem kept_execEvtRegReset (e : Fin 4096) (s : State) : ((execEvtRegReset e s).after s).kept = s.kept := by
  simp only [execEvtRegReset, ↓after_next, ↓after_ite, ↓kept_ite, ↓kept_evtReset, ite_self]

theorem kept_execNop (p : Pkt) (s : State) : ((execNop p s).after s).kept = s.kept := by
  simp only [execNop, ↓kept_withCtrl, ↓kept_ctrlDone, implies_true]

theorem kept_execEventSignal (p : Pkt) (s : State) : ((execEventSignal p s).after s).kept = s.kept := by
  simp only [execEventSignal]
  refine kept_withCtrl _ _ _ _ _ (fun u ptr s => ?_)
  simp only [↓kept_ite, ↓kept_refuseCtrl, ↓kept_setQueue, ↓kept_evtSignal, ↓kept_ctrlDone]
  split
  · rfl
  · split
    · rfl
    · split
      · rename_i h
        obtain rfl := snd_of_eq h
        simp only [↓kept_setQueue, ↓kept_evtSignal, ↓kept_vwrite, ↓kept_accessFault]
      · rename_i h
        obtain rfl := snd_of_eq h
        simp only [↓kept_setQueue, ↓kept_evtSignal, ↓kept_ctrlDone, ↓kept_vwrite]

theorem kept_execEventSignalReset (p : Pkt) (s : State) : ((execEventSignalReset p s).after s).kept = s.kept := by
  simp only [execEventSignalReset, ↓kept_ite, ↓kept_withCtrl, ↓kept_refuseCtrl, ↓kept_ctrlDone, ↓kept_evtReset, ite_self,
    implies_true]

theorem kept_execEventWait (p : Pkt) (s : State) : ((execEventWait p s).after s).kept = s.kept := by
  simp only [execEventWait, ↓kept_ite, ↓kept_withCtrl, ↓kept_refuseCtrl, ↓kept_ctrlDone, ↓kept_evtReset, ↓kept_setQueue, ite_self,
    implies_true]

theorem kept_execEventWaitTimeout (q : Fin 64) (s : State) : ((execEventWaitTimeout q s).after s).kept = s.kept := by
  simp only [execEventWaitTimeout]
  split
  · split
    · simp only [↓after_next, ↓after_ite, ↓kept_ite, ↓kept_endStream, ↓kept_advanceRptr, ↓kept_waitTimeout, ite_self]
    · simp only [↓after_next]
  · simp only [↓after_next]

theorem kept_cpValue (s : State) (c a n : Nat) : (s.cpValue c a n).2.kept = s.kept := by
  simp only [State.cpValue]
  split
  · rename_i h
    obtain rfl := snd_of_eq h
    simp only [↓kept_vread, ↓kept_accessFault]
  · rename_i h
    obtain rfl := snd_of_eq h
    simp only [↓kept_vread, ↓kept_poisonFault]
  · rename_i h
    obtain rfl := snd_of_eq h
    simp only [↓kept_vread]

theorem kept_execCond (p : Pkt) (s : State) : ((execCond p s).after s).kept = s.kept := by
  simp only [execCond]
  refine kept_withCtrl _ _ _ _ _ (fun u ptr s => ?_)
  simp only [↓kept_ite, ↓kept_refuseCtrl, ↓kept_stopQueue]
  split
  · rfl
  · split
    · split
      · rfl
      · split
        · rename_i h
          obtain rfl := snd_of_eq h
          simp only [↓kept_cpValue]
        · rename_i h
          obtain rfl := snd_of_eq h
          simp only [↓kept_cpValue, ↓kept_ctrlDone]
    · split
      · rfl
      · split
        · rename_i h
          obtain rfl := snd_of_eq h
          simp only [↓kept_cpValue]
        · rename_i h
          obtain rfl := snd_of_eq h
          simp only [↓kept_cpValue, ↓kept_ctrlDone]

theorem kept_execLoop (p : Pkt) (s : State) : ((execLoop p s).after s).kept = s.kept := by
  simp only [execLoop, ↓kept_ite, ↓kept_withCtrl, ↓kept_stopQueue, ↓kept_ctrlDone, ite_self, implies_true]

theorem kept_execLoopEnd (p : Pkt) (s : State) : ((execLoopEnd p s).after s).kept = s.kept := by
  simp only [execLoopEnd]
  refine kept_withCtrl _ _ _ _ _ (fun u ptr s => ?_)
  split
  · simp only [↓kept_stopQueue]
  · simp only [↓kept_ite, ↓kept_stopQueue, ↓kept_ctrlDone, ite_self]

theorem kept_execWaitMem (p : Pkt) (s : State) : ((execWaitMem p s).after s).kept = s.kept := by
  simp only [execWaitMem]
  refine kept_withCtrl _ _ _ _ _ (fun u ptr s => ?_)
  simp only [↓kept_ite, ↓kept_refuseCtrl]
  split
  · rfl
  · split
    · rename_i h
      obtain rfl := snd_of_eq h
      simp only [↓kept_cpValue]
    · rename_i h
      obtain rfl := snd_of_eq h
      simp only [↓kept_ite, ↓kept_cpValue, ↓kept_ctrlDone, ↓kept_setQueue, ite_self]

theorem kept_execWaitMemPoll (q : Fin 64) (s : State) : ((execWaitMemPoll q s).after s).kept = s.kept := by
  simp only [execWaitMemPoll]
  split
  · split
    · simp only [↓after_next, ↓after_ite, ↓kept_ite]
      split
      · rfl
      · split
        · rename_i h
          obtain rfl := snd_of_eq h
          simp only [↓after_next, ↓kept_cpValue]
        · rename_i h
          obtain rfl := snd_of_eq h
          simp only [↓after_next, ↓after_ite, ↓kept_ite, ↓kept_cpValue, ↓kept_ctrlDone, ↓kept_setQueue, ite_self]
    · simp only [↓after_next]
  · simp only [↓after_next]

theorem kept_execWaitMemTimeout (q : Fin 64) (s : State) : ((execWaitMemTimeout q s).after s).kept = s.kept := by
  simp only [execWaitMemTimeout]
  split
  · split
    · simp only [↓after_next, ↓after_ite, ↓kept_ite, ↓kept_endStream, ↓kept_advanceRptr, ↓kept_waitTimeout, ite_self]
    · simp only [↓after_next]
  · simp only [↓after_next]

theorem kept_execWriteMem (p : Pkt) (s : State) : ((execWriteMem p s).after s).kept = s.kept := by
  simp only [execWriteMem]
  refine kept_withCtrl _ _ _ _ _ (fun u ptr s => ?_)
  simp only [↓kept_ite, ↓kept_refuseCtrl]
  split
  · split
    · rfl
    · split
      · rename_i h
        obtain rfl := snd_of_eq h
        simp only [↓kept_vwrite, ↓kept_accessFault]
      · rename_i h
        obtain rfl := snd_of_eq h
        simp only [↓kept_vwrite, ↓kept_ctrlDone]
  · split
    · rfl
    · split
      · rename_i h
        obtain rfl := snd_of_eq h
        simp only [↓kept_vwrite, ↓kept_accessFault]
      · rename_i h
        obtain rfl := snd_of_eq h
        simp only [↓kept_vwrite, ↓kept_ctrlDone]
  · split
    · rfl
    · split
      · rename_i h
        obtain rfl := snd_of_eq h
        simp only [↓kept_vwrite, ↓kept_accessFault]
      · rename_i h
        obtain rfl := snd_of_eq h
        simp only [↓kept_vwrite, ↓kept_ctrlDone]
  · split
    · rfl
    · split
      · rename_i h
        obtain rfl := snd_of_eq h
        simp only [↓kept_vwrite, ↓kept_accessFault]
      · rename_i h
        obtain rfl := snd_of_eq h
        simp only [↓kept_vwrite, ↓kept_ctrlDone]

theorem kept_execIndirect (p : Pkt) (s : State) : ((execIndirect p s).after s).kept = s.kept := by
  simp only [execIndirect, ↓kept_ite, ↓kept_withCtrl, ↓kept_stopQueue, ↓kept_refuseCtrl, ↓kept_setQueue, ite_self, implies_true]

theorem kept_execObjSync (p : Pkt) (s : State) : ((execObjSync p s).after s).kept = s.kept := by
  simp only [execObjSync]
  refine kept_withCtrl _ _ _ _ _ (fun u ptr s => ?_)
  split
  · rfl
  · split
    · rename_i h
      obtain rfl := snd_of_eq h
      simp only [↓kept_readObjects, ↓kept_refuseCtrl]
    · rename_i h
      obtain rfl := snd_of_eq h
      simp only [↓kept_mk, ↓kept_pair, ↓kept_readObjects, ↓kept_ctrlDone]

theorem kept_slotRegs (s : State) (n : Nat) : (s.slotRegs n).kept = s.kept := by
  simp only [State.slotRegs]
  split
  · simp only [↓kept_setFld, ↓kept_setReg]
  · simp only [↓kept_setFld, ↓kept_setReg]

theorem kept_execSlotDefine (p : Pkt) (s : State) : ((execSlotDefine p s).after s).kept = s.kept := by
  simp only [execSlotDefine]
  refine kept_withCtrl _ _ _ _ _ (fun u ptr s => ?_)
  simp only [↓kept_ite, ↓kept_refuseCtrl]
  split
  · rfl
  · split
    · rename_i h
      obtain rfl := snd_of_eq h
      simp only [↓kept_vread, ↓kept_accessFault]
    · rename_i h
      obtain rfl := snd_of_eq h
      simp only [↓kept_vread, ↓kept_poisonFault]
    · rename_i h
      obtain rfl := snd_of_eq h
      split
      · simp only [↓kept_refuseCtrl, ↓kept_vread]
      · simp only [↓kept_mk, ↓kept_pair, ↓kept_vread, ↓kept_ctrlDone, ↓kept_slotRegs]

theorem kept_execSlotRelease (p : Pkt) (s : State) : ((execSlotRelease p s).after s).kept = s.kept := by
  simp only [execSlotRelease]
  refine kept_withCtrl _ _ _ _ _ (fun u ptr s => ?_)
  split
  · simp only [↓kept_refuseCtrl]
  · simp only [↓kept_mk, ↓kept_pair, ↓kept_ite, ↓kept_refuseCtrl, ↓kept_ctrlDone, ↓kept_slotRegs, ite_self]

theorem kept_seqWrite (s : State) (c a v : Nat) : (s.seqWrite c a v).kept = s.kept := by
  simp only [State.seqWrite]
  split
  · rename_i h
    obtain rfl := snd_of_eq h
    simp only [↓kept_vwrite]
  · rename_i h
    obtain rfl := snd_of_eq h
    simp only [↓kept_vwrite, ↓kept_accessFault]

theorem kept_execSeqSubmit (p : Pkt) (s : State) : ((execSeqSubmit p s).after s).kept = s.kept := by
  unfold execSeqSubmit
  refine kept_withCtrl _ _ _ _ _ (fun u ptr s => ?_)
  extract_lets i slot a owned
  split
  · exact kept_refuseCtrl ..
  split
  · exact (kept_accessFault ..).trans (kept_snd ‹_› (kept_vread ..))
  · exact (kept_poisonFault ..).trans (kept_snd ‹_› (kept_vread ..))
  have h := kept_snd ‹_› (kept_vread ..)
  split
  · exact (kept_refuseCtrl ..).trans h
  · exact (kept_seqWrite ..).trans ((kept_ctrlDone ..).trans ((kept_slotRegs ..).trans (kept_upd.trans h)))

theorem kept_execSeqCancel (p : Pkt) (s : State) : ((execSeqCancel p s).after s).kept = s.kept := by
  simp only [execSeqCancel]
  refine kept_withCtrl _ _ _ _ _ (fun u ptr s => ?_)
  split
  · simp only [↓kept_mk, ↓kept_pair, ↓kept_ite, ↓kept_refuseCtrl, ↓kept_ctrlDone, ite_self]
  · simp only [↓kept_refuseCtrl]

theorem kept_execTokenStep (p : Pkt) (s : State) : ((execTokenStep p s).after s).kept = s.kept := by
  simp only [execTokenStep, ↓kept_withUnit, implies_true]

theorem kept_seqRetire (s : State) (i state : Nat) : (s.seqRetire i state).kept = s.kept := by
  simp only [State.seqRetire]
  split
  · rfl
  · simp only [↓kept_mk, ↓kept_pair, ↓kept_seqWrite]

theorem kept_seqTake (s : State) (i need : Nat) (entering : Bool) : (s.seqTake i need entering).kept = s.kept := by
  simp only [State.seqTake]
  split
  · rfl
  · split
    · rfl
    · simp only [↓kept_mk, ↓kept_pair, ↓kept_ite, ↓kept_seqWrite, kept_foldl, ite_self, implies_true]

theorem kept_letIn (s : State) (slot maxb : Nat) (l batch : List Nat) : (s.letIn slot maxb l batch).2.kept = s.kept := by
  induction l generalizing s batch with
  | nil => rfl
  | cons i t ih =>
    simp only [State.letIn, ↓kept_ite, ↓ite_snd]
    split
    · rfl
    · split
      · simp only [↓kept_ite, ↓ite_snd, ite_self, ↓kept_seqTake, ih]
      · rfl

theorem kept_selectBatch (s : State) (slot maxb n : Nat) : (s.selectBatch slot maxb n).2.kept = s.kept := by
  induction n generalizing s with
  | zero => rfl
  | succ n ih =>
    simp only [State.selectBatch, ↓kept_ite, ↓ite_snd, ite_self, ↓kept_countSat, ↓kept_letIn, ↓kept_seqRetire, ↓kept_recC, ih]
    refine kept_foldl3 (fun r q s x => ?_) _ _
    simp only [↓kept_ite, ↓ite_snd]
    split
    · rfl
    · split
      · simp only [↓kept_ite, ↓ite_snd, ite_self, ↓kept_seqTake, ↓kept_countSat]
      · rfl

theorem kept_stepBoundary (s : State) (q : Nat) {f : Nat → State → State} (hf : ∀ n s, (f n s).kept = s.kept) : (s.stepBoundary q
  f).kept = s.kept := by
  unfold State.stepBoundary
  obtain ⟨vwrite, ew⟩ : ∃ f, f = State.vwrite := ⟨_, rfl⟩
  obtain ⟨selectBatch, es⟩ : ∃ f, f = State.selectBatch := ⟨_, rfl⟩
  have hw := kept_vwrite
  have hs := kept_selectBatch
  rw [← ew] at hw ⊢
  rw [← es] at hs ⊢
  split
  · rfl
  split
  · rfl
  split
  swap
  · rfl
  extract_lets earlier okNow
  split
  · rfl
  split
  · rfl
  split
  rename_i batch t ht
  have h1 : t.kept = s.kept := by
    refine (kept_snd ht (hs ..)).trans (kept_upd.trans (kept_foldl (fun s i => ?_) _ _))
    split
    · rfl
    · simp only [↓kept_ite, ↓ite_snd, ↓kept_cpValue, ↓kept_seqRetire, ite_self]
  extract_lets entries hdr area t2
  have h2 : t2.kept = s.kept := (kept_setFld ..).trans h1
  split
  · exact h2
  split
  · exact (kept_accessFault ..).trans ((kept_snd ‹_› (hw ..)).trans h2)
  have h3 := (kept_snd ‹_› (hw ..)).trans h2
  split
  · exact h3
  split
  · exact (kept_slotRegs ..).trans ((kept_completeUnit ..).trans ((kept_setQueue ..).trans (kept_upd.trans h3)))
  · exact (kept_endStream ..).trans ((kept_slotRegs ..).trans ((hf ..).trans ((kept_setQueue ..).trans
      (kept_upd.trans (kept_upd.trans h3)))))

theorem kept_stepRetired (s : State) (q seq slot ev : Nat) (en done : Bool) :
    (s.stepRetired q seq slot ev en done).kept = s.kept := by
  simp only [State.stepRetired, ↓kept_mk, ↓kept_pair, ↓kept_ite, ↓kept_evtSignal, ↓kept_slotRegs, ite_self]
  split
  · rfl
  · refine (kept_foldl (fun s x => ?_) _ _).trans ?_
    · split
      · rfl
      · simp only [↓kept_mk, ↓kept_pair, ↓kept_ite, ↓kept_seqWrite, ↓kept_evtSignal, ite_self]
    · simp only [↓kept_mk, ↓kept_pair, ↓kept_ite, ite_self]

theorem kept_unitRetire (s : State) (q : Fin 64) : ((s.unitRetire q).after s).kept = s.kept := by
  simp only [State.unitRetire]
  split
  · simp only [↓after_next, ↓kept_settleQ]
  · split
    · simp only [↓after_next, ↓kept_settleQ]
    · split
      · simp only [↓after_next, ↓kept_settleQ]
      · simp only [↓after_next, ↓kept_drainDone, ↓kept_updStatus]
        split
        · simp only [↓kept_settleQ, ↓kept_advanceRptr, ↓kept_setQueue, ↓kept_stepRetired]
        · simp only [↓kept_settleQ, ↓kept_advanceRptr, ↓kept_setQueue]

end Sys2Proof.Machine
end

section
/-! PROOFS. The queue and one-time storage under the functions of Operands.lean: the issue of shader instructions. -/

namespace Sys2Proof.Machine

theorem kept_putGroup (s : State) (core slot : Nat) (g : Group) : (s.putGroup core slot g).kept = s.kept := by
  simp only [State.putGroup, ↓kept_setCore]

theorem kept_putBlock (s : State) (core bs : Nat) (b : Block) : (s.putBlock core bs b).kept = s.kept := by
  simp only [State.putBlock, ↓kept_setCore]

theorem kept_arise (s : State) (x1) : (s.arise x1).kept = s.kept := by
  simp only [State.arise]
  split
  · simp only [↓kept_mk, ↓kept_pair, ↓kept_ite, ite_self]
  · split
    · simp only [↓kept_setCore]
    · rfl
  · split
    · simp only [↓kept_ite, ↓kept_putBlock, ite_self]
    · rfl
  · simp only [↓kept_setCluster]

theorem kept_ariseAll (s : State) (es : List Upset) : (s.ariseAll es).kept = s.kept := by
  simp only [State.ariseAll, ↓kept_arise, kept_foldl, implies_true]

theorem kept_excCapture (s : State) (a : At) (code lane addr : Nat) : (s.excCapture a code lane addr).kept = s.kept := by
  simp only [State.excCapture, ↓kept_ite, ↓kept_countSat, ↓kept_setReg, ↓kept_setReg64, ite_self]

theorem kept_excNote (s : State) (a : At) (code lane addr : Nat) : (s.excNote a code lane addr).kept = s.kept := by
  simp only [State.excNote, ↓kept_recC, ↓kept_excCapture]

theorem kept_exc (s : State) (a : At) (code lane addr : Nat) : (s.exc a code lane addr).kept = s.kept := by
  simp only [State.exc, ↓kept_putGroup, ↓kept_contextFault, ↓kept_excNote]

theorem kept_l1Put (s : State) (core : Nat) (l : L1Line) : (s.l1Put core l).kept = s.kept := by
  simp only [State.l1Put, ↓kept_ite, ↓kept_setCore, ↓kept_drawNat, ite_self]

theorem kept_l1Drop (s : State) (core : Nat) (cls : OutClass) (line : Nat) : (s.l1Drop core cls line).kept = s.kept := by
  simp only [State.l1Drop, ↓kept_setCore]

theorem kept_l1Clear (s : State) (core : Nat) : (s.l1Clear core).kept = s.kept := by
  simp only [State.l1Clear, ↓kept_setCore]

theorem kept_l1Look (s : State) (core : Nat) (cls : OutClass) (line : Nat) : (s.l1Look core cls line).2.kept = s.kept := by
  simp only [State.l1Look]
  split
  · simp only [↓kept_drawBool]
  · simp only [↓kept_ite, ↓ite_snd, ↓kept_drawBool, ↓kept_rec0, ↓kept_l1Drop, ite_self]

theorem kept_l1Read (s : State) (core c va cls : Nat) (x : XOut) (n : Nat) : (s.l1Read core c va cls x n).2.2.kept = s.kept := by
  simp only [State.l1Read, ↓kept_ite, ↓ite_snd, ↓kept_hostBytes]
  split
  · rfl
  · split
    · rename_i h
      obtain rfl := snd_of_eq h
      simp only [↓kept_l1Look]
    · rename_i h
      obtain rfl := snd_of_eq h
      simp only [↓kept_ite, ↓kept_hostBytes, ↓kept_l1Look, ↓kept_devRead, ↓kept_l1Put, ite_self]

theorem kept_fetchPart (s : State) (core c va cls : Nat) (x : XOut) (want : List Byte) :
    (s.fetchPart core c va cls x want).2.kept = s.kept := by
  simp only [State.fetchPart, ↓kept_ite, ↓ite_snd, ↓kept_hostBytes]
  split
  · rfl
  · split
    · rfl
    · split
      · rename_i h
        obtain rfl := snd_of_eq h
        simp only [↓kept_ite, ↓ite_snd, ↓kept_l1Look, ite_self]
      · rename_i h
        obtain rfl := snd_of_eq h
        simp only [↓kept_ite, ↓ite_snd, ↓kept_hostBytes, ↓kept_l1Look, ↓kept_devRead, ↓kept_l1Put, ite_self]

theorem kept_fetchInsn (s : State) (core c pc cls : Nat) (bs : List Byte) : (s.fetchInsn core c pc cls bs).2.kept = s.kept := by
  simp only [State.fetchInsn]
  refine kept_foldl2 (fun r s x => ?_) _ _
  dsimp only
  split
  · split
    · rename_i h
      obtain rfl := snd_of_eq h
      simp only [↓kept_xlate]
    · rename_i h
      obtain rfl := snd_of_eq h
      simp only [↓kept_xlate, ↓kept_fetchPart]
  · rfl

theorem kept_issued (s : State) (x : Issue) (f : Form) : (s.issued x f).kept = s.kept := by
  simp only [State.issued, ↓kept_ite, ↓kept_count64, ↓kept_setCore, ite_self]

theorem kept_withInsn {d : State} (s : State) (x : Issue) (cls : Nat) (mine : Nat → Bool) (f : Form) {k : At → State → State} (hk
  : ∀ a s, (k a s).kept = s.kept) :
    ((s.withInsn x cls mine f k).after d).kept = s.kept := by
  simp only [State.withInsn, ↓after_next, ↓after_ite, ↓kept_ite]
  split
  · rfl
  · split
    · simp only [↓after_next]
    · split
      · rename_i h
        obtain rfl := snd_of_eq h
        simp only [↓after_next]
      · rename_i h
        obtain rfl := snd_of_eq h
        simp only [↓after_next, ↓kept_fetchInsn, ↓kept_accessFault]
      · rename_i h
        obtain rfl := snd_of_eq h
        simp only [↓after_next, ↓kept_fetchInsn, ↓kept_poisonFault]
      · rename_i h
        obtain rfl := snd_of_eq h
        split
        · simp only [↓after_next, ↓kept_fetchInsn, ↓kept_issued, ↓kept_putGroup]
        · simp only [↓after_next, ↓after_ite, ↓kept_ite, ↓kept_fetchInsn, ↓kept_issued, ↓kept_putGroup, ↓kept_exc, ite_self, ↓hk]

theorem kept_argWord (s : State) (a : At) (n : Nat) : (s.argWord a n).2.kept = s.kept := by
  simp only [State.argWord]
  split
  · rename_i h
    obtain rfl := snd_of_eq h
    simp only [↓kept_xlate, ↓kept_accessFault]
  · rename_i h
    obtain rfl := snd_of_eq h
    simp only [↓kept_ite, ↓ite_snd, ↓kept_xlate, ↓kept_accessFault, ↓kept_l1Read, ↓kept_poisonFault, ite_self]

theorem kept_argWords (s : State) (a : At) (n m : Nat) : (s.argWords a n m).2.kept = s.kept := by
  induction m generalizing s n with
  | zero => rfl
  | succ m ih =>
    simp only [State.argWords]
    split
    · rename_i h
      obtain rfl := snd_of_eq h
      simp only [↓kept_argWord]
    · rename_i h
      obtain rfl := snd_of_eq h
      split
      · rename_i h
        obtain rfl := snd_of_eq h
        simp only [↓kept_argWord, ih]
      · rename_i h
        obtain rfl := snd_of_eq h
        simp only [↓kept_argWord, ih]

theorem kept_bwords (s : State) (a : At) (n : Nat) : (s.bwords a n).2.kept = s.kept := by
  simp only [State.bwords, ↓kept_ite, ↓ite_snd]
  split
  · rfl
  · split
    · rfl
    · split
      · rename_i h
        obtain rfl := snd_of_eq h
        simp only [↓kept_argWords]
      · rename_i h
        obtain rfl := snd_of_eq h
        simp only [↓kept_argWords]

theorem kept_bsrc (s : State) (a : At) (wide : Bool) : (s.bsrc a wide).2.kept = s.kept := by
  simp only [State.bsrc, ↓kept_bwords]

theorem kept_putAt (s : State) (a : At) (g : Group) : (s.putAt a g).kept = s.kept := by
  simp only [State.putAt, ↓kept_putGroup]

end Sys2Proof.Machine
end

section
/-! PROOFS. The queue and one-time storage under the functions of ShaderAlu.lean: vector arithmetic. -/

namespace Sys2Proof.Machine

theorem kept_arith (s : State) (a : At) (useB wideB wideD : Bool) (f : State → (Nat → Nat) → Nat → Nat) : (s.arith a useB wideB
  wideD f).kept = s.kept := by
  simp only [State.arith, ↓ite_snd]
  split
  · simp only [↓kept_ite, ↓kept_bsrc, ite_self]
  · simp only [↓kept_mk, ↓kept_pair, ↓kept_ite, ↓kept_bsrc, ↓kept_putAt, ite_self]

theorem kept_falu (s : State) (x : Issue) (op : Nat) : ((s.falu x op).after s).kept = s.kept := by
  simp only [State.falu, ↓kept_withInsn, ↓kept_arith, implies_true]

theorem kept_execFaluAdd (i : Issue) (s : State) : ((execFaluAdd i s).after s).kept = s.kept := by
  simp only [execFaluAdd, ↓kept_falu]

theorem kept_execFaluSub (i : Issue) (s : State) : ((execFaluSub i s).after s).kept = s.kept := by
  simp only [execFaluSub, ↓kept_falu]

theorem kept_execFaluMul (i : Issue) (s : State) : ((execFaluMul i s).after s).kept = s.kept := by
  simp only [execFaluMul, ↓kept_falu]

theorem kept_execFaluFma (i : Issue) (s : State) : ((execFaluFma i s).after s).kept = s.kept := by
  simp only [execFaluFma, ↓kept_falu]

theorem kept_execFaluMin (i : Issue) (s : State) : ((execFaluMin i s).after s).kept = s.kept := by
  simp only [execFaluMin, ↓kept_falu]

theorem kept_execFaluMax (i : Issue) (s : State) : ((execFaluMax i s).after s).kept = s.kept := by
  simp only [execFaluMax, ↓kept_falu]

theorem kept_execFaluMov (i : Issue) (s : State) : ((execFaluMov i s).after s).kept = s.kept := by
  simp only [execFaluMov, ↓kept_falu]

theorem kept_execFaluAbs (i : Issue) (s : State) : ((execFaluAbs i s).after s).kept = s.kept := by
  simp only [execFaluAbs, ↓kept_falu]

theorem kept_execFaluNeg (i : Issue) (s : State) : ((execFaluNeg i s).after s).kept = s.kept := by
  simp only [execFaluNeg, ↓kept_falu]

theorem kept_ialu (s : State) (x : Issue) (op : Nat) : ((s.ialu x op).after s).kept = s.kept := by
  simp only [State.ialu, ↓kept_withInsn, ↓kept_arith, implies_true]

theorem kept_execIaluAdd (i : Issue) (s : State) : ((execIaluAdd i s).after s).kept = s.kept := by
  simp only [execIaluAdd, ↓kept_ialu]

theorem kept_execIaluSub (i : Issue) (s : State) : ((execIaluSub i s).after s).kept = s.kept := by
  simp only [execIaluSub, ↓kept_ialu]

theorem kept_execIaluMul (i : Issue) (s : State) : ((execIaluMul i s).after s).kept = s.kept := by
  simp only [execIaluMul, ↓kept_ialu]

theorem kept_execIaluMulh (i : Issue) (s : State) : ((execIaluMulh i s).after s).kept = s.kept := by
  simp only [execIaluMulh, ↓kept_ialu]

theorem kept_execIaluMad (i : Issue) (s : State) : ((execIaluMad i s).after s).kept = s.kept := by
  simp only [execIaluMad, ↓kept_ialu]

theorem kept_execIaluAnd (i : Issue) (s : State) : ((execIaluAnd i s).after s).kept = s.kept := by
  simp only [execIaluAnd, ↓kept_ialu]

theorem kept_execIaluOr (i : Issue) (s : State) : ((execIaluOr i s).after s).kept = s.kept := by
  simp only [execIaluOr, ↓kept_ialu]

theorem kept_execIaluXor (i : Issue) (s : State) : ((execIaluXor i s).after s).kept = s.kept := by
  simp only [execIaluXor, ↓kept_ialu]

theorem kept_execIaluNot (i : Issue) (s : State) : ((execIaluNot i s).after s).kept = s.kept := by
  simp only [execIaluNot, ↓kept_ialu]

theorem kept_execIaluShl (i : Issue) (s : State) : ((execIaluShl i s).after s).kept = s.kept := by
  simp only [execIaluShl, ↓kept_ialu]

theorem kept_execIaluShr (i : Issue) (s : State) : ((execIaluShr i s).after s).kept = s.kept := by
  simp only [execIaluShr, ↓kept_ialu]

theorem kept_execIaluOnes (i : Issue) (s : State) : ((execIaluOnes i s).after s).kept = s.kept := by
  simp only [execIaluOnes, ↓kept_ialu]

theorem kept_execIaluLzc (i : Issue) (s : State) : ((execIaluLzc i s).after s).kept = s.kept := by
  simp only [execIaluLzc, ↓kept_ialu]

theorem kept_execIaluXbit (i : Issue) (s : State) : ((execIaluXbit i s).after s).kept = s.kept := by
  simp only [execIaluXbit, ↓kept_ialu]

theorem kept_execCmpf (i : Issue) (s : State) : ((execCmpf i s).after s).kept = s.kept := by
  simp only [execCmpf]
  refine kept_withInsn _ _ _ _ _ (fun a s => ?_)
  split
  · rename_i h
    obtain rfl := snd_of_eq h
    simp only [↓kept_bsrc]
  · rename_i h
    obtain rfl := snd_of_eq h
    simp only [↓kept_bsrc, ↓kept_putAt]

theorem kept_execSel (i : Issue) (s : State) : ((execSel i s).after s).kept = s.kept := by
  simp only [execSel, ↓kept_withInsn, ↓kept_arith, implies_true]

theorem kept_execFlog (i : Issue) (s : State) : ((execFlog i s).after s).kept = s.kept := by
  simp only [execFlog, ↓kept_withInsn, ↓kept_putAt, implies_true]

theorem kept_execCvt (i : Issue) (s : State) : ((execCvt i s).after s).kept = s.kept := by
  simp only [execCvt, ↓kept_withInsn, ↓kept_arith, implies_true]

theorem kept_sfu (s : State) (x : Issue) (op : Nat) : ((s.sfu x op).after s).kept = s.kept := by
  simp only [State.sfu, ↓kept_withInsn, ↓kept_arith, implies_true]

theorem kept_execRcp (i : Issue) (s : State) : ((execRcp i s).after s).kept = s.kept := by
  simp only [execRcp, ↓kept_sfu]

theorem kept_execRsq (i : Issue) (s : State) : ((execRsq i s).after s).kept = s.kept := by
  simp only [execRsq, ↓kept_sfu]

theorem kept_execSqrt (i : Issue) (s : State) : ((execSqrt i s).after s).kept = s.kept := by
  simp only [execSqrt, ↓kept_withInsn, ↓kept_arith, implies_true]

theorem kept_execEx2 (i : Issue) (s : State) : ((execEx2 i s).after s).kept = s.kept := by
  simp only [execEx2, ↓kept_sfu]

theorem kept_execLg2 (i : Issue) (s : State) : ((execLg2 i s).after s).kept = s.kept := by
  simp only [execLg2, ↓kept_sfu]

theorem kept_execSin (i : Issue) (s : State) : ((execSin i s).after s).kept = s.kept := by
  simp only [execSin, ↓kept_sfu]

theorem kept_execCos (i : Issue) (s : State) : ((execCos i s).after s).kept = s.kept := by
  simp only [execCos, ↓kept_sfu]

theorem kept_execPerm (i : Issue) (s : State) : ((execPerm i s).after s).kept = s.kept := by
  simp only [execPerm, ↓kept_withInsn, ↓kept_arith, implies_true]

theorem kept_execTally (i : Issue) (s : State) : ((execTally i s).after s).kept = s.kept := by
  simp only [execTally, ↓kept_withInsn, ↓kept_putAt, implies_true]

theorem kept_execFold (i : Issue) (s : State) : ((execFold i s).after s).kept = s.kept := by
  simp only [execFold]
  refine kept_withInsn _ _ _ _ _ (fun a s => ?_)
  split
  · rfl
  · simp only [↓kept_putAt]

theorem kept_execMovs (i : Issue) (s : State) : ((execMovs i s).after s).kept = s.kept := by
  simp only [execMovs, ↓kept_withInsn, ↓kept_putAt, implies_true]

theorem kept_pcv (s : State) (x : Issue) (op : Nat) : ((s.pcv x op).after s).kept = s.kept := by
  simp only [State.pcv]
  refine kept_withInsn _ _ _ _ _ (fun a s => ?_)
  split
  · simp only [↓kept_exc]
  · simp only [↓kept_putAt]

theorem kept_execPcvH2d (i : Issue) (s : State) : ((execPcvH2d i s).after s).kept = s.kept := by
  simp only [execPcvH2d, ↓kept_pcv]

theorem kept_execPcvD2h (i : Issue) (s : State) : ((execPcvD2h i s).after s).kept = s.kept := by
  simp only [execPcvD2h, ↓kept_pcv]

end Sys2Proof.Machine
end

section
/-! PROOFS. The queue and one-time storage under the functions of Anvil.lean: the Anvil matrix unit. -/

namespace Sys2Proof.Machine

theorem kept_mmaRun (s : State) (a : At) {k : At → State → State} (hk : ∀ a s, (k a s).kept = s.kept) : (s.mmaRun a k).kept =
  s.kept := by
  simp only [State.mmaRun]
  split
  · simp only [↓kept_exc]
  · simp only [↓hk]

theorem kept_macs (s : State) (core n : Nat) : (s.macs core n).kept = s.kept := by
  simp only [State.macs, ↓kept_countCycles, ↓kept_count64]

theorem kept_anvCount (s : State) (a : At) (sat nan : Nat) : (s.anvCount a sat nan).kept = s.kept := by
  simp only [State.anvCount, ↓kept_ite, ↓kept_countSat, ite_self]

theorem kept_execMma (i : Issue) (s : State) : ((execMma i s).after s).kept = s.kept := by
  simp only [execMma, ↓kept_withInsn, ↓kept_mmaRun, ↓kept_macs, ↓kept_putAt, implies_true]

theorem kept_execMmaX (i : Issue) (s : State) : ((execMmaX i s).after s).kept = s.kept := by
  simp only [execMmaX, ↓kept_withInsn, ↓kept_mmaRun, ↓kept_anvCount, ↓kept_macs, ↓kept_putAt, implies_true]

theorem kept_execMmaP (i : Issue) (s : State) : ((execMmaP i s).after s).kept = s.kept := by
  simp only [execMmaP, ↓kept_withInsn, ↓kept_mmaRun, ↓kept_macs, ↓kept_putAt, implies_true]

theorem kept_execOcvt (i : Issue) (s : State) : ((execOcvt i s).after s).kept = s.kept := by
  simp only [execOcvt, ↓kept_withInsn, ↓kept_anvCount, ↓kept_putAt, implies_true]

theorem kept_execUnpk (i : Issue) (s : State) : ((execUnpk i s).after s).kept = s.kept := by
  simp only [execUnpk, ↓kept_withInsn, ↓kept_putAt, implies_true]

end Sys2Proof.Machine
end

section
/-! PROOFS. The queue and one-time storage under the functions of Rails.lean: the requests for rails. -/

namespace Sys2Proof.Machine

theorem kept_railSend (s : State) : s.railSend.kept = s.kept := by
  simp only [State.railSend]
  split
  · split
    · simp only [↓kept_mk, ↓kept_pair, ↓kept_emit]
    · rfl
  · rfl

theorem kept_railAsk (s : State) (rail mv : Nat) (why : RailWhy) : (s.railAsk rail mv why).kept = s.kept := by
  simp only [State.railAsk, ↓kept_mk, ↓kept_pair, ↓kept_railSend]

theorem kept_sopUpdate (s : State) : s.sopUpdate.kept = s.kept := by
  simp only [State.sopUpdate]
  split
  · simp only [↓kept_setFld]
  · simp only [↓kept_ite, ↓kept_setFld, ↓kept_railAsk, ite_self]

theorem kept_railPoll (s : State) (word mv : Nat) (busOk : Bool) : (s.railPoll word mv busOk).2.kept = s.kept := by
  simp only [State.railPoll]
  split
  · rfl
  · simp only [↓kept_mk, ↓kept_pair, ↓kept_ite, ↓ite_snd, ↓kept_railSend]
    split
    · rfl
    · split
      · rfl
      · simp only [↓kept_mk, ↓kept_pair, ↓kept_ite, ↓ite_snd, ↓kept_emit, ite_self]

theorem kept_setPhase (s : State) (p : Nat) : (s.setPhase p).kept = s.kept := by
  simp only [State.setPhase, ↓kept_setFld]

theorem kept_pwrRefuse (s : State) (code unit : Nat) : (s.pwrRefuse code unit).kept = s.kept := by
  simp only [State.pwrRefuse, ↓kept_setFlag, ↓kept_setFld, ↓kept_countSat]

theorem kept_pwrCheck (s : State) (requester target : Nat) : (s.pwrCheck requester target).2.kept = s.kept := by
  simp only [State.pwrCheck]
  split
  · simp only [↓kept_pwrRefuse]
  · simp only [↓kept_mk, ↓kept_pair, ↓kept_setPhase, ↓kept_setFld]

theorem kept_pwrPending (s : State) : s.pwrPending.kept = s.kept := by
  simp only [State.pwrPending]
  split
  · simp only [↓kept_mk, ↓kept_pair, ↓kept_pwrCheck, ↓kept_setPhase]
  · rfl

theorem kept_pwrHeld (s : State) : s.pwrHeld.kept = s.kept := by
  simp only [State.pwrHeld, ↓kept_mk, ↓kept_pair, ↓kept_ite, ↓kept_pwrCheck, ↓kept_emit, ↓kept_pwrPending, kept_foldl, ite_self,
    implies_true]

end Sys2Proof.Machine
end

section
/-! PROOFS. The queue and one-time storage under the functions of ShaderMem.lean: memory instructions of the cores. -/

namespace Sys2Proof.Machine

theorem kept_checked (s : State) (a : At) (f : Nat → Option (Nat × Nat)) {k : State → State} (hk : ∀ s, (k s).kept = s.kept) :
    (s.checked a f k).kept = s.kept := by
  simp only [State.checked]
  split
  · simp only [↓kept_exc]
  · simp only [↓hk]

theorem kept_updGroup (s : State) (core slot : Nat) (f : Group → Group) : (s.updGroup core slot f).kept = s.kept := by
  simp only [State.updGroup]
  split
  · simp only [↓kept_putGroup]
  · rfl

theorem kept_updOp (s : State) (core slot id : Nat) (f : MemOp → MemOp) : (s.updOp core slot id f).kept = s.kept := by
  simp only [State.updOp, ↓kept_updGroup]

theorem kept_setLine (s : State) (core slot id va : Nat) (st : LineState) : (s.setLine core slot id va st).kept = s.kept := by
  simp only [State.setLine, ↓kept_updOp]

theorem kept_cutOp (s : State) (core slot id : Nat) (keep : LineReq → Bool) : (s.cutOp core slot id keep).kept = s.kept := by
  simp only [State.cutOp, ↓kept_mk, ↓kept_pair, ↓kept_updGroup]

theorem kept_hostReadTrack (s : State) (unit ctx addr len : Nat) (f : HostReadFor) :
    (s.hostReadTrack unit ctx addr len f).kept = s.kept := by
  simp only [State.hostReadTrack, ↓kept_mk, ↓kept_pair]

theorem kept_hostReadStart (s : State) (unit ctx addr len : Nat) (noSnoop : Bool) (f : HostReadFor) :
    (s.hostReadStart unit ctx addr len noSnoop f).kept = s.kept := by
  simp only [State.hostReadStart, ↓kept_hostReadTrack, ↓kept_post]

theorem kept_walkBegin (s : State) (core c va : Nat) (x : Xlat) (host : Bool) (ia : Nat) (access : AccessKind) (level addr : Nat)
    (cls : OutClass) (out : Nat) (wr ex : Bool) :
    (s.walkBegin core c va x host ia access level addr cls out wr ex).2.kept = s.kept := by
  simp only [State.walkBegin, ↓kept_mk, ↓kept_pair, ↓kept_ite, ↓kept_hostReadStart, ite_self]

theorem kept_lookup (s : State) (core c va : Nat) (access : AccessKind) : (s.lookup core c va access).2.2.kept = s.kept := by
  simp only [State.lookup]
  split
  · rfl
  · split
    · simp only [↓kept_ite, ↓ite_snd, ↓kept_xlate, ite_self]
    · split
      · rfl
      · split
        · simp only [↓kept_count64]
        · simp only [↓kept_count64]
        · simp only [↓kept_count64, ↓kept_walkBegin]

theorem kept_fixLine (s : State) (core slot : Nat) (b : Block) (o : MemOp) (l : LineReq) (x : Nat) :
    (s.fixLine core slot b o l x).kept = s.kept := by
  simp only [State.fixLine, ↓kept_ite, ↓kept_devRead, ↓kept_setLine, ↓kept_l1Put, ite_self]

theorem kept_settle (s : State) (core slot out : Nat) : (s.settle core slot out).kept = s.kept := by
  simp only [State.settle]
  split
  · rfl
  · refine kept_foldl (fun s x => ?_) _ _
    refine kept_foldl (fun s x => ?_) _ _
    split
    · simp only [↓kept_ite, ↓kept_fixLine, ite_self]
    · rfl

theorem kept_noFill (s : State) (core out : Nat) : (s.noFill core out).kept = s.kept := by
  simp only [State.noFill, ↓kept_setCore]

theorem kept_atomLane (s : State) (cls out width op : Nat) (sgn : Bool) (v v2 : Nat) :
    (s.atomLane cls out width op sgn v v2).2.kept = s.kept := by
  simp only [State.atomLane, ↓kept_ite, ↓ite_snd, ↓kept_devRead, ↓kept_devWrite, ite_self]

theorem kept_storeLine (s : State) (core slot : Nat) (b : Block) (o : MemOp) (va : Nat) (x : XOut) :
    (s.storeLine core slot b o va x).kept = s.kept := by
  simp only [State.storeLine, ↓kept_ite, ↓kept_setLine, ↓kept_unitWrote, ↓kept_post, ↓kept_updGroup, ite_self]
  split
  · simp only [↓kept_ite, ↓kept_devWrite, ↓kept_settle, ↓kept_noFill, ↓kept_l1Put, ite_self]
  · simp only [↓kept_ite, ↓kept_devWrite, ↓kept_settle, ↓kept_noFill, ite_self]

theorem kept_loadLine (s : State) (core slot : Nat) (b : Block) (o : MemOp) (va : Nat) (x : XOut) :
    (s.loadLine core slot b o va x).kept = s.kept := by
  simp only [State.loadLine, ↓ite_snd]
  split
  · simp only [↓kept_ite, ↓kept_l1Look, ↓kept_setLine, ite_self]
  · simp only [↓kept_ite, ↓kept_l1Look, ↓kept_setLine, ↓kept_hostReadStart, kept_foldl, ite_self, implies_true]

theorem kept_atomDevice (s : State) (core slot : Nat) (b : Block) (o : MemOp) (op va : Nat) (x : XOut) :
    (s.atomDevice core slot b o op va x).2.kept = s.kept := by
  simp only [State.atomDevice]
  refine kept_foldl2 (fun r s x => ?_) _ _
  simp only [↓kept_ite, ↓ite_snd]
  split
  · rfl
  · split
    · rename_i h
      obtain rfl := snd_of_eq h
      simp only [↓kept_atomLane, ↓kept_poisonFault]
    · rename_i h
      obtain rfl := snd_of_eq h
      simp only [↓kept_atomLane, ↓kept_updOp]

theorem kept_atomHost (s : State) (core slot : Nat) (b : Block) (o : MemOp) (op va : Nat) (x : XOut) :
    (s.atomHost core slot b o op va x).kept = s.kept := by
  simp only [State.atomHost, ↓kept_hostReadTrack, ↓kept_post, kept_foldl, implies_true]

theorem kept_lineGo (s : State) (core slot : Nat) (o : MemOp) (va : Nat) (x : XOut) :
    (s.lineGo core slot o va x).2.kept = s.kept := by
  simp only [State.lineGo]
  split
  · rfl
  · simp only [↓kept_ite, ↓ite_snd, ↓kept_accessFault]
    split
    · rfl
    · split
      · simp only [↓kept_storeLine]
      · simp only [↓kept_loadLine]
      · simp only [↓kept_ite, ↓ite_snd, ↓kept_l1Drop, ↓kept_settle, ↓kept_atomDevice, ↓kept_setLine, ↓kept_exc, ↓kept_noFill,
          ↓kept_atomHost, ite_self]

theorem kept_lineStep (s : State) (core slot : Nat) (b : Block) (o : MemOp) (va : Nat) (given : Option XResult) (inStep : Bool) :
    (s.lineStep core slot b o va given inStep).2.2.kept = s.kept := by
  simp only [State.lineStep]
  split
  · simp only [↓kept_setLine]
    split
    · rfl
    · simp only [↓kept_ite, ↓ite_snd, ↓kept_xlate, ↓kept_lookup, ite_self]
  · simp only [↓kept_accessFault]
    split
    · rfl
    · simp only [↓kept_ite, ↓ite_snd, ↓kept_xlate, ↓kept_lookup, ite_self]
  · simp only [↓kept_lineGo]
    split
    · rfl
    · simp only [↓kept_ite, ↓ite_snd, ↓kept_xlate, ↓kept_lookup, ite_self]

theorem kept_advanceOp (s : State) (core slot id : Nat) (given : Option XResult) (inStep : Bool) :
    (s.advanceOp core slot id given inStep).kept = s.kept := by
  simp only [State.advanceOp]
  split
  · rfl
  · split
    · rfl
    · simp only [↓kept_ite, ↓kept_cutOp, ite_self]
      refine kept_foldl4 (fun r q p s x => ?_) _ _
      dsimp only
      split
      · simp only [↓kept_ite, ↓ite_snd, ↓kept_lineStep, ite_self]
      · rfl

theorem kept_startOp (s : State) (a : At) (kind : MemKind) (width : Nat) (sext sgn : Bool) (policy dst : Nat) (lanes : List
    LaneAcc) :
    (s.startOp a kind width sext sgn policy dst lanes).kept = s.kept := by
  simp only [State.startOp, ↓kept_setCore, ↓kept_advanceOp, ↓kept_updGroup]

theorem kept_storeData (s : State) (a : At) (n : Nat) {k : (Nat → Nat) → State → State} (hk : ∀ f s, (k f s).kept = s.kept) :
    (s.storeData a n k).kept = s.kept := by
  simp only [State.storeData]
  split
  · rename_i h
    obtain rfl := snd_of_eq h
    simp only [↓kept_bwords]
  · rename_i h
    obtain rfl := snd_of_eq h
    simp only [↓kept_bwords, ↓hk]

theorem kept_execGmemLoad (i : Issue) (s : State) : ((execGmemLoad i s).after s).kept = s.kept := by
  simp only [execGmemLoad, ↓kept_withInsn, ↓kept_checked, ↓kept_startOp, implies_true]

theorem kept_execGmemStore (i : Issue) (s : State) : ((execGmemStore i s).after s).kept = s.kept := by
  simp only [execGmemStore]
  refine kept_withInsn _ _ _ _ _ (fun a s => ?_)
  simp only [↓kept_checked, ↓kept_storeData, ↓kept_startOp, implies_true]

theorem kept_smemParity (s : State) (a : At) (off : Nat) : (s.smemParity a off).kept = s.kept := by
  simp only [State.smemParity, ↓kept_contextFault, ↓kept_recC]

theorem kept_execSmemLoad (i : Issue) (s : State) : ((execSmemLoad i s).after s).kept = s.kept := by
  simp only [execSmemLoad]
  refine kept_withInsn _ _ _ _ _ (fun a s => ?_)
  refine kept_checked _ _ _ (fun s => ?_)
  split
  · simp only [↓kept_smemParity]
  · simp only [↓kept_putAt]

theorem kept_execSmemStore (i : Issue) (s : State) : ((execSmemStore i s).after s).kept = s.kept := by
  simp only [execSmemStore]
  refine kept_withInsn _ _ _ _ _ (fun a s => ?_)
  simp only [↓kept_checked, ↓kept_storeData, ↓kept_putBlock, implies_true]

theorem kept_atom (s : State) (x : Issue) (op : Nat) : ((s.atom x op).after s).kept = s.kept := by
  simp only [State.atom]
  refine kept_withInsn _ _ _ _ _ (fun a s => ?_)
  split
  · rename_i h
    obtain rfl := snd_of_eq h
    simp only [↓kept_bsrc]
  · rename_i h
    obtain rfl := snd_of_eq h
    refine (kept_checked _ _ _ (fun s => ?_)).trans ?_
    · simp only [↓kept_ite, ↓kept_startOp]
      split
      · split
        · simp only [↓kept_smemParity]
        · simp only [↓kept_putAt, ↓kept_putBlock]
      · rfl
    · simp only [↓kept_bsrc]

theorem kept_execAtomAdd (i : Issue) (s : State) : ((execAtomAdd i s).after s).kept = s.kept := by
  simp only [execAtomAdd, ↓kept_atom]

theorem kept_execAtomMin (i : Issue) (s : State) : ((execAtomMin i s).after s).kept = s.kept := by
  simp only [execAtomMin, ↓kept_atom]

theorem kept_execAtomMax (i : Issue) (s : State) : ((execAtomMax i s).after s).kept = s.kept := by
  simp only [execAtomMax, ↓kept_atom]

theorem kept_execAtomAnd (i : Issue) (s : State) : ((execAtomAnd i s).after s).kept = s.kept := by
  simp only [execAtomAnd, ↓kept_atom]

theorem kept_execAtomOr (i : Issue) (s : State) : ((execAtomOr i s).after s).kept = s.kept := by
  simp only [execAtomOr, ↓kept_atom]

theorem kept_execAtomXor (i : Issue) (s : State) : ((execAtomXor i s).after s).kept = s.kept := by
  simp only [execAtomXor, ↓kept_atom]

theorem kept_execAtomExch (i : Issue) (s : State) : ((execAtomExch i s).after s).kept = s.kept := by
  simp only [execAtomExch, ↓kept_atom]

theorem kept_execAtomCas (i : Issue) (s : State) : ((execAtomCas i s).after s).kept = s.kept := by
  simp only [execAtomCas, ↓kept_atom]

theorem kept_settleAll (s : State) (core slot : Nat) : (s.settleAll core slot).kept = s.kept := by
  simp only [State.settleAll]
  split
  · simp only [↓kept_advanceOp, kept_foldl, implies_true]
  · refine (kept_foldl (fun s x => ?_) _ _).trans ?_
    · refine kept_foldl (fun s x => ?_) _ _
      split
      · simp only [↓kept_fixLine]
      · rfl
    · simp only [↓kept_advanceOp, kept_foldl, implies_true]

theorem kept_barrierCheck (s : State) (core bs : Nat) : (s.barrierCheck core bs).kept = s.kept := by
  simp only [State.barrierCheck]
  split
  · rfl
  · simp only [↓kept_setCore]

theorem kept_excMany (s : State) (core : Nat) (code : Nat) (es : List (Nat × Nat × Nat)) :
    (s.excMany core code es).kept = s.kept := by
  simp only [State.excMany]
  split
  · rfl
  · split
    · simp only [↓kept_contextFault]
      refine kept_foldl (fun s x => ?_) _ _
      split
      · rfl
      · simp only [↓kept_excNote, ↓kept_putGroup]
    · refine kept_foldl (fun s x => ?_) _ _
      split
      · rfl
      · simp only [↓kept_excNote, ↓kept_putGroup]

theorem kept_arriveNow (s : State) (core slot n cnt : Nat) (waits : Bool) (low : Nat) :
    (s.arriveNow core slot n cnt waits low).kept = s.kept := by
  simp only [State.arriveNow]
  split
  · rfl
  · simp only [↓kept_ite, ↓kept_excMany, ↓kept_barrierCheck, ↓kept_putGroup, ↓kept_putBlock, ite_self]

theorem kept_fenceCheck (s : State) (core slot : Nat) : (s.fenceCheck core slot).kept = s.kept := by
  simp only [State.fenceCheck]
  split
  · rfl
  · split
    · simp only [↓kept_ite, ↓kept_hostReadStart, ↓kept_putGroup, ↓kept_l1Clear, ite_self]
    · simp only [↓kept_ite, ↓kept_arriveNow, ite_self]
    · rfl

theorem kept_fenceRead (s : State) (core slot : Nat) : (s.fenceRead core slot).kept = s.kept := by
  simp only [State.fenceRead, ↓kept_fenceCheck, ↓kept_updGroup]

theorem kept_blockFence (s : State) (core slot : Nat) : (s.blockFence core slot).kept = s.kept := by
  simp only [State.blockFence, ↓kept_updGroup, ↓kept_settleAll]

theorem kept_execFence (i : Issue) (s : State) : ((execFence i s).after s).kept = s.kept := by
  simp only [execFence, ↓kept_ite, ↓kept_withInsn, ↓kept_blockFence, ↓kept_fenceCheck, ↓kept_updGroup, ite_self, implies_true]

theorem kept_hostLine (s : State) (core slot : Nat) (o : MemOp) (l : LineReq) (cls : OutClass) (out : Nat) (dv : Bool) :
    (s.hostLine core slot o l cls out dv).kept = s.kept := by
  simp only [State.hostLine, ↓kept_ite, ↓kept_setLine, ↓kept_l1Put, ite_self]

theorem kept_kernelData (s : State) (core slot id key off : Nat) (data : List Byte) :
    (s.kernelData core slot id key off data).kept = s.kept := by
  simp only [State.kernelData]
  split
  · rfl
  · simp only [↓kept_fenceCheck]
    split
    · split
      · split
        · simp only [↓kept_updOp, ↓kept_hostLine]
        · simp only [↓kept_updOp]
      · simp only [↓kept_updOp]
    · simp only [↓kept_updOp]
    · rfl

theorem kept_settleLines (s : State) (core slot : Nat) (o : MemOp) : (s.settleLines core slot o).kept = s.kept := by
  simp only [State.settleLines]
  refine kept_foldl (fun s x => ?_) _ _
  split
  · simp only [↓kept_settle]
  · rfl

theorem kept_execLoadResponse (core : Fin 48) (slot : Fin 64) (op : Nat) (es : List Upset) (s : State) :
    ((execLoadResponse core slot op es s).after s).kept = s.kept := by
  simp only [execLoadResponse]
  split
  · simp only [↓after_next, ↓kept_ariseAll]
  · simp only [↓after_next, ↓after_ite, ↓kept_ite, ↓kept_ariseAll]
    split
    · rfl
    · split
      · simp only [↓after_next, ↓kept_ariseAll, ↓kept_settleLines]
      · split
        · simp only [↓after_next, ↓kept_ariseAll, ↓kept_settleLines, ↓kept_poisonFault, ↓kept_cutOp]
        · simp only [↓after_next, ↓kept_ariseAll, ↓kept_settleLines, ↓kept_fenceCheck, ↓kept_updGroup]

theorem kept_execStoreAck (core : Fin 48) (slot : Fin 64) (op : Nat) (s : State) :
    ((execStoreAck core slot op s).after s).kept = s.kept := by
  simp only [execStoreAck]
  split
  · simp only [↓after_next]
  · split
    · simp only [↓after_next]
    · simp only [↓after_next, ↓after_ite, ↓kept_ite, ↓kept_fenceCheck, ↓kept_putGroup, ite_self]

end Sys2Proof.Machine
end

section
/-! PROOFS. The queue and one-time storage under the functions of Completion.lean: the ends of kernels' blocks and of units. -/

namespace Sys2Proof.Machine

theorem kept_updKernel (s : State) (q seq : Nat) (f : Kernel → Kernel) : (s.updKernel q seq f).kept = s.kept := by
  simp only [State.updKernel, ↓kept_updUnit]

theorem kept_unitReleased (s : State) (q seq : Nat) : (s.unitReleased q seq).kept = s.kept := by
  simp only [State.unitReleased, ↓kept_mk, ↓kept_pair]

theorem kept_unitCheck (s : State) (q seq : Nat) : (s.unitCheck q seq).kept = s.kept := by
  simp only [State.unitCheck]
  split
  · rfl
  · simp only [↓kept_ite]
    split
    · rfl
    · split
      · simp only [↓kept_ite, ↓kept_endStream, ↓kept_completeUnit, ↓kept_unitReleased, ite_self]
      · rfl
      · simp only [↓kept_endStream, ↓kept_completeUnit, ↓kept_unitReleased]

theorem kept_ladleWait (s : State) (e : LadleEntry) : (s.ladleWait e).kept = s.kept := by
  simp only [State.ladleWait, ↓kept_mk, ↓kept_pair]

theorem kept_ladleDue (s : State) (e : LadleEntry) : (s.ladleDue e).kept = s.kept := by
  simp only [State.ladleDue, ↓kept_mk, ↓kept_pair, ↓kept_ite, ↓kept_ladleWait, ↓kept_updUnit, ite_self]
  split
  · simp only [↓kept_mk, ↓kept_pair, ↓kept_hostReadStart]
  · rfl

theorem kept_releaseRead (s : State) (q seq : Nat) : (s.releaseRead q seq).kept = s.kept := by
  simp only [State.releaseRead, ↓kept_mk, ↓kept_pair, ↓kept_ite, ↓kept_ladleWait, kept_foldl, ite_self, implies_true]

theorem kept_execLadlePost (e : LadleEntry) (s : State) : ((execLadlePost e s).after s).kept = s.kept := by
  simp only [execLadlePost, ↓after_next, ↓after_ite, ↓kept_mk, ↓kept_pair, ↓kept_ite, ↓kept_maxFld, ↓kept_setFld, ite_self]

theorem kept_grdRegs (s : State) (k : Nat) : (s.grdRegs k).kept = s.kept := by
  simp only [State.grdRegs, ↓kept_setFld]

theorem kept_freeScratch (s : State) (k q seq : Nat) : (s.freeScratch k q seq).kept = s.kept := by
  simp only [State.freeScratch, ↓kept_grdRegs, ↓kept_setCluster]

theorem kept_tongsRegs (s : State) (k : Nat) (rt : Bool) (t : Tongs) (state : Nat) :
    (s.tongsRegs k rt t state).kept = s.kept := by
  simp only [State.tongsRegs, ↓kept_setReg64, ↓kept_setReg]

theorem kept_tongsSettle (s : State) (k : Nat) (rt : Bool) : (s.tongsSettle k rt).kept = s.kept := by
  simp only [State.tongsSettle]
  split
  · rfl
  · simp only [↓kept_ite, ↓kept_ladleDue, ↓kept_setCluster, ite_self]

theorem kept_kernelLeaves (s : State) (q seq : Nat) : (s.kernelLeaves q seq).kept = s.kept := by
  simp only [State.kernelLeaves]
  split
  · rfl
  · simp only [↓kept_ite]
    split
    · rfl
    · refine kept_foldl (fun s x => ?_) _ _
      simp only [↓kept_ite, ↓kept_freeScratch, ite_self]
      split
      · rfl
      · refine kept_foldl (fun s x => ?_) _ _
        split
        · simp only [↓kept_ite, ↓kept_tongsSettle, ↓kept_tongsRegs, ↓kept_setCluster, ite_self]
        · rfl

theorem kept_ladleDrain (s : State) {f : LadleHeld → State → State} (hf : ∀ h s, (f h s).kept = s.kept) : (s.ladleDrain f).kept =
  s.kept := by
  simp only [State.ladleDrain]
  split
  · rfl
  · simp only [↓kept_mk, ↓kept_pair, ↓kept_setFld, ↓kept_updUnit, ↓kept_unitCheck, ↓hf]

theorem kept_blockExit (s : State) (core bs : Nat) : (s.blockExit core bs).kept = s.kept := by
  simp only [State.blockExit]
  split
  · rfl
  · simp only [↓kept_ite, ↓kept_setCore, ↓kept_updKernel, ↓kept_ladleDue, ↓kept_kernelLeaves, ite_self]

end Sys2Proof.Machine
end

section
/-! PROOFS. The queue and one-time storage under the functions of ShaderFlow.lean: control flow and barriers. -/

namespace Sys2Proof.Machine

theorem kept_execBra (i : Issue) (s : State) : ((execBra i s).after s).kept = s.kept := by
  simp only [execBra]
  refine kept_withInsn _ _ _ _ _ (fun a s => ?_)
  split
  · simp only [↓kept_putAt]
  · simp only [↓kept_exc]

theorem kept_execSplit (i : Issue) (s : State) : ((execSplit i s).after s).kept = s.kept := by
  simp only [execSplit, ↓kept_ite, ↓kept_withInsn, ↓kept_exc, ↓kept_putAt, ite_self, implies_true]

theorem kept_execJoin (i : Issue) (s : State) : ((execJoin i s).after s).kept = s.kept := by
  simp only [execJoin]
  refine kept_withInsn _ _ _ _ _ (fun a s => ?_)
  split
  · simp only [↓kept_putAt]
  · simp only [↓kept_exc]

theorem kept_execCall (i : Issue) (s : State) : ((execCall i s).after s).kept = s.kept := by
  simp only [execCall]
  refine kept_withInsn _ _ _ _ _ (fun a s => ?_)
  split
  · simp only [↓kept_putAt]
  · simp only [↓kept_exc]

theorem kept_jumpLanes (s : State) (a : At) : (s.jumpLanes a).kept = s.kept := by
  simp only [State.jumpLanes]
  split
  · simp only [↓kept_checked, implies_true]
  · simp only [↓kept_ite, ↓kept_checked, ↓kept_exc, ↓kept_putAt, ite_self, implies_true]

theorem kept_execRet (i : Issue) (s : State) : ((execRet i s).after s).kept = s.kept := by
  simp only [execRet, ↓kept_withInsn, ↓kept_jumpLanes, implies_true]

theorem kept_execJvec (i : Issue) (s : State) : ((execJvec i s).after s).kept = s.kept := by
  simp only [execJvec, ↓kept_withInsn, ↓kept_jumpLanes, implies_true]

theorem kept_execTrap (i : Issue) (s : State) : ((execTrap i s).after s).kept = s.kept := by
  simp only [execTrap, ↓kept_withInsn, ↓kept_exc, implies_true]

theorem kept_execYield (i : Issue) (s : State) : ((execYield i s).after s).kept = s.kept := by
  simp only [execYield, ↓kept_withInsn, ↓kept_putAt, implies_true]

theorem kept_execYieldExpire (core : Fin 48) (slot : Fin 64) (s : State) :
    ((execYieldExpire core slot s).after s).kept = s.kept := by
  simp only [execYieldExpire, ↓after_next, ↓kept_updGroup]

theorem kept_arrive (s : State) (x : Issue) (wait : Bool) : ((s.arrive x wait).after s).kept = s.kept := by
  simp only [State.arrive, ↓kept_ite, ↓kept_withInsn, ↓kept_excMany, ↓kept_fenceCheck, ↓kept_settleAll, ↓kept_putAt, ite_self,
    implies_true]

theorem kept_execWaitb (i : Issue) (s : State) : ((execWaitb i s).after s).kept = s.kept := by
  simp only [execWaitb, ↓kept_arrive]

theorem kept_execMarkb (i : Issue) (s : State) : ((execMarkb i s).after s).kept = s.kept := by
  simp only [execMarkb, ↓kept_arrive]

theorem kept_execBarrierDeadlock (core : Fin 48) (bs : Fin 32) (s : State) :
    ((execBarrierDeadlock core bs s).after s).kept = s.kept := by
  simp only [execBarrierDeadlock]
  split
  · simp only [↓after_next]
  · simp only [↓after_next, ↓after_ite, ↓kept_ite, ↓kept_excMany, ite_self]

theorem kept_groupEnd (s : State) (core slot : Nat) {f : Nat → Nat → State → State} (hf : ∀ c n s, (f c n s).kept = s.kept) :
    (s.groupEnd core slot f).kept = s.kept := by
  simp only [State.groupEnd]
  split
  · simp only [↓kept_settleAll]
  · simp only [↓kept_mk, ↓kept_pair, ↓kept_ite, ↓kept_setCore, ↓kept_blockExit, ↓kept_barrierCheck, ite_self, ↓hf]
    split
    · simp only [↓kept_settleAll, ↓kept_unitWrote]
    · simp only [↓kept_settleAll]

theorem kept_exitLanes (s : State) (a : At) {f : Nat → Nat → State → State} (hf : ∀ c n s, (f c n s).kept = s.kept) :
    (s.exitLanes a f).kept = s.kept := by
  simp only [State.exitLanes, ↓kept_ite, ↓kept_groupEnd, ↓kept_putAt, implies_true, ↓hf]
  split
  · rfl
  · split
    · rfl
    · split
      · simp only [↓kept_putAt]
      · simp only [↓kept_exc]

end Sys2Proof.Machine
end

section
/-! PROOFS. The queue and one-time storage under the functions of Griddle.lean: the Griddle. -/

namespace Sys2Proof.Machine

theorem kept_grdMeet (s : State) (k c off n : Nat) : (s.grdMeet k c off n).2.kept = s.kept := by
  simp only [State.grdMeet]
  split
  · simp only [↓kept_setCluster, ↓kept_rec0, ↓kept_countSat, ↓kept_recC, kept_foldl, implies_true]
  · simp only [↓kept_setCluster, ↓kept_rec0, ↓kept_countSat, kept_foldl, implies_true]

theorem kept_grdWipe (s : State) (k off n : Nat) : (s.grdWipe k off n).kept = s.kept := by
  simp only [State.grdWipe, ↓kept_ite, ↓kept_setCluster, ite_self]

theorem kept_updScratch (s : State) (k q seq : Nat) (f : Scratch → Scratch) : (s.updScratch k q seq f).kept = s.kept := by
  simp only [State.updScratch, ↓kept_setCluster]

theorem kept_ringWake (s : State) (k q seq : Nat) : (s.ringWake k q seq).kept = s.kept := by
  simp only [State.ringWake]
  split
  · rfl
  · split
    · simp only [↓kept_setCore, kept_foldl, implies_true]
    · simp only [↓kept_ite, ↓kept_setCore, ↓kept_tongsRegs, ↓kept_setCluster, kept_foldl, ite_self, implies_true]

theorem kept_grdSet (s : State) (a : At) (off : Nat) (v : Byte) : (s.grdSet a off v).kept = s.kept := by
  simp only [State.grdSet]
  split
  · split
    · simp only [↓kept_putBlock]
    · rfl
  · simp only [↓kept_updScratch]

theorem kept_grdAccess (s : State) (a : At) {k : GrdTarget → State → State} (hk : ∀ t s, (k t s).kept = s.kept) : (s.grdAccess a
  k).kept = s.kept := by
  simp only [State.grdAccess]
  split
  · simp only [↓kept_exc]
  · simp only [↓kept_checked, implies_true, ↓hk]

theorem kept_grdLanes (s : State) (a : At) (t : GrdTarget) (n : Nat) : (s.grdLanes a t n).2.kept = s.kept := by
  simp only [State.grdLanes, ↓kept_ite, ↓ite_snd, ↓kept_grdMeet, kept_foldl2, ite_self, implies_true]

theorem kept_execGld (i : Issue) (es : List Upset) (s : State) : ((execGld i es s).after s).kept = s.kept := by
  simp only [execGld]
  refine (kept_withInsn _ _ _ _ _ (fun a s => ?_)).trans ?_
  · refine kept_grdAccess _ _ (fun t s => ?_)
    split
    · rename_i h
      obtain rfl := snd_of_eq h
      simp only [↓kept_grdLanes, ↓kept_contextFault]
    · rename_i h
      obtain rfl := snd_of_eq h
      simp only [↓kept_grdLanes, ↓kept_putAt]
  · simp only [↓kept_ariseAll]

theorem kept_execGst (i : Issue) (s : State) : ((execGst i s).after s).kept = s.kept := by
  simp only [execGst]
  refine kept_withInsn _ _ _ _ _ (fun a s => ?_)
  refine kept_grdAccess _ _ (fun t s => ?_)
  simp only [↓kept_grdSet, ↓kept_grdWipe, kept_foldl, implies_true]

theorem kept_credit (s : State) (a : At) {k : Bool → Nat → Nat → Ring → Nat → State → State} (hk : ∀ i n c r v s, (k i n c r v
  s).kept = s.kept) :
    (s.credit a k).kept = s.kept := by
  simp only [State.credit]
  split
  · simp only [↓hk]
  · simp only [↓kept_exc]

theorem kept_execCwait (i : Issue) (s : State) : ((execCwait i s).after s).kept = s.kept := by
  simp only [execCwait, ↓kept_ite, ↓kept_withInsn, ↓kept_credit, ↓kept_exc, ↓kept_putAt, ite_self, implies_true]

theorem kept_putRing (s : State) (k q seq b : Nat) (r : Ring) : (s.putRing k q seq b r).kept = s.kept := by
  simp only [State.putRing, ↓kept_ringWake, ↓kept_updScratch]

theorem kept_creditAdd (s : State) (a : At) (inb : Bool) (n count : Nat) (r : Ring) (sl : Nat) :
    (s.creditAdd a inb n count r sl).kept = s.kept := by
  simp only [State.creditAdd, ↓kept_ite, ↓kept_exc, ↓kept_putRing, ite_self]

theorem kept_execCrel (i : Issue) (s : State) : ((execCrel i s).after s).kept = s.kept := by
  simp only [execCrel, ↓kept_ite, ↓kept_withInsn, ↓kept_credit, ↓kept_creditAdd, ↓kept_exc, ite_self, implies_true]

theorem kept_execCpost (i : Issue) (s : State) : ((execCpost i s).after s).kept = s.kept := by
  simp only [execCpost, ↓kept_ite, ↓kept_withInsn, ↓kept_credit, ↓kept_exc, ↓kept_creditAdd, ite_self, implies_true]

theorem kept_execCqry (i : Issue) (s : State) : ((execCqry i s).after s).kept = s.kept := by
  simp only [execCqry, ↓kept_withInsn, ↓kept_credit, ↓kept_putAt, implies_true]

theorem kept_regionApply (s : State) (k : Nat) : (s.regionApply k).kept = s.kept := by
  simp only [State.regionApply]
  split
  · rfl
  · simp only [↓kept_ite, ↓kept_clearFlag, ↓kept_setCluster, ite_self]

theorem kept_execGrdRegionWrite (k : Fin 12) (v : Word) (s : State) : ((execGrdRegionWrite k v s).after s).kept = s.kept := by
  simp only [execGrdRegionWrite, ↓after_next, ↓after_ite, ↓kept_ite, ↓kept_setFlag, ↓kept_setReg, ↓kept_setCluster, ite_self]

theorem kept_execGrdRegionApply (k : Fin 12) (s : State) : ((execGrdRegionApply k s).after s).kept = s.kept := by
  simp only [execGrdRegionApply, ↓after_next, ↓kept_regionApply]

end Sys2Proof.Machine
end

section
/-! PROOFS. The queue and one-time storage under the functions of Tongs.lean: the Tongs engines. -/

namespace Sys2Proof.Machine

theorem kept_putTongs (s : State) (k : Nat) (rt : Bool) (t : Tongs) : (s.putTongs k rt t).kept = s.kept := by
  simp only [State.putTongs, ↓kept_ite, ↓kept_tongsRegs, ↓kept_setCluster, ↓kept_kernelLeaves, ↓kept_tongsSettle, ite_self]

theorem kept_tongsFault (s : State) (k : Nat) (rt : Bool) (t : Tongs) : (s.tongsFault k rt t).kept = s.kept := by
  simp only [State.tongsFault, ↓kept_recC, ↓kept_tongsRegs, ↓kept_contextFault]

theorem kept_withTongs {d : State} (s : State) (k : Nat) (rt : Bool) (cmd : TongsCmd) (op : Nat) {f : Tongs → State → Option
  (Tongs × State)}
    (hf : ∀ t s x, f t s = some x → x.2.kept = s.kept) : ((s.withTongs k rt cmd op f).after d).kept = s.kept := by
  unfold State.withTongs
  obtain ⟨rawRead, er⟩ : ∃ f, f = State.rawRead := ⟨_, rfl⟩
  have hr := kept_rawRead
  rw [← er] at hr ⊢
  split
  · exact rfl
  split
  · rfl
  extract_lets fu
  split
  · exact (kept_accessFault ..).trans ((kept_tongsRegs ..).trans (kept_snd3 ‹_› (hr ..)))
  · exact (kept_poisonFault ..).trans ((kept_tongsRegs ..).trans (kept_snd3 ‹_› (hr ..)))
  have h1 := kept_snd3 ‹_› (hr ..)
  split
  · rfl
  split
  · exact (kept_tongsFault ..).trans h1
  split
  · exact (kept_tongsFault ..).trans h1
  · exact (kept_putTongs ..).trans ((hf _ _ _ ‹_›).trans h1)

theorem kept_execTongsNop (k : Fin 12) (rt : Bool) (cmd : TongsCmd) (s : State) : ((execTongsNop k rt cmd s).after s).kept =
  s.kept := by
  refine kept_withTongs _ _ _ _ _ (fun t s x h => ?_)
  obtain rfl := Option.some.inj h
  rfl

theorem kept_execTongsSeta (k : Fin 12) (rt : Bool) (cmd : TongsCmd) (s : State) : ((execTongsSeta k rt cmd s).after s).kept =
  s.kept := by
  refine kept_withTongs _ _ _ _ _ (fun t s x h => ?_)
  obtain rfl := Option.some.inj h
  rfl

theorem kept_execTongsAdda (k : Fin 12) (rt : Bool) (cmd : TongsCmd) (s : State) : ((execTongsAdda k rt cmd s).after s).kept =
  s.kept := by
  refine kept_withTongs _ _ _ _ _ (fun t s x h => ?_)
  obtain rfl := Option.some.inj h
  rfl

theorem kept_execTongsAddr (k : Fin 12) (rt : Bool) (cmd : TongsCmd) (s : State) : ((execTongsAddr k rt cmd s).after s).kept =
  s.kept := by
  refine kept_withTongs _ _ _ _ _ (fun t s x h => ?_)
  obtain rfl := Option.some.inj h
  rfl

theorem kept_execTongsLoop (k : Fin 12) (rt : Bool) (cmd : TongsCmd) (s : State) : ((execTongsLoop k rt cmd s).after s).kept =
  s.kept := by
  refine kept_withTongs _ _ _ _ _ (fun t s x h => ?_)
  split at h
  · exact nomatch h
  · obtain rfl := Option.some.inj h
    rfl

theorem kept_execTongsEndl (k : Fin 12) (rt : Bool) (cmd : TongsCmd) (s : State) : ((execTongsEndl k rt cmd s).after s).kept =
  s.kept := by
  refine kept_withTongs _ _ _ _ _ (fun t s x h => ?_)
  dsimp only at h
  split at h
  · exact nomatch h
  split at h <;> obtain rfl := Option.some.inj h <;> rfl

theorem kept_settleRing (s : State) (k : Nat) (t : Tongs) (b : Nat) : (s.settleRing k t b).kept = s.kept := by
  simp only [State.settleRing]
  split
  · rfl
  · simp only [↓kept_ite, ↓kept_putRing, ite_self]

theorem kept_ringCopy {d : State} (s : State) (k : Nat) (rt : Bool) (cmd : TongsCmd) (inbound : Bool) :
    ((s.ringCopy k rt cmd inbound).after d).kept = s.kept := by
  refine kept_withTongs _ _ _ _ _ (fun t s x h => ?_)
  dsimp only at h
  split at h
  · cases h
  rw [ite_eq_iff] at h
  obtain ⟨-, h⟩ | ⟨-, h⟩ := h
  · cases h
  rw [ite_eq_iff] at h
  obtain ⟨-, h⟩ | ⟨-, h⟩ := h
  · obtain rfl := Option.some.inj h
    rfl
  · obtain rfl := Option.some.inj h
    exact kept_putRing ..

theorem kept_execTongsFill (k : Fin 12) (rt : Bool) (cmd : TongsCmd) (s : State) :
    ((execTongsFill k rt cmd s).after s).kept = s.kept := by
  simp only [execTongsFill, ↓kept_ringCopy]

theorem kept_execTongsDrain (k : Fin 12) (rt : Bool) (cmd : TongsCmd) (s : State) :
    ((execTongsDrain k rt cmd s).after s).kept = s.kept := by
  simp only [execTongsDrain, ↓kept_ringCopy]

theorem kept_plainCopy {d : State} (s : State) (k : Nat) (rt : Bool) (cmd : TongsCmd) (toGrd : Bool) :
    ((s.plainCopy k rt cmd toGrd).after d).kept = s.kept := by
  refine kept_withTongs _ _ _ _ _ (fun t s x h => ?_)
  dsimp only at h
  split at h
  · exact nomatch h
  split at h
  · exact nomatch h
  · obtain rfl := Option.some.inj h
    rfl

theorem kept_execTongsGload (k : Fin 12) (rt : Bool) (cmd : TongsCmd) (s : State) :
    ((execTongsGload k rt cmd s).after s).kept = s.kept := by
  simp only [execTongsGload, ↓kept_plainCopy]

theorem kept_execTongsGstore (k : Fin 12) (rt : Bool) (cmd : TongsCmd) (s : State) :
    ((execTongsGstore k rt cmd s).after s).kept = s.kept := by
  simp only [execTongsGstore, ↓kept_plainCopy]

theorem kept_execTongsFence (k : Fin 12) (rt : Bool) (cmd : TongsCmd) (s : State) : ((execTongsFence k rt cmd s).after s).kept =
  s.kept := by
  refine kept_withTongs _ _ _ _ _ (fun t s x h => ?_)
  obtain rfl := Option.some.inj h
  rfl

theorem kept_execTongsEnd (k : Fin 12) (rt : Bool) (cmd : TongsCmd) (s : State) : ((execTongsEnd k rt cmd s).after s).kept =
  s.kept := by
  refine kept_withTongs _ _ _ _ _ (fun t s x h => ?_)
  obtain rfl := Option.some.inj h
  rfl

theorem kept_copyRow (s : State) (k : Nat) (rt : Bool) (t : Tongs) (c : TongsCopy) (i : Nat) :
    (s.copyRow k rt t c i).2.kept = s.kept := by
  simp only [State.copyRow, ↓kept_ite, ↓ite_snd]
  split
  · split
    · rename_i h
      obtain rfl := snd_of_eq h
      simp only [↓kept_vread, ↓kept_accessFault, ↓kept_tongsRegs]
    · rename_i h
      obtain rfl := snd_of_eq h
      simp only [↓kept_vread, ↓kept_tongsRegs, ↓kept_poisonFault]
    · rename_i h
      obtain rfl := snd_of_eq h
      simp only [↓kept_vread, ↓kept_grdWipe, ↓kept_updScratch]
  · split
    · rename_i h
      obtain rfl := snd_of_eq h
      simp only [↓kept_tongsRegs, ↓kept_grdMeet, ↓kept_contextFault]
    · rename_i h
      obtain rfl := snd_of_eq h
      split
      · rename_i h
        obtain rfl := snd_of_eq h
        simp only [↓kept_accessFault, ↓kept_tongsRegs, ↓kept_grdMeet, ↓kept_vwriteBy]
      · rename_i h
        obtain rfl := snd_of_eq h
        simp only [↓kept_grdMeet, ↓kept_vwriteBy]

theorem copyRow_some {s : State} {k : Nat} {rt : Bool} {t : Tongs} {c : TongsCopy} {i : Nat} {v u : State}
    (h : s.copyRow k rt t c i = (some v, u)) : v = u := by
  unfold State.copyRow at h
  extract_lets va goff fu at h
  split at h
  · split at h
    · cases h
    · cases h
    · cases h
      rfl
  · split at h
    · cases h
    extract_lets bs at h
    split at h
    · cases h
    · cases h
      rfl

theorem kept_copyRows (s : State) (k : Nat) (rt : Bool) (t : Tongs) (c : TongsCopy) : (s.copyRows k rt t c).2.kept = s.kept := by
  unfold State.copyRows
  refine kept_foldl2 (fun ok s i => ?_) _ _
  dsimp only
  split
  · rfl
  split
  · rename_i h
    obtain rfl := copyRow_some h
    exact kept_snd h (kept_copyRow ..)
  · exact kept_snd ‹_› (kept_copyRow ..)

theorem kept_execTongsCopyComplete (k : Fin 12) (rt : Bool) (id : Nat) (s : State) :
    ((execTongsCopyComplete k rt id s).after s).kept = s.kept := by
  simp only [execTongsCopyComplete]
  split
  · simp only [↓after_next]
  · split
    · simp only [↓after_next]
    · simp only [↓after_next, ↓after_ite, ↓kept_ite, ↓kept_copyRows]
      split
      · rfl
      · split
        · rfl
        · split
          · simp only [↓after_next, ↓kept_copyRows, ↓kept_count64, ↓kept_settleRing, ↓kept_setCluster, ↓kept_putTongs]
          · simp only [↓after_next, ↓kept_copyRows, ↓kept_count64, ↓kept_settleRing, ↓kept_setCluster]

theorem kept_tongsStart (s : State) (k : Nat) (rt : Bool) (q seq ctx : Nat) (kn : Kernel) :
    (s.tongsStart k rt q seq ctx kn).kept = s.kept := by
  simp only [State.tongsStart, ↓kept_ite, ↓kept_putTongs, ite_self]

theorem kept_swapExtent (s : State) (x : Slot) (k ord : Nat) (e : Extent) (out : Bool) :
    (s.swapExtent x k ord e out).2.kept = s.kept := by
  simp only [State.swapExtent, ↓kept_ite, ↓ite_snd]
  split
  · split
    · rename_i h
      obtain rfl := snd_of_eq h
      simp only [↓kept_grdMeet, ↓kept_contextFault]
    · rename_i h
      obtain rfl := snd_of_eq h
      split
      · rename_i h
        obtain rfl := snd_of_eq h
        simp only [↓kept_grdMeet, ↓kept_vwrite, ↓kept_accessFault]
      · rename_i h
        obtain rfl := snd_of_eq h
        simp only [↓kept_mk, ↓kept_pair, ↓kept_grdMeet, ↓kept_vwrite, ↓kept_count64]
  · split
    · rename_i h
      obtain rfl := snd_of_eq h
      simp only [↓kept_accessFault, ↓kept_vread]
    · rename_i h
      obtain rfl := snd_of_eq h
      simp only [↓kept_vread, ↓kept_poisonFault]
    · rename_i h
      obtain rfl := snd_of_eq h
      simp only [↓kept_count64, ↓kept_vread, ↓kept_setCluster, ↓kept_grdWipe]

theorem kept_swapSlot (s : State) (x : Slot) (out : Bool) : (s.swapSlot x out).2.kept = s.kept := by
  simp only [State.swapSlot, ↓kept_ite, ↓ite_snd, ↓kept_swapExtent, kept_foldl2, ite_self, implies_true]

theorem kept_swapIn (s : State) (slot : Nat) : (s.swapIn slot).kept = s.kept := by
  simp only [State.swapIn]
  split
  · rfl
  · simp only [↓kept_mk, ↓kept_pair, ↓kept_ite, ↓ite_snd, ↓kept_swapSlot, ↓kept_slotRegs, kept_foldl2, ite_self, implies_true]

theorem kept_execStepBoundary (q : Fin 64) (s : State) : ((execStepBoundary q s).after s).kept = s.kept := by
  simp only [execStepBoundary, ↓after_next, ↓kept_stepBoundary, ↓kept_swapIn, implies_true]

end Sys2Proof.Machine
end

section
/-! PROOFS. The queue and one-time storage under the functions of Copy.lean: L2 maintenance and the copy engine. -/

namespace Sys2Proof.Machine

theorem kept_maintRegs (s : State) : s.maintRegs.kept = s.kept := by
  simp only [State.maintRegs, ↓kept_setFld]

theorem kept_maintAdd (s : State) (m : L2Maint) : (s.maintAdd m).kept = s.kept := by
  simp only [State.maintAdd, ↓kept_mk, ↓kept_pair, ↓kept_maintRegs]

theorem kept_maintCmd (s : State) (v : Word) : (s.maintCmd v).kept = s.kept := by
  simp only [State.maintCmd, ↓kept_ite, ↓kept_setReg, ↓kept_setFlag, ↓kept_maintAdd, ite_self]

theorem kept_maintRow (s : State) (v : Word) (op : Nat) : ((s.maintRow v op).after s).kept = s.kept := by
  simp only [State.maintRow, ↓after_next, ↓after_ite, ↓kept_ite, ↓kept_maintCmd, ite_self]

theorem kept_execL2FlushAll (v : Word) (s : State) : ((execL2FlushAll v s).after s).kept = s.kept := by
  simp only [execL2FlushAll, ↓kept_maintRow]

theorem kept_execL2FlushInvalAll (v : Word) (s : State) : ((execL2FlushInvalAll v s).after s).kept = s.kept := by
  simp only [execL2FlushInvalAll, ↓kept_maintRow]

theorem kept_execL2FlushRange (v : Word) (s : State) : ((execL2FlushRange v s).after s).kept = s.kept := by
  simp only [execL2FlushRange, ↓kept_maintRow]

theorem kept_execL2FlushInvalRange (v : Word) (s : State) : ((execL2FlushInvalRange v s).after s).kept = s.kept := by
  simp only [execL2FlushInvalRange, ↓kept_maintRow]

theorem kept_execL2InvalRange (v : Word) (s : State) : ((execL2InvalRange v s).after s).kept = s.kept := by
  simp only [execL2InvalRange, ↓kept_maintRow]

theorem kept_execL2ZeroRange (v : Word) (s : State) : ((execL2ZeroRange v s).after s).kept = s.kept := by
  simp only [execL2ZeroRange, ↓kept_maintRow]

theorem kept_execL2cWaymaskWrite (c : Fin 16) (v : Word) (s : State) : ((execL2cWaymaskWrite c v s).after s).kept = s.kept := by
  simp only [execL2cWaymaskWrite, ↓after_next, ↓after_ite, ↓kept_mk, ↓kept_pair, ↓kept_ite, ↓kept_setReg, ↓kept_setFlag, ite_self]

theorem kept_execL2MaintComplete (s : State) : ((execL2MaintComplete s).after s).kept = s.kept := by
  simp only [execL2MaintComplete]
  split
  · simp only [↓after_next]
  · simp only [↓after_next, ↓after_ite, ↓kept_ite, ↓kept_maskLeft]
    split
    · rfl
    · split
      · simp only [↓kept_mk, ↓kept_pair, ↓kept_l2Do, ↓kept_maintRegs, ↓kept_setFlag]
      · simp only [↓kept_mk, ↓kept_pair, ↓kept_ite, ↓kept_l2Do, ↓kept_maintRegs, ↓kept_ladleDue, ite_self]

theorem kept_maintPages (s : State) (c op va lines q seq : Nat) : (s.maintPages c op va lines q seq).2.2.kept = s.kept := by
  simp only [State.maintPages]
  refine kept_foldl3 (fun r q s x => ?_) _ _
  dsimp only
  split
  · rfl
  · split
    · rename_i h
      obtain rfl := snd_of_eq h
      simp only [↓kept_xlate]
    · rename_i h
      obtain rfl := snd_of_eq h
      split
      · simp only [↓ite_snd, ↓kept_xlate, ite_self]
      · simp only [↓kept_xlate]

theorem kept_execL2Maint (p : Pkt) (s : State) : ((execL2Maint p s).after s).kept = s.kept := by
  simp only [execL2Maint]
  refine kept_withUnit _ _ _ _ _ _ (fun u s => ?_) (fun u ptr s => ?_)
  · rfl
  · simp only [↓kept_ite, ↓kept_maintAdd]
    split
    · rfl
    · split
      · rename_i h
        obtain rfl := snd2_of_eq h
        simp only [↓kept_maintPages, ↓kept_accessFault]
      · rename_i h
        obtain rfl := snd2_of_eq h
        simp only [↓kept_maintPages, ↓kept_ladleDue]
      · rename_i h
        obtain rfl := snd2_of_eq h
        simp only [↓kept_maintAdd, ↓kept_maintPages, kept_foldl, implies_true]

theorem kept_cpyRead (s : State) (c : Option (Nat × Nat × Nat)) (a n : Nat) : (s.cpyRead c a n).2.kept = s.kept := by
  simp only [State.cpyRead]
  split
  · simp only [↓kept_vread]
  · simp only [↓kept_devRead]

theorem kept_cpyWrite (s : State) (c : Option (Nat × Nat × Nat)) (a : Nat) (bs : List Byte) :
    (s.cpyWrite c a bs).2.kept = s.kept := by
  simp only [State.cpyWrite]
  split
  · simp only [↓kept_vwriteBy]
  · simp only [↓kept_devWrite]

theorem kept_cpyRow (s : State) (c : Option (Nat × Nat × Nat)) (a : Nat) (bs : List Byte) (down : Bool) :
    (s.cpyRow c a bs down).2.kept = s.kept := by
  simp only [State.cpyRow]
  refine kept_foldl2 (fun r s x => ?_) _ _
  dsimp only
  split
  · split
    · rename_i h
      obtain rfl := snd_of_eq h
      simp only [↓kept_cpyWrite]
    · rename_i h
      obtain rfl := snd_of_eq h
      simp only [↓kept_cpyWrite, ↓kept_count64]
  · rfl

theorem kept_cpyRun (s : State) (c : Option (Nat × Nat × Nat)) (o : CopyOp) : (s.cpyRun c o).2.kept = s.kept := by
  simp only [State.cpyRun, ↓kept_ite, ↓ite_snd]
  split
  · refine kept_foldl2 (fun r s x => ?_) _ _
    dsimp only
    split
    · simp only [↓kept_cpyRow]
    · rfl
  · split
    · rfl
    · refine kept_foldl2 (fun r s x => ?_) _ _
      dsimp only
      split
      · split
        · rename_i h
          obtain rfl := snd_of_eq h
          simp only [↓kept_cpyRead]
        · rename_i h
          obtain rfl := snd_of_eq h
          simp only [↓kept_cpyRead]
        · rename_i h
          obtain rfl := snd_of_eq h
          simp only [↓kept_cpyRow, ↓kept_cpyRead]
      · rfl

theorem kept_copyArb (s : State) (n : Nat) : (s.copyArb n).kept = s.kept := by
  induction n generalizing s with
  | zero => rfl
  | succ n ih =>
    simp only [State.copyArb]
    split
    · simp only [↓kept_mk, ↓kept_pair, ih]
    · rfl

theorem kept_copyPkt (s : State) (p : Pkt) (fill : Bool) : ((s.copyPkt p fill).after s).kept = s.kept := by
  simp only [State.copyPkt, ↓kept_mk, ↓kept_pair, ↓kept_withUnit, ↓kept_copyArb, implies_true]

theorem kept_execCopy (p : Pkt) (s : State) : ((execCopy p s).after s).kept = s.kept := by
  simp only [execCopy, ↓kept_copyPkt]

theorem kept_execCopyFill (p : Pkt) (s : State) : ((execCopyFill p s).after s).kept = s.kept := by
  simp only [execCopyFill, ↓kept_copyPkt]

theorem kept_cpyCmd (s : State) (v : Word) : (s.cpyCmd v).kept = s.kept := by
  simp only [State.cpyCmd, ↓kept_mk, ↓kept_pair, ↓kept_ite, ↓kept_setReg, ↓kept_setFld, ↓kept_setFlag, ite_self]

theorem kept_execCpyCopy (v : Word) (s : State) : ((execCpyCopy v s).after s).kept = s.kept := by
  simp only [execCpyCopy, ↓after_next, ↓after_ite, ↓kept_ite, ↓kept_cpyCmd, ite_self]

theorem kept_execCpyFill (v : Word) (s : State) : ((execCpyFill v s).after s).kept = s.kept := by
  simp only [execCpyFill, ↓after_next, ↓after_ite, ↓kept_ite, ↓kept_cpyCmd, ite_self]

theorem kept_execCopyComplete (ch : Fin 5) (s : State) : ((execCopyComplete ch s).after s).kept = s.kept := by
  simp only [execCopyComplete]
  split
  · simp only [↓after_next, ↓kept_copyArb]
  · simp only [↓after_next, ↓after_ite, ↓kept_ite, ↓kept_copyArb]
    split
    · rfl
    · split
      · split
        · simp only [↓after_next, ↓kept_mk, ↓kept_pair, ↓kept_copyArb, ↓kept_cpyRun, ↓kept_clearFlag, ↓kept_setFlag]
        · simp only [↓after_next, ↓kept_mk, ↓kept_pair, ↓kept_copyArb, ↓kept_cpyRun, ↓kept_clearFlag, ↓kept_setFlag,
            ↓kept_countSat, ↓kept_rec0]
        · simp only [↓after_next, ↓kept_mk, ↓kept_pair, ↓kept_copyArb, ↓kept_cpyRun, ↓kept_clearFlag, ↓kept_setFlag]
      · split
        · simp only [↓kept_mk, ↓kept_pair, ↓kept_copyArb, ↓kept_cpyRun, ↓kept_ladleDue]
        · simp only [↓kept_mk, ↓kept_pair, ↓kept_copyArb, ↓kept_cpyRun, ↓kept_accessFault]
        · simp only [↓kept_mk, ↓kept_pair, ↓kept_copyArb, ↓kept_cpyRun, ↓kept_poisonFault]

theorem kept_execCopySuspend (q : Fin 64) (s : State) : ((execCopySuspend q s).after s).kept = s.kept := by
  simp only [execCopySuspend, ↓after_next, ↓after_ite, ↓kept_ite, ↓kept_copyArb]
  split
  · rfl
  · split
    · simp only [↓after_next, ↓kept_copyArb]
    · simp only [↓after_next, ↓kept_mk, ↓kept_pair, ↓kept_copyArb]

end Sys2Proof.Machine
end

section
/-! PROOFS. The queue and one-time storage under the functions of Sched.lean: scheduling. -/

namespace Sys2Proof.Machine

theorem kept_chargeCtx (s : State) (c part : Nat) : (s.chargeCtx c part).kept = s.kept := by
  simp only [State.chargeCtx]
  split
  · rfl
  · simp only [↓kept_mk, ↓kept_pair, ↓kept_count64]

theorem kept_charge (s : State) (k q num den : Nat) (gfx : Bool) : (s.charge k q num den gfx).kept = s.kept := by
  simp only [State.charge]
  split
  · rfl
  · simp only [↓kept_ite, ↓kept_setQueue, ↓kept_count64, ↓kept_chargeCtx, ↓kept_setCluster, ite_self]

theorem kept_chargeCores (s : State) : s.chargeCores.kept = s.kept := by
  simp only [State.chargeCores]
  refine (kept_foldl (fun s x => ?_) _ _).trans ?_
  · simp only [↓kept_ite]
    split
    · split
      · simp only [↓kept_charge]
      · rfl
    · rfl
  · simp only [↓kept_ite, ↓kept_charge, kept_foldl, ite_self, implies_true]

theorem kept_chargeCopies (s : State) : s.chargeCopies.kept = s.kept := by
  simp only [State.chargeCopies]
  refine kept_foldl (fun s x => ?_) _ _
  split
  · rfl
  · simp only [↓kept_count64, ↓kept_setQueue]

theorem kept_a1Exit (s : State) : s.a1Exit.kept = s.kept := by
  simp only [State.a1Exit, ↓kept_ite, ↓kept_setFld, ↓kept_clearFlag, ite_self]

theorem kept_drainInflight (s : State) (ch : Nat) : (s.drainInflight ch).kept = s.kept := by
  simp only [State.drainInflight, ↓kept_ite, ↓kept_drawNat, ↓kept_setFld, ite_self]

theorem kept_tickCounters (s : State) : s.tickCounters.kept = s.kept := by
  simp only [State.tickCounters, ↓kept_ite, ↓kept_drainInflight, ↓kept_countCycles, kept_foldl, ite_self, implies_true]

theorem kept_execTimeBaseTick (s : State) : ((execTimeBaseTick s).after s).kept = s.kept := by
  simp only [execTimeBaseTick, ↓after_next, ↓after_ite, ↓kept_mk, ↓kept_pair, ↓kept_ite, ↓kept_a1Exit, ↓kept_tickCounters,
    ↓kept_chargeCopies, ↓kept_chargeCores, ite_self]

theorem kept_placeSync (s : State) : s.placeSync.kept = s.kept := by
  simp only [State.placeSync]
  refine kept_foldl (fun s x => ?_) _ _
  split
  · rfl
  · simp only [↓kept_ite, ↓kept_setQueue, ite_self]

theorem kept_execDispatch (p : Pkt) (s : State) : ((execDispatch p s).after s).kept = s.kept := by
  simp only [execDispatch, ↓kept_withUnit, implies_true]

theorem kept_launchFault (s : State) (q seq c : Nat) : (s.launchFault q seq c).kept = s.kept := by
  simp only [State.launchFault, ↓kept_contextFault, ↓kept_recC]

theorem kept_endAtStart (s : State) (q : Nat) (w : WorkUnit) (outcome code : Nat) :
    (s.endAtStart q w outcome code).kept = s.kept := by
  simp only [State.endAtStart]
  split
  · rfl
  · simp only [↓kept_ite, ↓kept_updUnit, ↓kept_setQueue, ↓kept_passMark, ↓kept_updStatus, ↓kept_endStream, ↓kept_completeUnit,
      ite_self]

theorem kept_cpFail (s : State) (c : Nat) (f : Option VFail) (pa : Option Nat) (fu : Option (Nat × Nat)) :
    (s.cpFail c f pa fu).kept = s.kept := by
  simp only [State.cpFail]
  split
  · simp only [↓kept_accessFault]
  · simp only [↓kept_poisonFault]
  · rfl

theorem kept_cpBytes (s : State) (c va n : Nat) (fu : Option (Nat × Nat)) : (s.cpBytes c va n fu).2.kept = s.kept := by
  simp only [State.cpBytes]
  split
  · rename_i h
    obtain rfl := snd_of_eq h
    simp only [↓kept_vread, ↓kept_cpFail]
  · rename_i h
    obtain rfl := snd_of_eq h
    simp only [↓kept_vread, ↓kept_cpFail]
  · rename_i h
    obtain rfl := snd_of_eq h
    simp only [↓kept_vread]

theorem kept_readLayout (s : State) (c : Nat) (kn : Kernel) (fu : Option (Nat × Nat)) :
    (s.readLayout c kn fu).2.kept = s.kept := by
  simp only [State.readLayout, ↓kept_ite, ↓ite_snd]
  split
  · rfl
  · split
    · rfl
    · split
      · rename_i h
        obtain rfl := snd_of_eq h
        simp only [↓kept_cpBytes]
      · rename_i h
        obtain rfl := snd_of_eq h
        simp only [↓ite_snd, ↓kept_cpBytes, ite_self]

theorem kept_readGrid (s : State) (c : Nat) (kn : Kernel) (fu : Option (Nat × Nat)) : (s.readGrid c kn fu).2.kept = s.kept := by
  simp only [State.readGrid, ↓kept_ite, ↓ite_snd]
  split
  · rfl
  · split
    · rename_i h
      obtain rfl := snd_of_eq h
      simp only [↓kept_cpBytes]
    · rename_i h
      obtain rfl := snd_of_eq h
      simp only [↓kept_cpBytes]

theorem kept_dispatchGo (s : State) (q : Nat) (w : WorkUnit) (c : Nat) (kn : Kernel) (x : Xlat) :
    (s.dispatchGo q w c kn x).kept = s.kept := by
  simp only [State.dispatchGo, ↓kept_ite, ↓kept_launchFault, ↓kept_placeSync, ↓kept_updUnit, ite_self]

theorem kept_dispatchStart (s : State) (q : Fin 64) : ((s.dispatchStart q).after s).kept = s.kept := by
  simp only [State.dispatchStart]
  split
  · simp only [↓after_next]
  · split
    · simp only [↓after_next]
    · split
      · simp only [↓after_next, ↓after_ite, ↓kept_ite, ↓kept_a1Exit, ↓kept_endAtStart]
        split
        · rfl
        · split
          · rfl
          · split
            · rfl
            · split
              · rename_i h
                obtain rfl := snd_of_eq h
                simp only [↓after_next, ↓kept_a1Exit, ↓kept_readLayout]
              · rename_i h
                obtain rfl := snd_of_eq h
                simp only [↓after_next, ↓kept_a1Exit, ↓kept_endAtStart, ↓kept_readLayout]
              · rename_i h
                obtain rfl := snd_of_eq h
                simp only [↓after_next, ↓after_ite, ↓kept_ite, ↓kept_a1Exit, ↓kept_endAtStart, ↓kept_readLayout]
                split
                · rfl
                · split
                  · rename_i h
                    obtain rfl := snd_of_eq h
                    simp only [↓after_next, ↓kept_a1Exit, ↓kept_readLayout, ↓kept_readGrid]
                  · rename_i h
                    obtain rfl := snd_of_eq h
                    simp only [↓after_next, ↓after_ite, ↓kept_ite, ↓kept_a1Exit, ↓kept_endAtStart, ↓kept_readLayout,
                      ↓kept_readGrid, ↓kept_dispatchGo, ite_self]
      · simp only [↓after_next]

theorem kept_allocScratch (s : State) (k q seq ctx : Nat) (kn : Kernel) : (s.allocScratch k q seq ctx kn).kept = s.kept := by
  simp only [State.allocScratch, ↓kept_ite, ↓kept_setCluster, ↓kept_tongsStart, ↓kept_grdRegs, ↓kept_grdWipe, ite_self]

theorem kept_putOnCore (s : State) (core : Nat) (b : Block) (gs : List Group) (resume : Bool) :
    (s.putOnCore core b gs resume).kept = s.kept := by
  simp only [State.putOnCore, ↓kept_ite, ↓kept_setCore, ↓kept_fenceCheck, kept_foldl, ite_self, implies_true]

theorem kept_noteRt (s : State) (k q seq : Nat) (first : Bool) : (s.noteRt k q seq first).kept = s.kept := by
  simp only [State.noteRt, ↓kept_ite]
  split
  · split
    · simp only [↓kept_maxFld]
    · rfl
  · rfl

theorem kept_readSaved (s : State) (j : Nat) (b : SavedBlock) : (s.readSaved j b).2.kept = s.kept := by
  simp only [State.readSaved, ↓kept_ite, ↓ite_snd]
  split
  · split
    · rename_i h
      obtain rfl := snd_of_eq h
      simp only [↓kept_grdMeet, ↓kept_contextFault]
    · rename_i h
      obtain rfl := snd_of_eq h
      simp only [↓kept_grdMeet]
  · split
    · rename_i h
      obtain rfl := snd2_of_eq h
      simp only [↓kept_devRead, ↓kept_poisonFault]
    · rename_i h
      obtain rfl := snd2_of_eq h
      simp only [↓kept_devRead]

theorem kept_placeFrom (s : State) (core q : Nat) : (s.placeFrom core q).2.kept = s.kept := by
  simp only [State.placeFrom]
  split
  · simp only [↓kept_ite, ↓ite_snd, ↓kept_launchFault]
    split
    · rfl
    · split
      · rfl
      · split
        · split
          · rename_i h
            obtain rfl := snd_of_eq h
            simp only [↓kept_setCluster, ↓kept_readSaved]
          · rename_i h
            obtain rfl := snd_of_eq h
            simp only [↓kept_setCluster, ↓kept_readSaved, ↓kept_ringWake, ↓kept_putOnCore]
        · simp only [↓kept_ite, ↓ite_snd, ↓kept_putOnCore, ↓kept_allocScratch, ↓kept_updKernel, ↓kept_noteRt, ite_self]
  · rfl

theorem kept_placedNow (s : State) (q : Nat) : (s.placedNow q).kept = s.kept := by
  simp only [State.placedNow]
  split
  · simp only [↓kept_ite, ↓kept_setQueue, ite_self]
  · rfl

theorem kept_reservePreempt (s : State) (k : Nat) : (s.reservePreempt k).kept = s.kept := by
  simp only [State.reservePreempt, ↓kept_ite, ↓kept_preemptAsk, ↓kept_setCluster, ite_self]

theorem kept_tongsResume (s : State) (k : Nat) : (s.tongsResume k).kept = s.kept := by
  simp only [State.tongsResume]
  refine kept_foldl (fun s x => ?_) _ _
  split
  · rfl
  · simp only [↓kept_ite, ↓kept_ringWake, ↓kept_tongsRegs, ↓kept_setCluster, ite_self]

theorem kept_placeOn (s : State) (core : Nat) : (s.placeOn core).kept = s.kept := by
  simp only [State.placeOn, ↓kept_ite, ↓kept_placeSync, ↓kept_reservePreempt, ite_self]
  refine (kept_foldl2 (fun r s x => ?_) _ _).trans ?_
  · simp only [↓kept_ite, ↓ite_snd]
    split
    · rfl
    · split
      · rename_i h
        obtain rfl := snd_of_eq h
        simp only [↓kept_placeFrom, ↓kept_placedNow]
      · rename_i h
        obtain rfl := snd_of_eq h
        simp only [↓kept_placeFrom]
  · simp only [↓kept_tongsResume]

theorem kept_offCore (s : State) (b : Nat × Nat × Block) : (s.offCore b).2.kept = s.kept := by
  simp only [State.offCore, ↓kept_mk, ↓kept_pair, ↓kept_setCore]

theorem kept_saveBlock (s : State) (k : Nat) (inReserve : Bool) (base : Nat) (b : Nat × Nat × Block) :
    (s.saveBlock k inReserve base b).kept = s.kept := by
  simp only [State.saveBlock, ↓kept_mk, ↓kept_pair, ↓kept_ite, ↓kept_offCore, ↓kept_setCluster, ↓kept_grdWipe, ↓kept_devWrite,
    ite_self]

theorem kept_saveAll (s : State) (k : Nat) (inReserve : Bool) (base : Nat) (bs : List (Nat × Nat × Block)) :
    (s.saveAll k inReserve base bs).kept = s.kept := by
  simp only [State.saveAll, ↓kept_saveBlock, kept_foldl2, implies_true]

theorem kept_discardLosing (s : State) (k : Nat) : (s.discardLosing k).kept = s.kept := by
  simp only [State.discardLosing, ↓kept_mk, ↓kept_pair, ↓kept_offCore, ↓kept_setCluster, kept_foldl, implies_true]

theorem kept_stopTongs (s : State) (k : Nat) (p : Preempt) : (s.stopTongs k p).kept = s.kept := by
  simp only [State.stopTongs]
  refine kept_foldl (fun s x => ?_) _ _
  split
  · rfl
  · simp only [↓kept_ite, ↓kept_tongsRegs, ↓kept_setCluster, ite_self]

theorem kept_suspendPass (s : State) (k : Nat) (p : Preempt) : (s.suspendPass k p).kept = s.kept := by
  simp only [State.suspendPass, ↓kept_mk, ↓kept_pair]

theorem kept_execPreemptAnswer (k : Fin 12) (s : State) : ((execPreemptAnswer k s).after s).kept = s.kept := by
  simp only [execPreemptAnswer]
  split
  · simp only [↓after_next]
  · simp only [↓after_next, ↓after_ite, ↓kept_ite, ↓kept_discardLosing, ↓kept_saveAll, ↓kept_setCluster, ↓kept_countWrap,
      ↓kept_suspendPass, ↓kept_stopTongs, ↓kept_maxFld, ↓kept_placeSync, ↓kept_loseCheck, ite_self]

theorem kept_execSlicePreempt (q : Fin 64) (s : State) : ((execSlicePreempt q s).after s).kept = s.kept := by
  simp only [execSlicePreempt]
  split
  · simp only [↓after_next]
  · split
    · simp only [↓after_next]
    · split
      · simp only [↓after_next]
      · simp only [↓after_next, ↓after_ite, ↓kept_ite, ↓kept_setCluster, ↓kept_preemptAsk, ite_self]

theorem kept_execReserveWindowStart (s : State) : ((execReserveWindowStart s).after s).kept = s.kept := by
  simp only [execReserveWindowStart, ↓after_next, ↓after_ite, ↓kept_mk, ↓kept_pair, ↓kept_ite, ite_self]

theorem kept_execRunLimitExpired (q : Fin 64) (s : State) : ((execRunLimitExpired q s).after s).kept = s.kept := by
  simp only [execRunLimitExpired]
  split
  · simp only [↓after_next]
  · split
    · simp only [↓after_next]
    · simp only [↓after_next, ↓kept_contextFault, ↓kept_recC]

end Sys2Proof.Machine
end

section
/-! PROOFS. The queue and one-time storage under the functions of Modes.lean: modes of clusters and the Quench. -/

namespace Sys2Proof.Machine

theorem kept_drainStart (s : State) (k : Nat) : (s.drainStart k).kept = s.kept := by
  simp only [State.drainStart, ↓kept_setCluster]

theorem kept_execModeSwitchToGraphics (s : State) : ((execModeSwitchToGraphics s).after s).kept = s.kept := by
  simp only [execModeSwitchToGraphics, ↓after_next, ↓after_ite, ↓kept_ite]
  split
  · rfl
  · split
    · simp only [↓after_next, ↓kept_drainStart]
    · simp only [↓after_next]

theorem kept_execDrainSliceExpired (k : Fin 12) (s : State) : ((execDrainSliceExpired k s).after s).kept = s.kept := by
  simp only [execDrainSliceExpired]
  split
  · simp only [↓after_next]
  · simp only [↓after_next, ↓after_ite, ↓kept_ite, ↓kept_preemptAsk, ite_self]
    split
    · rfl
    · split
      · split
        · simp only [↓after_next, ↓kept_setCluster, ↓kept_drainStart]
        · simp only [↓after_next, ↓kept_setCluster]
      · rfl

theorem kept_execModeSwitchComplete (k : Fin 12) (s : State) : ((execModeSwitchComplete k s).after s).kept = s.kept := by
  simp only [execModeSwitchComplete, ↓after_next, ↓after_ite, ↓kept_ite, ↓kept_countWrap, ↓kept_setFlag, ↓kept_setCluster,
    ↓kept_placeSync, ↓kept_clearFlag, ite_self]

theorem kept_toCompute (s : State) (k : Nat) : (s.toCompute k).kept = s.kept := by
  simp only [State.toCompute, ↓kept_ite, ↓kept_setCluster, ite_self]

theorem kept_execGfxIdleReturn (k : Fin 12) (s : State) : ((execGfxIdleReturn k s).after s).kept = s.kept := by
  simp only [execGfxIdleReturn, ↓after_next, ↓after_ite, ↓kept_ite, ↓kept_toCompute, ite_self]

theorem kept_gfxBoundary (s : State) : s.gfxBoundary.kept = s.kept := by
  simp only [State.gfxBoundary, ↓kept_mk, ↓kept_pair, ↓kept_ite, ↓kept_toCompute, kept_foldl, ite_self, implies_true]

theorem kept_quenchStart (s : State) (cause : Nat) : (s.quenchStart cause).kept = s.kept := by
  simp only [State.quenchStart, ↓kept_mk, ↓kept_pair]

theorem kept_execHangDetected (k : Fin 12) (s : State) : ((execHangDetected k s).after s).kept = s.kept := by
  simp only [execHangDetected, ↓after_next, ↓after_ite, ↓kept_ite, ↓kept_recC, ↓kept_quenchStart, kept_foldl, implies_true]
  split
  · rfl
  · split
    · simp only [↓kept_ite, ↓kept_setReg, ite_self]
    · rfl

theorem kept_errQuench (s : State) (v : Word) : (s.errQuench v).kept = s.kept := by
  simp only [State.errQuench, ↓kept_ite, ↓kept_quenchStart, ite_self]

theorem kept_execErrQuench (v : Word) (s : State) : ((execErrQuench v s).after s).kept = s.kept := by
  simp only [execErrQuench, ↓after_next, ↓after_ite, ↓kept_ite, ↓kept_errQuench, ite_self]

theorem kept_flowQuench (s : State) : s.flowQuench.kept = s.kept := by
  simp only [State.flowQuench]
  split
  · rfl
  · simp only [↓kept_mk, ↓kept_pair, ↓kept_countWrap]

theorem kept_quenchEngines (s : State) : s.quenchEngines.kept = s.kept := by
  simp only [State.quenchEngines, ↓kept_mk, ↓kept_pair, ↓kept_ite, ↓kept_setFld, ↓kept_setFlag, ↓kept_clearFlag, ite_self]

theorem kept_quenchQueue (s : State) (q : Nat) : (s.quenchQueue q).kept = s.kept := by
  simp only [State.quenchQueue]
  split
  · rfl
  · split
    · simp only [↓kept_endUnits]
    · simp only [↓kept_endUnits, ↓kept_drainDone, ↓kept_setQueue]

theorem kept_quenchComplete (s : State) : (s.quenchComplete.after s).kept = s.kept := by
  simp only [State.quenchComplete]
  split
  · simp only [↓after_next]
  · simp only [↓after_next, ↓kept_mk, ↓kept_pair, ↓kept_quenchEngines, ↓kept_quenchQueue, ↓kept_countWrap, ↓kept_signalLost,
      ↓kept_setFlag, ↓kept_slotRegs, ↓kept_putStatuses, ↓kept_flowQuench, ↓kept_rec0, ↓kept_contextFault, ↓kept_loseCheck,
      ↓kept_pwrHeld, ↓kept_ctxKill, kept_foldl, implies_true]

end Sys2Proof.Machine
end

section
/-! PROOFS. The queue and one-time storage under the functions of Gfx.lean: the raster pipeline. -/

namespace Sys2Proof.Machine

theorem kept_setPass (s : State) (p : GfxPass) : (s.setPass p).kept = s.kept := by
  simp only [State.setPass, ↓kept_mk, ↓kept_pair]

theorem kept_dropPass (s : State) (q seq : Nat) : (s.dropPass q seq).kept = s.kept := by
  simp only [State.dropPass, ↓kept_mk, ↓kept_pair]

theorem kept_passBoundary (s : State) (q seq : Nat) : (s.passBoundary q seq).kept = s.kept := by
  simp only [State.passBoundary, ↓kept_mk, ↓kept_pair, ↓kept_gfxBoundary]

theorem kept_stagePlace (s : State) (core : Nat) : (s.stagePlace core).kept = s.kept := by
  simp only [State.stagePlace]
  split
  · rfl
  · simp only [↓kept_ite]
    split
    · rfl
    · split
      · simp only [↓kept_ite]
        split
        · split
          · rename_i h
            obtain rfl := snd_of_eq h
            simp only [↓kept_readSaved, ↓kept_setCluster, ↓kept_putOnCore]
          · rename_i h
            obtain rfl := snd_of_eq h
            simp only [↓kept_readSaved, ↓kept_setCluster]
        · rfl
      · split
        · rfl
        · simp only [↓kept_ite, ↓kept_putOnCore, ↓kept_drawNat, ↓kept_setPass, ↓kept_grdWipe, ite_self]

theorem kept_stageDone (s : State) (core slot : Nat) : (s.stageDone core slot).kept = s.kept := by
  simp only [State.stageDone]
  split
  · rfl
  · split
    · split
      · rfl
      · rename_i h
        obtain rfl := snd_of_eq h
        simp only [↓kept_grdMeet, ↓kept_contextFault]
      · rename_i h
        obtain rfl := snd_of_eq h
        simp only [↓kept_grdMeet, ↓kept_setPass]
    · rfl

theorem kept_readIndex (s : State) (p : GfxPass) (d : GfxDraw) (k i : Nat) : (s.readIndex p d k i).2.kept = s.kept := by
  simp only [State.readIndex, ↓kept_ite, ↓ite_snd]
  split
  · rfl
  · split
    · rename_i h
      obtain rfl := snd_of_eq h
      simp only [↓kept_vread]
    · rename_i h
      obtain rfl := snd_of_eq h
      simp only [↓kept_vread, ↓kept_poisonFault]
    · rename_i h
      obtain rfl := snd_of_eq h
      simp only [↓kept_vread, ↓kept_accessFault]

theorem kept_drawStream (s : State) (p : GfxPass) (d : GfxDraw) (k : Nat) : (s.drawStream p d k).2.kept = s.kept := by
  simp only [State.drawStream, ↓kept_ite, ↓ite_snd]
  split
  · rfl
  · split
    · rfl
    · refine kept_foldl2 (fun r s x => ?_) _ _
      dsimp only
      split
      · rfl
      · split
        · rename_i h
          obtain rfl := snd_of_eq h
          simp only [↓kept_readIndex]
        · rename_i h
          obtain rfl := snd_of_eq h
          simp only [↓kept_readIndex]

theorem kept_startDraw (s : State) (p : GfxPass) (d : GfxDraw) (ks : List Nat) : (s.startDraw p d ks).kept = s.kept := by
  simp only [State.startDraw]
  split
  · rename_i h
    obtain rfl := snd_of_eq h
    simp only [↓kept_drawStream]
  · rename_i h
    obtain rfl := snd_of_eq h
    simp only [↓kept_drawStream, ↓kept_setPass]

theorem kept_endDraw (s : State) (p : GfxPass) (d : GfxDraw) : (s.endDraw p d).kept = s.kept := by
  simp only [State.endDraw, ↓kept_drawNat, ↓kept_setPass]

theorem kept_binAll (s : State) (p : GfxPass) (l : List (List BinPrim)) : (s.binAll p l).kept = s.kept := by
  induction l generalizing s p with
  | nil => exact kept_setPass ..
  | cons b rest ih =>
    simp only [State.binAll, ite_snd]
    split
    · simp only [ih]
    · simp only [↓kept_ite, ite_self, ↓kept_setPass, ↓kept_drawBool, ↓kept_count64, ↓kept_recC, ↓kept_contextFault, ih]

theorem kept_rasRead (s : State) (k : Nat) (p : GfxPass) (a n : Nat) : (s.rasRead k p a n).2.kept = s.kept := by
  simp only [State.rasRead]
  split
  · rename_i h
    obtain rfl := snd_of_eq h
    simp only [↓kept_vread]
  · rename_i h
    obtain rfl := snd_of_eq h
    simp only [↓kept_vread, ↓kept_poisonFault]
  · rename_i h
    obtain rfl := snd_of_eq h
    simp only [↓kept_vread, ↓kept_accessFault]

theorem kept_readImage (s : State) (k : Nat) (p : GfxPass) (layout addr pitch b t : Nat) :
    (s.readImage k p layout addr pitch b t).2.kept = s.kept := by
  simp only [State.readImage]
  refine kept_foldl2 (fun r s x => ?_) _ _
  dsimp only
  split
  · rfl
  · simp only [↓kept_ite, ↓ite_snd]
    split
    · rfl
    · split
      · rename_i h
        obtain rfl := snd_of_eq h
        simp only [↓kept_rasRead]
      · rename_i h
        obtain rfl := snd_of_eq h
        simp only [↓kept_rasRead]

theorem kept_readFlag (s : State) (k : Nat) (p : GfxPass) (a : Att) (t : Nat) : (s.readFlag k p a t).2.kept = s.kept := by
  simp only [State.readFlag]
  split
  · rename_i h
    obtain rfl := snd_of_eq h
    simp only [↓kept_rasRead]
  · rename_i h
    obtain rfl := snd_of_eq h
    simp only [↓kept_rasRead]

theorem kept_loadAtt (s : State) (k buf : Nat) (p : GfxPass) (a : Att) (t : Nat) : (s.loadAtt k buf p a t).2.kept = s.kept := by
  simp only [State.loadAtt, ↓kept_ite, ↓ite_snd]
  split
  · split
    · rename_i h
      obtain rfl := snd_of_eq h
      simp only [↓kept_readImage]
    · rename_i h
      obtain rfl := snd_of_eq h
      simp only [↓kept_readImage]
  · split
    · rfl
    · simp only [↓kept_ite, ↓ite_snd]
      split
      · split
        · rename_i h
          obtain rfl := snd_of_eq h
          simp only [↓kept_readFlag]
        · rename_i h
          obtain rfl := snd_of_eq h
          split
          · rename_i h
            obtain rfl := snd_of_eq h
            simp only [↓kept_readFlag, ↓kept_rasRead]
          · rename_i h
            obtain rfl := snd_of_eq h
            simp only [↓kept_readFlag, ↓kept_rasRead]
        · rename_i h
          obtain rfl := snd_of_eq h
          split
          · rename_i h
            obtain rfl := snd_of_eq h
            simp only [↓kept_readImage, ↓kept_readFlag]
          · rename_i h
            obtain rfl := snd_of_eq h
            simp only [↓kept_readImage, ↓kept_readFlag]
      · split
        · rename_i h
          obtain rfl := snd_of_eq h
          simp only [↓kept_readImage]
        · rename_i h
          obtain rfl := snd_of_eq h
          simp only [↓kept_readImage]
    · simp only [↓kept_drawNat]

theorem kept_loadTile (s : State) (k : Nat) (p : GfxPass) (t : Nat) : (s.loadTile k p t).2.kept = s.kept := by
  simp only [State.loadTile]
  refine kept_foldl2 (fun r s x => ?_) _ _
  dsimp only
  split
  · rfl
  · split
    · rename_i h
      obtain rfl := snd_of_eq h
      simp only [↓kept_loadAtt]
    · rename_i h
      obtain rfl := snd_of_eq h
      simp only [↓kept_loadAtt]

theorem kept_tileNext (s : State) (p : GfxPass) (t : TileRun) (l : List Nat) : (s.tileNext p t l).kept = s.kept := by
  induction l generalizing s t with
  | nil => exact kept_setPass ..
  | cons i rest ih =>
    simp only [State.tileNext, ite_snd]
    split
    · simp only [ih]
    · simp only [↓kept_ite, ite_self, ↓kept_setPass, ↓kept_drawNat, ih]

theorem kept_finishPrim (s : State) (p : GfxPass) (t : TileRun) : (s.finishPrim p t).kept = s.kept := by
  simp only [State.finishPrim]
  split
  · simp only [↓kept_tileNext]
  · simp only [↓kept_tileNext, ↓kept_drawNat, ↓kept_count64]

theorem kept_checkPages (s : State) (k c a n : Nat) : (s.checkPages k c a n).2.kept = s.kept := by
  simp only [State.checkPages]
  refine kept_foldl2 (fun r s x => ?_) _ _
  dsimp only
  split
  · rfl
  · split
    · rename_i h
      obtain rfl := snd_of_eq h
      simp only [↓kept_xlate]
    · rename_i h
      obtain rfl := snd_of_eq h
      simp only [↓ite_snd, ↓kept_xlate, ite_self]

theorem kept_checkTile (s : State) (k : Nat) (p : GfxPass) (t : Nat) (plans : List (Att × StorePlan)) :
    (s.checkTile k p t plans).2.kept = s.kept := by
  simp only [State.checkTile]
  refine kept_foldl2 (fun r s x => ?_) _ _
  dsimp only
  split
  · rfl
  · split
    · rename_i h
      obtain rfl := snd_of_eq h
      simp only [↓kept_checkPages]
    · rename_i h
      obtain rfl := snd_of_eq h
      simp only [↓kept_checkPages]

theorem kept_withhold (s : State) (k : Nat) (p : GfxPass) (t att kind code lo hi : Nat) :
    (s.withhold k p t att kind code lo hi).kept = s.kept := by
  simp only [State.withhold, ↓kept_ite, ↓kept_setReg, ↓kept_contextFault, ↓kept_recC, ite_self]

theorem kept_putFlag (s : State) (k : Nat) (p : GfxPass) (a : Att) (t : Nat) (v : Bool) :
    (s.putFlag k p a t v).kept = s.kept := by
  simp only [State.putFlag]
  split
  · rename_i h
    obtain rfl := snd_of_eq h
    simp only [↓kept_rasRead]
  · rename_i h
    obtain rfl := snd_of_eq h
    simp only [↓kept_rasRead, ↓kept_vwrite]

theorem kept_storeAtt (s : State) (k : Nat) (p : GfxPass) (t : Nat) (a : Att) (x : StorePlan) :
    (s.storeAtt k p t a x).kept = s.kept := by
  simp only [State.storeAtt]
  split
  · rfl
  · simp only [↓kept_count64]
  · simp only [↓kept_count64, ↓kept_putFlag]
  · simp only [↓kept_ite, ↓kept_vwrite, kept_foldl, implies_true]
    split
    · rfl
    · split
      · simp only [↓kept_mk, ↓kept_pair, ↓kept_ite, ↓kept_count64, ↓kept_putFlag, ↓kept_vwrite, kept_foldl, ite_self,
          implies_true]
      · simp only [↓kept_ite, ↓kept_count64, ↓kept_putFlag, ↓kept_vwrite, kept_foldl, ite_self, implies_true]

theorem kept_tileLeaves (s : State) (p : GfxPass) (k t : Nat) (plans : List (Att × StorePlan)) (clean : List Nat) :
    (s.tileLeaves p k t plans clean).kept = s.kept := by
  simp only [State.tileLeaves, ↓kept_setPass]

theorem kept_maintRefused (s : State) (u : GfxUnit) (code : Nat) : (s.maintRefused u code).kept = s.kept := by
  simp only [State.maintRefused]
  split
  · simp only [↓kept_endAtStart, ↓kept_dropPass]
  · simp only [↓kept_dropPass]

theorem kept_runTrack (s : State) (u : GfxUnit) : (s.runTrack u).kept = s.kept := by
  simp only [State.runTrack, ↓kept_mk, ↓kept_pair, ↓kept_ite, ↓kept_maintRefused, ↓kept_unitCheck, ↓kept_dropPass, ite_self]

theorem kept_maintDone (s : State) (u : GfxUnit) (k : Nat) : (s.maintDone u k).kept = s.kept := by
  simp only [State.maintDone, ↓kept_ite, ↓kept_ladleDue, ↓kept_dropPass, ite_self]

theorem kept_gfxWrite (s : State) (k : Nat) (u : GfxUnit) (a : Nat) (bs : List Byte) : (s.gfxWrite k u a bs).kept = s.kept := by
  simp only [State.gfxWrite]
  split
  · rename_i h
    obtain rfl := snd_of_eq h
    simp only [↓kept_vwrite, ↓kept_accessFault]
  · rename_i h
    obtain rfl := snd_of_eq h
    simp only [↓kept_vwrite]

theorem kept_gfxRead (s : State) (k : Nat) (u : GfxUnit) (a n : Nat) : (s.gfxRead k u a n).2.kept = s.kept := by
  simp only [State.gfxRead]
  split
  · rename_i h
    obtain rfl := snd_of_eq h
    simp only [↓kept_vread]
  · rename_i h
    obtain rfl := snd_of_eq h
    simp only [↓kept_vread, ↓kept_poisonFault]
  · rename_i h
    obtain rfl := snd_of_eq h
    simp only [↓kept_vread, ↓kept_accessFault]

theorem kept_putExport (s : State) (k : Nat) (u : GfxUnit) (slot addr : Nat) (inArea changed : Nat → Bool) :
    (s.putExport k u slot addr inArea changed).kept = s.kept := by
  simp only [State.putExport]
  split
  · rfl
  · simp only [↓kept_mk, ↓kept_pair, ↓kept_gfxWrite]

theorem kept_runSign (s : State) (u : GfxUnit) (k : Nat) : (s.runSign u k).kept = s.kept := by
  simp only [State.runSign]
  split
  · simp only [↓kept_maintRefused]
  · simp only [↓kept_ite, ↓kept_maintRefused]
    split
    · rfl
    · split
      · refine kept_foldl2 (fun r s x => ?_) _ _
        dsimp only
        split
        · rfl
        · split
          · dsimp only
            refine kept_foldl2 (fun r s x => ?_) _ _
            dsimp only
            split
            · rfl
            · split
              · rename_i h
                obtain rfl := snd_of_eq h
                simp only [↓kept_gfxRead]
              · rename_i h
                obtain rfl := snd_of_eq h
                simp only [↓kept_gfxRead]
          · simp only [↓kept_mk, ↓kept_pair, ↓kept_ite, ↓ite_snd, ite_self]
            refine kept_foldl2 (fun r s x => ?_) _ _
            dsimp only
            split
            · rfl
            · split
              · rename_i h
                obtain rfl := snd_of_eq h
                simp only [↓kept_gfxRead]
              · rename_i h
                obtain rfl := snd_of_eq h
                simp only [↓kept_gfxRead]
      · simp only [↓kept_ite, ↓kept_putExport, ↓kept_maintDone, ite_self]
        refine kept_foldl2 (fun r s x => ?_) _ _
        dsimp only
        split
        · rfl
        · split
          · dsimp only
            refine kept_foldl2 (fun r s x => ?_) _ _
            dsimp only
            split
            · rfl
            · split
              · rename_i h
                obtain rfl := snd_of_eq h
                simp only [↓kept_gfxRead]
              · rename_i h
                obtain rfl := snd_of_eq h
                simp only [↓kept_gfxRead]
          · simp only [↓kept_mk, ↓kept_pair, ↓kept_ite, ↓ite_snd, ite_self]
            refine kept_foldl2 (fun r s x => ?_) _ _
            dsimp only
            split
            · rfl
            · split
              · rename_i h
                obtain rfl := snd_of_eq h
                simp only [↓kept_gfxRead]
              · rename_i h
                obtain rfl := snd_of_eq h
                simp only [↓kept_gfxRead]

theorem kept_resolveTiles (s : State) (u : GfxUnit) (k w v : Nat) (img : List Byte) :
    (s.resolveTiles u k w v img).kept = s.kept := by
  simp only [State.resolveTiles, ↓kept_gfxWrite, kept_foldl, implies_true]

theorem kept_resolveWord (s : State) (u : GfxUnit) (k w : Nat) (img : List Byte) : (s.resolveWord u k w img).kept = s.kept := by
  unfold State.resolveWord
  split
  · rfl
  have h := kept_gfxRead s k u (u.dw 5 + 16 + 4 * w) 4
  generalize s.gfxRead k u (u.dw 5 + 16 + 4 * w) 4 = r at h ⊢
  obtain ⟨_ | bs, t⟩ := r
  · exact h
  dsimp only at h ⊢
  split
  · exact h
  · exact (kept_gfxWrite ..).trans ((kept_resolveTiles ..).trans h)

theorem kept_runResolve (s : State) (u : GfxUnit) (k : Nat) : (s.runResolve u k).kept = s.kept := by
  obtain ⟨f, hf⟩ : ∃ f, f = State.runResolve := ⟨_, rfl⟩
  rw [← hf]
  delta State.runResolve at hf
  subst hf
  have h := kept_gfxRead s k u (u.dw 5) 16
  beta_reduce
  generalize s.gfxRead k u (u.dw 5) 16 = r at h ⊢
  obtain ⟨_ | bs, t⟩ := r
  · exact h
  · exact (kept_maintDone ..).trans ((kept_foldl (fun s w => kept_resolveWord ..) _ _).trans h)

theorem kept_nextGfx {s t : State} (h : s.nextGfx = some t) : t.kept = s.kept := by
  unfold State.nextGfx at h
  split at h
  · exact nomatch h
  split at h
  · obtain ⟨p, -, rfl⟩ := Option.map_eq_some_iff.1 h
    exact kept_setPass ..
  split at h
  · obtain rfl := Option.some.inj h
    exact (kept_passBoundary ..).trans (kept_runTrack ..)
  split at h
  · exact nomatch h
  · obtain rfl := Option.some.inj h
    refine (kept_passBoundary ..).trans ?_
    split
    · exact kept_runSign ..
    · exact kept_runResolve ..

theorem kept_holdPass (s : State) (p : GfxPass) : (s.holdPass p).kept = s.kept := by
  simp only [State.holdPass, ↓kept_setPass, ↓kept_setCluster, kept_foldl, implies_true]

theorem kept_takeTile {s t : State} {p : GfxPass} (h : s.takeTile p = some t) : t.kept = s.kept := by
  unfold State.takeTile at h
  split at h
  · split at h
    · rename_i he
      obtain rfl := snd_of_eq he
      obtain rfl := Option.some.inj h
      exact kept_loadTile ..
    · rename_i he
      obtain rfl := snd_of_eq he
      obtain rfl := Option.some.inj h
      exact (kept_tileNext ..).trans ((kept_grdWipe ..).trans (kept_loadTile ..))
  · exact nomatch h

theorem kept_gfxStep {s t : State} (h : s.gfxStep = some t) : t.kept = s.kept := by
  unfold State.gfxStep at h
  split at h
  · exact kept_nextGfx h
  dsimp only at h
  split at h
  · obtain rfl := Option.some.inj h
    exact (kept_passBoundary ..).trans (kept_setPass ..)
  split at h
  · split at h
    · split at h
      · exact nomatch h
      · obtain rfl := Option.some.inj h
        exact kept_binAll ..
    split at h
    · split at h
      · exact nomatch h
      · obtain rfl := Option.some.inj h
        exact kept_startDraw ..
    split at h
    · obtain rfl := Option.some.inj h
      exact kept_setPass ..
    · exact nomatch h
  · split at h
    · split at h <;> obtain rfl := Option.some.inj h
      · exact kept_endDraw ..
      · exact kept_setPass ..
    · exact nomatch h
  · split at h
    · obtain rfl := Option.some.inj h
      exact kept_setPass ..
    · exact nomatch h
  · split at h
    · obtain rfl := Option.some.inj h
      exact kept_endDraw ..
    · exact nomatch h
  · split at h
    · obtain rfl := Option.some.inj h
      exact kept_finishPrim ..
    · exact kept_takeTile h
  · exact nomatch h

theorem kept_gfxRun (s : State) (f : Nat) : (s.gfxRun f).kept = s.kept := by
  induction f generalizing s with
  | zero => rfl
  | succ f ih =>
    unfold State.gfxRun
    have hp : (match s.runningPass with
      | some p => s.holdPass p
      | none => s).kept = s.kept := by
      split
      · exact kept_holdPass ..
      · rfl
    dsimp only
    split
    · exact (ih _).trans ((kept_gfxStep ‹_›).trans hp)
    · exact hp

theorem kept_gfxPump (s : State) : s.gfxPump.kept = s.kept := by
  simp only [State.gfxPump, ↓kept_ite, ↓kept_gfxRun, ite_self]

theorem kept_passRefuse (s : State) (q : Nat) (u : Queue) (ptr code : Nat) : (s.passRefuse q u ptr code).kept = s.kept := by
  simp only [State.passRefuse, ↓kept_gfxPump, ↓kept_passMark, ↓kept_setQueue]

theorem kept_inPass {d : State} (s : State) (p : Pkt) (op : Nat) {k : GfxPass → Queue → Nat → State → State} (hk : ∀ g u ptr s, (k
  g u ptr s).kept = s.kept) :
    ((s.inPass p op k).after d).kept = s.kept := by
  unfold State.inPass
  refine kept_withPkt _ _ _ _ (fun u ptr s => ?_)
  dsimp only
  simp only [↓kept_ite, ↓kept_refuseStep]
  split
  · rfl
  · split
    · simp only [↓kept_refuseCtrl]
    · simp only [↓kept_endStream, ↓kept_setQueue, ↓hk]

theorem kept_execGfxPassBegin (p) (s : State) : ((execGfxPassBegin p s).after s).kept = s.kept := by
  unfold execGfxPassBegin
  obtain ⟨vread, er⟩ : ∃ f, f = State.vread := ⟨_, rfl⟩
  obtain ⟨addUnit, ea⟩ : ∃ f, f = State.addUnit := ⟨_, rfl⟩
  have hr := kept_vread
  have ha := kept_addUnit
  rw [← er] at hr ⊢
  rw [← ea] at ha ⊢
  extract_lets
  split
  · rfl
  split
  · rfl
  refine kept_withPkt _ _ _ _ (fun u ptr s => ?_)
  split
  · exact kept_refuseStep ..
  split
  · exact (kept_endStream ..).trans (kept_passRefuse ..)
  split
  · exact (kept_accessFault ..).trans (kept_snd ‹_› (hr ..))
  · exact (kept_poisonFault ..).trans (kept_snd ‹_› (hr ..))
  have h := kept_snd ‹_› (hr ..)
  extract_lets d code u'
  split
  have h := (kept_snd ‹_› (ha ..)).trans h
  refine (kept_endStream ..).trans ((kept_gfxPump ..).trans ((kept_a1Exit ..).trans (Eq.trans ?_ h)))
  split
  · exact (kept_setQueue ..).trans ((kept_mk ..).trans (kept_pair _))
  · exact (kept_mk ..).trans (kept_pair _)

theorem kept_execGfxState (p : Pkt) (s : State) : ((execGfxState p s).after s).kept = s.kept := by
  unfold execGfxState
  refine kept_inPass _ _ _ (fun g u ptr s => ?_)
  extract_lets a
  split
  · exact kept_passRefuse ..
  split
  · exact (kept_accessFault ..).trans (kept_snd ‹_› (kept_vread ..))
  · exact (kept_poisonFault ..).trans (kept_snd ‹_› (kept_vread ..))
  have h := kept_snd ‹_› (kept_vread ..)
  extract_lets st
  split
  · exact (kept_passRefuse ..).trans h
  · exact (kept_setPass ..).trans h

theorem kept_addDraws (s : State) (q : Nat) (u : Queue) (ptr : Nat) (g : GfxPass) (index size : Nat) (ds : List (List Nat)) :
    (s.addDraws q u ptr g index size ds).kept = s.kept := by
  simp only [State.addDraws]
  split
  · simp only [↓kept_passRefuse]
  · simp only [↓kept_ite, ↓kept_passRefuse, ↓kept_gfxPump, ↓kept_setPass, ite_self]

theorem kept_execGfxDraw (p : Pkt) (s : State) : ((execGfxDraw p s).after s).kept = s.kept := by
  simp only [execGfxDraw, ↓kept_inPass, ↓kept_addDraws, implies_true]

theorem kept_drawTable (s : State) (c : Nat) (p : Pkt) (unit) : (s.drawTable c p unit).2.kept = s.kept := by
  unfold State.drawTable
  obtain ⟨cpBytes, e⟩ : ∃ f, f = State.cpBytes := ⟨_, rfl⟩
  have h := kept_cpBytes
  rw [← e] at h ⊢
  refine kept_foldl2 (fun r s i => ?_) _ (some [], s)
  cases r with
  | none => rfl
  | some l =>
    dsimp only
    split
    · exact kept_snd ‹_› (h ..)
    · exact kept_snd ‹_› (h ..)

theorem kept_execGfxDrawIndirect (p : Pkt) (s : State) : ((execGfxDrawIndirect p s).after s).kept = s.kept := by
  simp only [execGfxDrawIndirect]
  refine kept_inPass _ _ _ (fun g u ptr s => ?_)
  simp only [↓kept_ite, ↓kept_passRefuse]
  split
  · rfl
  · split
    · rename_i h
      obtain rfl := snd_of_eq h
      simp only [↓kept_drawTable]
    · rename_i h
      obtain rfl := snd_of_eq h
      simp only [↓kept_drawTable, ↓kept_addDraws]

theorem kept_execGfxPassEnd (p : Pkt) (s : State) : ((execGfxPassEnd p s).after s).kept = s.kept := by
  simp only [execGfxPassEnd, ↓kept_mk, ↓kept_pair, ↓kept_ite, ↓kept_inPass, ↓kept_setQueue, ↓kept_updUnit, ↓kept_gfxPump,
    ↓kept_updStatus, ↓kept_completeUnit, ↓kept_setPass, ite_self, implies_true]

theorem kept_gfxMaint (s : State) (p : Pkt) (op : Nat) (sel : Bool) (code : Nat) (slots : List Nat) :
    ((s.gfxMaint p op sel code slots).after s).kept = s.kept := by
  simp only [State.gfxMaint, ↓kept_mk, ↓kept_pair, ↓kept_withUnit, ↓kept_endStream, ↓kept_gfxPump, ↓kept_a1Exit, implies_true]

theorem kept_execGfxTrackClaim (p : Pkt) (s : State) : ((execGfxTrackClaim p s).after s).kept = s.kept := by
  simp only [execGfxTrackClaim, ↓kept_gfxMaint]

theorem kept_execGfxTrackInvalidate (p : Pkt) (s : State) : ((execGfxTrackInvalidate p s).after s).kept = s.kept := by
  simp only [execGfxTrackInvalidate, ↓kept_gfxMaint]

theorem kept_execGfxTrackRelease (p : Pkt) (s : State) : ((execGfxTrackRelease p s).after s).kept = s.kept := by
  simp only [execGfxTrackRelease, ↓kept_gfxMaint]

theorem kept_execGfxSignSurface (p : Pkt) (s : State) : ((execGfxSignSurface p s).after s).kept = s.kept := by
  simp only [execGfxSignSurface, ↓kept_gfxMaint]

theorem kept_execGfxResolveFlags (p : Pkt) (s : State) : ((execGfxResolveFlags p s).after s).kept = s.kept := by
  simp only [execGfxResolveFlags, ↓kept_gfxMaint]

theorem kept_tileMeets (s : State) (k : Nat) (p : GfxPass) (t : TileRun) : (s.tileMeets k p t).2.kept = s.kept := by
  simp only [State.tileMeets]
  split
  · simp only [↓kept_countSat]
  · simp only [↓kept_grdMeet]

theorem kept_execTileStore (k : Fin 12) (tile : BitVec 18) (es : List Upset) (s : State) :
    ((execTileStore k tile es s).after s).kept = s.kept := by
  simp only [execTileStore]
  split
  · simp only [↓after_next, ↓kept_ariseAll]
  · split
    · simp only [↓after_next, ↓kept_ariseAll]
    · simp only [↓after_next, ↓after_ite, ↓kept_ite, ↓kept_ariseAll]
      split
      · rfl
      · split
        · rename_i h
          obtain rfl := snd_of_eq h
          simp only [↓after_next, ↓kept_ariseAll, ↓kept_tileMeets, ↓kept_withhold]
        · rename_i h
          obtain rfl := snd_of_eq h
          split
          · rename_i h
            obtain rfl := snd_of_eq h
            simp only [↓after_next, ↓kept_ariseAll, ↓kept_tileMeets, ↓kept_withhold, ↓kept_drawNat, ↓kept_checkTile,
              ↓kept_captureFail]
          · rename_i h
            obtain rfl := snd_of_eq h
            split
            · simp only [↓after_next, ↓kept_ariseAll, ↓kept_tileMeets, ↓kept_drawNat, ↓kept_checkTile, ↓kept_storeAtt, kept_foldl,
                implies_true]
            · simp only [↓after_next, ↓kept_ariseAll, ↓kept_tileMeets, ↓kept_drawNat, ↓kept_checkTile, ↓kept_storeAtt,
                ↓kept_gfxPump, ↓kept_tileLeaves, kept_foldl, implies_true]

theorem kept_passWrites (s : State) (p : GfxPass) : (s.passWrites p).kept = s.kept := by
  simp only [State.passWrites, ↓kept_ite, ↓kept_gfxWrite, ↓kept_putExport, kept_foldl, ite_self, implies_true]

theorem kept_execPassComplete (s : State) : ((execPassComplete s).after s).kept = s.kept := by
  simp only [execPassComplete]
  split
  · simp only [↓after_next]
  · simp only [↓after_next, ↓after_ite, ↓kept_ite, ↓kept_passWrites, ↓kept_ladleDue, ↓kept_gfxPump, ↓kept_passBoundary,
      ↓kept_dropPass, kept_foldl, ite_self, implies_true]

theorem kept_execExit (i : Issue) (s : State) : ((execExit i s).after s).kept = s.kept := by
  simp only [execExit, ↓kept_withInsn, ↓kept_gfxPump, ↓kept_exitLanes, ↓kept_stageDone, implies_true]

theorem kept_execBlockPlace (core : Fin 48) (s : State) : ((execBlockPlace core s).after s).kept = s.kept := by
  simp only [execBlockPlace, ↓after_next, ↓after_ite, ↓kept_ite, ↓kept_placeOn, ↓kept_gfxPump, ↓kept_reservePreempt,
    ↓kept_stagePlace, ite_self]

end Sys2Proof.Machine
end

section
/-! PROOFS. The queue and one-time storage under the functions of Mmu.lean: the commands of the MMU. -/

namespace Sys2Proof.Machine

theorem kept_walkDeliver (s : State) (core id : Nat) (r : XResult) : (s.walkDeliver core id r).kept = s.kept := by
  simp only [State.walkDeliver]
  refine kept_foldl (fun s x => ?_) _ _
  split
  · simp only [↓kept_advanceOp]
  · simp only [↓kept_advanceOp, kept_foldl, implies_true]

theorem kept_walkData (s : State) (w : Walk) (r : ReadResult) : (s.walkData w r).2.2.kept = s.kept := by
  simp only [State.walkData, ↓kept_ite, ↓ite_snd]
  split
  · split
    · rename_i h
      obtain rfl := snd_of_eq h
      simp only [↓kept_descRead]
    · rename_i h
      obtain rfl := snd_of_eq h
      simp only [↓kept_descRead]
  · split
    · rfl
    · rfl
    · rfl

theorem kept_walkResponse (s : State) (id : Nat) (r : ReadResult) : (s.walkResponse id r).kept = s.kept := by
  simp only [State.walkResponse]
  split
  · rfl
  · split
    · simp only [↓kept_mk, ↓kept_pair]
    · split
      · rename_i h
        obtain rfl := snd2_of_eq h
        simp only [↓kept_mk, ↓kept_pair, ↓kept_walkData, ↓kept_walkDeliver]
      · rename_i h
        obtain rfl := snd2_of_eq h
        split
        · simp only [↓kept_mk, ↓kept_pair, ↓kept_ite, ↓kept_walkData, ↓kept_walkDeliver, ↓kept_wcachePut, ite_self]
        · simp only [↓kept_mk, ↓kept_pair, ↓kept_ite, ↓kept_walkData, ↓kept_walkDeliver, ↓kept_wcachePut, ↓kept_walkEnd, ite_self]
        · simp only [↓kept_mk, ↓kept_pair, ↓kept_ite, ↓kept_walkData, ↓kept_wcachePut, ↓kept_hostReadStart, ite_self]

theorem kept_execWalkReadResponse (walk : Nat) (r : ReadResult) (s : State) :
    ((execWalkReadResponse walk r s).after s).kept = s.kept := by
  simp only [execWalkReadResponse, ↓after_next, ↓kept_walkResponse]

theorem kept_mmuReason (s : State) (code : Nat) : (s.mmuReason code).kept = s.kept := by
  simp only [State.mmuReason, ↓kept_setFld]

theorem kept_layoutWrite (s : State) (n : Nat) (v : Word) : (s.layoutWrite n v).kept = s.kept := by
  simp only [State.layoutWrite, ↓kept_ite, ↓kept_setFlag, ↓kept_mmuReason, ↓kept_clearFlag, ↓kept_setReg, ite_self]

theorem kept_execLayoutEnable (n : Fin 4) (v : Word) (s : State) : ((execLayoutEnable n v s).after s).kept = s.kept := by
  simp only [execLayoutEnable, ↓after_next, ↓after_ite, ↓kept_ite, ↓kept_layoutWrite, ite_self]

theorem kept_execLayoutDisable (n : Fin 4) (v : Word) (s : State) : ((execLayoutDisable n v s).after s).kept = s.kept := by
  simp only [execLayoutDisable, ↓after_next, ↓after_ite, ↓kept_ite, ↓kept_layoutWrite, ite_self]

theorem kept_aperWrite (s : State) (v : Word) : (s.aperWrite v).kept = s.kept := by
  simp only [State.aperWrite, ↓kept_ite, ↓kept_setReg, ↓kept_mmuReason, ite_self]

theorem kept_execApertureEnable (v : Word) (s : State) : ((execApertureEnable v s).after s).kept = s.kept := by
  simp only [execApertureEnable, ↓after_next, ↓after_ite, ↓kept_ite, ↓kept_aperWrite, ite_self]

theorem kept_writeBackBlock (s : State) (c) (b) : (s.writeBackBlock c b).kept = s.kept := by
  unfold State.writeBackBlock
  obtain ⟨devRead, e⟩ : ∃ f, f = State.devRead := ⟨_, rfl⟩
  have hr := kept_devRead
  rw [← e] at hr ⊢
  split
  · rfl
  split
  · exact kept_upd
  extract_lets t base
  split
  have h := (kept_snd2 ‹_› (hr ..)).trans kept_upd
  split
  · exact (kept_recC ..).trans h
  · exact (kept_countSat ..).trans ((kept_foldl (fun s x => kept_post ..) _ _).trans h)

theorem kept_withdrawBlocks (s : State) (w : Withdrawal) : (s.withdrawBlocks w).kept = s.kept := by
  simp only [State.withdrawBlocks]
  split
  · rfl
  · simp only [↓kept_writeBackBlock, kept_foldl, implies_true]

theorem kept_withdrawEffect (s : State) (w : Withdrawal) : (s.withdrawEffect w).2.kept = s.kept := by
  simp only [State.withdrawEffect]
  split
  · rfl
  · simp only [↓kept_mk, ↓kept_pair, ↓kept_tlbDrop, ↓kept_withdrawBlocks]

theorem kept_startPath (s : State) (packet : Bool) : (s.startPath packet).kept = s.kept := by
  simp only [State.startPath, ↓kept_mk, ↓kept_pair, ↓kept_ite, ↓ite_snd, ↓kept_withdrawEffect, kept_foldl3, ite_self,
    implies_true]

theorem kept_startWithdrawals (s : State) : s.startWithdrawals.kept = s.kept := by
  simp only [State.startWithdrawals, ↓kept_startPath]

theorem kept_invalPend (s : State) : s.invalPend.kept = s.kept := by
  simp only [State.invalPend, ↓kept_setFld]

theorem kept_tlbInval (s : State) (p : Pkt) (sel : Bool) : ((s.tlbInval p sel).after s).kept = s.kept := by
  simp only [State.tlbInval]
  refine kept_withUnit _ _ _ _ _ _ (fun u s => ?_) (fun u ptr s => ?_)
  · split
    · rfl
    · rfl
  · simp only [↓kept_mk, ↓kept_pair, ↓kept_startWithdrawals]

theorem kept_execTlbInvalRange (p : Pkt) (s : State) : ((execTlbInvalRange p s).after s).kept = s.kept := by
  simp only [execTlbInvalRange, ↓kept_tlbInval]

theorem kept_execTlbInvalContext (p : Pkt) (s : State) : ((execTlbInvalContext p s).after s).kept = s.kept := by
  simp only [execTlbInvalContext, ↓kept_tlbInval]

theorem kept_withdrawDone (s : State) (packet : Bool) : (s.withdrawDone packet).kept = s.kept := by
  simp only [State.withdrawDone]
  split
  · rfl
  · simp only [↓kept_ite, ↓kept_startWithdrawals]
    split
    · rfl
    · split
      · simp only [↓kept_mk, ↓kept_pair, ↓kept_endStream, ↓kept_completeUnit]
      · simp only [↓kept_mk, ↓kept_pair, ↓kept_ite, ↓kept_invalPend, ↓kept_setReg, ↓kept_raiseVec, ite_self]

theorem kept_execWithdrawalComplete (packet : Bool) (s : State) : ((execWithdrawalComplete packet s).after s).kept = s.kept := by
  simp only [execWithdrawalComplete, ↓after_next, ↓kept_withdrawDone]

theorem kept_invalWrite (s : State) (v : Word) : (s.invalWrite v).kept = s.kept := by
  simp only [State.invalWrite, ↓kept_mk, ↓kept_pair, ↓kept_ite, ↓kept_setFlag, ↓kept_setReg, ↓kept_mmuReason, ↓kept_countWrap,
    ↓kept_invalPend, ↓kept_startWithdrawals, ↓kept_withdrawDone, ite_self]

theorem kept_execMmuInvalRequest (v : Word) (s : State) : ((execMmuInvalRequest v s).after s).kept = s.kept := by
  simp only [execMmuInvalRequest, ↓after_next, ↓after_ite, ↓kept_ite, ↓kept_invalWrite, ite_self]

theorem kept_advise (s : State) (p : Pkt) (sel : Bool) : ((s.advise p sel).after s).kept = s.kept := by
  simp only [State.advise]
  refine kept_withUnit _ _ _ _ _ _ (fun u s => ?_) (fun u ptr s => ?_)
  · split
    · rfl
    · rfl
  · simp only [↓kept_mk, ↓kept_pair, ↓kept_endStream, ↓kept_completeUnit]

theorem kept_execAdviseLocation (p : Pkt) (s : State) : ((execAdviseLocation p s).after s).kept = s.kept := by
  simp only [execAdviseLocation, ↓kept_advise]

theorem kept_execAdviseSetReadMostly (p : Pkt) (s : State) : ((execAdviseSetReadMostly p s).after s).kept = s.kept := by
  simp only [execAdviseSetReadMostly, ↓kept_advise]

theorem kept_execAdviseClearReadMostly (p : Pkt) (s : State) : ((execAdviseClearReadMostly p s).after s).kept = s.kept := by
  simp only [execAdviseClearReadMostly, ↓kept_advise]

theorem kept_execAdviseAccessedBy (p : Pkt) (s : State) : ((execAdviseAccessedBy p s).after s).kept = s.kept := by
  simp only [execAdviseAccessedBy, ↓kept_advise]

theorem kept_execAdviseRemove (p : Pkt) (s : State) : ((execAdviseRemove p s).after s).kept = s.kept := by
  simp only [execAdviseRemove, ↓kept_advise]

theorem kept_skipped (s : State) : s.skipped.kept = s.kept := by
  simp only [State.skipped, ↓kept_countSat]

theorem kept_pin (s : State) (k asid : Nat) (host : Bool) (ia : Nat) : (s.pin k asid host ia).kept = s.kept := by
  simp only [State.pin, ↓kept_mk, ↓kept_pair, ↓kept_ite, ite_self]

theorem kept_prefetchPage (s : State) (c va clusters : Nat) : (s.prefetchPage c va clusters).kept = s.kept := by
  simp only [State.prefetchPage]
  split
  · rfl
  · simp only [↓kept_ite, ↓kept_skipped, ite_self]
    refine kept_foldl2 (fun r s x => ?_) _ _
    dsimp only
    split
    · rename_i h
      obtain rfl := snd_of_eq h
      simp only [↓kept_xlate]
    · rename_i h
      obtain rfl := snd_of_eq h
      dsimp only
      split
      · simp only [↓kept_ite, ↓kept_xlate, ↓kept_pin, ite_self]
      · simp only [↓kept_xlate]

theorem kept_blockPages (s : State) (c va : Nat) : (s.blockPages c va).2.kept = s.kept := by
  simp only [State.blockPages]
  refine kept_foldl2 (fun r s x => ?_) _ _
  dsimp only
  split
  · rfl
  · split
    · rename_i h
      obtain rfl := snd_of_eq h
      simp only [↓kept_xlate]
    · rename_i h
      obtain rfl := snd_of_eq h
      simp only [↓kept_xlate]

theorem kept_migrate (s : State) (c va : Nat) : (s.migrate c va).kept = s.kept := by
  simp only [State.migrate]
  split
  · rfl
  · simp only [↓kept_ite]
    split
    · rfl
    · split
      · split
        · rename_i h
          obtain rfl := snd_of_eq h
          simp only [↓kept_blockPages, ↓kept_skipped]
        · rename_i h
          obtain rfl := snd_of_eq h
          simp only [↓kept_mk, ↓kept_pair, ↓kept_blockPages, ↓kept_withdrawEffect, ↓kept_hostBytes, ↓kept_devWrite,
            ↓kept_countSat, kept_foldl2, implies_true]
      · simp only [↓kept_skipped]

theorem kept_moveBlock (s : State) (c va dir : Nat) : (s.moveBlock c va dir).kept = s.kept := by
  simp only [State.moveBlock]
  split
  · rfl
  · simp only [↓kept_ite, ↓kept_migrate]
    split
    · split
      · rfl
      · split
        · split
          · simp only [↓kept_writeBackBlock]
          · rfl
        · rfl
    · split
      · rfl
      · split
        · split
          · simp only [↓kept_writeBackBlock]
          · rfl
        · rfl

theorem kept_warmPage (s : State) (c va : Nat) (count : Bool) : (s.warmPage c va count).kept = s.kept := by
  simp only [State.warmPage]
  split
  · rename_i h
    obtain rfl := snd_of_eq h
    simp only [↓kept_ite, ↓kept_xlate, ↓kept_skipped, ite_self]
  · rename_i h
    obtain rfl := snd_of_eq h
    simp only [↓kept_ite, ↓kept_xlate, ↓kept_devRead, ite_self]

theorem kept_execPrefetchRange (p : Pkt) (s : State) : ((execPrefetchRange p s).after s).kept = s.kept := by
  simp only [execPrefetchRange]
  refine kept_withUnit _ _ _ _ _ _ (fun u s => ?_) (fun u ptr s => ?_)
  · split
    · rfl
    · rfl
  · simp only [↓kept_ite, ↓kept_prefetchPage, ↓kept_moveBlock, ↓kept_warmPage, ↓kept_endStream, ↓kept_completeUnit, kept_foldl,
      ite_self, implies_true]

end Sys2Proof.Machine
end

section
/-! PROOFS. The queue and one-time storage under the functions of Hif.lean: the host interface and the I²C port. -/

namespace Sys2Proof.Machine

theorem kept_execBar0BadSizeAccess (isWrite : Bool) (a : BitVec 25) (requester : BitVec 16) (s : State) :
    ((execBar0BadSizeAccess isWrite a requester s).after s).kept = s.kept := by
  simp only [execBar0BadSizeAccess, ↓after_next, ↓after_ite, ↓kept_ite, ↓kept_rec0, ↓kept_setFlag, ↓kept_emit, ite_self]

theorem kept_bar2Refuse (s : State) (off a : Nat) (prot : Bool) : (s.bar2Refuse off a prot).kept = s.kept := by
  simp only [State.bar2Refuse, ↓kept_ite, ↓kept_setFlag, ↓kept_rec0, ite_self]

theorem kept_execBar2Read (off : BitVec 36) (n : Nat) (s : State) : ((execBar2Read off n s).after s).kept = s.kept := by
  unfold execBar2Read
  split
  · rfl
  extract_lets a
  split
  · exact (kept_emit ..).trans (kept_bar2Refuse ..)
  split
  exact (kept_emit ..).trans (kept_snd2 ‹_› (kept_devRead ..))

theorem kept_execBar2Write (off : BitVec 36) (bytes : List (Option Byte)) (s : State) :
    ((execBar2Write off bytes s).after s).kept = s.kept := by
  simp only [execBar2Write, ↓after_next, ↓after_ite, ↓kept_ite]
  split
  · rfl
  · split
    · simp only [↓after_next, ↓kept_bar2Refuse]
    · simp only [↓after_next, ↓kept_devWrite]

theorem kept_hostReadFail (s : State) (r : HostRead) (timeout poison : Bool) :
    (s.hostReadFail r timeout poison).kept = s.kept := by
  simp only [State.hostReadFail]
  split
  · simp only [↓kept_countSat, ↓kept_setFlag, ↓kept_walkResponse]
  · simp only [↓kept_countSat, ↓kept_setFlag, ↓kept_emit]
  · simp only [↓kept_countSat, ↓kept_setFlag, ↓kept_contextFault, ↓kept_recC, ↓kept_cutOp]
  · simp only [↓kept_countSat, ↓kept_setFlag, ↓kept_contextFault, ↓kept_recC]
  · simp only [↓kept_countSat, ↓kept_setFlag, ↓kept_contextFault, ↓kept_recC, ↓kept_releaseRead]

theorem kept_hostReadTake {s t : State} {id : Nat} {x : HostRead} (h : s.hostReadTake id = some (x, t)) : t.kept = s.kept := by
  unfold State.hostReadTake at h
  obtain ⟨r, -, hr⟩ := Option.map_eq_some_iff.1 h
  obtain ⟨-, rfl⟩ := Prod.mk.inj hr
  simp only [↓kept_mk, ↓kept_pair]

theorem kept_execHostReadCompletion (id) (r) (s : State) : ((execHostReadCompletion id r s).after s).kept = s.kept := by
  unfold execHostReadCompletion
  split
  · rfl
  · rename_i h
    rw [← kept_hostReadTake h]
    simp only [↓after_next, ↓after_ite, ↓kept_ite, ↓after_next]
    split
    · rfl
    · split
      · simp only [↓after_next, ↓after_next]
        split
        · simp only [↓kept_kernelData, ↓kept_kernelData]
        · simp only [↓kept_walkResponse, ↓kept_walkResponse]
        · simp only [↓kept_fenceRead, ↓kept_fenceRead]
        · simp only [↓kept_releaseRead, ↓kept_releaseRead]
        · rfl
      · simp only [↓after_next, ↓kept_hostReadFail, ↓kept_hostReadFail, ↓after_next]
      · simp only [↓after_next, ↓kept_hostReadFail, ↓kept_hostReadFail, ↓after_next]

theorem kept_execHostReadTimeout (id) (s : State) : ((execHostReadTimeout id s).after s).kept = s.kept := by
  unfold execHostReadTimeout
  split
  · rfl
  · simp only [↓after_ite, ↓after_next, ↓kept_ite, kept_hostReadFail, kept_hostReadTake ‹_›, ite_self]

theorem kept_execMsixHoldoffExpire (vec : Fin 64) (s : State) : ((execMsixHoldoffExpire vec s).after s).kept = s.kept := by
  simp only [execMsixHoldoffExpire]
  split
  · simp only [↓after_next, ↓after_ite, ↓kept_mk, ↓kept_pair, ↓kept_ite, ↓kept_setFlag, ↓kept_msixSend, ite_self]
  · simp only [↓after_next]

theorem kept_msixUnmasked (s : State) (v : Nat) : (s.msixUnmasked v).kept = s.kept := by
  simp only [State.msixUnmasked, ↓kept_ite, ↓kept_msixGo, ↓kept_clearFlag, ite_self]

theorem kept_execMsixUnmask (vec : Fin 64) (s : State) : ((execMsixUnmask vec s).after s).kept = s.kept := by
  simp only [execMsixUnmask, ↓after_next, ↓after_ite, ↓kept_ite, ↓kept_msixUnmasked, ↓kept_clearFlag, ite_self]

theorem kept_mbPut (s : State) (m : Nat) (w : Word) : (s.mbPut m w).kept = s.kept := by
  simp only [State.mbPut, ↓kept_mk, ↓kept_pair, ↓kept_ite, ↓kept_countWrap, ↓kept_setFlag, ↓kept_setReg, ite_self]

theorem kept_mbFilled (s : State) (m : Nat) : (s.mbFilled m).kept = s.kept := by
  simp only [State.mbFilled, ↓kept_mk, ↓kept_pair, ↓kept_ite, ↓kept_raiseHif, ite_self]

theorem kept_mbPost (s : State) (m : Nat) (w : Word) : (s.mbPost m w).kept = s.kept := by
  simp only [State.mbPost, ↓kept_ite, ↓kept_rec0, ↓kept_setFlag, ↓kept_mbFilled, ↓kept_mbPut, ite_self]

theorem kept_mbTake (s : State) (m : Nat) : (s.mbTake m).kept = s.kept := by
  simp only [State.mbTake, ↓kept_mk, ↓kept_pair, ↓kept_ite, ↓kept_clearFlag, ite_self]

theorem kept_execMailboxWrite (m : Fin 10) (from_ : Agent) (w : Word) (s : State) :
    ((execMailboxWrite m from_ w s).after s).kept = s.kept := by
  simp only [execMailboxWrite, ↓after_next, ↓after_ite, ↓kept_ite, ↓kept_mbPost, ite_self]

theorem kept_execMailboxRead (m : Fin 10) (by_ : Agent) (s : State) : ((execMailboxRead m by_ s).after s).kept = s.kept := by
  simp only [execMailboxRead, ↓after_next, ↓kept_ite, ↓kept_emit, ↓kept_mbTake, ite_self]

theorem kept_linkLost (s : State) : s.linkLost.kept = s.kept := by
  simp only [State.linkLost, ↓kept_mk, ↓kept_pair, ↓kept_ite, ↓kept_clearFlag, ↓kept_hostReadFail, ↓kept_countSat, ↓kept_rec0,
    kept_foldl, ite_self, implies_true]

theorem kept_execLinkDown (s : State) : ((execLinkDown s).after s).kept = s.kept := by
  simp only [execLinkDown, ↓after_next, ↓after_ite, ↓kept_ite, ↓kept_linkLost, ite_self]

theorem kept_execLinkRecovery (s : State) : ((execLinkRecovery s).after s).kept = s.kept := by
  simp only [execLinkRecovery, ↓after_next, ↓after_ite, ↓kept_ite, ↓kept_countSat, ↓kept_rec0, ite_self]

theorem kept_execLinkTraining (gen width : Fin 5) (atomics : BitVec 6) (s : State) :
    ((execLinkTraining gen width atomics s).after s).kept = s.kept := by
  simp only [execLinkTraining, ↓after_next, ↓after_ite, ↓kept_mk, ↓kept_pair, ↓kept_ite, ↓kept_setFld, ↓kept_setFlag, ite_self]

theorem kept_configReset (s : State) : s.configReset.kept = s.kept := by
  simp only [State.configReset, ↓kept_mk, ↓kept_pair]

theorem kept_execPerstAssert (s : State) : ((execPerstAssert s).after s).kept = s.kept := by
  simp only [execPerstAssert, ↓after_next, ↓after_ite, ↓kept_ite, ↓kept_configReset, ↓kept_linkLost, ↓kept_clearFlag, ite_self]

theorem kept_execI2cAddressMatch (a : BitVec 7) (s : State) : ((execI2cAddressMatch a s).after s).kept = s.kept := by
  simp only [execI2cAddressMatch, ↓after_next, ↓after_ite, ↓kept_mk, ↓kept_pair, ↓kept_ite, ite_self]

theorem kept_i2cIdle (s : State) : s.i2cIdle.kept = s.kept := by
  simp only [State.i2cIdle, ↓kept_mk, ↓kept_pair]

theorem kept_execI2cSclTimeout (s : State) : ((execI2cSclTimeout s).after s).kept = s.kept := by
  simp only [execI2cSclTimeout, ↓after_next, ↓kept_i2cIdle]

theorem kept_i2cRun (s : State) (cmd count : Nat) (r : I2cRequest) {f : List Byte → State → List Byte × State} (hf : ∀ bs s, (f bs
  s).2.kept = s.kept) :
    (s.i2cRun cmd count r f).kept = s.kept := by
  simp only [State.i2cRun, ↓kept_ite, ↓kept_i2cIdle, ↓kept_rec0, ↓kept_emit, ite_self, ↓hf]

theorem kept_execIdent (r : I2cRequest) (s : State) : ((execIdent r s).after s).kept = s.kept := by
  simp only [execIdent, ↓after_next, ↓kept_i2cRun, implies_true]

theorem kept_execStatus (r : I2cRequest) (s : State) : ((execStatus r s).after s).kept = s.kept := by
  simp only [execStatus, ↓after_next, ↓kept_i2cRun, implies_true]

theorem kept_execMsgPut (r : I2cRequest) (s : State) : ((execMsgPut r s).after s).kept = s.kept := by
  simp only [execMsgPut, ↓after_next, ↓kept_i2cRun, ↓kept_mbPost, implies_true]

theorem kept_execMsgGet (r : I2cRequest) (s : State) : ((execMsgGet r s).after s).kept = s.kept := by
  simp only [execMsgGet, ↓after_next, ↓kept_ite, ↓ite_snd, ↓kept_i2cRun, ↓kept_mbTake, ite_self, implies_true]

end Sys2Proof.Machine
end

section
/-! PROOFS. The queue and one-time storage under the functions of Dmc.lean: the DRAM controllers. -/

namespace Sys2Proof.Machine

theorem kept_violation (s : State) (unit a v : Nat) : (s.violation unit a v).kept = s.kept := by
  simp only [State.violation, ↓kept_ite, ↓kept_setFlag, ↓kept_rec0, ite_self]

theorem kept_remapCopy (s : State) (line : Nat) : (s.remapCopy line).kept = s.kept := by
  simp only [State.remapCopy, ↓kept_ite, ↓kept_rec0, ↓kept_countSat, ↓kept_setMark, ↓kept_countBytes, kept_foldl, ite_self,
    implies_true]

theorem kept_rmpCmd (s : State) (v : Word) : (s.rmpCmd v).kept = s.kept := by
  simp only [State.rmpCmd, ↓kept_ite, ↓kept_setReg, ↓kept_setFld, ↓kept_remapCopy, ↓kept_setReg64, ↓kept_clearFlag, ↓kept_setFlag,
    ite_self]

theorem kept_execRmpAdd (v : Word) (s : State) : ((execRmpAdd v s).after s).kept = s.kept := by
  simp only [execRmpAdd, ↓after_next, ↓after_ite, ↓kept_ite, ↓kept_rmpCmd, ite_self]

theorem kept_execRmpRemove (v : Word) (s : State) : ((execRmpRemove v s).after s).kept = s.kept := by
  simp only [execRmpRemove, ↓after_next, ↓after_ite, ↓kept_ite, ↓kept_rmpCmd, ite_self]

theorem kept_mapApply (s : State) (new : List Region) : (s.mapApply new).kept = s.kept := by
  simp only [State.mapApply, ↓kept_mk, ↓kept_pair, ↓kept_l2Do, ↓kept_setReg, ↓kept_setFld, ↓kept_setReg64, kept_foldl,
    implies_true]

theorem kept_mapGo (s : State) : s.mapGo.kept = s.kept := by
  simp only [State.mapGo, ↓kept_ite, ↓kept_setFld, ↓kept_setFlag, ↓kept_mapApply, ite_self]

theorem kept_execMapCommit (v : Word) (s : State) : ((execMapCommit v s).after s).kept = s.kept := by
  simp only [execMapCommit, ↓after_next, ↓after_ite, ↓kept_ite, ↓kept_violation, ↓kept_mapGo, ite_self]

theorem kept_scrubCw (s : State) (n : Nat) : (s.scrubCw n).kept = s.kept := by
  simp only [State.scrubCw, ↓kept_mk, ↓kept_pair, ↓kept_ite, ↓kept_rec0, ↓kept_countSat, ↓kept_countBytes, ↓kept_setMark,
    ite_self]

theorem kept_upset (s : State) (line : Nat) (es : List (Fin 4 × Bool)) : (s.upset line es).kept = s.kept := by
  simp only [State.upset, ↓kept_ite, ↓kept_setMark, kept_foldl, ite_self, implies_true]

theorem kept_execScrubVisit (upsets : List (Fin 4 × Bool)) (s : State) : ((execScrubVisit upsets s).after s).kept = s.kept := by
  simp only [execScrubVisit, ↓after_next, ↓after_ite, ↓kept_ite]
  split
  · rfl
  · split
    · simp only [↓after_next]
      split
      · simp only [↓kept_countBytes, ↓kept_upset, ↓kept_scrubCw, ↓kept_setReg64, kept_foldl, implies_true]
      · simp only [↓kept_countBytes, ↓kept_upset, ↓kept_scrubCw, ↓kept_setReg64, ↓kept_countWrap, kept_foldl, implies_true]
    · simp only [↓after_next]

theorem kept_execMr4Poll (ch : Fin 16) (rate : BitVec 5) (beyond : Bool) (s : State) :
    ((execMr4Poll ch rate beyond s).after s).kept = s.kept := by
  simp only [execMr4Poll, ↓after_next, ↓after_ite, ↓kept_mk, ↓kept_pair, ↓kept_ite, ↓kept_setFld, ↓kept_rec0, ↓kept_sopUpdate,
    ite_self]

theorem kept_execZqCalibration (s : State) : ((execZqCalibration s).after s).kept = s.kept := by
  simp only [execZqCalibration, ↓after_next, ↓after_ite, ↓kept_mk, ↓kept_pair, ↓kept_ite, ite_self]

theorem kept_execDramPowerDown (ch : Fin 16) (s : State) : ((execDramPowerDown ch s).after s).kept = s.kept := by
  simp only [execDramPowerDown, ↓after_next, ↓after_ite, ↓kept_mk, ↓kept_pair, ↓kept_ite, ite_self]

end Sys2Proof.Machine
end

section
/-! PROOFS. The queue and one-time storage under the functions of Image.lean: the flash and the image. -/

namespace Sys2Proof.Machine

theorem kept_clamp (s : State) (kind sect low idx w1 given used : Nat) :
    (s.clamp kind sect low idx w1 given used).kept = s.kept := by
  simp only [State.clamp, ↓kept_ite, ↓kept_setFld, ↓kept_setRegs, ↓kept_countSat, ↓kept_rec0, ite_self]

theorem kept_takeParam (s : State) (sect idx id v : Nat) : (s.takeParam sect idx id v).kept = s.kept := by
  simp only [State.takeParam]
  split
  · simp only [↓kept_clamp]
  · simp only [↓kept_mk, ↓kept_pair]
    split
    · simp only [↓kept_clamp]
      refine kept_foldl2 (fun r s x => ?_) _ _
      dsimp only
      split
      · rfl
      · simp only [↓kept_clamp]
    · dsimp only
      refine kept_foldl2 (fun r s x => ?_) _ _
      dsimp only
      split
      · rfl
      · simp only [↓kept_clamp]

theorem kept_takeParams (s : State) (base : Nat) (x : Section) (n i : Nat) : (s.takeParams base x n i).kept = s.kept := by
  induction n generalizing s i with
  | zero => rfl
  | succ n ih =>
    simp only [State.takeParams]
    split
    · rfl
    · simp only [↓kept_takeParam, ih]
    · simp only [↓kept_clamp, ih]

theorem kept_flowParam (s : State) (base : Nat) (sect : Nat) : (s.flowParam base sect).kept = s.kept := by
  simp only [State.flowParam, ↓kept_mk, ↓kept_pair, ↓kept_ite, ↓kept_clamp, ite_self]

end Sys2Proof.Machine
end

section
/-! PROOFS. The queue and one-time storage under the functions of Reset.lean: resets and what begins a start. -/

namespace Sys2Proof.Machine

theorem kept_startStops (s : State) (st code : Nat) : (s.startStops st code).kept = s.kept := by
  simp only [State.startStops, ↓kept_setFld]

theorem kept_hearthLoad (s : State) (k : Nat) : (s.hearthLoad k).kept = s.kept := by
  simp only [State.hearthLoad, ↓kept_mk, ↓kept_pair, ↓kept_ite, ↓kept_takeParams, ↓kept_flowParam, kept_foldl, ite_self,
    implies_true]

theorem kept_useSlot (s : State) (k : Nat) (load : Bool) : (s.useSlot k load).kept = s.kept := by
  simp only [State.useSlot, ↓kept_mk, ↓kept_pair, ↓kept_ite, ↓kept_hearthLoad, ↓kept_setFld, ↓kept_setReg, ite_self]

theorem kept_chooseSlot (s : State) : s.chooseSlot.kept = s.kept := by
  simp only [State.chooseSlot]
  split
  · simp only [↓kept_useSlot]
  · simp only [↓kept_useSlot, ↓kept_rec0]
  · simp only [↓kept_startStops]

theorem kept_warmSlot (s : State) : s.warmSlot.kept = s.kept := by
  simp only [State.warmSlot]
  split
  · simp only [↓kept_chooseSlot]
  · simp only [↓kept_ite, ↓kept_chooseSlot, ↓kept_useSlot, ite_self]

theorem kept_flashCut (s : State) : s.flashCut.kept = s.kept := by
  simp only [State.flashCut]
  split
  · rfl
  · simp only [↓kept_mk, ↓kept_pair]

theorem kept_powerOn (s : State) : s.powerOn.kept = s.kept := by
  simp only [State.powerOn, ↓kept_mk, ↓kept_pair, ↓kept_flashCut]

theorem kept_execPorNLow (s : State) : ((execPorNLow s).after s).kept = s.kept := by
  simp only [execPorNLow, ↓after_next, ↓kept_powerOn]

theorem kept_domainsReset (s : State) (keep : Nat → Bool) : (s.domainsReset keep).kept = s.kept := by
  simp only [State.domainsReset, ↓kept_mk, ↓kept_pair, ↓kept_setRegs, ↓kept_setReg, ↓kept_setFld]

theorem kept_repairsAgain (s : State) : s.repairsAgain.kept = s.kept := by
  simp only [State.repairsAgain, ↓kept_rec0, kept_foldl, implies_true]

theorem kept_warmFrom (s : State) (bad : List (Nat × Nat)) : (s.warmFrom bad).kept = s.kept := by
  simp only [State.warmFrom, ↓kept_mk, ↓kept_pair, ↓kept_domainsReset, ↓kept_flashCut, ↓kept_setReg, ↓kept_setFld, ↓kept_setPhase,
    ↓kept_repairsAgain, ↓kept_warmSlot, ↓kept_collectHeld]

theorem kept_warmReset (s : State) : s.warmReset.kept = s.kept := by
  simp only [State.warmReset, ↓kept_warmFrom]

theorem kept_execWarmReset (s : State) : ((execWarmReset s).after s).kept = s.kept := by
  simp only [execWarmReset, ↓after_next, ↓after_ite, ↓kept_ite, ↓kept_warmReset, ite_self]

theorem kept_glbRst (s : State) (v : Word) : (s.glbRst v).kept = s.kept := by
  simp only [State.glbRst, ↓kept_ite, ↓kept_warmReset, ite_self]

theorem kept_execGlbRst (v : Word) (s : State) : ((execGlbRst v s).after s).kept = s.kept := by
  simp only [execGlbRst, ↓after_next, ↓kept_glbRst]

theorem kept_execSysrst (s : State) : ((execSysrst s).after s).kept = s.kept := by
  simp only [execSysrst, ↓after_next, ↓after_ite, ↓kept_ite, ↓kept_warmReset, ite_self]

theorem kept_execFatalResetTimer (s : State) : ((execFatalResetTimer s).after s).kept = s.kept := by
  simp only [execFatalResetTimer]
  split
  · simp only [↓after_next, ↓after_ite, ↓kept_ite, ↓kept_warmReset, ite_self]
  · simp only [↓after_next]

theorem kept_execMainSupplyReturn (s : State) : ((execMainSupplyReturn s).after s).kept = s.kept := by
  simp only [execMainSupplyReturn, ↓after_next, ↓after_ite, ↓kept_mk, ↓kept_pair, ↓kept_ite, ↓kept_clearFlag, ↓kept_warmReset,
    ↓kept_configReset, ite_self]

theorem kept_s3Release (s : State) : s.s3Release.kept = s.kept := by
  simp only [State.s3Release, ↓kept_mk, ↓kept_pair, ↓kept_domainsReset, ↓kept_setFld, ↓kept_collectHeld]

theorem kept_execPowerOnReset (sramOk sfdp : Bool) (s : State) : ((execPowerOnReset sramOk sfdp s).after s).kept = s.kept := by
  simp only [execPowerOnReset, ↓after_next, ↓after_ite, ↓kept_mk, ↓kept_pair, ↓kept_ite, ↓kept_startStops, ↓kept_chooseSlot,
    ↓kept_setFld, ite_self]

theorem kept_raiseRails (s : State) (l : List Rail) : (s.raiseRails l).kept = s.kept := by
  simp only [State.raiseRails, ↓kept_ite, ↓kept_emit, kept_foldl, ite_self, implies_true]

theorem kept_execRailsReady (dropped : List (Fin 8)) (s : State) : ((execRailsReady dropped s).after s).kept = s.kept := by
  simp only [execRailsReady, ↓after_next, ↓after_ite, ↓kept_mk, ↓kept_pair, ↓kept_ite, ↓kept_clamp, ↓kept_collectHeld,
    ↓kept_raiseRails, kept_foldl, ite_self, implies_true]

theorem kept_execRailsTimeout (s : State) : ((execRailsTimeout s).after s).kept = s.kept := by
  simp only [execRailsTimeout, ↓after_next, ↓after_ite, ↓kept_ite, ↓kept_startStops, ite_self]

end Sys2Proof.Machine
end

section
/-! PROOFS. The queue and one-time storage under the functions of Power.lean: power states. -/

namespace Sys2Proof.Machine

theorem kept_audioPump (s : State) : s.audioPump.kept = s.kept := by
  simp only [State.audioPump]
  split
  · rfl
  · simp only [↓kept_mk, ↓kept_pair, ↓kept_ite, ↓kept_devWrite, ↓kept_setReg, ite_self]

theorem kept_audioBegin (s : State) (start : Nat) : (s.audioBegin start).kept = s.kept := by
  simp only [State.audioBegin, ↓kept_mk, ↓kept_pair, ↓kept_ite, ↓kept_setReg, ↓kept_audioPump, ite_self]

theorem kept_kwsRaise (s : State) (d : Detection) : (s.kwsRaise d).kept = s.kept := by
  simp only [State.kwsRaise, ↓kept_ite, ↓kept_countSat, ↓kept_setReg, ↓kept_setFlag, ↓kept_setReg64, ↓kept_audioBegin,
    ↓kept_raiseHif, ite_self]

theorem kept_kwsPump (s : State) : s.kwsPump.kept = s.kept := by
  simp only [State.kwsPump, ↓kept_mk, ↓kept_pair, ↓kept_ite, ↓kept_kwsRaise, kept_foldl, ite_self, implies_true]

theorem kept_wakeRecord (s : State) (src t : Nat) : (s.wakeRecord src t).kept = s.kept := by
  simp only [State.wakeRecord, ↓kept_setReg64, ↓kept_countWrap, ↓kept_setFld]

theorem kept_wakeHost (s : State) (src : Nat) (en : Bool) : (s.wakeHost src en).kept = s.kept := by
  simp only [State.wakeHost, ↓kept_mk, ↓kept_pair, ↓kept_ite, ite_self]

theorem kept_entryAbort (s : State) (point src t : Nat) : (s.entryAbort point src t).kept = s.kept := by
  simp only [State.entryAbort, ↓kept_mk, ↓kept_pair, ↓kept_countSat, ↓kept_setFlag, ↓kept_setPhase, ↓kept_setFld, ↓kept_audioPump,
    ↓kept_kwsPump, ↓kept_wakeHost, ↓kept_wakeRecord]

theorem kept_railsDown (s : State) (state : Nat) : (s.railsDown state).kept = s.kept := by
  simp only [State.railsDown, ↓kept_ite]
  split
  · rfl
  · refine kept_foldl (fun s x => ?_) _ _
    split
    · simp only [↓kept_railAsk]
    · rfl

theorem kept_railsUp (s : State) (why : RailWhy) : (s.railsUp why).kept = s.kept := by
  simp only [State.railsUp, ↓kept_ite, ↓kept_railAsk, kept_foldl, ite_self, implies_true]

theorem kept_exitBegin (s : State) (src t : Nat) : (s.exitBegin src t).kept = s.kept := by
  simp only [State.exitBegin, ↓kept_mk, ↓kept_pair, ↓kept_setPhase, ↓kept_wakeRecord, ↓kept_railsUp]

theorem kept_wake (s : State) (src : Nat) : (s.wake src).kept = s.kept := by
  simp only [State.wake, ↓kept_ite]
  split
  · rfl
  · split
    · simp only [↓kept_mk, ↓kept_pair]
    · simp only [↓kept_ite, ↓kept_exitBegin, ite_self]

theorem kept_execWakeEvent (source : Fin 6) (s : State) : ((execWakeEvent source s).after s).kept = s.kept := by
  simp only [execWakeEvent, ↓after_next, ↓kept_wake]

theorem kept_execPerstDeassert (s : State) : ((execPerstDeassert s).after s).kept = s.kept := by
  simp only [execPerstDeassert, ↓after_next, ↓after_ite, ↓kept_ite, ↓kept_wake, ite_self]

theorem kept_execAlarmExpire (s : State) : ((execAlarmExpire s).after s).kept = s.kept := by
  simp only [execAlarmExpire, ↓after_next, ↓after_ite, ↓kept_mk, ↓kept_pair, ↓kept_ite, ↓kept_wake, ite_self]

theorem kept_execA1Entry (s : State) : ((execA1Entry s).after s).kept = s.kept := by
  simp only [execA1Entry, ↓after_next, ↓after_ite, ↓kept_ite, ↓kept_setFlag, ↓kept_setFld, ite_self]

theorem kept_pwrReq (s : State) (v : Word) : (s.pwrReq v).kept = s.kept := by
  simp only [State.pwrReq, ↓kept_mk, ↓kept_pair, ↓kept_ite, ↓kept_setFld, ↓kept_setPhase, ↓kept_pwrCheck, ↓kept_pwrPending,
    ite_self]

theorem kept_execPowerRequest (v : Word) (s : State) : ((execPowerRequest v s).after s).kept = s.kept := by
  simp only [execPowerRequest, ↓after_next, ↓after_ite, ↓kept_ite, ↓kept_pwrReq, ite_self]

theorem kept_execPowerRequestCancel (v : Word) (s : State) : ((execPowerRequestCancel v s).after s).kept = s.kept := by
  simp only [execPowerRequestCancel, ↓after_next, ↓after_ite, ↓kept_ite, ↓kept_pwrReq, ite_self]

theorem kept_execPowerLinkTimeout (s : State) : ((execPowerLinkTimeout s).after s).kept = s.kept := by
  simp only [execPowerLinkTimeout]
  split
  · simp only [↓after_next, ↓after_ite, ↓kept_mk, ↓kept_pair, ↓kept_ite, ↓kept_pwrRefuse, ↓kept_setPhase, ite_self]
  · simp only [↓after_next]

theorem kept_execLinkL2Entry (s : State) : ((execLinkL2Entry s).after s).kept = s.kept := by
  simp only [execLinkL2Entry, ↓after_next, ↓after_ite, ↓kept_mk, ↓kept_pair, ↓kept_ite, ↓kept_clearFlag, ↓kept_pwrPending,
    ite_self]

theorem kept_execPowerReq (r : I2cRequest) (s : State) : ((execPowerReq r s).after s).kept = s.kept := by
  simp only [execPowerReq, ↓after_next, ↓after_ite, ↓kept_mk, ↓kept_pair, ↓kept_ite, ↓ite_snd, ↓kept_i2cRun, ↓kept_wake,
    ↓kept_pwrCheck, ite_self, implies_true]

theorem kept_entryWork (s : State) (e : Entry) (step : Nat) : (s.entryWork e step).kept = s.kept := by
  simp only [State.entryWork]
  split
  · simp only [↓kept_ite, ↓kept_l2Do, ite_self]
  · simp only [↓kept_mk, ↓kept_pair, ↓kept_ite, ite_self]
  · simp only [↓kept_mk, ↓kept_pair]
  · rfl

theorem kept_entryDone (s : State) (e : Entry) : (s.entryDone e).kept = s.kept := by
  simp only [State.entryDone]
  split
  · simp only [↓kept_mk, ↓kept_pair, ↓kept_ite, ↓kept_setPhase, ↓kept_setFld, ↓kept_setFlag, ↓kept_exitBegin, ite_self]
  · simp only [↓kept_mk, ↓kept_pair, ↓kept_ite, ↓kept_setPhase, ↓kept_setFld, ↓kept_setFlag, ite_self]

theorem kept_execEntryStepComplete (s : State) : ((execEntryStepComplete s).after s).kept = s.kept := by
  simp only [execEntryStepComplete]
  split
  · simp only [↓after_next]
  · simp only [↓after_next, ↓after_ite, ↓kept_ite, ↓kept_entryDone, ite_self]
    split
    · rfl
    · split
      · rfl
      · split
        · simp only [↓after_next, ↓kept_mk, ↓kept_pair, ↓kept_entryWork, ↓kept_entryAbort]
        · simp only [↓after_next, ↓after_ite, ↓kept_mk, ↓kept_pair, ↓kept_ite, ↓kept_entryWork, ↓kept_clearFlag, ↓kept_railsDown,
            ite_self]

theorem kept_supplyLost (s : State) (domain rail : Nat) : (s.supplyLost domain rail).kept = s.kept := by
  simp only [State.supplyLost, ↓kept_mk, ↓kept_pair, ↓kept_rec0]

theorem kept_execPmbusAckPoll (word : BitVec 16) (mv : Nat) (busOk : Bool) (s : State) :
    ((execPmbusAckPoll word mv busOk s).after s).kept = s.kept := by
  simp only [execPmbusAckPoll]
  split
  · rename_i h
    obtain rfl := snd_of_eq h
    simp only [↓after_next, ↓kept_railPoll]
  · rename_i h
    obtain rfl := snd_of_eq h
    split
    · simp only [↓after_next, ↓kept_railPoll, ↓kept_sopUpdate]
    · simp only [↓after_next, ↓kept_ite, ↓kept_railPoll]
      split
      · rfl
      · split
        · simp only [↓kept_railPoll, ↓kept_entryAbort]
        · simp only [↓kept_railPoll]
    · simp only [↓after_next, ↓kept_railPoll]
  · rename_i h
    obtain rfl := snd_of_eq h
    split
    · simp only [↓after_next, ↓kept_mk, ↓kept_pair, ↓kept_ite, ↓kept_railPoll, ↓kept_entryAbort, ↓kept_rec0, ↓kept_railsUp,
        ite_self]
    · simp only [↓after_next, ↓kept_ite, ↓kept_railPoll, ↓kept_entryAbort, ite_self]
    · simp only [↓after_next, ↓kept_mk, ↓kept_pair, ↓kept_railPoll]
    · simp only [↓after_next, ↓kept_railPoll, ↓kept_railSend]

theorem kept_execPmbusAlert (words : List (Fin 8 × BitVec 16)) (s : State) :
    ((execPmbusAlert words s).after s).kept = s.kept := by
  simp only [execPmbusAlert, ↓after_next]
  refine kept_foldl (fun s x => ?_) _ _
  split
  · rfl
  · simp only [↓kept_ite, ↓kept_emit, ↓kept_rec0, ↓kept_supplyLost, ite_self]

theorem kept_vbakIs (s : State) (mv : Nat) : (s.vbakIs mv).kept = s.kept := by
  simp only [State.vbakIs, ↓kept_setFld]

theorem kept_execSupplyHandover (mv : BitVec 16) (s : State) : ((execSupplyHandover mv s).after s).kept = s.kept := by
  simp only [execSupplyHandover, ↓after_next, ↓after_ite, ↓kept_ite, ↓kept_vbakIs, ↓kept_powerOn, ↓kept_setFlag, ↓kept_rec0,
    ↓kept_countSat, ite_self]

theorem kept_execSupplyReturn (mv : BitVec 16) (s : State) : ((execSupplyReturn mv s).after s).kept = s.kept := by
  simp only [execSupplyReturn, ↓after_next, ↓after_ite, ↓kept_ite, ↓kept_clearFlag, ↓kept_rec0, ↓kept_countSat, ite_self]

theorem kept_execVbakLow (mv : BitVec 16) (s : State) : ((execVbakLow mv s).after s).kept = s.kept := by
  simp only [execVbakLow, ↓after_next, ↓after_ite, ↓kept_ite, ↓kept_powerOn, ↓kept_vbakIs, ite_self]

theorem kept_execMainSupplyLoss (domain : Fin 2) (rail : BitVec 32) (s : State) :
    ((execMainSupplyLoss domain rail s).after s).kept = s.kept := by
  simp only [execMainSupplyLoss, ↓after_next, ↓after_ite, ↓kept_ite, ↓kept_supplyLost, ite_self]

theorem kept_execAudioFrameSampled (in0 in1 : BitVec 16) (s : State) :
    ((execAudioFrameSampled in0 in1 s).after s).kept = s.kept := by
  simp only [execAudioFrameSampled, ↓after_next, ↓after_ite, ↓kept_mk, ↓kept_pair, ↓kept_ite, ↓kept_audioPump, ite_self]

theorem kept_execKwsEvaluation (score : BitVec 8) (phrase : Nat) (s : State) :
    ((execKwsEvaluation score phrase s).after s).kept = s.kept := by
  simp only [execKwsEvaluation, ↓after_next, ↓after_ite, ↓kept_mk, ↓kept_pair, ↓kept_ite, ↓kept_kwsPump, ↓kept_wake, ite_self]

theorem kept_powerLower (s : State) (m : Nat) : (s.powerLower m).kept = s.kept := by
  simp only [State.powerLower, ↓kept_mk, ↓kept_pair, ↓kept_ite, ↓kept_sopUpdate, ↓kept_setFld, ↓kept_rec0, ↓kept_setFlag,
    ite_self]

theorem kept_powerRestore (s : State) : s.powerRestore.kept = s.kept := by
  simp only [State.powerRestore]
  split
  · simp only [↓kept_mk, ↓kept_pair]
  · simp only [↓kept_mk, ↓kept_pair, ↓kept_ite, ↓kept_setFld, ↓kept_sopUpdate, ite_self]

theorem kept_execPowerEstimate (mw) (board) (s : State) : ((execPowerEstimate mw board s).after s).kept = s.kept := by
  unfold execPowerEstimate
  obtain ⟨under, eu⟩ : ∃ f, f = meanUnder := ⟨_, rfl⟩
  obtain ⟨above, eo⟩ : ∃ f, f = meanOver := ⟨_, rfl⟩
  rw [← eu]
  rw [← eo]
  split
  · rfl
  extract_lets limit s1 e s2 p2 s3 l p3 s4
  have h3 : State.kept s3 = s.kept := kept_upd.trans ((kept_count64 ..).trans (kept_setFld ..))
  have h4 : State.kept s4 = s.kept := by
    unfold s4
    split
    · exact kept_upd.trans h3
    · exact h3
  split
  · exact (kept_powerLower ..).trans h4
  split
  · exact (kept_powerRestore ..).trans h4
  · exact kept_upd.trans h4

theorem kept_thermCaps (s : State) (top : Int) (sensor : Nat) : (s.thermCaps top sensor).kept = s.kept := by
  simp only [State.thermCaps, ↓kept_mk, ↓kept_pair, ↓kept_ite, ↓kept_setFlag, ↓kept_rec0, ↓kept_sopUpdate, ite_self]
  split
  · rfl
  · split
    · split
      · simp only [↓kept_mk, ↓kept_pair, ↓kept_ite, ite_self]
      · simp only [↓kept_mk, ↓kept_pair, ↓kept_ite, ↓kept_sopUpdate, ↓kept_clearFlag, ite_self]
    · rfl

theorem kept_thermTrip (s : State) (top : Int) (sensor : Nat) : (s.thermTrip top sensor).kept = s.kept := by
  simp only [State.thermTrip, ↓kept_mk, ↓kept_pair, ↓kept_rec0, ↓kept_setPhase]

theorem kept_execThermalSample (readings : List (BitVec 8)) (s : State) :
    ((execThermalSample readings s).after s).kept = s.kept := by
  simp only [execThermalSample, ↓after_next, ↓after_ite, ↓kept_mk, ↓kept_pair, ↓kept_ite, ↓kept_setFld, ↓kept_thermTrip,
    ↓kept_thermCaps, ite_self]
  split
  · split
    · rfl
    · split
      · simp only [↓after_next, ↓kept_mk, ↓kept_pair, ↓kept_setFld]
      · simp only [↓after_next, ↓after_ite, ↓kept_mk, ↓kept_pair, ↓kept_ite, ↓kept_setFld, ↓kept_warmReset, ite_self]
  · rfl

theorem kept_execHearthTimekeepingTick (s : State) : ((execHearthTimekeepingTick s).after s).kept = s.kept := by
  simp only [execHearthTimekeepingTick, ↓after_next, ↓after_ite, ↓kept_mk, ↓kept_pair, ↓kept_ite, ite_self]

theorem kept_execExitTimeout (rail : BitVec 8) (s : State) : ((execExitTimeout rail s).after s).kept = s.kept := by
  simp only [execExitTimeout]
  split
  · simp only [↓after_next]
  · simp only [↓after_next, ↓after_ite, ↓kept_mk, ↓kept_pair, ↓kept_ite, ↓kept_rec0, ↓kept_startStops, ↓kept_setPhase, ite_self]

end Sys2Proof.Machine
end

section
/-! PROOFS. The queue and one-time storage under the functions of Debug.lean: the flash path, debug sessions and the JTAG port. -/

namespace Sys2Proof.Machine

theorem kept_flashErr (s : State) (cause : Nat) : (s.flashErr cause).kept = s.kept := by
  simp only [State.flashErr, ↓kept_setFld, ↓kept_setFlag]

theorem kept_flashCmd (s : State) (v : Word) : (s.flashCmd v).kept = s.kept := by
  simp only [State.flashCmd, ↓kept_mk, ↓kept_pair, ↓kept_ite, ↓kept_setReg, ↓kept_flashErr, ↓kept_setFlag, ite_self]

theorem kept_flashRow (s : State) (v : Word) (op : Nat) : ((s.flashRow v op).after s).kept = s.kept := by
  simp only [State.flashRow, ↓after_next, ↓after_ite, ↓kept_ite, ↓kept_flashCmd, ite_self]

theorem kept_execFlashRead (v : Word) (s : State) : ((execFlashRead v s).after s).kept = s.kept := by
  simp only [execFlashRead, ↓kept_flashRow]

theorem kept_execFlashProgram (v : Word) (s : State) : ((execFlashProgram v s).after s).kept = s.kept := by
  simp only [execFlashProgram, ↓kept_flashRow]

theorem kept_execFlashErase4k (v : Word) (s : State) : ((execFlashErase4k v s).after s).kept = s.kept := by
  simp only [execFlashErase4k, ↓kept_flashRow]

theorem kept_execFlashErase64k (v : Word) (s : State) : ((execFlashErase64k v s).after s).kept = s.kept := by
  simp only [execFlashErase64k, ↓kept_flashRow]

theorem kept_flashPut (s : State) (a : Nat) (bs : List Byte) : (s.flashPut a bs).kept = s.kept := by
  simp only [State.flashPut, ↓kept_mk, ↓kept_pair]

theorem kept_flashEffect (s : State) (op a : Nat) : (s.flashEffect op a).kept = s.kept := by
  simp only [State.flashEffect]
  split
  · simp only [↓kept_setRegs]
  · simp only [↓kept_flashPut]
  · simp only [↓kept_flashPut]

theorem kept_execFlashOpComplete (failed : Bool) (s : State) : ((execFlashOpComplete failed s).after s).kept = s.kept := by
  simp only [execFlashOpComplete]
  split
  · simp only [↓after_next]
  · simp only [↓after_next, ↓after_ite, ↓kept_mk, ↓kept_pair, ↓kept_ite, ↓kept_clearFlag, ↓kept_flashPut, ↓kept_flashErr,
      ↓kept_setFlag, ↓kept_flashEffect, ite_self]

theorem kept_recordFollows (s : State) (r : ErrRecord) : (s.recordFollows r).kept = s.kept := by
  simp only [State.recordFollows, ↓kept_mk, ↓kept_pair, ↓kept_ite]
  split
  · rfl
  · split
    · split
      · simp only [↓kept_contextFault]
      · rfl
    · rfl

theorem kept_execErrorRecord (r : ErrRecord) (s : State) : ((execErrorRecord r s).after s).kept = s.kept := by
  simp only [execErrorRecord, ↓after_next, ↓kept_ite, ↓kept_recordFollows, ↓kept_record, ite_self]

theorem kept_rptrWrite (s : State) (v : Word) : (s.rptrWrite v).kept = s.kept := by
  simp only [State.rptrWrite, ↓kept_ite, ↓kept_reportDrops, ↓kept_setReg, ↓kept_setFlag, ite_self]

theorem kept_execErrRptrWrite (v : Word) (s : State) : ((execErrRptrWrite v s).after s).kept = s.kept := by
  simp only [execErrRptrWrite, ↓after_next, ↓after_ite, ↓kept_ite, ↓kept_rptrWrite, ite_self]

theorem kept_dbgRequest (s : State) (v : Word) : (s.dbgRequest v).kept = s.kept := by
  simp only [State.dbgRequest, ↓kept_mk, ↓kept_pair, ↓kept_ite, ↓kept_setFld, ite_self]

theorem kept_execDebugChallenge (p : Path) (v : Word) (s : State) : ((execDebugChallenge p v s).after s).kept = s.kept := by
  simp only [execDebugChallenge, ↓after_next, ↓after_ite, ↓kept_ite, ↓kept_dbgRequest, ite_self]

theorem kept_dbgClose (s : State) : s.dbgClose.kept = s.kept := by
  simp only [State.dbgClose, ↓kept_mk, ↓kept_pair]

theorem kept_dbgFail (s : State) (p : Path) : (s.dbgFail p).kept = s.kept := by
  simp only [State.dbgFail, ↓kept_mk, ↓kept_pair, ↓kept_ite, ↓kept_rec0, ↓kept_dbgClose, ite_self]

theorem kept_dbgOpened (s : State) (p : Path) (scope : Nat) : (s.dbgOpened p scope).kept = s.kept := by
  simp only [State.dbgOpened, ↓kept_mk, ↓kept_pair, ↓kept_rec0]

theorem kept_dbgOpen (s : State) (p : Path) : (s.dbgOpen p).kept = s.kept := by
  simp only [State.dbgOpen, ↓kept_ite]
  split
  · rfl
  · split
    · simp only [↓kept_dbgFail]
    · simp only [↓kept_ite, ↓kept_dbgFail, ↓kept_dbgOpened, ite_self]

theorem kept_execDebugOpen (p : Path) (s : State) : ((execDebugOpen p s).after s).kept = s.kept := by
  simp only [execDebugOpen, ↓after_next, ↓after_ite, ↓kept_ite, ↓kept_dbgOpen, ite_self]

theorem kept_execDebugClose (p : Path) (s : State) : ((execDebugClose p s).after s).kept = s.kept := by
  simp only [execDebugClose, ↓after_next, ↓after_ite, ↓kept_ite, ↓kept_dbgClose, ite_self]

theorem kept_execChallengeExpire (s : State) : ((execChallengeExpire s).after s).kept = s.kept := by
  simp only [execChallengeExpire, ↓after_next, ↓kept_mk, ↓kept_pair, ↓kept_ite, ite_self]

theorem kept_tap575 (s : State) (op : Nat) : (s.tap575 op).kept = s.kept := by
  simp only [State.tap575, ↓kept_mk, ↓kept_pair]

theorem kept_execExtest (pins : Nat) (s : State) : ((execExtest pins s).after s).kept = s.kept := by
  simp only [execExtest, ↓after_next, ↓kept_mk, ↓kept_pair, ↓kept_emit, ↓kept_tap575]

theorem kept_execIdcode (s : State) : ((execIdcode s).after s).kept = s.kept := by
  simp only [execIdcode, ↓after_next, ↓kept_emit, ↓kept_tap575]

theorem kept_execSamplePreload (pins preload : Nat) (s : State) : ((execSamplePreload pins preload s).after s).kept = s.kept := by
  simp only [execSamplePreload, ↓after_next, ↓kept_mk, ↓kept_pair, ↓kept_emit, ↓kept_tap575]

theorem kept_bypass (s : State) (op : Nat) : (s.bypass op).kept = s.kept := by
  simp only [State.bypass, ↓kept_emit, ↓kept_tap575]

theorem kept_execBypass (s : State) : ((execBypass s).after s).kept = s.kept := by
  simp only [execBypass, ↓after_next, ↓kept_bypass]

theorem kept_coreRan (s : State) (core : Nat) : (s.coreRan core).kept = s.kept := by
  simp only [State.coreRan, ↓kept_mk, ↓kept_pair]

theorem kept_coreDbg (s : State) (core : Nat) (op : CoreDbgOp) : (s.coreDbg core op).kept = s.kept := by
  simp only [State.coreDbg]
  split
  · simp only [↓kept_mk, ↓kept_pair, ↓kept_emit]
  · simp only [↓kept_mk, ↓kept_pair, ↓kept_emit, ↓kept_coreRan]
  · simp only [↓kept_ite, ↓kept_emit, ↓kept_coreRan, ite_self]
  · simp only [↓kept_mk, ↓kept_pair, ↓kept_ite, ↓kept_emit, ite_self]
  · simp only [↓kept_mk, ↓kept_pair, ↓kept_ite, ↓kept_emit, ite_self]
  · simp only [↓kept_mk, ↓kept_pair, ↓kept_ite, ↓kept_emit, ite_self]
  · simp only [↓kept_mk, ↓kept_pair, ↓kept_ite, ↓kept_emit, ite_self]

theorem kept_execCoreDbg (core : Fin 5) (op : CoreDbgOp) (s : State) : ((execCoreDbg core op s).after s).kept = s.kept := by
  simp only [execCoreDbg, ↓after_next, ↓after_ite, ↓kept_ite, ↓kept_coreDbg, ↓kept_tap575, ↓kept_bypass, ite_self]

end Sys2Proof.Machine
end

section
/-! PROOFS. The queue and one-time storage under the functions of Dimming.lean: the local dimming controller. -/

namespace Sys2Proof.Machine

theorem kept_setZoneBit (s : State) (reg : Nat → Nat) (z : Nat) (b : Bool) : (s.setZoneBit reg z b).kept = s.kept := by
  simp only [State.setZoneBit, ↓kept_setFld]

theorem kept_ldmBitmaps (s : State) (n : Nat) : (s.ldmBitmaps n).kept = s.kept := by
  simp only [State.ldmBitmaps, ↓kept_setReg, kept_foldl, implies_true]

theorem kept_execLdmEnable (v : Word) (s : State) : ((execLdmEnable v s).after s).kept = s.kept := by
  simp only [execLdmEnable, ↓after_next, ↓after_ite, ↓kept_mk, ↓kept_pair, ↓kept_ite, ↓kept_setReg, ↓kept_clearFlag, ↓kept_setFld,
    ↓kept_setFlag, ↓kept_ldmBitmaps, ite_self]

theorem kept_execLdmDisable (v : Word) (s : State) : ((execLdmDisable v s).after s).kept = s.kept := by
  simp only [execLdmDisable, ↓after_next, ↓after_ite, ↓kept_mk, ↓kept_pair, ↓kept_ite, ↓kept_setReg, ite_self]

theorem kept_ldmQuiet (s : State) : s.ldmQuiet.kept = s.kept := by
  simp only [State.ldmQuiet, ↓kept_mk, ↓kept_pair]

theorem kept_ldmStop (s : State) : s.ldmStop.kept = s.kept := by
  simp only [State.ldmStop, ↓kept_mk, ↓kept_pair, ↓kept_ldmQuiet, ↓kept_clearFlag]

theorem kept_ldmStopAt (s : State) : s.ldmStopAt.kept = s.kept := by
  simp only [State.ldmStopAt, ↓kept_mk, ↓kept_pair, ↓kept_ite, ↓kept_ldmStop, ↓kept_ldmQuiet, ite_self]

theorem kept_ldmStart (s : State) : s.ldmStart.kept = s.kept := by
  simp only [State.ldmStart]
  split
  · rfl
  · simp only [↓kept_mk, ↓kept_pair, ↓kept_ite, ↓kept_setFlag, ↓kept_ldmStop, ite_self]

theorem kept_ldmDeadline (s : State) (changed : Bool) : (s.ldmDeadline changed).kept = s.kept := by
  simp only [State.ldmDeadline, ↓kept_mk, ↓kept_pair, ↓kept_ite, ↓kept_ldmStopAt, ↓kept_ldmStart, ↓kept_setFld, ↓kept_ldmStop,
    ↓kept_rec0, ↓kept_setFlag, ↓kept_clearFlag, ite_self]

theorem kept_ldmLine (s : State) (y : Nat) (blended : List Px) : (s.ldmLine y blended).kept = s.kept := by
  simp only [State.ldmLine]
  split
  · rfl
  · simp only [↓kept_mk, ↓kept_pair]

theorem kept_cc3Map (s : State) (f : Nat) (zones : List ZoneAcc) : (s.cc3Map f zones).kept = s.kept := by
  simp only [State.cc3Map, ↓kept_mk, ↓kept_pair, ↓kept_devWrite]

theorem kept_ldmHeld (s : State) : s.ldmHeld.kept = s.kept := by
  simp only [State.ldmHeld, ↓kept_countSat, ↓kept_setFlag]

theorem kept_ldmAfterDuty (s : State) (f : Nat) : (s.ldmAfterDuty f).kept = s.kept := by
  simp only [State.ldmAfterDuty, ↓kept_mk, ↓kept_pair]

theorem kept_gatherEnd (s : State) : s.gatherEnd.kept = s.kept := by
  simp only [State.gatherEnd, ↓kept_mk, ↓kept_pair]

theorem kept_statsShown (s : State) (f : Nat) : (s.statsShown f).kept = s.kept := by
  simp only [State.statsShown, ↓kept_mk, ↓kept_pair, ↓kept_setFlag, ↓kept_setReg]

theorem kept_statsEvent (s : State) : s.statsEvent.kept = s.kept := by
  simp only [State.statsEvent, ↓kept_ite, ↓kept_evtSignal, ite_self]

theorem kept_execStatsPublish (failed : Option (BitVec 40)) (s : State) :
    ((execStatsPublish failed s).after s).kept = s.kept := by
  simp only [execStatsPublish]
  split
  · simp only [↓after_next]
  · simp only [↓after_next, ↓after_ite, ↓kept_ite]
    split
    · rfl
    · split
      · simp only [↓after_next, ↓kept_gatherEnd, ↓kept_ldmAfterDuty, ↓kept_rec0, ↓kept_ldmHeld]
      · simp only [↓after_next, ↓kept_ite, ↓kept_gatherEnd, ↓kept_statsShown, ↓kept_devWrite, ↓kept_statsEvent, ↓kept_cc3Map,
          ite_self]

theorem kept_dutyRead (s : State) (a n : Nat) : (s.dutyRead a n).2.2.kept = s.kept := by
  simp only [State.dutyRead, ↓kept_devRead, kept_foldl3, implies_true]

theorem kept_spiSend (s : State) (p : Nat) (words : List Nat) : (s.spiSend p words).kept = s.kept := by
  simp only [State.spiSend, ↓kept_emit]

theorem kept_dutyStop (s : State) (codes : List Nat) (good p : Nat) : (s.dutyStop codes good p).kept = s.kept := by
  simp only [State.dutyStop, ↓kept_mk, ↓kept_pair, ↓kept_drawNat, ↓kept_spiSend]

theorem kept_sendDuties (s : State) (b f : Nat) : (s.sendDuties b f).kept = s.kept := by
  simp only [State.sendDuties]
  split
  · simp only [↓kept_mk, ↓kept_pair, ↓kept_dutyRead, ↓kept_dutyStop, ↓kept_ldmAfterDuty, ↓kept_rec0, ↓kept_ldmHeld, kept_foldl,
      implies_true]
  · simp only [↓kept_mk, ↓kept_pair, ↓kept_dutyRead, ↓kept_ldmAfterDuty, ↓kept_spiSend, ↓kept_setReg, kept_foldl, implies_true]

theorem kept_execDutyTagPoll (s : State) : ((execDutyTagPoll s).after s).kept = s.kept := by
  unfold execDutyTagPoll
  split
  · rfl
  split
  · exact kept_sendDuties ..
  split
  have h := kept_snd2 ‹_› (kept_devRead ..)
  extract_lets a
  split
  · exact (kept_ldmAfterDuty ..).trans ((kept_rec0 ..).trans ((kept_ldmHeld ..).trans h))
  split
  · exact (kept_sendDuties ..).trans h
  · exact h

theorem kept_execDutyHeld (s : State) : ((execDutyHeld s).after s).kept = s.kept := by
  simp only [execDutyHeld]
  split
  · simp only [↓after_next]
  · simp only [↓after_next, ↓after_ite, ↓kept_ite, ↓kept_ldmAfterDuty, ↓kept_ldmHeld, ite_self]

theorem kept_execDiagTransfer (p : Fin 4) (s : State) : ((execDiagTransfer p s).after s).kept = s.kept := by
  simp only [execDiagTransfer, ↓after_next, ↓after_ite, ↓kept_mk, ↓kept_pair, ↓kept_ite, ↓kept_spiSend, ite_self]

theorem kept_execStatusRead (p : Fin 4) (s : State) : ((execStatusRead p s).after s).kept = s.kept := by
  simp only [execStatusRead, ↓after_next, ↓after_ite, ↓kept_mk, ↓kept_pair, ↓kept_ite, ↓kept_setFlag, ↓kept_spiSend, ite_self]

theorem kept_zoneStatus (s : State) (z code : Nat) : (s.zoneStatus z code).kept = s.kept := by
  simp only [State.zoneStatus, ↓kept_ite, ↓kept_setZoneBit, ↓kept_setFlag, ↓kept_rec0, ite_self]

theorem kept_ldmReadsEnd (s : State) : s.ldmReadsEnd.kept = s.kept := by
  simp only [State.ldmReadsEnd, ↓kept_ite, ↓kept_ldmStop, ↓kept_clearFlag, ite_self]

theorem kept_execStatusReadComplete (p : Fin 4) (codes : List (BitVec 2)) (s : State) :
    ((execStatusReadComplete p codes s).after s).kept = s.kept := by
  simp only [execStatusReadComplete, ↓after_next, ↓after_ite, ↓kept_mk, ↓kept_pair, ↓kept_ite, ↓kept_ldmReadsEnd,
    ↓kept_zoneStatus, kept_foldl, ite_self, implies_true]

theorem kept_execLdFault (low : Bool) (s : State) : ((execLdFault low s).after s).kept = s.kept := by
  simp only [execLdFault, ↓after_next, ↓after_ite, ↓kept_mk, ↓kept_pair, ↓kept_ite, ↓kept_rec0, ↓kept_countSat, ↓kept_setFlag,
    ite_self]

theorem kept_ldmSyncLine (s : State) (y : Nat) : (s.ldmSyncLine y).kept = s.kept := by
  simp only [State.ldmSyncLine, ↓kept_mk, ↓kept_pair, ↓kept_ite, ↓kept_emit, ite_self]

end Sys2Proof.Machine
end

section
/-! PROOFS. The queue and one-time storage under the functions of DpPorts.lean: the DisplayPort ports. -/

namespace Sys2Proof.Machine

theorem kept_dptIdle (s : State) : s.dptIdle.kept = s.kept := by
  simp only [State.dptIdle, ↓kept_setFld, ↓kept_clearFlag]

theorem kept_dptUp (s : State) (r : Nat) : (s.dptUp r).kept = s.kept := by
  simp only [State.dptUp, ↓kept_ite, ↓kept_setFld, ↓kept_setFlag, ite_self]

theorem kept_dptBegin (s : State) (k : SinkInfo) : (s.dptBegin k).kept = s.kept := by
  simp only [State.dptBegin, ↓kept_mk, ↓kept_pair, ↓kept_setFld, ↓kept_dptIdle]

theorem kept_dptEnd (s : State) (code : Nat) (rate : Option Nat) : (s.dptEnd code rate).kept = s.kept := by
  simp only [State.dptEnd, ↓kept_ite, ↓kept_setFld]
  split
  · rfl
  · split
    · simp only [↓kept_setFld]
    · simp only [↓kept_dptUp]

theorem kept_dptTrain (s : State) (k : SinkInfo) : (s.dptTrain k).kept = s.kept := by
  simp only [State.dptTrain, ↓kept_dptEnd, ↓kept_dptBegin]

theorem kept_dptTiming (s : State) : s.dptTiming.kept = s.kept := by
  simp only [State.dptTiming, ↓kept_mk, ↓kept_pair, ↓kept_ite, ↓kept_setFld, ↓kept_dptIdle, ite_self]

theorem kept_execDptEnable (v : Word) (k : SinkInfo) (s : State) : ((execDptEnable v k s).after s).kept = s.kept := by
  simp only [execDptEnable, ↓after_next, ↓after_ite, ↓kept_ite, ↓kept_setReg, ↓kept_dptTrain, ite_self]

theorem kept_execDptDisable (v : Word) (s : State) : ((execDptDisable v s).after s).kept = s.kept := by
  simp only [execDptDisable, ↓after_next, ↓after_ite, ↓kept_mk, ↓kept_pair, ↓kept_ite, ↓kept_setReg, ↓kept_dptIdle, ite_self]

theorem kept_execDptRetrain (k : SinkInfo) (s : State) : ((execDptRetrain k s).after s).kept = s.kept := by
  simp only [execDptRetrain, ↓after_next, ↓after_ite, ↓kept_ite, ↓kept_dptTrain, ite_self]

theorem kept_frameData (s : State) : s.frameData.kept = s.kept := by
  simp only [State.frameData, ↓kept_ite, ↓kept_emit, ite_self]

theorem kept_lineLink (s : State) : s.lineLink.2.kept = s.kept := by
  simp only [State.lineLink, ↓kept_mk, ↓kept_pair, ↓kept_ite, ↓ite_snd, ite_self]

theorem kept_srmRead (s : State) : s.srmRead.2.kept = s.kept := by
  unfold State.srmRead
  extract_lets a
  split
  · rfl
  split
  · rfl
  split
  exact kept_snd2 ‹_› (kept_devRead ..)

theorem kept_hdcpFailed (s : State) (code : Nat) : (s.hdcpFailed code).kept = s.kept := by
  simp only [State.hdcpFailed, ↓kept_mk, ↓kept_pair, ↓kept_rec0, ↓kept_setFld]

theorem kept_hdcpDone (s : State) (r : HdcpResult) : (s.hdcpDone r).kept = s.kept := by
  simp only [State.hdcpDone, ↓kept_mk, ↓kept_pair, ↓kept_setFld]

theorem kept_hdcpRun (s : State) (r : HdcpResult) : (s.hdcpRun r).kept = s.kept := by
  simp only [State.hdcpRun, ↓kept_ite, ↓kept_srmRead, ↓kept_hdcpFailed, ↓kept_hdcpDone, ite_self]

theorem kept_execHdcpAuthenticate (r : HdcpResult) (s : State) : ((execHdcpAuthenticate r s).after s).kept = s.kept := by
  simp only [execHdcpAuthenticate, ↓after_next, ↓after_ite, ↓kept_ite, ↓kept_hdcpRun, ite_self]

theorem kept_execHdcpRetry (r : HdcpResult) (s : State) : ((execHdcpRetry r s).after s).kept = s.kept := by
  simp only [execHdcpRetry, ↓after_next, ↓after_ite, ↓kept_ite, ↓kept_hdcpRun, ite_self]

theorem kept_dptLost (s : State) (cause : Nat) : (s.dptLost cause).kept = s.kept := by
  simp only [State.dptLost, ↓kept_rec0, ↓kept_countSat, ↓kept_setFlag]

theorem kept_execDptIrqHpd (k : SinkInfo) (s : State) : ((execDptIrqHpd k s).after s).kept = s.kept := by
  simp only [execDptIrqHpd, ↓after_next, ↓after_ite, ↓kept_ite, ↓kept_dptTrain, ↓kept_dptLost, ite_self]

theorem kept_execDptHpdLowTimeout (s : State) : ((execDptHpdLowTimeout s).after s).kept = s.kept := by
  simp only [execDptHpdLowTimeout, ↓after_next, ↓after_ite, ↓kept_mk, ↓kept_pair, ↓kept_ite, ↓kept_clearFlag, ↓kept_dptIdle,
    ↓kept_dptLost, ite_self]

theorem kept_execDptHpdReturn (k : SinkInfo) (s : State) : ((execDptHpdReturn k s).after s).kept = s.kept := by
  simp only [execDptHpdReturn, ↓after_next, ↓after_ite, ↓kept_ite, ↓kept_setFlag, ↓kept_dptTrain, ite_self]

theorem kept_execDprEnable (v : Word) (s : State) : ((execDprEnable v s).after s).kept = s.kept := by
  simp only [execDprEnable, ↓after_next, ↓after_ite, ↓kept_mk, ↓kept_pair, ↓kept_ite, ↓kept_setReg, ↓kept_clearFlag, ↓kept_setFld,
    ↓kept_setFlag, ite_self]

theorem kept_dprDown (s : State) : s.dprDown.kept = s.kept := by
  simp only [State.dprDown, ↓kept_mk, ↓kept_pair, ↓kept_setFld, ↓kept_clearFlag]

theorem kept_execDprDisable (v : Word) (s : State) : ((execDprDisable v s).after s).kept = s.kept := by
  simp only [execDprDisable, ↓after_next, ↓after_ite, ↓kept_ite, ↓kept_setReg, ↓kept_dprDown, ite_self]

theorem kept_execDprLinkTraining (rate : Fin 5) (lanes : Fin 3) (st : RxStream) (s : State) :
    ((execDprLinkTraining rate lanes st s).after s).kept = s.kept := by
  simp only [execDprLinkTraining, ↓after_next, ↓after_ite, ↓kept_mk, ↓kept_pair, ↓kept_ite, ↓kept_setFld, ↓kept_setFlag,
    ↓kept_setReg, ite_self]

theorem kept_execDprLinkLoss (errors : Nat) (s : State) : ((execDprLinkLoss errors s).after s).kept = s.kept := by
  simp only [execDprLinkLoss, ↓after_next, ↓after_ite, ↓kept_ite, ↓kept_countSat, ↓kept_dprDown, ite_self]

theorem kept_execDprHdcpAuthentication (type : Fin 2) (s : State) :
    ((execDprHdcpAuthentication type s).after s).kept = s.kept := by
  simp only [execDprHdcpAuthentication, ↓after_next, ↓after_ite, ↓kept_mk, ↓kept_pair, ↓kept_ite, ↓kept_setFld, ite_self]

theorem kept_execDprAuxTransaction (r : AuxRequest) (s : State) : ((execDprAuxTransaction r s).after s).kept = s.kept := by
  simp only [execDprAuxTransaction, ↓after_next, ↓after_ite, ↓kept_ite]
  split
  · rfl
  · split
    · simp only [↓after_next, ↓kept_emit]
    · simp only [↓after_next, ↓kept_emit]
    · simp only [↓after_next, ↓after_ite, ↓kept_ite, ↓kept_emit, ite_self]

end Sys2Proof.Machine
end

section
/-! PROOFS. The queue and one-time storage under the functions of Flow.lean: frame flow. -/

namespace Sys2Proof.Machine

theorem kept_setFfState (s : State) (n : Nat) : (s.setFfState n).kept = s.kept := by
  simp only [State.setFfState, ↓kept_setFld]

theorem kept_ffCount (s : State) (n by_ : Nat) : (s.ffCount n by_).kept = s.kept := by
  simp only [State.ffCount, ↓kept_countWrap]

theorem kept_updFlow (s : State) (f : Flow → Flow) : (s.updFlow f).kept = s.kept := by
  simp only [State.updFlow, ↓kept_mk, ↓kept_pair]

theorem kept_cc3Try (s : State) (c a n : Nat) : (s.cc3Try c a n).2.kept = s.kept := by
  simp only [State.cc3Try]
  split
  · rename_i h
    obtain rfl := snd_of_eq h
    simp only [↓kept_vread]
  · rename_i h
    obtain rfl := snd_of_eq h
    simp only [↓kept_vread]

theorem kept_templateBad (s : State) (d : FlowDesc) (a : Nat) : (s.templateBad d a).2.kept = s.kept := by
  unfold State.templateBad
  split
  · exact kept_snd ‹_› (kept_cc3Try ..)
  have h1 := kept_snd ‹_› (kept_cc3Try ..)
  extract_lets p kn
  split
  · exact h1
  split
  · exact h1
  split
  · exact (kept_snd ‹_› (kept_cc3Try ..)).trans h1
  · exact (kept_snd ‹_› (kept_cc3Try ..)).trans h1

theorem kept_templatesBad (s : State) (d : FlowDesc) : (s.templatesBad d).2.kept = s.kept := by
  simp only [State.templatesBad, ↓kept_ite, ↓ite_snd, ↓kept_templateBad, kept_foldl2, ite_self, implies_true]

theorem kept_flowCheck (s : State) (addr op : Nat) : (s.flowCheck addr op).2.2.kept = s.kept := by
  simp only [State.flowCheck, ↓kept_ite, ↓ite_snd, ↓kept_devRead, ↓kept_cc3Try, ↓kept_templatesBad, ite_self]

theorem kept_setBoth (s : State) (a : Nat) (w : Word) : (s.setBoth a w).kept = s.kept := by
  simp only [State.setBoth, ↓kept_setReg, ↓kept_setAct]

theorem kept_showFrame (s : State) (n ctx fmt a0 a1 pitch w h : Nat) : (s.showFrame n ctx fmt a0 a1 pitch w h).kept = s.kept := by
  simp only [State.showFrame, ↓kept_ite, ↓kept_setReg, ↓kept_setAct, ↓kept_setBoth, ite_self]

theorem kept_flowOwns (s : State) (n : Nat) : (s.flowOwns n).kept = s.kept := by
  simp only [State.flowOwns, ↓kept_setFld]

theorem kept_hideFrame (s : State) (n : Nat) : (s.hideFrame n).kept = s.kept := by
  simp only [State.hideFrame, ↓kept_ite, ↓kept_layerOff, ite_self]

theorem kept_ffDone (s : State) (code : Nat) : (s.ffDone code).kept = s.kept := by
  simp only [State.ffDone, ↓kept_setFld, ↓kept_setFlag]

theorem kept_flowBegin (s : State) (d : FlowDesc) (repeatOld : Option (FlowDesc × ShownFrame)) :
    (s.flowBegin d repeatOld).kept = s.kept := by
  simp only [State.flowBegin, ↓kept_mk, ↓kept_pair, ↓kept_ite, ↓kept_setReg, ↓kept_setFld, ↓kept_setFfState, ↓kept_flowOwns,
    ↓kept_hideFrame, ite_self]

theorem kept_flowStart (s : State) (addr : Nat) : (s.flowStart addr).kept = s.kept := by
  simp only [State.flowStart, ↓kept_ite, ↓kept_flowCheck, ↓kept_ffDone, ↓kept_flowBegin, ite_self]

theorem kept_execFfStart (s : State) : ((execFfStart s).after s).kept = s.kept := by
  simp only [execFfStart, ↓after_next, ↓after_ite, ↓kept_ite, ↓kept_flowStart, ↓kept_setReg, ite_self]

theorem kept_execFfStop (s : State) : ((execFfStop s).after s).kept = s.kept := by
  simp only [execFfStop, ↓after_next, ↓after_ite, ↓kept_ite, ↓kept_setReg, ↓kept_ffDone, ↓kept_setFfState, ↓kept_updFlow,
    ite_self]

theorem kept_execFfUpdate (s : State) : ((execFfUpdate s).after s).kept = s.kept := by
  unfold execFfUpdate
  split
  · rfl
  extract_lets t
  split
  have h := (kept_snd2 ‹_› (kept_flowCheck ..)).trans (kept_setReg s Reg.WSK_FF_CMD 6)
  split
  · exact (kept_ffDone ..).trans h
  · exact (kept_ffDone ..).trans ((kept_setFfState ..).trans ((kept_updFlow ..).trans h))

theorem kept_execFfClearStats (s : State) : ((execFfClearStats s).after s).kept = s.kept := by
  simp only [execFfClearStats, ↓after_next, ↓after_ite, ↓kept_ite, ↓kept_ffDone, ↓kept_setReg, kept_foldl, ite_self, implies_true]

theorem kept_notPlaced (s : State) (i : Invocation) : (s.notPlaced i).kept = s.kept := by
  simp only [State.notPlaced, ↓kept_updFlow]

theorem kept_queueInv (s : State) (fl) (i) (tmpl) : (s.queueInv fl i tmpl).kept = s.kept := by
  unfold State.queueInv
  obtain ⟨vread, er⟩ : ∃ f, f = State.vread := ⟨_, rfl⟩
  obtain ⟨vwrite, ew⟩ : ∃ f, f = State.vwrite := ⟨_, rfl⟩
  have hr := kept_vread
  have hw := kept_vwrite
  rw [← er] at hr ⊢
  rw [← ew] at hw ⊢
  extract_lets d
  split
  split
  · exact (kept_accessFault ..).trans (kept_snd ‹_› (hr ..))
  · exact (kept_poisonFault ..).trans (kept_snd ‹_› (hr ..))
  have h1 := kept_snd ‹_› (hr ..)
  extract_lets p kn
  split
  · exact (kept_accessFault ..).trans ((kept_snd ‹_› (hr ..)).trans h1)
  · exact (kept_poisonFault ..).trans ((kept_snd ‹_› (hr ..)).trans h1)
  have h2 := (kept_snd ‹_› (hr ..)).trans h1
  split
  · exact (kept_accessFault ..).trans ((kept_snd ‹_› (hw ..)).trans h2)
  have h3 := (kept_snd ‹_› (hw ..)).trans h2
  split
  · exact h3
  split
  exact (kept_updFlow ..).trans ((kept_snd ‹_› (kept_addUnit ..)).trans h3)

theorem kept_placeInv (s : State) (kind : InvKind) (k frame phase : Nat) : (s.placeInv kind k frame phase).kept = s.kept := by
  simp only [State.placeInv]
  split
  · rfl
  · simp only [↓kept_ite]
    split
    · rfl
    · split
      · simp only [↓kept_mk, ↓kept_pair, ↓kept_queueInv]
      · simp only [↓kept_mk, ↓kept_pair, ↓kept_ffCount, ↓kept_notPlaced]

theorem kept_placeSign (s : State) (k buf : Nat) : (s.placeSign k buf).kept = s.kept := by
  simp only [State.placeSign]
  split
  · rfl
  · split
    · rfl
    · simp only [↓kept_addUnit, ↓kept_updFlow]

theorem kept_placeAll (s : State) (k buf : Nat) : (s.placeAll k buf).kept = s.kept := by
  simp only [State.placeAll]
  split
  · rfl
  · simp only [↓kept_ite]
    split
    · rfl
    · split
      · simp only [↓kept_ite, ↓kept_updFlow, ↓kept_placeSign, ↓kept_placeInv, ite_self]
      · simp only [↓kept_ite, ↓kept_updFlow, ↓kept_placeSign, ↓kept_placeInv, ↓kept_notPlaced, kept_foldl, ite_self, implies_true]

theorem kept_writeGates (s : State) (k : Nat) (changed : Option (Nat → Bool)) : (s.writeGates k changed).kept = s.kept := by
  simp only [State.writeGates]
  split
  · rfl
  · simp only [↓kept_updFlow]
    refine kept_foldl (fun s x => ?_) _ _
    split
    · rfl
    · split
      · rename_i h
        obtain rfl := snd_of_eq h
        simp only [↓kept_vwrite, ↓kept_accessFault]
      · rename_i h
        obtain rfl := snd_of_eq h
        simp only [↓kept_vwrite]

theorem kept_gateFromExport (s : State) (k e : Nat) : (s.gateFromExport k e).kept = s.kept := by
  simp only [State.gateFromExport]
  split
  · rfl
  · split
    · rename_i h
      obtain rfl := snd_of_eq h
      simp only [↓kept_vread, ↓kept_accessFault]
    · rename_i h
      obtain rfl := snd_of_eq h
      simp only [↓kept_vread, ↓kept_poisonFault]
    · rename_i h
      obtain rfl := snd_of_eq h
      simp only [↓kept_vread, ↓kept_writeGates, ↓kept_clearFlag]

theorem kept_ungated (s : State) (k : Nat) : (s.ungated k).kept = s.kept := by
  simp only [State.ungated, ↓kept_writeGates, ↓kept_setFlag]

theorem kept_invEnded (s : State) (i : Invocation) (outcome t : Nat) : (s.invEnded i outcome t).kept = s.kept := by
  simp only [State.invEnded, ↓kept_ite, ↓kept_ffCount, ↓kept_updFlow, ↓kept_ungated, ↓kept_gateFromExport, ite_self]

theorem kept_flowSync (s : State) (t : Nat) : (s.flowSync t).kept = s.kept := by
  simp only [State.flowSync]
  split
  · rfl
  · refine kept_foldl (fun s x => ?_) _ _
    split
    · simp only [↓kept_invEnded]
    · split
      · simp only [↓kept_invEnded]
      · rfl

theorem kept_flowEnd (s : State) (fl : Flow) : (s.flowEnd fl).kept = s.kept := by
  simp only [State.flowEnd]
  split
  · simp only [↓kept_mk, ↓kept_pair, ↓kept_ite, ↓kept_clearFlag, ↓kept_setReg, ↓kept_flowBegin, ite_self]
  · simp only [↓kept_mk, ↓kept_pair, ↓kept_ite, ↓kept_clearFlag, ↓kept_setReg, ↓kept_setFld, ↓kept_setFfState, ite_self]

theorem kept_flowSettle (s : State) : s.flowSettle.kept = s.kept := by
  simp only [State.flowSettle]
  split
  · rfl
  · simp only [↓kept_mk, ↓kept_pair, ↓kept_ite, ↓kept_setFlag, ↓kept_flowEnd, kept_foldl, ite_self, implies_true]

theorem kept_flowArrive (s : State) (buf prot) : (s.flowArrive buf prot).kept = s.kept := by
  unfold State.flowArrive
  obtain ⟨ffState, ef⟩ : ∃ f, f = State.ffState := ⟨_, rfl⟩
  obtain ⟨arrivalError, ea⟩ : ∃ f, f = State.arrivalError := ⟨_, rfl⟩
  rw [← ef]
  rw [← ea]
  split
  · rfl
  extract_lets s1 k k' fl2
  have h1 : s1.kept = s.kept := (kept_countWrap ..).trans (kept_clearFlag ..)
  split
  rename_i fl3 s3 e
  have h3 : s3.kept = s1.kept := by
    split at e
    · exact kept_snd e (kept_setFfState ..)
    · split at e
      split at e
      · exact kept_snd e ((kept_setFfState ..).trans (kept_ffCount ..))
      · exact kept_snd e (kept_setFfState ..)
    · split at e
      split at e
      · exact kept_snd e ((kept_setFfState ..).trans (kept_ffCount ..))
      · exact kept_snd e (kept_setFfState ..)
    · exact kept_snd e (kept_setFfState ..)
  exact (kept_flowSettle ..).trans ((kept_placeAll ..).trans (kept_upd.trans (h3.trans h1)))

theorem kept_execSourcePost (v : Word) (s : State) : ((execSourcePost v s).after s).kept = s.kept := by
  simp only [execSourcePost, ↓after_next, ↓after_ite, ↓kept_ite, ↓kept_setReg, ↓kept_flowArrive, ↓kept_ffCount, ↓kept_setFlag,
    ite_self]

theorem kept_bufProtected (s : State) (d : FlowDesc) (b : Nat) : (s.bufProtected d b).2.kept = s.kept := by
  simp only [State.bufProtected]
  refine kept_foldl2 (fun r s x => ?_) _ _
  simp only [↓kept_ite, ↓ite_snd]
  split
  · rfl
  · split
    · rename_i h
      obtain rfl := snd_of_eq h
      simp only [↓kept_xlate]
    · rename_i h
      obtain rfl := snd_of_eq h
      simp only [↓kept_xlate]

theorem kept_captureDrop (s : State) : s.captureDrop.kept = s.kept := by
  simp only [State.captureDrop, ↓kept_setFlag, ↓kept_ffCount]

theorem kept_captureLink (s : State) : s.captureLink.kept = s.kept := by
  simp only [State.captureLink, ↓kept_rec0, ↓kept_captureDrop]

theorem kept_execDpCaptureFrame (f : RxFrame) (s : State) : ((execDpCaptureFrame f s).after s).kept = s.kept := by
  simp only [execDpCaptureFrame, ↓ite_snd]
  split
  · simp only [↓after_next]
  · simp only [↓after_next, ↓after_ite, ↓kept_ite]
    split
    · rfl
    · split
      · simp only [↓after_next, ↓kept_captureDrop]
      · simp only [↓after_next, ↓after_ite, ↓kept_ite, ↓kept_captureDrop, ↓kept_captureLink, ↓kept_bufProtected, ↓kept_rec0,
          ite_self]
        split
        · rfl
        · split
          · rfl
          · split
            · split
              · rfl
              · split
                · simp only [↓after_next, ↓kept_captureDrop, ↓kept_accessFault]
                  refine (kept_foldl2 (fun r s x => ?_) _ _).trans ?_
                  · dsimp only
                    split
                    · rfl
                    · simp only [↓kept_vwrite]
                  · simp only [↓kept_bufProtected]
                · simp only [↓after_next, ↓kept_flowArrive]
                  refine (kept_foldl2 (fun r s x => ?_) _ _).trans ?_
                  · dsimp only
                    split
                    · rfl
                    · simp only [↓kept_vwrite]
                  · simp only [↓kept_bufProtected]
            · dsimp only
              split
              · rfl
              · split
                · simp only [↓after_next, ↓kept_captureDrop, ↓kept_accessFault]
                  refine kept_foldl2 (fun r s x => ?_) _ _
                  dsimp only
                  split
                  · rfl
                  · simp only [↓kept_vwrite]
                · simp only [↓after_next, ↓kept_flowArrive]
                  refine kept_foldl2 (fun r s x => ?_) _ _
                  dsimp only
                  split
                  · rfl
                  · simp only [↓kept_vwrite]

theorem kept_execSourceHoldTimeout (s : State) : ((execSourceHoldTimeout s).after s).kept = s.kept := by
  simp only [execSourceHoldTimeout]
  split
  · simp only [↓after_next]
  · simp only [↓after_next, ↓after_ite, ↓kept_ite, ↓kept_setFfState, ite_self]

theorem kept_execSourceTimeout (s : State) : ((execSourceTimeout s).after s).kept = s.kept := by
  simp only [execSourceTimeout]
  split
  · simp only [↓after_next]
  · simp only [↓after_next, ↓after_ite, ↓kept_ite, ↓kept_flowSettle, ↓kept_setFfState, ↓kept_updFlow, ite_self]

theorem kept_execGateTimeout (s : State) : ((execGateTimeout s).after s).kept = s.kept := by
  simp only [execGateTimeout]
  split
  · simp only [↓after_next]
  · split
    · simp only [↓after_next]
    · simp only [↓after_next, ↓kept_mk, ↓kept_pair, ↓kept_updUnit, ↓kept_invEnded, ↓kept_updStatus, ↓kept_completeUnit,
        ↓kept_flowSettle]

theorem kept_execDispatchStart (q) (s : State) : ((execDispatchStart q s).after s).kept = s.kept := by
  unfold execDispatchStart
  have hd := kept_dispatchStart s q
  extract_lets head mine
  split
  · extract_lets src
    split
    · split
      · rfl
      · exact (kept_flowSettle ..).trans ((kept_flowSync ..).trans ((kept_gfxPump ..).trans ((kept_a1Exit ..).trans (kept_updUnit
          ..))))
    split
    · rfl
    split
    · rename_i e
      rw [e] at hd
      exact (kept_flowSettle ..).trans ((kept_flowSync ..).trans hd)
    · exact hd
  · exact hd

theorem kept_execUnitRetire (q) (s : State) : ((execUnitRetire q s).after s).kept = s.kept :=
  have h : ((s.flowSync s.time).flowSettle).kept = s.kept := (kept_flowSettle ..).trans (kept_flowSync ..)
  (kept_after (kept_unitRetire ..) h.symm).trans h

theorem kept_execQuenchComplete (s : State) : ((execQuenchComplete s).after s).kept = s.kept := by
  have h := kept_quenchComplete s
  unfold execQuenchComplete
  split
  · rename_i t e
    rw [e] at h
    exact (kept_flowSettle ..).trans h
  · exact h

theorem kept_execLadleDrain (s : State) : ((execLadleDrain s).after s).kept = s.kept := by
  simp only [execLadleDrain, ↓after_next, ↓kept_flowSettle, ↓kept_ladleDrain, ↓kept_flowSync, implies_true]

end Sys2Proof.Machine
end

section
/-! PROOFS. The queue and one-time storage under the functions of Frame.lean: the fetch deadline and the scanned-out line. -/

namespace Sys2Proof.Machine

theorem kept_flowTaken (s : State) : s.flowTaken.kept = s.kept := by
  simp only [State.flowTaken]
  split
  · rfl
  · refine kept_foldl (fun s x => ?_) _ _
    split
    · simp only [↓kept_invEnded]
    · rfl

theorem kept_cancelLate (s : State) : s.cancelLate.kept = s.kept := by
  simp only [State.cancelLate]
  split
  · rfl
  · simp only [↓kept_flowSync]
    refine kept_foldl (fun s x => ?_) _ _
    split
    · simp only [↓kept_ite, ↓kept_endAtStart, ite_self]
    · rfl

theorem kept_cancelQueued (s : State) : s.cancelQueued.kept = s.kept := by
  simp only [State.cancelQueued]
  split
  · rfl
  · simp only [↓kept_flowSync]
    refine kept_foldl (fun s x => ?_) _ _
    split
    · simp only [↓kept_ite, ↓kept_endAtStart, ite_self]
    · rfl

theorem kept_markProt (s : State) (n prot : Nat) : (s.markProt n prot).kept = s.kept := by
  simp only [State.markProt, ↓kept_mk, ↓kept_pair, ↓kept_ite, ↓kept_setFld, ite_self]

theorem kept_putShown (s : State) (d : FlowDesc) (l : ShownFrame) : (s.putShown d l).kept = s.kept := by
  simp only [State.putShown, ↓kept_ite, ↓kept_flowOwns, ↓kept_setFlag, ↓kept_hideFrame, ↓kept_showFrame, ↓kept_markProt, ite_self]

theorem kept_whiskLead (s : State) (lead : Nat) : (s.whiskLead lead).kept = s.kept := by
  simp only [State.whiskLead, ↓kept_setFld]

theorem kept_doPlan (s : State) (fl : Flow) (p : FramePlan) : (s.doPlan fl p).kept = s.kept := by
  simp only [State.doPlan]
  split
  · simp only [↓kept_updFlow, ↓kept_markProt, ↓kept_hideFrame, ↓kept_flowOwns]
  · simp only [↓kept_putShown, ↓kept_ffCount]
  · simp only [↓kept_putShown, ↓kept_ffCount]
  · simp only [↓kept_updFlow, ↓kept_putShown, ↓kept_ffCount, ↓kept_whiskLead, ↓kept_setReg]
  · simp only [↓kept_updFlow, ↓kept_putShown, ↓kept_ffCount]

theorem kept_flowLog (s : State) (fl j p) : (s.flowLog fl j p).kept = s.kept := by
  unfold State.flowLog
  obtain ⟨vwrite, ew⟩ : ∃ f, f = State.vwrite := ⟨_, rfl⟩
  have hw := kept_vwrite
  rw [← ew] at hw ⊢
  extract_lets d
  split
  have h1 := kept_snd ‹_› (kept_drawNat ..)
  split
  split
  extract_lets margin bs s2 s3
  have h2 : s2.kept = s.kept := by
    unfold s2
    split
    · split
      · exact (kept_setReg ..).trans h1
      · exact h1
    · exact h1
  have h3 : s3.kept = s.kept := by
    unfold s3
    split
    · exact (kept_snd ‹_› (hw ..)).trans h2
    · exact (kept_accessFault ..).trans ((kept_snd ‹_› (hw ..)).trans h2)
  split
  · exact (kept_evtSignal ..).trans h3
  · exact h3

theorem kept_flowStops (s : State) (fl : Flow) : (s.flowStops fl).kept = s.kept := by
  simp only [State.flowStops, ↓kept_mk, ↓kept_pair, ↓kept_ite, ↓kept_clearFlag, ↓kept_markProt, ↓kept_hideFrame, ite_self]

theorem kept_flowDeadline (s : State) (changed : Bool) : (s.flowDeadline changed).kept = s.kept := by
  simp only [State.flowDeadline]
  split
  · rfl
  · split
    · simp only [↓kept_ite, ↓kept_setFld, ↓kept_countWrap, ↓kept_updFlow, ↓kept_setFfState, ↓kept_cancelLate, ↓kept_flowTaken,
        ite_self]
    · simp only [↓kept_ite, ↓kept_setFld, ↓kept_countWrap, ↓kept_updFlow, ↓kept_setFfState, ↓kept_cancelLate, ↓kept_flowTaken,
        ↓kept_flowSettle, ↓kept_flowLog, ↓kept_doPlan, ite_self]
      split
      · split
        · simp only [↓kept_ite, ↓kept_setFld, ↓kept_countWrap, ↓kept_updFlow, ↓kept_setFfState, ↓kept_cancelLate, ↓kept_flowTaken,
            ↓kept_flowStops, ite_self]
        · simp only [↓kept_ite, ↓kept_setFld, ↓kept_countWrap, ↓kept_updFlow, ↓kept_setFfState, ↓kept_cancelLate, ↓kept_flowTaken,
            ↓kept_flowStops, ↓kept_flowSettle, ↓kept_cancelQueued, ↓kept_flowLog, ↓kept_doPlan, ite_self]
      · rfl

theorem kept_execFetchDeadline (s : State) : ((execFetchDeadline s).after s).kept = s.kept := by
  unfold execFetchDeadline
  split
  · rfl
  extract_lets at_ s1
  have h1 : s1.kept = s.kept := by
    unfold s1
    split
    · rfl
    · exact kept_ldmSyncLine ..
  split
  rename_i c t hd
  have h2 := (kept_snd hd (kept_dspDeadline ..)).trans h1
  extract_lets t1 d1 t2 m t3 t4 t5 t6

  have h3 : t1.kept = s.kept := by
    unfold t1
    split
    · exact (kept_dptTiming ..).trans h2
    · exact h2
  have h6 : t6.kept = s.kept := (kept_setFld ..).trans ((kept_tapStart ..).trans ((kept_tapStart ..).trans
    ((kept_ldmDeadline ..).trans ((kept_flowDeadline ..).trans (kept_upd.trans h3)))))
  split
  · exact (kept_frameData ..).trans h6
  · exact kept_upd.trans h6

theorem kept_whiskStop (s : State) (c : Nat) (access : AccessKind) (f : VFail) : (s.whiskStop c access f).kept = s.kept := by
  simp only [State.whiskStop, ↓kept_updFlow, ↓kept_clearFlag, ↓kept_recordFail]

theorem kept_whiskRows (s : State) (c : Nat) (rows : List (Nat × Nat)) (n : Nat) : (s.whiskRows c rows n).2.2.kept = s.kept := by
  simp only [State.whiskRows]
  refine kept_foldl3 (fun r q s x => ?_) _ _
  dsimp only
  split
  · rfl
  · split
    · rename_i h
      obtain rfl := snd_of_eq h
      simp only [↓kept_vread]
    · rename_i h
      obtain rfl := snd_of_eq h
      simp only [↓kept_vread]

theorem kept_whiskLine (s : State) : s.whiskLine.kept = s.kept := by
  simp only [State.whiskLine]
  split
  · rfl
  · split
    · rfl
    · split
      · rename_i h
        obtain rfl := snd2_of_eq h
        simp only [↓kept_whiskRows, ↓kept_whiskStop]
      · rename_i h
        obtain rfl := snd2_of_eq h
        split
        · rename_i h
          obtain rfl := snd2_of_eq h
          simp only [↓kept_whiskRows, ↓kept_whiskStop]
        · rename_i h
          obtain rfl := snd2_of_eq h
          split
          · rename_i h
            obtain rfl := snd_of_eq h
            simp only [↓kept_whiskRows, ↓kept_whiskStop, ↓kept_vwrite]
          · rename_i h
            obtain rfl := snd_of_eq h
            simp only [↓kept_whiskRows, ↓kept_vwrite, ↓kept_updFlow, ↓kept_setFld]

theorem kept_whiskTime (s : State) (y stall : Nat) : (s.whiskTime y stall).kept = s.kept := by
  simp only [State.whiskTime]
  split
  · rfl
  · split
    · rfl
    · split
      · refine kept_foldl (fun s x => ?_) _ _
        split
        · simp only [↓kept_ite, ↓kept_whiskLine, ite_self]
        · rfl
      · simp only [↓kept_ite, ↓kept_whiskLead, ite_self]
        refine kept_foldl (fun s x => ?_) _ _
        split
        · simp only [↓kept_ite, ↓kept_whiskLine, ite_self]
        · rfl

theorem kept_behindCount (s : State) (y : Nat) (b : Bool) : (s.behindCount y b).kept = s.kept := by
  simp only [State.behindCount]
  split
  · simp only [↓kept_ite, ↓kept_updFlow, ↓kept_countSat, ↓kept_rec0, ite_self]
  · simp only [↓kept_ite, ↓kept_updFlow, ↓kept_countSat, ite_self]

theorem kept_execScanoutLine (e : LineEvents) (s : State) : ((execScanoutLine e s).after s).kept = s.kept := by
  simp only [execScanoutLine, ↓after_next, ↓after_ite, ↓kept_ite, ↓kept_setFld, ↓kept_whiskTime, ↓kept_ldmSyncLine,
    ↓kept_composeLine, ↓kept_behindCount, ↓kept_tapDrop, ↓kept_tapLine, ↓kept_ldmLine, ↓kept_lineLink, ↓kept_emit, kept_foldl,
    ite_self, implies_true]

end Sys2Proof.Machine
end

section
/-! PROOFS. The queue and one-time storage under the functions of RegRead.lean: reads of registers. -/

namespace Sys2Proof.Machine

theorem kept_readClears (s : State) (a : Nat) : (s.readClears a).kept = s.kept := by
  simp only [State.readClears]
  split
  · rfl
  · refine kept_foldl (fun s x => ?_) _ _
    split
    · simp only [↓kept_setFld]
    · rfl

theorem kept_readTakes (s : State) (p : Path) (a : Nat) : (s.readTakes p a).kept = s.kept := by
  simp only [State.readTakes]
  split
  · simp only [↓kept_ite, ↓kept_mbTake, ite_self]
  · rfl

theorem kept_dropShadow (s : State) (p : Path) (lo : Nat) : (s.dropShadow p lo).kept = s.kept := by
  simp only [State.dropShadow, ↓kept_mk, ↓kept_pair]

theorem kept_readShadows (s : State) (p : Path) (a : Nat) : (s.readShadows p a).kept = s.kept := by
  simp only [State.readShadows, ↓kept_mk, ↓kept_pair, ↓kept_ite, ↓kept_dropShadow, ite_self]

theorem kept_regRead (s : State) (p : Path) (a : Nat) : (s.regRead p a).2.kept = s.kept := by
  simp only [State.regRead, ↓kept_ite, ↓ite_snd]
  split
  · rfl
  · split
    · rfl
    · split
      · simp only [↓kept_dropShadow]
      · simp only [↓kept_readTakes, ↓kept_readClears, ↓kept_readShadows]

theorem kept_pathRead (s : State) (p : Path) (a : Nat) : (s.pathRead p a).kept = s.kept := by
  simp only [State.pathRead, ↓kept_ite, ↓kept_regRead, ↓kept_emit, ite_self]

theorem kept_execRcFieldRead (p : Path) (a : BitVec 25) (s : State) : ((execRcFieldRead p a s).after s).kept = s.kept := by
  simp only [execRcFieldRead, ↓after_next, ↓kept_pathRead]

theorem kept_execLowWordShadowRead (p : Path) (a : BitVec 25) (s : State) :
    ((execLowWordShadowRead p a s).after s).kept = s.kept := by
  simp only [execLowWordShadowRead, ↓after_next, ↓kept_pathRead]

theorem kept_execRegRead (r : I2cRequest) (s : State) : ((execRegRead r s).after s).kept = s.kept := by
  simp only [execRegRead, ↓after_next, ↓kept_ite, ↓ite_snd, ↓kept_i2cRun, ↓kept_drawNat, ↓kept_regRead, ite_self, implies_true]

end Sys2Proof.Machine
end

section
/-! PROOFS. The queue and one-time storage under the functions of RegWrite.lean: writes of registers. -/

namespace Sys2Proof.Machine

theorem kept_plainWrite (s : State) (p : Path) (a : Nat) (v : Word) : (s.plainWrite p a v).kept = s.kept := by
  simp only [State.plainWrite]
  split
  · rfl
  · simp only [↓kept_ite, ↓kept_setReg, ↓kept_violation, ite_self]

theorem kept_zeroRegs (s : State) (a n : Nat) : (s.zeroRegs a n).kept = s.kept := by
  simp only [State.zeroRegs, ↓kept_setRegs]

theorem kept_writeHif (s : State) (p : Path) (a : Nat) (v : Word) : (s.writeHif p a v).kept = s.kept := by
  simp only [State.writeHif]
  split
  · simp only [↓kept_ite, ↓kept_mbPost, ite_self]
  · simp only [↓kept_ite, ↓kept_plainWrite, ↓kept_msixUnmasked, ite_self]

theorem kept_writeCtxCtrl (s : State) (c : Fin 32) (v : Nat) : (s.writeCtxCtrl c v).kept = s.kept := by
  simp only [State.writeCtxCtrl, ↓kept_ite, ↓kept_execCtxKill, ↓kept_execCtxEnable, ↓kept_execCtxDisable, ite_self]

theorem kept_writeQCtrl (s : State) (q : Fin 64) (v : Nat) : (s.writeQCtrl q v).kept = s.kept := by
  simp only [State.writeQCtrl, ↓kept_ite, ↓kept_execQEnable, ↓kept_execQDisable, ite_self]

theorem kept_writeEvt (s : State) (p : Path) (e : Nat) (v : Word) : (s.writeEvt p e v).kept = s.kept := by
  simp only [State.writeEvt, ↓kept_ite, ↓kept_plainWrite, ↓kept_evtReset, ↓kept_evtSignal, ite_self]

theorem kept_writeCpr (s : State) (p : Path) (a : Nat) (v : Word) : (s.writeCpr p a v).kept = s.kept := by
  simp only [State.writeCpr, ↓kept_ite, ↓kept_writeEvt, ↓kept_writeQCtrl, ↓kept_writeCtxCtrl, ↓kept_plainWrite, ite_self]

theorem kept_rangeErr (s : State) : s.rangeErr.kept = s.kept := by
  simp only [State.rangeErr, ↓kept_setFlag]

theorem kept_writeGfxCtrl (s : State) (v : Nat) : (s.writeGfxCtrl v).kept = s.kept := by
  simp only [State.writeGfxCtrl, ↓kept_ite, ↓kept_rangeErr, ↓kept_setReg, ↓kept_gfxBoundary, ite_self]

theorem kept_writeSchQ (s : State) (q v : Nat) : (s.writeSchQ q v).kept = s.kept := by
  simp only [State.writeSchQ, ↓kept_ite, ↓kept_setFld, ↓kept_rangeErr, ↓kept_reserves, ite_self]

theorem kept_writeSch (s : State) (p : Path) (a : Nat) (v : Word) : (s.writeSch p a v).kept = s.kept := by
  simp only [State.writeSch, ↓kept_mk, ↓kept_pair, ↓kept_ite, ↓kept_rangeErr, ↓kept_setReg, ↓kept_writeGfxCtrl, ↓kept_writeSchQ,
    ↓kept_plainWrite, ite_self]

theorem kept_writeGuarded (s : State) (p : Path) (a : Nat) (v : Word) (held : Bool) :
    (s.writeGuarded p a v held).kept = s.kept := by
  simp only [State.writeGuarded, ↓kept_ite, ↓kept_plainWrite, ↓kept_setFlag, ite_self]

theorem kept_writeMmu (s : State) (p : Path) (a : Nat) (v : Word) : (s.writeMmu p a v).kept = s.kept := by
  simp only [State.writeMmu, ↓kept_ite, ↓kept_layoutWrite, ↓kept_writeGuarded, ↓kept_aperWrite, ↓kept_invalWrite, ↓kept_zeroRegs,
    ↓kept_plainWrite, ite_self]

theorem kept_writeDmc (s : State) (p : Path) (a : Nat) (v : Word) : (s.writeDmc p a v).kept = s.kept := by
  simp only [State.writeDmc, ↓kept_ite, ↓kept_violation, ↓kept_mapGo, ↓kept_rmpCmd, ↓kept_setFld, ↓kept_plainWrite, ite_self]

theorem kept_writeErr (s : State) (p : Path) (a : Nat) (v : Word) : (s.writeErr p a v).kept = s.kept := by
  simp only [State.writeErr, ↓kept_ite, ↓kept_rptrWrite, ↓kept_errQuench, ↓kept_plainWrite, ↓kept_zeroRegs, ↓kept_setFld,
    ite_self]

theorem kept_writePwr (s : State) (p : Path) (a : Nat) (v : Word) : (s.writePwr p a v).kept = s.kept := by
  simp only [State.writePwr, ↓kept_mk, ↓kept_pair, ↓kept_ite, ↓kept_pwrReq, ↓kept_plainWrite, ↓kept_setFld, ↓kept_setReg,
    ite_self]
  split
  · rfl
  · split
    · rfl
    · split
      · rfl
      · split
        · split
          · simp only [↓kept_mk, ↓kept_pair, ↓kept_setReg]
          · rfl
        · rfl

theorem kept_writeLayer (s : State) (p : Path) (a : Nat) (v : Word) : (s.writeLayer p a v).kept = s.kept := by
  simp only [State.writeLayer, ↓kept_ite, ↓kept_plainWrite, ↓kept_setFlag, ite_self]

theorem kept_writeDsp (s : State) (p : Path) (a : Nat) (v : Word) : (s.writeDsp p a v).kept = s.kept := by
  simp only [State.writeDsp, ↓kept_ite, ↓kept_execDspCommit, ↓kept_execDspCoefWrite, ↓kept_writeLayer, ↓kept_plainWrite, ite_self]

theorem kept_writeWsk (s : State) (p : Path) (a : Nat) (v : Word) : (s.writeWsk p a v).kept = s.kept := by
  simp only [State.writeWsk, ↓kept_ite, ↓kept_setReg, ↓kept_execSourcePost, ↓kept_plainWrite, ite_self]
  split
  · split
    · rfl
    · split
      · simp only [↓kept_execFfStart]
      · simp only [↓kept_execFfStop]
      · simp only [↓kept_execFfUpdate]
      · simp only [↓kept_execFfClearStats]
      · simp only [↓kept_setReg, ↓kept_ffDone]
  · rfl

theorem kept_writeLdm (s : State) (p : Path) (a : Nat) (v : Word) : (s.writeLdm p a v).kept = s.kept := by
  simp only [State.writeLdm, ↓after_ite, ↓kept_ite, ↓kept_execLdmEnable, ↓kept_execLdmDisable, ↓kept_plainWrite, ↓kept_setFlag,
    ite_self]

theorem kept_writeDpt (s : State) (p : Path) (a : Nat) (v : Word) (k : SinkInfo) : (s.writeDpt p a v k).kept = s.kept := by
  simp only [State.writeDpt, ↓after_ite, ↓kept_ite, ↓kept_execDptEnable, ↓kept_execDptDisable, ↓kept_execDptRetrain,
    ↓kept_plainWrite, ite_self]

theorem kept_writeCfg (s : State) (p : Path) (a : Nat) (v : Word) : (s.writeCfg p a v).kept = s.kept := by
  simp only [State.writeCfg, ↓kept_ite, ↓kept_flashCmd, ↓kept_plainWrite, ite_self]

theorem kept_writeCluster (s : State) (p : Path) (a : Nat) (v : Word) : (s.writeCluster p a v).kept = s.kept := by
  simp only [State.writeCluster, ↓kept_ite, ↓kept_execGrdRegionWrite, ↓kept_zeroRegs, ↓kept_setReg, ↓kept_plainWrite, ite_self]

end Sys2Proof.Machine
end

section
/-! PROOFS. The queue and one-time storage under the functions of Boot.lean: the start after the domains are released. -/

namespace Sys2Proof.Machine

theorem kept_recordField (s : State) (at_ : RecPlace) (a : Nat) (r : RegRow) (mask given : Word) (w : Nat) (f : RegField) :
    (s.recordField at_ a r mask given w f).2.kept = s.kept := by
  simp only [State.recordField, ↓kept_ite, ↓ite_snd]
  split
  · rfl
  · split
    · simp only [↓kept_ite, ↓ite_snd, ↓kept_clamp, ite_self]
    · simp only [↓kept_ite, ↓ite_snd, ↓kept_clamp, ite_self]
    · simp only [↓kept_ite, ↓ite_snd, ↓kept_clamp, ite_self]

theorem kept_fwCtx (s : State) (a : Nat) (was : Nat) : (s.fwCtx a was).kept = s.kept := by
  simp only [State.fwCtx, ↓kept_ite, ↓kept_setFlag, ite_self]

theorem kept_trainFrom (s : State) (rate : Nat) (l : List (BitVec 16)) : (s.trainFrom rate l).2.kept = s.kept := by
  induction l generalizing s rate with
  | nil => rfl
  | cons m t ih =>
    simp only [State.trainFrom, ↓kept_ite, ↓ite_snd, ite_self, ↓kept_setFld, ↓kept_rec0, ↓kept_clamp, ih]

theorem kept_failingLine (s : State) (a : Nat) : (s.failingLine a).kept = s.kept := by
  simp only [State.failingLine]
  split
  · simp only [↓kept_rec0, ↓kept_setReg64]
  · simp only [↓kept_ite, ↓kept_rec0, ↓kept_startStops, ite_self]

theorem kept_bootMap (s : State) : s.bootMap.kept = s.kept := by
  simp only [State.bootMap, ↓kept_ite, ↓kept_clamp, ↓kept_setFld, ↓kept_setReg, ↓kept_mapApply, ↓kept_setFlag, kept_foldl,
    ite_self, implies_true]

theorem kept_bootLock (s : State) : s.bootLock.kept = s.kept := by
  simp only [State.bootLock, ↓kept_ite, ↓kept_setFlag, ite_self]

theorem kept_bootRuns (s : State) : s.bootRuns.kept = s.kept := by
  simp only [State.bootRuns, ↓kept_audioPump, ↓kept_kwsPump, ↓kept_setReg, ↓kept_setFld]

theorem kept_fenceCluster (s : State) (k cause : Nat) : (s.fenceCluster k cause).kept = s.kept := by
  simp only [State.fenceCluster, ↓kept_mk, ↓kept_pair, ↓kept_ite, ↓kept_rec0, ite_self]

theorem kept_countRepair (s : State) : s.countRepair.kept = s.kept := by
  simp only [State.countRepair, ↓kept_countSat]

theorem kept_coreFails (s : State) (k : Nat) : (s.coreFails k).kept = s.kept := by
  simp only [State.coreFails, ↓kept_mk, ↓kept_pair, ↓kept_ite, ↓kept_fenceCluster, ↓kept_countRepair, ite_self]

theorem kept_wayFails (s : State) (w : Nat × Nat) : (s.wayFails w).kept = s.kept := by
  simp only [State.wayFails, ↓kept_mk, ↓kept_pair, ↓kept_ite, ↓kept_rec0, ite_self]

theorem kept_slotFails (s : State) (x : Section) : (s.slotFails x).kept = s.kept := by
  simp only [State.slotFails, ↓kept_mk, ↓kept_pair, ↓kept_ite, ↓kept_warmFrom, ↓kept_setFlag, ite_self]

theorem kept_takeSection (s : State) (x : Section) : (s.takeSection x).kept = s.kept := by
  simp only [State.takeSection]
  split
  · simp only [↓kept_mk, ↓kept_pair]
  · simp only [↓kept_mk, ↓kept_pair]
  · simp only [↓kept_mk, ↓kept_pair]
  · simp only [↓kept_ite, ↓kept_clamp, ite_self]

theorem kept_takeData (s : State) (x : Section) : (s.takeData x).kept = s.kept := by
  simp only [State.takeData, ↓kept_ite, ↓kept_clamp, ↓kept_devWrite, ite_self]

theorem kept_exitDone (s : State) (x : ExitRun) (en : Bool) : (s.exitDone x en).kept = s.kept := by
  simp only [State.exitDone, ↓kept_mk, ↓kept_pair, ↓kept_configReset, ↓kept_setPhase, ↓kept_setFld, ↓kept_audioPump,
    ↓kept_kwsPump, ↓kept_wakeHost]

theorem kept_lostExit (s : State) (x : ExitRun) : (s.lostExit x).kept = s.kept := by
  simp only [State.lostExit, ↓kept_mk, ↓kept_pair, ↓kept_configReset, ↓kept_warmReset, ↓kept_wakeHost]

end Sys2Proof.Machine
end

section
/-! PROOFS. What may program one-time storage, the meaning of a command, and the statements of what each step holds (O1, O2, O3).
-/

namespace Sys2Proof.Machine

/-- From `s` to `t` the queue stays the same and every bit of one-time storage that is 1 stays 1. -/
def State.Grows (s t : State) : Prop :=
  t.pending = s.pending
    ∧ ∀ (n : Nat) (m : Word), Sparse.get s.dbg.otp 0 n &&& m = m → Sparse.get t.dbg.otp 0 n &&& m = m

theorem State.Grows.refl (s : State) : s.Grows s := ⟨rfl, fun _ _ h => h⟩

theorem State.Grows.trans {s t u : State} (h : s.Grows t) (k : t.Grows u) : s.Grows u := by
  obtain ⟨hq, ho⟩ := h
  obtain ⟨kq, ko⟩ := k
  exact ⟨kq.trans hq, fun n m hm => ko n m (ho n m hm)⟩

theorem State.Grows.of_kept {s t : State} (h : t.kept = s.kept) : s.Grows t := by
  obtain ⟨hq, ho⟩ := Prod.mk.inj h
  exact ⟨hq, fun n m hm => by rw [ho]; exact hm⟩

/-- What keeps the queue and the storage may follow a step that grows. -/
theorem State.Grows.kept {s t u : State} (h : s.Grows t) (k : u.kept = t.kept) : s.Grows u := h.trans (.of_kept k)

theorem State.Grows.ite {s t u : State} {c : Prop} [Decidable c] (h : s.Grows t) (k : s.Grows u) : s.Grows (if c then t else u) :=
  by
  split
  · exact h
  · exact k

theorem State.Grows.foldl {α : Type} {f : State → α → State} (h : ∀ (s : State) a, s.Grows (f s a)) (l : List α) (s : State) :
    s.Grows (l.foldl f s) := by
  induction l generalizing s with
  | nil => exact .refl s
  | cons a l ih => exact (h s a).trans (ih _)

/-- Programming a word adds the ones of the data to those it has. -/
theorem grows_program (s : State) (a : Nat) (v : Word) :
    s.Grows { s with dbg := { s.dbg with otp := Sparse.set s.dbg.otp 0 a (Sparse.get s.dbg.otp 0 a ||| v) } } := by
  refine ⟨rfl, fun n m h => ?_⟩
  by_cases hn : n = a
  · subst hn
    rw [Sparse.get_set_self, BitVec.and_comm, BitVec.and_or_distrib_left, BitVec.and_comm m, h]
    refine BitVec.eq_of_getLsbD_eq fun i hi => ?_
    cases hm : m.getLsbD i <;> simp [hm]
  · rw [Sparse.get_set_ne _ _ _ _ hn]
    exact h

theorem grows_otpCmd (s : State) (v : Word) : s.Grows (s.otpCmd v) := by
  unfold State.otpCmd
  extract_lets n t f w read t2 old new
  have ht : s.Grows t := .of_kept (kept_setReg ..)
  have ht2 : s.Grows t2 := ht.kept (kept_clearFlag ..)
  split
  · exact ht
  split
  · exact ht.kept (kept_setFlag ..)
  split
  · exact ht2.kept (kept_setReg ..)
  · exact ht2.trans (grows_program ..)

theorem grows_writeDbg (s : State) (p : Path) (a : Nat) (v : Word) : s.Grows (s.writeDbg p a v) := by
  unfold State.writeDbg
  split
  · exact .of_kept (kept_dbgRequest ..)
  split
  · refine .of_kept ?_
    simp only [↓kept_ite, kept_dbgClose, kept_dbgOpen, ite_self]
  split
  · exact grows_otpCmd ..
  · exact .of_kept (kept_plainWrite ..)

theorem grows_regWrite (s : State) (p : Path) (a : Nat) (v : Word) (k : SinkInfo) : s.Grows (s.regWrite p a v k) := by
  unfold State.regWrite
  split
  · exact .refl s
  split
  · exact .of_kept (kept_writeCluster ..)
  split
  · exact .ite (.of_kept (kept_execDoorbell ..)) (.refl s)
  split
  · exact .ite (.of_kept (kept_glbRst ..)) (.refl s)
  · exact .of_kept (kept_writeHif ..)
  · exact .of_kept (kept_writeCpr ..)
  · exact .of_kept (kept_writeSch ..)
  · exact .of_kept (kept_writeMmu ..)
  · exact .ite (.of_kept (kept_maintCmd ..)) (.ite (.of_kept (kept_execL2cWaymaskWrite ..)) (.of_kept (kept_plainWrite ..)))
  · exact .of_kept (kept_writeDmc ..)
  · exact .ite (.of_kept (kept_cpyCmd ..)) (.of_kept (kept_plainWrite ..))
  · exact .of_kept (kept_writeErr ..)
  · exact .of_kept (kept_writePwr ..)
  · exact .of_kept (kept_writeDsp ..)
  · exact .of_kept (kept_writeWsk ..)
  · exact .of_kept (kept_writeLdm ..)
  · refine .ite ?_ (.of_kept (kept_plainWrite ..))
    split
    · exact .of_kept (kept_execDprEnable ..)
    · exact .of_kept (kept_execDprDisable ..)
  · exact .of_kept (kept_writeDpt ..)
  · exact .of_kept (kept_writeCfg ..)
  · exact grows_writeDbg ..
  · exact .refl s

theorem grows_applyReg (s : State) (place : RecPlace) (a : Nat) (mask v : Word) (k : SinkInfo) :
    s.Grows (s.applyReg place a mask v k) := by
  unfold State.applyReg
  split
  · exact .of_kept (kept_clamp ..)
  split
  · exact .ite (.refl s) (.of_kept (kept_clamp ..))
  extract_lets cur drop lo t
  have ht : s.Grows t := .ite (.refl s) (.of_kept (kept_clamp ..))
  split
  rename_i n u hu
  have h : s.Grows u := ht.kept (kept_snd hu (kept_foldl2 (fun r s x => kept_recordField ..) _ _))
  extract_lets w locked was t2 t3
  have h2 : s.Grows t2 := (h.trans (grows_regWrite ..)).kept (kept_fwCtx ..)
  have h3 : s.Grows t3 := .ite (h2.kept (kept_clamp ..)) h2
  split
  · exact h3
  · exact .ite h3 (h3.kept (kept_clamp ..))

theorem grows_applyRecord (s : State) (first : Bool) (place : RecPlace) (w0 off mask v : Word) (k : SinkInfo) :
    s.Grows (s.applyRecord first place w0 off mask v k) := by
  unfold State.applyRecord
  split
  · exact .ite (grows_applyReg ..) (.refl s)
  · exact .ite (.refl s) (.of_kept (kept_clamp ..))

theorem grows_applySection (first : Bool) (sect : Nat) (k : SinkInfo) (ws : List Word) (idx : Nat) (s : State) :
    s.Grows (State.applySection first sect k ws idx s) := by
  fun_induction State.applySection first sect k ws idx s with
  | case1 => exact .refl _
  | case2 w0 w1 w2 w3 t idx s h ih => exact (grows_applyRecord ..).trans ih
  | case3 => exact .refl _

theorem grows_applyConfig (s : State) (first : Bool) (k : SinkInfo) : s.Grows (s.applyConfig first k) :=
  .foldl (fun _ _ => grows_applySection ..) _ s

theorem grows_configured (s : State) (k : SinkInfo) : s.Grows (s.configured k) := by
  unfold State.configured
  extract_lets t u
  have h : s.Grows u := (((grows_applyConfig s false k).kept (kept_setFlag ..)).kept (kept_setFlag ..)).kept (kept_setFlag ..)
  exact .ite h (h.kept (kept_flowStart ..))

theorem grows_bootCommit (s : State) : s.Grows s.bootCommit := by
  unfold State.bootCommit
  split
  · exact .refl s
  extract_lets t u w
  have hu : s.Grows u := (((State.Grows.of_kept (kept_setFld ..)).trans (grows_applyConfig t true noSink)).kept (kept_bootMap
    ..)).kept
    (kept_bootLock ..)
  have hw : s.Grows w := hu.kept (kept_foldl (fun s a => kept_failingLine ..) _ _)
  exact .ite (hw.kept (kept_bootRuns ..)) hw

theorem grows_s3Start (s : State) (saved : List (Nat × Word)) (k : SinkInfo) : s.Grows (s.s3Start saved k) := by
  unfold State.s3Start
  extract_lets d b t u w
  have hw : s.Grows w := ((State.Grows.of_kept kept_upd).kept (kept_setReg ..)).kept ((kept_setFld ..).trans (kept_clearFlag ..))
  exact (((hw.trans (grows_applyConfig ..)).kept (kept_bootLock ..)).kept (kept_bootRuns ..)).trans (grows_configured ..)

/-! The commands that can reach one-time storage. -/

theorem grows_execRegisterWrite (p : Path) (a : BitVec 25) (v : Word) (s : State) : s.Grows ((execRegisterWrite p a v s).after s)
  :=
  grows_regWrite ..

theorem grows_execOtpRead (v : Word) (s : State) : s.Grows ((execOtpRead v s).after s) := by
  unfold execOtpRead
  split
  · exact grows_otpCmd ..
  · exact .refl s

theorem grows_execOtpProgram (v : Word) (s : State) : s.Grows ((execOtpProgram v s).after s) := by
  unfold execOtpProgram
  split
  · exact grows_otpCmd ..
  · exact .refl s

theorem grows_execDbgreg (off : BitVec 16) (read : Bool) (v : Word) (s : State) : s.Grows ((execDbgreg off read v s).after s) :=
  by
  unfold execDbgreg
  extract_lets t a
  have ht : s.Grows t := .of_kept (kept_tap575 ..)
  split
  · split
    exact (ht.kept (kept_snd ‹_› (kept_regRead ..))).kept (kept_emit ..)
  · exact ht.trans (grows_regWrite ..)

theorem grows_execDataSectionsLoaded (k : SinkInfo) (s : State) : s.Grows ((execDataSectionsLoaded k s).after s) := by
  unfold execDataSectionsLoaded
  split
  · exact .refl s
  split
  · exact .of_kept (kept_slotFails ..)
  · exact (State.Grows.of_kept (kept_foldl (fun s x => kept_takeData ..) _ _)).trans (grows_configured ..)

theorem grows_execBootPartLoaded (s : State) : s.Grows ((execBootPartLoaded s).after s) := by
  unfold execBootPartLoaded
  split
  · exact .refl s
  split
  · exact .of_kept (kept_slotFails ..)
  extract_lets b t u
  have hu : s.Grows u := (State.Grows.of_kept kept_upd).kept (kept_foldl (fun s x => kept_takeSection ..) _ t)
  exact (hu.kept kept_upd).trans (grows_bootCommit ..)

theorem grows_execTrainingComplete (fails : List (BitVec 16)) (verified : Bool) (s : State) :
    s.Grows ((execTrainingComplete fails verified s).after s) := by
  unfold execTrainingComplete
  split
  · exact .refl s
  split
  rename_i rate t ht
  have h : s.Grows t := by
    split at ht
    · obtain ⟨-, rfl⟩ := Prod.mk.inj ht
      exact .refl s
    · exact .of_kept (kept_snd ht (kept_trainFrom ..))
  split
  · exact h.kept (kept_startStops ..)
  extract_lets u
  have hu : s.Grows u := h.kept ((kept_setFld ..).trans (kept_setFld ..))
  exact (hu.kept kept_upd).trans (grows_bootCommit ..)

theorem grows_execDramSelftestComplete (lines : List (BitVec 40)) (s : State) :
    s.Grows ((execDramSelftestComplete lines s).after s) := by
  unfold execDramSelftestComplete
  split
  · exact .refl s
  extract_lets f
  exact (State.Grows.of_kept (kept_upd.trans (kept_setFlag ..))).trans (grows_bootCommit ..)

theorem grows_execOnchipTestComplete (r : TestResult) (s : State) : s.Grows ((execOnchipTestComplete r s).after s) := by
  unfold execOnchipTestComplete
  split
  · exact .refl s
  extract_lets s1 s2 s3 s4 b s5 s6 third
  have h1 : s1.kept = s.kept := kept_foldl (fun s u => (kept_countRepair ..).trans (kept_rec0 ..)) _ _
  have h2 : s2.kept = s.kept := (kept_foldl (fun s k => kept_coreFails ..) _ _).trans h1
  have h3 : s3.kept = s.kept := (kept_foldl (fun s k => kept_fenceCluster ..) _ _).trans h2
  have h4 : s4.kept = s.kept := (kept_foldl (fun s k => kept_wayFails ..) _ _).trans h3
  have h5 : s5.kept = s.kept := kept_upd.trans h4
  have h6 : s.Grows s6 := .of_kept ((kept_setFld ..).trans ((kept_setFld ..).trans h5))
  split
  · exact h6.kept (kept_startStops ..)
  split
  · exact h6.kept (kept_startStops ..)
  split
  · exact h6.kept (kept_startStops ..)
  · exact h6.trans (grows_bootCommit ..)

theorem grows_execExitStepReady (k : SinkInfo) (s : State) : s.Grows ((execExitStepReady k s).after s) := by
  unfold execExitStepReady
  split
  · exact .refl s
  extract_lets step go
  have hgo : ∀ s : State, (go s).kept = s.kept := fun s => kept_upd
  clear_value go step
  split
  · exact .ite (.refl s) (.of_kept (hgo s))
  · exact .of_kept (hgo s)
  · exact .of_kept ((hgo _).trans kept_upd)
  · split
    · exact .of_kept (kept_lostExit ..)
    split
    · exact .of_kept ((hgo _).trans (kept_s3Release ..))
    · exact .of_kept ((hgo _).trans ((kept_collectHeld ..).trans kept_upd))
  · split
    · exact (grows_s3Start ..).kept (kept_exitDone ..)
    · exact .of_kept (kept_exitDone ..)

/-- The meaning of a command leaves the queue alone and clears no bit of one-time storage. -/
theorem exec_grows (c : Instr) (s : State) : s.Grows (Ans.after (exec c s) s) := by
  cases c with
  | registerWrite p a v => exact grows_execRegisterWrite ..
  | rcFieldRead p a => exact .of_kept (kept_execRcFieldRead ..)
  | lowWordShadowRead p a => exact .of_kept (kept_execLowWordShadowRead ..)
  | bar0BadSizeAccess isWrite a requester => exact .of_kept (kept_execBar0BadSizeAccess ..)
  | timeBaseTick => exact .of_kept (kept_execTimeBaseTick ..)
  | fetchDeadline => exact .of_kept (kept_execFetchDeadline ..)
  | scanoutLine e => exact .of_kept (kept_execScanoutLine ..)
  | tapPublish t => exact .of_kept (kept_execTapPublish ..)
  | dspCommit => exact .of_kept (kept_execDspCommit ..)
  | dspCoefWrite n bank w v => exact .of_kept (kept_execDspCoefWrite ..)
  | ffStart => exact .of_kept (kept_execFfStart ..)
  | ffStop => exact .of_kept (kept_execFfStop ..)
  | ffUpdate => exact .of_kept (kept_execFfUpdate ..)
  | ffClearStats => exact .of_kept (kept_execFfClearStats ..)
  | sourcePost v => exact .of_kept (kept_execSourcePost ..)
  | dpCaptureFrame f => exact .of_kept (kept_execDpCaptureFrame ..)
  | sourceHoldTimeout => exact .of_kept (kept_execSourceHoldTimeout ..)
  | sourceTimeout => exact .of_kept (kept_execSourceTimeout ..)
  | gateTimeout => exact .of_kept (kept_execGateTimeout ..)
  | ldmEnable v => exact .of_kept (kept_execLdmEnable ..)
  | ldmDisable v => exact .of_kept (kept_execLdmDisable ..)
  | statsPublish failed => exact .of_kept (kept_execStatsPublish ..)
  | dutyTagPoll => exact .of_kept (kept_execDutyTagPoll ..)
  | dutyHeld => exact .of_kept (kept_execDutyHeld ..)
  | diagTransfer p => exact .of_kept (kept_execDiagTransfer ..)
  | statusRead p => exact .of_kept (kept_execStatusRead ..)
  | statusReadComplete p codes => exact .of_kept (kept_execStatusReadComplete ..)
  | ldFault low => exact .of_kept (kept_execLdFault ..)
  | dptEnable v k => exact .of_kept (kept_execDptEnable ..)
  | dptDisable v => exact .of_kept (kept_execDptDisable ..)
  | dptRetrain k => exact .of_kept (kept_execDptRetrain ..)
  | hdcpAuthenticate r => exact .of_kept (kept_execHdcpAuthenticate ..)
  | hdcpRetry r => exact .of_kept (kept_execHdcpRetry ..)
  | dptIrqHpd k => exact .of_kept (kept_execDptIrqHpd ..)
  | dptHpdLowTimeout => exact .of_kept (kept_execDptHpdLowTimeout ..)
  | dptHpdReturn k => exact .of_kept (kept_execDptHpdReturn ..)
  | dprEnable v => exact .of_kept (kept_execDprEnable ..)
  | dprDisable v => exact .of_kept (kept_execDprDisable ..)
  | dprAuxTransaction r => exact .of_kept (kept_execDprAuxTransaction ..)
  | doorbell q w => exact .of_kept (kept_execDoorbell ..)
  | nop p => exact .of_kept (kept_execNop ..)
  | dispatch p => exact .of_kept (kept_execDispatch ..)
  | dispatchStart q => exact .of_kept (kept_execDispatchStart ..)
  | copy p => exact .of_kept (kept_execCopy ..)
  | copyFill p => exact .of_kept (kept_execCopyFill ..)
  | eventSignal p => exact .of_kept (kept_execEventSignal ..)
  | eventSignalReset p => exact .of_kept (kept_execEventSignalReset ..)
  | eventWait p => exact .of_kept (kept_execEventWait ..)
  | eventWaitTimeout q => exact .of_kept (kept_execEventWaitTimeout ..)
  | cond p => exact .of_kept (kept_execCond ..)
  | loop p => exact .of_kept (kept_execLoop ..)
  | loopEnd p => exact .of_kept (kept_execLoopEnd ..)
  | waitMem p => exact .of_kept (kept_execWaitMem ..)
  | waitMemPoll q => exact .of_kept (kept_execWaitMemPoll ..)
  | waitMemTimeout q => exact .of_kept (kept_execWaitMemTimeout ..)
  | writeMem p => exact .of_kept (kept_execWriteMem ..)
  | indirect p => exact .of_kept (kept_execIndirect ..)
  | l2Maint p => exact .of_kept (kept_execL2Maint ..)
  | objSync p => exact .of_kept (kept_execObjSync ..)
  | slotDefine p => exact .of_kept (kept_execSlotDefine ..)
  | slotRelease p => exact .of_kept (kept_execSlotRelease ..)
  | seqSubmit p => exact .of_kept (kept_execSeqSubmit ..)
  | seqCancel p => exact .of_kept (kept_execSeqCancel ..)
  | tokenStep p => exact .of_kept (kept_execTokenStep ..)
  | stepBoundary q => exact .of_kept (kept_execStepBoundary ..)
  | unitRetire q => exact .of_kept (kept_execUnitRetire ..)
  | ctxEnable c => exact .of_kept (kept_execCtxEnable ..)
  | ctxDisable c => exact .of_kept (kept_execCtxDisable ..)
  | ctxKill c => exact .of_kept (kept_execCtxKill ..)
  | qEnable q => exact .of_kept (kept_execQEnable ..)
  | qDisable q => exact .of_kept (kept_execQDisable ..)
  | evtRegSignal e => exact .of_kept (kept_execEvtRegSignal ..)
  | evtRegReset e => exact .of_kept (kept_execEvtRegReset ..)
  | faluAdd x => exact .of_kept (kept_execFaluAdd ..)
  | faluSub x => exact .of_kept (kept_execFaluSub ..)
  | faluMul x => exact .of_kept (kept_execFaluMul ..)
  | faluFma x => exact .of_kept (kept_execFaluFma ..)
  | faluMin x => exact .of_kept (kept_execFaluMin ..)
  | faluMax x => exact .of_kept (kept_execFaluMax ..)
  | faluMov x => exact .of_kept (kept_execFaluMov ..)
  | faluAbs x => exact .of_kept (kept_execFaluAbs ..)
  | faluNeg x => exact .of_kept (kept_execFaluNeg ..)
  | ialuAdd x => exact .of_kept (kept_execIaluAdd ..)
  | ialuSub x => exact .of_kept (kept_execIaluSub ..)
  | ialuMul x => exact .of_kept (kept_execIaluMul ..)
  | ialuMulh x => exact .of_kept (kept_execIaluMulh ..)
  | ialuMad x => exact .of_kept (kept_execIaluMad ..)
  | ialuAnd x => exact .of_kept (kept_execIaluAnd ..)
  | ialuOr x => exact .of_kept (kept_execIaluOr ..)
  | ialuXor x => exact .of_kept (kept_execIaluXor ..)
  | ialuNot x => exact .of_kept (kept_execIaluNot ..)
  | ialuShl x => exact .of_kept (kept_execIaluShl ..)
  | ialuShr x => exact .of_kept (kept_execIaluShr ..)
  | ialuOnes x => exact .of_kept (kept_execIaluOnes ..)
  | ialuLzc x => exact .of_kept (kept_execIaluLzc ..)
  | ialuXbit x => exact .of_kept (kept_execIaluXbit ..)
  | cmpf x => exact .of_kept (kept_execCmpf ..)
  | sel x => exact .of_kept (kept_execSel ..)
  | flog x => exact .of_kept (kept_execFlog ..)
  | cvt x => exact .of_kept (kept_execCvt ..)
  | rcp x => exact .of_kept (kept_execRcp ..)
  | rsq x => exact .of_kept (kept_execRsq ..)
  | sqrt x => exact .of_kept (kept_execSqrt ..)
  | ex2 x => exact .of_kept (kept_execEx2 ..)
  | lg2 x => exact .of_kept (kept_execLg2 ..)
  | sin x => exact .of_kept (kept_execSin ..)
  | cos x => exact .of_kept (kept_execCos ..)
  | perm x => exact .of_kept (kept_execPerm ..)
  | tally x => exact .of_kept (kept_execTally ..)
  | fold x => exact .of_kept (kept_execFold ..)
  | mma x => exact .of_kept (kept_execMma ..)
  | mmaX x => exact .of_kept (kept_execMmaX ..)
  | mmaP x => exact .of_kept (kept_execMmaP ..)
  | ocvt x => exact .of_kept (kept_execOcvt ..)
  | unpk x => exact .of_kept (kept_execUnpk ..)
  | gmemLoad x => exact .of_kept (kept_execGmemLoad ..)
  | gmemStore x => exact .of_kept (kept_execGmemStore ..)
  | smemLoad x => exact .of_kept (kept_execSmemLoad ..)
  | smemStore x => exact .of_kept (kept_execSmemStore ..)
  | atomAdd x => exact .of_kept (kept_execAtomAdd ..)
  | atomMin x => exact .of_kept (kept_execAtomMin ..)
  | atomMax x => exact .of_kept (kept_execAtomMax ..)
  | atomAnd x => exact .of_kept (kept_execAtomAnd ..)
  | atomOr x => exact .of_kept (kept_execAtomOr ..)
  | atomXor x => exact .of_kept (kept_execAtomXor ..)
  | atomExch x => exact .of_kept (kept_execAtomExch ..)
  | atomCas x => exact .of_kept (kept_execAtomCas ..)
  | waitb x => exact .of_kept (kept_execWaitb ..)
  | markb x => exact .of_kept (kept_execMarkb ..)
  | barrierDeadlock core block => exact .of_kept (kept_execBarrierDeadlock ..)
  | fence x => exact .of_kept (kept_execFence ..)
  | bra x => exact .of_kept (kept_execBra ..)
  | split x => exact .of_kept (kept_execSplit ..)
  | join x => exact .of_kept (kept_execJoin ..)
  | call x => exact .of_kept (kept_execCall ..)
  | ret x => exact .of_kept (kept_execRet ..)
  | exit x => exact .of_kept (kept_execExit ..)
  | trap x => exact .of_kept (kept_execTrap ..)
  | yield x => exact .of_kept (kept_execYield ..)
  | yieldExpire core slot => exact .of_kept (kept_execYieldExpire ..)
  | jvec x => exact .of_kept (kept_execJvec ..)
  | movs x => exact .of_kept (kept_execMovs ..)
  | pcvH2d x => exact .of_kept (kept_execPcvH2d ..)
  | pcvD2h x => exact .of_kept (kept_execPcvD2h ..)
  | gld x e => exact .of_kept (kept_execGld ..)
  | gst x => exact .of_kept (kept_execGst ..)
  | cwait x => exact .of_kept (kept_execCwait ..)
  | crel x => exact .of_kept (kept_execCrel ..)
  | cpost x => exact .of_kept (kept_execCpost ..)
  | cqry x => exact .of_kept (kept_execCqry ..)
  | loadResponse core slot op e => exact .of_kept (kept_execLoadResponse ..)
  | storeAck core slot op => exact .of_kept (kept_execStoreAck ..)
  | walkReadResponse walk r => exact .of_kept (kept_execWalkReadResponse ..)
  | tongsNop k rt cmd => exact .of_kept (kept_execTongsNop ..)
  | tongsSeta k rt cmd => exact .of_kept (kept_execTongsSeta ..)
  | tongsAdda k rt cmd => exact .of_kept (kept_execTongsAdda ..)
  | tongsAddr k rt cmd => exact .of_kept (kept_execTongsAddr ..)
  | tongsLoop k rt cmd => exact .of_kept (kept_execTongsLoop ..)
  | tongsEndl k rt cmd => exact .of_kept (kept_execTongsEndl ..)
  | tongsFill k rt cmd => exact .of_kept (kept_execTongsFill ..)
  | tongsDrain k rt cmd => exact .of_kept (kept_execTongsDrain ..)
  | tongsGload k rt cmd => exact .of_kept (kept_execTongsGload ..)
  | tongsGstore k rt cmd => exact .of_kept (kept_execTongsGstore ..)
  | tongsFence k rt cmd => exact .of_kept (kept_execTongsFence ..)
  | tongsEnd k rt cmd => exact .of_kept (kept_execTongsEnd ..)
  | tongsCopyComplete k rt id => exact .of_kept (kept_execTongsCopyComplete ..)
  | grdRegionWrite k v => exact .of_kept (kept_execGrdRegionWrite ..)
  | grdRegionApply k => exact .of_kept (kept_execGrdRegionApply ..)
  | ladlePost e => exact .of_kept (kept_execLadlePost ..)
  | ladleDrain => exact .of_kept (kept_execLadleDrain ..)
  | l2FlushAll v => exact .of_kept (kept_execL2FlushAll ..)
  | l2FlushInvalAll v => exact .of_kept (kept_execL2FlushInvalAll ..)
  | l2FlushRange v => exact .of_kept (kept_execL2FlushRange ..)
  | l2FlushInvalRange v => exact .of_kept (kept_execL2FlushInvalRange ..)
  | l2InvalRange v => exact .of_kept (kept_execL2InvalRange ..)
  | l2ZeroRange v => exact .of_kept (kept_execL2ZeroRange ..)
  | l2MaintComplete => exact .of_kept (kept_execL2MaintComplete ..)
  | l2cWaymaskWrite c v => exact .of_kept (kept_execL2cWaymaskWrite ..)
  | cpyCopy v => exact .of_kept (kept_execCpyCopy ..)
  | cpyFill v => exact .of_kept (kept_execCpyFill ..)
  | copyComplete ch => exact .of_kept (kept_execCopyComplete ..)
  | copySuspend q => exact .of_kept (kept_execCopySuspend ..)
  | gfxPassBegin p => exact .of_kept (kept_execGfxPassBegin ..)
  | gfxState p => exact .of_kept (kept_execGfxState ..)
  | gfxDraw p => exact .of_kept (kept_execGfxDraw ..)
  | gfxDrawIndirect p => exact .of_kept (kept_execGfxDrawIndirect ..)
  | gfxPassEnd p => exact .of_kept (kept_execGfxPassEnd ..)
  | tileStore k tile e => exact .of_kept (kept_execTileStore ..)
  | passComplete => exact .of_kept (kept_execPassComplete ..)
  | gfxTrackClaim p => exact .of_kept (kept_execGfxTrackClaim ..)
  | gfxTrackInvalidate p => exact .of_kept (kept_execGfxTrackInvalidate ..)
  | gfxTrackRelease p => exact .of_kept (kept_execGfxTrackRelease ..)
  | gfxSignSurface p => exact .of_kept (kept_execGfxSignSurface ..)
  | gfxResolveFlags p => exact .of_kept (kept_execGfxResolveFlags ..)
  | blockPlace core => exact .of_kept (kept_execBlockPlace ..)
  | preemptAnswer k => exact .of_kept (kept_execPreemptAnswer ..)
  | slicePreempt q => exact .of_kept (kept_execSlicePreempt ..)
  | modeSwitchToGraphics => exact .of_kept (kept_execModeSwitchToGraphics ..)
  | modeSwitchComplete k => exact .of_kept (kept_execModeSwitchComplete ..)
  | gfxIdleReturn k => exact .of_kept (kept_execGfxIdleReturn ..)
  | reserveWindowStart => exact .of_kept (kept_execReserveWindowStart ..)
  | runLimitExpired q => exact .of_kept (kept_execRunLimitExpired ..)
  | hangDetected k => exact .of_kept (kept_execHangDetected ..)
  | quenchComplete => exact .of_kept (kept_execQuenchComplete ..)
  | errQuench v => exact .of_kept (kept_execErrQuench ..)
  | layoutEnable n v => exact .of_kept (kept_execLayoutEnable ..)
  | layoutDisable n v => exact .of_kept (kept_execLayoutDisable ..)
  | apertureEnable v => exact .of_kept (kept_execApertureEnable ..)
  | tlbInvalRange p => exact .of_kept (kept_execTlbInvalRange ..)
  | tlbInvalContext p => exact .of_kept (kept_execTlbInvalContext ..)
  | mmuInvalRequest v => exact .of_kept (kept_execMmuInvalRequest ..)
  | withdrawalComplete packet => exact .of_kept (kept_execWithdrawalComplete ..)
  | prefetchRange p => exact .of_kept (kept_execPrefetchRange ..)
  | adviseLocation p => exact .of_kept (kept_execAdviseLocation ..)
  | adviseSetReadMostly p => exact .of_kept (kept_execAdviseSetReadMostly ..)
  | adviseClearReadMostly p => exact .of_kept (kept_execAdviseClearReadMostly ..)
  | adviseAccessedBy p => exact .of_kept (kept_execAdviseAccessedBy ..)
  | adviseRemove p => exact .of_kept (kept_execAdviseRemove ..)
  | bar2Read off n => exact .of_kept (kept_execBar2Read ..)
  | bar2Write off bytes => exact .of_kept (kept_execBar2Write ..)
  | hostReadCompletion id r => exact .of_kept (kept_execHostReadCompletion ..)
  | hostReadTimeout id => exact .of_kept (kept_execHostReadTimeout ..)
  | msixHoldoffExpire vec => exact .of_kept (kept_execMsixHoldoffExpire ..)
  | msixUnmask vec => exact .of_kept (kept_execMsixUnmask ..)
  | mailboxWrite m from_ w => exact .of_kept (kept_execMailboxWrite ..)
  | mailboxRead m by_ => exact .of_kept (kept_execMailboxRead ..)
  | linkDown => exact .of_kept (kept_execLinkDown ..)
  | linkRecovery => exact .of_kept (kept_execLinkRecovery ..)
  | perstAssert => exact .of_kept (kept_execPerstAssert ..)
  | linkL2Entry => exact .of_kept (kept_execLinkL2Entry ..)
  | i2cAddressMatch a => exact .of_kept (kept_execI2cAddressMatch ..)
  | ident r => exact .of_kept (kept_execIdent ..)
  | status r => exact .of_kept (kept_execStatus ..)
  | powerReq r => exact .of_kept (kept_execPowerReq ..)
  | msgPut r => exact .of_kept (kept_execMsgPut ..)
  | msgGet r => exact .of_kept (kept_execMsgGet ..)
  | regRead r => exact .of_kept (kept_execRegRead ..)
  | i2cSclTimeout => exact .of_kept (kept_execI2cSclTimeout ..)
  | rmpAdd v => exact .of_kept (kept_execRmpAdd ..)
  | rmpRemove v => exact .of_kept (kept_execRmpRemove ..)
  | mapCommit v => exact .of_kept (kept_execMapCommit ..)
  | scrubVisit upsets => exact .of_kept (kept_execScrubVisit ..)
  | mr4Poll ch rate beyond => exact .of_kept (kept_execMr4Poll ..)
  | zqCalibration => exact .of_kept (kept_execZqCalibration ..)
  | dramPowerDown ch => exact .of_kept (kept_execDramPowerDown ..)
  | powerOnReset sramOk sfdp => exact .of_kept (kept_execPowerOnReset ..)
  | railsReady dropped => exact .of_kept (kept_execRailsReady ..)
  | railsTimeout => exact .of_kept (kept_execRailsTimeout ..)
  | trainingComplete fails verified => exact grows_execTrainingComplete ..
  | dramSelftestComplete lines => exact grows_execDramSelftestComplete ..
  | onchipTestComplete r => exact grows_execOnchipTestComplete ..
  | warmReset => exact .of_kept (kept_execWarmReset ..)
  | glbRst v => exact .of_kept (kept_execGlbRst ..)
  | sysrst => exact .of_kept (kept_execSysrst ..)
  | flashRead v => exact .of_kept (kept_execFlashRead ..)
  | flashProgram v => exact .of_kept (kept_execFlashProgram ..)
  | flashErase4k v => exact .of_kept (kept_execFlashErase4k ..)
  | flashErase64k v => exact .of_kept (kept_execFlashErase64k ..)
  | flashOpComplete failed => exact .of_kept (kept_execFlashOpComplete ..)
  | a1Entry => exact .of_kept (kept_execA1Entry ..)
  | powerRequest v => exact .of_kept (kept_execPowerRequest ..)
  | powerRequestCancel v => exact .of_kept (kept_execPowerRequestCancel ..)
  | powerLinkTimeout => exact .of_kept (kept_execPowerLinkTimeout ..)
  | entryStepComplete => exact .of_kept (kept_execEntryStepComplete ..)
  | wakeEvent source => exact .of_kept (kept_execWakeEvent ..)
  | perstDeassert => exact .of_kept (kept_execPerstDeassert ..)
  | alarmExpire => exact .of_kept (kept_execAlarmExpire ..)
  | exitStepReady k => exact grows_execExitStepReady ..
  | exitTimeout rail => exact .of_kept (kept_execExitTimeout ..)
  | pmbusAckPoll word mv busOk => exact .of_kept (kept_execPmbusAckPoll ..)
  | pmbusAlert words => exact .of_kept (kept_execPmbusAlert ..)
  | supplyHandover mv => exact .of_kept (kept_execSupplyHandover ..)
  | supplyReturn mv => exact .of_kept (kept_execSupplyReturn ..)
  | vbakLow mv => exact .of_kept (kept_execVbakLow ..)
  | mainSupplyLoss domain rail => exact .of_kept (kept_execMainSupplyLoss ..)
  | kwsEvaluation score phrase => exact .of_kept (kept_execKwsEvaluation ..)
  | powerEstimate mw board => exact .of_kept (kept_execPowerEstimate ..)
  | thermalSample readings => exact .of_kept (kept_execThermalSample ..)
  | errorRecord r => exact .of_kept (kept_execErrorRecord ..)
  | errRptrWrite v => exact .of_kept (kept_execErrRptrWrite ..)
  | fatalResetTimer => exact .of_kept (kept_execFatalResetTimer ..)
  | debugChallenge p v => exact .of_kept (kept_execDebugChallenge ..)
  | debugOpen p => exact .of_kept (kept_execDebugOpen ..)
  | debugClose p => exact .of_kept (kept_execDebugClose ..)
  | challengeExpire => exact .of_kept (kept_execChallengeExpire ..)
  | otpProgram v => exact grows_execOtpProgram ..
  | otpRead v => exact grows_execOtpRead ..
  | extest pins => exact .of_kept (kept_execExtest ..)
  | idcode => exact .of_kept (kept_execIdcode ..)
  | samplePreload pins preload => exact .of_kept (kept_execSamplePreload ..)
  | dbgreg off read v => exact grows_execDbgreg ..
  | coreDbg core op => exact .of_kept (kept_execCoreDbg ..)
  | bypass => exact .of_kept (kept_execBypass ..)
  | linkTraining gen width atomics => exact .of_kept (kept_execLinkTraining ..)
  | dprLinkTraining rate lanes st => exact .of_kept (kept_execDprLinkTraining ..)
  | dprLinkLoss errors => exact .of_kept (kept_execDprLinkLoss ..)
  | dprHdcpAuthentication type => exact .of_kept (kept_execDprHdcpAuthentication ..)
  | porNLow => exact .of_kept (kept_execPorNLow ..)
  | mainSupplyReturn => exact .of_kept (kept_execMainSupplyReturn ..)
  | bootPartLoaded => exact grows_execBootPartLoaded ..
  | dataSectionsLoaded k => exact grows_execDataSectionsLoaded ..
  | drainSliceExpired k => exact .of_kept (kept_execDrainSliceExpired ..)
  | hearthTimekeepingTick => exact .of_kept (kept_execHearthTimekeepingTick ..)
  | audioFrameSampled in0 in1 => exact .of_kept (kept_execAudioFrameSampled ..)

theorem exec_next_grows {c : Instr} {s t : State} (h : exec c s = .next t) : s.Grows t := by
  have hg := exec_grows c s
  rw [h] at hg
  exact hg

/-- Settles O1: the two clauses are the two branches of `step`. -/
theorem stepRunsFront : Obligations.StepRunsFront := by
  unfold Obligations.StepRunsFront
  refine ⟨fun c rest s => rfl, fun s h => ?_⟩
  simp only [step, h]

/-- Settles O2: no function in a command's meaning writes the queue. -/
theorem queueUntouched : Obligations.QueueUntouched := by
  unfold Obligations.QueueUntouched
  intro c s t h
  exact (exec_next_grows h).1

/-- Settles O3: one-time storage is written by `State.otpCmd` alone, which adds ones to a word. -/
theorem otpNeverCleared : Obligations.OtpNeverCleared := by
  unfold Obligations.OtpNeverCleared
  intro n m s t hm h
  cases hp : s.pending with
  | nil =>
    simp only [step, hp] at h
    cases h
    exact hm
  | cons c rest =>
    simp only [step, hp] at h
    exact (exec_next_grows h).2 n m hm

end Sys2Proof.Machine
end

section
/-! PROOFS. Interrupt messages, mailboxes and the commands of the I²C port (O52): R447, R448, R450, R453 to R457. -/

namespace Sys2Proof.Machine

/-! ## Interrupt messages -/

/-- Whether the hold-off of a vector still runs. -/
def State.heldOff (s : State) (v : Nat) : Prop :=
  ∃ t, Sparse.find s.hif.lastMsg v = some t ∧ s.fld Reg.HIF_CTRL 15 8 ≠ 0 ∧ s.time < t + us (s.fld Reg.HIF_CTRL 15 8)

theorem exec_msixHoldoffExpire_due {s : State} {vec : Fin 64} {due : Nat} (h : Sparse.find s.hif.merged vec.val = some due)
    (ht : due ≤ s.time) :
    let s1 := { s with hif := { s.hif with merged := Sparse.drop s.hif.merged vec.val } }
    exec (.msixHoldoffExpire vec) s = .next (if s.hif.msixEnable = false then s1
      else if s.msixMasked vec.val = true then s1.setFlag (Reg.MSIX_PBA (vec.val / 32)) (vec.val % 32) else s1.msixSend vec.val)
        := by
  intro s1
  change execMsixHoldoffExpire vec s = _
  simp only [execMsixHoldoffExpire, h, if_neg (Nat.not_lt.2 ht), Bool.not_eq_true', apply_ite Host.Outcome.next]
  rfl

theorem exec_msixHoldoffExpire_early {s : State} {vec : Fin 64} {due : Nat} (h : Sparse.find s.hif.merged vec.val = some due)
    (ht : s.time < due) : exec (.msixHoldoffExpire vec) s = .next s := by
  change execMsixHoldoffExpire vec s = _
  simp only [execMsixHoldoffExpire, h, if_pos ht]

theorem exec_msixHoldoffExpire_none {s : State} {vec : Fin 64} (h : Sparse.find s.hif.merged vec.val = none) :
    exec (.msixHoldoffExpire vec) s = .next s := by
  change execMsixHoldoffExpire vec s = _
  simp only [execMsixHoldoffExpire, h]

theorem msixGo_of_not_heldOff {s : State} {v : Nat} (h : ¬s.heldOff v) : s.msixGo v = s.msixSend v := by
  unfold State.msixGo
  cases hl : Sparse.find s.hif.lastMsg v with
  | none => exact if_neg (Nat.not_lt_zero _)
  | some t =>
    refine if_neg fun ht => h ?_
    dsimp only at ht
    split at ht
    · exact absurd ht (Nat.not_lt_zero _)
    · exact ⟨t, hl, ‹_›, ht⟩

theorem msixGo_of_heldOff {s : State} {v t : Nat} (hl : Sparse.find s.hif.lastMsg v = some t) (h : s.heldOff v)
    (hm : Sparse.find s.hif.merged v = none) : s.msixGo v =
      { s with hif := { s.hif with merged := Sparse.put s.hif.merged v (t + us (s.fld Reg.HIF_CTRL 15 8)) } } := by
  obtain ⟨t', hl', hf, ht⟩ := h
  obtain rfl : t' = t := Option.some.inj (hl'.symm.trans hl)
  simp only [State.msixGo, hl, if_neg hf, if_pos ht, Sparse.get, hm]

theorem exec_msixUnmask_on {s : State} {vec : Fin 64} (h : s.uncOn = true) :
    let s1 := s.clearFlag (Reg.MSIX_TABLE (4 * vec.val + 3)) 0
    let pba := Reg.MSIX_PBA (vec.val / 32)
    exec (.msixUnmask vec) s = .next (if s.hif.msixEnable = true ∧ s.hif.funcMask = false ∧ s.flag pba (vec.val % 32) = true
      then (s1.clearFlag pba (vec.val % 32)).msixGo vec.val else s1) := by
  intro s1 pba
  have hpba : s1.flag pba (vec.val % 32) = s.flag pba (vec.val % 32) :=
    State.flag_of_reg (s.reg_clearFlag_ne _ (by simp only [pba, Reg.MSIX_PBA, Reg.MSIX_TABLE]; omega)) _
  have hmask : s1.msixMasked vec.val = s.hif.funcMask := by
    rw [State.msixMasked, s.flag_clearFlag_self _ (by decide), Bool.or_false]
    rfl
  change execMsixUnmask vec s = _
  rw [execMsixUnmask, if_pos h, State.msixUnmasked, hmask, hpba]
  simp only [Bool.and_eq_true, Bool.not_eq_true', and_assoc]
  rfl

/-! ## Mailboxes -/

theorem mbStat_ne_mbData (m n : Nat) : mbData m ≠ mbStat n := by
  simp only [mbData, mbStat, Reg.HIF_MB_DATA_IN, Reg.HIF_MB_STAT]
  omega

theorem mbFull_mbPut (s : State) (m : Nat) (w : Word) : (s.mbPut m w).mbFull m = true := by
  unfold State.mbPut State.mbFull
  split
  · rfl
  split
  · rfl
  · rw [State.flag, State.countWrap, State.fld_setFld_apart _ _ _ (by decide) (by decide) (.inl (by decide))]
    exact State.flag_setFlag_self _ _ (by decide)

theorem mbWord_mbPut (s : State) (m : Nat) (w : Word) : (s.mbPut m w).mbWord m = w := by
  unfold State.mbPut State.mbWord
  split
  · rfl
  split
  · rfl
  · rw [State.countWrap, State.reg_setFld_ne _ _ _ _ (mbStat_ne_mbData m m), State.reg_setFlag_ne _ _ (mbStat_ne_mbData m m),
      State.reg_setReg_self]

theorem mbWord_mbTake (s : State) (m : Nat) : (s.mbTake m).mbWord m = s.mbWord m := by
  unfold State.mbTake State.mbWord
  split
  · rfl
  split
  · rfl
  · exact State.reg_clearFlag_ne _ _ (mbStat_ne_mbData m m)

theorem mbFull_mbTake (s : State) (m : Nat) : (s.mbTake m).mbFull m = false := by
  unfold State.mbTake State.mbFull
  split
  · rfl
  split
  · rfl
  · exact State.flag_clearFlag_self _ _ (by decide)

theorem exec_mailboxWrite_empty {s : State} {m : Fin 10} (w : Word) (h : s.mbFull m.val = false) :
    exec (.mailboxWrite m (mbSender m.val) w) s = .next ((s.mbPut m.val w).mbFilled m.val) := by
  change execMailboxWrite m (mbSender m.val) w s = _
  simp only [execMailboxWrite, if_true, State.mbPost, h, Bool.false_eq_true, if_false]

theorem exec_mailboxWrite_full {s : State} {m : Fin 10} (w : Word) (h : s.mbFull m.val = true) :
    exec (.mailboxWrite m (mbSender m.val) w) s = .next
      ((if s.uncOn = true then s.setFlag Reg.HIF_STATUS 10 else s).rec0 0x0C03 (if m.val = 8 then 0x42 else 0x40) 1 m.val w.toNat)
        := by
  change execMailboxWrite m (mbSender m.val) w s = _
  simp only [execMailboxWrite, if_true, State.mbPost, h]

theorem exec_mailboxRead (s : State) (m : Fin 10) (a : Agent) :
    let s1 := s.emit (.readData (agentPath a) (s.mbWord m.val))
    let t := if a = mbReceiver m.val then s1.mbTake m.val else s1
    exec (.mailboxRead m a) s = .next t
      ∧ t.mbWord m.val = s.mbWord m.val ∧ t.mbFull m.val = (s.mbFull m.val && decide (a ≠ mbReceiver m.val)) := by
  intro s1 t
  refine ⟨rfl, ?_⟩
  by_cases h : a = mbReceiver m.val
  · have ht : t = s1.mbTake m.val := if_pos h
    rw [ht, mbWord_mbTake, mbFull_mbTake, decide_eq_false (not_not.2 h), Bool.and_false]
    exact ⟨rfl, rfl⟩
  · have ht : t = s1 := if_neg h
    rw [ht, decide_eq_true h, Bool.and_true]
    exact ⟨rfl, rfl⟩

/-! ## The I²C port -/

section I2c
variable {s : State} {r : I2cRequest} {cmd count : Nat} {f : List Byte → State → List Byte × State}

theorem i2cRun_idle (h : s.hif.i2cAddressed = false) : s.i2cRun cmd count r f = s := by
  rw [State.i2cRun, h]
  rfl

theorem i2cRun_wrong_pec (h : s.hif.i2cAddressed = true) (hp : r.pecOk = false) :
    s.i2cRun cmd count r f = ((s.emit .i2cNack).rec0 0x0C10 0x42 0 cmd 0).i2cIdle := by
  rw [State.i2cRun, h, hp]
  rfl

theorem i2cRun_wrong_count (h : s.hif.i2cAddressed = true) (hp : r.pecOk = true) (hc : r.bytes.length ≠ count) :
    s.i2cRun cmd count r f = (s.emit (.i2c [2])).i2cIdle := by
  rw [State.i2cRun, h, hp, if_pos hc]
  rfl

theorem i2cRun_answer (h : s.hif.i2cAddressed = true) (hp : r.pecOk = true) (hc : r.bytes.length = count) :
    s.i2cRun cmd count r f = ((f r.bytes s).2.emit (.i2c (f r.bytes s).1)).i2cIdle := by
  rw [State.i2cRun, h, hp, if_neg (not_not.2 hc)]
  rfl

end I2c

/-- Each row of the power request's checks posts a code of its own, none of them 0. -/
theorem map_code_ne_zero {o : Option Nat} {code : Nat} (hc : code ≠ 0) :
    ∀ x, o.map (fun u => (code, u)) = some x → x.1 ≠ 0 := by
  rintro x h
  obtain ⟨u, -, rfl⟩ := Option.map_eq_some_iff.1 h
  exact hc

theorem or_code_ne_zero {o p : Option (Nat × Nat)} (ho : ∀ x, o = some x → x.1 ≠ 0) (hp : ∀ x, p = some x → x.1 ≠ 0) :
    ∀ x, o.or p = some x → x.1 ≠ 0 := by
  rintro x h
  obtain h | ⟨-, h⟩ := Option.or_eq_some_iff.1 h
  · exact ho x h
  · exact hp x h

theorem pwrCode_ne_zero (s : State) (target : Nat) : ∀ x, s.pwrCode target = some x → x.1 ≠ 0 := by
  unfold State.pwrCode
  extract_lets q work others
  iterate 8 refine or_code_ne_zero (map_code_ne_zero (by decide)) ?_
  exact map_code_ne_zero (by decide)

/-- The answer of a power request (R456): status 3 with the code that refuses it. -/
theorem pwrCheck_answer (s : State) (requester target : Nat) :
    (if (s.pwrCheck requester target).1 = 0 then [0, 0] else [3, BitVec.ofNat 8 (s.pwrCheck requester target).1])
      = (s.pwrCode target).elim [0, 0] (fun x => [3, BitVec.ofNat 8 x.1]) := by
  unfold State.pwrCheck
  split
  · rename_i code unit e
    rw [if_neg (pwrCode_ne_zero s _ _ e), e]
    rfl
  · rename_i e
    rw [if_pos rfl, e]
    rfl

theorem exec_powerReq_wake {s : State} {r : I2cRequest} (h : s.hif.i2cAddressed = true) (hp : r.pecOk = true) (hb : r.bytes = [0])
  :
    exec (.powerReq r) s = .next ((s.wake 2).emit (.i2c [0, 0])).i2cIdle := by
  have ht : leNat r.bytes = 0 := by rw [hb]; rfl
  have hl : r.bytes.length = 1 := congrArg List.length hb
  change execPowerReq r s = _
  simp only [execPowerReq, ht, ne_eq, not_true_eq_false, decide_false, Bool.and_false, Bool.false_and, Bool.false_eq_true,
    if_false,
    if_true]
  rw [i2cRun_answer h hp hl]

section Target
variable {s : State} {r : I2cRequest} {b : Byte} (h : s.hif.i2cAddressed = true) (hp : r.pecOk = true) (hb : r.bytes = [b])
  (hb0 : b ≠ 0)
include h hp hb hb0

theorem exec_powerReq_held (hq : s.sched.quench.isSome = true) :
    exec (.powerReq r) s = .next { s with pwr := { s.pwr with heldReqs := s.pwr.heldReqs ++ [(0x42, b.toNat)] } } := by
  have ht : leNat r.bytes = b.toNat := by rw [hb]; rfl
  have hl : r.bytes.length = 1 := congrArg List.length hb
  have h0 : b.toNat ≠ 0 := fun e => hb0 (BitVec.eq_of_toNat_eq e)
  change execPowerReq r s = _
  rw [execPowerReq, if_pos (by rw [h, hp, hl, ht, hq, decide_eq_true h0]; rfl), ht]

theorem exec_powerReq_checked (hq : s.sched.quench = none) :
    exec (.powerReq r) s = .next (((s.pwrCheck 0x42 b.toNat).2.emit
      (.i2c ((s.pwrCode b.toNat).elim [0, 0] (fun x => [3, BitVec.ofNat 8 x.1])))).i2cIdle) := by
  have ht : leNat r.bytes = b.toNat := by rw [hb]; rfl
  have hl : r.bytes.length = 1 := congrArg List.length hb
  have h0 : b.toNat ≠ 0 := fun e => hb0 (BitVec.eq_of_toNat_eq e)
  change execPowerReq r s = _
  simp only [execPowerReq, ht, hq, Option.isSome_none, Bool.and_false, Bool.false_eq_true, if_false]
  rw [i2cRun_answer h hp hl, ← pwrCheck_answer s 0x42]
  simp only [if_neg h0]

end Target

section RegRead
variable {s : State} {r : I2cRequest} (h : s.hif.i2cAddressed = true) (hp : r.pecOk = true) (hb : r.bytes.length = 4)
include h hp hb

theorem exec_regRead_answer (ha : leNat r.bytes / 0x10000 = 0x0D ∨ (leNat r.bytes / 0x10000 ∈ [0x00, 0x0C] ∧ s.uncOn = true)) :
    exec (.regRead r) s = .next (((s.regRead .i2c (leNat r.bytes)).2.emit
      (.i2c (0 :: leBytes 4 (s.regRead .i2c (leNat r.bytes)).1.toNat))).i2cIdle) := by
  change execRegRead r s = _
  have hin : ¬(leNat r.bytes / 0x10000 ≠ 0x00 ∧ leNat r.bytes / 0x10000 ≠ 0x0C ∧ leNat r.bytes / 0x10000 ≠ 0x0D) := by
    simp only [List.mem_cons, List.not_mem_nil, or_false] at ha
    omega
  have hon : ¬(leNat r.bytes / 0x10000 ≠ 0x0D ∧ (!s.uncOn) = true) := by
    rintro ⟨hd, hu⟩
    obtain ha | ⟨-, ha⟩ := ha
    · exact hd ha
    · rw [ha] at hu
      cases hu
  simp only [execRegRead, i2cRun_answer h hp hb, if_neg hin, if_neg hon]

theorem exec_regRead_off (ha : leNat r.bytes / 0x10000 ∈ [0x00, 0x0C]) (hu : s.uncOn = false) :
    exec (.regRead r) s = .next (s.emit (.i2c [1])).i2cIdle := by
  change execRegRead r s = _
  simp only [List.mem_cons, List.not_mem_nil, or_false] at ha
  have hin : ¬(leNat r.bytes / 0x10000 ≠ 0x00 ∧ leNat r.bytes / 0x10000 ≠ 0x0C ∧ leNat r.bytes / 0x10000 ≠ 0x0D) := by omega
  have hon : leNat r.bytes / 0x10000 ≠ 0x0D ∧ (!s.uncOn) = true := ⟨by omega, by rw [hu]; rfl⟩
  simp only [execRegRead, i2cRun_answer h hp hb, if_neg hin, if_pos hon]

theorem exec_regRead_elsewhere (ha : leNat r.bytes / 0x10000 ∉ [0x00, 0x0C, 0x0D]) :
    exec (.regRead r) s = .next (s.drawNat.2.emit (.i2c [3, BitVec.ofNat 8 s.drawNat.1])).i2cIdle := by
  change execRegRead r s = _
  simp only [List.mem_cons, List.not_mem_nil, or_false, not_or] at ha
  simp only [execRegRead, i2cRun_answer h hp hb, if_pos (show leNat r.bytes / 0x10000 ≠ 0x00 ∧ leNat r.bytes / 0x10000 ≠ 0x0C ∧
    leNat r.bytes / 0x10000 ≠ 0x0D from ha)]

end RegRead

/-- What a command that is one transaction of the port does without an address match, with a wrong PEC, and with a wrong count. -/
theorem i2c_refusals {c : Instr} {r : I2cRequest} {cmd count : Nat} (s : State)
    (hc : ¬(s.hif.i2cAddressed = true ∧ r.pecOk = true ∧ r.bytes.length = count) → ∃ f, exec c s = .next (s.i2cRun cmd count r f))
      :
    (s.hif.i2cAddressed = false → exec c s = .next s)
      ∧ (s.hif.i2cAddressed = true → r.pecOk = false → exec c s = .next ((s.emit .i2cNack).rec0 0x0C10 0x42 0 cmd 0).i2cIdle)
      ∧ (s.hif.i2cAddressed = true → r.pecOk = true → r.bytes.length ≠ count → exec c s = .next (s.emit (.i2c [2])).i2cIdle) := by
  refine ⟨fun h => ?_, fun h hp => ?_, fun h hp hl => ?_⟩
  · obtain ⟨f, hf⟩ := hc fun ⟨ha, _⟩ => Bool.false_ne_true (h.symm.trans ha)
    rw [hf, i2cRun_idle h]
  · obtain ⟨f, hf⟩ := hc fun ⟨_, hk, _⟩ => Bool.false_ne_true (hp.symm.trans hk)
    rw [hf, i2cRun_wrong_pec h hp]
  · obtain ⟨f, hf⟩ := hc fun ⟨_, _, hk⟩ => hl hk
    rw [hf, i2cRun_wrong_count h hp hl]

theorem exec_powerReq_transaction {s : State} {r : I2cRequest}
    (h : ¬(s.hif.i2cAddressed = true ∧ r.pecOk = true ∧ r.bytes.length = 1)) :
    ∃ f, exec (.powerReq r) s = .next (s.i2cRun 3 1 r f) := by
  change ∃ f, execPowerReq r s = _
  rw [execPowerReq, if_neg]
  · exact ⟨_, rfl⟩
  · intro hc
    simp only [Bool.and_eq_true, beq_iff_eq] at hc
    obtain ⟨⟨⟨⟨ha, hp⟩, hl⟩, -⟩, -⟩ := hc
    exact h ⟨ha, hp, hl⟩

/-- Settles O52: each command by the branch of its meaning that the hypotheses choose. -/
theorem messagesAndMailboxes : Obligations.MessagesAndMailboxes := by
  unfold Obligations.MessagesAndMailboxes
  refine ⟨fun s vec => ⟨fun due h => ⟨exec_msixHoldoffExpire_due h, exec_msixHoldoffExpire_early h⟩, exec_msixHoldoffExpire_none,
      msixGo_of_not_heldOff, fun t ht held hm => msixGo_of_heldOff ht held hm⟩,
    fun s vec h => exec_msixUnmask_on h,
    fun s m w => ⟨fun h => ⟨exec_mailboxWrite_empty w h, mbFull_mbPut s m w, mbWord_mbPut s m w⟩, exec_mailboxWrite_full w,
      fun a ha => if_neg ha, fun a => exec_mailboxRead s m a⟩,
    fun s a => ⟨?_, rfl, rfl⟩, fun s r h hp => ⟨fun hb => ?_, fun hb => ?_, fun hb => ?_, fun hb => ?_, fun hb => ?_, fun hb =>
      ?_,
      fun b hb hb0 => ⟨fun hq => ?_, fun hq => ?_⟩⟩, fun s r x hx => ?_⟩
  · change execI2cAddressMatch a s = _
    rw [execI2cAddressMatch, apply_ite Host.Outcome.next]
  · exact congrArg Host.Outcome.next (i2cRun_answer h hp (congrArg List.length hb))
  · exact congrArg Host.Outcome.next (i2cRun_answer h hp (congrArg List.length hb))
  · exact congrArg Host.Outcome.next (i2cRun_answer h hp hb)
  · have hl : r.bytes.length = 0 := congrArg List.length hb
    change execMsgGet r s = _
    rw [execMsgGet, i2cRun_answer h hp hl]
    split
    · rfl
    · rfl
  · exact ⟨exec_regRead_answer h hp hb, exec_regRead_off h hp hb, exec_regRead_elsewhere h hp hb⟩
  · exact exec_powerReq_wake h hp hb
  · rw [exec_powerReq_checked h hp hb hb0 hq]
    cases s.pwrCode b.toNat
    · rfl
    · rfl
  · exact exec_powerReq_held h hp hb hb0 hq
  · simp only [List.mem_cons, List.not_mem_nil, or_false] at hx
    obtain rfl | rfl | rfl | rfl | rfl | rfl := hx
    · exact i2c_refusals s (fun _ => ⟨_, rfl⟩)
    · exact i2c_refusals s (fun _ => ⟨_, rfl⟩)
    · exact i2c_refusals s exec_powerReq_transaction
    · exact i2c_refusals s (fun _ => ⟨_, rfl⟩)
    · exact i2c_refusals s (fun _ => ⟨_, rfl⟩)
    · exact i2c_refusals s (fun _ => ⟨_, rfl⟩)

end Sys2Proof.Machine
end

section
/-! PROOFS. The DRAM controllers (O53): what the upkeep of code words leaves alone, the remap table, the region commit, the patrol
scrub, temperature and power-down (R462, R474 to R482). -/

namespace Sys2Proof.Machine

/-! ## Two-word registers -/

theorem reg64_lt (s : State) (a : Nat) : s.reg64 a < 2 ^ 64 := by
  unfold State.reg64
  omega

theorem reg64_setReg64_self (s : State) (a : Nat) {v : Nat} (h : v < 2 ^ 64) : (s.setReg64 a v).reg64 a = v := by
  unfold State.reg64 State.setReg64
  rw [State.reg_setReg_self, State.reg_setReg_ne _ _ (by omega), State.reg_setReg_self, BitVec.toNat_ofNat, BitVec.toNat_ofNat]
  omega

/-! ## What the upkeep of code words leaves alone -/

/-- The registers of the DRAM controllers that the upkeep of code words does not count in. -/
def dmcFixed (a : Nat) : Prop := 0x0A0000 ≤ a ∧ a < 0x0A0400 ∧ a ≠ Reg.DMC_ECC_COUNT

/-- `t` is `s` after code words have been read, corrected or marked: the L2, the bytes of DRAM, the map and the registers that do
  not
count this are the same. -/
structure Upkeep (s t : State) : Prop where
  l2 : t.l2 = s.l2
  bytes : t.dram.bytes = s.dram.bytes
  map : t.dram.map = s.dram.map
  reg : ∀ a, dmcFixed a → t.reg a = s.reg a

theorem Upkeep.refl (s : State) : Upkeep s s := ⟨rfl, rfl, rfl, fun _ _ => rfl⟩

theorem Upkeep.trans {s t u : State} (h : Upkeep s t) (k : Upkeep t u) : Upkeep s u :=
  ⟨k.l2.trans h.l2, k.bytes.trans h.bytes, k.map.trans h.map, fun a ha => (k.reg a ha).trans (h.reg a ha)⟩

theorem upkeep_ite {s t u : State} {c : Prop} [Decidable c] (ht : Upkeep s t) (hu : Upkeep s u) : Upkeep s (if c then t else u) :=
  by
  split
  · exact ht
  · exact hu

theorem upkeep_foldl {α : Type} {f : State → α → State} (h : ∀ (s : State) a, Upkeep s (f s a)) (l : List α) (s : State) :
    Upkeep s (l.foldl f s) := by
  induction l generalizing s with
  | nil => exact Upkeep.refl s
  | cons a l ih => exact (h s a).trans (ih _)

theorem Upkeep.devByte {s t : State} (h : Upkeep s t) (x : Nat) : t.devByte x = s.devByte x := by
  unfold State.devByte
  rw [h.l2, h.bytes]

theorem Upkeep.nextProt {s t : State} (h : Upkeep s t) (a : Nat) : t.nextProt a = s.nextProt a := by
  unfold State.nextProt
  rw [h.map]

theorem Upkeep.of_reports {s t : State} (h : Reports s t) : Upkeep s t := by
  refine ⟨h.l2, congrArg DramState.bytes h.dram, congrArg DramState.map h.dram, fun a ⟨hlo, hhi, _⟩ => h.reg a ?_⟩
  simp only [reportReg, Bool.or_eq_false_iff, beq_eq_false_iff_ne, Bool.and_eq_false_iff, decide_eq_false_iff_not]
  omega

theorem upkeep_setReg (s : State) {a : Nat} (v : Word) (h : ¬dmcFixed a) : Upkeep s (s.setReg a v) :=
  ⟨rfl, rfl, rfl, fun _ hb => s.reg_setReg_ne v fun e => h (e ▸ hb)⟩

theorem upkeep_setFld (s : State) {a : Nat} (hi lo v : Nat) (h : ¬dmcFixed a) : Upkeep s (s.setFld a hi lo v) :=
  upkeep_setReg s _ h

theorem upkeep_countSat (s : State) {a : Nat} (hi lo n : Nat) (h : ¬dmcFixed a) : Upkeep s (s.countSat a hi lo n) :=
  upkeep_setFld s _ _ _ h

theorem upkeep_setMark (s : State) (n : Nat) (m : CwMark) : Upkeep s (s.setMark n m) := ⟨rfl, rfl, rfl, fun _ _ => rfl⟩

theorem upkeep_rec0 (s : State) (code unit sev lo hi : Nat) : Upkeep s (s.rec0 code unit sev lo hi) := .of_reports (reports_rec0
  ..)

theorem upkeep_count64 (s : State) {a : Nat} (n : Nat) (hlo : ¬dmcFixed a) (hhi : ¬dmcFixed (a + 4)) : Upkeep s (s.count64 a n) :=
  by
  unfold State.count64 State.setReg64
  exact (upkeep_setReg _ _ hlo).trans (upkeep_setReg _ _ hhi)

theorem upkeep_noteInflight (s : State) (ch : Nat) : Upkeep s (s.noteInflight ch) := by
  have hch : ¬dmcFixed (Reg.DMC_CH_INFLIGHT ch) := by
    unfold dmcFixed Reg.DMC_CH_INFLIGHT
    omega
  have hdraw : Upkeep s { s with draws := s.draws + 1 } := ⟨rfl, rfl, rfl, fun _ _ => rfl⟩
  unfold State.noteInflight State.drawNat State.maxFld
  exact hdraw.trans ((upkeep_setFld _ _ _ _ hch).trans (upkeep_setFld _ _ _ _ hch))

theorem upkeep_countBytes (s : State) (a n : Nat) : Upkeep s (s.countBytes a n) := by
  have hdraw : Upkeep s (if s.eccAt a then s.drawNat else (0, s)).2 := by
    split
    · exact ⟨rfl, rfl, rfl, fun _ _ => rfl⟩
    · exact Upkeep.refl s
  have hbytes : ¬dmcFixed (Reg.DMC_CH_BYTES_LO (channelOf a)) ∧ ¬dmcFixed (Reg.DMC_CH_BYTES_LO (channelOf a) + 4) := by
    unfold dmcFixed Reg.DMC_CH_BYTES_LO
    omega
  unfold State.countBytes
  generalize (if s.eccAt a then s.drawNat else (0, s)) = d at hdraw ⊢
  obtain ⟨extra, u⟩ := d
  dsimp only
  refine hdraw.trans (Upkeep.trans ?_ ((upkeep_count64 _ _ hbytes.1 hbytes.2).trans (upkeep_noteInflight ..)))
  exact ⟨rfl, rfl, rfl, fun _ _ => rfl⟩

theorem upkeep_remapCopy (s : State) (line : Nat) : Upkeep s (s.remapCopy line) := by
  unfold State.remapCopy
  refine (upkeep_countBytes ..).trans (upkeep_foldl (fun s i => ?_) _ _)
  extract_lets n m
  refine upkeep_ite (Upkeep.refl s) (upkeep_ite ?_ (upkeep_setMark ..))
  exact (upkeep_setMark ..).trans ((upkeep_countSat _ _ _ _ fun ⟨_, _, h⟩ => h rfl).trans (upkeep_rec0 ..))

theorem upkeep_upset (s : State) (line : Nat) (es : List (Fin 4 × Bool)) : Upkeep s (s.upset line es) :=
  upkeep_foldl (fun _ _ => upkeep_ite (upkeep_setMark ..) (upkeep_setMark ..)) _ s

theorem upkeep_scrubCw (s : State) (n : Nat) : Upkeep s (s.scrubCw n) := by
  have hcorr : ¬dmcFixed (Reg.DMC_CH_CORR (channelOf (n * 32))) := by
    unfold dmcFixed Reg.DMC_CH_CORR
    omega
  have hdone : Upkeep s (((s.setMark n ⟨true, false, false, false⟩).countBytes (n * 32) 32).countSat
      (Reg.DMC_CH_CORR (channelOf (n * 32))) 31 0 1) :=
    (upkeep_setMark ..).trans ((upkeep_countBytes ..).trans (upkeep_countSat _ _ _ _ hcorr))
  have hnote : ∀ (t : State) l, Upkeep t { t with dram := { t.dram with lastScrub := l } } := fun _ _ => ⟨rfl, rfl, rfl, fun _ _
    => rfl⟩
  unfold State.scrubCw
  refine upkeep_ite (Upkeep.refl s) (upkeep_ite (upkeep_rec0 ..) (upkeep_ite (upkeep_ite ?_ hdone) (Upkeep.refl s)))
  exact (hdone.trans (hnote ..)).trans (upkeep_rec0 ..)

/-! ## The remap table (R474, R482) -/

theorem remapLine_of_reg {s t : State} {i : Nat} (hlo : t.reg (Reg.DMC_RMP_LO i) = s.reg (Reg.DMC_RMP_LO i))
    (hhi : t.reg (Reg.DMC_RMP_LO i + 4) = s.reg (Reg.DMC_RMP_LO i + 4)) : t.remapLine i = s.remapLine i := by
  unfold State.remapLine
  rw [State.flag_of_reg hlo, reg64_of_regs hlo hhi]

theorem dmcFixed_rmp {i : Nat} (h : i < 16) : dmcFixed (Reg.DMC_RMP_LO i) ∧ dmcFixed (Reg.DMC_RMP_LO i + 4) := by
  unfold dmcFixed Reg.DMC_RMP_LO Reg.DMC_ECC_COUNT
  omega

theorem Upkeep.remapLine {s t : State} (h : Upkeep s t) {i : Nat} (hi : i < 16) : t.remapLine i = s.remapLine i :=
  remapLine_of_reg (h.reg _ (dmcFixed_rmp hi).1) (h.reg _ (dmcFixed_rmp hi).2)

theorem remapLine_setReg (s : State) {a : Nat} (v : Word) (h : a < 0x0A0140) (i : Nat) : (s.setReg a v).remapLine i = s.remapLine
  i :=
  remapLine_of_reg (s.reg_setReg_ne _ (by unfold Reg.DMC_RMP_LO; omega)) (s.reg_setReg_ne _ (by unfold Reg.DMC_RMP_LO; omega))

theorem remapLine_setFld (s : State) {a : Nat} (hi lo v : Nat) (h : a < 0x0A0140) (i : Nat) :
    (s.setFld a hi lo v).remapLine i = s.remapLine i := remapLine_setReg s _ h i

theorem remapLine_add_self (s : State) (i : Nat) {a : Nat} (ha : a % 128 = 0) (hlt : a < 2 ^ 64) :
    (s.setReg64 (Reg.DMC_RMP_LO i) (a + 1)).remapLine i = some a := by
  have hflag : (s.setReg64 (Reg.DMC_RMP_LO i) (a + 1)).flag (Reg.DMC_RMP_LO i) 0 = true := by
    rw [State.flag_eq_true_iff, State.fld, State.setReg64, State.reg_setReg_ne _ _ (by omega), State.reg_setReg_self,
      BitVec.toNat_ofNat]
    unfold bits
    omega
  unfold State.remapLine
  rw [if_pos hflag, reg64_setReg64_self _ _ (by omega)]
  exact congrArg some (by omega)

theorem remapLine_add_ne (s : State) {i j : Nat} (v : Nat) (h : j ≠ i) :
    (s.setReg64 (Reg.DMC_RMP_LO i) v).remapLine j = s.remapLine j := by
  have hne : ∀ x y, x < 8 → y < 8 → Reg.DMC_RMP_LO j + x ≠ Reg.DMC_RMP_LO i + y := by
    unfold Reg.DMC_RMP_LO
    omega
  unfold State.setReg64
  exact remapLine_of_reg
    ((State.reg_setReg_ne _ _ (hne 0 4 (by decide) (by decide))).trans (State.reg_setReg_ne _ _ (hne 0 0 (by decide) (by
      decide))))
    ((State.reg_setReg_ne _ _ (hne 4 4 (by decide) (by decide))).trans (State.reg_setReg_ne _ _ (hne 4 0 (by decide) (by
      decide))))

theorem remapLine_clear_self (s : State) (i : Nat) : (s.clearFlag (Reg.DMC_RMP_LO i) 0).remapLine i = none := by
  unfold State.remapLine
  rw [State.flag_clearFlag_self _ _ (by decide)]
  rfl

theorem remapLine_clear_ne (s : State) {i j : Nat} (h : j ≠ i) : (s.clearFlag (Reg.DMC_RMP_LO i) 0).remapLine j = s.remapLine j :=
  remapLine_of_reg (State.reg_clearFlag_ne _ _ (by unfold Reg.DMC_RMP_LO; omega))
    (State.reg_clearFlag_ne _ _ (by unfold Reg.DMC_RMP_LO; omega))

theorem remapCode_setReg (s : State) (v : Word) (op entry a : Nat) :
    (s.setReg Reg.DMC_RMP_CMD v).remapCode op entry a = s.remapCode op entry a := by
  have hst : ∀ i, (s.setReg Reg.DMC_RMP_CMD v).flag Reg.DMC_STATUS i = s.flag Reg.DMC_STATUS i :=
    State.flag_of_reg (s.reg_setReg_ne _ (by decide))
  have hline := remapLine_setReg s (a := Reg.DMC_RMP_CMD) v (by decide)
  simp only [State.remapCode, hst, hline]
  rfl

theorem remapCode_lt (s : State) (op entry a : Nat) : s.remapCode op entry a < 256 := by
  unfold State.remapCode
  repeat' split
  all_goals decide

theorem aligned_of_remapCode {s : State} {op entry a : Nat} (h : s.remapCode op entry a = 0) : a % 128 = 0 := by
  unfold State.remapCode at h
  by_contra ha
  rw [if_pos (show _ ∨ _ from .inl ha)] at h
  split at h
  · cases h
  · cases h

/-- A remap command with its OP and ENTRY replaced and its code posted. -/
def State.rmpNoted (s : State) (v : Word) : State :=
  (s.setReg Reg.DMC_RMP_CMD (v &&& 0xF06#32)).setFld Reg.DMC_STATUS 23 16
    (s.remapCode (bits v.toNat 2 1) (bits v.toNat 11 8) (s.reg64 Reg.DMC_RMP_ADDR_LO))

theorem remapLine_rmpNoted (s : State) (v : Word) (i : Nat) : (s.rmpNoted v).remapLine i = s.remapLine i :=
  (remapLine_setFld _ _ _ _ (by decide) i).trans (remapLine_setReg _ _ (by decide) i)

theorem fld_rmpNoted (s : State) (v : Word) : (s.rmpNoted v).fld Reg.DMC_STATUS 23 16
    = s.remapCode (bits v.toNat 2 1) (bits v.toNat 11 8) (s.reg64 Reg.DMC_RMP_ADDR_LO) := by
  rw [State.rmpNoted, State.fld_setFld_self _ _ _ (by decide) (by decide)]
  exact Nat.mod_eq_of_lt (remapCode_lt ..)

theorem rmpCmd_of_go (s : State) {v : Word} (hgo : bit v.toNat 0 = true) :
    s.rmpCmd v = if s.remapCode (bits v.toNat 2 1) (bits v.toNat 11 8) (s.reg64 Reg.DMC_RMP_ADDR_LO) ≠ 0 then s.rmpNoted v
      else State.setFlag (if bits v.toNat 2 1 = 0
        then ((s.rmpNoted v).remapCopy (s.reg64 Reg.DMC_RMP_ADDR_LO)).setReg64 (Reg.DMC_RMP_LO (bits v.toNat 11 8))
          (s.reg64 Reg.DMC_RMP_ADDR_LO + 1)
        else ((s.rmpNoted v).remapCopy ((s.remapLine (bits v.toNat 11 8)).getD (s.reg64 Reg.DMC_RMP_ADDR_LO))).clearFlag
          (Reg.DMC_RMP_LO (bits v.toNat 11 8)) 0) Reg.DMC_STATUS 4 := by
  have haddr : (s.setReg Reg.DMC_RMP_CMD (v &&& 0xF06#32)).reg64 Reg.DMC_RMP_ADDR_LO = s.reg64 Reg.DMC_RMP_ADDR_LO :=
    reg64_of_regs (s.reg_setReg_ne _ (by decide)) (s.reg_setReg_ne _ (by decide))
  unfold State.rmpCmd
  simp only [hgo, Bool.not_true, Bool.false_eq_true, if_false, haddr, remapCode_setReg]
  refine ite_congr rfl (fun _ => rfl) fun _ => ?_
  rw [← remapLine_rmpNoted s v]
  by_cases hop : bits v.toNat 2 1 = 0
  · simp only [if_pos hop]
    rfl
  · simp only [if_neg hop]
    rfl

theorem exec_rmpAdd {s : State} {v : Word} (hon : s.uncRuns = true) (hgo : bit v.toNat 0 = true) (hop : bits v.toNat 2 1 = 0) :
    exec (.rmpAdd v) s = .next (s.rmpCmd v) := by
  change execRmpAdd v s = _
  rw [execRmpAdd, if_pos (by rw [hon, hgo, hop]; rfl)]

theorem exec_rmpRemove {s : State} {v : Word} (hon : s.uncRuns = true) (hgo : bit v.toNat 0 = true) (hop : bits v.toNat 2 1 = 1) :
    exec (.rmpRemove v) s = .next (s.rmpCmd v) := by
  change execRmpRemove v s = _
  rw [execRmpRemove, if_pos (by rw [hon, hgo, hop]; rfl)]

/-- What a completed remap update reads: `t` has the entry written last, `u` the copied line. -/
theorem remapped_reads {s s1 u t : State} {entry : Nat} {line : Option Nat} (hu : Upkeep s1 u)
    (hs : ∀ i, s1.remapLine i = s.remapLine i) (hdata : ∀ x, s1.devByte x = s.devByte x) (hcode : s1.fld Reg.DMC_STATUS 23 16 = 0)
    (hself : t.remapLine entry = line) (hne : ∀ j, j ≠ entry → t.remapLine j = u.remapLine j)
    (hreg : t.reg Reg.DMC_STATUS = u.reg Reg.DMC_STATUS) (hbyte : ∀ x, t.devByte x = u.devByte x) :
    (t.setFlag Reg.DMC_STATUS 4).flag Reg.DMC_STATUS 4 = true ∧ (t.setFlag Reg.DMC_STATUS 4).fld Reg.DMC_STATUS 23 16 = 0
      ∧ (t.setFlag Reg.DMC_STATUS 4).remapLine entry = line
      ∧ (∀ j, j < 16 → j ≠ entry → (t.setFlag Reg.DMC_STATUS 4).remapLine j = s.remapLine j)
      ∧ ∀ x, (t.setFlag Reg.DMC_STATUS 4).devByte x = s.devByte x := by
  have hline : ∀ j, (t.setFlag Reg.DMC_STATUS 4).remapLine j = t.remapLine j := remapLine_setFld t _ _ _ (by decide)
  refine ⟨t.flag_setFlag_self _ (by decide), ?_, (hline _).trans hself, fun j hj hn => ?_, fun x => ?_⟩
  · rw [State.setFlag, State.fld_setFld_apart _ _ _ (by decide) (by decide) (.inr (by decide)), State.fld_of_reg hreg,
      State.fld_of_reg (hu.reg _ (by unfold dmcFixed; decide)), hcode]
  · rw [hline, hne j hn, hu.remapLine hj, hs]
  · exact (hbyte x).trans ((hu.devByte x).trans (hdata x))

theorem devByte_of_mem {s t : State} (h : t.mem = s.mem) (x : Nat) : t.devByte x = s.devByte x := by
  simp only [State.mem, Prod.mk.injEq] at h
  obtain ⟨hbytes, hdirty, -⟩ := h
  unfold State.devByte
  rw [hbytes, hdirty]

theorem mem_setReg64 (s : State) (a v : Nat) : (s.setReg64 a v).mem = s.mem := (mem_setReg ..).trans (mem_setReg ..)

theorem devByte_rmpNoted (s : State) (v : Word) (x : Nat) : (s.rmpNoted v).devByte x = s.devByte x :=
  devByte_of_mem ((mem_setFld ..).trans (mem_setReg ..)) x

theorem rmpEntry_ne_status (i k : Nat) : Reg.DMC_STATUS ≠ Reg.DMC_RMP_LO i + k := by
  unfold Reg.DMC_RMP_LO Reg.DMC_STATUS
  omega

section Remapped
variable {s u : State} {v : Word} (hu : Upkeep (s.rmpNoted v) u)
  (hcode : s.remapCode (bits v.toNat 2 1) (bits v.toNat 11 8) (s.reg64 Reg.DMC_RMP_ADDR_LO) = 0)
include hu hcode

theorem remapAdd_reads :
    let entry := bits v.toNat 11 8
    let a := s.reg64 Reg.DMC_RMP_ADDR_LO
    let t := (u.setReg64 (Reg.DMC_RMP_LO entry) (a + 1)).setFlag Reg.DMC_STATUS 4
    t.flag Reg.DMC_STATUS 4 = true ∧ t.fld Reg.DMC_STATUS 23 16 = 0 ∧ t.remapLine entry = some a
      ∧ (∀ j, j < 16 → j ≠ entry → t.remapLine j = s.remapLine j) ∧ ∀ x, t.devByte x = s.devByte x := by
  intro entry a t
  have hreg : (u.setReg64 (Reg.DMC_RMP_LO entry) (a + 1)).reg Reg.DMC_STATUS = u.reg Reg.DMC_STATUS :=
    (State.reg_setReg_ne _ _ (rmpEntry_ne_status entry 4)).trans (State.reg_setReg_ne _ _ (rmpEntry_ne_status entry 0))
  have hbyte : ∀ x, (u.setReg64 (Reg.DMC_RMP_LO entry) (a + 1)).devByte x = u.devByte x := devByte_of_mem (mem_setReg64 ..)
  exact remapped_reads hu (remapLine_rmpNoted s v) (devByte_rmpNoted s v) ((fld_rmpNoted s v).trans hcode)
    (remapLine_add_self u entry (aligned_of_remapCode hcode) (reg64_lt s _)) (fun j hj => remapLine_add_ne u _ hj) hreg hbyte

theorem remapRemove_reads :
    let entry := bits v.toNat 11 8
    let t := (u.clearFlag (Reg.DMC_RMP_LO entry) 0).setFlag Reg.DMC_STATUS 4
    t.flag Reg.DMC_STATUS 4 = true ∧ t.fld Reg.DMC_STATUS 23 16 = 0 ∧ t.remapLine entry = none
      ∧ (∀ j, j < 16 → j ≠ entry → t.remapLine j = s.remapLine j) ∧ ∀ x, t.devByte x = s.devByte x := by
  intro entry t
  have hbyte : ∀ x, (u.clearFlag (Reg.DMC_RMP_LO entry) 0).devByte x = u.devByte x := devByte_of_mem (mem_setFld ..)
  exact remapped_reads hu (remapLine_rmpNoted s v) (devByte_rmpNoted s v) ((fld_rmpNoted s v).trans hcode)
    (remapLine_clear_self u entry) (fun j hj => remapLine_clear_ne u hj) (u.reg_clearFlag_ne _ (rmpEntry_ne_status entry 0)) hbyte

end Remapped

/-! ## Region commit (R478, R479) -/

theorem pendingMap_setStatus (s : State) (hi lo v : Nat) : (s.setFld Reg.DMC_STATUS hi lo v).pendingMap = s.pendingMap := by
  unfold State.pendingMap
  refine List.map_congr_left fun r _ => ?_
  have hr : (s.setFld Reg.DMC_STATUS hi lo v).reg (Reg.DMC_RGN_CTRL r) = s.reg (Reg.DMC_RGN_CTRL r) :=
    s.reg_setFld_ne _ _ _ (by unfold Reg.DMC_RGN_CTRL Reg.DMC_STATUS; omega)
  rw [State.fld_of_reg hr, State.flag_of_reg hr]

theorem dram_foldl_setReg (l : List Nat) (f : Nat → Nat) (g : Nat → Word) (s : State) :
    (l.foldl (fun s r => s.setReg (f r) (g r)) s).dram = s.dram := by
  induction l generalizing s with
  | nil => rfl
  | cons a l ih => exact ih _

theorem mapApply_map (s : State) (new : List Region) : (s.mapApply new).dram.map = new := by
  unfold State.mapApply
  extract_lets old placed u move pos d t w
  have hw : w.dram = t.dram := dram_foldl_setReg _ Reg.DMC_RGN_BASE _ t
  exact congrArg DramState.map hw

theorem mapApply_usable (s : State) (new : List Region) :
    (s.mapApply new).fld Reg.DMC_USABLE 15 0 = usableBytes new / mib64 % 2 ^ 16 := by
  unfold State.mapApply
  extract_lets old placed u move pos d t w
  have hw : w.dram = t.dram := dram_foldl_setReg _ Reg.DMC_RGN_BASE _ t
  rw [State.fld_setFld_self _ _ _ (by decide) (by decide), State.usable, hw]

theorem exec_mapCommit_locked {s : State} {v : Word} (hon : s.uncRuns = true) (hgo : bit v.toNat 0 = true)
    (h : s.flag Reg.DMC_LOCK 0 = true) : exec (.mapCommit v) s = .next (s.violation 0x40 Reg.DMC_MAP_CMD v.toNat) := by
  change execMapCommit v s = _
  rw [execMapCommit, hon, hgo, h]
  rfl

theorem exec_mapCommit_go {s : State} {v : Word} (hon : s.uncRuns = true) (hgo : bit v.toNat 0 = true)
    (h : s.flag Reg.DMC_LOCK 0 = false) : exec (.mapCommit v) s = .next s.mapGo := by
  change execMapCommit v s = _
  rw [execMapCommit, hon, hgo, h]
  rfl

theorem mapGo_of_passed {s : State} (h : s.mapCode = 0) :
    s.mapGo = ((s.setFld Reg.DMC_STATUS 15 8 0).mapApply s.pendingMap).setFlag Reg.DMC_STATUS 3 := by
  unfold State.mapGo
  simp only [h, ne_eq, not_true_eq_false, if_false, pendingMap_setStatus]

theorem mapGo_of_failed {s : State} (h : s.mapCode ≠ 0) : s.mapGo = s.setFld Reg.DMC_STATUS 15 8 s.mapCode := by
  unfold State.mapGo
  simp only [ne_eq, h, not_false_eq_true, if_true]

theorem wf_setFlag {s : State} (w : Memory.wf s = true) (a i : Nat) : Memory.wf (s.setFlag a i) = true :=
  Memory.wf_of_mem (mem_setFld ..) w

/-! ## Patrol scrub (R476, R477) -/

/-- A visited line: its upsets have arisen, it has been counted, and its code words have been seen to. -/
def State.lineScrubbed (s : State) (a : Nat) (es : List (Fin 4 × Bool)) : State :=
  (List.range 4).foldl (fun s i => s.scrubCw (a / 32 + i)) ((s.upset a es).countBytes a 128)

theorem upkeep_lineScrubbed (s : State) (a : Nat) (es : List (Fin 4 × Bool)) : Upkeep s (s.lineScrubbed a es) :=
  ((upkeep_upset ..).trans (upkeep_countBytes ..)).trans (upkeep_foldl (fun s _ => upkeep_scrubCw s _) _ _)

section Scrub
variable {s : State} (es : List (Fin 4 × Bool)) (hon : s.uncRuns = true)
include hon

theorem exec_scrubVisit_idle (h : ¬(s.flag Reg.DMC_SCRUB_CTRL 0 = true ∧ s.fld Reg.PWR_STATUS 1 0 = 0 ∧ s.fld Reg.DMC_STATUS 1 0 =
  0)) :
    exec (.scrubVisit es) s = .next s := by
  change execScrubVisit es s = _
  rw [execScrubVisit, if_pos]
  simp only [hon, Bool.not_true, Bool.false_or, Bool.or_eq_true, Bool.not_eq_true', decide_eq_true_eq]
  by_contra hc
  simp only [not_or, Bool.not_eq_false, ne_eq, not_not] at hc
  obtain ⟨⟨hc1, hc2⟩, hc3⟩ := hc
  exact h ⟨hc1, hc2, hc3⟩

theorem exec_scrubVisit_line {a low : Nat}
    (h : s.flag Reg.DMC_SCRUB_CTRL 0 = true ∧ s.fld Reg.PWR_STATUS 1 0 = 0 ∧ s.fld Reg.DMC_STATUS 1 0 = 0)
    (ha : s.nextProt (s.reg64 Reg.DMC_SCRUB_POS_LO) = some a) (hlow : s.nextProt 0 = some low) :
    exec (.scrubVisit es) s = .next ((s.nextProt (a + 128)).elim
      (((s.lineScrubbed a es).setReg64 Reg.DMC_SCRUB_POS_LO low).countWrap Reg.DMC_SCRUB_PASSES 31 0 1)
      ((s.lineScrubbed a es).setReg64 Reg.DMC_SCRUB_POS_LO)) := by
  obtain ⟨h1, h2, h3⟩ := h
  change execScrubVisit es s = _
  rw [execScrubVisit, if_neg (by rw [hon, h1, h2, h3]; decide), ha, hlow, ← (upkeep_lineScrubbed s a es).nextProt]
  change Host.Outcome.next (match (s.lineScrubbed a es).nextProt (a + 128) with
    | some b => (s.lineScrubbed a es).setReg64 Reg.DMC_SCRUB_POS_LO b
    | none => ((s.lineScrubbed a es).setReg64 Reg.DMC_SCRUB_POS_LO low).countWrap Reg.DMC_SCRUB_PASSES 31 0 1) = _
  cases (s.lineScrubbed a es).nextProt (a + 128)
  · rfl
  · rfl

end Scrub

theorem exec_scrubVisit_unprotected {s : State} (es : List (Fin 4 × Bool)) (h : s.nextProt 0 = none) : exec (.scrubVisit es) s =
  .next s := by
  change execScrubVisit es s = _
  rw [execScrubVisit, h]
  split
  · rfl
  · split
    · rename_i hlow
      cases hlow
    · rfl

/-! ## Temperature and power-down (R480, R481) -/

theorem exec_mr4Poll {s : State} (ch : Fin 16) (rate : BitVec 5) (beyond : Bool) (hon : s.uncOn = true) :
    let m := Sparse.put s.dram.mr4 ch.val (rate.toNat + (if beyond then 32 else 0))
    let hot := m.any (fun x => 32 ≤ x.2)
    let s1 := { s with dram := { s.dram with mr4 := m } }
    let s2 := ((s1.setFld Reg.DMC_TEMP 4 0 (hottest m).2).setFld Reg.DMC_TEMP 11 8 (hottest m).1).setFld Reg.DMC_TEMP 16 16
      (if hot then 1 else 0)
    exec (.mr4Poll ch rate beyond) s = .next
      (if hot = true ∧ s.flag Reg.DMC_TEMP 16 = false then s2.rec0 0x0D08 0x21 1 ch.val rate.toNat else s2).sopUpdate := by
  intro m hot s1 s2
  change execMr4Poll ch rate beyond s = _
  rw [execMr4Poll, if_neg (by rw [hon]; decide)]
  change Host.Outcome.next (if (hot && !s.flag Reg.DMC_TEMP 16) = true then s2.rec0 0x0D08 0x21 1 ch.val rate.toNat else
    s2).sopUpdate = _
  simp only [Bool.and_eq_true, Bool.not_eq_true']

theorem exec_zqCalibration {s : State} (hon : s.uncOn = true) :
    exec .zqCalibration s = .next { s with dram := { s.dram with lastZq := s.time } } := by
  change execZqCalibration s = _
  rw [execZqCalibration, if_pos hon]

/-- Whether a channel has had no request for 1 µs. -/
def State.quiet (s : State) (ch : Nat) : Prop := ∀ t0, Sparse.find s.dram.lastReq ch = some t0 → t0 + us 1 ≤ s.time

theorem exec_dramPowerDown_quiet {s : State} {ch : Fin 16} (ha1 : s.fld Reg.PWR_STATUS 1 0 = 1) (hq : s.quiet ch.val) :
    exec (.dramPowerDown ch) s = .next { s with dram := { s.dram with powerDown := Sparse.put s.dram.powerDown ch.val true } } :=
      by
  change execDramPowerDown ch s = _
  unfold execDramPowerDown
  refine if_pos ⟨ha1, ?_⟩
  split
  · exact decide_eq_true (hq _ ‹_›)
  · rfl

theorem exec_dramPowerDown_busy {s : State} {ch : Fin 16} (h : s.fld Reg.PWR_STATUS 1 0 ≠ 1 ∨ ¬s.quiet ch.val) :
    exec (.dramPowerDown ch) s = .next s := by
  change execDramPowerDown ch s = _
  unfold execDramPowerDown
  refine if_neg fun ⟨ha1, hq⟩ => h.elim (fun hne => hne ha1) fun hn => hn fun t0 ht => ?_
  rw [ht] at hq
  exact of_decide_eq_true hq

theorem rmpCmd_of_refused {s : State} {v : Word} (hgo : bit v.toNat 0 = true)
    (hcode : s.remapCode (bits v.toNat 2 1) (bits v.toNat 11 8) (s.reg64 Reg.DMC_RMP_ADDR_LO) ≠ 0) : s.rmpCmd v = s.rmpNoted v :=
      by
  rw [rmpCmd_of_go s hgo, if_pos hcode]

theorem rmpCmd_of_add {s : State} {v : Word} (hgo : bit v.toNat 0 = true) (hop : bits v.toNat 2 1 = 0)
    (hcode : s.remapCode (bits v.toNat 2 1) (bits v.toNat 11 8) (s.reg64 Reg.DMC_RMP_ADDR_LO) = 0) :
    s.rmpCmd v = (((s.rmpNoted v).remapCopy (s.reg64 Reg.DMC_RMP_ADDR_LO)).setReg64 (Reg.DMC_RMP_LO (bits v.toNat 11 8))
      (s.reg64 Reg.DMC_RMP_ADDR_LO + 1)).setFlag Reg.DMC_STATUS 4 := by
  rw [rmpCmd_of_go s hgo, if_neg (not_not.2 hcode), if_pos hop]

theorem rmpCmd_of_remove {s : State} {v : Word} (hgo : bit v.toNat 0 = true) (hop : bits v.toNat 2 1 ≠ 0)
    (hcode : s.remapCode (bits v.toNat 2 1) (bits v.toNat 11 8) (s.reg64 Reg.DMC_RMP_ADDR_LO) = 0) :
    s.rmpCmd v = (((s.rmpNoted v).remapCopy ((s.remapLine (bits v.toNat 11 8)).getD (s.reg64 Reg.DMC_RMP_ADDR_LO))).clearFlag
      (Reg.DMC_RMP_LO (bits v.toNat 11 8)) 0).setFlag Reg.DMC_STATUS 4 := by
  rw [rmpCmd_of_go s hgo, if_neg (not_not.2 hcode), if_neg hop]

/-- Settles O53: each command by the branch of its meaning, and what the upkeep of code words leaves alone. -/
theorem dramControllers : Obligations.DramControllers := by
  unfold Obligations.DramControllers
  refine fun s => ⟨fun hon v hgo => ?_,
    fun hon v hgo => ⟨exec_mapCommit_locked hon hgo, fun hl hcode => ⟨?_, ?_, ?_, ?_, fun w => ?_⟩, fun hl hcode => ?_⟩,
    fun es hon => ⟨fun a low hmay ha hlow => ?_, fun h => ?_⟩, exec_mr4Poll, exec_zqCalibration,
    fun ch => ⟨exec_dramPowerDown_quiet, exec_dramPowerDown_busy⟩⟩
  · have hadd : bits v.toNat 2 1 = 0 → exec (.rmpAdd v) s = .next (s.rmpCmd v) := exec_rmpAdd hon hgo
    have hrem : bits v.toNat 2 1 = 1 → exec (.rmpRemove v) s = .next (s.rmpCmd v) := exec_rmpRemove hon hgo
    intro entry a op s1 done bad
    have hrefused : ∀ {n : Nat}, op = n → s.remapCode n entry a ≠ 0 → s.rmpCmd v = s1 ∧ s1.fld Reg.DMC_STATUS 23 16 = s.remapCode
      n entry a
        ∧ ∀ j, j < 16 → s1.remapLine j = s.remapLine j := by
      rintro n rfl hcode
      exact ⟨rmpCmd_of_refused hgo hcode, fld_rmpNoted s v, fun j _ => remapLine_rmpNoted s v j⟩
    refine ⟨fun hop hcode => ?_, fun hop hcode => ?_, fun hop hcode => ?_, fun hop hcode => ?_⟩
    · have hcode' : s.remapCode op entry a = 0 := by rw [hop]; exact hcode
      obtain ⟨h4, hpost, hself, hne, hbyte⟩ := remapAdd_reads (upkeep_remapCopy (s.rmpNoted v) a) hcode'
      exact ⟨(hadd hop).trans (congrArg _ (rmpCmd_of_add hgo hop hcode')), h4, hpost, hself.trans (if_pos hop).symm, hne, hbyte⟩
    · obtain ⟨hrun, hpost, hlines⟩ := hrefused hop hcode
      exact ⟨(hadd hop).trans (congrArg _ hrun), by rw [hop]; exact hpost, hlines⟩
    · have hcode' : s.remapCode op entry a = 0 := by rw [hop]; exact hcode
      have hop0 : op ≠ 0 := by rw [hop]; decide
      obtain ⟨h4, hpost, hself, hne, hbyte⟩ :=
        remapRemove_reads (upkeep_remapCopy (s.rmpNoted v) ((s.remapLine entry).getD a)) hcode'
      exact ⟨(hrem hop).trans (congrArg _ (rmpCmd_of_remove hgo hop0 hcode')), h4, hpost, hself.trans (if_neg hop0).symm, hne,
        hbyte⟩
    · obtain ⟨hrun, hpost, hlines⟩ := hrefused hop hcode
      exact ⟨(hrem hop).trans (congrArg _ hrun), by rw [hop]; exact hpost, hlines⟩
  · exact (exec_mapCommit_go hon hgo hl).trans (congrArg _ (mapGo_of_passed hcode))
  · rw [State.setFlag_dram, mapApply_map]
  · exact State.flag_setFlag_self _ _ (by decide)
  · rw [State.fld_of_reg (State.reg_setFlag_ne _ _ (by decide)), mapApply_usable]
  · exact wf_setFlag (wf_mapApply (Memory.wf_of_mem (mem_setFld ..) w) _) _ _
  · exact (exec_mapCommit_go hon hgo hl).trans (congrArg _ (mapGo_of_failed hcode))
  · rw [exec_scrubVisit_line es hon hmay ha hlow]
    cases s.nextProt (a + 128)
    · rfl
    · rfl
  · exact h.elim (exec_scrubVisit_idle es hon) (exec_scrubVisit_unprotected es)

end Sys2Proof.Machine
end

section
/-! PROOFS. The flash path (O54): the causes of a refusal, and what each operation stores -/

namespace Sys2Proof.Machine

/-! ## Runs of bytes stored, and runs of registers written -/

/-- A run of bytes stored from an address on: inside it the byte of the run, elsewhere what was there. -/
theorem find_merge_run (m : List (Nat × Byte)) (bs : List Byte) (a x k : Nat) :
    Sparse.find (Sparse.merge m ((bs.zipIdx k).map (fun (b, i) => (a + i, b)))) x
      = if a + k ≤ x ∧ x < a + k + bs.length then some (bs.getD (x - (a + k)) 0) else Sparse.find m x := by
  induction bs generalizing m k with
  | nil => exact (if_neg (by simp only [List.length_nil]; omega)).symm
  | cons b t ih =>
    rw [List.zipIdx_cons, List.map_cons, Sparse.merge, ih]
    by_cases hx : x = a + k
    · subst hx
      rw [if_neg (by omega), if_pos (by simp only [List.length_cons]; omega), Sparse.find_put_self, Nat.sub_self,
        List.getD_cons_zero]
    · rw [Sparse.find_put_ne _ _ hx]
      by_cases hin : a + (k + 1) ≤ x ∧ x < a + (k + 1) + t.length
      · rw [if_pos hin, if_pos (by simp only [List.length_cons]; omega), show x - (a + k) = x - (a + (k + 1)) + 1 by omega,
          List.getD_cons_succ]
      · rw [if_neg hin, if_neg (by simp only [List.length_cons]; omega)]

theorem flashAt_flashPut (s : State) (a : Nat) (bs : List Byte) (x : Nat) :
    (s.flashPut a bs).flashAt x = if a ≤ x ∧ x < a + bs.length then bs.getD (x - a) 0 else s.flashAt x := by
  have h := find_merge_run s.boot.flash bs a x 0
  unfold State.flashAt State.flashPut
  dsimp only
  rw [h, Nat.add_zero]
  by_cases hx : a ≤ x ∧ x < a + bs.length
  · rw [if_pos hx, if_pos hx]
  · rw [if_neg hx, if_neg hx]

theorem reg_setRegs_below (s : State) (ws : List Word) {a b : Nat} (h : b < a) : (s.setRegs a ws).reg b = s.reg b := by
  induction ws generalizing s a with
  | nil => rfl
  | cons w t ih =>
    rw [State.setRegs, ih _ (Nat.lt_add_right 4 h), State.reg_setReg_ne _ _ (Nat.ne_of_lt h)]

theorem reg_setRegs (s : State) (ws : List Word) (a : Nat) {i : Nat} (h : i < ws.length) :
    (s.setRegs a ws).reg (a + 4 * i) = ws[i] := by
  induction ws generalizing s a i with
  | nil => exact absurd h (Nat.not_lt_zero i)
  | cons w t ih =>
    rw [State.setRegs]
    cases i with
    | zero => exact (reg_setRegs_below (s.setReg a w) t (b := a) (by omega)).trans (s.reg_setReg_self a w)
    | succ i =>
      rw [show a + 4 * (i + 1) = a + 4 + 4 * i by omega, ih]
      rfl

theorem boot_setRegs (s : State) (a : Nat) (ws : List Word) : (s.setRegs a ws).boot = s.boot := by
  induction ws generalizing s a with
  | nil => rfl
  | cons w t ih => exact ih ..

theorem flashAt_of_flash {s t : State} (h : t.boot.flash = s.boot.flash) (x : Nat) : t.flashAt x = s.flashAt x := by
  unfold State.flashAt
  rw [h]

theorem flashWord_of_flash {s t : State} (h : t.boot.flash = s.boot.flash) (a : Nat) : t.flashWord a = s.flashWord a := by
  unfold State.flashWord State.flashRange
  simp only [flashAt_of_flash h]

/-! ## The path's registers -/

theorem length_leBytes (n v : Nat) : (leBytes n v).length = n := by
  induction n generalizing v with
  | zero => rfl
  | succ n ih => exact congrArg (· + 1) (ih _)

theorem length_flashBuf (s : State) : s.flashBuf.length = 256 := by
  unfold State.flashBuf
  rw [List.length_flatMap]
  simp only [length_leBytes]
  rfl

theorem flashBuf_of_regs {s t : State} (h : ∀ w, t.reg (Reg.CFG_FL_BUF w) = s.reg (Reg.CFG_FL_BUF w)) : t.flashBuf = s.flashBuf :=
  by
  unfold State.flashBuf
  simp only [h]

theorem status_ne_flashBuf (w : Nat) : Reg.CFG_FL_BUF w ≠ Reg.CFG_FL_STATUS := by
  unfold Reg.CFG_FL_BUF Reg.CFG_FL_STATUS
  omega

theorem flashErr_fields (s : State) (cause : Nat) :
    (s.flashErr cause).boot = s.boot ∧ (s.flashErr cause).flag Reg.CFG_FL_STATUS 2 = true
      ∧ (s.flashErr cause).fld Reg.CFG_FL_STATUS 11 8 = cause % 16 := by
  refine ⟨rfl, ?_, State.fld_setFld_self _ _ _ (by decide) (by decide)⟩
  rw [State.flag_eq_true_iff, State.flashErr, State.fld_setFld_apart _ _ _ (by decide) (by decide) (by decide)]
  exact (State.flag_eq_true_iff _ _ _).1 (s.flag_setFlag_self Reg.CFG_FL_STATUS (by decide))

/-! ## A command of the path (R523) -/

theorem flashCause_busy {s : State} (op a : Nat) (h : s.flag Reg.CFG_FL_STATUS 0 = true) : s.flashCause op a = 4 := by
  unfold State.flashCause
  rw [if_pos h]

theorem flashCause_closed {s : State} (op a : Nat) (h : s.flag Reg.CFG_FL_STATUS 0 = false) (ho : s.flashOpen = false) :
    s.flashCause op a = 6 := by
  unfold State.flashCause
  rw [h, ho]
  rfl

theorem flashCause_open {s : State} (op a : Nat) (h : s.flag Reg.CFG_FL_STATUS 0 = false) (ho : s.flashOpen = true) :
    s.flashCause op a = if 3 < op then 5 else if a % flashUnit op ≠ 0 ∨ flashBytes < a + flashUnit op then 1
      else if op ≠ 0 ∧ s.flashProtected a then 2 else 0 := by
  unfold State.flashCause
  rw [h, ho]
  rfl

theorem flashCause_of_regs {s t : State} (op a : Nat) (hst : t.reg Reg.CFG_FL_STATUS = s.reg Reg.CFG_FL_STATUS)
    (hboot : t.reg Reg.GLB_BOOT = s.reg Reg.GLB_BOOT) (hlock : t.reg Reg.CFG_FL_LOCK = s.reg Reg.CFG_FL_LOCK) :
    t.flashCause op a = s.flashCause op a := by
  unfold State.flashCause State.flashOpen State.flashProtected
  simp only [State.flag_of_reg hst, State.flag_of_reg hboot, State.fld_of_reg hboot, State.flag_of_reg hlock]

theorem flashCause_setCmd (s : State) (v : Word) (op a : Nat) : (s.setReg Reg.CFG_FL_CMD v).flashCause op a = s.flashCause op a :=
  flashCause_of_regs op a (s.reg_setReg_ne v (by decide)) (s.reg_setReg_ne v (by decide)) (s.reg_setReg_ne v (by decide))

theorem flashRow_runs {s : State} {v : Word} {op : Nat} (hon : s.uncOn = true) (hgo : bit v.toNat 0 = true) (hop : bits v.toNat 3
  1 = op) :
    s.flashRow v op = .next (s.flashCmd v) := by
  unfold State.flashRow
  rw [hon, hgo, hop, beq_self_eq_true]
  rfl

theorem flashRow_off {s : State} {v : Word} {op : Nat} (h : (s.uncOn = false ∨ bit v.toNat 0 = false) ∨ bits v.toNat 3 1 ≠ op) :
    s.flashRow v op = .next s := by
  unfold State.flashRow
  refine if_neg ?_
  simp only [Bool.and_eq_true, beq_iff_eq]
  rintro ⟨⟨hon, hgo⟩, hop⟩
  rcases h with (h | h) | h
  · exact absurd (hon.symm.trans h) (by decide)
  · exact absurd (hgo.symm.trans h) (by decide)
  · exact h hop

theorem flashCmd_go (s : State) {v : Word} (hgo : bit v.toNat 0 = true) :
    s.flashCmd v =
      let op := bits v.toNat 3 1
      let a := (s.reg Reg.CFG_FL_ADDR).toNat
      let s1 := s.setReg Reg.CFG_FL_CMD (BitVec.ofNat 32 (op * 2))
      if s1.flashCause op a ≠ 0 then s1.flashErr (s1.flashCause op a)
        else { s1.setFlag Reg.CFG_FL_STATUS 0 with boot := { s1.boot with flashOp := some (op, a) } } := by
  have haddr : ∀ w, (s.setReg Reg.CFG_FL_CMD w).reg Reg.CFG_FL_ADDR = s.reg Reg.CFG_FL_ADDR :=
    fun w => s.reg_setReg_ne w (by decide)
  unfold State.flashCmd
  simp only [hgo, haddr]
  rfl

/-! ## The end of an operation (R519) -/

/-- The state in which the end of an operation takes effect: not busy, and no operation under way. -/
def State.flashEnded (s : State) : State := { s.clearFlag Reg.CFG_FL_STATUS 0 with boot := { s.boot with flashOp := none } }

theorem flashAt_flashEnded (s : State) (x : Nat) : s.flashEnded.flashAt x = s.flashAt x := flashAt_of_flash rfl x

theorem flashBuf_flashEnded (s : State) : s.flashEnded.flashBuf = s.flashBuf :=
  flashBuf_of_regs fun w => s.reg_clearFlag_ne _ (status_ne_flashBuf w)

theorem reg_flashPut (s : State) (a : Nat) (bs : List Byte) (b : Nat) : (s.flashPut a bs).reg b = s.reg b := rfl

theorem flashOp_flashPut (s : State) (a : Nat) (bs : List Byte) : (s.flashPut a bs).boot.flashOp = s.boot.flashOp := rfl

theorem flashEffect_status (s : State) (op a : Nat) :
    (s.flashEffect op a).reg Reg.CFG_FL_STATUS = s.reg Reg.CFG_FL_STATUS ∧ (s.flashEffect op a).boot.flashOp = s.boot.flashOp :=
      by
  unfold State.flashEffect
  split
  · exact ⟨reg_setRegs_below _ _ (by decide), congrArg BootState.flashOp (boot_setRegs ..)⟩
  · exact ⟨reg_flashPut .., flashOp_flashPut ..⟩
  · exact ⟨reg_flashPut .., flashOp_flashPut ..⟩

theorem flashEffect_read (s : State) (a : Nat) :
    (∀ x, (s.flashEffect 0 a).flashAt x = s.flashAt x)
      ∧ ∀ w, w < 64 → (s.flashEffect 0 a).reg (Reg.CFG_FL_BUF w) = BitVec.ofNat 32 (s.flashWord (a + 4 * w)) := by
  refine ⟨fun x => flashAt_of_flash (congrArg BootState.flash (boot_setRegs ..)) x, fun w hw => ?_⟩
  have haddr : Reg.CFG_FL_BUF w = Reg.CFG_FL_BUF 0 + 4 * w := by
    unfold Reg.CFG_FL_BUF
    omega
  rw [haddr, State.flashEffect, reg_setRegs _ _ _ (by rw [List.length_map, List.length_range]; exact hw), List.getElem_map,
    List.getElem_range]

theorem flashEffect_program (s : State) (a x : Nat) :
    (s.flashEffect 1 a).flashAt x = if a ≤ x ∧ x < a + 256 then s.flashBuf.getD (x - a) 0 &&& s.flashAt x else s.flashAt x := by
  rw [State.flashEffect, flashAt_flashPut, List.length_map, List.length_zipIdx, length_flashBuf]
  by_cases hx : a ≤ x ∧ x < a + 256
  · have hlt : x - a < s.flashBuf.length := by
      rw [length_flashBuf]
      omega
    rw [if_pos hx, if_pos hx, List.getD_eq_getElem _ _ (by rw [List.length_map, List.length_zipIdx]; exact hlt), List.getElem_map,
      List.getElem_zipIdx, List.getD_eq_getElem _ _ hlt]
    dsimp only
    rw [show a + (0 + (x - a)) = x by omega]
  · rw [if_neg hx, if_neg hx]

theorem flashEffect_erase (s : State) {op : Nat} (h : 2 ≤ op) (a x : Nat) :
    (s.flashEffect op a).flashAt x = if a ≤ x ∧ x < a + flashUnit op then 0xFF else s.flashAt x := by
  have heff : s.flashEffect op a = s.flashPut a (List.replicate (flashUnit op) 0xFF) := by
    unfold State.flashEffect
    split
    · exact absurd h (by decide)
    · exact absurd h (by decide)
    · rfl
  rw [heff, flashAt_flashPut, List.length_replicate]
  by_cases hx : a ≤ x ∧ x < a + flashUnit op
  · rw [if_pos hx, if_pos hx, List.getD_replicate _ (by omega)]
  · rw [if_neg hx, if_neg hx]

/-- Settles O54: the order of the causes of a refusal, and what each operation's end stores. -/
theorem flashPath : Obligations.FlashPath := by
  intro s
  refine ⟨fun v hon hgo => ?_, fun v => ?_, fun op a hop => ?_, fun hop failed => ?_⟩
  · intro op a s1 t
    have hrow : ∀ k, op = k → s.flashRow v k = .next t := fun k hk =>
      (flashRow_runs hon hgo hk).trans (congrArg Host.Outcome.next (flashCmd_go s hgo))
    have hcause : s1.flashCause op a = s.flashCause op a := flashCause_setCmd ..
    rw [hcause]
    refine ⟨hrow 0, hrow 1, hrow 2, hrow 3, flashCause_busy op a, flashCause_closed op a, fun hb ho h3 => ?_, fun hb ho h3 ha =>
      ?_,
      fun hb ho ha hend h3 => ?_⟩
    · rw [flashCause_open op a hb ho, if_pos h3]
    · rw [flashCause_open op a hb ho, if_neg (by omega), if_pos ha]
    · rw [flashCause_open op a hb ho, if_neg (by omega), if_neg (not_or.2 ⟨not_not.2 ha, Nat.not_lt.2 hend⟩)]
      rfl
  · exact ⟨flashRow_off, flashRow_off, flashRow_off, flashRow_off⟩
  · intro s1 t free u
    have hdone : ∀ failed, exec (.flashOpComplete failed) s = if failed = true ∧ op ≠ 0 then .next u else .next t := by
      intro failed
      change execFlashOpComplete failed s = _
      unfold execFlashOpComplete
      rw [hop]
      rfl
    obtain ⟨hst, hnone⟩ := flashEffect_status s1 op a
    have hflag : t.flag Reg.CFG_FL_STATUS 0 = false := by
      rw [State.flag_setFlag_apart _ _ (by decide) (by decide), State.flag_of_reg hst]
      exact s.flag_clearFlag_self _ (by decide)
    have hat : ∀ x, t.flashAt x = (s1.flashEffect op a).flashAt x := flashAt_of_flash rfl
    refine ⟨fun failed hf => ?_, hnone, hflag, State.flag_setFlag_self _ _ (by decide), fun h0 => ?_, fun h1 x => ?_, fun h2 x =>
      ?_,
      fun hne => ?_⟩
    · rw [hdone, if_neg]
      rintro ⟨hfail, hne⟩
      exact hf.elim (fun e => Bool.noConfusion (hfail.symm.trans e)) hne
    · subst h0
      refine ⟨fun x => (hat x).trans ((flashEffect_read s1 a).1 x |>.trans (flashAt_flashEnded s x)), fun w hw => ?_⟩
      refine (State.reg_setFlag_ne _ _ (status_ne_flashBuf w)).trans (((flashEffect_read s1 a).2 w hw).trans ?_)
      rw [flashWord_of_flash (s := s) (t := s1) rfl]
    · subst h1
      rw [hat, flashEffect_program, show s1.flashBuf = s.flashBuf from flashBuf_flashEnded s, show s1.flashAt x = s.flashAt x from
        flashAt_flashEnded s x]
    · rw [hat, flashEffect_erase s1 h2, show s1.flashAt x = s.flashAt x from flashAt_flashEnded s x]
    · obtain ⟨hboot, herr, hcode⟩ := flashErr_fields { free with draws := s.draws + 1 } 3
      refine ⟨?_, congrArg BootState.flashOp hboot, herr, hcode, fun x hx => ?_⟩
      · rw [hdone, if_pos ⟨rfl, hne⟩]
      · refine (flashAt_of_flash (s := free) (congrArg BootState.flash hboot) x).trans ((flashAt_flashPut ..).trans ?_)
        rw [List.length_map, List.length_range, if_neg (by omega)]
        exact flashAt_flashEnded s x
  · change execFlashOpComplete failed s = _
    unfold execFlashOpComplete
    rw [hop]

end Sys2Proof.Machine
end

section
/-! PROOFS. The collector: what its records and messages hold back -/

namespace Sys2Proof.Machine

/-! ## What a record of the collector leaves alone -/

theorem reg_setRegs_above (s : State) (ws : List Word) {a b : Nat} (h : a + 4 * ws.length ≤ b) : (s.setRegs a ws).reg b = s.reg b
  := by
  induction ws generalizing s a with
  | nil => rfl
  | cons w t ih =>
    rw [List.length_cons] at h
    rw [State.setRegs, ih _ (by omega), State.reg_setReg_ne _ _ (by omega)]

theorem err_setRegs (s : State) (a : Nat) (ws : List Word) : (s.setRegs a ws).err = s.err := by
  induction ws generalizing s a with
  | nil => rfl
  | cons w t ih => exact ih ..

theorem reg_countSat_ne (s : State) {a b : Nat} (hi lo n : Nat) (h : b ≠ a) : (s.countSat a hi lo n).reg b = s.reg b :=
  s.reg_setFld_ne _ _ _ h

theorem err_countSat (s : State) (a hi lo n : Nat) : (s.countSat a hi lo n).err = s.err := State.setFld_err ..

theorem err_msixGo (s : State) (vec : Nat) : (s.msixGo vec).err = s.err := by
  simp only [State.msixGo, State.msixSend, State.post, State.emit, apply_ite State.err, ite_self]

theorem err_raiseHif (s : State) (src : Nat) : (s.raiseHif src).err = s.err := by
  simp only [State.raiseHif, State.raiseVec, apply_ite State.err, State.setFlag_err, err_msixGo, ite_self]

theorem err_capture (s : State) (set : Nat) (ws : List Word) : (s.capture set ws).err = s.err := by
  simp only [State.capture, apply_ite State.err, err_setRegs, err_countSat, State.setFlag_err, ite_self]

theorem err_ringWrite (s : State) (ws : List Word) : (s.ringWrite ws).err = s.err := (State.setReg_err ..).trans (err_setRegs ..)

/-- The records held back until the collector is released. -/
def State.heldBack (s : State) : List HeldRecord := s.err.held

theorem heldBack_of_err {s t : State} (h : t.err = s.err) : t.heldBack = s.heldBack := congrArg ErrState.held h

theorem heldBack_ite {s t u : State} {c : Prop} [Decidable c] (ht : t.heldBack = s.heldBack) (hu : u.heldBack = s.heldBack) :
    (if c then t else u).heldBack = s.heldBack := by
  split
  · exact ht
  · exact hu

theorem heldBack_foldl {α : Type} {f : State → α → State} (h : ∀ s a, (f s a).heldBack = s.heldBack) (l : List α) (s : State) :
    (l.foldl f s).heldBack = s.heldBack := by
  induction l generalizing s with
  | nil => rfl
  | cons a l ih => exact (ih _).trans (h s a)

theorem heldBack_dropRecord (s : State) (sev seq : Nat) : (s.dropRecord sev seq).heldBack = s.heldBack := by
  unfold State.dropRecord State.heldBack
  dsimp only
  rw [err_countSat]

theorem heldBack_fatalAction (s : State) (r : ErrRecord) : (s.fatalAction r).heldBack = s.heldBack := by
  unfold State.fatalAction
  split
  · rfl
  · split
    · exact heldBack_of_err (State.setFlag_err ..)
    · split <;> rfl

theorem heldBack_collect (s : State) (r : ErrRecord) (time : Nat) : (s.collect r time).heldBack = s.heldBack := by
  have hcap : ∀ (t : State) (c : Prop) [Decidable c] set ws, (if c then t.capture set ws else t).heldBack = t.heldBack :=
    fun t c _ set ws => heldBack_ite (heldBack_of_err (err_capture ..)) rfl
  have hring : ∀ (t : State) (c : Prop) [Decidable c] ws sev seq,
      (if c then t.ringWrite ws else t.dropRecord sev seq).heldBack = t.heldBack :=
    fun t c _ ws sev seq => heldBack_ite (heldBack_of_err (err_ringWrite ..)) (heldBack_dropRecord ..)
  unfold State.collect
  exact (heldBack_of_err (err_raiseHif ..)).trans ((heldBack_fatalAction ..).trans ((hring ..).trans ((hcap ..).trans
    ((hcap ..).trans (heldBack_of_err (State.setReg_err ..))))))

theorem heldBack_reportDrops (s : State) : s.reportDrops.heldBack = s.heldBack := by
  have hcap : ∀ (t : State) (c : Prop) [Decidable c] set ws, (if c then t.capture set ws else t).heldBack = t.heldBack :=
    fun t c _ set ws => heldBack_ite (heldBack_of_err (err_capture ..)) rfl
  unfold State.reportDrops
  refine heldBack_ite ?_ rfl
  exact (heldBack_of_err (err_raiseHif ..)).trans ((heldBack_of_err (err_ringWrite ..)).trans (hcap ..))

/-- Once the collector is released it holds back nothing. -/
theorem held_collectHeld (s : State) : s.collectHeld.err.held = [] := by
  unfold State.collectHeld
  refine (heldBack_reportDrops _).trans ((heldBack_foldl (fun s sev => ?_) _ _).trans (heldBack_foldl (fun s r => ?_) _ _))
  · exact (heldBack_of_err (err_raiseHif ..)).trans ((heldBack_dropRecord ..).trans (heldBack_of_err (State.setReg_err ..)))
  · exact heldBack_collect ..

end Sys2Proof.Machine
end

section
/-! PROOFS. The log: what reports and clamp entries leave alone -/

namespace Sys2Proof.Machine

theorem regs_msixGo (s : State) (vec : Nat) : (s.msixGo vec).regs = s.regs := by
  simp only [State.msixGo, State.msixSend, State.post, State.emit, apply_ite State.regs, ite_self]

theorem reg_of_regs {s t : State} (h : t.regs = s.regs) (a : Nat) : t.reg a = s.reg a := by
  unfold State.reg
  rw [h]

theorem reg_ite {s t u : State} {a : Nat} {c : Prop} [Decidable c] (ht : t.reg a = s.reg a) (hu : u.reg a = s.reg a) :
    (if c then t else u).reg a = s.reg a := by
  split
  · exact ht
  · exact hu

theorem reg_foldl {α : Type} {f : State → α → State} {r : Nat} (h : ∀ s a, (f s a).reg r = s.reg r) (l : List α) (s : State) :
    (l.foldl f s).reg r = s.reg r := by
  induction l generalizing s with
  | nil => rfl
  | cons a l ih => exact (ih _).trans (h s a)

/-- An interrupt message changes no register of the ERR block. -/
theorem reg_raiseHif (s : State) (src : Nat) {a : Nat} (h : 0x0C0000 ≤ a) : (s.raiseHif src).reg a = s.reg a := by
  unfold State.raiseHif State.raiseVec
  refine reg_ite (reg_ite rfl (reg_ite ?_ (reg_of_regs (regs_msixGo ..) a))) rfl
  have hlt : s.fld Reg.HIF_VEC (8 * src + 5) (8 * src) < 64 := by
    have hn : 8 * src + 5 + 1 - 8 * src = 6 := by omega
    exact lt_of_lt_of_eq (fld_lt s Reg.HIF_VEC (8 * src + 5) (8 * src)) (by rw [hn]; rfl)
  refine State.reg_setFlag_ne _ _ ?_
  unfold Reg.MSIX_PBA
  omega

/-- A capture writes the status and its own eight words. -/
theorem reg_capture (s : State) (set : Nat) {ws : List Word} (hw : ws.length = 8) {a : Nat} (hs : a ≠ Reg.ERR_STATUS)
    (hset : if set = 0 then a < Reg.ERR_FIRST 0 ∨ Reg.ERR_FIRST 8 ≤ a else a < Reg.ERR_FATAL 0 ∨ Reg.ERR_FATAL 8 ≤ a) :
    (s.capture set ws).reg a = s.reg a := by
  have hout : ∀ (t : State) b, a < b ∨ b + 32 ≤ a → (t.setRegs b ws).reg a = t.reg a := by
    intro t b h
    rcases h with h | h
    · exact reg_setRegs_below t ws h
    · exact reg_setRegs_above t ws (by omega)
  unfold State.capture
  refine reg_ite (reg_countSat_ne _ _ _ _ hs) ((hout _ _ ?_).trans (State.reg_setFlag_ne _ _ hs))
  split at hset
  · rw [if_pos ‹_›]
    exact hset
  · rw [if_neg ‹_›]
    exact hset

theorem reg_setErr (s : State) (e : ErrState) (a : Nat) : ({ s with err := e } : State).reg a = s.reg a := rfl

theorem reg_dropRecord (s : State) (sev seq : Nat) {a : Nat} (h : a ≠ Reg.ERR_OVF) : (s.dropRecord sev seq).reg a = s.reg a := by
  unfold State.dropRecord
  dsimp only
  exact (reg_setErr ..).trans (reg_countSat_ne s _ _ _ h)

/-- The ring takes a record at its write pointer, which moves on. -/
theorem reg_ringWrite (s : State) (ws : List Word) {a : Nat} (hp : a ≠ Reg.ERR_RING_WPTR) (h : a < Reg.ERR_REC 0) :
    (s.ringWrite ws).reg a = s.reg a := by
  unfold State.ringWrite
  refine (State.reg_setReg_ne _ _ hp).trans (reg_setRegs_below _ _ (Nat.lt_of_lt_of_le h ?_))
  unfold Reg.ERR_REC
  omega

theorem fatalAction_of_sev {r : ErrRecord} (s : State) (h : r.sev ≠ 3) : s.fatalAction r = s := if_pos (Or.inl h)

/-! ## Reports and clamp entries -/

/-- The registers of the log: those of reports and the clamp report. -/
def logReg (a : Nat) : Bool := reportReg a || a == Reg.CFG_STATUS || (decide (0x131000 ≤ a) && decide (a < 0x131800))

/-- The registers that hold a captured fatal record. -/
def fatalReg (a : Nat) : Prop := Reg.ERR_FATAL 0 ≤ a ∧ a < Reg.ERR_FATAL 8

theorem fatalReg_reg {a : Nat} (h : fatalReg a) : a ≠ Reg.ERR_STATUS ∧ a ≠ Reg.ERR_SEQ ∧ a ≠ Reg.ERR_OVF ∧ a ≠ Reg.ERR_RING_WPTR
    ∧ a < Reg.ERR_REC 0 ∧ Reg.ERR_FIRST 8 ≤ a ∧ 0x0C0000 ≤ a ∧ a ≠ Reg.CFG_STATUS := by
  unfold fatalReg Reg.ERR_FATAL at h
  unfold Reg.ERR_STATUS Reg.ERR_SEQ Reg.ERR_OVF Reg.ERR_RING_WPTR Reg.ERR_REC Reg.ERR_FIRST Reg.CFG_STATUS
  omega

/-- A record that is not fatal leaves the captured fatal record. -/
theorem fatal_collect {r : ErrRecord} (s : State) (time : Nat) (h : r.sev ≠ 3) {a : Nat} (ha : fatalReg a) :
    (s.collect r time).reg a = s.reg a := by
  obtain ⟨hst, hseq, hovf, hptr, hrec, hfirst, hlo, -⟩ := fatalReg_reg ha
  have hcap : ∀ (t : State) (c : Prop) [Decidable c] seq, (if c then t.capture 0 (recordWords r seq time) else t).reg a = t.reg a
    :=
    fun t c _ seq => reg_ite (reg_capture t 0 rfl hst (Or.inr hfirst)) rfl
  have hring : ∀ (t : State) (c : Prop) [Decidable c] seq,
      (if c then t.ringWrite (recordWords r seq time) else t.dropRecord r.sev seq).reg a = t.reg a :=
    fun t c _ seq => reg_ite (reg_ringWrite t _ hptr hrec) (reg_dropRecord t _ _ hovf)
  unfold State.collect
  dsimp only
  rw [if_neg h, fatalAction_of_sev _ h]
  exact (reg_raiseHif _ _ hlo).trans ((hring ..).trans ((hcap ..).trans (State.reg_setReg_ne _ _ hseq)))

/-- `t` is `s` after reports without a fatal record and after clamp entries. -/
structure Logged (s t : State) : Prop where
  same : ∃ regs err lastMsg merged unsent out, t =
    { s with regs := regs, err := err, hif := { s.hif with lastMsg := lastMsg, merged := merged, unsent := unsent }, out := out }
  reg : ∀ a, logReg a = false → t.reg a = s.reg a
  fatal : ∀ a, fatalReg a → t.reg a = s.reg a

theorem Logged.refl (s : State) : Logged s s := ⟨⟨_, _, _, _, _, _, rfl⟩, fun _ _ => rfl, fun _ _ => rfl⟩

theorem Logged.trans {s t u : State} (h : Logged s t) (k : Logged t u) : Logged s u := by
  obtain ⟨⟨_, _, _, _, _, _, rfl⟩, hr, hf⟩ := h
  obtain ⟨⟨_, _, _, _, _, _, rfl⟩, kr, kf⟩ := k
  exact ⟨⟨_, _, _, _, _, _, rfl⟩, fun a ha => (kr a ha).trans (hr a ha), fun a ha => (kf a ha).trans (hf a ha)⟩

theorem Logged.boot {s t : State} (h : Logged s t) : t.boot = s.boot := by
  obtain ⟨⟨_, _, _, _, _, _, rfl⟩, -, -⟩ := h
  rfl

theorem Logged.pwr {s t : State} (h : Logged s t) : t.pwr = s.pwr := by
  obtain ⟨⟨_, _, _, _, _, _, rfl⟩, -, -⟩ := h
  rfl

theorem logged_ite {s t u : State} {c : Prop} [Decidable c] (ht : Logged s t) (hu : Logged s u) : Logged s (if c then t else u) :=
  by
  split
  · exact ht
  · exact hu

theorem logged_foldl {α : Type} {f : State → α → State} (h : ∀ s a, Logged s (f s a)) (l : List α) (s : State) : Logged s (l.foldl
  f s) := by
  induction l generalizing s with
  | nil => exact .refl s
  | cons a l ih => exact (h s a).trans (ih _)

theorem logged_of_reports {s t : State} (h : Reports s t) (hf : ∀ a, fatalReg a → t.reg a = s.reg a) : Logged s t :=
  ⟨h.same, fun a ha => h.reg a (Bool.or_eq_false_iff.1 (Bool.or_eq_false_iff.1 ha).1).1, hf⟩

theorem logged_rec0 (s : State) (code unit : Nat) {sev : Nat} (lo hi : Nat) (h : sev ≠ 3) : Logged s (s.rec0 code unit sev lo hi)
  := by
  refine logged_of_reports (reports_rec0 ..) fun a ha => ?_
  unfold State.rec0 State.record
  exact reg_ite (fatal_collect (r := ⟨code, unit, sev, none, lo, hi⟩) s s.time h ha) (reg_ite rfl rfl)

theorem logged_setReg (s : State) {a : Nat} (v : Word) (h : logReg a = true) (hf : ¬fatalReg a) : Logged s (s.setReg a v) :=
  ⟨⟨_, _, _, _, _, _, rfl⟩, fun _ hb => s.reg_setReg_ne v fun e => Bool.noConfusion ((e ▸ hb).symm.trans h),
    fun _ hb => s.reg_setReg_ne v fun e => hf (e ▸ hb)⟩

theorem logged_setFld (s : State) {a : Nat} (hi lo v : Nat) (h : logReg a = true) (hf : ¬fatalReg a) : Logged s (s.setFld a hi lo
  v) :=
  logged_setReg s _ h hf

theorem logged_setClamp (s : State) (ws : List Word) {a : Nat} (hlo : 0x131000 ≤ a) (hhi : a + 4 * ws.length ≤ 0x131800) :
    Logged s (s.setRegs a ws) := by
  induction ws generalizing s a with
  | nil => exact .refl s
  | cons w t ih =>
    rw [List.length_cons] at hhi
    refine (logged_setReg s w ?_ ?_).trans (ih _ (by omega) (by omega))
    · simp only [logReg, Bool.or_eq_true, Bool.and_eq_true, decide_eq_true_eq]
      omega
    · unfold fatalReg Reg.ERR_FATAL
      omega

theorem logged_clamp (s : State) (kind sect low idx w1 given used : Nat) : Logged s (s.clamp kind sect low idx w1 given used) :=
  by
  have hstatus : logReg Reg.CFG_STATUS = true ∧ ¬fatalReg Reg.CFG_STATUS := ⟨by decide, fun h => (fatalReg_reg h).2.2.2.2.2.2.2
    rfl⟩
  unfold State.clamp
  by_cases hn : s.fld Reg.CFG_STATUS 7 0 < 128
  · rw [if_pos hn]
    refine (logged_setClamp s _ ?_ ?_).trans (logged_setFld _ _ _ _ hstatus.1 hstatus.2)
    · unfold Reg.CFG_CLAMP
      omega
    · simp only [Reg.CFG_CLAMP, List.length_cons, List.length_nil]
      omega
  · rw [if_neg hn]
    exact logged_ite ((logged_setFld _ _ _ _ hstatus.1 hstatus.2).trans (logged_rec0 _ _ _ _ _ (by decide)))
      (logged_setFld _ _ _ _ hstatus.1 hstatus.2)

end Sys2Proof.Machine
end

section
/-! PROOFS. The commit of a start, and what leaves the state of a start alone -/

namespace Sys2Proof.Machine

/-! ## What leaves the state of a start alone -/

/-- `t` has the records of a start and GLB_BOOT of `s`. -/
structure StartKept (s t : State) : Prop where
  boot : t.boot = s.boot
  reg : t.reg Reg.GLB_BOOT = s.reg Reg.GLB_BOOT

theorem StartKept.refl (s : State) : StartKept s s := ⟨rfl, rfl⟩

theorem StartKept.trans {s t u : State} (h : StartKept s t) (k : StartKept t u) : StartKept s u :=
  ⟨k.boot.trans h.boot, k.reg.trans h.reg⟩

theorem StartKept.of_reads {s t : State} (h : Reads s t) : StartKept s t := by
  refine ⟨?_, h.reg _ (by decide)⟩
  obtain ⟨⟨_, _, _, _, _, _, _, rfl⟩, -⟩ := h
  rfl

theorem StartKept.of_logged {s t : State} (h : Logged s t) : StartKept s t := ⟨h.boot, h.reg _ (by decide)⟩

theorem startKept_setReg (s : State) {a : Nat} (v : Word) (h : Reg.GLB_BOOT ≠ a) : StartKept s (s.setReg a v) :=
  ⟨rfl, s.reg_setReg_ne v h⟩

theorem startKept_setFld (s : State) {a : Nat} (hi lo v : Nat) (h : Reg.GLB_BOOT ≠ a) : StartKept s (s.setFld a hi lo v) :=
  startKept_setReg s _ h

theorem startKept_setFlag (s : State) {a : Nat} (i : Nat) (h : Reg.GLB_BOOT ≠ a) : StartKept s (s.setFlag a i) :=
  startKept_setReg s _ h

theorem startKept_setReg64 (s : State) {a : Nat} (v : Nat) (h : Reg.GLB_BOOT < a) : StartKept s (s.setReg64 a v) := by
  unfold State.setReg64
  exact (startKept_setReg s _ (by omega)).trans (startKept_setReg _ _ (by omega))

theorem startKept_ite {s t u : State} {c : Prop} [Decidable c] (ht : StartKept s t) (hu : StartKept s u) :
    StartKept s (if c then t else u) := by
  split
  · exact ht
  · exact hu

theorem startKept_foldl {α : Type} {f : State → α → State} (h : ∀ s a, StartKept s (f s a)) (l : List α) (s : State) :
    StartKept s (l.foldl f s) := by
  induction l generalizing s with
  | nil => exact .refl s
  | cons a l ih => exact (h s a).trans (ih _)

theorem reads_writeBack (s : State) (line : Nat) : Reads s (s.writeBack line) := by
  have hwrite : ∀ t : State, Reads t ((t.lineCheck line).dramWrite (line * 128) ((t.lineCheck line).wholeLine line)) :=
    fun t => (reads_lineCheck ..).trans (reads_dramWrite ..)
  have hl2 : ∀ {t u : State} (c : L2State), Reads t u → Reads t { u with l2 := c } := fun c h => h.trans (reads_l2 _ c)
  unfold State.writeBack
  refine reads_ite (Reads.refl s) (reads_ite (reads_ite ?_ ?_) (hl2 _ (hwrite s)))
  · exact (hl2 _ (hl2 _ (hwrite s))).trans (reads_foldl_state _ (fun _ _ => reads_setMark ..) _ _)
  · exact (hl2 _ (hl2 _ (hwrite s))).trans ((reads_countSat _ _ _ _ (by decide)).trans (reads_of_reports (reports_rec0 ..)))

theorem reads_flushLines (s : State) (f : Nat → Bool) : Reads s (s.flushLines f) :=
  reads_foldl_state _ (fun _ _ => reads_writeBack ..) _ _

theorem reads_l2Flush (s : State) (a n : Nat) : Reads s (s.l2Do 2 a n) := (reads_flushLines ..).trans (reads_l2 _ _)

theorem startKept_mapApply (s : State) (new : List Region) : StartKept s (s.mapApply new) := by
  have hbase : ∀ (t : State) (l : List Nat) (g : Nat → Word), StartKept t (l.foldl (fun t r => t.setReg (Reg.DMC_RGN_BASE r) (g
    r)) t) :=
    fun t l g => startKept_foldl (fun t r => startKept_setReg t _ (by unfold Reg.GLB_BOOT Reg.DMC_RGN_BASE; omega)) l t
  have hdram : ∀ (t : State) (d : DramState), StartKept t { t with dram := d } := fun t d => .of_reads (reads_dram t d)
  have htail : ∀ (t : State) pos u, StartKept t ((t.setReg64 Reg.DMC_SCRUB_POS_LO pos).setFld Reg.DMC_USABLE 15 0 u) :=
    fun t pos u => (startKept_setReg64 t pos (by decide)).trans (startKept_setFld _ _ _ _ (by decide))
  unfold State.mapApply
  extract_lets old placed s1 move pos d s2 s3
  have h1 : StartKept s s1 := .of_reads (reads_l2Flush ..)
  have h2 : StartKept s1 s2 := hdram s1 _
  have h3 : StartKept s2 s3 := hbase s2 _ _
  exact h1.trans (h2.trans (h3.trans (htail s3 _ _)))

theorem startKept_bootMap (s : State) : StartKept s s.bootMap := by
  have hcode : ∀ code, StartKept s (if code = 0 then s
      else (s.setFld Reg.DMC_STATUS 15 8 code).clamp 8 0 0 0 Reg.DMC_MAP_CMD 0 code) :=
    fun code => startKept_ite (.refl s) ((startKept_setFld s _ _ _ (by decide)).trans (.of_logged (logged_clamp ..)))
  unfold State.bootMap
  extract_lets absent code s1 s2 s3
  have h1 : StartKept s s1 := hcode code
  have h2 : StartKept s1 s2 :=
    startKept_foldl (fun t i => startKept_setReg t _ (by unfold Reg.GLB_BOOT Reg.DMC_RGN_CTRL; omega)) _ s1
  have h3 : StartKept s1 s3 :=
    startKept_ite (h2.trans ((startKept_setFld _ _ _ _ (by decide)).trans (startKept_mapApply ..))) (startKept_mapApply ..)
  exact (h1.trans h3).trans (startKept_setFlag _ _ (by decide))

theorem startKept_bootLock (s : State) : StartKept s s.bootLock := by
  unfold State.bootLock
  exact startKept_ite (.refl s) (startKept_setFlag _ _ (by decide))

theorem startKept_devWrite (s : State) (cls a : Nat) (bs : List (Option Byte)) (noAlloc : Bool) :
    StartKept s (s.devWrite cls a bs noAlloc) := by
  obtain ⟨broken, tagStored, hnote⟩ := dutyNote_cases s a bs
  have hread := StartKept.of_reads (reads_devWrite s cls a bs noAlloc)
  rw [hnote] at hread
  exact ⟨hread.boot, hread.reg⟩

theorem startKept_pwr (s : State) (p : PwrState) : StartKept s { s with pwr := p } := ⟨rfl, rfl⟩

theorem startKept_audioPump (s : State) : StartKept s s.audioPump := by
  unfold State.audioPump
  cases s.pwr.copy with
  | none => exact .refl s
  | some c =>
    refine startKept_ite (.refl s) ?_
    extract_lets first n bs s1 done s2
    have h1 : StartKept s s1 := startKept_ite (.refl s) (startKept_devWrite ..)
    exact h1.trans ((startKept_setReg s1 _ (by decide)).trans (startKept_pwr ..))

theorem startKept_kwsRaise (s : State) (d : Detection) : StartKept s (s.kwsRaise d) := by
  have hbegin : ∀ t : State, StartKept t (t.audioBegin d.start) := by
    intro t
    unfold State.audioBegin
    extract_lets size back first t1
    refine startKept_ite (.refl t) ?_
    exact (startKept_setReg t _ (by decide)).trans ((startKept_pwr ..).trans (startKept_audioPump _))
  unfold State.kwsRaise
  refine startKept_ite (startKept_setFld _ _ _ _ (by decide)) ?_
  exact (startKept_setFlag s _ (by decide)).trans ((startKept_setReg _ _ (by decide)).trans ((startKept_setReg64 _ _ (by
    decide)).trans
    ((startKept_setReg64 _ _ (by decide)).trans ((StartKept.of_reads (reads_of_reports (reports_raiseHif ..))).trans (hbegin
      _)))))

theorem startKept_kwsPump (s : State) : StartKept s s.kwsPump := by
  unfold State.kwsPump
  exact startKept_ite (.refl s) ((startKept_pwr ..).trans (startKept_foldl (fun _ _ => startKept_kwsRaise ..) _ _))

/-- The start that ends well shows STATE running. -/
theorem booted_bootRuns (s : State) : s.bootRuns.booted = true := by
  have hstate : ∀ v, ((s.setFld Reg.GLB_BOOT 1 0 1).setReg Reg.GLB_BOOT_US v).fld Reg.GLB_BOOT 1 0 = 1 := by
    intro v
    rw [State.fld_of_reg (State.reg_setReg_ne _ v (by decide)), State.fld_setFld_self _ _ _ (by decide) (by decide)]
    rfl
  unfold State.bootRuns State.booted
  rw [State.fld_of_reg ((startKept_kwsPump _).trans (startKept_audioPump _)).reg, hstate]
  rfl

/-! ## The order of a start's steps -/

/-- Whether every step of a start but the commit has ended. -/
def State.allEnded (s : State) : Prop :=
  s.starting = true ∧ s.boot.trained = true ∧ s.boot.tested = true ∧ s.boot.loaded = true ∧ (s.boot.selftest = true ∨ s.param
    0x0004 0 = 1)

/-- The start at its commit: the records of the DMC applied, the map in force and locked. -/
def State.bootCommitted (s : State) : State := (((s.setFld Reg.GLB_FWRES 4 0 (s.param 0x0002 4)).applyConfig true
  noSink).bootMap).bootLock

/-- The failing lines of the self-test remapped. -/
def State.bootRemapped (s : State) : State := s.boot.failing.foldl (fun (s : State) a => s.failingLine a) s

theorem bootCommit_waits {s : State} (h : ¬s.allEnded) : s.bootCommit = s := by
  unfold State.bootCommit
  refine if_pos ?_
  rw [Bool.not_eq_true', ← Bool.not_eq_true]
  simp only [Bool.and_eq_true, Bool.or_eq_true, beq_iff_eq]
  rintro ⟨⟨⟨⟨hs, ht⟩, hd⟩, hl⟩, hf⟩
  exact h ⟨hs, ht, hd, hl, hf⟩

theorem bootCommit_all {s : State} (h : s.allEnded) :
    s.bootCommit = let s2 := s.bootCommitted.bootRemapped; if s2.fld Reg.GLB_BOOT 1 0 = 0 then s2.bootRuns else s2 := by
  obtain ⟨hs, ht, hd, hl, hf⟩ := h
  unfold State.bootCommit
  refine if_neg ?_
  simp only [hs, ht, hd, hl, Bool.and_true, Bool.true_and, Bool.not_eq_true', ← Bool.not_eq_true, Bool.or_eq_true, beq_iff_eq,
    not_not]
  exact hf

theorem state_of_starting {s : State} (h : s.starting = true) : s.fld Reg.GLB_BOOT 1 0 = 0 := by
  unfold State.starting at h
  simp only [Bool.and_eq_true, beq_iff_eq] at h
  exact h.1.1.2

theorem bootCommit_booted {s : State} (h : s.allEnded) (hc : s.boot.config = []) (hf : s.boot.failing = []) :
    s.bootCommit.booted = true := by
  have hcfg : (s.setFld Reg.GLB_FWRES 4 0 (s.param 0x0002 4)).applyConfig true noSink = s.setFld Reg.GLB_FWRES 4 0 (s.param 0x0002
    4) := by
    unfold State.applyConfig
    rw [show (s.setFld Reg.GLB_FWRES 4 0 (s.param 0x0002 4)).boot.config = [] from hc]
    rfl
  have hkept : StartKept s s.bootCommitted := by
    unfold State.bootCommitted
    rw [hcfg]
    exact (startKept_setFld s _ _ _ (by decide)).trans ((startKept_bootMap _).trans (startKept_bootLock _))
  have hmap : s.bootCommitted.bootRemapped = s.bootCommitted := by
    unfold State.bootRemapped
    rw [hkept.boot, hf]
    rfl
  rw [bootCommit_all h, hmap]
  dsimp only
  rw [State.fld_of_reg hkept.reg, if_pos (state_of_starting h.1)]
  exact booted_bootRuns _

end Sys2Proof.Machine
end

section
/-! PROOFS. The Hearth phase and the rails of a start -/

namespace Sys2Proof.Machine

/-! ## The Hearth phase (R487, R494) -/

/-- The Hearth's phase begun. -/
def State.hearthBegun (s : State) : State := { s with boot := { s.boot with hearth := true, begun := s.time, kind := 0 } }

/-- The parameters that the Hearth takes into its registers. -/
def State.hearthParams (c : State) : State :=
  let kws := c.param 0x011D (128 * 2 ^ 8 + 200 * 2 ^ 16)
  let a1 := c.param 0x011F (1 + 100 * 2 ^ 8)
  let c1 := ((c.setFld Reg.PWR_VBAK 31 16 (c.param 0x011A 2000)).setFld Reg.PWR_LIMIT 5 0 (c.param 0x011C 40)).setFld
    Reg.PWR_KWS_CTRL 0 0 (bits kws 0 0)
  let c2 := (c1.setFld Reg.PWR_KWS_CTRL 15 8 (bits kws 15 8)).setFld Reg.PWR_KWS_CTRL 24 16 (bits kws 31 16)
  ((c2.setFld Reg.PWR_WAKE 5 3 (c.param 0x011E 7)).setFld Reg.PWR_CTRL 0 0 (bits a1 0 0)).setFld Reg.PWR_CTRL 15 8 (bits a1 15 8)

theorem exec_powerOnReset_again {s : State} (sram f : Bool) (h : s.boot.hearth = true) : exec (.powerOnReset sram f) s = .next s
  := by
  change execPowerOnReset sram f s = _
  exact if_pos h

theorem exec_powerOnReset_first {s : State} (h : s.boot.hearth = false) :
    (∀ f, exec (.powerOnReset false f) s = .next (s.hearthBegun.startStops 3 3))
      ∧ exec (.powerOnReset true false) s = .next (s.hearthBegun.startStops 2 2)
      ∧ exec (.powerOnReset true true) s = .next s.hearthBegun.chooseSlot.hearthParams := by
  have hne : ¬s.boot.hearth = true := by rw [h]; decide
  refine ⟨fun f => ?_, ?_, ?_⟩
  · change execPowerOnReset false f s = _
    exact if_neg hne
  · change execPowerOnReset true false s = _
    exact if_neg hne
  · have hparam : ∀ (t : State) a hi lo v id d, (t.setFld a hi lo v).param id d = t.param id d := fun _ _ _ _ _ _ _ => rfl
    change execPowerOnReset true true s = _
    unfold execPowerOnReset
    rw [if_neg hne]
    dsimp only
    simp only [hparam]
    rfl

theorem hearthParams_fields (c : State) :
    let t := c.hearthParams
    t.boot = c.boot ∧ t.pwr = c.pwr ∧ t.fld Reg.PWR_VBAK 31 16 = c.param 0x011A 2000 % 2 ^ 16
      ∧ t.fld Reg.PWR_LIMIT 5 0 = c.param 0x011C 40 % 2 ^ 6 ∧ t.fld Reg.PWR_WAKE 5 3 = c.param 0x011E 7 % 2 ^ 3
      ∧ t.fld Reg.PWR_CTRL 15 8 = bits (c.param 0x011F (1 + 100 * 2 ^ 8)) 15 8 := by
  have hctrl : ∀ (u : State) x, (u.setFld Reg.PWR_CTRL 15 8 (bits x 15 8)).fld Reg.PWR_CTRL 15 8 = bits x 15 8 := by
    intro u x
    rw [State.fld_setFld_self _ _ _ (by decide) (by decide)]
    exact Nat.mod_eq_of_lt (Nat.mod_lt _ (Nat.two_pow_pos 8))
  refine ⟨by simp only [State.hearthParams, State.setFld_boot], by simp only [State.hearthParams, State.setFld_pwr], ?_, ?_, ?_,
    ?_⟩
  · unfold State.hearthParams
    iterate 7 rw [State.fld_setFld_ne _ _ _ _ _ _ (by decide)]
    exact State.fld_setFld_self _ _ _ (by decide) (by decide)
  · unfold State.hearthParams
    iterate 6 rw [State.fld_setFld_ne _ _ _ _ _ _ (by decide)]
    exact State.fld_setFld_self _ _ _ (by decide) (by decide)
  · unfold State.hearthParams
    iterate 2 rw [State.fld_setFld_ne _ _ _ _ _ _ (by decide)]
    exact State.fld_setFld_self _ _ _ (by decide) (by decide)
  · unfold State.hearthParams
    exact hctrl ..

/-! ## The rails (R487, R536) -/

theorem railTable_of_pwr {s t : State} (h : t.pwr = s.pwr) (l : List Nat) : t.railTable l = s.railTable l := by
  unfold State.railTable State.param
  rw [h]

/-- The known rails that did not answer, each with its clamp entry. -/
def State.railsDropped (s : State) (dead : List Nat) : State :=
  ((List.range 8).filter (fun n => dead.contains n && bits (s.param (0x0110 + n) 0) 18 16 ≠ 0)).foldl
    (fun s n => s.clamp 6 0 0 0 (0x0110 + n) (s.param (0x0110 + n) 0 % 2 ^ 32) 0) s

/-- The main domains released with the rails that answered. -/
def State.railsReleased (s : State) (dead : List Nat) : State :=
  { s with
    uncOn := true, dispOn := true, cluOn := true, boot := { s.boot with rails := true },
    pwr := { s.pwr with railEn := 15, rails := s.railTable dead } }

theorem logged_railsDropped (s : State) (dead : List Nat) : Logged s (s.railsDropped dead) :=
  logged_foldl (fun _ _ => logged_clamp ..) _ s

theorem reports_foldl {α : Type} {f : State → α → State} (h : ∀ s a, Reports s (f s a)) (l : List α) (s : State) :
    Reports s (l.foldl f s) := by
  induction l generalizing s with
  | nil => exact .refl s
  | cons a l ih => exact (h s a).trans (ih _)

theorem reports_emit (s : State) (o : Output) : Reports s (s.emit o) := ⟨⟨_, _, _, _, _, _, rfl⟩, fun _ _ => rfl⟩

theorem reports_raiseRails (s : State) (l : List Rail) : Reports s (s.raiseRails l) := by
  unfold State.raiseRails
  exact reports_ite (.refl s) (reports_foldl (fun _ _ => reports_foldl (fun _ _ => reports_emit ..) _ _) _ s)

theorem Reports.domains {s t : State} (h : Reports s t) :
    t.uncOn = s.uncOn ∧ t.dispOn = s.dispOn ∧ t.cluOn = s.cluOn ∧ t.boot = s.boot ∧ t.pwr = s.pwr := by
  obtain ⟨⟨_, _, _, _, _, _, rfl⟩, -⟩ := h
  exact ⟨rfl, rfl, rfl, rfl, rfl⟩

theorem railsReady_fields (s : State) (dead : List Nat) (l : List Rail) :
    let t := ((s.railsReleased dead).raiseRails l).collectHeld
    t.uncOn = true ∧ t.dispOn = true ∧ t.cluOn = true ∧ t.boot.rails = true ∧ t.err.held = [] ∧ t.pwr.rails = s.railTable dead :=
      by
  intro t
  have hrep : Reports (s.railsReleased dead) t := (reports_raiseRails ..).trans (reports_collectHeld _)
  obtain ⟨hunc, hdisp, hclu, hboot, hpwr⟩ := hrep.domains
  exact ⟨hunc, hdisp, hclu, congrArg BootState.rails hboot, held_collectHeld _, congrArg PwrState.rails hpwr⟩

theorem exec_railsReady_now {s : State} {ds : List (Fin 8)} (hh : s.boot.hearth = true) (hr : s.boot.rails = false)
    (hs : s.fld Reg.GLB_BOOT 1 0 ≠ 3) :
    let dead := ds.map (fun n => n.val)
    exec (.railsReady ds) s
      = .next ((((s.railsDropped dead).railsReleased dead).raiseRails ((s.railsDropped dead).railTable dead)).collectHeld) := by
  intro dead
  change execRailsReady ds s = _
  exact if_neg (by rw [hh, hr, beq_eq_false_iff_ne.2 hs]; decide)

theorem exec_railsReady_else {s : State} {ds : List (Fin 8)}
    (h : s.boot.hearth = false ∨ s.boot.rails = true ∨ s.fld Reg.GLB_BOOT 1 0 = 3) : exec (.railsReady ds) s = .next s := by
  change execRailsReady ds s = _
  refine if_pos ?_
  simp only [Bool.or_eq_true, Bool.not_eq_true', beq_iff_eq, or_assoc]
  exact h

theorem exec_railsTimeout (s : State) :
    exec .railsTimeout s = .next (if s.boot.hearth = true ∧ s.boot.rails = false ∧ s.boot.begun + us 50000 ≤ s.time ∧ s.fld
      Reg.GLB_BOOT 1 0 = 0
      then s.startStops 3 4 else s) := by
  change execRailsTimeout s = _
  unfold execRailsTimeout
  simp only [Bool.and_eq_true, Bool.not_eq_true', decide_eq_true_eq, beq_iff_eq, and_assoc, apply_ite Host.Outcome.next]

end Sys2Proof.Machine
end

section
/-! PROOFS. The start (O55): training, the tests, the parts of the image -/

namespace Sys2Proof.Machine

/-! ## Training and the tests (R496, R505 to R509) -/

/-- DRAM trained at a rate. -/
def State.trainedAt (s : State) (r : Nat) : State :=
  let s1 := (s.setFld Reg.DMC_CFG 2 0 r).setFld Reg.DMC_CFG 31 16 0xFFFF
  { s1 with boot := { s1.boot with trained := true, rate := r } }

theorem exec_trainingComplete_else {s : State} (fails : List (BitVec 16)) (verified : Bool)
    (h : s.starting = false ∨ s.boot.trained = true) : exec (.trainingComplete fails verified) s = .next s := by
  change execTrainingComplete fails verified s = _
  refine if_pos ?_
  simp only [Bool.or_eq_true, Bool.not_eq_true']
  exact h

theorem exec_trainingComplete_now {s : State} (fails : List (BitVec 16)) (verified : Bool) (hs : s.starting = true)
    (ht : s.boot.trained = false) :
    let x := if (s.boot.kind == 1 && verified) = true then (some s.boot.rate, s) else s.trainFrom (s.param 0x0001 0) fails
    exec (.trainingComplete fails verified) s
      = .next (x.1.elim (x.2.startStops 3 5) (fun r => (x.2.trainedAt r).bootCommit)) := by
  change execTrainingComplete fails verified s = _
  have hnow : ¬(!s.starting || s.boot.trained) = true := by rw [hs, ht]; decide
  unfold execTrainingComplete
  rw [if_neg hnow]
  dsimp only
  generalize (if (s.boot.kind == 1 && verified) = true then (some s.boot.rate, s) else s.trainFrom (s.param 0x0001 0) fails) = x
  obtain ⟨o, u⟩ := x
  cases o with
  | none => rfl
  | some r => rfl

theorem mem_insertLine (a : Nat) (l : List Nat) (x : Nat) : x ∈ insertLine a l ↔ x = a ∨ x ∈ l := by
  induction l with
  | nil => exact List.mem_cons
  | cons b t ih =>
    unfold insertLine
    split
    · exact List.mem_cons
    · split
      · next hab => simp only [List.mem_cons, hab, ← or_assoc, or_self]
      · simp only [List.mem_cons, ih]
        exact or_left_comm

/-- The lines that the self-test found failing. -/
def failingLines (lines : List (BitVec 40)) : List Nat := lines.foldl (fun (l : List Nat) a => insertLine (a.toNat / 128 * 128) l)
  []

theorem mem_failingLines (lines : List (BitVec 40)) (x : Nat) : x ∈ failingLines lines ↔ ∃ a ∈ lines, x = a.toNat / 128 * 128 :=
  by
  have hfold : ∀ (ls : List (BitVec 40)) l, x ∈ ls.foldl (fun (l : List Nat) a => insertLine (a.toNat / 128 * 128) l) l
      ↔ (∃ a ∈ ls, x = a.toNat / 128 * 128) ∨ x ∈ l := by
    intro ls
    induction ls with
    | nil => intro l; exact ⟨Or.inr, fun h => h.elim (fun ⟨_, ha, _⟩ => absurd ha List.not_mem_nil) id⟩
    | cons b t ih =>
      intro l
      simp only [List.foldl_cons, ih, mem_insertLine, List.mem_cons, exists_eq_or_imp, or_assoc, or_left_comm]
  exact (hfold lines []).trans (or_iff_left List.not_mem_nil)

/-- Whether the self-test may end now. -/
def State.selftestNow (s : State) : Prop :=
  s.starting = true ∧ s.boot.kind = 0 ∧ s.boot.trained = true ∧ s.boot.selftest = false ∧ s.param 0x0004 0 ≠ 1

theorem exec_dramSelftestComplete (s : State) (lines : List (BitVec 40)) :
    let t := s.setFlag Reg.GLB_BOOT 5
    (s.selftestNow → exec (.dramSelftestComplete lines) s = .next
        ({ t with boot := { t.boot with selftest := true, failing := failingLines lines } }.bootCommit))
      ∧ (¬s.selftestNow → exec (.dramSelftestComplete lines) s = .next s) := by
  intro t
  change (_ → execDramSelftestComplete lines s = _) ∧ (_ → execDramSelftestComplete lines s = _)
  unfold execDramSelftestComplete
  have hiff : (!s.starting || s.boot.kind != 0 || !s.boot.trained || s.boot.selftest || s.param 0x0004 0 == 1) = true ↔
    ¬s.selftestNow := by
    unfold State.selftestNow
    simp only [Bool.or_eq_true, Bool.not_eq_true', bne_iff_ne, beq_iff_eq, not_and_or, Bool.not_eq_true, Bool.not_eq_false,
      or_assoc, ne_eq,
      not_not]
  refine ⟨fun h => ?_, fun h => if_pos (hiff.2 h)⟩
  rw [if_neg (fun hc => hiff.1 hc h)]
  rfl

/-- Whether the on-chip tests may end now. -/
def State.testNow (s : State) : Prop := s.starting = true ∧ s.boot.kind = 0 ∧ s.boot.tested = false

theorem testNow_iff (s : State) : (!s.starting || s.boot.kind != 0 || s.boot.tested) = true ↔ ¬s.testNow := by
  unfold State.testNow
  simp only [Bool.or_eq_true, Bool.not_eq_true', bne_iff_ne, not_and_or, Bool.not_eq_true, Bool.not_eq_false, or_assoc, ne_eq]

/-- What the on-chip tests found, noted. -/
def State.testNoted (s : State) (r : TestResult) : State :=
  let a1 : State := r.repaired.foldl (fun (s : State) u => (s.rec0 0x0E02 0x04 0 u.toNat 0).countRepair) s
  let a2 : State := r.cores.foldl (fun (s : State) k => s.coreFails k.val) a1
  let a3 : State := r.parts.foldl (fun (s : State) k => s.fenceCluster k.val 2) a2
  let s1 : State := r.ways.foldl (fun (s : State) w => s.wayFails (w.1.val, w.2.val)) a3
  { s1 with boot := { s1.boot with tested := true } }

/-- How the start goes on after its tests: the lowest code of the fatal findings, or the commit. -/
def State.testSettled (s2 : State) (r : TestResult) : State :=
  let s3 := (s2.setFld Reg.GLB_REPAIR 11 0 s2.boot.fence).setFld Reg.GLB_REPAIR 15 12 s2.boot.ways.length
  if r.fatal = true then s3.startStops 3 6
  else if (List.range 4).any (fun l => decide (3 ≤ (s2.boot.ways.filter (fun w => w.1 == l)).length)) = true then s3.startStops 3
    7
  else if s2.boot.fence % 4096 = 4095 then s3.startStops 3 9 else s3.bootCommit

theorem exec_onchipTestComplete (s : State) (r : TestResult) :
    (s.testNow → exec (.onchipTestComplete r) s = .next ((s.testNoted r).testSettled r))
      ∧ (¬s.testNow → exec (.onchipTestComplete r) s = .next s) := by
  change (_ → execOnchipTestComplete r s = _) ∧ (_ → execOnchipTestComplete r s = _)
  refine ⟨fun h => ?_, fun h => if_pos ((testNow_iff s).2 h)⟩
  have hsettle : ∀ s2 : State,
      (let s3 := (s2.setFld Reg.GLB_REPAIR 11 0 s2.boot.fence).setFld Reg.GLB_REPAIR 15 12 s2.boot.ways.length
        if r.fatal = true then Host.Outcome.next (s3.startStops 3 6)
        else if (List.range 4).any (fun l => decide (3 ≤ (s2.boot.ways.filter (fun w => w.1 == l)).length)) = true then .next
          (s3.startStops 3 7)
        else if s2.boot.fence % 4096 = 4095 then .next (s3.startStops 3 9) else .next s3.bootCommit : Ans) = .next (s2.testSettled
          r) := by
    intro s2
    unfold State.testSettled
    simp only [apply_ite Host.Outcome.next]
  unfold execOnchipTestComplete
  rw [if_neg (fun hc => (testNow_iff s).1 hc h)]
  exact hsettle _

theorem coreFails_eq (s : State) (k : Nat) :
    s.coreFails k = (if bit s.boot.fence k = true then s
      else if k ∈ s.boot.spares ∨ Config.spareUsed k = true then s.fenceCluster k 1
      else ({ s with boot := { s.boot with spares := k :: s.boot.spares } }).countSat Reg.GLB_REPAIR 23 16 1) := by
  unfold State.coreFails State.countRepair
  simp only [Bool.or_eq_true, List.contains_iff_mem]

theorem fenceCluster_new {s : State} {k : Nat} (cause : Nat) (h : bit s.boot.fence k = false) :
    s.fenceCluster k cause = ({ s with boot := { s.boot with
      fence := s.boot.fence + 2 ^ k, parts := if cause = 2 then s.boot.parts + 2 ^ k else s.boot.parts } }).rec0 0x0E03 (0x10 + k)
        1 k cause :=
  if_neg (by rw [h]; decide)

/-! ## The load of the image's parts (R500, R504) -/

theorem exec_bootPartLoaded_else {s : State} (h : s.starting = false ∨ s.boot.loaded = true) : exec .bootPartLoaded s = .next s :=
  by
  change execBootPartLoaded s = _
  refine if_pos ?_
  simp only [Bool.or_eq_true, Bool.not_eq_true']
  exact h

/-- The sections of the boot part taken. -/
def State.bootPartTaken (s : State) : State :=
  let s1 := { s with boot := { s.boot with config := [], edid := [], ccMem := [] } }
  let s2 := s1.boot.sections.foldl (fun s x => s.takeSection x) s1
  { s2 with boot := { s2.boot with loaded := true } }

theorem exec_bootPartLoaded_now {s : State} (hs : s.starting = true) (hl : s.boot.loaded = false) :
    exec .bootPartLoaded s = .next ((s.badDigest s.boot.slot (fun x => knownType x.type && x.type != 0x30)).elim
      s.bootPartTaken.bootCommit (fun x => s.slotFails x)) := by
  have hnow : ¬(!s.starting || s.boot.loaded) = true := by rw [hs, hl]; decide
  change execBootPartLoaded s = _
  unfold execBootPartLoaded
  rw [if_neg hnow]
  cases s.badDigest s.boot.slot (fun x => knownType x.type && x.type != 0x30) with
  | none => rfl
  | some x => rfl

/-- Whether the DATA sections may be taken now. -/
def State.dataNow (s : State) : Prop := s.uncRuns = true ∧ s.flag Reg.GLB_BOOT 6 = false ∧ s.boot.kind ≠ 2

theorem dataNow_iff (s : State) : (!s.uncRuns || s.flag Reg.GLB_BOOT 6 || s.boot.kind == 2) = true ↔ ¬s.dataNow := by
  unfold State.dataNow
  simp only [Bool.or_eq_true, Bool.not_eq_true', beq_iff_eq, not_and_or, Bool.not_eq_true, Bool.not_eq_false, or_assoc, ne_eq,
    not_not]

theorem exec_dataSectionsLoaded (s : State) (k : SinkInfo) :
    (¬s.dataNow → exec (.dataSectionsLoaded k) s = .next s)
      ∧ (s.dataNow → exec (.dataSectionsLoaded k) s = .next ((s.badDigest s.boot.slot (fun x => x.type == 0x30)).elim
        (((s.boot.sections.filter (fun x => x.type == 0x30)).foldl (fun s x => s.takeData x) s).configured k) (fun x =>
          s.slotFails x))) := by
  change (_ → execDataSectionsLoaded k s = _) ∧ (_ → execDataSectionsLoaded k s = _)
  refine ⟨fun h => if_pos ((dataNow_iff s).2 h), fun h => ?_⟩
  unfold execDataSectionsLoaded
  rw [if_neg (fun hc => (dataNow_iff s).1 hc h)]
  cases s.badDigest s.boot.slot (fun x => x.type == 0x30) with
  | none => rfl
  | some x => rfl

/-- Settles O55: each row of a start has its effect at its time and none at another, and the commit ends in STATE running. -/
theorem startUp : Obligations.StartUp := by
  intro s
  refine ⟨?_, fun ds => ?_, exec_railsTimeout s, fun fails verified => ?_, fun lines => ?_, fun r => ?_, coreFails_eq s,
    fun k cause h => fenceCluster_new cause h, ?_, ?_, fun k => ?_⟩
  · intro s1 c kws a1 c1 c2 t
    refine ⟨fun sram f h => exec_powerOnReset_again sram f h, fun h => ?_⟩
    obtain ⟨hsram, hflash, hrun⟩ := exec_powerOnReset_first h
    exact ⟨hsram, hflash, hrun, hearthParams_fields c⟩
  · intro dead known s1 s2 t
    refine ⟨fun hh hr hs => ?_, exec_railsReady_else⟩
    obtain ⟨hunc, hdisp, hclu, hrails, hheld, htable⟩ := railsReady_fields (s.railsDropped dead) dead ((s.railsDropped
      dead).railTable dead)
    exact ⟨exec_railsReady_now hh hr hs, hunc, hdisp, hclu, hrails, hheld,
      htable.trans (railTable_of_pwr (logged_railsDropped s dead).pwr dead)⟩
  · intro done x
    refine ⟨exec_trainingComplete_else fails verified, fun hs ht => ?_⟩
    have hnow := exec_trainingComplete_now fails verified hs ht
    refine ⟨fun hk hv => ?_, fun hkv => ?_⟩
    · rw [hnow, if_pos (by rw [hk, hv]; rfl)]
      rfl
    · have hfrom : ¬(s.boot.kind == 1 && verified) = true := by
        rw [Bool.and_eq_true, beq_iff_eq, not_and_or, Bool.not_eq_true]
        exact hkv
      rw [hnow, if_neg hfrom]
      refine ⟨fun hx => ?_, fun r hx => ?_⟩
      · rw [show (s.trainFrom (s.param 0x0001 0) fails).1 = none from hx]
        rfl
      · rw [show (s.trainFrom (s.param 0x0001 0) fails).1 = some r from hx]
        rfl
  · intro now s1 f
    exact ⟨(exec_dramSelftestComplete s lines).1, (exec_dramSelftestComplete s lines).2, mem_failingLines lines⟩
  · exact exec_onchipTestComplete s r
  · intro bad
    refine ⟨exec_bootPartLoaded_else, fun hs hl => ⟨fun x hx => ?_, fun hx => ?_⟩⟩
    · rw [exec_bootPartLoaded_now hs hl, show s.badDigest _ _ = some x from hx]
      rfl
    · rw [exec_bootPartLoaded_now hs hl, show s.badDigest _ _ = none from hx]
      rfl
  · exact ⟨bootCommit_waits, bootCommit_all, bootCommit_booted⟩
  · intro bad now
    obtain ⟨helse, hnow⟩ := exec_dataSectionsLoaded s k
    refine ⟨helse, fun x h hx => ?_, fun h hx => ?_⟩
    · rw [hnow h, show s.badDigest _ _ = some x from hx]
      rfl
    · rw [hnow h, show s.badDigest _ _ = none from hx]
      rfl

end Sys2Proof.Machine
end

section
/-! PROOFS. What the choice of a slot and the naming of repairs leave alone -/

namespace Sys2Proof.Machine

/-! ## What the choice of a slot and the naming of repairs leave alone -/

/-- `t` is `s` after records, clamp entries and the choice of a slot: the flash and a captured fatal record are the same. -/
structure Prepared (s t : State) : Prop where
  same : ∃ regs err lastMsg merged unsent out pwr boot, t =
    { s with regs := regs, err := err, hif := { s.hif with lastMsg := lastMsg, merged := merged, unsent := unsent }, out := out,
             pwr := pwr, boot := boot }
  flash : t.boot.flash = s.boot.flash
  fatal : ∀ a, fatalReg a → t.reg a = s.reg a

theorem Prepared.refl (s : State) : Prepared s s := ⟨⟨_, _, _, _, _, _, _, _, rfl⟩, rfl, fun _ _ => rfl⟩

theorem Prepared.trans {s t u : State} (h : Prepared s t) (k : Prepared t u) : Prepared s u := by
  obtain ⟨⟨_, _, _, _, _, _, _, _, rfl⟩, hb, hf⟩ := h
  obtain ⟨⟨_, _, _, _, _, _, _, _, rfl⟩, kb, kf⟩ := k
  exact ⟨⟨_, _, _, _, _, _, _, _, rfl⟩, kb.trans hb, fun a ha => (kf a ha).trans (hf a ha)⟩

theorem Prepared.of_logged {s t : State} (h : Logged s t) : Prepared s t := by
  refine ⟨?_, congrArg BootState.flash h.boot, h.fatal⟩
  obtain ⟨⟨_, _, _, _, _, _, rfl⟩, -, -⟩ := h
  exact ⟨_, _, _, _, _, _, _, _, rfl⟩

theorem prepared_setReg (s : State) {a : Nat} (v : Word) (h : ¬fatalReg a) : Prepared s (s.setReg a v) :=
  ⟨⟨_, _, _, _, _, _, _, _, rfl⟩, rfl, fun _ hb => s.reg_setReg_ne v fun e => h (e ▸ hb)⟩

theorem prepared_setFld (s : State) {a : Nat} (hi lo v : Nat) (h : ¬fatalReg a) : Prepared s (s.setFld a hi lo v) :=
  prepared_setReg s _ h

theorem prepared_pwr (s : State) (p : PwrState) : Prepared s { s with pwr := p } := ⟨⟨_, _, _, _, _, _, _, _, rfl⟩, rfl, fun _ _
  => rfl⟩

theorem prepared_boot (s : State) (b : BootState) (h : b.flash = s.boot.flash) : Prepared s { s with boot := b } :=
  ⟨⟨_, _, _, _, _, _, _, _, rfl⟩, h, fun _ _ => rfl⟩

theorem prepared_clamp (s : State) (kind sect low idx w1 given used : Nat) : Prepared s (s.clamp kind sect low idx w1 given used)
  :=
  .of_logged (logged_clamp ..)

theorem prepared_rec0 (s : State) (code unit : Nat) {sev : Nat} (lo hi : Nat) (h : sev ≠ 3) : Prepared s (s.rec0 code unit sev lo
  hi) :=
  .of_logged (logged_rec0 _ _ _ _ _ h)

theorem prepared_ite {s t u : State} {c : Prop} [Decidable c] (ht : Prepared s t) (hu : Prepared s u) : Prepared s (if c then t
  else u) := by
  split
  · exact ht
  · exact hu

theorem prepared_foldl {α : Type} {f : State → α → State} (h : ∀ s a, Prepared s (f s a)) (l : List α) (s : State) :
    Prepared s (l.foldl f s) := by
  induction l generalizing s with
  | nil => exact .refl s
  | cons a l ih => exact (h s a).trans (ih _)

theorem prepared_foldl_snd {α β : Type} {f : β × State → α → β × State} (h : ∀ x a, Prepared x.2 (f x a).2) (l : List α)
    (x : β × State) : Prepared x.2 (l.foldl f x).2 := by
  induction l generalizing x with
  | nil => exact .refl _
  | cons a l ih => exact (h x a).trans (ih _)

theorem prepared_snd_ite {β : Type} {s : State} {x y : β × State} {c : Prop} [Decidable c] (hx : Prepared s x.2) (hy : Prepared s
  y.2) :
    Prepared s (if c then x else y).2 := by
  split
  · exact hx
  · exact hy

theorem prepared_takeParam (s : State) (sect idx id v : Nat) : Prepared s (s.takeParam sect idx id v) := by
  unfold State.takeParam
  cases paramFields id with
  | none => exact prepared_clamp ..
  | some fs =>
    dsimp only
    refine Prepared.trans ?_ (prepared_pwr _ _)
    refine prepared_snd_ite (Prepared.trans ?_ (prepared_clamp ..)) ?_ <;>
    exact prepared_foldl_snd (fun x f => prepared_snd_ite (.refl _) (prepared_clamp ..)) fs (v, s)

theorem prepared_takeParams (s : State) (base : Nat) (x : Section) (n i : Nat) : Prepared s (s.takeParams base x n i) := by
  induction n generalizing s i with
  | zero => exact .refl s
  | succ n ih =>
    unfold State.takeParams
    dsimp only
    split
    · exact .refl s
    · exact (prepared_takeParam ..).trans (ih ..)
    · exact (prepared_clamp ..).trans (ih ..)

theorem prepared_flowParam (s : State) (base sect : Nat) : Prepared s (s.flowParam base sect) := by
  unfold State.flowParam
  exact prepared_ite (.refl s) ((prepared_clamp ..).trans (prepared_pwr _ _))

theorem prepared_hearthLoad (s : State) (k : Nat) : Prepared s (s.hearthLoad k) := by
  unfold State.hearthLoad
  refine ((prepared_pwr s _).trans (prepared_foldl (fun t x => ?_) _ _)).trans (prepared_flowParam ..)
  exact prepared_ite (prepared_pwr t _) (prepared_ite (prepared_takeParams ..) (.refl t))

theorem prepared_useSlot (s : State) (k : Nat) (load : Bool) : Prepared s (s.useSlot k load) := by
  have hload : Prepared s (if load = true then s.hearthLoad k else s) := prepared_ite (prepared_hearthLoad ..) (.refl s)
  have hglb : ¬fatalReg Reg.GLB_BOOT ∧ ¬fatalReg Reg.GLB_IMAGE_SEQ := by
    unfold fatalReg Reg.ERR_FATAL Reg.GLB_BOOT Reg.GLB_IMAGE_SEQ
    omega
  unfold State.useSlot
  extract_lets b s1 x s2 s3
  have h2 : Prepared s1 s2 := prepared_boot s1 _ rfl
  have h3 : Prepared s2 s3 := (prepared_setFld s2 _ _ _ hglb.1).trans (prepared_setFld _ _ _ _ hglb.1)
  exact (hload.trans (h2.trans h3)).trans (prepared_setReg s3 _ hglb.2)

theorem prepared_startStops (s : State) (st code : Nat) : Prepared s (s.startStops st code) := by
  have hglb : ¬fatalReg Reg.GLB_BOOT ∧ ¬fatalReg Reg.GLB_BOOT_ERR := by
    unfold fatalReg Reg.ERR_FATAL Reg.GLB_BOOT Reg.GLB_BOOT_ERR
    omega
  exact (prepared_setFld s _ _ _ hglb.1).trans (prepared_setFld _ _ _ _ hglb.2)

theorem prepared_chooseSlot (s : State) : Prepared s s.chooseSlot := by
  unfold State.chooseSlot
  split
  · exact prepared_useSlot ..
  · exact (prepared_rec0 _ _ _ _ _ (by decide)).trans (prepared_useSlot ..)
  · exact prepared_startStops ..

theorem prepared_warmSlot (s : State) : Prepared s s.warmSlot := by
  unfold State.warmSlot
  dsimp only
  split
  · exact prepared_chooseSlot s
  · exact prepared_ite (prepared_useSlot ..) (prepared_chooseSlot s)

theorem prepared_repairsAgain (s : State) : Prepared s s.repairsAgain := by
  unfold State.repairsAgain
  exact (prepared_foldl (fun _ _ => prepared_rec0 _ _ _ _ _ (by decide)) _ s).trans
    (prepared_foldl (fun _ _ => prepared_rec0 _ _ _ _ _ (by decide)) _ _)

/-- The collector released without records held back changes no captured fatal record. -/
theorem logged_collectHeld {s : State} (h : s.err.held = []) : Logged s s.collectHeld := by
  refine logged_of_reports (reports_collectHeld s) fun a ha => ?_
  obtain ⟨hst, hseq, hovf, hptr, hrec, hfirst, hlo, -⟩ := fatalReg_reg ha
  have hdrop : ∀ (t : State) sev, (((t.setReg Reg.ERR_SEQ (BitVec.ofNat 32 ((t.reg Reg.ERR_SEQ).toNat + 1))).dropRecord sev
      (t.reg Reg.ERR_SEQ).toNat).raiseHif 1).reg a = t.reg a := fun t sev =>
    (reg_raiseHif _ _ hlo).trans ((reg_dropRecord _ _ _ hovf).trans (State.reg_setReg_ne _ _ hseq))
  have hreport : ∀ t : State, t.reportDrops.reg a = t.reg a := by
    intro t
    have hcap : ∀ (u : State) (c : Prop) [Decidable c] (r : ErrRecord) seq time,
        (if c then u.capture 0 (recordWords r seq time) else u).reg a = u.reg a :=
      fun u c _ r seq time => reg_ite (reg_capture u 0 rfl hst (Or.inr hfirst)) rfl
    unfold State.reportDrops
    refine reg_ite ?_ rfl
    exact (reg_raiseHif _ _ hlo).trans ((reg_ringWrite _ _ hptr hrec).trans ((hcap ..).trans ((reg_setErr ..).trans
      (State.reg_setReg_ne _ _ hseq))))
  unfold State.collectHeld
  rw [h]
  exact (hreport _).trans ((reg_foldl hdrop _ _).trans (reg_setErr ..))

end Sys2Proof.Machine
end

section
/-! PROOFS. A warm reset, step by step -/

namespace Sys2Proof.Machine

/-! ## A warm reset, step by step (R511, R512, R564) -/

theorem setRegs_same (s : State) (a : Nat) (ws : List Word) : ∃ regs, s.setRegs a ws = { s with regs := regs } := by
  induction ws generalizing s a with
  | nil => exact ⟨_, rfl⟩
  | cons w t ih =>
    obtain ⟨regs, h⟩ := ih (s.setReg a w) (a + 4)
    exact ⟨regs, h⟩

/-- A cut flash operation changes the flash and nothing else but the free values drawn. -/
theorem flashCut_same (s : State) : ∃ draws flash, s.flashCut = { s with
    draws := draws, boot := { s.boot with flash := flash, flashOp := none } } ∧ (s.boot.flashOp = none → flash = s.boot.flash) :=
      by
  unfold State.flashCut
  cases h : s.boot.flashOp with
  | none =>
    refine ⟨s.draws, s.boot.flash, ?_, fun _ => rfl⟩
    dsimp only
    rw [← h]
  | some x => exact ⟨_, _, rfl, fun hn => absurd hn (by simp)⟩

/-- The state that a reset of the main domains leaves, but for its registers. -/
def State.domainsBase (s : State) : State :=
  { State.reset with
    pending := s.pending, draws := s.draws + 1, out := s.out, time := s.time, timeFrac := s.timeFrac, shadows := s.shadows,
    uncOn := true, dispOn := true, cluOn := true,
    err := { ErrState.reset with held := s.err.held, heldDrops := s.err.heldDrops },
    dbg := { s.dbg with scope := 0, challenge := none, chalReq := 0, chalAt := 0, halted := [] },
    hif := { s.hif with reads := [], unsent := [] },
    pwr := { s.pwr with reqs := [], pend := none, heldReqs := [], entry := none, exit := none, idle := 0 },
    boot := { s.boot with flashOp := none } }

theorem domainsReset_same (s : State) (keep : Nat → Bool) : ∃ regs, s.domainsReset keep = { s.domainsBase with regs := regs } :=
  by
  obtain ⟨regs, h⟩ := setRegs_same { s.domainsBase with regs := s.regs.filter (fun p => keep p.1) } (Reg.ERR_FATAL 0)
    ((List.range 8).map (fun k => s.reg (Reg.ERR_FATAL k)))
  unfold State.domainsReset
  dsimp only
  rw [State.domainsBase] at h
  rw [h]
  exact ⟨_, rfl⟩

/-- The captured fatal record is written back after a reset of the main domains. -/
theorem domainsReset_fatal (s : State) (keep : Nat → Bool) {k : Nat} (hk : k < 8) :
    (s.domainsReset keep).reg (Reg.ERR_FATAL k) = s.reg (Reg.ERR_FATAL k) := by
  have haddr : Reg.ERR_FATAL k = Reg.ERR_FATAL 0 + 4 * k := by
    unfold Reg.ERR_FATAL
    omega
  have hne : Reg.ERR_FATAL k ≠ Reg.GLB_REPAIR ∧ Reg.ERR_FATAL k ≠ Reg.ERR_STATUS ∧ Reg.ERR_FATAL k ≠ Reg.ERR_SEQ := by
    unfold Reg.ERR_FATAL Reg.GLB_REPAIR Reg.ERR_STATUS Reg.ERR_SEQ
    omega
  unfold State.domainsReset
  dsimp only
  rw [State.reg_setFld_ne _ _ _ _ hne.1, State.reg_setFld_ne _ _ _ _ hne.1, State.reg_setReg_ne _ _ hne.2.1, State.reg_setReg_ne _
    _ hne.2.2,
    haddr, reg_setRegs _ _ _ (by rw [List.length_map, List.length_range]; exact hk), List.getElem_map, List.getElem_range, ←
      haddr]

/-- A warm start begun: the domains reset, the kept registers written back. -/
def State.warmBegun (s : State) (bad : List (Nat × Nat)) : State :=
  let link := s.reg Reg.HIF_STATUS &&& 0x7F#32
  let rate := s.boot.rate
  let tested := s.boot.tested
  let s := (s.flashCut).domainsReset warmKeeps
  let s := s.setReg Reg.HIF_STATUS link
  let s := { s with
    hif := { s.hif with inbox := 0, inboxFull := false, outbox := 0, outboxFull := false },
    dbg := { s.dbg with coreOpened := false },
    boot := { s.boot with
      kind := if tested then 1 else 0, begun := s.time, trained := false, selftest := tested, loaded := false, failing := [],
        badSlots := bad } }
  let s := ((s.setFld Reg.PWR_STATUS 1 0 0).setPhase 0).setFld Reg.GLB_BOOT 2 2 (if tested then 1 else 0)
  s.setFld Reg.DMC_CFG 2 0 rate

theorem warmFrom_eq (s : State) (bad : List (Nat × Nat)) : s.warmFrom bad = (s.warmBegun bad).collectHeld.warmSlot.repairsAgain :=
  rfl

/-- `t` keeps of `s` what a warm reset keeps beside the flash and a fatal record, and has no context, queue, slot, flow, copy or
host read, and no word in an I2C mailbox. -/
structure WarmCleared (s t : State) : Prop where
  time : t.time = s.time
  otp : t.dbg.otp = s.dbg.otp
  pending : t.pending = s.pending
  ctxs : t.ctxs = []
  queues : t.queues = []
  slots : t.slots = []
  flow : t.flow = none
  copies : t.sched.copies = []
  reads : t.hif.reads = []
  inbox : t.hif.inboxFull = false
  outbox : t.hif.outboxFull = false
  bytes : t.dram.bytes = []
  dirty : t.l2.dirty = []
  bar0 : t.hif.bar0 = s.hif.bar0
  bar2 : t.hif.bar2 = s.hif.bar2

theorem WarmCleared.prepared {s t u : State} (h : WarmCleared s t) (k : Prepared t u) : WarmCleared s u := by
  obtain ⟨⟨_, _, _, _, _, _, _, _, rfl⟩, -, -⟩ := k
  exact ⟨h.time, h.otp, h.pending, h.ctxs, h.queues, h.slots, h.flow, h.copies, h.reads, h.inbox, h.outbox, h.bytes, h.dirty,
    h.bar0, h.bar2⟩

theorem WarmCleared.reports {s t u : State} (h : WarmCleared s t) (k : Reports t u) : WarmCleared s u := by
  obtain ⟨⟨_, _, _, _, _, _, rfl⟩, -⟩ := k
  exact ⟨h.time, h.otp, h.pending, h.ctxs, h.queues, h.slots, h.flow, h.copies, h.reads, h.inbox, h.outbox, h.bytes, h.dirty,
    h.bar0, h.bar2⟩

theorem warmBegun_fields (s : State) (bad : List (Nat × Nat)) :
    WarmCleared s (s.warmBegun bad) ∧ (s.warmBegun bad).err.held = s.err.held
      ∧ (s.boot.flashOp = none → (s.warmBegun bad).boot.flash = s.boot.flash) := by
  obtain ⟨draws, flash, hcut, hflash⟩ := flashCut_same s
  obtain ⟨regs, hreset⟩ := domainsReset_same s.flashCut warmKeeps
  unfold State.warmBegun
  dsimp only
  rw [hreset, hcut]
  exact ⟨⟨rfl, rfl, rfl, rfl, rfl, rfl, rfl, rfl, rfl, rfl, rfl, rfl, rfl, rfl, rfl⟩, rfl, hflash⟩

theorem warmBegun_fatal (s : State) (bad : List (Nat × Nat)) {k : Nat} (hk : k < 8) :
    (s.warmBegun bad).reg (Reg.ERR_FATAL k) = s.reg (Reg.ERR_FATAL k) := by
  have hne : Reg.ERR_FATAL k ≠ Reg.DMC_CFG ∧ Reg.ERR_FATAL k ≠ Reg.GLB_BOOT ∧ Reg.ERR_FATAL k ≠ Reg.PWR_STATUS
      ∧ Reg.ERR_FATAL k ≠ Reg.HIF_STATUS := by
    unfold Reg.ERR_FATAL Reg.DMC_CFG Reg.GLB_BOOT Reg.PWR_STATUS Reg.HIF_STATUS
    omega
  have hcut : s.flashCut.reg (Reg.ERR_FATAL k) = s.reg (Reg.ERR_FATAL k) := by
    obtain ⟨draws, flash, hcut, -⟩ := flashCut_same s
    rw [hcut]
    rfl
  have hother : ∀ (t : State) h d b, ({ t with hif := h, dbg := d, boot := b } : State).reg (Reg.ERR_FATAL k) = t.reg
    (Reg.ERR_FATAL k) :=
    fun _ _ _ _ => rfl
  have hset : ∀ t : State, (t.setReg Reg.HIF_STATUS (s.reg Reg.HIF_STATUS &&& 0x7F#32)).reg (Reg.ERR_FATAL k) = t.reg
    (Reg.ERR_FATAL k) :=
    fun t => t.reg_setReg_ne _ hne.2.2.2
  unfold State.warmBegun State.setPhase
  dsimp only
  rw [State.reg_setFld_ne _ _ _ _ hne.1, State.reg_setFld_ne _ _ _ _ hne.2.1, State.reg_setFld_ne _ _ _ _ hne.2.2.1,
    State.reg_setFld_ne _ _ _ _ hne.2.2.1]
  exact (hother ..).trans ((hset _).trans ((domainsReset_fatal _ _ hk).trans hcut))

theorem prepared_warmStart (s : State) : Prepared s s.warmSlot.repairsAgain := (prepared_warmSlot s).trans (prepared_repairsAgain
  _)

theorem warmCleared_warmFrom (s : State) (bad : List (Nat × Nat)) : WarmCleared s (s.warmFrom bad) := by
  rw [warmFrom_eq]
  exact ((warmBegun_fields s bad).1.reports (reports_collectHeld _)).prepared (prepared_warmStart _)

theorem flash_warmFrom {s : State} (bad : List (Nat × Nat)) (h : s.boot.flashOp = none) : (s.warmFrom bad).boot.flash =
  s.boot.flash := by
  obtain ⟨-, -, -, hboot, -⟩ := (reports_collectHeld (s.warmBegun bad)).domains
  rw [warmFrom_eq, (prepared_warmStart _).flash, hboot]
  exact (warmBegun_fields s bad).2.2 h

theorem fatal_warmFrom {s : State} (bad : List (Nat × Nat)) (h : s.err.held = []) {k : Nat} (hk : k < 8) :
    (s.warmFrom bad).reg (Reg.ERR_FATAL k) = s.reg (Reg.ERR_FATAL k) := by
  have ha : fatalReg (Reg.ERR_FATAL k) := by
    unfold fatalReg Reg.ERR_FATAL
    omega
  rw [warmFrom_eq, (prepared_warmStart _).fatal _ ha, (logged_collectHeld ((warmBegun_fields s bad).2.1.trans h)).fatal _ ha,
    warmBegun_fatal s bad hk]

end Sys2Proof.Machine
end

section
/-! PROOFS. The resets and the supplies (O56) -/

namespace Sys2Proof.Machine

/-! ## The sources of a warm reset (R511, R563) -/

theorem exec_warmReset (s : State) : exec .warmReset s = .next (if s.uncOn then s.warmReset else s) :=
  (apply_ite Host.Outcome.next _ _ _).symm

theorem exec_sysrst (s : State) : exec .sysrst s = .next (if s.uncOn then s.warmReset else s) := (apply_ite Host.Outcome.next _ _
  _).symm

theorem exec_glbRst_go {s : State} {v : Word} (h : s.uncOn = true) (hgo : bit v.toNat 0 = true) (hkey : bits v.toNat 31 16 =
  0x57A7) :
    exec (.glbRst v) s = .next s.warmReset := by
  change Host.Outcome.next (s.glbRst v) = _
  refine congrArg Host.Outcome.next (if_pos ?_)
  rw [hgo, hkey, State.mayWarm, h]
  rfl

theorem exec_glbRst_else {s : State} {v : Word} (h : s.uncOn = false ∨ bit v.toNat 0 = false ∨ bits v.toNat 31 16 ≠ 0x57A7) :
    exec (.glbRst v) s = .next s := by
  change Host.Outcome.next (s.glbRst v) = _
  refine congrArg Host.Outcome.next (if_neg ?_)
  simp only [Bool.and_eq_true, beq_iff_eq, State.mayWarm]
  rintro ⟨⟨hgo, hkey⟩, hon⟩
  rcases h with h | h | h
  · exact absurd (hon.symm.trans h) (by decide)
  · exact absurd (hgo.symm.trans h) (by decide)
  · exact h hkey

theorem exec_fatalResetTimer (s : State) :
    exec .fatalResetTimer s = .next (s.err.fatalAt.elim s (fun t0 => if (decide (s.time < t0) || !s.uncOn) = true then s else
      s.warmReset)) := by
  change execFatalResetTimer s = _
  unfold execFatalResetTimer
  cases s.err.fatalAt with
  | none => rfl
  | some t0 =>
    dsimp only [Option.elim]
    rw [apply_ite Host.Outcome.next]
    rfl

/-! ## Power-on reset (R515, R591) -/

theorem powerOn_fields (s : State) :
    s.powerOn.dbg.otp = s.dbg.otp ∧ (s.boot.flashOp = none → s.powerOn.boot.flash = s.boot.flash) ∧ s.powerOn.time = 0
      ∧ s.powerOn.uncOn = false ∧ s.powerOn.ctxs = [] ∧ s.powerOn.queues = [] ∧ s.powerOn.pwr = State.reset.pwr
      ∧ ∀ a, s.powerOn.reg a = regReset a := by
  obtain ⟨draws, flash, hcut, hflash⟩ := flashCut_same s
  unfold State.powerOn
  dsimp only
  rw [hcut]
  exact ⟨rfl, hflash, rfl, rfl, rfl, rfl, rfl, fun _ => rfl⟩

/-! ## Supplies (R544, R545) -/

theorem level_vbakIs (s : State) (mv : Nat) : (s.vbakIs mv).fld Reg.PWR_VBAK 31 16 = s.fld Reg.PWR_VBAK 31 16 := by
  unfold State.vbakIs
  dsimp only
  rw [State.fld_setFld_ne _ _ _ _ _ _ (by decide), State.fld_setFld_apart _ _ _ (by decide) (by decide) (by decide)]

theorem exec_supplyHandover_onVbak {s : State} (mv : BitVec 16) (h : s.flag Reg.PWR_STATUS 18 = true) :
    exec (.supplyHandover mv) s = .next s := by
  change execSupplyHandover mv s = _
  exact if_pos h

theorem exec_supplyHandover_empty {s : State} {mv : BitVec 16} (h : s.flag Reg.PWR_STATUS 18 = false)
    (hmv : mv.toNat < s.fld Reg.PWR_VBAK 31 16) : exec (.supplyHandover mv) s = .next (s.vbakIs mv.toNat).powerOn := by
  change execSupplyHandover mv s = _
  unfold execSupplyHandover
  rw [if_neg (by rw [h]; decide)]
  dsimp only
  rw [level_vbakIs, if_pos hmv]

theorem exec_supplyHandover_charged {s : State} {mv : BitVec 16} (h : s.flag Reg.PWR_STATUS 18 = false)
    (hmv : s.fld Reg.PWR_VBAK 31 16 ≤ mv.toNat) :
    let s1 := (s.vbakIs mv.toNat).setFlag Reg.PWR_STATUS 18
    let s2 := if s1.fld Reg.PWR_STATUS 1 0 = 3 then s1.setFlag Reg.PWR_STATUS 28 else s1
    exec (.supplyHandover mv) s = .next ((s2.countSat Reg.PWR_SUPPLY 15 0 1).rec0 0x0F03 0x00 1 mv.toNat 0) := by
  intro s1 s2
  change execSupplyHandover mv s = _
  unfold execSupplyHandover
  rw [if_neg (by rw [h]; decide)]
  dsimp only
  rw [level_vbakIs, if_neg (Nat.not_lt.2 hmv)]

theorem exec_vbakLow_empty {s : State} {mv : BitVec 16} (hmv : mv.toNat < s.fld Reg.PWR_VBAK 31 16) :
    exec (.vbakLow mv) s = .next (if s.flag Reg.PWR_STATUS 18 then s.powerOn else s.vbakIs mv.toNat) := by
  change execVbakLow mv s = _
  exact if_neg (Nat.not_le.2 hmv)

theorem exec_mainSupplyLoss (s : State) (d : Fin 2) (rail : BitVec 32) :
    exec (.mainSupplyLoss d rail) s = .next (if s.uncOn = true ∧ s.pwrChanging = false then s.supplyLost (d.val + 1) rail.toNat
      else s) := by
  change execMainSupplyLoss d rail s = _
  have hiff : (!s.uncOn || s.pwrChanging) = true ↔ ¬(s.uncOn = true ∧ s.pwrChanging = false) := by
    rw [Bool.or_eq_true, Bool.not_eq_true', not_and_or, Bool.not_eq_true, Bool.not_eq_false]
  unfold execMainSupplyLoss
  simp only [hiff, apply_ite Host.Outcome.next, ite_not]

theorem exec_mainSupplyReturn (s : State) :
    let s1 := { s with uncOn := true, pwr := { s.pwr with mainLost := false }, hif := { s.hif with unsent := [] } }
    exec .mainSupplyReturn s = .next (if s.pwr.mainLost = true then ((s1.clearFlag Reg.HIF_STATUS 0).configReset).warmReset else
      s) := by
  intro s1
  change execMainSupplyReturn s = _
  unfold execMainSupplyReturn
  cases h : s.pwr.mainLost with
  | false => rfl
  | true => rfl

/-- Settles O56: what a warm reset keeps and clears, field by field through its steps, and each supply's loss and return. -/
theorem resetsAndSupplies : Obligations.ResetsAndSupplies := by
  intro s
  refine ⟨fun hon => ⟨?_, ?_, fun v => exec_glbRst_go hon, fun t0 ht => ?_⟩, fun v hv => exec_glbRst_else (Or.inr hv), fun hoff =>
    ⟨?_, ?_, ?_, ?_⟩,
    fun ht => ?_, ?_, ⟨rfl, powerOn_fields s⟩, fun mv h => ⟨?_, fun hmv => ?_, exec_supplyHandover_charged h⟩,
    fun mv h => ⟨exec_supplyHandover_onVbak mv h, ?_, fun hmv => ?_⟩, fun mv hmv => ?_, exec_mainSupplyLoss s,
      exec_mainSupplyReturn s⟩
  · rw [exec_warmReset, hon, if_pos rfl]
  · rw [exec_sysrst, hon, if_pos rfl]
  · rw [exec_fatalResetTimer, ht, hon]
    simp only [Option.elim, Bool.not_true, Bool.or_false, decide_eq_true_eq]
  · rw [exec_warmReset, hoff]
    rfl
  · rw [exec_sysrst, hoff]
    rfl
  · rw [exec_fatalResetTimer, hoff]
    cases s.err.fatalAt with
    | none => rfl
    | some t0 => exact congrArg Host.Outcome.next (if_pos (Bool.or_true _))
  · exact fun v => exec_glbRst_else (Or.inl hoff)
  · rw [exec_fatalResetTimer, ht]
    rfl
  · intro t
    have hc : WarmCleared s t := warmCleared_warmFrom s []
    exact ⟨hc.time, hc.otp, hc.pending, hc.ctxs, hc.queues, hc.slots, hc.flow, hc.copies, hc.reads, hc.inbox, hc.outbox, hc.bytes,
      hc.dirty,
      hc.bar0, hc.bar2, fun hh k hk => fatal_warmFrom [] hh hk, flash_warmFrom []⟩
  · change execSupplyReturn mv s = _
    exact if_pos (by rw [h]; rfl)
  · refine ⟨exec_supplyHandover_empty h hmv, ?_⟩
    rw [exec_vbakLow_empty hmv, h]
    rfl
  · change execSupplyReturn mv s = _
    exact if_neg (by rw [h]; decide)
  · rw [exec_vbakLow_empty hmv, h, if_pos rfl]
  · change execVbakLow mv s = _
    exact if_pos hmv

end Sys2Proof.Machine
end

section
/-! PROOFS. A1 and the requests for a power state -/

namespace Sys2Proof.Machine

/-! ## A1 and the requests (R526, R527, R528) -/

theorem exec_a1Entry (s : State) :
    exec .a1Entry s = .next (if s.flag Reg.PWR_CTRL 0 = true ∧ s.fld Reg.PWR_STATUS 1 0 = 0 ∧ s.uncRuns = true ∧ s.pwr.entry =
      none
        ∧ s.pwr.exit = none ∧ s.a1Quiet = true ∧ s.fld Reg.PWR_CTRL 15 8 * 1000 ≤ s.pwr.idle
      then (s.setFld Reg.PWR_STATUS 1 0 1).setFlag Reg.DMC_STATUS 2 else s) := by
  change execA1Entry s = _
  unfold execA1Entry
  simp only [Bool.and_eq_true, beq_iff_eq, Option.isNone_iff_eq_none, decide_eq_true_eq, and_assoc, apply_ite Host.Outcome.next]

/-- TARGET replaced, and a pending request withdrawn by CANCEL. -/
def State.reqWritten (s : State) (v : Word) : State :=
  let s1 := s.setFld Reg.PWR_REQ 2 1 (bits v.toNat 2 1)
  if bit v.toNat 3 = true ∧ s.pwr.pend.isSome = true then ({ s1 with pwr := { s1.pwr with pend := none } }).setPhase 0 else s1

theorem reqWritten_pwr (s : State) (v : Word) :
    (s.reqWritten v).pwr.entry = s.pwr.entry ∧ (s.reqWritten v).pwr.exit = s.pwr.exit ∧ (s.reqWritten v).hif = s.hif
      ∧ (s.reqWritten v).sched = s.sched ∧ (s.reqWritten v).time = s.time := by
  unfold State.reqWritten
  dsimp only
  split
  · exact ⟨rfl, rfl, rfl, rfl, rfl⟩
  · exact ⟨rfl, rfl, rfl, rfl, rfl⟩

theorem pwrReq_cancel (s : State) {v : Word} (h : bit v.toNat 0 = false) : s.pwrReq v = s.reqWritten v := by
  unfold State.pwrReq
  dsimp only
  rw [h]
  rfl

theorem pwrReq_go (s : State) {v : Word} (h : bit v.toNat 0 = true) :
    let g := bits v.toNat 2 1
    let s2 := s.reqWritten v
    let s3 := ({ s2 with pwr := { s2.pwr with pend := some (g, s.time) } }).setPhase 1
    s.pwrReq v = if s2.pwr.pend.isSome = true ∨ s.pwr.entry.isSome = true ∨ s.pwr.exit.isSome = true then (s2.pwrCheck 0x40 g).2
      else if s.hif.linkL2 = true ∧ s.sched.quench = none then s3.pwrPending else s3 := by
  obtain ⟨hentry, hexit, hhif, hsched, htime⟩ := reqWritten_pwr s v
  have hgo : s.pwrReq v = (let u := s.reqWritten v
      if u.pwr.pend.isSome || u.pwr.entry.isSome || u.pwr.exit.isSome then (u.pwrCheck 0x40 (bits v.toNat 2 1)).2
      else
        let w := ({ u with pwr := { u.pwr with pend := some (bits v.toNat 2 1, u.time) } }).setPhase 1
        if u.hif.linkL2 && u.sched.quench.isNone then w.pwrPending else w) := by
    unfold State.pwrReq
    dsimp only
    rw [h]
    rfl
  rw [hgo]
  dsimp only
  rw [hentry, hexit, hhif, hsched, htime]
  simp only [Bool.or_eq_true, Bool.and_eq_true, Option.isNone_iff_eq_none, or_assoc]

theorem exec_powerRequest_else {s : State} {v : Word} (h : s.uncRuns = false ∨ bit v.toNat 0 = false) :
    exec (.powerRequest v) s = .next s := by
  change execPowerRequest v s = _
  refine if_neg ?_
  rw [Bool.and_eq_true, not_and_or, Bool.not_eq_true, Bool.not_eq_true]
  exact h

theorem exec_powerRequest_go {s : State} {v : Word} (h : s.uncRuns = true) (hgo : bit v.toNat 0 = true) :
    exec (.powerRequest v) s = .next (s.pwrReq v) := by
  change execPowerRequest v s = _
  exact if_pos (by rw [h, hgo]; rfl)

theorem exec_powerRequestCancel_else {s : State} {v : Word} (h : s.uncRuns = false ∨ bit v.toNat 0 = true ∨ bit v.toNat 3 = false)
  :
    exec (.powerRequestCancel v) s = .next s := by
  change execPowerRequestCancel v s = _
  refine if_neg ?_
  simp only [Bool.and_eq_true, Bool.not_eq_true']
  rintro ⟨⟨hon, hcancel⟩, hgo⟩
  rcases h with h | h | h
  · exact absurd (hon.symm.trans h) (by decide)
  · exact absurd (h.symm.trans hgo) (by decide)
  · exact absurd (hcancel.symm.trans h) (by decide)

theorem exec_powerRequestCancel_now {s : State} {v : Word} (h : s.uncRuns = true) (hgo : bit v.toNat 0 = false)
    (hcancel : bit v.toNat 3 = true) : exec (.powerRequestCancel v) s = .next (s.reqWritten v) := by
  change execPowerRequestCancel v s = _
  refine (if_pos ?_).trans (congrArg Host.Outcome.next (pwrReq_cancel s hgo))
  rw [h, hgo, hcancel]
  rfl

theorem pwrCheck_refused {s : State} {g code unit : Nat} (by_ : Nat) (h : s.pwrCode g = some (code, unit)) :
    s.pwrCheck by_ g = (code, s.pwrRefuse code unit) := by
  unfold State.pwrCheck
  rw [h]

theorem pwrCheck_begins {s : State} {g : Nat} (by_ : Nat) (h : s.pwrCode g = none) :
    s.pwrCheck by_ g = (0, { (s.setFld Reg.PWR_STATUS 15 8 0).setPhase 3 with pwr := { s.pwr with entry := some ⟨g, by_, 0, [],
      false, none⟩ } }) := by
  unfold State.pwrCheck
  rw [h]

/-- The first five checks of a power request, in their order, and what the later ones find. -/
def State.pwrRows (s : State) (g : Nat) (rest : Option (Nat × Nat)) : Option (Nat × Nat) :=
  if (g ≠ 2 ∧ g ≠ 3) ∨ 2 ≤ s.fld Reg.PWR_STATUS 1 0 then some (0x70, 0x01)
  else if s.pwr.entry.isSome = true ∨ s.pwr.exit.isSome = true ∨ s.pwr.pend.isSome = true then some (0x71, 0x01)
  else if s.flag Reg.PWR_STATUS 18 = true then some (0x72, 0x00)
  else if s.flag Reg.PWR_CTRL 1 = true then some (0x73, 0x41)
  else if s.hif.linkL2 = false then some (0x74, 0x40) else rest

theorem pwrCode_first (s : State) (g : Nat) : ∃ rest, s.pwrCode g = s.pwrRows g rest := by
  have hrow : ∀ (c : Bool) (code unit : Nat) (rest : Option (Nat × Nat)),
      ((firstFail [(unit, c)]).map (fun u => (code, u))).or rest = if c = true then some (code, unit) else rest := by
    intro c code unit rest
    cases c <;> rfl
  unfold State.pwrCode
  extract_lets q work others
  have hfive : ∀ rest, (q 0x70 [(0x01, (g != 2 && g != 3) || 2 ≤ s.fld Reg.PWR_STATUS 1 0)]).or ((q 0x71
      [(0x01, s.pwr.entry.isSome || s.pwr.exit.isSome || s.pwr.pend.isSome)]).or ((q 0x72 [(0x00, s.flag Reg.PWR_STATUS 18)]).or
      ((q 0x73 [(0x41, s.flag Reg.PWR_CTRL 1)]).or ((q 0x74 [(0x40, !s.hif.linkL2)]).or rest)))) = s.pwrRows g rest := fun rest =>
        by
    rw [hrow, hrow, hrow, hrow, hrow]
    simp only [State.pwrRows, Bool.or_eq_true, Bool.and_eq_true, bne_iff_ne, decide_eq_true_eq, Bool.not_eq_true', or_assoc]
  exact ⟨_, hfive _⟩

theorem pwrPending_none {s : State} (h : s.pwr.pend = none) : s.pwrPending = s := by
  unfold State.pwrPending
  rw [h]

theorem pwrPending_some {s : State} {g t0 : Nat} (h : s.pwr.pend = some (g, t0)) :
    s.pwrPending = ((({ s with pwr := { s.pwr with pend := none } }).setPhase 0).pwrCheck 0x40 g).2 := by
  unfold State.pwrPending
  rw [h]

theorem exec_powerLinkTimeout_none {s : State} (h : s.pwr.pend = none) : exec .powerLinkTimeout s = .next s := by
  change execPowerLinkTimeout s = _
  unfold execPowerLinkTimeout
  rw [h]

theorem exec_powerLinkTimeout_some {s : State} {g t0 : Nat} (h : s.pwr.pend = some (g, t0)) :
    exec .powerLinkTimeout s = .next (if s.hif.linkL2 = true ∨ s.time < t0 + us 1000000 then s
      else (({ s with pwr := { s.pwr with pend := none } }).setPhase 0).pwrRefuse 0x74 0x40) := by
  change execPowerLinkTimeout s = _
  unfold execPowerLinkTimeout
  rw [h]
  simp only [Bool.or_eq_true, decide_eq_true_eq, apply_ite Host.Outcome.next]

theorem exec_linkL2Entry (s : State) :
    let l2 := { s.clearFlag Reg.HIF_STATUS 0 with hif := { s.hif with linkL2 := true } }
    exec .linkL2Entry s = .next (if s.uncOn = true ∧ s.flag Reg.HIF_STATUS 0 = true
      then (if s.sched.quench = none then l2.pwrPending else l2) else s) := by
  intro l2
  change execLinkL2Entry s = _
  have hiff : (!s.uncOn || !s.flag Reg.HIF_STATUS 0) = true ↔ ¬(s.uncOn = true ∧ s.flag Reg.HIF_STATUS 0 = true) := by
    rw [Bool.or_eq_true, Bool.not_eq_true', Bool.not_eq_true', not_and_or, Bool.not_eq_true, Bool.not_eq_true]
  have hrun : ∀ u : State, (if u.sched.quench.isNone = true then u.pwrPending else u) = if u.sched.quench = none then u.pwrPending
    else u :=
    fun u => by simp only [Option.isNone_iff_eq_none]
  unfold execLinkL2Entry
  by_cases h : s.uncOn = true ∧ s.flag Reg.HIF_STATUS 0 = true
  · rw [if_neg (fun hc => hiff.1 hc h), if_pos h]
    exact congrArg Host.Outcome.next (hrun l2)
  · rw [if_pos (hiff.2 h), if_neg h]

end Sys2Proof.Machine
end

section
/-! PROOFS. An entry and its abort points -/

namespace Sys2Proof.Machine

/-! ## An entry and its abort points (R529, R530, R531) -/

theorem exec_entryStepComplete_none {s : State} (h : s.pwr.entry = none) : exec .entryStepComplete s = .next s := by
  change execEntryStepComplete s = _
  unfold execEntryStepComplete
  rw [h]

theorem exec_entryStepComplete_committed {s : State} {e : Entry} (h : s.pwr.entry = some e) (hc : e.committed = true) :
    exec .entryStepComplete s = .next (if s.railsBusy .entry = true ∨ s.railsBusy .undo = true then s else s.entryDone e) := by
  change execEntryStepComplete s = _
  unfold execEntryStepComplete
  rw [h]
  dsimp only
  rw [if_pos hc]
  simp only [Bool.or_eq_true, apply_ite Host.Outcome.next]

/-- The entry after the work of its next step. -/
def State.entryStepped (s : State) (e : Entry) : State :=
  let w := s.entryWork e (e.step + 1)
  { w with pwr := { w.pwr with entry := some { e with step := e.step + 1 } } }

/-- The commit of an entry: the first rail changes. -/
def State.entryCommitted (s : State) (e : Entry) : State :=
  let s1 := s.entryStepped e
  let s2 := if e.target = 3 then s1.clearFlag Reg.PWR_STATUS 28 else s1
  ({ s2 with pwr := { s2.pwr with entry := some { e with step := e.step + 1, committed := true } } }).railsDown e.target

theorem exec_entryStepComplete_undoing {s : State} {e : Entry} (h : s.pwr.entry = some e) (hc : e.committed = false)
    (hu : s.railsBusy .undo = true) : exec .entryStepComplete s = .next s := by
  change execEntryStepComplete s = _
  unfold execEntryStepComplete
  rw [h]
  dsimp only
  rw [if_neg (by rw [hc]; decide), if_pos hu]

theorem exec_entryStepComplete_step {s : State} {e : Entry} (h : s.pwr.entry = some e) (hc : e.committed = false)
    (hu : s.railsBusy .undo = false) :
    exec .entryStepComplete s = .next (e.latched.head?.elim (if e.step + 1 < 6 then s.entryStepped e else s.entryCommitted e)
      (fun x => (s.entryStepped e).entryAbort (e.step + 1) x.1 x.2)) := by
  change execEntryStepComplete s = _
  unfold execEntryStepComplete
  rw [h]
  dsimp only
  rw [if_neg (by rw [hc]; decide), if_neg (by rw [hu]; decide)]
  cases e.latched.head? with
  | none => exact (apply_ite Host.Outcome.next _ _ _).symm
  | some x => rfl

theorem entryWork_else (s : State) (e : Entry) {n : Nat} (h3 : n ≠ 3) (h4 : n ≠ 4) (h5 : n ≠ 5) : s.entryWork e n = s := by
  unfold State.entryWork
  split
  · exact absurd rfl h3
  · exact absurd rfl h4
  · exact absurd rfl h5
  · rfl

/-- The domains off or retained in the target state. -/
def State.entryEnded (s : State) (e : Entry) : State :=
  let d := (s.setFld Reg.PWR_STATUS 1 0 e.target).setPhase 0
  let lost := d.pinsFall e.target
  let d1 := if lost = true then d.setFlag Reg.PWR_STATUS 28 else d
  { d1 with
    uncOn := false, dispOn := false, cluOn := false, timeFrac := 0, dbg := { d1.dbg with scope := 0, challenge := none, halted :=
      [] },
    pwr := { d1.pwr with entry := none, pinsLost := lost } }

theorem entryDone_quiet (s : State) {e : Entry} (h : e.woke = none) : s.entryDone e = s.entryEnded e := by
  unfold State.entryDone
  dsimp only
  rw [h]
  rfl

theorem entryDone_woken (s : State) {e : Entry} {src t : Nat} (h : e.woke = some (src, t)) :
    s.entryDone e = ((s.entryEnded e).setFlag Reg.PWR_STATUS 7).exitBegin src t := by
  unfold State.entryDone
  dsimp only
  rw [h]
  rfl

/-- An entry abandoned, its steps undone. -/
def State.entryDropped (s : State) : State :=
  { s with dram := { s.dram with selfRefresh := false }, pwr := { s.pwr with entry := none, saved := [] } }

/-- The records of an abort: its count, its point and its source. -/
def State.abortRecorded (s : State) (pt src t0 : Nat) : State :=
  let a := ((s.entryDropped.setPhase 0).setFlag Reg.PWR_STATUS 6).countSat Reg.PWR_ABORT 15 0 1
  ((a.setFld Reg.PWR_ABORT 18 16 pt).setFld Reg.PWR_ABORT 27 24 src).wakeRecord src t0

/-- A wake's records change PWR_WAKE and its time alone. -/
theorem reg_wakeRecord_ne (s : State) (src t : Nat) {a : Nat} (h : a ≠ Reg.PWR_WAKE) (hlo : a ≠ Reg.PWR_WAKE_TIME_LO)
    (hhi : a ≠ Reg.PWR_WAKE_TIME_LO + 4) : (s.wakeRecord src t).reg a = s.reg a := by
  unfold State.wakeRecord State.setReg64 State.countWrap
  rw [State.reg_setReg_ne _ _ hhi, State.reg_setReg_ne _ _ hlo, State.reg_setFld_ne _ _ _ _ h, State.reg_setFld_ne _ _ _ _ h]

theorem source_wakeRecord (s : State) (src t : Nat) : (s.wakeRecord src t).fld Reg.PWR_WAKE 11 8 = src % 16 := by
  unfold State.wakeRecord State.setReg64 State.countWrap
  rw [State.fld_of_reg (State.reg_setReg_ne _ _ (by decide)), State.fld_of_reg (State.reg_setReg_ne _ _ (by decide)),
    State.fld_setFld_apart _ _ _ (by decide) (by decide) (by decide), State.fld_setFld_self _ _ _ (by decide) (by decide)]
  rfl

theorem status_abortRecorded (s : State) (pt src t0 : Nat) :
    (s.abortRecorded pt src t0).reg Reg.PWR_STATUS = ((s.entryDropped.setPhase 0).setFlag Reg.PWR_STATUS 6).reg Reg.PWR_STATUS :=
      by
  unfold State.abortRecorded State.countSat
  dsimp only
  rw [reg_wakeRecord_ne _ _ _ (by decide) (by decide) (by decide), State.reg_setFld_ne _ _ _ _ (by decide),
    State.reg_setFld_ne _ _ _ _ (by decide), State.reg_setFld_ne _ _ _ _ (by decide)]

theorem pwr_wakeRecord (s : State) (src t : Nat) : (s.wakeRecord src t).pwr = s.pwr := by
  unfold State.wakeRecord State.setReg64 State.countWrap
  rw [State.setReg_pwr, State.setReg_pwr, State.setFld_pwr, State.setFld_pwr]

theorem dram_wakeRecord (s : State) (src t : Nat) : (s.wakeRecord src t).dram = s.dram := by
  unfold State.wakeRecord State.setReg64 State.countWrap
  rw [State.setReg_dram, State.setReg_dram, State.setFld_dram, State.setFld_dram]

theorem dropped_abortRecorded (s : State) (pt src t0 : Nat) :
    (s.abortRecorded pt src t0).pwr = s.entryDropped.pwr ∧ (s.abortRecorded pt src t0).dram = s.entryDropped.dram := by
  unfold State.abortRecorded State.countSat State.setPhase
  dsimp only
  constructor
  · rw [pwr_wakeRecord, State.setFld_pwr, State.setFld_pwr, State.setFld_pwr, State.setFlag_pwr, State.setFld_pwr]
  · rw [dram_wakeRecord, State.setFld_dram, State.setFld_dram, State.setFld_dram, State.setFlag_dram, State.setFld_dram]

/-- An abort has done its records before anything waiting is raised. -/
theorem abortRecorded_fields (s : State) (pt src t0 : Nat) :
    let a1 := s.abortRecorded pt src t0
    a1.pwr.entry = none ∧ a1.dram.selfRefresh = false ∧ a1.fld Reg.PWR_STATUS 4 2 = 0 ∧ a1.flag Reg.PWR_STATUS 6 = true
      ∧ a1.fld Reg.PWR_ABORT 18 16 = pt % 8 ∧ a1.fld Reg.PWR_ABORT 27 24 = src % 16 ∧ a1.fld Reg.PWR_WAKE 11 8 = src % 16 := by
  have hstatus := status_abortRecorded s pt src t0
  obtain ⟨hpwr, hdram⟩ := dropped_abortRecorded s pt src t0
  refine ⟨?_, ?_, ?_, ?_, ?_, ?_, source_wakeRecord ..⟩
  · exact congrArg PwrState.entry hpwr
  · exact congrArg DramState.selfRefresh hdram
  · rw [State.fld_of_reg hstatus, State.setFlag, State.fld_setFld_apart _ _ _ (by decide) (by decide) (by decide), State.setPhase,
      State.fld_setFld_self _ _ _ (by decide) (by decide)]
    rfl
  · rw [State.flag_of_reg hstatus, State.flag_setFlag_self _ _ (by decide)]
  · unfold State.abortRecorded
    rw [State.fld_of_reg (reg_wakeRecord_ne _ _ _ (by decide) (by decide) (by decide)),
      State.fld_setFld_apart _ _ _ (by decide) (by decide) (by decide), State.fld_setFld_self _ _ _ (by decide) (by decide)]
    rfl
  · unfold State.abortRecorded
    rw [State.fld_of_reg (reg_wakeRecord_ne _ _ _ (by decide) (by decide) (by decide)),
      State.fld_setFld_self _ _ _ (by decide) (by decide)]
    rfl

theorem entryAbort_eq (s : State) (pt src t0 : Nat) :
    let a1 := s.abortRecorded pt src t0
    let a2 := if src ≠ 1 ∧ s.flag Reg.HIF_CTRL 0 = true then { a1 with hif := { a1.hif with wakeN := false } } else a1
    s.entryAbort pt src t0 = (a2.kwsPump).audioPump := by
  have hctrl : ∀ u : State, u.reg Reg.HIF_CTRL = s.reg Reg.HIF_CTRL → u.flag Reg.HIF_CTRL 0 = s.flag Reg.HIF_CTRL 0 :=
    fun u h => State.flag_of_reg h 0
  unfold State.entryAbort State.wakeHost
  dsimp only
  rw [hctrl _ ?_]
  · rfl
  · unfold State.countSat State.setPhase
    rw [State.reg_setFld_ne _ _ _ _ (by decide), State.reg_setFld_ne _ _ _ _ (by decide), State.reg_setFld_ne _ _ _ _ (by decide),
      State.reg_setFlag_ne _ _ (by decide), State.reg_setFld_ne _ _ _ _ (by decide)]
    rfl

end Sys2Proof.Machine
end

section
/-! PROOFS. Wakes and exits; the power states (O57) -/

namespace Sys2Proof.Machine

/-! ## Wakes (R530, R531, R539) -/

theorem wake_ignored {s : State} {src : Nat} (h : src = 0 ∨ (3 ≤ src ∧ s.flag Reg.PWR_WAKE src = false)) : s.wake src = s := by
  have hdis : ¬(src = 1 ∨ src = 2 ∨ (3 ≤ src ∧ src ≤ 5 ∧ s.flag Reg.PWR_WAKE src = true)) := by
    rintro (h1 | h2 | ⟨h3, -, hf⟩)
    · omega
    · omega
    · rcases h with h0 | ⟨-, hn⟩
      · omega
      · exact absurd (hf.symm.trans hn) (by decide)
  unfold State.wake
  dsimp only
  rw [if_pos (by rw [Bool.not_eq_true', decide_eq_false_iff_not]; exact hdis)]

/-- A wake that is taken: latched by an entry, or the start of an exit. -/
def State.wakeTaken (s : State) (src : Nat) : State :=
  s.pwr.entry.elim
    (if 2 ≤ s.fld Reg.PWR_STATUS 1 0 ∧ s.pwr.exit = none ∧ s.pwr.tripped = false ∧ s.pwr.mainLost = false then s.exitBegin src
      s.time else s)
    (fun e => { s with pwr := { s.pwr with entry := some (if e.committed = true
      then { e with woke := some (e.woke.getD (src, s.time)) } else { e with latched := e.latched ++ [(src, s.time)] }) } })

theorem wake_enabled {s : State} {src : Nat} (hlt : src < 6) (h : src = 1 ∨ src = 2 ∨ (3 ≤ src ∧ s.flag Reg.PWR_WAKE src = true))
  :
    s.wake src = s.wakeTaken src := by
  have hen : src = 1 ∨ src = 2 ∨ (3 ≤ src ∧ src ≤ 5 ∧ s.flag Reg.PWR_WAKE src = true) := by
    rcases h with h | h | ⟨h3, hf⟩
    · exact Or.inl h
    · exact Or.inr (Or.inl h)
    · exact Or.inr (Or.inr ⟨h3, by omega, hf⟩)
  unfold State.wake State.wakeTaken
  dsimp only
  rw [if_neg (by rw [Bool.not_eq_true', decide_eq_false_iff_not]; exact not_not.2 hen)]
  cases s.pwr.entry with
  | none => simp only [Option.elim, Bool.and_eq_true, decide_eq_true_eq, Option.isNone_iff_eq_none, Bool.not_eq_true', and_assoc]
  | some e => rfl

theorem exec_perstDeassert (s : State) : exec .perstDeassert s = .next (if s.hif.linkL2 = true then s.wake 1 else s) :=
  (apply_ite Host.Outcome.next _ _ _).symm

theorem exec_alarmExpire (s : State) :
    exec .alarmExpire s = .next (if s.pwr.alarmSet = true ∧ s.reg64 Reg.PWR_ALARM_LO ≠ 0 ∧ s.reg64 Reg.PWR_ALARM_LO ≤ s.time
      then ({ s with pwr := { s.pwr with alarmSet := false } }).wake 4 else s) :=
  (apply_ite Host.Outcome.next _ _ _).symm

/-! ## An exit (R532) -/

theorem exec_exitStepReady_none {s : State} (h : s.pwr.exit = none) (k : SinkInfo) : exec (.exitStepReady k) s = .next s := by
  change execExitStepReady k s = _
  unfold execExitStepReady
  rw [h]

/-- An exit at a step. -/
def State.exitAt (x : ExitRun) (s : State) (n : Nat) : State := { s with pwr := { s.pwr with exit := some { x with step := n } } }

/-- What a ready signal does to an exit, by the steps done. -/
def State.exitReady (s : State) (x : ExitRun) (k : SinkInfo) : State :=
  if x.step = 0 then (if s.railsBusy .exit = true then s else s.exitAt x 1)
  else if x.step = 1 then s.exitAt x 2
  else if x.step = 2 then ({ s with dram := { s.dram with selfRefresh := false } } : State).exitAt x 3
  else if x.step = 3 then
    (if s.pwr.pinsLost = true ∨ (x.target = 3 ∧ s.flag Reg.PWR_STATUS 28 = true) then s.lostExit x
      else if x.target = 3 then s.s3Release.exitAt x 4
      else ({ s with uncOn := true, dispOn := true, cluOn := true } : State).collectHeld.exitAt x 4)
  else if x.target = 3 then (s.s3Start s.pwr.saved k).exitDone x (bit (Sparse.get s.pwr.saved 0 Reg.HIF_CTRL).toNat 0)
  else s.exitDone x (s.flag Reg.HIF_CTRL 0)

theorem exec_exitStepReady {s : State} {x : ExitRun} (h : s.pwr.exit = some x) (k : SinkInfo) :
    exec (.exitStepReady k) s = .next (s.exitReady x k) := by
  change execExitStepReady k s = _
  unfold execExitStepReady
  rw [h]
  dsimp only
  obtain ⟨source, target, step, since⟩ := x
  unfold State.exitReady
  match step with
  | 0 => rfl
  | 1 => rfl
  | 2 => rfl
  | 3 =>
    simp only [apply_ite Host.Outcome.next]
    rfl
  | n + 4 =>
    simp only [apply_ite Host.Outcome.next]
    rfl

theorem exec_exitTimeout_none {s : State} (h : s.pwr.exit = none) (rail : BitVec 8) : exec (.exitTimeout rail) s = .next s := by
  change execExitTimeout rail s = _
  unfold execExitTimeout
  rw [h]

theorem exec_exitTimeout_some {s : State} {x : ExitRun} (h : s.pwr.exit = some x) (rail : BitVec 8) :
    exec (.exitTimeout rail) s = .next (if s.time < x.since + us 50000 then s
      else (((({ s with pwr := { s.pwr with exit := none, reqs := s.pwr.reqs.filter (fun r => r.why ≠ RailWhy.exit) } }).setPhase
        0).startStops
        3 4).rec0 0x0F02 0x01 3 (x.step + 1) rail.toNat)) := by
  change execExitTimeout rail s = _
  unfold execExitTimeout
  rw [h]
  exact (apply_ite Host.Outcome.next _ _ _).symm

theorem exitBegin_eq (s : State) (src t0 : Nat) : s.exitBegin src t0 = ({ (s.wakeRecord src t0).setPhase 4 with
    pwr := { s.pwr with exit := some ⟨src, s.fld Reg.PWR_STATUS 1 0, 0, t0⟩ } }).railsUp .exit := by
  have hpwr : ((s.wakeRecord src t0).setPhase 4).pwr = s.pwr := (State.setFld_pwr ..).trans (pwr_wakeRecord ..)
  unfold State.exitBegin
  dsimp only
  rw [hpwr]

/-- Settles O57: each request, step, wake and ready signal by the case it meets; the checks in the order of their codes. -/
theorem powerStates : Obligations.PowerStates := by
  intro s
  refine ⟨exec_a1Entry s, fun v => ⟨exec_powerRequest_else, exec_powerRequestCancel_else, exec_powerRequestCancel_now, fun hon hgo
    => ?_⟩,
    fun by_ g => ⟨fun code unit h => pwrCheck_refused by_ h, pwrCheck_begins by_, ?_⟩,
    fun h => ⟨pwrPending_none h, exec_powerLinkTimeout_none h⟩, fun g t0 h => ⟨pwrPending_some h, exec_powerLinkTimeout_some h⟩,
    exec_linkL2Entry s, exec_entryStepComplete_none, fun e he => ?_, fun pt src t0 => ⟨entryAbort_eq s pt src t0,
      abortRecorded_fields s pt src t0⟩,
    exitBegin_eq s, fun src => ⟨rfl, wake_ignored, fun hen => ?_⟩, exec_perstDeassert s, exec_alarmExpire s,
    fun h => ⟨exec_exitStepReady_none h, exec_exitTimeout_none h⟩, fun x k h => ?_⟩
  · exact (exec_powerRequest_go hon hgo).trans (congrArg Host.Outcome.next (pwrReq_go s hgo))
  · obtain ⟨rest, hrows⟩ := pwrCode_first s g
    rw [hrows]
    unfold State.pwrRows
    refine ⟨fun h => if_pos h, fun hg hst => ?_⟩
    have hfirst : ¬((g ≠ 2 ∧ g ≠ 3) ∨ 2 ≤ s.fld Reg.PWR_STATUS 1 0) := by omega
    rw [if_neg hfirst]
    refine ⟨fun hw => if_pos hw, fun hw h18 => ?_, fun hw h18 hctl => ?_, fun hw h18 hctl hl2 => ?_⟩
    · rw [if_neg hw, if_pos h18]
    · rw [if_neg hw, if_neg (by rw [h18]; decide), if_pos hctl]
    · rw [if_neg hw, if_neg (by rw [h18]; decide), if_neg (by rw [hctl]; decide), if_pos hl2]
  · refine ⟨exec_entryStepComplete_committed he, exec_entryStepComplete_undoing he, fun hc hu => ?_, fun h3 h4 h5 =>
      entryWork_else s e h3 h4 h5,
      fun h3 => ?_, fun h4 => ?_, fun h5 => ?_, entryDone_quiet s, fun src t => entryDone_woken s⟩
    · have hstep := exec_entryStepComplete_step he hc hu
      refine ⟨fun src t l hl => ?_, fun hl h6 => ?_, fun hl h6 => ?_⟩
      · have hhead : e.latched.head? = some (src, t) := congrArg List.head? hl
        rw [hstep, hhead]
        rfl
      · have hhead : e.latched.head? = none := congrArg List.head? hl
        rw [hstep, hhead, Option.elim, if_pos h6]
        rfl
      · have hhead : e.latched.head? = none := congrArg List.head? hl
        rw [hstep, hhead, Option.elim, if_neg (Nat.not_lt.2 h6)]
        rfl
    · rw [h3]
      rfl
    · rw [h4]
      rfl
    · rw [h5]
      rfl
  · rw [wake_enabled src.isLt hen]
    unfold State.wakeTaken
    refine ⟨fun e he => ?_, fun hn => ?_⟩
    · rw [he]
      rfl
    · rw [hn]
      rfl
  · rw [exec_exitStepReady h]
    unfold State.exitReady
    refine ⟨fun h0 => ?_, fun h1 => ?_, fun h2 => ?_, fun h3 => ?_, fun h4 => ?_, exec_exitTimeout_some h⟩
    · rw [if_pos h0]
      rfl
    · rw [if_neg (by omega), if_pos h1]
      rfl
    · rw [if_neg (by omega), if_neg (by omega), if_pos h2]
      rfl
    · rw [if_neg (by omega), if_neg (by omega), if_neg (by omega), if_pos h3]
      rfl
    · rw [if_neg (by omega), if_neg (by omega), if_neg (by omega), if_neg (by omega)]

end Sys2Proof.Machine
end

section
/-! PROOFS. A poll of the PMBus -/

namespace Sys2Proof.Machine

/-! ## A poll of the PMBus (R531, R537) -/

theorem railSend_pwr (s : State) :
    s.railSend.pwr.entry = s.pwr.entry ∧ s.railSend.time = s.time := by
  unfold State.railSend
  split
  · split
    · exact ⟨rfl, rfl⟩
    · exact ⟨rfl, rfl⟩
  · exact ⟨rfl, rfl⟩

/-- The request at the front acknowledged: its rail has the voltage, and the next request is sent. -/
def State.railAcked (s : State) (r : RailReq) (rest : List RailReq) : State :=
  ({ s with pwr := { s.pwr with
    reqs := rest, rails := s.pwr.rails.map (fun (x : Rail) => if x.n = r.rail then { x with mv := r.mv } else x) } }).railSend

/-- The request at the front given up. -/
def State.railGone (s : State) (rest : List RailReq) : State := { s with pwr := { s.pwr with reqs := rest } }

section Poll
variable {s : State} {r : RailReq} {rest : List RailReq} {word mv : Nat} {ok : Bool}

theorem railPoll_acked (h : s.pwr.reqs = r :: rest) (ha : (ok && railAck r.mv word mv) = true) :
    s.railPoll word mv ok = (.acked r, s.railAcked r rest) := by
  unfold State.railPoll
  rw [h]
  dsimp only
  rw [if_pos ha]
  rfl

theorem railPoll_unsent (h : s.pwr.reqs = r :: rest) (ha : (ok && railAck r.mv word mv) = false) (hs : r.sent = none) :
    s.railPoll word mv ok = (.wait, s) := by
  unfold State.railPoll
  rw [h]
  dsimp only
  rw [if_neg (by rw [ha]; decide), hs]

theorem railPoll_sent {t0 : Nat} (h : s.pwr.reqs = r :: rest) (ha : (ok && railAck r.mv word mv) = false) (hs : r.sent = some t0)
  :
    s.railPoll word mv ok = if s.time < t0 + s.ackTicks then (.wait, s)
      else if r.repeated = true then (.failed r, s.railGone rest)
      else (.wait, { s.emit (.pmbus r.rail r.mv) with pwr := { s.pwr with reqs := { r with sent := some s.time, repeated := true }
        :: rest } }) := by
  unfold State.railPoll
  rw [h]
  dsimp only
  rw [if_neg (by rw [ha]; decide), hs]
  rfl

end Poll

section PollEnds
variable {s u : State} {r : RailReq} {word : BitVec 16} {mv : Nat} {ok : Bool}

theorem exec_pmbusAckPoll_wait (h : s.railPoll word.toNat mv ok = (.wait, u)) : exec (.pmbusAckPoll word mv ok) s = .next u := by
  change execPmbusAckPoll word mv ok s = _
  unfold execPmbusAckPoll
  rw [h]

theorem exec_pmbusAckPoll_acked (h : s.railPoll word.toNat mv ok = (.acked r, u)) (hw : r.why = .entry ∨ r.why = .exit) :
    exec (.pmbusAckPoll word mv ok) s = .next u := by
  change execPmbusAckPoll word mv ok s = _
  unfold execPmbusAckPoll
  rw [h]
  rcases hw with hw | hw
  · dsimp only
    rw [hw]
  · dsimp only
    rw [hw]

theorem exec_pmbusAckPoll_acked_sop (h : s.railPoll word.toNat mv ok = (.acked r, u)) (hw : r.why = .sop) :
    exec (.pmbusAckPoll word mv ok) s = .next u.sopUpdate := by
  change execPmbusAckPoll word mv ok s = _
  unfold execPmbusAckPoll
  rw [h]
  dsimp only
  rw [hw]

theorem exec_pmbusAckPoll_acked_undo (h : s.railPoll word.toNat mv ok = (.acked r, u)) (hw : r.why = .undo) :
    exec (.pmbusAckPoll word mv ok) s
      = .next (if u.railsBusy .undo = false ∧ u.pwr.entry.isSome = true then u.entryAbort 6 6 u.time else u) := by
  change execPmbusAckPoll word mv ok s = _
  unfold execPmbusAckPoll
  rw [h]
  dsimp only
  rw [hw]
  dsimp only
  cases hb : u.railsBusy .undo with
  | true => rw [if_pos rfl, if_neg (fun hc => Bool.noConfusion hc.1)]
  | false =>
    rw [if_neg (by decide)]
    cases he : u.pwr.entry with
    | none => rw [if_neg (fun hc => Bool.noConfusion hc.2)]
    | some e => rw [if_pos ⟨rfl, rfl⟩]

theorem exec_pmbusAckPoll_failed_entry {e : Entry} {v : State} (h : s.railPoll word.toNat mv ok = (.failed r, u)) (hw : r.why =
  .entry)
    (he : u.pwr.entry = some e)
    (hv : (({ u with pwr := { u.pwr with reqs := [] } }).rec0 0x0F01 0x01 1 r.rail e.target).railsUp .undo = v) :
    exec (.pmbusAckPoll word mv ok) s = .next (if v.railsBusy .undo = true then v else v.entryAbort 6 6 v.time) := by
  change execPmbusAckPoll word mv ok s = _
  unfold execPmbusAckPoll
  rw [h]
  dsimp only
  split
  · next e' hw' he' =>
    obtain rfl := Option.some.inj (he'.symm.trans he)
    rw [hv]
  · next hw' he' => exact absurd (hw.symm.trans hw') (by decide)
  · next hw' => exact absurd (hw.symm.trans hw') (by decide)
  · next _ hne _ => exact absurd he (hne e hw)

theorem exec_pmbusAckPoll_failed_undo (h : s.railPoll word.toNat mv ok = (.failed r, u)) (hw : r.why = .undo)
    (he : u.pwr.entry.isSome = true) :
    exec (.pmbusAckPoll word mv ok) s = .next (if u.railsBusy .undo = true then u else u.entryAbort 6 6 u.time) := by
  obtain ⟨e, he⟩ := Option.isSome_iff_exists.1 he
  change execPmbusAckPoll word mv ok s = _
  unfold execPmbusAckPoll
  rw [h]
  dsimp only
  rw [hw, he]

theorem exec_pmbusAckPoll_failed_exit (h : s.railPoll word.toNat mv ok = (.failed r, u)) (hw : r.why = .exit) :
    exec (.pmbusAckPoll word mv ok) s = .next { u with pwr := { u.pwr with reqs := r :: u.pwr.reqs } } := by
  change execPmbusAckPoll word mv ok s = _
  unfold execPmbusAckPoll
  rw [h]
  dsimp only
  rw [hw]

theorem exec_pmbusAckPoll_failed_else (h : s.railPoll word.toNat mv ok = (.failed r, u))
    (hw : r.why = .sop ∨ (u.pwr.entry = none ∧ r.why ≠ .exit)) : exec (.pmbusAckPoll word mv ok) s = .next u.railSend := by
  change execPmbusAckPoll word mv ok s = _
  unfold execPmbusAckPoll
  rw [h]
  dsimp only
  rcases hw with hw | ⟨he, hx⟩
  · rw [hw]
  · rw [he]
    cases hw : r.why with
    | entry => rfl
    | exit => exact absurd hw hx
    | undo => rfl
    | sop => rfl

end PollEnds

/-- What a poll of the request at the front does, by whether it is acknowledged, sent, late and repeated. -/
theorem exec_pmbusAckPoll_front {s : State} {r : RailReq} {rest : List RailReq} (word : BitVec 16) (mv : Nat) (ok : Bool)
    (h : s.pwr.reqs = r :: rest) :
    let acked := ok && railAck r.mv word.toNat mv
    let a := s.railAcked r rest
    let gone := s.railGone rest
    (acked = true →
        (r.why = .entry ∨ r.why = .exit → exec (.pmbusAckPoll word mv ok) s = .next a)
        ∧ (r.why = .sop → exec (.pmbusAckPoll word mv ok) s = .next a.sopUpdate)
        ∧ (r.why = .undo → exec (.pmbusAckPoll word mv ok) s = .next
            (if a.railsBusy .undo = false ∧ s.pwr.entry.isSome = true then a.entryAbort 6 6 s.time else a)))
      ∧ (acked = false → r.sent = none → exec (.pmbusAckPoll word mv ok) s = .next s)
      ∧ (∀ t0, acked = false → r.sent = some t0 →
        (s.time < t0 + s.ackTicks → exec (.pmbusAckPoll word mv ok) s = .next s)
        ∧ (t0 + s.ackTicks ≤ s.time → r.repeated = false →
          exec (.pmbusAckPoll word mv ok) s = .next { s.emit (.pmbus r.rail r.mv) with pwr := { s.pwr with
            reqs := { r with sent := some s.time, repeated := true } :: rest } })
        ∧ (t0 + s.ackTicks ≤ s.time → r.repeated = true →
          (∀ e, r.why = .entry → s.pwr.entry = some e →
            let u := (({ s with pwr := { s.pwr with reqs := [] } }).rec0 0x0F01 0x01 1 r.rail e.target).railsUp .undo
            exec (.pmbusAckPoll word mv ok) s = .next (if u.railsBusy .undo = true then u else u.entryAbort 6 6 u.time))
          ∧ (r.why = .undo → s.pwr.entry.isSome = true → exec (.pmbusAckPoll word mv ok) s = .next
            (if gone.railsBusy .undo = true then gone else gone.entryAbort 6 6 s.time))
          ∧ (r.why = .exit → exec (.pmbusAckPoll word mv ok) s = .next s)
          ∧ (r.why = .sop ∨ (s.pwr.entry = none ∧ r.why ≠ .exit) → exec (.pmbusAckPoll word mv ok) s = .next gone.railSend))) :=
            by
  intro acked a gone
  refine ⟨fun ha => ?_, fun ha hs => exec_pmbusAckPoll_wait (railPoll_unsent h ha hs), fun t0 ha hs => ?_⟩
  · have hpoll := railPoll_acked h ha
    refine ⟨exec_pmbusAckPoll_acked hpoll, exec_pmbusAckPoll_acked_sop hpoll, fun hw => ?_⟩
    obtain ⟨hentry, htime⟩ := railSend_pwr ({ s with pwr := { s.pwr with
      reqs := rest, rails := s.pwr.rails.map (fun (x : Rail) => if x.n = r.rail then { x with mv := r.mv } else x) } })
    have hundo := exec_pmbusAckPoll_acked_undo hpoll hw
    have hsame : (s.railAcked r rest).pwr.entry = s.pwr.entry ∧ (s.railAcked r rest).time = s.time := ⟨hentry, htime⟩
    rw [hsame.1, hsame.2] at hundo
    exact hundo
  · have hpoll := railPoll_sent h ha hs
    refine ⟨fun hlt => exec_pmbusAckPoll_wait (hpoll.trans (if_pos hlt)), fun hle hr => ?_, fun hle hr => ?_⟩
    · rw [if_neg (Nat.not_lt.2 hle), if_neg (by rw [hr]; decide)] at hpoll
      exact exec_pmbusAckPoll_wait hpoll
    · rw [if_neg (Nat.not_lt.2 hle), if_pos hr] at hpoll
      refine ⟨fun e hw he => exec_pmbusAckPoll_failed_entry (e := e) hpoll hw he rfl, exec_pmbusAckPoll_failed_undo hpoll, fun hw
        => ?_,
        exec_pmbusAckPoll_failed_else hpoll⟩
      rw [exec_pmbusAckPoll_failed_exit hpoll hw]
      refine congrArg Host.Outcome.next ?_
      unfold State.railGone
      dsimp only
      rw [← h]

theorem exec_pmbusAckPoll_none {s : State} (h : s.pwr.reqs = []) (word : BitVec 16) (mv : Nat) (ok : Bool) :
    exec (.pmbusAckPoll word mv ok) s = .next s := by
  refine exec_pmbusAckPoll_wait ?_
  unfold State.railPoll
  rw [h]

end Sys2Proof.Machine
end

section
/-! PROOFS. Alerts, audio, the spotter, and the power limit -/

namespace Sys2Proof.Machine

/-! ## Alerts, audio and the spotter (R538, R540, R541) -/

/-- A rail whose fault was reported: recorded, cleared, and a lost supply where it is one of the main ones left off. -/
def State.railFault (u : State) (r : Rail) (v : Nat) : State :=
  let t := (u.rec0 0x0F06 0x01 1 r.n v).emit (.pmbusClear r.n)
  if bit v 6 = true ∧ 1 ≤ r.role ∧ r.role ≤ 3 ∧ t.pwrChanging = false ∧ t.uncOn = true
  then t.supplyLost (if r.role = 1 then 2 else 1) r.n else t

/-- What an alert does about one rail's status word, if it has one. -/
def State.railAlert (u : State) (r : Rail) (w : Option (Fin 8 × BitVec 16)) : State :=
  w.elim u (fun w => if (if r.mv = 0 then w.2.toNat &&& 0xF7BF = 0 else w.2.toNat = 0) then u else u.railFault r w.2.toNat)

theorem faulty_iff (r : Rail) (v : Nat) : r.faulty v = false ↔ (if r.mv = 0 then v &&& 0xF7BF = 0 else v = 0) := by
  unfold Rail.faulty
  split
  · rw [decide_eq_false_iff_not, ne_eq, not_not]
  · rw [decide_eq_false_iff_not, ne_eq, not_not]

theorem exec_pmbusAlert (s : State) (words : List (Fin 8 × BitVec 16)) :
    exec (.pmbusAlert words) s = .next (s.pwr.rails.foldl (fun (u : State) r => u.railAlert r (words.find? (fun w => w.1.val ==
      r.n))) s) := by
  change execPmbusAlert words s = _
  unfold execPmbusAlert
  refine congrArg Host.Outcome.next (congrArg (fun f => s.pwr.rails.foldl f s) (funext fun u => funext fun r => ?_))
  unfold State.railAlert
  cases words.find? (fun w => w.1.val == r.n) with
  | none => rfl
  | some w =>
    dsimp only [Option.elim]
    simp only [faulty_iff, State.railFault, Bool.and_eq_true, decide_eq_true_eq, Bool.not_eq_true', and_assoc]

theorem exec_audioFrameSampled (s : State) (in0 in1 : BitVec 16) :
    exec (.audioFrameSampled in0 in1) s = .next (if s.kwsOn = true then ({ s with pwr := { s.pwr with
      audio := Sparse.set s.pwr.audio 0 (s.pwr.frames % 40000) (in1 ++ in0), frames := s.pwr.frames + 1 } }).audioPump else s) :=
        by
  change execAudioFrameSampled in0 in1 s = _
  unfold execAudioFrameSampled
  cases h : s.kwsOn with
  | false => rfl
  | true => rfl

/-- EN of the spotter as of an evaluation. -/
def State.kwsTaken (s : State) : State := { s with pwr := { s.pwr with kwsEn := s.flag Reg.PWR_KWS_CTRL 0 } }

section Spotter
variable {s : State} {score : BitVec 8} (phrase : Nat)

theorem exec_kwsEvaluation_off (h : s.kwsTaken.kwsOn = false ∨ s.time < s.pwr.kwsQuiet) :
    exec (.kwsEvaluation score phrase) s = .next s.kwsTaken := by
  change execKwsEvaluation score phrase s = _
  refine if_pos ?_
  rw [Bool.or_eq_true, Bool.not_eq_true', decide_eq_true_eq]
  exact h

variable (hon : s.kwsTaken.kwsOn = true) (hq : s.pwr.kwsQuiet ≤ s.time)
include hon hq

theorem exec_kwsEvaluation_on :
    exec (.kwsEvaluation score phrase) s = .next (let k := s.kwsTaken
      if score.toNat < s.fld Reg.PWR_KWS_CTRL 15 8 then { k with pwr := { k.pwr with kwsRun := 0 } }
      else if s.pwr.kwsRun < 2 then { k with pwr := { k.pwr with kwsRun := s.pwr.kwsRun + 1 } }
      else (({ k with pwr := { k.pwr with kwsRun := 0, kwsQuiet := s.time + us 1000000, kwsHeld := s.pwr.kwsHeld ++
        [(⟨score.toNat, s.time - max (us 200000) (min (us 1500000) phrase), s.time⟩ : Detection)] } }).wake 3).kwsPump) := by
  change execKwsEvaluation score phrase s = _
  have hrun : ¬(!s.kwsTaken.kwsOn || decide (s.time < s.pwr.kwsQuiet)) = true := by
    rw [hon, decide_eq_false (Nat.not_lt.2 hq)]
    decide
  refine (if_neg hrun).trans ?_
  dsimp only
  rw [apply_ite Host.Outcome.next, apply_ite Host.Outcome.next]
  rfl

end Spotter

/-! ## Power and temperature (R547, R549, R550) -/

theorem exec_powerEstimate_off {s : State} (mw board : BitVec 16) (h : s.uncRuns = false) : exec (.powerEstimate mw board) s =
  .next s := by
  change execPowerEstimate mw board s = _
  exact if_pos (by rw [h]; rfl)

/-- The board power and the energy shown, the window of estimates moved on. -/
def State.estimated (s : State) (mw board : Nat) : State :=
  let s := s.setFld Reg.PWR_POWER 15 0 board
  let e := s.pwr.energyRem + board
  let s := s.count64 Reg.PWR_ENERGY_LO (e / 10)
  { s with pwr := { s.pwr with energyRem := e % 10, samples := (mw :: s.pwr.samples).take (10 * s.fld Reg.PWR_LIMIT 15 8) } }

theorem pwr_count64 (s : State) (a n : Nat) : (s.count64 a n).pwr = s.pwr := by
  unfold State.count64 State.setReg64
  rw [State.setReg_pwr, State.setReg_pwr]

theorem limit_estimated (s : State) (board e : Nat) (hi lo : Nat) :
    ((s.setFld Reg.PWR_POWER 15 0 board).count64 Reg.PWR_ENERGY_LO e).fld Reg.PWR_LIMIT hi lo = s.fld Reg.PWR_LIMIT hi lo := by
  unfold State.count64 State.setReg64
  rw [State.fld_of_reg (State.reg_setReg_ne _ _ (by decide)), State.fld_of_reg (State.reg_setReg_ne _ _ (by decide)),
    State.fld_setFld_ne _ _ _ _ _ _ (by decide)]

theorem estimated_eq (s : State) (mw board : Nat) :
    let e := s.pwr.energyRem + board
    let s1 := (s.setFld Reg.PWR_POWER 15 0 board).count64 Reg.PWR_ENERGY_LO (e / 10)
    s.estimated mw board
      = { s1 with pwr := { s1.pwr with energyRem := e % 10, samples := (mw :: s.pwr.samples).take (10 * s.fld Reg.PWR_LIMIT 15 8)
        } } := by
  unfold State.estimated
  dsimp only
  rw [limit_estimated, State.setFld_pwr, pwr_count64, State.setFld_pwr]

theorem samples_estimated (s : State) (mw board : Nat) :
    (s.estimated mw board).pwr.samples = (mw :: s.pwr.samples).take (10 * s.fld Reg.PWR_LIMIT 15 8) := by
  unfold State.estimated
  dsimp only
  rw [limit_estimated, pwr_count64, State.setFld_pwr]

/-- LIMIT_MISS may be recorded again once the mean was below the limit. -/
def State.missSettled (s : State) (limit : Nat) (l : List Nat) : State :=
  { s with pwr := { s.pwr with missed := s.pwr.missed && decide (limit * l.length ≤ l.sum) } }

theorem missSettled_eq (s : State) (limit : Nat) (l : List Nat) :
    (if meanUnder limit l = true then { s with pwr := { s.pwr with missed := false } } else s) = s.missSettled limit l := by
  unfold State.missSettled meanUnder
  by_cases h : l.sum < limit * l.length
  · rw [if_pos (decide_eq_true h), decide_eq_false (Nat.not_le.2 h), Bool.and_false]
  · rw [if_neg (by rw [decide_eq_false h]; decide), decide_eq_true (Nat.not_lt.1 h), Bool.and_true]

theorem exec_powerEstimate_on {s : State} (mw board : BitVec 16) (h : s.uncRuns = true) :
    let l := (mw.toNat :: s.pwr.samples).take (10 * s.fld Reg.PWR_LIMIT 15 8)
    let limit := s.fld Reg.PWR_LIMIT 5 0 * 1000
    let s3 := (s.estimated mw.toNat board.toNat).missSettled limit l
    exec (.powerEstimate mw board) s = .next (if limit * l.length < l.sum then s3.powerLower (l.sum / l.length)
      else if l.sum < (limit - 1000) * l.length then s3.powerRestore else { s3 with pwr := { s3.pwr with belowSince := none } })
        := by
  have hsettle : ∀ (u : State) (limit : Nat) (l : List Nat),
      (let v := if meanUnder limit l = true then { u with pwr := { u.pwr with missed := false } } else u
        if meanOver limit l = true then Host.Outcome.next (v.powerLower (l.sum / l.length))
        else if meanUnder (limit - 1000) l = true then .next v.powerRestore else .next { v with pwr := { v.pwr with belowSince :=
          none } } : Ans)
      = .next (let s3 := u.missSettled limit l
        if limit * l.length < l.sum then s3.powerLower (l.sum / l.length)
        else if l.sum < (limit - 1000) * l.length then s3.powerRestore else { s3 with pwr := { s3.pwr with belowSince := none } })
          := by
    intro u limit l
    rw [missSettled_eq]
    simp only [meanOver, meanUnder, decide_eq_true_eq, apply_ite Host.Outcome.next]
  have hon : execPowerEstimate mw board s = _ := if_neg (by rw [h]; decide)
  have hjudged := hon.trans (hsettle (s.estimated mw.toNat board.toNat) (s.fld Reg.PWR_LIMIT 5 0 * 1000)
    (s.estimated mw.toNat board.toNat).pwr.samples)
  rw [samples_estimated] at hjudged
  exact hjudged

end Sys2Proof.Machine
end

section
/-! PROOFS. Temperature, records and their ring (O58) -/

namespace Sys2Proof.Machine

/-! ## Temperature (R549, R550) -/

/-- The highest reading and its sensor shown. -/
def State.tempShown (s : State) (x : Int × Nat) : State := (s.setFld Reg.PWR_POWER 23 16 (wrapInt 8 x.1)).setFld Reg.PWR_POWER 26
  24 x.2

theorem tempShown_fields (s : State) (x : Int × Nat) :
    (s.tempShown x).pwr = s.pwr ∧ (s.tempShown x).uncOn = s.uncOn ∧ (s.tempShown x).time = s.time := by
  unfold State.tempShown
  exact ⟨by rw [State.setFld_pwr, State.setFld_pwr], by rw [State.setFld_uncOn, State.setFld_uncOn], by rw [State.setFld_time,
    State.setFld_time]⟩

/-- What a sample does while no trip has removed the supplies. -/
def State.thermJudged (u : State) (x : Int × Nat) (on : Bool) : State :=
  if on = false then u else if 110 ≤ x.1 then u.thermTrip x.1 x.2 else u.thermCaps x.1 x.2

/-- What a sample does after a trip. -/
def State.tripJudged (u : State) (x : Int × Nat) (since : Option Nat) (now : Nat) : State :=
  if 90 < x.1 then { u with pwr := { u.pwr with tripCool := none } }
  else since.elim { u with pwr := { u.pwr with tripCool := some now } } (fun t0 => if now < t0 + us 1000000 then u
    else ({ u with uncOn := true, pwr := { u.pwr with tripped := false, tripCool := none } }).warmReset)

theorem thermal_judged (u : State) (x : Int × Nat) : (if u.pwr.tripped = true then
      (if 90 < x.1 then Host.Outcome.next { u with pwr := { u.pwr with tripCool := none } }
      else match u.pwr.tripCool with
        | none => .next { u with pwr := { u.pwr with tripCool := some u.time } }
        | some t => if u.time < t + us 1000000 then .next u
          else .next ({ u with uncOn := true, pwr := { u.pwr with tripped := false, tripCool := none } }).warmReset)
    else if (!u.uncOn) = true then .next u
    else if 110 ≤ x.1 then .next (u.thermTrip x.1 x.2) else .next (u.thermCaps x.1 x.2) : Ans)
    = .next (if u.pwr.tripped = true then u.tripJudged x u.pwr.tripCool u.time else u.thermJudged x u.uncOn) := by
  by_cases htrip : u.pwr.tripped = true
  · rw [if_pos htrip, if_pos htrip, State.tripJudged]
    by_cases hhot : 90 < x.1
    · rw [if_pos hhot, if_pos hhot]
    · rw [if_neg hhot, if_neg hhot]
      cases u.pwr.tripCool with
      | none => simp only [Option.elim_none]
      | some t0 =>
        dsimp only
        rw [Option.elim_some]
        by_cases hlate : u.time < t0 + us 1000000
        · rw [if_pos hlate, if_pos hlate]
        · rw [if_neg hlate, if_neg hlate]
  · rw [if_neg htrip, if_neg htrip]
    simp only [State.thermJudged, Bool.not_eq_true', apply_ite Host.Outcome.next]

theorem exec_thermalSample_judged (s : State) (l : List (BitVec 8)) :
    let x := hotSensor 0 (l.map BitVec.toInt)
    let u := s.tempShown x
    exec (.thermalSample l) s = .next (if u.pwr.tripped = true then u.tripJudged x u.pwr.tripCool u.time else u.thermJudged x
      u.uncOn) := by
  intro x u
  exact Eq.trans rfl (thermal_judged u x)

theorem exec_thermalSample (s : State) (l : List (BitVec 8)) :
    let x := hotSensor 0 (l.map BitVec.toInt)
    exec (.thermalSample l) s = .next (if s.pwr.tripped = true then (s.tempShown x).tripJudged x s.pwr.tripCool s.time
      else (s.tempShown x).thermJudged x s.uncOn) := by
  intro x
  obtain ⟨hpwr, hunc, htime⟩ := tempShown_fields s x
  have hrun := exec_thermalSample_judged s l
  dsimp only at hrun
  rw [hpwr, hunc, htime] at hrun
  exact hrun

/-! ## A record and the ring (R555, R557, R560) -/

/-- The collector after the sequence number and the captures of a record. -/
def State.captured (s : State) (r : ErrRecord) (time : Nat) : State :=
  let seq := (s.reg Reg.ERR_SEQ).toNat
  let ws := recordWords r seq time
  let s := s.setReg Reg.ERR_SEQ (BitVec.ofNat 32 (seq + 1))
  let s := if s.fld Reg.ERR_CTRL 1 0 ≤ r.sev then s.capture 0 ws else s
  if r.sev = 3 then s.capture 1 ws else s

theorem collect_eq (s : State) (r : ErrRecord) (time : Nat) :
    s.collect r time = (((if (s.captured r time).ringRoom && (s.captured r time).err.dropCount == 0
      then (s.captured r time).ringWrite (recordWords r (s.reg Reg.ERR_SEQ).toNat time)
      else (s.captured r time).dropRecord r.sev (s.reg Reg.ERR_SEQ).toNat).fatalAction r).raiseHif 1) := rfl

theorem err_captured (s : State) (r : ErrRecord) (time : Nat) : (s.captured r time).err = s.err := by
  simp only [State.captured, apply_ite State.err, err_capture, State.setReg_err, ite_self]

/-- The captures write only the status and their own words. -/
theorem reg_captured (s : State) (r : ErrRecord) (time : Nat) {a : Nat} (h : a ≠ Reg.ERR_STATUS)
    (hout : a < Reg.ERR_FIRST 0 ∨ Reg.ERR_FATAL 8 ≤ a) :
    (s.captured r time).reg a = (s.setReg Reg.ERR_SEQ (BitVec.ofNat 32 ((s.reg Reg.ERR_SEQ).toNat + 1))).reg a := by
  have hfirst : a < Reg.ERR_FIRST 0 ∨ Reg.ERR_FIRST 8 ≤ a := by
    unfold Reg.ERR_FATAL Reg.ERR_FIRST at *
    omega
  have hfatal : a < Reg.ERR_FATAL 0 ∨ Reg.ERR_FATAL 8 ≤ a := by
    unfold Reg.ERR_FATAL Reg.ERR_FIRST at *
    omega
  have hzero : ∀ (t : State) (c : Prop) [Decidable c] seq, (if c then t.capture 0 (recordWords r seq time) else t).reg a = t.reg a
    :=
    fun t c _ seq => reg_ite (reg_capture t 0 rfl h hfirst) rfl
  have hone : ∀ (t : State) (c : Prop) [Decidable c] seq, (if c then t.capture 1 (recordWords r seq time) else t).reg a = t.reg a
    :=
    fun t c _ seq => reg_ite (reg_capture t 1 rfl h hfatal) rfl
  unfold State.captured
  exact (hone ..).trans (hzero ..)

theorem reg_fatalAction (s : State) (r : ErrRecord) {a : Nat} (h : a ≠ Reg.ERR_STATUS) : (s.fatalAction r).reg a = s.reg a := by
  unfold State.fatalAction
  split
  · rfl
  · split
    · exact State.reg_setFlag_ne _ _ h
    · split <;> rfl

/-- Every record takes the next sequence number. -/
theorem seq_collect (s : State) (r : ErrRecord) (time : Nat) : (s.collect r time).reg Reg.ERR_SEQ = s.reg Reg.ERR_SEQ + 1#32 := by
  have hring : ∀ (t : State) (c : Prop) [Decidable c] ws seq,
      (if c then t.ringWrite ws else t.dropRecord r.sev seq).reg Reg.ERR_SEQ = t.reg Reg.ERR_SEQ :=
    fun t c _ ws seq => reg_ite (reg_ringWrite t _ (by decide) (by decide)) (reg_dropRecord t _ _ (by decide))
  rw [collect_eq, reg_raiseHif _ _ (by decide), reg_fatalAction _ _ (by decide), hring, reg_captured _ _ _ (by decide) (by
    decide),
    State.reg_setReg_self]
  exact (BitVec.ofNat_add ..).trans (by rw [BitVec.ofNat_toNat, BitVec.setWidth_eq])

theorem ringRoom_captured (s : State) (r : ErrRecord) (time : Nat) :
    (s.captured r time).ringRoom = s.ringRoom ∧ (s.captured r time).reg Reg.ERR_RING_WPTR = s.reg Reg.ERR_RING_WPTR := by
  have hw : (s.captured r time).reg Reg.ERR_RING_WPTR = s.reg Reg.ERR_RING_WPTR := by
    rw [reg_captured _ _ _ (by decide) (by decide), State.reg_setReg_ne _ _ (by decide)]
  have hr : (s.captured r time).reg Reg.ERR_RING_RPTR = s.reg Reg.ERR_RING_RPTR := by
    rw [reg_captured _ _ _ (by decide) (by decide), State.reg_setReg_ne _ _ (by decide)]
  unfold State.ringRoom
  rw [hw, hr]
  exact ⟨rfl, rfl⟩

/-- With room in the ring, and nothing dropped before, a record takes the entry at the write pointer. -/
theorem ring_collect {s : State} (r : ErrRecord) (time : Nat) (hroom : s.ringRoom = true) (hdrop : s.err.dropCount = 0) :
    let w := (s.reg Reg.ERR_RING_WPTR).toNat
    (s.collect r time).reg Reg.ERR_RING_WPTR = s.reg Reg.ERR_RING_WPTR + 1#32
      ∧ ∀ i, i < 8 → (s.collect r time).reg (Reg.ERR_REC (w % 32 * 8 + i)) = (recordWords r (s.reg Reg.ERR_SEQ).toNat time).getD i
        0 := by
  intro w
  obtain ⟨hsame, hw⟩ := ringRoom_captured s r time
  have htake : ((s.captured r time).ringRoom && (s.captured r time).err.dropCount == 0) = true := by
    rw [hsame, hroom, err_captured, hdrop]
    rfl
  rw [collect_eq, if_pos htake]
  refine ⟨?_, fun i hi => ?_⟩
  · rw [reg_raiseHif _ _ (by decide), reg_fatalAction _ _ (by decide), State.ringWrite, State.reg_setReg_self, hw]
    exact (BitVec.ofNat_add ..).trans (by rw [BitVec.ofNat_toNat, BitVec.setWidth_eq])
  · have hne : Reg.ERR_REC (w % 32 * 8 + i) ≠ Reg.ERR_STATUS ∧ Reg.ERR_REC (w % 32 * 8 + i) ≠ Reg.ERR_RING_WPTR
        ∧ 0x0C0000 ≤ Reg.ERR_REC (w % 32 * 8 + i) := by
      unfold Reg.ERR_REC Reg.ERR_STATUS Reg.ERR_RING_WPTR
      omega
    have haddr : Reg.ERR_REC (w % 32 * 8 + i) = Reg.ERR_REC (w % 32 * 8) + 4 * i := by
      unfold Reg.ERR_REC
      omega
    have hlen : i < (recordWords r (s.reg Reg.ERR_SEQ).toNat time).length := hi
    rw [reg_raiseHif _ _ hne.2.2, reg_fatalAction _ _ hne.1, State.ringWrite, State.reg_setReg_ne _ _ hne.2.1, hw, haddr,
      reg_setRegs _ _ _ hlen, List.getD_eq_getElem _ _ hlen]

theorem recordFollows_regs {s : State} {r : ErrRecord} (h2 : r.code ≠ 0x0202) (h4 : r.code ≠ 0x0204) (a : Nat) :
    (s.recordFollows r).reg a = s.reg a := by
  unfold State.recordFollows
  split
  · rfl
  · rw [if_neg (fun hc => hc.1.elim h2 h4)]

theorem exec_errorRecord (s : State) (r : ErrRecord) :
    exec (.errorRecord r) s = .next (if unitListed r.unit = true then (s.record r).recordFollows r else s) := rfl

theorem record_on {s : State} (h : s.uncOn = true) (r : ErrRecord) : s.record r = s.collect r s.time := if_pos h

theorem exec_errRptrWrite (s : State) (v : Word) :
    let old := (s.reg Reg.ERR_RING_RPTR).toNat
    exec (.errRptrWrite v) s = .next (if s.uncOn = false then s
      else if diff32 v.toNat old ≤ diff32 (s.reg Reg.ERR_RING_WPTR).toNat old then (s.setReg Reg.ERR_RING_RPTR v).reportDrops
      else s.setFlag Reg.ERR_STATUS 3) := by
  intro old
  change execErrRptrWrite v s = _
  unfold execErrRptrWrite
  cases h : s.uncOn with
  | false => rw [if_neg (by decide), if_pos rfl]
  | true => rw [if_pos rfl, if_neg (by decide), State.rptrWrite]

/-- Settles O58: a poll by its case, an alert rail by rail, and the collector by its sequence number and its ring entry. -/
theorem sensorsAndErrors : Obligations.SensorsAndErrors := by
  intro s
  refine ⟨exec_pmbusAckPoll_none, fun r rest word mv ok h => exec_pmbusAckPoll_front word mv ok h, fun words => ?_,
    exec_audioFrameSampled s,
    fun score phrase => ⟨exec_kwsEvaluation_off phrase, fun hon hq => ?_⟩, fun mw board => ⟨exec_powerEstimate_off mw board, fun
      hon => ?_⟩,
    fun l => ?_, fun r => ⟨exec_errorRecord s r, fun hon _ h2 h4 => ?_⟩, exec_errRptrWrite s⟩
  · rw [exec_pmbusAlert]
    refine congrArg Host.Outcome.next (congrArg (fun f => s.pwr.rails.foldl f s) (funext fun u => funext fun r => ?_))
    unfold State.railAlert
    cases words.find? (fun w => w.1.val == r.n) with
    | none => rfl
    | some w => rfl
  · have hrun := exec_kwsEvaluation_on (score := score) phrase hon hq
    refine ⟨fun hlt => ?_, fun hle hfew => ?_, fun hle hmany => ?_⟩
    · exact hrun.trans (congrArg Host.Outcome.next (if_pos hlt))
    · exact hrun.trans (congrArg Host.Outcome.next ((if_neg (Nat.not_lt.2 hle)).trans (if_pos hfew)))
    · exact hrun.trans (congrArg Host.Outcome.next ((if_neg (Nat.not_lt.2 hle)).trans (if_neg (Nat.not_lt.2 hmany))))
  · have hest := exec_powerEstimate_on mw board hon
    rw [estimated_eq] at hest
    exact hest
  · have hrun := exec_thermalSample s l
    intro x s1 cool
    refine ⟨fun ht => ?_, fun ht => ⟨fun hhot => ?_, fun hcold hn => ?_, fun t0 hcold hs => ?_⟩⟩
    · rw [hrun, if_neg (by rw [ht]; decide)]
      rfl
    · rw [hrun, if_pos ht, State.tripJudged, if_pos hhot]
      rfl
    · rw [hrun, if_pos ht, State.tripJudged, if_neg (Int.not_lt.2 hcold), hn, Option.elim_none]
      rfl
    · rw [hrun, if_pos ht, State.tripJudged, if_neg (Int.not_lt.2 hcold), hs, Option.elim_some]
      rfl
  · have hreg := fun a => (recordFollows_regs (s := s.record r) h2 h4 a).trans (congrArg (fun t => State.reg t a) (record_on hon
      r))
    refine ⟨(hreg _).trans (seq_collect s r s.time), fun hroom hdrop => ?_⟩
    obtain ⟨hptr, hentry⟩ := ring_collect r s.time hroom hdrop
    exact ⟨(hreg _).trans hptr, fun i hi => (hreg _).trans (hentry i hi)⟩

end Sys2Proof.Machine
end

section
/-! PROOFS. Debug sessions and one-time storage -/

namespace Sys2Proof.Machine

/-! ## Debug sessions (R576, R577, R578) -/

theorem exec_debugChallenge_else {s : State} {p : Path} {v : Word} (h : s.dbgReached p = false ∨ bit v.toNat 31 = false) :
    exec (.debugChallenge p v) s = .next s := by
  change execDebugChallenge p v s = _
  refine if_neg ?_
  rw [Bool.and_eq_true, not_and_or, Bool.not_eq_true, Bool.not_eq_true]
  exact h

theorem debugDis_setFld (s : State) (a hi lo v : Nat) : (s.setFld a hi lo v).debugDis = s.debugDis := by
  unfold State.debugDis State.otpWord
  rw [State.setFld_dbg]

/-- A request of a challenge is granted for a scope of 1 or 2 while nothing forbids it. -/
theorem dbgRequest_new {s : State} {v : Word} (h : bit v.toNat 31 = true) :
    let s1 := s.setFld Reg.DBG_REQ 1 0 (bits v.toNat 1 0)
    s.dbgRequest v = if bits v.toNat 1 0 ∈ [1, 2] ∧ s.debugDis = false ∧ s.dbg.lockedOut = false ∧ s.dbg.scope = 0
      then { s1 with
        draws := s.draws + 1,
        dbg := { s.dbg with challenge := some (Config.entropy s.draws % 2 ^ 256), chalReq := v.toNat, chalAt := s.time } }
      else s1 := by
  have hscope : bits v.toNat 1 0 < 4 := Nat.mod_lt _ (Nat.two_pow_pos 2)
  have hiff : (!bit v.toNat 31 || bits v.toNat 1 0 == 0 || bits v.toNat 1 0 == 3 || s.debugDis || s.dbg.lockedOut || s.dbg.scope
    != 0) = true
      ↔ ¬(bits v.toNat 1 0 ∈ [1, 2] ∧ s.debugDis = false ∧ s.dbg.lockedOut = false ∧ s.dbg.scope = 0) := by
    have hreserved : bits v.toNat 1 0 = 0 ∨ bits v.toNat 1 0 = 3 ↔ bits v.toNat 1 0 ∉ [1, 2] := by
      simp only [List.mem_cons, List.not_mem_nil, or_false]
      omega
    rw [h]
    simp only [Bool.not_true, Bool.false_or, Bool.or_eq_true, beq_iff_eq, bne_iff_ne, hreserved, not_and_or, Bool.not_eq_false,
      or_assoc, ne_eq]
  unfold State.dbgRequest
  dsimp only
  rw [debugDis_setFld, State.setFld_dbg]
  by_cases hok : bits v.toNat 1 0 ∈ [1, 2] ∧ s.debugDis = false ∧ s.dbg.lockedOut = false ∧ s.dbg.scope = 0
  · rw [if_neg (fun hc => hiff.1 hc hok), if_pos hok, State.setFld_draws, State.setFld_time]
  · rw [if_pos (hiff.2 hok), if_neg hok]

theorem exec_debugChallenge_new {s : State} {p : Path} {v : Word} (h : s.dbgReached p = true) (hnew : bit v.toNat 31 = true) :
    exec (.debugChallenge p v) s = .next (s.dbgRequest v) := by
  change execDebugChallenge p v s = _
  exact if_pos (by rw [h, hnew]; rfl)

theorem exec_debugOpen_unreached {s : State} {p : Path} (h : s.dbgReached p = false) : exec (.debugOpen p) s = .next s := by
  change execDebugOpen p s = _
  exact if_neg (by rw [h]; decide)

theorem exec_debugClose_unreached {s : State} {p : Path} (h : s.dbgReached p = false) : exec (.debugClose p) s = .next s := by
  change execDebugClose p s = _
  exact if_neg (by rw [h]; decide)

theorem exec_debugClose_reached {s : State} {p : Path} (h : s.dbgReached p = true) : exec (.debugClose p) s = .next s.dbgClose :=
  by
  change execDebugClose p s = _
  exact if_pos h

theorem exec_debugOpen_reached {s : State} {p : Path} (h : s.dbgReached p = true) : exec (.debugOpen p) s = .next (s.dbgOpen p) :=
  by
  change execDebugOpen p s = _
  exact if_pos h

theorem dbgOpen_ignored {s : State} (p : Path) (h : s.debugDis = true ∨ s.dbg.lockedOut = true) : s.dbgOpen p = s := by
  unfold State.dbgOpen
  exact if_pos (Bool.or_eq_true _ _ ▸ h)

section Open
variable {s : State} (p : Path) (hd : s.debugDis = false) (hl : s.dbg.lockedOut = false)
include hd hl

theorem dbgOpen_without (h : s.challenge = none) : s.dbgOpen p = s.dbgFail p := by
  unfold State.dbgOpen
  rw [if_neg (by rw [hd, hl]; decide), h]

theorem dbgOpen_right {c : Nat} (h : s.challenge = some c) (hm : Config.debugMac c s.dbg.chalReq % 2 ^ 256 = s.dbgResponse) :
    s.dbgOpen p = s.dbgOpened p (s.dbg.chalReq % 4) := by
  unfold State.dbgOpen
  rw [if_neg (by rw [hd, hl]; decide), h]
  exact if_pos hm

theorem dbgOpen_wrong {c : Nat} (h : s.challenge = some c) (hm : Config.debugMac c s.dbg.chalReq % 2 ^ 256 ≠ s.dbgResponse) :
    s.dbgOpen p = s.dbgFail p := by
  unfold State.dbgOpen
  rw [if_neg (by rw [hd, hl]; decide), h]
  exact if_neg hm

end Open

theorem challenge_none {s : State} (h : s.dbg.challenge = none) : s.challenge = none := by
  unfold State.challenge
  rw [h]

theorem challenge_late {s : State} (h : s.dbg.chalAt + challengeTicks ≤ s.time) : s.challenge = none := by
  unfold State.challenge
  cases s.dbg.challenge with
  | none => rfl
  | some c => exact if_neg (Nat.not_lt.2 h)

theorem challenge_valid {s : State} (h : s.time < s.dbg.chalAt + challengeTicks) : s.challenge = s.dbg.challenge := by
  unfold State.challenge
  cases s.dbg.challenge with
  | none => rfl
  | some c => exact if_pos h

/-- The third failure locks the port out and closes what is open. -/
theorem dbgFail_eq (s : State) (p : Path) :
    let s1 := { s with dbg := { s.dbg with challenge := none, fails := s.dbg.fails + 1, lockedOut := decide (2 ≤ s.dbg.fails) } }
    s.dbgFail p = (if 2 ≤ s.dbg.fails then s1.dbgClose else s1).rec0 0x1005 0x04 1 (s.dbg.fails + 1) (dbgPort p) := by
  have hthird : (3 ≤ s.dbg.fails + 1) = (2 ≤ s.dbg.fails) := propext (by omega)
  unfold State.dbgFail
  simp only [hthird]

theorem exec_challengeExpire (s : State) :
    exec .challengeExpire s = .next (if s.challenge = none then { s with dbg := { s.dbg with challenge := none } } else s) := by
  change execChallengeExpire s = _
  unfold execChallengeExpire
  simp only [Option.isNone_iff_eq_none]

/-! ## One-time storage (R573, R581) -/

theorem exec_otpProgram_else {s : State} {v : Word} (h : s.uncRuns = false ∨ bit v.toNat 0 = false ∨ bit v.toNat 1 = true) :
    exec (.otpProgram v) s = .next s := by
  change execOtpProgram v s = _
  refine if_neg ?_
  simp only [Bool.and_eq_true, Bool.not_eq_true']
  rintro ⟨⟨hon, hgo⟩, hr⟩
  rcases h with h | h | h
  · exact absurd (hon.symm.trans h) (by decide)
  · exact absurd (hgo.symm.trans h) (by decide)
  · exact absurd (h.symm.trans hr) (by decide)

theorem exec_otpRead_else {s : State} {v : Word} (h : s.uncRuns = false ∨ bit v.toNat 0 = false ∨ bit v.toNat 1 = false) :
    exec (.otpRead v) s = .next s := by
  change execOtpRead v s = _
  refine if_neg ?_
  simp only [Bool.and_eq_true]
  rintro ⟨⟨hon, hgo⟩, hr⟩
  rcases h with h | h | h
  · exact absurd (hon.symm.trans h) (by decide)
  · exact absurd (hgo.symm.trans h) (by decide)
  · exact absurd (hr.symm.trans h) (by decide)

theorem exec_otpRead_go {s : State} {v : Word} (h : s.uncRuns = true) (hgo : bit v.toNat 0 = true) (hr : bit v.toNat 1 = true) :
    exec (.otpRead v) s = .next (s.otpCmd v) := by
  change execOtpRead v s = _
  exact if_pos (by rw [h, hgo, hr]; rfl)

theorem exec_otpProgram_go {s : State} {v : Word} (h : s.uncRuns = true) (hgo : bit v.toNat 0 = true) (hr : bit v.toNat 1 = false)
  :
    exec (.otpProgram v) s = .next (s.otpCmd v) := by
  change execOtpProgram v s = _
  exact if_pos (by rw [h, hgo, hr]; rfl)

theorem otpRefused_iff (s : State) (f w : Nat) (read : Bool) :
    s.otpRefused f w read = true ↔ s.dbg.scope ≠ 2 ∨ otpMask f w = 0 ∨ (read = false ∧ 1 ≤ f ∧ f ≤ 4 ∧ s.otpField f 8 ≠ 0) := by
  unfold State.otpRefused
  simp only [Bool.or_eq_true, bne_iff_ne, beq_iff_eq, Bool.and_eq_true, Bool.not_eq_true', decide_eq_true_eq, or_assoc, and_assoc]

theorem otp_setReg (s : State) (a : Nat) (v : Word) (f w : Nat) (read : Bool) :
    (s.setReg a v).otpRefused f w read = s.otpRefused f w read ∧ (s.setReg a v).otpWord f w = s.otpWord f w := by
  unfold State.otpRefused State.otpField State.otpWord
  rw [State.setReg_dbg]
  exact ⟨rfl, rfl⟩

/-- A command of one-time storage with its fields replaced. -/
def State.otpWritten (s : State) (v : Word) : State := s.setReg Reg.DBG_OTP_CMD (v &&& 0x7F02#32)

section OtpCommand
variable {s : State} {v : Word} (hgo : bit v.toNat 0 = true)
include hgo

theorem otpCmd_refused (h : s.otpRefused (bits v.toNat 11 8) (bits v.toNat 14 12) (bit v.toNat 1) = true) :
    s.otpCmd v = (s.otpWritten v).setFlag Reg.DBG_STATUS 13 := by
  unfold State.otpCmd
  dsimp only
  rw [(otp_setReg ..).1, if_neg (by rw [hgo]; decide), if_pos h]
  rfl

variable (h : s.otpRefused (bits v.toNat 11 8) (bits v.toNat 14 12) (bit v.toNat 1) = false)
include h

theorem otpCmd_read (hr : bit v.toNat 1 = true) :
    s.otpCmd v = ((s.otpWritten v).clearFlag Reg.DBG_STATUS 13).setReg Reg.DBG_OTP_DATA
      (BitVec.ofNat 32 (s.otpWord (bits v.toNat 11 8) (bits v.toNat 14 12))) := by
  have hword : ((s.otpWritten v).clearFlag Reg.DBG_STATUS 13).otpWord (bits v.toNat 11 8) (bits v.toNat 14 12)
      = s.otpWord (bits v.toNat 11 8) (bits v.toNat 14 12) := by
    unfold State.otpWritten State.otpWord
    rw [State.clearFlag_dbg, State.setReg_dbg]
  unfold State.otpCmd
  dsimp only
  rw [(otp_setReg ..).1, if_neg (by rw [hgo]; decide), if_neg (by rw [h]; decide), if_pos hr, ← hword]
  rfl

/-- Programming adds to a word the ones of DBG_OTP_DATA that it has bits for. -/
theorem otpCmd_program (hr : bit v.toNat 1 = false) :
    let n := bits v.toNat 11 8 * 8 + bits v.toNat 14 12
    let o := Sparse.get s.dbg.otp 0 n ||| (s.reg Reg.DBG_OTP_DATA &&& BitVec.ofNat 32 (otpMask (bits v.toNat 11 8) (bits v.toNat
      14 12)))
    s.otpCmd v = { (s.otpWritten v).clearFlag Reg.DBG_STATUS 13 with dbg := { s.dbg with otp := Sparse.set s.dbg.otp 0 n o } } :=
      by
  have hdbg : ((s.otpWritten v).clearFlag Reg.DBG_STATUS 13).dbg = s.dbg := by
    unfold State.otpWritten
    rw [State.clearFlag_dbg, State.setReg_dbg]
  have hdata : ((s.otpWritten v).clearFlag Reg.DBG_STATUS 13).reg Reg.DBG_OTP_DATA = s.reg Reg.DBG_OTP_DATA := by
    unfold State.otpWritten
    rw [State.reg_clearFlag_ne _ _ (by decide), State.reg_setReg_ne _ _ (by decide)]
  unfold State.otpCmd
  dsimp only
  rw [(otp_setReg ..).1, if_neg (by rw [hgo]; decide), if_neg (by rw [h]; decide), if_neg (by rw [hr]; decide)]
  rw [← State.otpWritten, hdbg, hdata]

end OtpCommand

end Sys2Proof.Machine
end

section
/-! PROOFS. The cores under the JTAG port; the debug port (O59) -/

namespace Sys2Proof.Machine

/-! ## The cores under the JTAG port (R575) -/

theorem exec_coreDbg_closed {s : State} (c : Fin 5) (op : CoreDbgOp) (h : s.dbg.scope ≠ 1) :
    exec (.coreDbg c op) s = .next ((s.tap575 0x11).emit (.jtag 0)) := by
  change execCoreDbg c op s = _
  exact if_neg h

theorem exec_coreDbg_open {s : State} (c : Fin 5) (op : CoreDbgOp) (h : s.dbg.scope = 1) :
    exec (.coreDbg c op) s = .next ((s.tap575 0x11).coreDbg c.val op) := by
  change execCoreDbg c op s = _
  exact if_pos h

/-- The core's firmware runs on from what is left of its registers. -/
def State.ranWith (s : State) (core : Nat) (h : List Nat) : State :=
  { s with dbg := { s.dbg with halted := h, coreRegs := s.dbg.coreRegs.filter (fun p => p.1 / 2 ^ 16 ≠ core) } }

theorem coreDbg_release (s : State) (c : Nat) :
    s.coreDbg c .release = (s.ranWith c (s.dbg.halted.filter (fun x => x ≠ c))).emit (.jtag 0) := rfl

section Running
variable {s : State} {c : Nat} (h : c ∉ s.dbg.halted)
include h

theorem not_contains_of_running : ¬s.dbg.halted.contains c = true := fun hc => h (List.contains_iff_mem.1 hc)

theorem coreDbg_halt_running : s.coreDbg c .halt = ({ s with dbg := { s.dbg with halted := c :: s.dbg.halted } }).emit (.jtag 0)
  := by
  unfold State.coreDbg
  dsimp only
  rw [if_neg (not_contains_of_running h)]

theorem coreDbg_running {op : CoreDbgOp} (hh : op ≠ .halt) (hr : op ≠ .release) : s.coreDbg c op = s.emit (.jtag 0) := by
  have hno := Bool.not_eq_true _ ▸ not_contains_of_running h
  unfold State.coreDbg
  dsimp only
  rw [hno]
  cases op with
  | halt => exact absurd rfl hh
  | release => exact absurd rfl hr
  | step => rfl
  | readReg n => rfl
  | writeReg n v => rfl
  | readMem a => rfl
  | writeMem a b => rfl

end Running

section Halted
variable {s : State} {c : Nat} (h : c ∈ s.dbg.halted)
include h

theorem contains_of_halted : s.dbg.halted.contains c = true := List.contains_iff_mem.2 h

theorem coreDbg_halt_halted : s.coreDbg c .halt = s.emit (.jtag 0) := by
  unfold State.coreDbg
  dsimp only
  rw [if_pos (contains_of_halted h)]

theorem coreDbg_step_halted : s.coreDbg c .step = (s.ranWith c s.dbg.halted).emit (.jtag 0) := by
  unfold State.coreDbg
  dsimp only
  rw [if_pos (contains_of_halted h)]
  rfl

theorem coreDbg_readReg_halted (n : Nat) :
    s.coreDbg c (.readReg n) = ({ s with draws := s.draws + 1 }).emit (.jtag
      (Sparse.get s.dbg.coreRegs (BitVec.ofNat 32 (Config.freeLane s.draws (c * 2 ^ 16 + n))) (c * 2 ^ 16 + n)).toNat) := by
  unfold State.coreDbg
  dsimp only
  rw [contains_of_halted h]
  rfl

theorem coreDbg_writeReg_halted (n : Nat) (v : Word) :
    s.coreDbg c (.writeReg n v)
      = ({ s with dbg := { s.dbg with coreRegs := Sparse.put s.dbg.coreRegs (c * 2 ^ 16 + n) v } }).emit (.jtag 0) := by
  unfold State.coreDbg
  dsimp only
  rw [contains_of_halted h]
  rfl

theorem coreDbg_readMem_halted (a : BitVec 20) :
    s.coreDbg c (.readMem a) = ({ s with draws := s.draws + 1 }).emit (.jtag (s.coreByte c a.toNat).toNat) := by
  unfold State.coreDbg
  dsimp only
  rw [contains_of_halted h]
  rfl

theorem coreDbg_writeMem_halted (a : BitVec 20) (b : Byte) :
    s.coreDbg c (.writeMem a b)
      = (if c = 4 then { s with pwr := { s.pwr with hearthMem := Sparse.put s.pwr.hearthMem a.toNat b } }
        else { s with boot := { s.boot with ccMem := Sparse.put s.boot.ccMem (c * 2 ^ 19 + a.toNat % 2 ^ 19) b } }).emit (.jtag 0)
          := by
  unfold State.coreDbg
  dsimp only
  rw [contains_of_halted h, if_neg (by decide)]
  by_cases hc : c = 4
  · rw [if_pos hc, if_pos hc]
  · rw [if_neg hc, if_neg hc]

end Halted

/-- Settles O59: the session by its challenge, one-time storage by its refusal, the cores by whether they are halted. -/
theorem debugPort : Obligations.DebugPort := by
  intro s
  refine ⟨fun p v => exec_debugChallenge_else, fun p h => ⟨exec_debugOpen_unreached h, exec_debugClose_unreached h⟩, fun p v h
    hnew => ?_,
    fun p h => ?_, ⟨exec_challengeExpire s, challenge_late, challenge_valid⟩, fun v => ⟨exec_otpProgram_else, exec_otpRead_else,
      fun hon hgo => ?_⟩, ?_⟩
  · exact (exec_debugChallenge_new h hnew).trans (congrArg Host.Outcome.next (dbgRequest_new hnew))
  · have hopen := exec_debugOpen_reached h
    have hfail : ∀ hc : s.dbgOpen p = s.dbgFail p, exec (.debugOpen p) s = .next _ :=
      fun hc => hopen.trans (congrArg Host.Outcome.next (hc.trans (dbgFail_eq s p)))
    refine ⟨exec_debugClose_reached h, fun hno => hopen.trans (congrArg Host.Outcome.next (dbgOpen_ignored p hno)), fun hd hl =>
      ⟨fun hn => ?_,
      fun c hc => ⟨fun hlate => ?_, fun hvalid => ?_⟩⟩⟩
    · exact hfail (dbgOpen_without p hd hl (challenge_none hn))
    · exact hfail (dbgOpen_without p hd hl (challenge_late hlate))
    · have hch : s.challenge = some c := (challenge_valid hvalid).trans hc
      exact ⟨fun hm => hopen.trans (congrArg Host.Outcome.next (dbgOpen_right p hd hl hch hm)), fun hm => hfail (dbgOpen_wrong p
        hd hl hch hm)⟩
  · intro bad
    have hbad := otpRefused_iff s (bits v.toNat 11 8) (bits v.toNat 14 12) (bit v.toNat 1)
    have hrefused : ∀ hb : bad, s.otpCmd v = _ := fun hb => otpCmd_refused hgo (hbad.2 hb)
    have hallowed : ∀ hb : ¬bad, s.otpRefused (bits v.toNat 11 8) (bits v.toNat 14 12) (bit v.toNat 1) = false :=
      fun hb => Bool.eq_false_iff.2 fun hc => hb (hbad.1 hc)
    refine ⟨fun hb => ?_, fun hb hr => ?_, fun hb hr => ⟨?_, ?_, fun n hn => ?_⟩⟩
    · by_cases hr : bit v.toNat 1 = true
      · rw [if_pos hr, exec_otpRead_go hon hgo hr, hrefused hb]
        rfl
      · rw [if_neg hr, exec_otpProgram_go hon hgo (Bool.eq_false_iff.2 hr), hrefused hb]
        rfl
    · exact (exec_otpRead_go hon hgo hr).trans (congrArg Host.Outcome.next (otpCmd_read hgo (hallowed hb) hr))
    · exact (exec_otpProgram_go hon hgo hr).trans (congrArg Host.Outcome.next (otpCmd_program hgo (hallowed hb) hr))
    · exact Sparse.get_set_self ..
    · exact Sparse.get_set_ne _ _ _ _ hn
  · intro ir
    refine ⟨fun pins pre => ⟨rfl, rfl⟩, rfl, rfl, fun off v => rfl, fun off v => rfl, fun c op hs => exec_coreDbg_closed c op hs,
      fun c hs => ?_⟩
    intro j ran
    have hrun := fun op => exec_coreDbg_open c op hs
    have hop : ∀ {op : CoreDbgOp} {t : State}, j.coreDbg c.val op = t → exec (.coreDbg c op) s = .next t :=
      fun {op} {t} ht => (hrun op).trans (congrArg Host.Outcome.next ht)
    refine ⟨hop (coreDbg_release j c.val), fun hc => ?_, fun hc => ?_⟩
    · have hj : c.val ∉ j.dbg.halted := hc
      exact ⟨hop (coreDbg_halt_running hj), fun op hh hr => hop (coreDbg_running hj hh hr)⟩
    · have hj : c.val ∈ j.dbg.halted := hc
      exact ⟨hop (coreDbg_halt_halted hj), hop (coreDbg_step_halted hj), fun n => hop (coreDbg_readReg_halted hj n),
        fun n v => hop (coreDbg_writeReg_halted hj n v), fun a => hop (coreDbg_readMem_halted hj a),
        fun a b => hop (coreDbg_writeMem_halted hj a b)⟩

end Sys2Proof.Machine
end
